-- ==== Sys2Proof/Word.lean ====
section
/-! DEFINITION. Word types of the T192 model: bytes, register words, the model's time unit, and the
small index types that name the device's ports, views, tiles and channels (R2 to R7). -/

namespace Sys2Proof

/-- One byte, as R6 numbers its bits. -/
abbrev Byte := BitVec 8

/-- One 32-bit register value, as R9 and the register tables number its bits. -/
abbrev Reg := BitVec 32

/-- Device time of an event, in half nanoseconds since the model's time origin.
Half a nanosecond makes every clock period the spec names in ARRAY, CTRL and PAM4 symbols a whole number. -/
abbrev Time := Nat

/-- One nanosecond, one microsecond, one millisecond and one second in `Time` units. -/
abbrev ns : Time := 2
abbrev us : Time := 2000
abbrev ms : Time := 2000000
abbrev sec : Time := 2000000000

/-- A host port HP0 to HP3. -/
abbrev PortIx := Fin 4
/-- A view V0 to V15. -/
abbrev ViewIx := Fin 16
/-- A tile T000 to T191 (R4). -/
abbrev TileIx := Fin 192
/-- An aux input AX0 to AX3. -/
abbrev AuxIx := Fin 4
/-- A timer channel TMR0 to TMR15. -/
abbrev TmrIx := Fin 16
/-- A PIO engine PE0 to PE7. -/
abbrev EngIx := Fin 8

/-- Who sent a command: one of the four host ports, or the sideband (R340, R362). -/
inductive Src where
  | port (p : PortIx)
  | sideband
  deriving DecidableEq, Repr

/-- A Tabgo command as the command sequencer or the firmware takes it: its sender, the `TAG` and the four
`ARG` bytes of its header (R330), its R15 stamp, the instant E at which it starts (R340), and the joined
payload of its chain (R332). -/
structure Call where
  src : Src
  tag : BitVec 16
  arg : List Byte
  stamp : Time
  start : Time
  payload : List Byte
  deriving DecidableEq, Repr

/-- The end of a link test: its port, and the bits and errors that a checker in SYNC has counted since its latest window (R283, R288). -/
structure TestEnd where
  port : PortIx
  bits : Nat
  errors : Nat
  deriving DecidableEq, Repr

/-- What the board and the environment present at a boot: the four strap pins as thousandths of VIO (R397),
the REF frequency counted against KEEP in kHz, whether LFXTAL is valid, which PLLs reach lock, whether the
key-encryption key rebuilds (R471), the HU_SRC resistance in units of 100 Ω (R236), the store voltage in mV, and the store
temperature in 1/8 °C. -/
structure BootEnv where
  straps : List Nat
  refKhz : Nat
  lfxtal : Bool
  pllOk : List Bool
  kekOk : Bool
  huSrc : Nat
  ocv : Nat
  ntc : Int
  deriving DecidableEq, Repr

end Sys2Proof
end

