-- ==== Sys2Proof/Syntax.lean ====
section
/-! DEFINITION. The commands and events of the model: one constructor for each row of spec/opcode_table.json. A
host command carries its `Call`. Every other row is an event of the block or of its surroundings; it carries its
instant `t`, the unit it concerns, and the data that its surroundings supply. -/

namespace Sys2Proof

/-- What a self-test measured (R500 to R502): the signal counts of every enabled tile at its four levels, column by column; the DRAM units that failed, in
MAPA order; or the errors of each downstream lane, in lane order. -/
inductive BistRead where
  | conv (tiles : List (TileIx × List (List Nat)))
  | units (fails : List Nat)
  | lanes (errors : List Nat)
  deriving DecidableEq, Repr

/-- The test that a reading belongs to, by its bit in `DIAG_BIST.START` plus 1. -/
def BistRead.kind : BistRead → Nat
  | .conv _ => 1
  | .units _ => 2
  | .lanes _ => 3

/-- The commands that the T192 model takes, one per row of the table. -/
inductive Instr where
  /-- `HELLO` (R363): Host command that records the host's Tabgo version and returns the port's role, authentication, lifecycle, slot counts, NSEQ, DTIME and leases. -/
  | hello (c : Call)
  /-- `GET_INFO` (R364): Command that returns the part identity, firmware versions, DEVID, profile, lifecycle, flags, UID and killed-tile mask. -/
  | getInfo (c : Call)
  /-- `GET_STATUS` (R365): Command that returns the power, memory, ring, port, frame, lease, view, fault and deadline status of the device. -/
  | getStatus (c : Call)
  /-- `RESET_DEVICE` (R366): Command that checks the caller's role or the sideband rules, posts OK and schedules a warm or cold reset. -/
  | resetDevice (c : Call)
  /-- `RESET_BEGIN` (R366): The requested reset begins when its OK response is acknowledged or 100 µs after it left, or on the sideband at DONE or 10 ms after READY. -/
  | resetBegin (t : Time)
  /-- `SET_POWER_STATE` (R383): SLOW command that moves the device between STANDBY and ACTIVE, stopping or ungating the array, views, aux inputs and pumps. -/
  | setPowerState (c : Call)
  /-- `PUMPS_SETTLED` (R383): The pumps finish their 0.5 ms settling after the move to ACTIVE, and SET_POWER_STATE completes with the state reached. -/
  | pumpsSettled (t : Time)
  /-- `GET_FAULTS` (R368): Command that returns a range of fault-log entries with the log totals and the LOST count. -/
  | getFaults (c : Call)
  /-- `CLEAR_FAULTS` (R369): Command that removes matching fault entries that no longer stand, sets the COUNT of standing ones to 1 and may clear LOST. -/
  | clearFaults (c : Call)
  /-- `READ_REG` (R355): Command that reads 1 to 11 consecutive registers, clearing RC fields or peeking according to PEEK, lifecycle, lease and role. -/
  | readReg (c : Call)
  /-- `WRITE_REG` (R356): Command that checks and then applies 1 to 4 masked register writes as a whole; it also serves as the write of every register that has no row of its own. -/
  | writeReg (c : Call)
  /-- `TIME_SYNC` (R370): Command that steps or slews DTIME by the offset measured on a named port and sets the DTIME-synchronised flag. -/
  | timeSync (c : Call)
  /-- `ACQUIRE_LEASE` (R350): Command that grants, renews, refuses or pre-empts the lease of a resource according to the caller's role and the current holder. -/
  | acquireLease (c : Call)
  /-- `RELEASE_LEASE` (R372): Command that releases one lease, or every lease the caller holds, and returns the bitmap released. -/
  | releaseLease (c : Call)
  /-- `RENEW_LEASE` (R373): Command that restarts the term of one lease, or of every lease the caller holds. -/
  | renewLease (c : Call)
  /-- `LEASE_EXPIRY` (R351): A lease's term runs out at E plus the term, and the lease becomes free with LEASE EVENT 5. -/
  | leaseExpiry (t : Time) (r : Fin 30)
  /-- `LEASE_LAPSE` (R352): 250 ms after a port dropped from ACTIVE without returning, all of its leases lapse with LEASE EVENT 4. -/
  | leaseLapse (t : Time) (p : PortIx)
  /-- `SET_ARRAY_MODE` (R83): Staging command that stages the mode, DCG bits, resolution, binning and row window. -/
  | setArrayMode (c : Call)
  /-- `SET_FRAME_TIMING` (R84): Staging command that stages the trigger source, trigger timer, tail, free-run period and stagger offsets. -/
  | setFrameTiming (c : Call)
  /-- `SET_TILE_EXPOSURE` (R85): Staging command that stages exposure TICKS for a range of tiles. -/
  | setTileExposure (c : Call)
  /-- `SET_TILE_GAIN` (R85): Staging command that stages analog and digital gains for a range of tiles. -/
  | setTileGain (c : Call)
  /-- `SET_GOVERNOR` (R79): Command that turns the tile exposure governor on or off and sets its target, limits, ratios and tile mask. -/
  | setGovernor (c : Call)
  /-- `SET_SLICING` (R87): Staging command that stages slice counts, slice windows and the LFSR seed. -/
  | setSlicing (c : Call)
  /-- `SET_TILE_ENABLE` (R41): Staging command that stages the 192-bit tile enable mask, refusing a mask with no usable tile. -/
  | setTileEnable (c : Call)
  /-- `COMMIT_SETTINGS` (R74): IMMEDIATE command that judges the staged set and copies it, with its settings ID, into the pending set. -/
  | commitSettings (c : Call)
  /-- `TRIGGER_FRAME` (R71): IMMEDIATE command that gives a command-source frame trigger at its stamp, or answers BUSY or BAD_STATE. -/
  | triggerFrame (c : Call)
  /-- `START_ARRAY` (R90): Command that starts free-run frames 100 µs after its stamp, or arms the sequencer in a triggered mode. -/
  | startArray (c : Call)
  /-- `STOP_ARRAY` (R91): Command that ends the array after the frames in progress or after the current row slot, holding pixels in reset. -/
  | stopArray (c : Call)
  /-- `TRIGGER_AT` (R72): Command that queues up to 4 timed triggers at given DTIMEs. -/
  | triggerAt (c : Call)
  /-- `TRIGGER_AT_DUE` (R72): A pending TRIGGER_AT reaches its DTIME and acts as a trigger, or is ignored and counted. -/
  | triggerAtDue (t : Time)
  /-- `FRAME_START` (R52): The sequencer begins frame F at FS(F): the frame number increments, RESYNC is marked after a drain, and the FS-driven timers and FSYNC_OUT act. -/
  | frameStart (t : Time)
  /-- `OVERHEAD_SLOT` (R35): One of the 8 overhead slots converts reference rows or border rows in the enabled tiles. `samples` are the reset and signal counts of the slot by tile, and `ramp` the ramp errors measured, in 1/65,536, which the last slot takes. -/
  | overheadSlot (t : Time) (samples : List (TileIx × List (Nat × Nat))) (ramp : List (TileIx × Int))
  /-- `ROW_SLOT` (R53): One image, drain or tail row slot converts a sample-row in every enabled tile, and the engines process, hold, merge and emit lines. `samples` are the reset and signal counts of the row by tile. -/
  | rowSlot (t : Time) (samples : List (TileIx × List (Nat × Nat)))
  /-- `INTEGRATION_START` (R60): At ISTART a tile's row leaves reset and begins integrating an exposure. -/
  | integrationStart (t : Time) (tile : TileIx) (row : Nat) (exp : Fin 4)
  /-- `INTEGRATION_SLICE` (R67): A slice of a sliced exposure starts at its drawn tick, integrates for its length and transfers to the storage diode. -/
  | integrationSlice (t : Time) (tile : TileIx) (row : Nat) (exp : Fin 4)
  /-- `EXPOSURE_LATCH_POINT` (R76): At a frame's ELP the set applied to it becomes active, and the active registers, normalisation factors, dark rates and configurations update. -/
  | exposureLatchPoint (t : Time)
  /-- `ARRAY_ARM` (R70): In a triggered mode, after the previous frame's last sample-row slot, the sequencer reads the overhead slots and sets ARMED. -/
  | arrayArm (t : Time)
  /-- `STATS_COMPLETE` (R78): A frame's statistics become complete, are copied into the registers, and feed STATS packets, tone curves and the border scale. -/
  | statsComplete (t : Time)
  /-- `GOVERNOR_OUTPUT` (R81): 500 µs after a frame's last sample-row slot the governor computes new exposures and gains and issues them as an update. -/
  | governorOutput (t : Time)
  /-- `MOSAIC_LINE_TRANSFER` (R11): The mosaic bus takes a line from a tile output queue and delivers it to the pipeline arbiter, frame-store writer or spill path. `crcOk` tells whether the line passes its CRC-32C at the arbiter. -/
  | mosaicLineTransfer (t : Time) (tile : TileIx) (crcOk : Bool)
  /-- `SPILL_FETCH_COMPLETE` (R109): A spilled sample-row returns from frame memory into its fetch slot, ready for the merge. `ok` tells that frame memory returned the row without a fault. -/
  | spillFetchComplete (t : Time) (tile : TileIx) (kind : Fin 8) (row : Nat) (ok : Bool)
  /-- `PIPE_JOB_RELEASE` (R148): A pipeline job is released once its source rows and seam rows have arrived, or once its rows are in memory. -/
  | pipeJobRelease (t : Time) (v : ViewIx) (band group stripe : Nat)
  /-- `PIPE_JOB_START` (R150): The scheduler starts the highest-class, earliest-deadline released job, loading its context. -/
  | pipeJobStart (t : Time)
  /-- `PIPE_JOB_COMPLETE` (R135): A stripe job ends, completed output rows are formatted and queued, and FSTART and FEND packets are emitted. -/
  | pipeJobComplete (t : Time)
  /-- `RASTER_READBACK_START` (R137): 50 µs after a frame's last slot or aux FEND, readback of a RASTER frame store begins. -/
  | rasterReadbackStart (t : Time) (v : ViewIx)
  /-- `VIEW_STOP_DONE` (R139): A STOP_VIEW with HOW 0 or 1 takes effect at the end of the frame or stripe, the view returns to CREATED and its contexts are freed. -/
  | viewStopDone (t : Time) (v : ViewIx)
  /-- `CREATE_VIEW` (R155): Command that checks and records a new view's parameters and returns its size, contexts and line memory. -/
  | createView (c : Call)
  /-- `MODIFY_VIEW` (R127): Command that changes a view's parameters, limited to the soft fields while it runs. -/
  | modifyView (c : Call)
  /-- `DELETE_VIEW` (R156): Command that stops a view if needed and returns it to FREE. -/
  | deleteView (c : Call)
  /-- `START_VIEW` (R126): Command that claims a view's contexts, line memory and stores, runs the admission test and names its first frame. -/
  | startView (c : Call)
  /-- `STOP_VIEW` (R139): Command from the owner or a SAFETY host that stops a view after the frame or stripe in progress. -/
  | stopView (c : Call)
  /-- `GET_STATS` (R157): Command that returns items of a held statistics record. -/
  | getStats (c : Call)
  /-- `FRAME_DROP_REPEAT` (R128): At most once per second while a view keeps missing frames, a further FRAME_DROP notification is sent to the owner. -/
  | frameDropRepeat (t : Time) (v : ViewIx)
  /-- `CONFIG_AUX` (R176): Command that sets an aux input's lanes, rate, policy, stage 2 and stream geometries, soft fields from the next frame start. -/
  | configAux (c : Call)
  /-- `AUX_STATUS` (R178): Command that returns an aux input's state, error counters and per-stream frame information. -/
  | auxStatus (c : Call)
  /-- `SKEW_CALIBRATION` (R160): An aux lane receives the initial or periodic skew calibration sequence, moving the input from SKEW_WAIT toward RUN. `lane` is the logical lane, and `initial` tells the initial from the periodic sequence. -/
  | skewCalibration (t : Time) (n : AuxIx) (lane : Fin 4) (initial : Bool)
  /-- `AUX_FRAME_START` (R163): A CSI-2 Frame Start is stamped, closes any open frame of the stream with NO_FE, opens a frame, advances the count and clears LATE. The header comes as received: `head` its data identifier and word count, `ecc` the byte of the header ECC and VCX. -/
  | auxFrameStart (t : Time) (n : AuxIx) (head : BitVec 24) (ecc : Byte)
  /-- `AUX_FRAME_END` (R168): A CSI-2 Frame End closes the stream's frame, padding or dropping a short frame according to POLICY. The header comes as received: `head` its data identifier and word count, `ecc` the byte of the header ECC and VCX. -/
  | auxFrameEnd (t : Time) (n : AuxIx) (head : BitVec 24) (ecc : Byte)
  /-- `AUX_LONG_PACKET` (R167): A CSI-2 long packet is checked, policed for width and height, and stored as a line or discarded. The header comes as received: data identifier, word count, and the byte of the header ECC and VCX. `crc` is the payload CRC-16 as received. -/
  | auxLongPacket (t : Time) (n : AuxIx) (di : Byte) (wc : BitVec 16) (ecc : Byte) (payload : List Byte) (crc : BitVec 16)
  /-- `AUX_LOS` (R165): An aux input declares loss of signal, closes its open frames with NO_FE and discards packets. `lanes` are the failing physical lanes. -/
  | auxLos (t : Time) (n : AuxIx) (lanes : BitVec 4)
  /-- `AUX_LOS_RECOVER` (R165): After 16 consecutive bursts that are good on every lane, an aux input returns from LOS to RUN. -/
  | auxLosRecover (t : Time) (n : AuxIx)
  /-- `AUX_LATE` (R169): No Frame Start arrives within LATE × 100 µs, so the stream becomes LATE and its views count missed frames. -/
  | auxLate (t : Time) (n : AuxIx) (vc : Fin 4)
  /-- `AUX_STATS_COMPLETE` (R174): An aux statistics record becomes complete within 200 µs of the input's frame end. -/
  | auxStatsComplete (t : Time) (n : AuxIx)
  /-- `MEM_REQUEST` (R189): A requester's 64-byte request takes a token and a bank-queue entry, or is answered from a queued full write, or waits. `fma` is the frame-memory address, and `write` the byte enables and data of a write. -/
  | memRequest (t : Time) (cls : Fin 6) (inst : Byte) (fma : Nat) (write : Option (BitVec 64 × List Byte))
  /-- `MEM_PICK` (R192): A sub-channel picks and issues one eligible bank-queue entry, switching between read and write modes. `sc` is the sub-channel. -/
  | memPick (t : Time) (sc : Fin 8)
  /-- `ENTRY_AGED` (R192): A queued entry waits AGE × 10 ns and becomes aged, which gives it priority. `q` is the bank queue. -/
  | entryAged (t : Time) (q : Fin 256)
  /-- `MEM_ACCESS_COMPLETE` (R198): A unit access finishes, ECC is decoded and checked, data are corrected or returned, and the token is freed. The oldest access of bank queue `q` at the dies finishes, to a data unit or a check unit. New byte errors of a unit that is read come as position and XOR value, and positions 0 to 63 stand until it is written: `flips` those of a data unit, with positions 64 to 67 in the D that it is read with, and `chk` those of a check unit. -/
  | memAccessComplete (t : Time) (q : Fin 256) (flips chk : List (Nat × Nat))
  /-- `REFRESH_DUE` (R194): A bank's refresh interval passes, so it owes a per-bank refresh, issued when the bank is idle or forced at 8 owed. -/
  | refreshDue (t : Time) (q : Fin 256)
  /-- `REFRESH_RATE_POLL` (R194): Every 16 ms the controller reads the dies' refresh-rate reports and sets the refresh multiplier. `reports` are the dies' reports: 0 ×1, 1 ×2, 2 ×4. -/
  | refreshRatePoll (t : Time) (reports : List (Fin 3))
  /-- `POWER_DOWN_ENTRY` (R195): A rank idle for IDLE MEMC cycles enters power-down. -/
  | powerDownEntry (t : Time) (sc : Fin 8) (rank : Fin 2)
  /-- `ECC_LINE_IDLE` (R197): An ECC-cache line idle for 10 µs is written back. `sc` and `block` name the line, and `used` is the instant since which it has been idle. -/
  | eccLineIdle (t : Time) (sc : Fin 8) (block : Nat) (used : Time)
  /-- `ROWHAMMER_WINDOW` (R201): A 32 ms window starts, and every row-activate table and throttle is cleared. -/
  | rowhammerWindow (t : Time)
  /-- `SWEEP_COMPLETE` (R205): A sweep ends: on success the table is stored and applied; on failure the next lower bin is tried, or memory is declared unavailable. `results` are the windows of passing codes, as first code and width: per sub-channel the 12 DQ lanes (write, read), then CA/CS (CS, CA). -/
  | sweepComplete (t : Time) (results : List ((Nat × Nat) × (Nat × Nat)))
  /-- `MEMC_BIN_TARGET_WRITE` (R206): A write of MEMC_BIN.TARGET requests a speed-bin change. -/
  | memcBinTargetWrite (t : Time) (target : BitVec 2)
  /-- `BIN_CHANGE` (R207): A requested or forced speed-bin change runs: issue stops, dies self-refresh, PLLM relocks, the table loads, and the check runs. `ok` is the result of the FIFO-loopback check of step 5, which a warm reset and Dawn make from INIT. -/
  | binChange (t : Time) (ok : Bool)
  /-- `MEM_STATUS` (R211): Command that returns the controller state, bin, map, ECC counts, demand, capacity and token use. -/
  | memStatus (c : Call)
  /-- `MEM_RECOVER` (R214): SLOW command that ends a freeze or unavailability, flushes, frees the tokens, optionally poisons and retrains. -/
  | memRecover (c : Call)
  /-- `CONFIG_RING` (R244): Command that sets the ring's segments, views, PRE, POST and flags, or turns the ring off. -/
  | configRing (c : Call)
  /-- `MARK_EVENT` (R223): IMMEDIATE command that opens a sealed segment around its stamp, or extends the OPEN one. -/
  | markEvent (c : Call)
  /-- `READ_RING` (R246): BULK command that sends a segment's records of one view as BULK packets, then its final response. -/
  | readRing (c : Call)
  /-- `RING_STATUS` (R247): Command that returns the ring state and the eight segment entries. -/
  | ringStatus (c : Call)
  /-- `RELEASE_SEGMENT` (R248): Command that frees a sealed segment and its chunk pins, leaving FULL. -/
  | releaseSegment (c : Call)
  /-- `SEGMENT_SEAL` (R224): Once END has passed and every window record is sealed, an OPEN segment becomes SEALED and the directory is written. -/
  | segmentSeal (t : Time) (slot : Fin 8)
  /-- `SUPPLY_FAIL` (R228): The Keeper detects VIO or VCORE below its fail level for 2 µs, starting Dusk or losing power. `vio` and `vcore` tell which rail failed, and `uj` is the energy that a Dusk draws from the store. -/
  | supplyFail (t : Time) (vio vcore : Bool) (uj : Nat)
  /-- `STORE_EXHAUSTED` (R232): In BUOY the store falls to 0.60 V, so retention and the Keeper are lost. -/
  | storeExhausted (t : Time)
  /-- `SUPPLY_RETURN` (R233): All three rails have held their good levels for 1 ms (SG), so Dawn begins. `env` is what the board presents. `held` is the instant since which VIO, VCORE and VMID have all held. -/
  | supplyReturn (t : Time) (env : BootEnv) (held : Time)
  /-- `CONFIG_HOLDUP` (R249): Command that sets the charger enable, target, capacitance, limits, thermistor, Lantern patterns and ESR limit. -/
  | configHoldup (c : Call)
  /-- `HOLDUP_STATUS` (R250): Command that returns the charger phase, source class, fault, voltages, currents, health and budget. -/
  | holdupStatus (c : Call)
  /-- `CHARGER_VIO_SAMPLE` (R237): Every 1 µs the charger samples VIO and starts or stops its system-priority reductions. `mv` is VIO in mV. -/
  | chargerVioSample (t : Time) (mv : Nat)
  /-- `CHARGER_LIMIT_DOWN` (R237): Every 50 µs while VIO is below 1.74 V the charger lowers its input limit by 25 % of ILIM. -/
  | chargerLimitDown (t : Time)
  /-- `CHARGER_LIMIT_UP` (R237): After VIO has stayed at 1.76 V or above for 10 ms the charger raises its input limit by one step. -/
  | chargerLimitUp (t : Time)
  /-- `CHARGER_PULSE_END` (R238): A charge pulse's rest ends: OCV and the store temperature are measured, health and budget are judged, and the phase moves. `ocv` is the open-circuit voltage in mV, and `ohm` the thermistor in Ω. -/
  | chargerPulseEnd (t : Time) (ocv ohm : Nat)
  /-- `CHARGER_OCV_CHECK` (R238): Every 10 s in DONE the charger measures OCV and enters MAINTAIN when it has fallen. `ocv` is the open-circuit voltage in mV. -/
  | chargerOcvCheck (t : Time) (ocv : Nat)
  /-- `NTC_READ` (R239): Every 1 s outside charging the store temperature is read and the temperature windows are applied. `ohm` is the thermistor in Ω. -/
  | ntcRead (t : Time) (ohm : Nat)
  /-- `LANTERN_PATTERN_TICK` (R242): A Lantern pattern's timing drives STAT0 or STAT1 on or off. `pin` is 0 for STAT0 and 1 for STAT1. -/
  | lanternPatternTick (t : Time) (pin : Fin 2)
  /-- `LINK_STATUS` (R286): Command that returns a port's state, rates, failures, lane map, equalisation and counters. -/
  | linkStatus (c : Call)
  /-- `SET_LINK_RATE` (R287): Command that stores a port's enable, maximum rates and precoding, and may start a rate change. -/
  | setLinkRate (c : Call)
  /-- `LINK_TEST` (R288): SLOW command that injects errors in ACTIVE or runs a PRBS pattern in TEST for a given duration. -/
  | linkTest (c : Call)
  /-- `LINK_TEST_END` (R288): The test duration ends, so the port returns to CLOCK and the results are kept for COMPLETE. `r` names the port, with what its checker in SYNC has counted since the latest window. -/
  | linkTestEnd (t : Time) (r : TestEnd)
  /-- `RATE_CHANGE_START` (R281): After the SET_LINK_RATE response is acknowledged, or 100 µs later, the port goes to RATE at its next marker boundary with views PAUSED. -/
  | rateChangeStart (t : Time) (p : PortIx)
  /-- `BACKOFF_END` (R270): A port's back-off in DETECT ends, so a new training attempt may begin. -/
  | backoffEnd (t : Time) (p : PortIx)
  /-- `BEACON_BURST` (R270): A port in DETECT sends a 40 µs Beacon burst of HELLO blocks, repeating every max(100 ms, B). -/
  | beaconBurst (t : Time) (p : PortIx)
  /-- `UCLK_VALID` (R268): UCLK has been valid at 500 MHz for 10 µs without LOS, so the port moves from DETECT to CLOCK. -/
  | uclkValid (t : Time) (p : PortIx)
  /-- `TRAINING_BLOCK_RX` (R274): A valid host training block is received, and the T192 acts on its message and may advance the training state. -/
  | trainingBlockRx (t : Time) (p : PortIx) (block : List Byte)
  /-- `TRAINING_TIMEOUT` (R269): A training state's timeout expires, so the port fails with TIMEOUT or NO_LANE and drops to DETECT. -/
  | trainingTimeout (t : Time) (p : PortIx)
  /-- `CTLE_SETTING_STEP` (R264): After 2¹⁵ symbols at one CTLE setting the eye is measured and the next setting is tried, or the best is kept. `height` is the inner-eye height measured, in mV. -/
  | ctleSettingStep (t : Time) (p : PortIx) (height : Nat)
  /-- `DFE_ADAPT` (R264): Every 256 symbols the upstream DFE taps adapt by one LSB by sign-sign LMS. `err` and `data` are the signs of the slicer error and of the five previous symbols. -/
  | dfeAdapt (t : Time) (p : PortIx) (err : Bool) (data : List Bool)
  /-- `PHASE_TRACK` (R255): In ACTIVE the upstream sampling phase follows data drift by at most one step per 1,024 symbols. `later` is the direction of the drift. -/
  | phaseTrack (t : Time) (p : PortIx) (later : Bool)
  /-- `PRBS_WINDOW_END` (R279): A window of 2²³ PRBS bits ends, giving the error count that sets UP_OK or feeds ERR. -/
  | prbsWindowEnd (t : Time) (p : PortIx) (errors : Nat)
  /-- `RATE_IDLE_END` (R280): The 50 µs idle of a non-final rate offer ends, so both sides restart clocks and blocks at the new rates in CLOCK. -/
  | rateIdleEnd (t : Time) (p : PortIx)
  /-- `ERROR_INJECTION` (R284): Every 2^INJ_EXP symbols, periodic injection flips the low bit of one transmitted symbol on each selected lane. -/
  | errorInjection (t : Time) (p : PortIx)
  /-- `LOS_ONSET` (R265): U0 or UCLK amplitude falls below 60 mV, or UCLK frequency leaves ±1,000 ppm, so LOS or LOL begins. `lol` tells LOL from LOS, and `ppm` is the measured offset of UCLK. -/
  | losOnset (t : Time) (p : PortIx) (lol : Bool) (ppm : Int)
  /-- `LOS_CLEAR` (R266): LOS or LOL ends within 10 µs, and the episode is counted in LOS_GLITCH. `ppm` is the measured offset of UCLK where LOL is judged, and absent where LOS ends. -/
  | losClear (t : Time) (p : PortIx) (ppm : Option Int)
  /-- `LOS_FAILURE` (R266): LOS or LOL has stood for 10 µs, so the port fails, or drops from ACTIVE to DETECT. -/
  | losFailure (t : Time) (p : PortIx) (lol : Bool)
  /-- `HOLD_EXPIRY` (R325): A port's view hold timer ends before it returns, so its PAUSED views go to CREATED and free their resources. -/
  | holdExpiry (t : Time) (p : PortIx)
  /-- `ALIGNMENT_MARKER_TX` (R320): A downstream alignment marker is sent and stamped, followed every 32 markers by a TIME packet. -/
  | alignmentMarkerTx (t : Time) (p : PortIx)
  /-- `ALIGNMENT_MARKER_RX` (R261): An upstream marker is checked and stamped; the first accepted marker enters ACTIVE, and three failures cause AM loss. -/
  | alignmentMarkerRx (t : Time) (p : PortIx) (marker : List Byte)
  /-- `UPSTREAM_CODEWORD` (R293): An upstream RS(272,256) codeword is decoded, corrected or discarded, and its five cells are delivered. `levels` are the 1,360 PAM4 levels received, 0 for −3 to 3 for +3, and `t` is the instant of the last symbol. -/
  | upstreamCodeword (t : Time) (p : PortIx) (levels : List (Fin 4))
  /-- `REQUEST_ENTRY` (R330): A CMD packet with KIND 0 delivers a request entry that is CRC-checked, joined to a chain, and dispatched to the sequencer or firmware. -/
  | requestEntry (t : Time) (p : PortIx) (entry : List Byte)
  /-- `DOORBELL` (R335): A CMD packet with KIND 1 acknowledges consumed device entries and frees response slots. -/
  | doorbell (t : Time) (p : PortIx) (body : List Byte)
  /-- `CREDIT` (R309): An upstream CREDIT cell reports cells freed per stream, and the first INIT sets the allowances. -/
  | credit (t : Time) (p : PortIx) (body : List Byte)
  /-- `ACK` (R306): An upstream ACK cell advances the downstream reliable window, or with NAK starts a go-back. -/
  | ack (t : Time) (p : PortIx) (body : List Byte)
  /-- `UPSTREAM_TIME_CELL` (R321): An upstream TIME cell gives host times for two markers, from which θ and δ are computed and a TIME packet is sent. -/
  | upstreamTimeCell (t : Time) (p : PortIx) (body : List Byte)
  /-- `TRIG_CELL` (R323): An upstream TRIG cell gives a frame trigger at its stamp, or is ignored and counted. -/
  | trigCell (t : Time) (p : PortIx) (body : List Byte)
  /-- `TRAIN_CELL` (R267): An upstream TRAIN cell carrying ABORT ends ACTIVE with reason ABORT. -/
  | trainCell (t : Time) (p : PortIx) (body : List Byte)
  /-- `DOWNSTREAM_CELL_SLOT` (R299): At each downstream cell slot the T192 sends the first ready cell in priority order, taking credit and sequence numbers. -/
  | downstreamCellSlot (t : Time) (p : PortIx)
  /-- `RTO_EXPIRY` (R306): RTO passes without ACK progress while cells are outstanding, so the sender resends from the oldest and may raise LINK_STALL. -/
  | rtoExpiry (t : Time) (p : PortIx)
  /-- `CHAIN_TIMEOUT` (R332): No further entry of an open chain arrives within 1 ms, so the chain is answered with TIMEOUT. -/
  | chainTimeout (t : Time) (p : PortIx)
  /-- `RESPONSE_POST` (R334): A waiting response or notification posts when it has the response slots it needs, in priority order. -/
  | responsePost (t : Time) (p : PortIx)
  /-- `COMPLETE_DROP` (R345): A COMPLETE notification still queued 1 s after it arose is dropped and the next notification carries LOST. -/
  | completeDrop (t : Time) (p : PortIx)
  /-- `SB_SUBMIT` (R360): A sideband SUBMIT write hands the chain in SB_REQ to the firmware, or sets ERR. -/
  | sbSubmit (t : Time) (request : List Byte)
  /-- `SB_DONE` (R360): A sideband DONE write consumes the shown response, or sets ERR. -/
  | sbDone (t : Time)
  /-- `SB_ABORT` (R360): A sideband ABORT write clears the request buffer and discards any response shown. -/
  | sbAbort (t : Time)
  /-- `ENEC` (R361): I3C CCC that enables target events such as IBI. -/
  | enec (t : Time) (events : Byte)
  /-- `DISEC` (R361): I3C CCC that disables target events. -/
  | disec (t : Time) (events : Byte)
  /-- `RSTDAA` (R358): I3C CCC that resets the dynamic address and returns the target to I2C mode. -/
  | rstdaa (t : Time)
  /-- `ENTDAA` (R358): I3C CCC for dynamic address assignment that puts the target in I3C mode. -/
  | entdaa (t : Time) (addr : BitVec 7)
  /-- `SETDASA` (R358): I3C CCC that sets the dynamic address from the static address and puts the target in I3C mode. `static` is the static address named, and `addr` the dynamic address given. -/
  | setdasa (t : Time) (static addr : BitVec 7)
  /-- `SETNEWDA` (R361): I3C CCC that changes the target's dynamic address. -/
  | setnewda (t : Time) (addr : BitVec 7)
  /-- `SETMWL` (R361): I3C CCC that sets the maximum write length, refusing values below 65. -/
  | setmwl (t : Time) (len : BitVec 16)
  /-- `SETMRL` (R361): I3C CCC that sets the maximum read length, refusing values below 65. -/
  | setmrl (t : Time) (len : BitVec 16)
  /-- `GETMWL` (R361): I3C CCC that returns the maximum write length. -/
  | getmwl (t : Time)
  /-- `GETMRL` (R361): I3C CCC that returns the maximum read length. -/
  | getmrl (t : Time)
  /-- `GETPID` (R361): I3C CCC that returns the provisional ID from OTP IDENT. -/
  | getpid (t : Time)
  /-- `GETBCR` (R361): I3C CCC that returns BCR 0x06. -/
  | getbcr (t : Time)
  /-- `GETDCR` (R361): I3C CCC that returns DCR 0x00. -/
  | getdcr (t : Time)
  /-- `GETSTATUS` (R361): I3C CCC that returns the target status. -/
  | getstatus (t : Time)
  /-- `POWER_ON` (R381): All three rails become good with POR_N high after OFF, so the device leaves OFF and boots. -/
  | powerOn (t : Time) (env : BootEnv)
  /-- `POR_N_PULSE` (R378): POR_N is held low for 10 µs or more while the rails are good, which causes a cold reset or is latched during Dusk, Buoy or Dawn. `width` is how long POR_N was low. -/
  | porNPulse (t : Time) (width : Time)
  /-- `VMID_FAIL` (R380): VMID fails while VIO and VCORE stay good, raising VMID_LOW and a BROWNOUT reset without Dusk. -/
  | vmidFail (t : Time)
  /-- `KEEPER_LOSS` (R529): VIO falls below 1.20 V for 2 µs outside Dusk, Buoy and Dawn, so the Keeper and its latches are lost. -/
  | keeperLoss (t : Time)
  /-- `REF_LOST` (R386): The clock monitor finds REF missing or drifting, so every PLL unlocks, all but KEEP stop and CLKMON fires. -/
  | refLost (t : Time)
  /-- `REF_RETURN` (R386): REF has been valid for 1 ms after a loss, so the device resets with cause REF_LOST. `khz` is the REF frequency now counted. -/
  | refReturn (t : Time) (khz : Nat)
  /-- `LFXTAL_LOSS` (R21): LFXTAL shows no valid clock for 8 RC periods, so KEEP switches to the internal RC and KEEP_RC is set. -/
  | lfxtalLoss (t : Time)
  /-- `LFXTAL_VALID` (R385): LFXTAL becomes valid, so KEEP moves to it and the REF check is repeated at ±0.1 %. `khz` is the REF frequency now counted against the crystal. -/
  | lfxtalValid (t : Time) (khz : Nat)
  /-- `PLL_LOCK` (R389): A PLL holds its phase within WIN for N REF cycles, becomes LOCKED and switches its outputs back from the safe clock. -/
  | pllLock (t : Time) (n : Fin 4)
  /-- `PLL_LOCK_TIMEOUT` (R389): A lock attempt does not reach LOCKED within TMO, so the next band entry is tried or the PLL enters FAIL. -/
  | pllLockTimeout (t : Time) (n : Fin 4)
  /-- `PLL_UNLOCK` (R391): A locked PLL's phase error stays outside WIN for 16 REF cycles, so it raises PLL_UNLOCK and relocks. -/
  | pllUnlock (t : Time) (n : Fin 4)
  /-- `WATCHDOG_EXPIRY` (R402): The watchdog is not served for PERIOD, so the device resets with cause 6. -/
  | watchdogExpiry (t : Time)
  /-- `LOCKSTEP_MISMATCH` (R402): The lockstep comparator finds the two cores differ, so the device resets with cause 7. -/
  | lockstepMismatch (t : Time)
  /-- `SRAM_UE` (R402): Control SRAM returns an uncorrectable error, so the device resets with cause 8. -/
  | sramUe (t : Time)
  /-- `TS_SAMPLE` (R408): The thermal sensors are sampled, which updates levels, Squall, sampling rate, sensor failures, grace timers and FOGHORN. `reads` are the sixteen readings in 1/8 °C, none where a conversion does not complete. -/
  | tsSample (t : Time) (reads : List (Option Int))
  /-- `LEVEL_HOLD_EXPIRY` (R408): Every sensor has read below a threshold less HYST for 1 s, so that level is left. -/
  | levelHoldExpiry (t : Time)
  /-- `SQUALL_CLEAR` (R409): Every rate of rise has stayed below half the Squall threshold for 1 s, so Squall clears. -/
  | squallClear (t : Time)
  /-- `SAMPLE_RATE_RETURN` (R406): Neither fast-sampling condition has held for 1 s, so the sensors return to 250 Hz. -/
  | sampleRateReturn (t : Time)
  /-- `GRACE_EXPIRY` (R411): The Foghorn grace timer expires, and the enforcement step rises if heat or Squall persists. -/
  | graceExpiry (t : Time)
  /-- `DOWN_TIMER_EXPIRY` (R411): The 10 s down timer expires, so the enforcement step falls by one. -/
  | downTimerExpiry (t : Time)
  /-- `FOGHORN_REPEAT` (R413): Every 1 s at THROTTLE or above the latest FOGHORN is resent to ports that have not acknowledged it. -/
  | foghornRepeat (t : Time)
  /-- `SHUTDOWN_EXIT` (R414): After at least 1 s in SHUTDOWN with every sensor 15 °C below for 1 s, the device resets with cause THERMAL. -/
  | shutdownExit (t : Time)
  /-- `THERMAL_STATUS` (R419): Command that returns the thermal level, step, flags, readings and log use. -/
  | thermalStatus (c : Call)
  /-- `ACK_FOGHORN` (R420): Command that stops the repeats of a FOGHORN and of every earlier one to the caller's port. -/
  | ackFoghorn (c : Call)
  /-- `SET_THERMAL` (R421): Command that sets the thermal thresholds, hysteresis, Squall threshold and grace time from the next sample. -/
  | setThermal (c : Call)
  /-- `CONFIG_TIMER` (R445): Command that configures a timer channel's mode, source, prescaler, period, matches, actions and capture input. -/
  | configTimer (c : Call)
  /-- `TIMER_CONTROL` (R446): Command that starts, stops or resets a set of channels now or at a DTIME. -/
  | timerControl (c : Call)
  /-- `TIMER_CONTROL_AT` (R446): A pending timed TIMER_CONTROL reaches its DTIME and acts on its channels in one PIO cycle. -/
  | timerControlAt (t : Time)
  /-- `TIMER_CAPTURE` (R447): Command that reads the counts of a set of channels in one PIO cycle together with DTIME. -/
  | timerCapture (c : Call)
  /-- `TIMER_TICK` (R424): A channel's prescaler accumulator passes D, producing one tick that advances COUNT. -/
  | timerTick (t : Time) (n : TmrIx)
  /-- `PERIOD_EVENT` (R425): COUNT reaches its period boundary, which fires PERIOD, applies shadows, runs actions and may stop a one-shot. -/
  | periodEvent (t : Time) (n : TmrIx)
  /-- `MATCH_EVENT` (R425): COUNT becomes MATCH0 or MATCH1, which fires the match's output and link actions and sets the engine latches. `second` tells MATCH1 from MATCH0. -/
  | matchEvent (t : Time) (n : TmrIx) (second : Bool)
  /-- `ZERO_EVENT` (R425): In UP_DOWN mode COUNT falls to 0, which fires ZERO and its actions. -/
  | zeroEvent (t : Time) (n : TmrIx)
  /-- `PIN_EDGE_ACCEPTED` (R430): A capture input's filter accepts a selected edge, which advances the edge prescaler. `level` is the level that the filter accepted. -/
  | pinEdgeAccepted (t : Time) (n : TmrIx) (level : Bool)
  /-- `CAPTURE_EVENT` (R430): The edge prescaler reaches NPRE, so COUNT is captured, actions run, and pin triggers or HWSTART act. -/
  | captureEvent (t : Time) (n : TmrIx)
  /-- `TMR_CAP_LO_READ` (R431): A read of TMRn_CAP_LO returns the low word, latches the high word and clears NEW. -/
  | tmrCapLoRead (t : Time) (n : TmrIx)
  /-- `TMR_COUNT_READ` (R432): A read of TMRn_COUNT returns 0 and sets RD_RUNNING while the channel runs. `high` tells COUNT_HI from COUNT_LO. -/
  | tmrCountRead (t : Time) (n : TmrIx) (high : Bool)
  /-- `FSYNC_OUT_END` (R442): ARG µs after FS(F) an FSYNC_OUT pin goes low again. -/
  | fsyncOutEnd (t : Time) (pin : Fin 64)
  /-- `PIN_TRANSITION_OVERRUN` (R443): Two or more transitions on a pin within one sampling interval set its overrun flag. -/
  | pinTransitionOverrun (t : Time) (pin : Fin 64)
  /-- `LOAD_PIO` (R448): Command that loads a stopped engine's program words and configuration. -/
  | loadPio (c : Call)
  /-- `START_PIO` (R449): Command that starts a set of stopped engines together at given PCs with their registers cleared. -/
  | startPio (c : Call)
  /-- `STOP_PIO` (R450): Command that stops engines in any state, discarding unsent and unstored bits and optionally flushing queues. -/
  | stopPio (c : Call)
  /-- `PIO_QUEUE` (R451): Command that writes words into an engine's TXQ. -/
  | pioQueue (c : Call)
  /-- `CONFIG_PINS` (R452): Command that sets the mux, pull, drive and argument of a list of pins. -/
  | configPins (c : Call)
  /-- `DRIVE` (R435): PIO instruction that sets the level or direction latches of masked local pins. -/
  | drive (t : Time) (e : EngIx)
  /-- `XFER` (R436): PIO instruction that shifts N bits out of TXR and into RXR with the configured clock. Bit k of `di` is the k-th bit sampled on DI. -/
  | xfer (t : Time) (e : EngIx) (di : BitVec 32)
  /-- `FETCH` (R435): PIO instruction that loads TXR from the head of TXQ, optionally stalling while it is empty. -/
  | fetch (t : Time) (e : EngIx)
  /-- `STORE` (R435): PIO instruction that pushes RXR into RXQ, optionally stalling while it is full, and clears RXR. -/
  | store (t : Time) (e : EngIx)
  /-- `COPY` (R435): PIO instruction that copies a register, optionally inverted or byte-reversed, into another. `pins` are the levels of the local pins. -/
  | copy (t : Time) (e : EngIx) (pins : Byte)
  /-- `IMM` (R435): PIO instruction that loads a 16-bit value into half of W0 or W1. -/
  | imm (t : Time) (e : EngIx)
  /-- `LOOP` (R437): PIO instruction that pushes a loop entry and repeats a block COUNT + 1 times. -/
  | loopI (t : Time) (e : EngIx)
  /-- `WAIT` (R437): PIO instruction that waits for a pin level or edge, a timer event or a queue condition. `pins` are the levels of the local pins. -/
  | waitI (t : Time) (e : EngIx) (pins : Byte)
  /-- `BR` (R435): PIO instruction that branches when its condition holds, clearing a tested timer latch and popping left loops. `pins` are the levels of the local pins. -/
  | br (t : Time) (e : EngIx) (pins : Byte)
  /-- `FLUSH` (R435): PIO instruction that sends the packet buffer at once when it holds a word. -/
  | flush (t : Time) (e : EngIx)
  /-- `END` (R441): PIO instruction that stops the engine as STOP_PIO without FLUSH does. -/
  | endI (t : Time) (e : EngIx)
  /-- `PIO_ILLEGAL` (R435): An engine executes an illegal instruction or loop, so it halts with fault PIO_ILLEGAL. -/
  | pioIllegal (t : Time) (e : EngIx)
  /-- `PIO_STALL_END` (R439): The condition of a stalled FETCH, STORE or WAIT comes to hold, and the engine runs again. `pins` are the levels of the local pins, and `edge` tells that the edge waited for came. -/
  | pioStallEnd (t : Time) (e : EngIx) (pins : Byte) (edge : Bool)
  /-- `WAIT_TIMEOUT` (R439): A WAIT has not completed within WAIT_TMO, so the engine halts with fault WAIT_TIMEOUT. -/
  | waitTimeout (t : Time) (e : EngIx)
  /-- `RXQ_WORD_MOVE` (R438): An RXQ word moves into the engine's packet buffer when there is room. -/
  | rxqWordMove (t : Time) (e : EngIx)
  /-- `PIODATA_PACKET` (R438): The packet buffer reaches PKT_WORDS and leaves as a PIODATA packet, or is lost when the port is out of ACTIVE. -/
  | piodataPacket (t : Time) (e : EngIx)
  /-- `PKT_US_EXPIRY` (R438): PKT_US µs after its first word entered RXQ the packet buffer leaves as a PIODATA packet. -/
  | pktUsExpiry (t : Time) (e : EngIx)
  /-- `AUTH_CHALLENGE` (R474): Command that issues a fresh NONCE for a key slot. -/
  | authChallenge (c : Call)
  /-- `AUTH_RESPONSE` (R474): Command that verifies the host's CMAC, grants the slot's role and returns MAC_D, or counts a failure. -/
  | authResponse (c : Call)
  /-- `NONCE_EXPIRY` (R474): A NONCE expires 1 s after it was issued. -/
  | nonceExpiry (t : Time) (p : PortIx)
  /-- `SET_VIEW_AUTH` (R477): Command that turns frame tags on or off for a view of the caller. -/
  | setViewAuth (c : Call)
  /-- `OTP_READ` (R485): Command that returns accepted OTP words and a bad-word bitmap. -/
  | otpRead (c : Call)
  /-- `OTP_PROGRAM` (R486): SLOW command that programs OTP words, a key instance, a policy instance or the PUF enrolment. -/
  | otpProgram (c : Call)
  /-- `OTP_LOCK_REGION` (R468): SLOW command that checks a region's CRC and programs its lock word. -/
  | otpLockRegion (c : Call)
  /-- `LIFECYCLE` (R469): SLOW command that programs the next lifecycle marker, with the RETURN erase. -/
  | lifecycle (c : Call)
  /-- `FW_LOAD` (R489): SLOW command that begins, feeds, ends or aborts a signed firmware image load. -/
  | fwLoad (c : Call)
  /-- `FW_LOAD_TIMEOUT` (R489): A firmware load with no command for 10 s ends without effect. -/
  | fwLoadTimeout (t : Time)
  /-- `FW_HANDOVER` (R403): A verified image takes over the control processor within 5 ms while the hardware keeps running, and sends COMPLETE. -/
  | fwHandover (t : Time)
  /-- `ROLLBACK_STEP_WRITE` (R466): Once the programming window of R465 holds, the firmware programs anti-rollback steps until the counter equals SVN. -/
  | rollbackStepWrite (t : Time)
  /-- `ENC_N_ALARM` (R480): ENC_N has been low for 1 ms, so the ENC_N alarm source fires its policy action, or is latched by the Keeper in BUOY. -/
  | encNAlarm (t : Time)
  /-- `SHIELD_CHECK` (R480): The die mesh is checked every 1 ms, or every 100 ms in BUOY, and fires SHIELD if open or shorted. `bad` is whether the mesh reads open or shorted. -/
  | shieldCheck (t : Time) (bad : Bool)
  /-- `VGLITCH` (R480): A short VCORE or VIO excursion of 2 ns to 2 µs fires the VGLITCH alarm source. -/
  | vglitch (t : Time)
  /-- `FAULT_REPEAT` (R496): At most once per second per entry, further occurrences of a fault send a FAULT notification with EVENT 4. -/
  | faultRepeat (t : Time) (code inst : BitVec 16)
  /-- `CONVERTER_SELF_TEST` (R500): DIAG_BIST START bit 0 runs the converter self-test on every enabled tile. -/
  | converterSelfTest (t : Time)
  /-- `MEMORY_SELF_TEST` (R501): DIAG_BIST START bit 1 runs the destructive March C− memory test. -/
  | memorySelfTest (t : Time)
  /-- `LINK_SELF_TEST` (R502): DIAG_BIST START bit 2 loops each downstream lane of a QUIET port to its receiver and checks PRBS31. -/
  | linkSelfTest (t : Time)
  /-- `BIST_COMPLETE` (R501): A running self-test finishes and records its result, failures and first failure. `read` is what the test measured. -/
  | bistComplete (t : Time) (read : BistRead)
  /-- `LFXTAL_WAIT_TIMEOUT` (R385): With REF_KHZ at 0, LFXTAL has not become valid within 2 s, so REF is unknown, REF_FREQ is raised and no PLL starts. -/
  | lfxtalWaitTimeout (t : Time)
  /-- `DTIME_SLEW_END` (R370): A SLEW started by TIME_SYNC has absorbed θ, and DTIME returns to its normal rate. -/
  | dtimeSlewEnd (t : Time)
  /-- `OTP_WORD_PROGRAMMED` (R465): The programming of one OTP word (up to 250 µs) ends with its verify result, which lets the next word, a waiting own write, a Dusk stop or the command's COMPLETE follow. `norm` and `strict` are the bits that now read 1 at the two margins of R459. -/
  | otpWordProgrammed (t : Time) (norm strict : BitVec 39)
  /-- `SLOW_COMMAND_TIMEOUT` (R341): A SLOW command whose work runs beyond its deadline completes with TIMEOUT. -/
  | slowCommandTimeout (t : Time) (opcode : BitVec 16)
  /-- `PRBS_SYNC_ACQUIRED` (R283): A PRBS checker has seen 64 correct bits in a row and declares SYNC. `rx` are the bits received: the seed of the checker, then 64 bits. -/
  | prbsSyncAcquired (t : Time) (p : PortIx) (rx : List Bool)
  /-- `PRBS_SYNC_LOSS` (R283): A PRBS checker finds 16 or more errors in a 64-bit window, counts a SYNC_LOSS and reloads. `rx` are the 64 bits of the window. -/
  | prbsSyncLoss (t : Time) (p : PortIx) (rx : List Bool)
  /-- `CHARGER_REST_START` (R238): 900 ms into a charge pulse, charging stops and the 100 ms rest begins. `mean` is the mean input current in mA, `dq` the charge delivered in the pulse in mC, `v1` the store voltage 1 ms into it in mV, and `iOut` the output current in mA. -/
  | chargerRestStart (t : Time) (mean dq v1 iOut : Nat)
  /-- `CHARGE_BUDGET_EXCEEDED` (R240): The charge counted in a cycle exceeds Q_B, so charging stops with fault CHG_BUDGET. `dq` is the charge delivered so far in the pulse, in mC. -/
  | chargeBudgetExceeded (t : Time) (dq : Nat)
  /-- `CHARGE_TARGET_REACHED` (R238): The store voltage during a FAST pulse reaches the effective target, and the charger enters TAPER. `mv` is the store voltage. -/
  | chargeTargetReached (t : Time) (mv : Nat)
  deriving DecidableEq, Repr

end Sys2Proof
end

