-- ==== Sys2Proof/Machine/Bytes.lean ====
section
/-! DEFINITION. Byte-order, bit-field, checksum and list helpers used by every meaning
(R5, R6, R297, R331). -/

namespace Sys2Proof.Machine

/-- Bits `hi:lo` of a number (R6). -/
def bits (v hi lo : Nat) : Nat := (v >>> lo) % 2 ^ (hi + 1 - lo)

/-- `v` with bits `hi:lo` replaced by `x`, cut to the field. -/
def setBits (v hi lo x : Nat) : Nat :=
  v - (bits v hi lo) * 2 ^ lo + (x % 2 ^ (hi + 1 - lo)) * 2 ^ lo

/-- One bit of a number. -/
def bit (v k : Nat) : Bool := Nat.testBit v k

/-- 1 or 0. -/
def b2n (b : Bool) : Nat := if b then 1 else 0

/-- `v` with bit `k` set to `b`. -/
def setBit (v k : Nat) (b : Bool) : Nat := setBits v k k (b2n b)

/-- Saturating count to a field of `w` bits. -/
def satAdd (w v n : Nat) : Nat := min (v + n) (2 ^ w - 1)

/-- A byte of a number below 256 (higher bits are cut). -/
def byte (n : Nat) : Byte := BitVec.ofNat 8 n

/-- Little-endian value of a byte list (R6). -/
def leVal : List Byte → Nat
  | [] => 0
  | b :: bs => b.toNat + 256 * leVal bs

/-- `n` bytes of `v`, little-endian (R6). -/
def leBytes : Nat → Nat → List Byte
  | 0, _ => []
  | n + 1, v => byte (v % 256) :: leBytes n (v / 256)

/-- The `len` bytes of a list from offset `off`; bytes beyond the end read 0. -/
def slice (bs : List Byte) (off len : Nat) : List Byte :=
  let r := (bs.drop off).take len
  r ++ List.replicate (len - r.length) 0

/-- Unsigned fields of a payload at an offset. -/
def u8 (bs : List Byte) (off : Nat) : Nat := (bs.getD off 0).toNat
def u16 (bs : List Byte) (off : Nat) : Nat := leVal (slice bs off 2)
def u24 (bs : List Byte) (off : Nat) : Nat := leVal (slice bs off 3)
def u32 (bs : List Byte) (off : Nat) : Nat := leVal (slice bs off 4)
def u64 (bs : List Byte) (off : Nat) : Nat := leVal (slice bs off 8)

/-- Two's complement reading of a `w`-bit number. -/
def signed (w v : Nat) : Int := if v < 2 ^ (w - 1) then (v : Int) else (v : Int) - 2 ^ w

/-- Two's complement `w`-bit code of an integer. -/
def unsigned (w : Nat) (i : Int) : Nat := (i % (2 ^ w : Int)).toNat

/-- `n` zero bytes. -/
def zeros (n : Nat) : List Byte := List.replicate n 0

/-- One bit step of a reflected CRC with the reversed polynomial `p`. -/
def crcBit (p v : Nat) : Nat := if v % 2 = 1 then Nat.xor (v / 2) p else v / 2

/-- One byte of a reflected CRC. -/
def crcByte (p v : Nat) (b : Byte) : Nat :=
  let x := Nat.xor v b.toNat
  crcBit p (crcBit p (crcBit p (crcBit p (crcBit p (crcBit p (crcBit p (crcBit p x)))))))

/-- A reflected 32-bit CRC with initial value and final XOR 0xFFFF_FFFF. -/
def crc (p : Nat) (bs : List Byte) : Nat :=
  Nat.xor (bs.foldl (crcByte p) 0xFFFFFFFF) 0xFFFFFFFF

/-- CRC-32C of R331 (0x82F6_3B78 is 0x1EDC_6F41 reversed). -/
def crc32c (bs : List Byte) : Nat := crc 0x82F63B78 bs

/-- CRC-32 of R297 (0xEDB8_8320 is 0x04C1_1DB7 reversed). -/
def crc32 (bs : List Byte) : Nat := crc 0xEDB88320 bs

/-- A packet with its CRC-32 appended (R297). -/
def withCrc32 (bs : List Byte) : List Byte := bs ++ leBytes 4 (crc32 bs)

/-- Whether the last four bytes of a packet are the CRC-32 of the bytes before them (R297). -/
def crc32Ok (bs : List Byte) : Bool :=
  let n := bs.length
  decide (4 ≤ n) && decide (u32 bs (n - 4) = crc32 (bs.take (n - 4)))

/-- The elements of a list that satisfy a test, counted. -/
def countIf {α : Type} (p : α → Bool) (l : List α) : Nat := (l.filter p).length

/-- `l` with the element at `i` changed by `f`; unchanged beyond its end. -/
def modAt {α : Type} (l : List α) (i : Nat) (f : α → α) : List α :=
  match l, i with
  | [], _ => []
  | a :: r, 0 => f a :: r
  | a :: r, i + 1 => a :: modAt r i f

/-- Remove the first element satisfying a test. -/
def removeFirst {α : Type} (p : α → Bool) : List α → List α
  | [] => []
  | a :: r => if p a then r else a :: removeFirst p r

/-- The numbers of a list as a bitmap: bit `i` is the test of element `i`. -/
def bitmap (l : List Bool) : Nat :=
  match l with
  | [] => 0
  | b :: r => b2n b + 2 * bitmap r

/-- Division rounded to nearest, halves upward. -/
def divRound (a b : Nat) : Nat := (2 * a + b) / (2 * b)

/-- Division rounded up. -/
def divCeil (a b : Nat) : Nat := (a + b - 1) / b

/-- Integer division rounded toward zero (R321). -/
def tdivI (a b : Int) : Int := Int.tdiv a b

/-- The largest of a list of numbers, 0 for the empty list. -/
def maxL (l : List Nat) : Nat := l.foldl max 0

/-- The sum of a list of numbers. -/
def sumL (l : List Nat) : Nat := l.foldl (· + ·) 0

/-- The least of a list of numbers, `d` for the empty list. -/
def minL (d : Nat) (l : List Nat) : Nat :=
  match l with
  | [] => d
  | a :: r => r.foldl min a

end Sys2Proof.Machine
end

