-- ==== Sys2Proof/Machine/Gf.lean ====
section
/-! DEFINITION. Arithmetic in GF(2^m) and the Reed–Solomon codes built on it: encoding, and decoding up to the
code's correction radius (R290 to R293). -/

namespace Sys2Proof.Machine

/-- A binary field: its degree and its polynomial without the leading term removed. -/
structure Gf where
  m : Nat
  poly : Nat
  deriving DecidableEq, Repr

/-- GF(2¹⁰) with x¹⁰ + x³ + 1 (R290). -/
def gf10 : Gf := ⟨10, 0x409⟩

/-- Multiplication by α = 2. -/
def Gf.dbl (g : Gf) (a : Nat) : Nat :=
  let d := 2 * a
  if d < 2 ^ g.m then d else Nat.xor d g.poly

def Gf.mulAux (g : Gf) : Nat → Nat → Nat → Nat → Nat
  | 0, _, _, acc => acc
  | n + 1, a, b, acc => g.mulAux n (g.dbl a) (b / 2) (if b % 2 = 1 then Nat.xor acc a else acc)

/-- Product in the field. -/
def Gf.mul (g : Gf) (a b : Nat) : Nat := if a = 0 then 0 else if b = 0 then 0 else g.mulAux g.m a b 0

def Gf.powAux (g : Gf) : Nat → Nat → Nat → Nat → Nat
  | 0, _, _, acc => acc
  | n + 1, a, e, acc => g.powAux n (g.mul a a) (e / 2) (if e % 2 = 1 then g.mul acc a else acc)

/-- Power in the field, for exponents below 2^(m+1). -/
def Gf.pow (g : Gf) (a e : Nat) : Nat := g.powAux (g.m + 1) a e 1

/-- Inverse of a non-zero element. -/
def Gf.inv (g : Gf) (a : Nat) : Nat := g.pow a (2 ^ g.m - 2)

/-- Value of a polynomial, lowest coefficient first, at a point. -/
def Gf.eval (g : Gf) (p : List Nat) (x : Nat) : Nat := p.foldr (fun c acc => Nat.xor c (g.mul acc x)) 0

/-- Value of a polynomial given highest coefficient first. -/
def Gf.evalHi (g : Gf) (p : List Nat) (x : Nat) : Nat := p.foldl (fun acc c => Nat.xor (g.mul acc x) c) 0

/-- Sum of two polynomials. -/
def polyAdd : List Nat → List Nat → List Nat
  | [], q => q
  | p, [] => p
  | a :: p, b :: q => Nat.xor a b :: polyAdd p q

/-- A polynomial times a constant. -/
def Gf.scale (g : Gf) (k : Nat) (p : List Nat) : List Nat := p.map (g.mul k)

/-- Product of two polynomials, lowest coefficient first. -/
def Gf.polyMul (g : Gf) : List Nat → List Nat → List Nat
  | [], _ => []
  | a :: p, q => polyAdd (g.scale a q) (0 :: g.polyMul p q)

/-- The generator (x − α⁰)…(x − α^(r−1)), lowest coefficient first (R290). -/
def Gf.gen (g : Gf) : Nat → List Nat
  | 0 => [1]
  | r + 1 => g.polyMul (g.gen r) [g.pow 2 r, 1]

/-- One step of the systematic encoder: shift a message symbol into the parity register (highest first). -/
def Gf.encStep (g : Gf) (gHi : List Nat) (reg : List Nat) (m : Nat) : List Nat :=
  let fb := Nat.xor m (reg.headD 0)
  List.zipWith (fun r c => Nat.xor r (g.mul fb c)) (reg.drop 1 ++ [0]) gHi

/-- The `r` parity symbols of a message, first-sent first (R290). -/
def Gf.parity (g : Gf) (r : Nat) (msg : List Nat) : List Nat :=
  let gHi := ((g.gen r).reverse).drop 1
  msg.foldl (g.encStep gHi) (List.replicate r 0)

/-- The syndromes of a received word, first symbol highest. -/
def Gf.syndromes (g : Gf) (r : Nat) (word : List Nat) : List Nat :=
  (List.range r).map (fun i => g.evalHi word (g.pow 2 i))

/-- State of the Berlekamp–Massey iteration. -/
structure Bm where
  lam : List Nat
  b : List Nat
  len : Nat
  gap : Nat
  disc : Nat

def Gf.bmStep (g : Gf) (syn : List Nat) (s : Bm) (n : Nat) : Bm :=
  let d := (List.range (s.len + 1)).foldl
    (fun acc i => Nat.xor acc (g.mul (s.lam.getD i 0) (if i ≤ n then syn.getD (n - i) 0 else 0))) 0
  if d = 0 then { s with gap := s.gap + 1 } else
  let corr := g.scale (g.mul d (g.inv s.disc)) (List.replicate s.gap 0 ++ s.b)
  let lam' := polyAdd s.lam corr
  if 2 * s.len ≤ n then ⟨lam', s.lam, n + 1 - s.len, 1, d⟩
  else { s with lam := lam', gap := s.gap + 1 }

/-- The error locator of a syndrome list and its degree. -/
def Gf.locator (g : Gf) (syn : List Nat) : List Nat × Nat :=
  let s := (List.range syn.length).foldl (g.bmStep syn) ⟨[1], [1], 0, 1, 1⟩
  (s.lam, s.len)

/-- The error value at position exponent `e` (Forney). -/
def Gf.forney (g : Gf) (lam omega : List Nat) (e : Nat) : Nat :=
  let x := g.pow 2 e
  let xi := g.inv x
  let odd := (List.range lam.length).foldl
    (fun acc i => if i % 2 = 1 then Nat.xor acc (g.mul (lam.getD i 0) (g.pow xi (i - 1))) else acc) 0
  g.mul x (g.mul (g.eval omega xi) (g.inv odd))

/-- Decode a word of `r` parity symbols: the corrected word and how many symbols were corrected, or none
where the word lies beyond the radius `r/2`. -/
def Gf.decode (g : Gf) (r : Nat) (word : List Nat) : Option (List Nat × Nat) :=
  let syn := g.syndromes r word
  if syn.all (· = 0) then some (word, 0) else
  let (lam, deg) := g.locator syn
  if r < 2 * deg then none else
  let n := word.length
  let omega := (g.polyMul syn lam).take r
  let locs := (List.range n).filter (fun e => decide (g.eval lam (g.inv (g.pow 2 e)) = 0))
  if locs.length ≠ deg then none else
  let word' := locs.foldl (fun w e => modAt w (n - 1 - e) (fun c => Nat.xor c (g.forney lam omega e))) word
  if (g.syndromes r word').all (· = 0) then some (word', deg) else none

/-- The 10-bit symbols of a message, lowest bits first (R291). -/
def symbols10 (n : Nat) (v : Nat) : List Nat :=
  match n with
  | 0 => []
  | k + 1 => v % 1024 :: symbols10 k (v / 1024)

/-- The number whose 10-bit digits, lowest first, are the symbols. -/
def symVal : List Nat → Nat
  | [] => 0
  | a :: r => a + 1024 * symVal r

/-- The 272 symbols of the codeword that carries 320 message bytes (R290, R291). -/
def codeword (msg : List Byte) : List Nat :=
  let m := symbols10 256 (leVal msg)
  m ++ gf10.parity 16 m

/-- The value v of a bit pair under the Gray map of R257, and back. -/
def grayV (pair : Nat) : Nat := match pair with | 0 => 0 | 1 => 1 | 3 => 2 | _ => 3
def grayPair (v : Nat) : Nat := match v with | 0 => 0 | 1 => 1 | 2 => 3 | _ => 2

/-- The PAM4 values v of a codeword, in sending order (R257, R291). -/
def cwValues (cw : List Nat) : List Nat :=
  cw.flatMap (fun c => [grayV (bits c 1 0), grayV (bits c 3 2), grayV (bits c 5 4), grayV (bits c 7 6), grayV (bits c 9 8)])

/-- Five values make one symbol. -/
def valuesCw : List Nat → List Nat
  | a :: b :: c :: d :: e :: r =>
    (grayPair a + 4 * grayPair b + 16 * grayPair c + 64 * grayPair d + 256 * grayPair e) :: valuesCw r
  | _ => []

/-- Precoder of R258: y_n = (v_n − y_(n−1)) mod 4. -/
def precode : Nat → List Nat → List Nat
  | _, [] => []
  | y, v :: r => let y' := (v + 4 - y) % 4; y' :: precode y' r

/-- Decoder of R258: v_n = (y_n + y_(n−1)) mod 4. -/
def unprecode : Nat → List Nat → List Nat
  | _, [] => []
  | y, y' :: r => ((y' + y) % 4) :: unprecode y' r

/-- CRC-16 of R260: x¹⁶ + x¹² + x⁵ + 1, initial value 0xFFFF, bits most significant first. -/
def crc16Bit (v : Nat) : Nat :=
  let d := (2 * v) % 0x10000
  if 0x8000 ≤ v then Nat.xor d 0x1021 else d
def crc16Byte (v : Nat) (b : Byte) : Nat :=
  crc16Bit (crc16Bit (crc16Bit (crc16Bit (crc16Bit (crc16Bit (crc16Bit (crc16Bit (Nat.xor v (256 * b.toNat)))))))))
def crc16 (bs : List Byte) : Nat := bs.foldl crc16Byte 0xFFFF

/-- One bit of a PRBS generator of length `n` with feedback from stages `n` and `m` (R282). -/
def prbsBit (n m s : Nat) : Nat × Nat :=
  let b := Nat.xor (s >>> (n - 1)) (s >>> (m - 1)) % 2
  (b, (2 * s + b) % 2 ^ n)

/-- The lengths (n, m) of pattern code 1 PRBS7, 2 PRBS15, 3 PRBS31 (R282, R288). -/
def prbsPoly (pat : Nat) : Nat × Nat :=
  match pat with | 1 => (7, 6) | 2 => (15, 14) | _ => (31, 28)

end Sys2Proof.Machine
end

