-- ==== Sys2Proof/Config.lean ====
section
/-! DEFINITION. The constants that the spec leaves open. Each is opaque: nothing in Lean can evaluate it, so a
claim about the model holds whatever its value is. A constant applied to a counter of the state gives a fresh value at
each use. -/

namespace Sys2Proof

/-- NONCE number `n` of the random-number generator (R474). Log entry 10. -/
opaque Config.nonce : Nat → BitVec 128
/-- The key-encryption key that the PUF of this die rebuilds (R471). Log entry 11. -/
opaque Config.kek : BitVec 256
/-- Word `k` of the PUF helper data that enrolment writes, its check of the KEK included (R471). Log entry 11. -/
opaque Config.helperWord : Nat → BitVec 32
/-- The vendor firmware key in ROM (R479). Log entry 11. -/
opaque Config.vendorFwKey : Nat × Nat
/-- ROM firmware version, and the version and source shown while ROM firmware runs (R364). Log entry 12. -/
opaque Config.romVer : BitVec 8
opaque Config.romFwVer : BitVec 32
/-- The field layouts of the OTP bodies, which the spec does not give (R455): each reads a field out of the body
words of its region. Log entry 13. -/
opaque Config.identUid : List Nat → BitVec 64
opaque Config.identPid : List Nat → BitVec 48
opaque Config.policyRefKhz : List Nat → BitVec 16
opaque Config.policyMapNext : List Nat → Fin 3
opaque Config.policyRole : List Nat → PortIx → Fin 3
opaque Config.policyAlarm : List Nat → BitVec 17
opaque Config.policyOverride : List Nat → Option (Fin 4)
opaque Config.trimBand : List Nat → Fin 4 → Fin 16 → BitVec 13 × BitVec 13 × BitVec 6
opaque Config.trimTable : List Nat → Fin 3 → Bool
opaque Config.trimDelay : List Nat → Fin 3 → Nat → BitVec 7 × BitVec 7
opaque Config.trimTiming : List Nat → Fin 8 → BitVec 32
opaque Config.trimDcgK : List Nat → TileIx → BitVec 16
opaque Config.trimRefRange : List Nat → TileIx → Bool → BitVec 16 × BitVec 16
opaque Config.trimOffset : List Nat → TileIx → Bool → BitVec 16
opaque Config.trimDark : List Nat → TileIx → BitVec 16 × BitVec 16
/-- Temperature of a band, in 1/16 °C, at an instant at which every sensor that R417 names has failed: by the band and the instant. Log entry 16. -/
opaque Config.lostTemp : Nat → Nat → Int
/-- The dark model's factor 2^((T − 60 °C)/TD), in 1/2^24, for T in 1/16 °C and the TRIM words that give TD; R417 fixes its
precision only from below. Log entry 16. -/
opaque Config.darkFactor : List Nat → Int → Nat
/-- Error of the governor's evaluation of 2^(y/256), less 32,768, in units of 2^-39 of the power of two at or below the value; R80 asks for at least 24
significant bits. Log entry 16. -/
opaque Config.govErr : Int → Fin 65537
/-- Rounding of a store temperature, in 1/8 °C, less 1, by thermistor reading and NTC_B; R239 gives no precision. Log entry 17. -/
opaque Config.ntcErr : Nat → Nat → Fin 3
opaque Config.trimPatches : List Nat → Bool
/-- What a byte of frame memory reads as whose contents are undefined: applied to the generation of the loss times 2^34
plus the address (R188). Log entry 15. -/
opaque Config.freeByte : Nat → BitVec 8
/-- An undefined value that the step supplies as a fresh one: number `n` of the model's counter. Log entry 14. -/
opaque Config.freeValue : Nat → BitVec 64

end Sys2Proof
end

