-- ==== Sys2Proof/Machine/Parts/Control.lean ====
section
/-! DEFINITION. The state of the control side: clock, leases, notifications, mailboxes, the sideband, the
fault log and running SLOW commands (chapters "Tabgo command set, mailboxes and host sharing", "Stenal Link
framing, packets and credits" and "Faults, safety mechanisms and diagnostics"). -/

namespace Sys2Proof.Machine

/-- The status codes of R343 that a command may be answered with. -/
inductive Status where
  | ok | accepted | busy | denied | noLease | badOpcode | badLength | badArg | badState
  | noResource | timeout | fault | authRequired | authFailed | locked
  deriving DecidableEq, Repr

/-- The class of a command (R337, R338). -/
inductive Cls where
  | immediate | fast | slow | bulk
  deriving DecidableEq, Repr

/-- A host's standing (R348). VIEWER is below PRIMARY, and PRIMARY below SAFETY. -/
inductive Role where
  | viewer | primary | safety
  deriving DecidableEq, Repr

/-- A refusal: its status and its `DETAIL` (R334, R344). -/
structure Reject where
  status : Status
  detail : Nat
  deriving DecidableEq, Repr

/-- DTIME (R10, R370): an anchor from which DTIME runs at one nanosecond per nanosecond, and a slew in
progress with the offset it still had to absorb at the anchor. `running` is false where DTIME is lost. -/
structure Clk where
  now : Time            -- the latest instant that a command of the model carried
  anchor : Time
  base : Nat            -- DTIME at `anchor`, modulo 2^64
  slew : Int            -- θ being absorbed since `anchor`, 0 when none
  synced : Bool         -- the DTIME-synchronised flag of R322
  upSince : Time        -- origin of UPTIME (R365)
  deriving DecidableEq, Repr

/-- One lease of R349: its holder and its expiry instant when it has a term (R351). -/
structure Lease where
  holder : Option PortIx
  expires : Option Time
  expDtime : Nat        -- EXPIRES of R371
  deriving DecidableEq, Repr

/-- A change of the holder of a lease: its instant and the holder before it (R340, R353). -/
structure LeaseEv where
  b : Nat
  at_ : Time
  prev : Option PortIx
  deriving DecidableEq, Repr

/-- A queued notification of R345. -/
structure Note where
  code : Nat
  nseq : Nat
  arose : Time
  payload : List Byte
  due : Option Time     -- end of a COMPLETE's deadline (R338)
  deriving DecidableEq, Repr

/-- A response waiting to post (R334): the opcode, tag and class it answers, its status, its payload, the
request slots it frees when it posts (R333). -/
structure Rsp where
  opcode : Nat
  tag : BitVec 16
  cls : Cls
  status : Status
  detail : Nat
  payload : List Byte
  slots : Nat
  due : Option Time     -- end of its deadline under R338
  deriving DecidableEq, Repr

/-- A device entry in the response ring: its 64 bytes, whether its MSG packet was handed to the link, whether that
packet is acknowledged at link level (R334 to R336), and whether it is a notification. -/
structure RingEntry where
  ident : Nat
  bytes : List Byte
  sent : Bool
  acked : Bool
  due : Option Time
  deriving DecidableEq, Repr

/-- A request handed to the command sequencer or to the firmware (R337, R340). -/
structure Job where
  src : Src
  opcode : Nat
  tag : BitVec 16
  cls : Cls
  arg : List Byte
  stamp : Time
  slots : Nat
  payload : List Byte
  due : Option Time
  bad : Option Reject       -- a header or padding that breaks R330 or R337
  rcls : Cls                -- CLASS as the request carries it (R334)
  deriving DecidableEq, Repr

/-- An open chain of request entries (R332). -/
structure Chain where
  hdr : List Byte       -- OPCODE, TAG, CTL, COUNT and ARG of the first entry
  next : Nat            -- INDEX expected
  count : Nat
  payload : List Byte
  last : Time           -- stamp of the latest entry
  crcBad : Bool
  beyond : Option Nat   -- offset of a non-zero byte beyond LEN (R330)
  deriving DecidableEq, Repr

/-- A SLOW command in progress (R341). -/
structure SlowJob where
  src : Src
  opcode : Nat
  tag : BitVec 16
  deadline : Time
  data : Nat            -- what the command's own completion needs (a power state, a port, ...)
  due : Option Time     -- end of the deadline of its COMPLETE, while that is judged (R338, R339)
  deriving DecidableEq, Repr

/-- The mailbox side of a port (R329 to R336, R345). -/
structure Mbx where
  reqFree : Nat
  reqOwed : Nat                 -- slots claimed ahead of a release at the same instant (R25)
  rspFree : Nat
  chain : Option Chain
  wait : List Rsp
  notes : List Note
  nseq : Nat
  lostFlag : Bool               -- the next notification sent carries LOST
  ring : List RingEntry         -- posted and not yet consumed, oldest first
  consumed : Nat                -- device entries consumed since entry to ACTIVE (RSP_ACK of the last doorbell)
  sentCount : Nat               -- device entries sent since entry to ACTIVE
  hostVer : Nat                 -- HOST_VER of the last HELLO (R363)
  recent : List (Nat × Nat)     -- (tag, CRC) of the last 32 request entries accepted, newest first
  dupLeft : Nat                 -- entries after the return still compared under R326
  oldRecent : List (Nat × Nat)  -- (tag, CRC) of the last 32 entries accepted before T_L
  acceptedReq : Nat             -- request packets accepted since entry to ACTIVE
  cmdLimit : Nat                -- CMD_LIMIT of R311
  deriving DecidableEq, Repr

/-- The sideband: window buffers, flags, I3C state (R358 to R361). -/
structure Sideband where
  req : List Byte
  rsp : List Byte
  entries : Nat
  ready : Bool
  busy : Bool
  err : Bool
  cmdDone : Bool                -- the response shown ends the command
  complete : Option (List Byte) -- a COMPLETE entry to show after DONE
  i3c : Bool
  dynAddr : Nat
  ibiEn : Bool
  ibis : Nat                    -- IBIs raised with mandatory byte 0x01
  mwl : Nat
  mrl : Nat
  ccc : List Byte               -- answer of the last GET CCC
  shownAt : Time                -- instant at which READY rose
  deriving DecidableEq, Repr

/-- The ALARM_N class of a log entry (R492). -/
inductive AlarmCls where
  | standing | latched | none
  deriving DecidableEq, Repr

/-- One entry of the fault log (R368). -/
structure FaultEntry where
  code : Nat
  inst : Nat
  count : Nat
  stands : Bool
  cls : AlarmCls
  dtime : Nat
  lastNote : Time       -- instant of its latest FAULT notification
  repeated : Bool       -- occurrences since then are still to be reported (R496)
  lastAt : Time         -- instant of the latest occurrence (R493)
  deriving DecidableEq, Repr

/-- The fault log (R368) with its LOST count. -/
structure FaultLog where
  entries : List FaultEntry
  lost : Nat
  lostAlarm : Bool      -- LOST counts a fault of ALARM_N class S or L
  deriving DecidableEq, Repr

/-- Self-test state of the DIAG block (R500 to R502, R505). -/
structure Diag where
  run : Nat             -- 0 none, 1 converters, 2 memory, 3 link
  runPort : Nat
  started : Time
  deriving DecidableEq, Repr

/-- The sideband at reset (R358 to R361). -/
def Sideband.reset : Sideband :=
  { req := [], rsp := [], entries := 0, ready := false, busy := false, err := false, cmdDone := false, complete := none, i3c := false
    dynAddr := 0, ibiEn := false, ibis := 0, mwl := 1026, mrl := 1026, ccc := [], shownAt := 0 }

def Clk.reset : Clk := ⟨0, 0, 0, 0, false, 0⟩
def FaultLog.empty : FaultLog := ⟨[], 0, false⟩
def Diag.reset : Diag := ⟨0, 0, 0⟩

end Sys2Proof.Machine
end

