-- ==== Sys2Proof/Machine/Parts/Array.lean ====
section
/-! DEFINITION. The state of the array sequencer, its settings sets, the governor and the tile engines (chapters
"Pixel array, tiles and column converters", "Exposure, multi-exposure modes and frame timing" and "Tile engines and
multi-exposure merge"). -/

namespace Sys2Proof.Machine

/-- The per-tile fields of a settings set (R48, R64, R73): enable, TICKS, AG and DG of EXP0 to EXP3. -/
structure TileSet where
  en : Bool
  ticks : List Nat
  ag : List Nat
  dg : List Nat
  deriving DecidableEq, Repr

/-- A settings set (R73). -/
structure Settings where
  mode : Nat
  dcg : Nat
  trig : Nat
  trigTmr : Nat
  tail : Nat
  period : Nat
  d1 : Nat
  d2 : Nat
  d3 : Nat
  n0 : Nat
  w0 : Nat
  n1 : Nat
  w1 : Nat
  seed : Nat
  res10 : Bool
  bin : Bool
  rowFirst : Nat
  rowCount : Nat
  tiles : List TileSet
  deriving DecidableEq, Repr

/-- A tile at reset (R48, R64). -/
def TileSet.reset : TileSet :=
  ⟨true, [10000, 10000, 10000, 10000], [16, 16, 16, 16], [1024, 1024, 1024, 1024]⟩

/-- The settings set at reset (R41, R48, R50, R93, R122). -/
def Settings.reset : Settings :=
  { mode := 1, dcg := 0, trig := 0, trigTmr := 0, tail := 0, period := 333333, d1 := 0, d2 := 0, d3 := 0
    n0 := 1, w0 := 0, n1 := 1, w1 := 0, seed := 0xACE1, res10 := false, bin := false, rowFirst := 0
    rowCount := 512, tiles := List.replicate 192 TileSet.reset }

/-- The engine configuration that a frame latches at its ELP (R99, R114, R122). -/
structure EngCfg where
  ctl : Nat
  refTicks : Nat
  ped : Nat
  dcgKnee : Nat
  kneeL : Nat
  kneeD : Nat
  ddc : Nat
  pat : Nat
  dark : List Nat
  kdcg : List Nat
  deriving DecidableEq, Repr

/-- The statistics of one tile that a frame has gathered so far (R117). Histogram bins are (bin, count). -/
structure TileStat where
  tile : TileIx
  lvl : Nat
  clip : Nat
  npix : Nat
  sums : List Nat
  counts : List Nat
  sat : Nat
  hist : List (Nat × Nat)
  above : List Nat          -- radiance codes of the even row of the cell row in progress
  refH : Nat                -- means of this frame's overhead slots, as ARRAY_TREF shows them
  refL : Nat
  refBad : Bool
  border : Option (Nat × Nat) -- border mean and count
  ramp : Int
  measured : Bool           -- the tile converted this frame's overhead slots
  tclip : Nat
  tecl : Nat
  ag0 : Nat                 -- EXP0 AG code
  deriving DecidableEq, Repr

/-- What a tile's engine corrects and clamps a frame with: the ramp error and the filtered offsets (R49, R96, R98). -/
structure TileCal where
  ramp : Int
  offH : Option Int         -- none: nominal offset of OTP TRIM
  offL : Option Int
  deriving DecidableEq, Repr

/-- A frame from its ELP to its end (R52 to R58, R76). -/
structure Frame where
  num : Nat
  id : Nat
  set : Settings
  en : List Bool            -- tiles enabled and not killed (R42, R44)
  elp : Time
  fs : Time
  fsD : Nat                 -- DTIME of FS
  is0 : Time                -- IS of R52
  tread : Nat               -- T_read in 1/96 of a half nanosecond
  per : Time                -- interval to the next free-run FS
  draws0 : List Nat
  draws1 : List Nat
  resync : Bool
  cfg : EngCfg
  spillAt : Nat             -- base of the tile-spill region, MiB
  spillRow : Nat            -- sample-rows before its first in the region's rings (R109)
  lsc : Nat                 -- lens-shading bank (R158)
  norm : List (List (Nat × Nat)) -- by tile and exposure: MANT and SH of R114
  next : Nat                -- next slot to convert
  endAt : Option Time       -- end of its last sample-row slot
  spill : Nat               -- SPILL_MASK of R108
  stats : List TileStat
  chan : List (List (Nat × Nat)) -- channel histograms R, Gr, Gb, B
  lost : List Nat           -- tiles that merged a row without spilled data (R111)
  spillRaised : List Nat    -- tiles whose SPILL_LOST fault was raised in this frame
  hold : List Nat           -- tiles with BLK_HOLD in this frame (R98)
  rampBad : List Nat        -- tiles with RAMP_FAULT in this frame (R34)
  takers : List Nat         -- views that take the frame and its statistics packet (R154)
  cal : List TileCal        -- by tile, from the end of the frame's overhead slots on (R49)
  temps : List Int          -- of the bands in 1/16 °C, latched at its ELP (R417, R418)
  deriving DecidableEq, Repr

/-- A committed set that awaits its frame (R74), or the values of a governor output (R81). -/
structure Commit where
  id : Nat
  instant : Time
  set : Settings
  deriving DecidableEq, Repr

/-- The governor's values for one tile (R80). -/
structure GovVal where
  tile : TileIx
  ticks : List Nat
  ag : Nat
  dg : Nat
  deriving DecidableEq, Repr

structure GovOut where
  instant : Time
  src : Nat
  vals : List GovVal
  deriving DecidableEq, Repr

/-- The tile exposure governor (R79 to R81, R86). -/
structure Gov where
  on : Bool
  target : Nat
  nbr : Nat
  chg : Nat
  ratios : List Nat
  emax : Nat
  agmax : Nat
  dgmax : Nat
  mask : List TileIx
  first : Bool              -- no output since it was enabled
  x : List (TileIx × Int)   -- exposure-value codes of R80
  vals : List GovVal        -- values in force
  out : List GovOut         -- outputs not yet applied, oldest first (R75)
  due : List (Nat × Time)   -- frames whose output is to be formed, with t_G (R81)
  src : Nat
  frac : Nat
  clamped : Bool
  deriving DecidableEq, Repr

def Gov.reset : Gov :=
  { on := false, target := 0, nbr := 16, chg := 16, ratios := [1, 1, 1], emax := 1, agmax := 16, dgmax := 1024
    mask := [], first := true, x := [], vals := [], out := [], due := [], src := 0, frac := 0, clamped := false }

/-- An integration in progress: a row that left reset and has not been read (R60, R67). -/
structure Integ where
  frame : Nat
  tile : TileIx
  row : Nat
  exp : Nat
  slices : Nat              -- slices transferred to the storage diode
  deriving DecidableEq, Repr

/-- What the ELP of the latched frame replaced, for a commit stamped before that ELP whose command starts after it (R15, R75). -/
structure Undo where
  active : Settings
  pend : Option Commit
  engPend : List (Time × Nat × Nat)
  engAct : EngCfg
  lscAct : Nat
  norm : List (List (Nat × Nat))
  spillBase : Option (Nat × Nat)
  spillPend : Option (Nat × Nat)
  gone : List (Nat × Nat)   -- regions that the latch freed
  gov : Gov
  anchor : Option Time
  relock : Bool
  lfsr : Nat
  tg : Option Time
  armed : Bool
  trigAt : List Nat
  ignored : Nat             -- count of ARRAY_TRIG_CNT.IGNORED
  actId : Nat
  alpha0 : List Nat
  elpT : List Int
  deriving DecidableEq, Repr

/-- The sequencer (R52 to R58, R69 to R76, R90 to R92, R527, R528). -/
structure Seq where
  running : Bool
  stopping : Bool           -- no further frame is to be started (R91)
  armed : Bool
  ovh : Nat                 -- overhead slots done of the frame they belong to (R35)
  ovhSet : Option Settings  -- set active at the start of those slots (R36); none before they start
  ovhFirst : Bool           -- first frame after START_ARRAY (R98)
  frame : Nat               -- ARRAY_FRAME
  begun : Option Time       -- FS of the next frame, where it came before that frame's ELP (R52)
  begunD : Nat              -- DTIME of that FS (R313)
  cut : Bool                -- the array halts at the end of the row slot in progress (R91)
  nextNum : Nat             -- number of the next frame to latch
  anchor : Option Time      -- start or R528 instant from which the next free-run frame is placed
  relock : Bool             -- the next frame carries RESYNC after a PLLA relock (R391)
  latched : Option Frame    -- ELP passed, FS not yet
  cur : Option Frame        -- being read
  prev : Option Frame       -- a FOLD frame whose folded rows are read in `cur`, or a frame whose statistics are due
  done : List Frame         -- ended frames whose statistics are not yet complete (R78)
  lastTg : Option Time      -- last accepted trigger
  tg : Option Time          -- accepted trigger whose frame has not latched
  trigAt : List Nat         -- pending TRIGGER_AT, as DTIMEs (R72)
  lfsr : Nat
  alpha0 : List Nat         -- bands whose engines use ALPHA 0 in the frame latched last (R416)
  integ : List Integ
  actId : Nat               -- ID of the set last applied
  deriving DecidableEq, Repr

def Seq.reset : Seq :=
  { running := false, stopping := false, armed := false, ovh := 8, ovhSet := none, ovhFirst := true, frame := 0
    begun := none, begunD := 0, cut := false, nextNum := 0, anchor := none, relock := false, latched := none, cur := none, prev := none, done := []
    lastTg := none, tg := none, trigAt := [], lfsr := 0xACE1, alpha0 := [], integ := [], actId := 0 }

/-- A held sample-row: a merge-buffer slot, a DCG register or a fetch slot (R104, R105, R109). -/
structure Held where
  frame : Nat
  row : Nat
  kind : Nat
  h : List Nat
  deriving DecidableEq, Repr

/-- What a line in a tile output queue carries: radiance codes, samples of a kind for SAMPLES views, or samples of a
spilled kind (R11, R109, R120). -/
inductive LineKind where
  | radiance
  | samples (q : Nat)
  | spill (q : Nat)
  deriving DecidableEq, Repr

/-- A line in a tile output queue (R11, R13). -/
structure Line where
  frame : Nat
  row : Nat                 -- tile row, or binned tile row; for spill the sample-row index
  kind : LineKind
  codes : List Nat
  damaged : Bool
  deriving DecidableEq, Repr

/-- One tile engine (R94 to R111). -/
structure Eng where
  ramp : Int                -- last measured ramp error (R96)
  measured : Bool           -- in the overhead slots of the frame in progress
  sumH : Int × Nat          -- reference sum and count of the overhead in progress, HCG and LCG
  sumL : Int × Nat
  border : Int × Nat        -- border sum and count
  offH : Option Int         -- none: nominal offset of OTP TRIM
  offL : Option Int
  okH : Bool                -- offset updated in this overhead
  okL : Bool
  held : List Held
  dcg : List Held
  fetched : List Held
  asked : List (Nat × Nat × Nat) -- frame, row and kind of the fetches that are outstanding (R109)
  lostRows : List (Nat × Nat × Nat) -- and of those that were lost (R111)
  outq : List Line
  refHcg : Nat              -- reference means of this overhead
  refLcg : Nat
  refBad : Bool
  deriving DecidableEq, Repr

def Eng.reset : Eng :=
  { ramp := 0, measured := false, sumH := (0, 0), sumL := (0, 0), border := (0, 0), offH := none, offL := none
    okH := false, okL := false, held := [], dcg := [], fetched := [], asked := [], lostRows := [], outq := [], refHcg := 0, refLcg := 0
    refBad := false }

/-- A statistics record that is held for GET_STATS (R152 to R154). -/
structure StatRec where
  src : Nat
  frame : Nat
  id : Nat
  bytes : List Byte
  chan : List (List (Nat × Nat))   -- channel histograms, for the tone curves of R144
  gov : List (Nat × Nat × Nat × Nat)  -- array: tile, LVL, CLIP, NPIX
  at_ : Time                          -- instant of its completion (R144)
  deriving DecidableEq, Repr

/-- The array side of the device. -/
structure ArrayS where
  staged : Settings
  pend : Option Commit
  active : Settings
  seq : Seq
  gov : Gov
  eng : List Eng
  engPend : List (Time × Nat × Nat)   -- TENG and lens-bank writes not yet latched: stamp, address, value (R122, R158)
  engAct : EngCfg
  lscAct : Nat
  norm : List (List (Nat × Nat))      -- F_j of the latest latch, by tile and exposure (R114, R122)
  stats : List StatRec                -- newest first, two per source
  spillBase : Option (Nat × Nat)      -- tile-spill region of the frames in force: base MiB and size in MiB (R188)
  spillPend : Option (Nat × Nat)      -- region of the pending set, where it is another one
  undo : Option Undo                  -- while a frame is latched and not started
  deriving DecidableEq, Repr

/-- The engine configuration of the register resets (R122), with the nominal DCG ratio. -/
def EngCfg.reset : EngCfg :=
  { ctl := 0x423, refTicks := 0x2710, ped := 0x40, dcgKnee := 0xA00000A, kneeL := 0xC0009, kneeD := 0xE0000D, ddc := 0x400040
    pat := 0, dark := List.replicate 192 0, kdcg := List.replicate 192 0x1400 }

/-- The array side at reset. -/
def ArrayS.reset : ArrayS :=
  { staged := Settings.reset, pend := none, active := Settings.reset, seq := Seq.reset, gov := Gov.reset
    eng := List.replicate 192 Eng.reset, engPend := [], engAct := EngCfg.reset, lscAct := 0, norm := [], stats := [], spillBase := none
    spillPend := none, undo := none }

end Sys2Proof.Machine
end

