-- ==== Sys2Proof/Machine/Parts/Link.lean ====
section
/-! DEFINITION. The state of a Stenal Link port: physical layer (R253 to R289) and framing, packets and
credits (R290 to R328). -/

namespace Sys2Proof.Machine

/-- The port states of R268. -/
inductive PortSt where
  | quiet | detect | clock | lanes | deskew | equalise | rate | active | test
  deriving DecidableEq, Repr

/-- The steps inside RATE (R280): offering, counting GO down, idle before a new rate, waiting for the host's
first marker. -/
inductive RateStep where
  | offer | idle | go
  deriving DecidableEq, Repr

/-- Receiver, equaliser and checker state of a port (R262 to R266, R277 to R284). -/
structure Phy where
  map : List Nat            -- logical lane k drives physical lane map[k]
  inv : List Bool           -- by physical lane
  upInv : Bool
  delay : List Nat          -- by logical lane, in symbols
  ffePre : List Nat         -- |c−1| by logical lane
  ffePost : List Nat        -- |c+1| by logical lane
  ffePreset : List Nat      -- 0 to 9, or 15
  ffeLimit : List Bool
  reqId : Nat               -- REQ_ID last applied
  reqSeen : Bool            -- a request was applied
  ctle : Nat
  ctleTry : Nat             -- CTLE setting being measured; 16 when the choice is over
  ctleBest : Nat            -- best height so far, in mV
  ctleAt : Time             -- start of the setting being measured
  eye : Nat
  dfe : List Int            -- h1 to h5
  dfeAt : Time              -- latest step of the taps
  phase : Nat               -- 1/64 UI, 0 to 255
  phaseAt : Time            -- instant of the latest phase step
  los : Bool
  lol : Bool
  losAt : Time              -- start of the standing episode of LOS, and of LOL (R266)
  lolAt : Time
  upOk : Bool
  freqPpm : Int             -- offset of UCLK over the latest 2 µs window (R265)
  freqAt : Option Time      -- end of that window
  chkSync : Bool            -- PRBS checker in SYNC
  chkState : Nat            -- PRBS checker shift register
  chkBits : Nat             -- bits checked in SYNC (R283)
  winBits : Nat             -- of them, counted since the latest window of 2²³ bits ended, and their errors
  winErrs : Nat
  winAt : Time              -- start of the window of 2²³ bits in progress (R279)
  gen : List (Option Nat)   -- PRBS generator by logical lane: its state when it started (R279, R282)
  genAt : Time              -- its start
  deriving DecidableEq, Repr

/-- A link test in progress or its latest results (R288). -/
structure LinkTest where
  run : Bool
  pat : Nat
  genDn : Bool
  chkUp : Bool
  lanes : Nat
  inj : Nat
  injExp : Nat
  endAt : Time
  injected : Nat
  flip : Nat                -- lanes whose next data symbol is hit (R284)
  injAt : Time              -- latest periodic injection
  syncLoss : Nat
  errors : Nat
  src : Src                 -- who asked
  tag : BitVec 16
  deriving DecidableEq, Repr

/-- Training state of a port (R268 to R281). -/
structure Train where
  st : PortSt
  entered : Time
  dnRate : Nat
  div : Nat                 -- PLLL divider of the port: 16, 32, 64 or 128 (R16)
  upRate : Nat
  preDn : Bool
  preUp : Bool
  pass : Nat                -- 0 first pass, 1 rate pass
  fall : Nat                -- FALL of R271
  fails : Nat
  failState : Nat
  reason : Nat
  backoffEnd : Time
  backoffOver : Bool
  nextBeacon : Time
  good : Nat                -- consecutive blocks that meet the state's success condition
  rxGood : Nat              -- consecutive valid blocks (R276)
  lastLeads : List Nat
  hostDn : Nat
  hostUp : Nat
  hostCaps : Nat
  rateStep : RateStep
  offDn : Nat               -- the offer of R280
  offUp : Nat
  offPreDn : Bool
  offPreUp : Bool
  idleEnd : Time
  goFrom : Time             -- GO counts down since (R280)
  away : Bool               -- out of ACTIVE for a rate change or a test (R281)
  changeAt : Option Time    -- a rate change of R281 is to start at this instant at the latest
  changeBy : Option (PortIx × BitVec 16) -- the response to SET_LINK_RATE that it awaits: port and TAG
  blkSeq : Nat              -- SEQ of the device's block at `blkFrom` (R272)
  blkFrom : Time
  blocks : List (List Byte) -- the training blocks that the lanes send, as of the latest training event
  deriving DecidableEq, Repr

/-- A packet waiting to leave on a virtual stream: its cell type code, its bytes with CRC, how many of
them have left in cells, and, for a view's packet, its view. -/
structure Pkt where
  type : Nat
  vs : Nat
  bytes : List Byte
  done : Nat
  view : Option ViewIx
  frame : Nat
  deriving DecidableEq, Repr

/-- A reliable packet: its class in the priority of R299 (MSG ahead of BULK), its stream and bytes. -/
structure RelPkt where
  msg : Bool
  vs : Nat
  bytes : List Byte
  ident : Nat               -- number of the packet, in order of its making
  deriving DecidableEq, Repr

/-- A reliable cell that was sent and is not acknowledged (R303, R306). -/
structure RelCell where
  seq : Nat
  type : Nat
  vs : Nat
  sop : Bool
  eop : Bool
  data : List Byte          -- at most 60 bytes of packet data
  ident : Nat
  deriving DecidableEq, Repr

/-- An upstream packet delivered by the link and not yet acted on. -/
structure InPkt where
  type : Nat
  body : List Byte
  stamp : Time
  deriving DecidableEq, Repr

/-- The reliable class of a port, both directions (R303 to R307). -/
structure Rel where
  txSeq : Nat                       -- SEQ of the next new cell
  out : List RelCell                -- sent and not acknowledged, oldest first
  resend : Nat                      -- how many of the newest cells of `out` are still to be resent
  cur : Option (RelPkt × Nat)       -- packet in progress and bytes of it already sent
  msgq : List RelPkt
  bulkq : List RelPkt
  lastAck : Nat                     -- latest ACK taken
  progressAt : Time                 -- latest progress of ACK, or first cell outstanding
  timeouts : Nat
  goBack : Option (Nat × Time)      -- ACK named by the latest go-back, and its instant
  nextIdent : Nat
  rto : Nat                         -- RTO in force, µs (R306, R328)
  rxSeq : Nat                       -- SEQ expected upstream
  rxAck : Nat                       -- SEQ of the last cell accepted in order
  rxBuf : List Byte                 -- data of the open upstream reliable packet
  rxOpen : Bool
  rxFirst : Nat                     -- SEQ of the first cell of the open packet
  nakAt : Option Time               -- NAK sent for the present gap
  owedAck : Option Time
  owedNak : Bool
  deriving DecidableEq, Repr

/-- Credits of the sixteen streams of a port (R309, R310). -/
structure Credits where
  allow : List Nat
  sent : List Nat
  freed : List Nat
  init : Bool                       -- an INIT was taken since entry to ACTIVE
  deriving DecidableEq, Repr

/-- Time transfer of a port (R320 to R322). -/
structure LinkTime where
  txSeq : Nat                       -- AMSEQ of the next downstream marker
  rxSeq : Option Nat                -- AMSEQ of the last accepted upstream marker
  amBad : Nat                       -- failures in a row
  dn : List (Nat × Nat)             -- newest first: (AMSEQ, D_TX), at most 256
  up : List (Nat × Nat)             -- newest first: (AMSEQ, D_RX), at most 16
  theta : Int
  rtt : Int
  valid : Bool
  lastCell : Time                   -- stamp of the last accepted TIME cell
  upMark : Nat
  upStamp : Nat
  owed : Option Time                -- a TIME packet is owed since
  cwSince : Nat                     -- codewords since the latest downstream marker; 1,024 owe the next (R259, R292)
  cwUp : Nat                        -- codewords received since the latest upstream marker; the next follows 256 (R259, R292)
  marks : List (List Byte)          -- the latest downstream markers, by lane (R260)
  deriving DecidableEq, Repr

/-- A BULK transfer in progress (R246, R342). -/
structure Bulk where
  tag : BitVec 16
  vs : Nat
  index : Nat                       -- next packet INDEX
  items : List (Nat × Nat × Nat)    -- records still to send: record index, chunk and offset of its header
  off : Nat                         -- offset within the first item
  ackRecords : Nat
  ackBytes : Nat
  live : List (Nat × Nat × Nat)     -- packets made and not acknowledged: ident, index of the record it ends plus 1, bytes
  last : Option Nat                 -- index of the last record acknowledged whole
  seg : Nat
  due : Option Time                 -- end of the deadline of its first packet, until that leaves (R338)
  deriving DecidableEq, Repr

/-- One host port. -/
structure Port where
  tr : Train
  phy : Phy
  test : LinkTest
  rel : Rel
  cr : Credits
  lt : LinkTime
  mbx : Mbx
  vq : List Pkt                     -- video and PIODATA packets of every stream, in order
  turn : Nat                        -- stream after which the next turn starts (R299)
  rxPkt : Option (Nat × List Byte)  -- open unreliable upstream packet: type and bytes
  inbox : List InPkt
  lostIn : Nat                      -- upstream packets lost when their queue was reset (R19)
  activeAt : Time                   -- latest entry to ACTIVE
  unc : Nat                         -- UNC of R300
  beaconAt : Option Time
  owedLimit : Bool                  -- a CMD_LIMIT change is owed
  dropAt : Option Time              -- T_L of a drop whose leases have not lapsed (R352)
  holdEnd : Option Time             -- end of the view hold timer (R324)
  bulk : Option Bulk
  lastCell : List Byte              -- the last downstream cell
  cwCells : List (List Byte)        -- cells of the codeword being formed
  lastCw : List Nat                 -- symbols of the last downstream codeword
  lastLanes : List (List Nat)       -- its levels on logical lanes 0 to 3 (R258, R292)
  txY : List Nat                    -- last precoder output by logical lane
  rxY : Nat                         -- y of the last upstream data symbol (R258)
  deriving DecidableEq, Repr

/-- The physical layer of a port after reset (R263, R277, R278). -/
def Phy.reset : Phy :=
  { map := [0, 1, 2, 3], inv := [false, false, false, false], upInv := false, delay := [0, 0, 0, 0]
    ffePre := [0, 0, 0, 0], ffePost := [0, 0, 0, 0], ffePreset := [0, 0, 0, 0]
    ffeLimit := [false, false, false, false], reqId := 0, reqSeen := false
    ctle := 0, ctleTry := 16, ctleBest := 0, ctleAt := 0, eye := 0, dfe := [0, 0, 0, 0, 0], dfeAt := 0, phase := 0, phaseAt := 0
    los := false, lol := false, losAt := 0, lolAt := 0, upOk := false, freqPpm := 0, freqAt := none
    chkSync := false, chkState := 0, chkBits := 0, winBits := 0, winErrs := 0, winAt := 0, gen := [none, none, none, none], genAt := 0 }

/-- No test (R288, `LINKp_TEST`). -/
def LinkTest.reset : LinkTest :=
  { run := false, pat := 0, genDn := false, chkUp := false, lanes := 0, inj := 0, injExp := 10, endAt := 0
    injected := 0, flip := 0, injAt := 0, syncLoss := 0, errors := 0, src := .sideband, tag := 0 }

/-- QUIET (R268). -/
def Train.reset : Train :=
  { st := .quiet, entered := 0, dnRate := 0, div := 128, upRate := 0, preDn := false, preUp := false, pass := 0, fall := 3
    fails := 0, failState := 0, reason := 0, backoffEnd := 0, backoffOver := false, nextBeacon := 0
    good := 0, rxGood := 0, lastLeads := [], hostDn := 0, hostUp := 0, hostCaps := 0
    rateStep := .offer, offDn := 0, offUp := 0, offPreDn := false, offPreUp := false, idleEnd := 0, goFrom := 0
    away := false, changeAt := none, changeBy := none, blkSeq := 0, blkFrom := 0, blocks := [] }

/-- Reliable class at an entry to ACTIVE (R303, R312). -/
def Rel.reset : Rel :=
  { txSeq := 0, out := [], resend := 0, cur := none, msgq := [], bulkq := [], lastAck := 255, progressAt := 0
    timeouts := 0, goBack := none, nextIdent := 0, rto := 8, rxSeq := 0, rxAck := 255, rxBuf := [], rxOpen := false
    rxFirst := 0, nakAt := none, owedAck := none, owedNak := false }

/-- Credits at an entry to ACTIVE (R310). -/
def Credits.reset : Credits :=
  { allow := List.replicate 16 64, sent := List.replicate 16 0, freed := List.replicate 16 0, init := false }

/-- Time transfer at reset (R320 to R322). -/
def LinkTime.reset : LinkTime :=
  { txSeq := 0, rxSeq := none, amBad := 0, dn := [], up := [], theta := 0, rtt := 0, valid := false, lastCell := 0
    upMark := 0, upStamp := 0, owed := none, cwSince := 0, cwUp := 0, marks := [] }

/-- Mailboxes at reset (R329, R345). -/
def Mbx.reset : Mbx :=
  { reqFree := 32, reqOwed := 0, rspFree := 32, chain := none, wait := [], notes := [], nseq := 0, lostFlag := false, ring := []
    consumed := 0, sentCount := 0, hostVer := 0, recent := [], dupLeft := 0, oldRecent := [], acceptedReq := 0
    cmdLimit := 32 }

/-- A port at reset. -/
def Port.reset : Port :=
  { tr := Train.reset, phy := Phy.reset, test := LinkTest.reset, rel := Rel.reset, cr := Credits.reset
    lt := LinkTime.reset, mbx := Mbx.reset, vq := [], turn := 0, rxPkt := none, inbox := [], lostIn := 0, activeAt := 0, unc := 0
    beaconAt := none, owedLimit := false, dropAt := none, holdEnd := none, bulk := none, lastCell := []
    cwCells := [], lastCw := [], lastLanes := [], txY := [0, 0, 0, 0], rxY := 0 }

end Sys2Proof.Machine
end

