-- ==== Sys2Proof/Machine/Parts/Memory.lean ====
section
/-! DEFINITION. The state of the frame memory controller, the event ring and the hold-up charger (chapters "Frame
memory controller" and "Event ring, Dusk, Buoy and Dawn"). -/

namespace Sys2Proof.Machine

/-- The controller states of R209. -/
inductive MemSt where
  | off | init | train | run | change | frozen | unavail | retain
  deriving DecidableEq, Repr

/-- What a request asks for (R189, R190). -/
inductive MemOp where
  | read
  | write (mask : Nat) (data : List Byte)
  deriving DecidableEq, Repr

/-- A request in a bank queue, at the dies or waiting at its requester (R189 to R193). `half` marks a partial write whose read is done,
and `moved` an access of one of the model's own requesters, whose bytes already stand in frame memory. -/
structure MemEnt where
  cls : Nat
  inst : Nat
  d : Nat                   -- DRAM unit
  q : Nat                   -- bank queue
  op : MemOp
  came : Time               -- instant at which it was presented
  at_ : Time                -- instant at which its sub-channel took it
  aged : Bool
  half : Bool
  moved : Bool
  deriving DecidableEq, Repr

/-- What a request was answered with. -/
inductive MemAns where
  | data (bytes : List Byte)
  | done
  | fault
  deriving DecidableEq, Repr

/-- An answer of the controller: the request and what it got. -/
structure MemReply where
  cls : Nat
  inst : Nat
  d : Nat
  ans : MemAns
  deriving DecidableEq, Repr

/-- A line of an ECC cache (R197): its sub-channel, the block, the slots held with their check words, latest use. -/
structure EccLine where
  sc : Nat
  block : Nat
  words : List (Nat × Nat)
  used : Time
  deriving DecidableEq, Repr

/-- A read answered from the write buffer: it holds the token of its class for one MEMC cycle (R191). -/
structure MemHit where
  cls : Nat
  till : Time
  deriving DecidableEq, Repr

/-- An entry of the check-unit queue of a sub-channel (R197): a fetch for reads, or the write-back of a line with the words that it held. `half`
marks a merge whose read is done, and `at_` is the instant of its latest activate, before that of its entry. -/
structure CkEnt where
  block : Nat
  q : Nat
  words : Option (List (Nat × Nat))
  half : Bool
  at_ : Time
  deriving DecidableEq, Repr

/-- The timing parameters of R183. -/
structure MemTim where
  rc : Time
  rrd : Time
  faw : Time
  rfc : Time
  refw : Time
  wtr : Time
  rtw : Time
  xp : Time
  deriving DecidableEq, Repr

/-- The nominal values of R183. -/
def MemTim.nominal : MemTim := ⟨120, 10, 40, 280, 64000000, 20, 16, 15⟩

/-- The state of one bank (R183, R194, R201): only banks that were used are listed. -/
structure Bank where
  q : Nat
  lastAct : Option Time
  busyTill : Time           -- refresh in progress until
  owed : Nat
  ahead : Nat               -- refreshes pulled in
  dueAt : Time              -- instant of the latest refresh interval counted
  rows : List (Nat × Nat)   -- activate estimates: row, estimate
  deriving DecidableEq, Repr

/-- One rank of a sub-channel (R183, R195). -/
structure Rank where
  sc : Nat
  rank : Nat
  acts : List Time          -- newest first, at most 4
  down : Bool
  idleFrom : Time
  wakeAt : Time
  deriving DecidableEq, Repr

/-- One sub-channel (R183, R192). -/
structure SubCh where
  writeMode : Bool
  ptr : Nat                 -- bank last picked, 0 to 31
  lastWrite : Option Bool   -- direction of the last access
  lastAt : Time
  lastIn : Option Time      -- arrival of the latest request (R190)
  deriving DecidableEq, Repr

def SubCh.new : SubCh := ⟨false, 31, none, 0, none⟩

/-- A throttle of R202: a requester in a bank, and its latest activate there. -/
structure Throttle where
  cls : Nat
  inst : Nat
  q : Nat
  lastAct : Time
  deriving DecidableEq, Repr

/-- A delay code pair as the delay registers show it: write or CS code, read or CA code. -/
abbrev Delay := Nat × Nat

/-- The delay table of a bin, and whether it is valid (R203, R215). -/
structure DelayTable where
  valid : Bool
  codes : List Delay        -- 104 pairs, sub-channel by sub-channel, CA/CS last
  deriving DecidableEq, Repr

def DelayTable.blank : DelayTable := ⟨false, List.replicate 104 (0, 0)⟩

/-- The frame memory controller. -/
structure Mem where
  st : MemSt
  prior : MemSt             -- state before TRAIN or CHANGE
  bin : Nat
  target : Nat              -- MEMC_BIN.TARGET
  cap : Nat
  sweepBin : Nat            -- bin being swept
  sweepPend : Bool          -- a sweep is due and waits
  changeTo : Nat
  changeAt : Time
  refmul : Nat
  dieMul : Nat              -- multiplier that the dies asked for at the latest report
  polled : Time
  map : Nat
  tables : List DelayTable  -- per bin
  dly : List Delay          -- delay registers of the bin in use
  lastT : Int               -- TS14 at the last sweep, 1/8 °C
  sweeps : Nat
  windowMin : Nat           -- narrowest lane window of the last sweep
  tim : MemTim
  queue : List MemEnt       -- oldest first
  wait : List MemEnt        -- requests that wait at their requester, in order (R26)
  hits : List MemHit
  dies : List MemEnt        -- issued and not finished
  await : List (MemEnt × List (Nat × Nat)) -- reads that await their check unit, with the errors in the D they were read with (R197)
  held : List (MemEnt × Bool) -- finished in FROZEN: results held, and whether they were uncorrectable
  replies : List MemReply   -- the latest answers
  ecc : List EccLine
  ckq : List CkEnt          -- check-unit accesses that wait, oldest first
  ckd : List CkEnt          -- and those at the dies
  errs : List (Nat × List (Nat × Nat)) -- byte errors that stand in a DRAM unit: position and XOR value
  seals : List (Nat × Nat)  -- seals the ring writer awaits: first unit, and the unit after the last (R197)
  banks : List Bank
  ranks : List Rank
  subs : List SubCh
  rhStart : Time            -- start of the 32 ms window
  rhThresh : Nat            -- threshold of the window
  throttles : List Throttle
  bankThrottle : List Nat
  throttled : Nat           -- throttles since boot
  regions : List (Nat × Nat) -- regions in use outside the ring: base MiB, size in MiB
  undef : List (Nat × Nat × Nat) -- ranges of undefined contents: start, end, generation
  gen : Nat                 -- generations given out
  changePend : Bool         -- a requested change waits
  initTill : Option Time    -- the dies are initialised at this instant (R209)
  recover : Option Nat      -- FLAGS of the MEM_RECOVER that ends a freeze (R214)
  flushed : Bool            -- the change in progress has flushed the ECC cache and started PLLM
  refFrom : Time            -- refresh intervals run from here
  refTill : Time            -- the 8 refreshes of a bin change keep a bank busy until here
  hotRaised : List Nat      -- bank queues that raised MEM_ROWHOT in this window
  deriving DecidableEq, Repr

/-- A chunk entry of the directory (R221): state 0 free, 1 writing, 2 full, 3 directory. -/
structure Chunk where
  state : Nat
  view : Nat
  pin : Nat
  seq : Nat
  first : Option Nat        -- FS_DTIME of the first record that starts in it
  deriving DecidableEq, Repr

/-- A segment slot (R222 to R226, R247). -/
structure Segment where
  state : Nat               -- 0 FREE, 1 OPEN, 2 SEALED
  flags : Nat
  id : Nat
  events : Nat
  views : Nat
  also : Nat                -- views that became ring views while it was OPEN (R223)
  start : Nat
  end_ : Nat
  sealed : Nat
  firstCode : Nat
  lastCode : Nat
  firstEvent : Nat
  lastEvent : Nat
  deriving DecidableEq, Repr

def Segment.free : Segment := ⟨0, 0, 0, 0, 0, 0, 0, 0, 0, 0, 0, 0, 0⟩

/-- A ring record (R218, R219), open or sealed: where its header lies, and its header fields. -/
structure RingRec where
  view : Nat
  frame : Nat
  setId : Nat
  paramId : Nat
  fsDtime : Nat
  chunk : Nat
  off : Nat                 -- offset of its header in the chunk
  length : Nat
  lines : Nat
  format : Nat
  fflags : Nat
  rflags : Nat
  tag : List Byte
  parts : List (Nat × Nat × Nat) -- pieces of the record in order: chunk, offset, length
  openNow : Bool
  deriving DecidableEq, Repr

/-- The write position of a ring view: its current chunk and the next offset (R217, R222). -/
structure RingPos where
  view : Nat
  chunk : Nat
  off : Nat
  deriving DecidableEq, Repr

/-- The event ring (R216 to R227). -/
structure Ring where
  nAs : Nat
  flags : Nat               -- bit 0 DUSK_SEAL, bit 1 DROP_OLDEST
  views : Nat
  viewsAct : Nat            -- mask in force per view since its latest frame start (R244)
  pre : Nat
  post : Nat
  acts : List (Nat × Nat)   -- PRE and POST in force, per view (R244)
  begun : List (Nat × Nat)  -- view and frame of the frames that started under the mask and whose FSTART has not left (R244)
  lostRecs : List (Nat × Nat) -- view and FS_DTIME of records that a freeze has cost (R227)
  full : Bool
  stopped : Bool            -- stopped by unavailable memory (R227), or awaiting CONFIG_RING after a Dawn (R235)
  memStop : Bool            -- stopped by unavailable memory (R227, R243)
  recovered : Bool
  lostFlag : Bool
  lostEvents : Nat
  nextId : Nat
  seq : Nat
  gen : Nat
  chunks : List Chunk
  segs : List Segment
  recs : List RingRec       -- in order of opening
  pos : List RingPos
  deriving DecidableEq, Repr

def Ring.reset : Ring :=
  { nAs := 0, flags := 0, views := 0, viewsAct := 0, pre := 0, post := 0, acts := List.replicate 16 (0, 0), begun := [], lostRecs := [], full := false, stopped := false, memStop := false
    recovered := false, lostFlag := false, lostEvents := 0, nextId := 0, seq := 0, gen := 0
    chunks := [], segs := List.replicate 8 Segment.free, recs := [], pos := [] }

/-- Charger phases of R238, by the codes of R250. -/
inductive ChgPhase where
  | off | pre | fast | taper | done | maintain | suspend | fault
  deriving DecidableEq, Repr

/-- The hold-up store, its charger and the lamps (R236 to R243, R249 to R252). -/
structure Hold where
  phase : ChgPhase
  srcClass : Nat            -- 0 disabled, 1 shared, 2 dedicated, 3 fault
  srcR : Nat                -- HU_SRC in 100 Ω
  faults : List Nat         -- standing fault codes of R250, in order of arising
  ocv : Nat
  preOcv : Nat              -- OCV before the pulse in progress
  iIn : Nat
  steps : Nat               -- system-priority steps of 25 %, 0 to 4
  vioLow : Bool             -- VIO last sampled below 1.74 V
  vioHighSince : Option Time -- VIO at 1.76 V or above since
  downAt : Time             -- latest step down
  esr : Nat
  caps : List Nat           -- last 8 capacitance estimates, newest first, 0.1 F
  temp : Int                -- 1/8 °C
  zone : Nat                -- temperature window of R239: 0 suspend cold, 1 half, 2 full, 3 low target, 4 suspend hot
  pulse : Bool              -- charging, otherwise resting
  pulseAt : Time
  lowPulses : Nat           -- consecutive pulses below ILIM/10
  q : Nat                   -- mC
  pulseQ : Nat              -- charge of the pulse that is resting, mC
  ntcAt : Time              -- latest reading of HU_NTC
  ready : Bool
  duskUs : Nat
  duskUj : Nat
  buoyMs : Nat
  duskAt : Nat              -- DTIME of D
  commitAt : Nat            -- DTIME of the commit
  duskCause : Nat
  result : Nat              -- RESULT of the DAWN notification
  recovered : Nat           -- SEGMENTS of it
  dawnOcv : Nat
  buoyFrom : Time           -- start of BUOY
  pasr : Nat                -- PASR mask the Keeper holds
  keepBin : Nat
  lampOn : List Bool        -- STAT0 and STAT1 sinking current
  deriving DecidableEq, Repr

/-- The hold-up store at reset. -/
def Hold.reset : Hold :=
  { phase := .off, srcClass := 0, srcR := 0, faults := [], ocv := 0, preOcv := 0, iIn := 0, steps := 0, vioLow := false
    vioHighSince := none, downAt := 0, esr := 0, caps := [], temp := 0, zone := 2, pulse := false, pulseAt := 0, lowPulses := 0
    q := 0, pulseQ := 0, ntcAt := 0, ready := false, duskUs := 0, duskUj := 0, buoyMs := 0, duskAt := 0, commitAt := 0
    duskCause := 0, result := 0, recovered := 0, dawnOcv := 0, buoyFrom := 0, pasr := 0, keepBin := 2
    lampOn := [false, false] }

/-- No segment data and no valid table: the controller at reset (R209, R215). `mem.undef` is the whole of frame memory. -/
def Mem.reset : Mem :=
  { st := .off, prior := .init, bin := 2, target := 2, cap := 2, sweepBin := 2, sweepPend := false, changeTo := 2, changeAt := 0
    refmul := 1, dieMul := 1, polled := 0, map := 2, tables := List.replicate 3 DelayTable.blank, dly := List.replicate 104 (0, 0), lastT := 0, sweeps := 0
    windowMin := 0, tim := MemTim.nominal, queue := [], wait := [], hits := [], dies := [], await := [], held := [], replies := [], ecc := []
    ckq := [], ckd := [], errs := [], seals := [], banks := [], ranks := [], subs := List.replicate 8 SubCh.new
    rhStart := 0, rhThresh := 2000, throttles := [], bankThrottle := [], throttled := 0, regions := []
    undef := [(0, 0x3C0000000, 0)], gen := 0, changePend := false, initTill := none, recover := none, flushed := false, refFrom := 0, refTill := 0, hotRaised := [] }

end Sys2Proof.Machine
end

