-- ==== Sys2Proof/Machine/Parts/Power.lean ====
section
/-! DEFINITION. The state of supplies, clocks, resets, boot, OTP and security (chapters "Supplies, clocks,
reset and boot" and "One-time-programmable memory and security"). -/

namespace Sys2Proof.Machine

/-- The power states of R381. -/
inductive PowerState where
  | off | boot | standby | active | dusk | buoy | dawn | shutdown
  deriving DecidableEq, Repr

/-- The PLL states of `PCLK_PLLn_STAT` (R389). -/
inductive PllSt where
  | off | safe | band | acquire | locked | fail
  deriving DecidableEq, Repr

/-- One PLL (R387 to R391): its state, the band-table entry in use, entries tried in the present lock, and
failed attempts, and the µs of the lock before the present attempt. Band entries are (lower bound, upper bound, code) in MHz; `use` and `tmo` are
the table and the attempt timeout that the present lock took at its request (R404). -/
structure Pll where
  st : PllSt
  entry : Nat
  tried : List Nat
  tries : Nat
  since : Time
  lockUs : Nat
  bands : List (Nat × Nat × Nat)
  use : List (Nat × Nat × Nat)
  tmo : Time
  deriving DecidableEq, Repr

/-- Reset causes of R393 are kept by code. A reset that is to begin (R366). -/
structure ResetReq where
  cold : Bool
  src : Src
  due : Option Time     -- the latest instant at which it begins, once its OK response has left or is shown
  deriving DecidableEq, Repr

/-- What a boot follows: a warm or a cold reset, or Buoy (R393, R401). -/
inductive BootKind where
  | warm | cold | dawn
  deriving DecidableEq, Repr

/-- A change between STANDBY and ACTIVE: its instant, and whether the device was in ACTIVE or on the way there before it (R340, R383). -/
structure StateEv where
  at_ : Time
  active : Bool
  settling : Bool
  deriving DecidableEq, Repr

/-- Supplies, clocks, reset and boot (R376 to R404). -/
structure Power where
  st : PowerState
  seen : List StateEv           -- changes between STANDBY and ACTIVE since reset, oldest first
  started : Bool                -- a boot has begun since the Keeper was last lost
  vcoreGood : Bool
  vmidGood : Bool
  vioGood : Bool
  env : BootEnv
  cause : Nat
  prevCause : Nat
  refLost : Bool
  refLostAt : Time
  refUnknown : Bool
  refSrc : Nat
  refKhz : Nat
  refMeas : Nat
  lfxtalOk : Bool
  keepRc : Bool
  lfWaitFrom : Option Time      -- waiting for LFXTAL under R385 since
  bootFrom : Time               -- release of the latest reset
  bootKind : BootKind
  plls : List Pll
  strapLevels : List Nat
  strapOpen : List Bool
  devid : Nat
  profStrap : Nat
  profEff : Nat
  ovr : Bool
  bootStep : Nat
  bootTime : Nat
  bootLoop : Bool
  dawnFrom : Option Time        -- SG of the latest Dawn (R233)
  dawnTill : Time               -- end of its directory check
  bootTill : Time               -- step 7 of the latest boot (R401)
  quietAt : Time                -- ports go to QUIET in a Dusk (R229)
  deriving DecidableEq, Repr

/-- Reset history, pending resets and pending power changes. -/
structure ResetSt where
  coldAt : Time                 -- latest cold reset (R415)
  lastFw : Option Time          -- latest reset of cause 6, 7 or 8
  coldFw : List Time            -- cold resets of those causes, newest first
  req : Option ResetReq
  porLatched : Bool
  settleAt : Option Time        -- pumps settle at this instant (R377)
  autoStart : Bool              -- the profile starts the array when the pumps have settled (R399)
  autoViews : List PortIx       -- ports whose profile view starts at their first entry to ACTIVE (R400)
  keepFaults : List (Nat × Nat) -- faults the Keeper raises again (R494)
  memKeep : Option (Nat × Nat)  -- error record the Keeper carries (R200, R504)
  dawnPorts : List PortIx       -- ports with no entry to ACTIVE since the latest Dawn (R346)
  dawnNote : List Byte          -- payload of that Dawn's DAWN notification (R251)
  ringLost : Bool               -- the store was exhausted in BUOY with a ring: the next directory check finds it lost (R232)
  deriving DecidableEq, Repr

/-- The lifecycle states of R469. -/
inductive Life where
  | blank | manufacture | provisioned | field | ret
  deriving DecidableEq, Repr

/-- A host key slot (R458, R472): places used, and its valid instance of the highest index: its number, role and
unwrapped key. -/
structure KeySlot where
  used : Nat
  inst : Option (Nat × Role × List Byte)
  deriving DecidableEq, Repr

/-- One OTP word: the bits that read 1 at the normal margin and at the strict margin (R459). -/
structure OtpCell where
  addr : Nat
  norm : Nat
  strict : Nat
  deriving DecidableEq, Repr

/-- The outcome of reading a region at boot (R460 to R463, `OTPC_REGr`). -/
structure OtpRegion where
  locked : Bool
  crcProg : Bool
  crcOk : Bool
  copyB : Bool
  failed : Bool
  subst : Nat
  deriving DecidableEq, Repr

/-- A programming of OTP words in progress: for a command, the words still to write, those written, and what
its completion reports; for an own write of R466, which write it is. -/
inductive OtpWhat where
  | cmd (src : Src) (opcode : Nat) (tag : BitVec 16)
  | thermlog (entry : Nat × Nat)
  | kill
  | killReturn (src : Src) (tag : BitVec 16)
  | rollback
  deriving DecidableEq, Repr

structure OtpJob where
  what : OtpWhat
  words : List (Nat × Nat)      -- (address, data), next first
  written : Nat
  deriving DecidableEq, Repr

/-- A firmware load in progress (R489). -/
structure FwLoad where
  src : Src
  header : List Byte
  have_ : List (Nat × List Byte)   -- (offset, bytes) received, in order of arrival
  length : Nat
  advance : Bool
  last : Time
  deriving DecidableEq, Repr

/-- A handover to a verified image (R403). -/
structure Handover where
  src : Src
  tag : BitVec 16
  ver : Nat
  svn : Nat
  advance : Bool
  started : Time
  image : List Byte
  deriving DecidableEq, Repr

/-- A live NONCE of a port (R474). -/
structure Nonce where
  slot : Nat
  bytes : List Byte
  issued : Time
  deriving DecidableEq, Repr

/-- OTP contents and what the boot read from them (R454 to R463). -/
structure Otp where
  cells : List OtpCell          -- ascending addresses, blank words not listed
  bootCells : List OtpCell      -- as the latest boot read them
  regions : List OtpRegion
  readCorr : Nat
  readSubst : Nat
  incomplete : Nat
  badLog : Nat
  jobs : List OtpJob            -- the job in progress first
  lastAddr : Nat
  progStatus : Nat
  stopDusk : Option (Time × Bool × Bool × Nat) -- a supply failure at D stops programming at the end of the word in progress
  deriving DecidableEq, Repr

/-- Lifecycle, keys, authentication, alarms and firmware (R464 to R489). -/
structure Sec where
  life : Life
  lcNext : Life
  untrusted : Bool
  killed : Bool
  killLatch : Bool
  pufOk : Bool
  unauth : List Role
  slots : List KeySlot
  vendor : Option (List Byte)
  auth : List (Option (Nat × Nat))   -- by port: slot and instance
  nonces : List (Option Nonce)       -- by port
  failAt : List (Option Time)        -- by port: latest failure (R475)
  nonceNo : Nat                      -- NONCEs drawn
  authFails : Nat
  lockStands : Bool
  lockBy : List (Nat × Nat)          -- (source, action) of the alarms whose lock stands
  fired : Nat
  buoyLatch : List (Nat × Nat)       -- (source, action) latched in BUOY
  latchBuoy : Bool
  alarmWait : List (Nat × Nat × Nat × Nat) -- ALARM notifications that wait for KILL_HOST: source, action, flags, DTIME
  alarmPol : Nat
  load : Option FwLoad
  handover : Option Handover
  fwVer : Nat
  fwSrc : Nat
  fwImage : List Byte                -- image kept over a warm reset (R394)
  fwSvn : Nat
  rollback : Nat
  stepsTo : Nat                      -- anti-rollback steps are still to reach this counter
  uid : List Byte
  pid : List Byte
  killedTiles : List TileIx
  defects : List Nat                 -- static defect entries of R101, as words, from DEFECT and the RETURN list
  deriving DecidableEq, Repr

/-- A PLL at reset (R404). -/
def Pll.reset : Pll := ⟨.off, 0, [], 0, 0, 0, [], [], 0⟩

/-- A board that presents nothing yet. -/
def noEnv : BootEnv := ⟨[0, 0, 0, 0], 0, false, [], false, 0, 0, 0⟩

/-- Supplies and clocks at reset: BOOT, whose first step is still to run, with cause 1 (R381, R404). -/
def Power.reset : Power :=
  { st := .boot, seen := [], started := false, vcoreGood := false, vmidGood := false, vioGood := false, env := noEnv, cause := 1, prevCause := 0
    refLost := false, refLostAt := 0, refUnknown := false, refSrc := 0, refKhz := 0, refMeas := 0, lfxtalOk := false
    keepRc := false, lfWaitFrom := none, bootFrom := 0, bootKind := .cold, plls := List.replicate 4 Pll.reset
    strapLevels := [0, 0, 0, 0], strapOpen := [false, false, false, false], devid := 0, profStrap := 0, profEff := 0, ovr := false
    bootStep := 0, bootTime := 0, bootLoop := false, dawnFrom := none, dawnTill := 0, bootTill := 0, quietAt := 0 }

def ResetSt.reset : ResetSt :=
  { coldAt := 0, lastFw := none, coldFw := [], req := none, porLatched := false, settleAt := none, autoStart := false, autoViews := []
    keepFaults := [], memKeep := none, dawnPorts := [], dawnNote := [], ringLost := false }

/-- A blank OTP, of which no boot has read anything (R454). -/
def Otp.reset : Otp :=
  { cells := [], bootCells := [], regions := List.replicate 9 ⟨false, false, false, false, false, 0⟩, readCorr := 0, readSubst := 0
    incomplete := 0, badLog := 0, jobs := [], lastAddr := 0, progStatus := 0, stopDusk := none }

def Sec.reset : Sec :=
  { life := .blank, lcNext := .blank, untrusted := false, killed := false, killLatch := false, pufOk := false
    unauth := [.viewer, .viewer, .viewer, .viewer], slots := List.replicate 4 ⟨0, none⟩, vendor := none
    auth := [none, none, none, none], nonces := [none, none, none, none], failAt := [none, none, none, none], nonceNo := 0
    authFails := 0, lockStands := false, lockBy := [], fired := 0, buoyLatch := [], latchBuoy := false, alarmWait := []
    alarmPol := 0x1004, load := none, handover := none, fwVer := Config.romFwVer.toNat, fwSrc := 0, fwImage := [], fwSvn := 0
    rollback := 0, stepsTo := 0, uid := List.replicate 8 0, pid := List.replicate 6 0, killedTiles := [], defects := [] }

end Sys2Proof.Machine
end

