-- ==== Sys2Proof/Machine/Parts/Timer.lean ====
section
/-! DEFINITION. The state of the timers, the PIO engines and the pins (chapter "Timers and programmable I/O engines")
and of thermal management. Configuration that has a register is held in the register store. -/

namespace Sys2Proof.Machine

/-- One timer channel (R423 to R432). -/
structure Tmr where
  run : Bool
  down : Bool
  count : Nat
  acc : Nat
  last : Nat                -- index of the latest source event counted, for sources 0 to 2
  ticks : Nat               -- ticks made by sources 3 to 5 and not yet taken
  out : Bool
  per : Nat                 -- in force
  m0 : Nat
  m1 : Nat
  shPer : Option Nat        -- shadows waiting (R427)
  shM0 : Option Nat
  shM1 : Option Nat
  dueCap : Bool             -- events of R425 and R430 that are due
  dueM0 : Bool
  dueM1 : Bool
  duePer : Bool
  dueZero : Bool
  capVal : Nat              -- COUNT in the cycle of the accepted edge
  cap : Nat                 -- capture register
  prevCap : Nat             -- its value before the latest capture
  capCyc : Option Nat       -- PIO cycle of the latest capture
  capCopy : Nat             -- value that CAP_HI returns
  fresh : Bool              -- NEW
  overcap : Bool
  rdRun : Bool
  level : Bool              -- accepted input level
  edges : Nat               -- EDGE_CNT
  stopCyc : Option Nat      -- PIO cycle of the latest STOP
  rstCyc : Option (Nat × Nat) -- PIO cycle of the latest RESET, and COUNT before it
  at_ : Option (Nat × Nat)  -- pending TIMER_CONTROL: DTIME and OP
  deriving DecidableEq, Repr

def Tmr.reset : Tmr :=
  { run := false, down := false, count := 0, acc := 0, last := 0, ticks := 0, out := false, per := 2 ^ 48 - 1, m0 := 0
    m1 := 0, shPer := none, shM0 := none, shM1 := none, dueCap := false, dueM0 := false, dueM1 := false
    duePer := false, dueZero := false, capVal := 0, cap := 0, prevCap := 0, capCyc := none, capCopy := 0, fresh := false
    overcap := false, rdRun := false, level := false, edges := 0, stopCyc := none, rstCyc := none, at_ := none }

/-- The states of an engine (R439). -/
inductive PeSt where
  | stopped | running | stalled | halted
  deriving DecidableEq, Repr

/-- A loop-stack entry (R435). -/
structure LoopEnt where
  first : Nat
  last : Nat
  count : Nat
  deriving DecidableEq, Repr

/-- One PIO engine (R434 to R441). -/
structure Pe where
  st : PeSt
  fault : Nat               -- 0 none, 1 WAIT_TIMEOUT, 2 PIO_ILLEGAL
  pc : Nat
  w0 : BitVec 32
  w1 : BitVec 32
  txr : BitVec 32
  rxr : BitVec 32
  tc : Nat
  rc : Nat
  stack : List LoopEnt      -- top first
  latch : Nat               -- bit 4·timer + event
  dir : Nat
  lvl : Nat
  txq : List (BitVec 32)
  rxq : List (BitVec 32 × Time × Nat) -- each word with the instant and the DTIME of its entry
  buf : List (BitVec 32)
  bufAt : Option Time       -- instant at which the first word of the buffer entered RXQ
  bufD : Nat                -- and its DTIME (R319)
  port : PortIx
  pkts : Nat
  ovf : Bool                -- words were lost before the next packet
  start : Nat               -- PIO cycle of the start
  ticks : Nat               -- engine ticks used since then
  waitFrom : Option Time    -- a WAIT is in progress since
  keepW0 : BitVec 32
  keepW1 : BitVec 32
  keepTx : BitVec 32
  keepRx : BitVec 32
  movedAt : Option Nat      -- PIO cycle of the latest word moved into the buffer
  flush : Bool              -- a FLUSH waits for credit
  deriving DecidableEq, Repr

def Pe.reset : Pe :=
  { st := .stopped, fault := 0, pc := 0, w0 := 0, w1 := 0, txr := 0, rxr := 0, tc := 0, rc := 0, stack := [], latch := 0
    dir := 0, lvl := 0, txq := [], rxq := [], buf := [], bufAt := none, bufD := 0, port := 0, pkts := 0, ovf := false, start := 0
    ticks := 0, waitFrom := none, keepW0 := 0, keepW1 := 0, keepTx := 0, keepRx := 0
    movedAt := none, flush := false }

/-- Timers, engines and pins. -/
structure Pio where
  tmr : List Tmr
  pe : List Pe
  initDir : List Nat        -- INIT_DIR and INIT_VAL by engine (R448)
  initVal : List Nat
  fsync : List (Nat × Time) -- FSYNC_OUT pins that are high, and the instant each falls (R442)
  ovr : Nat                 -- PIO_OVR, 64 bits
  readVal : Nat             -- value returned by the latest timer read row
  deriving DecidableEq, Repr

def Pio.reset : Pio :=
  { tmr := List.replicate 16 Tmr.reset, pe := List.replicate 8 Pe.reset, initDir := List.replicate 8 0
    initVal := List.replicate 8 0, fsync := [], ovr := 0, readVal := 0 }

/-- One thermal sensor (R405 to R409). -/
structure Sensor where
  temp : Int                -- 1/8 °C
  failed : Bool
  badRun : Nat
  goodRun : Nat
  hist : List (Time × Int)  -- readings of the last 0.5 s, newest first
  tempRun : Nat             -- consecutive samples below -55 °C or above 140 °C
  hotRun : List Nat         -- consecutive samples at or above WARN, THROTTLE, CRITICAL, SHUTDOWN
  rate : Int                -- rate of rise, 1/8 °C/s
  deriving DecidableEq, Repr

/-- Thermal management (R405 to R418). -/
structure Therm where
  sensors : List Sensor
  sampledAt : Option Time   -- latest sample
  fast : Bool
  fastAt : Time             -- latest instant at which a fast-sampling condition held
  level : Nat               -- 0 to 4, 4 being SHUTDOWN
  below : List (Option Time) -- by level 1 to 4: every sensor below threshold less HYST since
  squall : Bool
  squallAt : Time           -- latest instant at which a rate was at least half the threshold
  step : Nat
  grace : Option Time       -- expiry of the grace timer
  down : Option Time        -- expiry of the down timer
  forced : Bool             -- held at step 3 for failed sensors (R407)
  fseq : Nat                -- FOGHORNs numbered since reset
  last : List Byte          -- latest FOGHORN payload
  acked : List Nat          -- by port: latest FOGHORN acknowledged, by its count, 0 none
  sentAt : Time             -- instant of the latest FOGHORN or repeat
  shutAt : Option Time      -- entry to SHUTDOWN
  coolAt : Option Time      -- every sensor below SHUTDOWN − 15 °C since
  peak : Int
  dropped : Nat
  kept : List (Nat × Nat)   -- unlogged THERMLOG entries the Keeper holds (R415), newest last
  elpT : List Int           -- of the bands in 1/16 °C, latched at the previous ELP (R416, R417)
  band : List Nat           -- s_b (R418)
  deriving DecidableEq, Repr

def Sensor.reset : Sensor :=
  { temp := 0, failed := false, badRun := 0, goodRun := 0, hist := [], tempRun := 0, hotRun := [0, 0, 0, 0], rate := 0 }

def Therm.reset : Therm :=
  { sensors := List.replicate 16 Sensor.reset, sampledAt := none, fast := false, fastAt := 0, level := 0, below := [none, none, none, none]
    squall := false, squallAt := 0, step := 0, grace := none, down := none, forced := false, fseq := 0, last := []
    acked := [0, 0, 0, 0], sentAt := 0, shutAt := none, coolAt := none, peak := -32768, dropped := 0, kept := []
    elpT := [], band := List.replicate 12 0x100 }

end Sys2Proof.Machine
end

