-- ==== Sys2Proof/Machine/Parts/View.lean ====
section
/-! DEFINITION. The state of the views, the image pipeline and the auxiliary camera inputs (chapters "Image pipeline,
views and statistics" and "Auxiliary camera inputs"). -/

namespace Sys2Proof.Machine

/-- The parameters of a view (R155). Knees are (X, Y); the matrix is nine coefficients then three offsets. -/
structure ViewP where
  source : Nat
  vc : Nat
  format : Nat
  order : Nat
  decim : Nat
  phase : Nat
  vs : Nat
  x : Nat
  y : Nat
  width : Nat
  height : Nat
  scx : Nat
  scy : Nat
  flags : Nat
  curve : Nat
  knees : Nat
  tm : Nat
  fill : Nat
  wbR : Nat
  wbG : Nat
  wbB : Nat
  yuv : Nat
  knee : List (Nat × Nat)
  ccm : List Int
  gamma : List Nat
  deriving DecidableEq, Repr

/-- The states of R125. -/
inductive ViewSt where
  | free | created | running | paused
  deriving DecidableEq, Repr

/-- A parameter set that applies from the first frame start after its stamp (R127). -/
structure SoftP where
  stamp : Time
  id : Nat
  p : ViewP
  deriving DecidableEq, Repr

/-- One view V0 to V15. -/
structure View where
  st : ViewSt
  owner : PortIx
  p : ViewP                 -- in force at the latest frame start
  paramId : Nat
  soft : List SoftP         -- accepted and not yet in force, oldest first
  ctx : Nat                 -- contexts held
  lmem : Nat                -- line memory held, in bytes
  first : Nat               -- first array frame it may take (R126)
  since : Time              -- start instant E of START_VIEW
  stopHow : Option Nat      -- a stop in progress (R139)
  stopAt : Option Time      -- start instant E of that stop (R59)
  stopCall : Bool           -- it was pre-empted by a SAFETY host
  del : Bool                -- DELETE_VIEW waits for the stop
  region : Option (Nat × Nat) -- frame stores: base MiB and size in MiB (R137, R188)
  store : Nat               -- store of the next frame, 0 or 1
  takeFrom : Time           -- frames are taken whose ELP or frame start follows this instant (R126, R325)
  tags : Option (List Byte) -- tag key TK, while frame tags are on (R477)
  tagPend : Option (Time × Option (List Byte))
  cut : Option (List Byte)  -- FEND owed for the frame that an exit from ACTIVE interrupted (R325)
  missFirst : Nat           -- first frame missed since the last FRAME_DROP
  missCount : Nat
  missReason : Nat
  missAt : Option Time      -- instant of the last FRAME_DROP (R128)
  missing : Bool            -- frames are being missed
  deriving DecidableEq, Repr

def ViewP.reset : ViewP :=
  { source := 0, vc := 0, format := 0, order := 0, decim := 1, phase := 0, vs := 0, x := 0, y := 0, width := 0
    height := 0, scx := 256, scy := 256, flags := 0, curve := 0, knees := 0, tm := 0, fill := 0, wbR := 0, wbG := 0
    wbB := 0, yuv := 0, knee := [], ccm := [], gamma := [] }

def View.reset : View :=
  { st := .free, owner := 0, p := ViewP.reset, paramId := 0, soft := [], ctx := 0, lmem := 0, first := 0, since := 0
    stopHow := none, stopAt := none, stopCall := false, del := false, region := none, store := 0, takeFrom := 0, tags := none, tagPend := none, cut := none
    missFirst := 0, missCount := 0, missReason := 0, missAt := none, missing := false }

/-- A source line that has reached the pipeline arbiter, or the fill that stands for it (R13, R43, R140). `codes` is empty for
fill. For an array source `unit` is the tile; for an aux source it is the line's virtual channel. -/
structure SrcLine where
  src : Nat                 -- 0 array, 1 to 4 AX0 to AX3
  unit : Nat
  frame : Nat
  row : Nat
  kind : Option Nat         -- kind of a SAMPLES line
  codes : List Nat
  flags : Nat               -- line flags of R134
  at_ : Time
  deriving DecidableEq, Repr

/-- A job: one stripe over one group (R148). `band` is 12 where groups do not lie within bands. -/
structure Job8 where
  view : ViewIx
  frame : Nat
  band : Nat
  group : Nat
  stripe : Nat
  cls : Nat                 -- class of R150, 1 to 3
  deadline : Time
  deriving DecidableEq, Repr

/-- A frame of a view in progress (R125 to R139). -/
structure VFrame where
  view : ViewIx
  frame : Nat
  setId : Nat
  p : ViewP
  paramId : Nat
  binned : Bool
  sx : Nat                  -- source window in source pixels (R131)
  sy : Nat
  sw : Nat
  sh : Nat
  ow : Nat
  oh : Nat
  fsAt : Time
  fsD : Nat                 -- DTIME latched at the frame start (R163)
  spanNs : Nat
  fflags : Nat              -- frame flags so far
  s : Nat                   -- lines per source row for SAMPLES, otherwise 1
  ped : Nat
  started : Bool            -- FSTART queued
  jobs : List (Nat × Nat × Nat) -- jobs done: band, group, stripe
  rows : List (Nat × Nat)   -- output rows (and kinds) not yet complete
  queued : Nat              -- lines queued, the LINES of FEND
  lost : Nat
  lor : Nat
  srcEnd : Option Time      -- end of the source frame
  endD : Nat                -- DTIME latched there
  store : Nat
  readback : Option Time    -- t_rb, once readback runs (R137)
  late : Option Time        -- end allowed to the readback
  curve : List (Nat × Nat)  -- tone curve of R144, where CURVE is 2
  lineFlags : List (Nat × Nat) -- RASTER: flags of stored source rows
  tag : Option (List Byte)  -- R478: bytes the tag covers so far, while tags are on
  tk : List Byte            -- the tag key
  en : List Bool            -- array source: tiles that convert, and the tile image rows of the row window
  rowLo : Nat
  rowHi : Nat
  lsc : Nat                 -- lens-shading bank
  interval : Time           -- T_v of R137
  dropNoted : Bool          -- a line was dropped under R138
  auxAct : List Nat         -- aux source: soft configuration of the frame, then DT and BAYER
  geomW : Nat               -- expected geometry of an aux source
  geomH : Nat
  deriving DecidableEq, Repr

/-- The shared pipeline (R148 to R151). -/
structure Pipe where
  views : List View
  lines : List SrcLine
  frames : List VFrame
  ready : List Job8
  run : Option (Job8 × Time)    -- job in progress and its end
  deriving DecidableEq, Repr

def Pipe.reset : Pipe :=
  { views := List.replicate 16 View.reset, lines := [], frames := [], ready := [], run := none }

/-- One virtual channel of an aux input (R162, R163, R168, R169). -/
structure AuxVc where
  count : Nat
  openAt : Option Time      -- stamp of the Frame Start of the open frame
  openD : Nat               -- DTIME latched there (R163)
  lastFs : Option Time      -- stamp of the latest Frame Start, or entry to RUN
  everFs : Bool             -- `lastFs` is a Frame Start
  lines : Nat               -- lines received in the open frame
  fflags : Nat              -- bits 15:8 of its frame flags
  late : Bool
  lastLines : Nat
  lastFlags : Nat
  store : Nat               -- frame store of the open frame
  storeOk : Bool            -- the open frame is being stored
  soft : List (Time × List Nat) -- soft configurations not yet in force: stamp, then POLICY, DDC_EN, STATS_VC, TH_REL, TH_ABS, PAD, BL, BG, LATE
  act : List Nat            -- the soft configuration in force
  deriving DecidableEq, Repr

def AuxVc.reset : AuxVc :=
  { count := 0, openAt := none, openD := 0, lastFs := none, everFs := false, lines := 0, fflags := 0
    late := false, lastLines := 0, lastFlags := 0, store := 0, storeOk := false, soft := []
    act := [0, 1, 0, 64, 0x400, 0, 0, 0x1000, 1000] }

/-- The states of an aux input. -/
inductive AuxSt where
  | off | skewWait | run | los
  deriving DecidableEq, Repr

/-- The samples of an aux frame for its statistics record, and a record that is due (R174). -/
structure AuxStat where
  vc : Nat
  frame : Nat
  fsD : Nat                 -- DTIME latched at the frame start (R163)
  endAt : Option Time
  lines : List (Nat × List Nat)     -- row and samples as received, pad pixels left out
  act : List Nat                    -- soft configuration of the frame (R177)
  takers : List Nat                 -- views that take the record (R154)
  deriving DecidableEq, Repr

/-- One aux input (R159 to R179). -/
structure AuxIn where
  st : AuxSt
  skewed : List Nat         -- logical lanes that received the initial calibration
  losLane : Nat
  vcs : List AuxVc
  region : List (Option (Nat × Nat))  -- frame stores by virtual channel: base MiB, size in MiB
  stat : List AuxStat
  bankPend : Option (Time × Nat)      -- AUX_BANK change not yet in force (R158)
  bank : Nat
  deriving DecidableEq, Repr

def AuxIn.reset : AuxIn :=
  { st := .off, skewed := [], losLane := 0, vcs := List.replicate 4 AuxVc.reset
    region := [none, none, none, none], stat := [], bankPend := none, bank := 0 }

end Sys2Proof.Machine
end

