-- ==== Sys2Proof/Machine/RegTable.lean ====
section
/-! DEFINITION. The register map: every register the chapters' register tables list, with its address, its
array strides, and its fields with their access codes and reset values (R9, R47, R50, R93, R122, R158, R179,
R215, R252, R289, R328, R375, R404, R422, R453, R490, R505). A field whose reset the tables give as taken from
OTP, the straps or the tile index carries 0 here: such fields are derived from the state when they are read. -/

namespace Sys2Proof.Machine

/-- The access codes of R9. -/
inductive Acc where
  | rw | ro | wo | w1c | rc | rwl
  deriving DecidableEq, Repr

/-- One field of a register: its bit range, access code and reset value. -/
structure Fld where
  hi : Nat
  lo : Nat
  acc : Acc
  reset : Nat
  deriving DecidableEq, Repr

/-- A register, or an array of `n1` by `n2` registers at strides `s1` and `s2` from `base`. -/
structure RegDef where
  name : String
  base : Nat
  s1 : Nat
  n1 : Nat
  s2 : Nat
  n2 : Nat
  flds : List Fld
  deriving DecidableEq, Repr

/-- The blocks of the register map (R375, R404 and the table of blocks under "Architecture"). -/
inductive Block where
  | sys | array | teng | pipe | aux | memc | link | pclk | therm | tmr | pio | otpc | hold | diag | sec
  deriving DecidableEq, Repr

/-- Whether a register array holds the address. -/
def RegDef.has (r : RegDef) (addr : Nat) : Bool :=
  if addr < r.base then false else
  let d := addr - r.base
  let i := if r.n1 ≤ 1 then 0 else d / r.s1
  let e := if r.n1 ≤ 1 then d else d % r.s1
  let j := if r.n2 ≤ 1 then 0 else e / r.s2
  let f := if r.n2 ≤ 1 then e else e % r.s2
  decide (i < r.n1) && decide (j < r.n2) && decide (f = 0)

def aARRAY_TCTL (i : Nat) : Nat := 0x01000000 + 0x400 * i
def aARRAY_TSTAT (i : Nat) : Nat := 0x01000004 + 0x400 * i
def aARRAY_TEXP (i j : Nat) : Nat := 0x01000010 + 0x400 * i + 0x4 * j
def aARRAY_TEXP_ACT (i j : Nat) : Nat := 0x01000020 + 0x400 * i + 0x4 * j
def aARRAY_TGAIN (i j : Nat) : Nat := 0x01000030 + 0x400 * i + 0x4 * j
def aARRAY_TGAIN_ACT (i j : Nat) : Nat := 0x01000038 + 0x400 * i + 0x4 * j
def aARRAY_TREF (i : Nat) : Nat := 0x01000040 + 0x400 * i
def aARRAY_TBORDER (i : Nat) : Nat := 0x01000044 + 0x400 * i
def aARRAY_TRAMP (i : Nat) : Nat := 0x01000048 + 0x400 * i
def aARRAY_TCLIP (i : Nat) : Nat := 0x0100004C + 0x400 * i
def aARRAY_TECLIPSE (i : Nat) : Nat := 0x01000050 + 0x400 * i
def aARRAY_TFRAME (i : Nat) : Nat := 0x01000054 + 0x400 * i
def aARRAY_TID (i : Nat) : Nat := 0x010003FC + 0x400 * i
def aARRAY_GEOM : Nat := 0x01030000
def aARRAY_GEOM_ACT : Nat := 0x01030004
def aARRAY_EN_ACT (i : Nat) : Nat := 0x01030010 + 0x4 * i
def aARRAY_PMIN : Nat := 0x01030030
def aARRAY_PMIN_STG : Nat := 0x01030034
def aARRAY_PMIN_SRC : Nat := 0x01030038
def aARRAY_SEQ_CTL : Nat := 0x01030100
def aARRAY_SEQ_CTL_ACT : Nat := 0x01030104
def aARRAY_PERIOD : Nat := 0x01030108
def aARRAY_PERIOD_ACT : Nat := 0x0103010C
def aARRAY_OFFS : Nat := 0x01030110
def aARRAY_OFFS_ACT : Nat := 0x01030114
def aARRAY_SLICE (i : Nat) : Nat := 0x01030118 + 0x4 * i
def aARRAY_LFSR : Nat := 0x01030120
def aARRAY_SEQ_STAT : Nat := 0x01030124
def aARRAY_FRAME : Nat := 0x01030128
def aARRAY_COMMIT : Nat := 0x0103012C
def aARRAY_COMMIT_FRAME : Nat := 0x01030130
def aARRAY_STG_STAT : Nat := 0x01030134
def aARRAY_TRIG_CNT : Nat := 0x01030138
def aARRAY_ELIM (i : Nat) : Nat := 0x01030140 + 0x4 * i
def aARRAY_SPAN : Nat := 0x01030150
def aARRAY_GOV_STAT : Nat := 0x01030154
def aARRAY_GOV_SRC : Nat := 0x01030158
def aTENG_TSTAT (i : Nat) : Nat := 0x02000000 + 0x400 * i
def aTENG_TDG (i j : Nat) : Nat := 0x02000010 + 0x400 * i + 0x4 * j
def aTENG_TDG_ACT (i j : Nat) : Nat := 0x02000018 + 0x400 * i + 0x4 * j
def aTENG_TBLK (i : Nat) : Nat := 0x02000020 + 0x400 * i
def aTENG_TDARK (i : Nat) : Nat := 0x02000028 + 0x400 * i
def aTENG_TDCGK (i : Nat) : Nat := 0x0200002C + 0x400 * i
def aTENG_TNMANT (i j : Nat) : Nat := 0x02000030 + 0x400 * i + 0x4 * j
def aTENG_TNSH (i : Nat) : Nat := 0x02000040 + 0x400 * i
def aTENG_TGLVL (i : Nat) : Nat := 0x02000050 + 0x400 * i
def aTENG_TGCLIP (i : Nat) : Nat := 0x02000054 + 0x400 * i
def aTENG_TGNPIX (i : Nat) : Nat := 0x02000058 + 0x400 * i
def aTENG_TDDC_CNT (i : Nat) : Nat := 0x02000060 + 0x400 * i
def aTENG_TSDC (i : Nat) : Nat := 0x02000064 + 0x400 * i
def aTENG_TPEAK (i : Nat) : Nat := 0x02000068 + 0x400 * i
def aTENG_TFRAME (i : Nat) : Nat := 0x0200006C + 0x400 * i
def aTENG_CTL : Nat := 0x02030000
def aTENG_REF : Nat := 0x02030004
def aTENG_PED : Nat := 0x02030008
def aTENG_DCG_KNEE : Nat := 0x0203000C
def aTENG_MRG_KNEE_L : Nat := 0x02030010
def aTENG_MRG_KNEE_D : Nat := 0x02030014
def aTENG_DDC : Nat := 0x02030018
def aTENG_TPAT : Nat := 0x0203001C
def aTENG_WIN : Nat := 0x02030020
def aTENG_SPILL_ROWS : Nat := 0x02030028
def aTENG_SPILL_LOST : Nat := 0x0203002C
def aTENG_WIN_STG : Nat := 0x02030024
def aPIPE_CTL : Nat := 0x03000000
def aPIPE_STAT : Nat := 0x03000004
def aPIPE_LATE : Nat := 0x03000008
def aPIPE_VSTAT (i : Nat) : Nat := 0x03000100 + 0x20 * i
def aPIPE_VFRAME (i : Nat) : Nat := 0x03000104 + 0x20 * i
def aPIPE_VDROP (i : Nat) : Nat := 0x03000108 + 0x20 * i
def aPIPE_VSIZE (i : Nat) : Nat := 0x0300010C + 0x20 * i
def aPIPE_VTMSRC (i : Nat) : Nat := 0x03000110 + 0x20 * i
def aPIPE_VPARAM (i : Nat) : Nat := 0x03000114 + 0x20 * i
def aAUX_CTL (i : Nat) : Nat := 0x04000000 + 0x10000 * i
def aAUX_LANE (i : Nat) : Nat := 0x04000004 + 0x10000 * i
def aAUX_PAD (i : Nat) : Nat := 0x04000008 + 0x10000 * i
def aAUX_BLK (i : Nat) : Nat := 0x0400000C + 0x10000 * i
def aAUX_DDC (i : Nat) : Nat := 0x04000010 + 0x10000 * i
def aAUX_STAT (i : Nat) : Nat := 0x04000020 + 0x10000 * i
def aAUX_ERR (i : Nat) : Nat := 0x04000024 + 0x10000 * i
def aAUX_LBUF (i : Nat) : Nat := 0x04000028 + 0x10000 * i
def aAUX_VC_CFG (i j : Nat) : Nat := 0x04000100 + 0x10000 * i + 0x20 * j
def aAUX_VC_GEOM (i j : Nat) : Nat := 0x04000104 + 0x10000 * i + 0x20 * j
def aAUX_VC_TIME (i j : Nat) : Nat := 0x04000108 + 0x10000 * i + 0x20 * j
def aAUX_VC_FRAME (i j : Nat) : Nat := 0x0400010C + 0x10000 * i + 0x20 * j
def aAUX_VC_LAST (i j : Nat) : Nat := 0x04000110 + 0x10000 * i + 0x20 * j
def aAUX_VC_MEAS (i j : Nat) : Nat := 0x04000114 + 0x10000 * i + 0x20 * j
def aAUX_VC_LCNT (i j : Nat) : Nat := 0x04000118 + 0x10000 * i + 0x20 * j
def aAUX_VC_FCNT (i j : Nat) : Nat := 0x0400011C + 0x10000 * i + 0x20 * j
def aMEMC_CTL : Nat := 0x05000000
def aMEMC_STAT : Nat := 0x05000004
def aMEMC_BIN : Nat := 0x05000008
def aMEMC_ARB : Nat := 0x0500000C
def aMEMC_PD : Nat := 0x05000010
def aMEMC_RH : Nat := 0x05000014
def aMEMC_RH_CNT : Nat := 0x05000018
def aMEMC_TRN : Nat := 0x0500001C
def aMEMC_ECC_CE : Nat := 0x05000020
def aMEMC_ECC_UE : Nat := 0x05000024
def aMEMC_ERR_ADDR : Nat := 0x05000028
def aMEMC_ERR_INFO : Nat := 0x0500002C
def aMEMC_QSEL : Nat := 0x05000060
def aMEMC_QDATA0 : Nat := 0x05000064
def aMEMC_QDATA1 : Nat := 0x05000068
def aMEMC_TOK (i : Nat) : Nat := 0x05000040 + 0x4 * i
def aMEMC_DLY_SEL : Nat := 0x05001000
def aMEMC_DLY_DQ (i j : Nat) : Nat := 0x05001100 + 0x100 * i + 0x4 * j
def aMEMC_DLY_CA (i : Nat) : Nat := 0x05001140 + 0x100 * i
def aLINK_CTL (i : Nat) : Nat := 0x0600F000 + 0x10000 * i
def aLINK_STAT (i : Nat) : Nat := 0x0600F004 + 0x10000 * i
def aLINK_MAP (i : Nat) : Nat := 0x0600F008 + 0x10000 * i
def aLINK_TRAIN (i : Nat) : Nat := 0x0600F00C + 0x10000 * i
def aLINK_CNT (i : Nat) : Nat := 0x0600F010 + 0x10000 * i
def aLINK_TEST (i : Nat) : Nat := 0x0600F014 + 0x10000 * i
def aLINK_UPERR (i : Nat) : Nat := 0x0600F018 + 0x10000 * i
def aLINK_FEC_CORR (i : Nat) : Nat := 0x0600F020 + 0x10000 * i
def aLINK_FEC_SYM (i : Nat) : Nat := 0x0600F024 + 0x10000 * i
def aLINK_FEC_UNC (i : Nat) : Nat := 0x0600F028 + 0x10000 * i
def aLINK_PKT_ERR (i : Nat) : Nat := 0x0600F02C + 0x10000 * i
def aLINK_REL (i : Nat) : Nat := 0x0600F030 + 0x10000 * i
def aLINK_REL_CFG (i : Nat) : Nat := 0x0600F034 + 0x10000 * i
def aLINK_HOLD (i : Nat) : Nat := 0x0600F038 + 0x10000 * i
def aLINK_TRIG (i : Nat) : Nat := 0x0600F03C + 0x10000 * i
def aLINK_TOFF_LO (i : Nat) : Nat := 0x0600F040 + 0x10000 * i
def aLINK_TOFF_HI (i : Nat) : Nat := 0x0600F044 + 0x10000 * i
def aLINK_TRTT (i : Nat) : Nat := 0x0600F048 + 0x10000 * i
def aLINK_WOFF (i : Nat) : Nat := 0x0600F04C + 0x10000 * i
def aLINK_DUP (i : Nat) : Nat := 0x0600F090 + 0x10000 * i
def aLINK_VS (i j : Nat) : Nat := 0x0600F050 + 0x10000 * i + 0x4 * j
def aLINK_FFE (i j : Nat) : Nat := 0x06000000 + 0x10000 * i + 0x1000 * j
def aLINK_INJ (i j : Nat) : Nat := 0x06000004 + 0x10000 * i + 0x1000 * j
def aLINK_RX (i : Nat) : Nat := 0x06005000 + 0x10000 * i
def aLINK_DFE0 (i : Nat) : Nat := 0x06005004 + 0x10000 * i
def aLINK_DFE1 (i : Nat) : Nat := 0x06005008 + 0x10000 * i
def aLINK_FREQ (i : Nat) : Nat := 0x06006000 + 0x10000 * i
def aSYS_STATUS : Nat := 0x00000000
def aSYS_MBX (i : Nat) : Nat := 0x00000010 + 0x4 * i
def aSYS_MBX_ERR : Nat := 0x00000020
def aSYS_LEASE (i : Nat) : Nat := 0x00000030 + 0x4 * i
def aSYS_DEADLINE : Nat := 0x00000040
def aSYS_SB : Nat := 0x00000044
def aPCLK_STAT : Nat := 0x07000000
def aPCLK_REF : Nat := 0x07000004
def aPCLK_RST_CAUSE : Nat := 0x07000008
def aPCLK_RST_CNT : Nat := 0x0700000C
def aPCLK_STRAP : Nat := 0x07000010
def aPCLK_BOOT : Nat := 0x07000014
def aPCLK_WDT : Nat := 0x07000018
def aPCLK_GATE : Nat := 0x0700001C
def aPCLK_SRAM : Nat := 0x07000020
def aPCLK_PLL_STAT (i : Nat) : Nat := 0x07000100 + 0x20 * i
def aPCLK_PLL_TGT (i : Nat) : Nat := 0x07000104 + 0x20 * i
def aPCLK_PLL_LOCK (i : Nat) : Nat := 0x07000108 + 0x20 * i
def aPCLK_PLL_LOCKT (i : Nat) : Nat := 0x0700010C + 0x20 * i
def aPLL_BAND_SEL : Nat := 0x07000200
def aPLL_BAND_TBL : Nat := 0x07000204
def aTHERM_THR0 : Nat := 0x08000000
def aTHERM_THR1 : Nat := 0x08000004
def aTHERM_STAT : Nat := 0x08000008
def aTHERM_MAX : Nat := 0x0800000C
def aTHERM_GRACE : Nat := 0x08000010
def aTHERM_LOG : Nat := 0x08000014
def aTHERM_EVT : Nat := 0x08000018
def aTHERM_TS (i : Nat) : Nat := 0x08000100 + 0x4 * i
def aTHERM_PEAK (i : Nat) : Nat := 0x08000140 + 0x4 * i
def aTHERM_BAND (i : Nat) : Nat := 0x08000180 + 0x4 * i
def aTMR_CTL (i : Nat) : Nat := 0x09000000 + 0x100 * i
def aTMR_PRE (i : Nat) : Nat := 0x09000004 + 0x100 * i
def aTMR_PER_LO (i : Nat) : Nat := 0x09000008 + 0x100 * i
def aTMR_PER_HI (i : Nat) : Nat := 0x0900000C + 0x100 * i
def aTMR_M0_LO (i : Nat) : Nat := 0x09000010 + 0x100 * i
def aTMR_M0_HI (i : Nat) : Nat := 0x09000014 + 0x100 * i
def aTMR_M1_LO (i : Nat) : Nat := 0x09000018 + 0x100 * i
def aTMR_M1_HI (i : Nat) : Nat := 0x0900001C + 0x100 * i
def aTMR_ACT (i : Nat) : Nat := 0x09000020 + 0x100 * i
def aTMR_CAPCFG (i : Nat) : Nat := 0x09000024 + 0x100 * i
def aTMR_STAT (i : Nat) : Nat := 0x09000028 + 0x100 * i
def aTMR_COUNT_LO (i : Nat) : Nat := 0x0900002C + 0x100 * i
def aTMR_COUNT_HI (i : Nat) : Nat := 0x09000030 + 0x100 * i
def aTMR_CAP_LO (i : Nat) : Nat := 0x09000034 + 0x100 * i
def aTMR_CAP_HI (i : Nat) : Nat := 0x09000038 + 0x100 * i
def aPIO_IMEM (i j : Nat) : Nat := 0x0A000000 + 0x1000 * i + 0x4 * j
def aPIO_CTL (i : Nat) : Nat := 0x0A000800 + 0x1000 * i
def aPIO_DIV (i : Nat) : Nat := 0x0A000804 + 0x1000 * i
def aPIO_QCFG (i : Nat) : Nat := 0x0A000808 + 0x1000 * i
def aPIO_SER (i : Nat) : Nat := 0x0A00080C + 0x1000 * i
def aPIO_TMO (i : Nat) : Nat := 0x0A000810 + 0x1000 * i
def aPIO_PKT (i : Nat) : Nat := 0x0A000814 + 0x1000 * i
def aPIO_Q (i : Nat) : Nat := 0x0A000818 + 0x1000 * i
def aPIO_CNT (i : Nat) : Nat := 0x0A00081C + 0x1000 * i
def aPIO_W0 (i : Nat) : Nat := 0x0A000820 + 0x1000 * i
def aPIO_W1 (i : Nat) : Nat := 0x0A000824 + 0x1000 * i
def aPIO_TXR (i : Nat) : Nat := 0x0A000828 + 0x1000 * i
def aPIO_RXR (i : Nat) : Nat := 0x0A00082C + 0x1000 * i
def aPIO_PINCFG (i : Nat) : Nat := 0x0A008000 + 0x4 * i
def aPIO_PINARG (i : Nat) : Nat := 0x0A008040 + 0x4 * i
def aPIO_IN (i : Nat) : Nat := 0x0A008080 + 0x4 * i
def aPIO_OVR (i : Nat) : Nat := 0x0A008088 + 0x4 * i
def aOTPC_STAT : Nat := 0x0B000000
def aOTPC_READCNT : Nat := 0x0B000004
def aOTPC_LIMITS : Nat := 0x0B000008
def aOTPC_ALARM : Nat := 0x0B00000C
def aOTPC_ALARM_LATCH : Nat := 0x0B000010
def aOTPC_PROG : Nat := 0x0B000014
def aOTPC_REG (i : Nat) : Nat := 0x0B000100 + 0x4 * i
def aHOLD_CTL : Nat := 0x0C000000
def aHOLD_CFG : Nat := 0x0C000004
def aHOLD_ILIM : Nat := 0x0C000008
def aHOLD_NTC : Nat := 0x0C00000C
def aHOLD_STAT : Nat := 0x0C000010
def aHOLD_VOLT : Nat := 0x0C000014
def aHOLD_CUR : Nat := 0x0C000018
def aHOLD_HEALTH : Nat := 0x0C00001C
def aHOLD_Q : Nat := 0x0C000020
def aHOLD_BUOY : Nat := 0x0C000024
def aHOLD_SRC_R : Nat := 0x0C000028
def aHOLD_DUSK : Nat := 0x0C00002C
def aDIAG_STAT : Nat := 0x0D000000
def aDIAG_MOSAIC_DROP : Nat := 0x0D000004
def aDIAG_LINE_CRC : Nat := 0x0D000008
def aDIAG_BIST : Nat := 0x0D00000C
def aDIAG_BIST_FAIL : Nat := 0x0D000010
def aDIAG_BIST_FIRST : Nat := 0x0D000014
def aDIAG_MEMF : Nat := 0x0D000040
def aDIAG_MEM_KEEP : Nat := 0x0D000044
def aDIAG_MEM_KEEP_INFO : Nat := 0x0D000048
def aDIAG_CONV_FAIL (i : Nat) : Nat := 0x0D000020 + 0x4 * i
def aDIAG_MEMQ (i : Nat) : Nat := 0x0D010000 + 0x4 * i
def aPIPE_LSC_A (i j : Nat) : Nat := 0x03010000 + 0x2000 * i + 0x4 * j
def aPIPE_LSC_X0 (i j : Nat) : Nat := 0x03020000 + 0x1000 * i + 0x4 * j
def aPIPE_LSC_X1 (i j : Nat) : Nat := 0x03020800 + 0x1000 * i + 0x4 * j

/-- Registers of the SYS block, part 0. -/
def regs_sys_0 : List RegDef := [
  ⟨"SYS_STATUS", 0x00000000, 0x0, 1, 0x0, 1,
    [⟨11, 11, .ro, 0⟩, ⟨10, 8, .ro, 0⟩, ⟨7, 7, .ro, 0⟩, ⟨6, 6, .ro, 0⟩, ⟨5, 5, .ro, 0⟩, ⟨4, 4, .ro, 0⟩, ⟨3, 3, .ro, 0⟩, ⟨2, 0, .ro, 1⟩]⟩,
  ⟨"SYS_MBX", 0x00000010, 0x4, 4, 0x0, 1,
    [⟨31, 16, .ro, 0x20⟩, ⟨13, 8, .ro, 0x20⟩, ⟨5, 0, .ro, 0x20⟩]⟩,
  ⟨"SYS_MBX_ERR", 0x00000020, 0x0, 1, 0x0, 1,
    [⟨31, 24, .rc, 0⟩, ⟨23, 16, .rc, 0⟩, ⟨15, 8, .rc, 0⟩, ⟨7, 0, .rc, 0⟩]⟩,
  ⟨"SYS_LEASE", 0x00000030, 0x4, 4, 0x0, 1,
    [⟨31, 30, .ro, 0⟩, ⟨29, 0, .ro, 0⟩]⟩,
  ⟨"SYS_DEADLINE", 0x00000040, 0x0, 1, 0x0, 1,
    [⟨31, 16, .rc, 0⟩, ⟨15, 0, .rc, 0⟩]⟩,
  ⟨"SYS_SB", 0x00000044, 0x0, 1, 0x0, 1,
    [⟨16, 16, .ro, 0⟩, ⟨15, 8, .ro, 0⟩, ⟨7, 7, .ro, 0⟩, ⟨6, 0, .ro, 0⟩]⟩]

/-- The registers of the SYS block. -/
def regs_sys : List RegDef := regs_sys_0

/-- Registers of the ARRAY block, part 0. -/
def regs_array_0 : List RegDef := [
  ⟨"ARRAY_TCTL", 0x01000000, 0x400, 192, 0x0, 1,
    [⟨0, 0, .rwl, 1⟩]⟩,
  ⟨"ARRAY_TSTAT", 0x01000004, 0x400, 192, 0x0, 1,
    [⟨7, 7, .ro, 0⟩, ⟨3, 3, .ro, 0⟩, ⟨2, 2, .ro, 0⟩, ⟨1, 1, .ro, 0⟩, ⟨0, 0, .ro, 1⟩]⟩,
  ⟨"ARRAY_TEXP", 0x01000010, 0x400, 192, 0x4, 4,
    [⟨23, 0, .rwl, 0x2710⟩]⟩,
  ⟨"ARRAY_TEXP_ACT", 0x01000020, 0x400, 192, 0x4, 4,
    [⟨23, 0, .ro, 0x2710⟩]⟩,
  ⟨"ARRAY_TGAIN", 0x01000030, 0x400, 192, 0x4, 2,
    [⟨24, 16, .rwl, 0x10⟩, ⟨8, 0, .rwl, 0x10⟩]⟩,
  ⟨"ARRAY_TGAIN_ACT", 0x01000038, 0x400, 192, 0x4, 2,
    [⟨24, 16, .ro, 0x10⟩, ⟨8, 0, .ro, 0x10⟩]⟩,
  ⟨"ARRAY_TREF", 0x01000040, 0x400, 192, 0x0, 1,
    [⟨31, 16, .ro, 0⟩, ⟨15, 0, .ro, 0⟩]⟩,
  ⟨"ARRAY_TBORDER", 0x01000044, 0x400, 192, 0x0, 1,
    [⟨31, 31, .ro, 0⟩, ⟨27, 16, .ro, 0⟩, ⟨15, 0, .ro, 0⟩]⟩,
  ⟨"ARRAY_TRAMP", 0x01000048, 0x400, 192, 0x0, 1,
    [⟨15, 0, .ro, 0⟩]⟩,
  ⟨"ARRAY_TCLIP", 0x0100004C, 0x400, 192, 0x0, 1,
    [⟨21, 0, .ro, 0⟩]⟩,
  ⟨"ARRAY_TECLIPSE", 0x01000050, 0x400, 192, 0x0, 1,
    [⟨21, 0, .ro, 0⟩]⟩,
  ⟨"ARRAY_TFRAME", 0x01000054, 0x400, 192, 0x0, 1,
    [⟨31, 0, .ro, 0⟩]⟩,
  ⟨"ARRAY_TID", 0x010003FC, 0x400, 192, 0x0, 1,
    [⟨19, 19, .ro, 0⟩, ⟨18, 18, .ro, 0⟩, ⟨17, 17, .ro, 0⟩, ⟨16, 16, .ro, 0⟩, ⟨15, 12, .ro, 0⟩, ⟨11, 8, .ro, 0⟩, ⟨7, 0, .ro, 0⟩]⟩,
  ⟨"ARRAY_GEOM", 0x01030000, 0x0, 1, 0x0, 1,
    [⟨29, 29, .rwl, 0⟩, ⟨28, 28, .rwl, 0⟩, ⟨25, 16, .rwl, 0x200⟩, ⟨8, 0, .rwl, 0⟩]⟩,
  ⟨"ARRAY_GEOM_ACT", 0x01030004, 0x0, 1, 0x0, 1,
    [⟨29, 29, .ro, 0⟩, ⟨28, 28, .ro, 0⟩, ⟨25, 16, .ro, 0x200⟩, ⟨8, 0, .ro, 0⟩]⟩,
  ⟨"ARRAY_EN_ACT", 0x01030010, 0x4, 6, 0x0, 1,
    [⟨31, 0, .ro, 0⟩]⟩,
  ⟨"ARRAY_PMIN", 0x01030030, 0x0, 1, 0x0, 1,
    [⟨31, 0, .ro, 0⟩]⟩,
  ⟨"ARRAY_PMIN_STG", 0x01030034, 0x0, 1, 0x0, 1,
    [⟨31, 0, .ro, 0⟩]⟩,
  ⟨"ARRAY_PMIN_SRC", 0x01030038, 0x0, 1, 0x0, 1,
    [⟨5, 4, .ro, 0⟩, ⟨1, 0, .ro, 0⟩]⟩,
  ⟨"ARRAY_SEQ_CTL", 0x01030100, 0x0, 1, 0x0, 1,
    [⟨16, 16, .rwl, 0⟩, ⟨14, 11, .rwl, 0⟩, ⟨10, 8, .rwl, 0⟩, ⟨7, 4, .rwl, 0⟩, ⟨2, 0, .rwl, 1⟩]⟩]

/-- Registers of the ARRAY block, part 1. -/
def regs_array_1 : List RegDef := [
  ⟨"ARRAY_SEQ_CTL_ACT", 0x01030104, 0x0, 1, 0x0, 1,
    [⟨16, 16, .ro, 0⟩, ⟨14, 11, .ro, 0⟩, ⟨10, 8, .ro, 0⟩, ⟨7, 4, .ro, 0⟩, ⟨2, 0, .ro, 1⟩]⟩,
  ⟨"ARRAY_PERIOD", 0x01030108, 0x0, 1, 0x0, 1,
    [⟨27, 0, .rwl, 0x51615⟩]⟩,
  ⟨"ARRAY_PERIOD_ACT", 0x0103010C, 0x0, 1, 0x0, 1,
    [⟨27, 0, .ro, 0x51615⟩]⟩,
  ⟨"ARRAY_OFFS", 0x01030110, 0x0, 1, 0x0, 1,
    [⟨29, 20, .rwl, 0⟩, ⟨19, 10, .rwl, 0⟩, ⟨9, 0, .rwl, 0⟩]⟩,
  ⟨"ARRAY_OFFS_ACT", 0x01030114, 0x0, 1, 0x0, 1,
    [⟨29, 20, .ro, 0⟩, ⟨19, 10, .ro, 0⟩, ⟨9, 0, .ro, 0⟩]⟩,
  ⟨"ARRAY_SLICE", 0x01030118, 0x4, 2, 0x0, 1,
    [⟨27, 24, .rwl, 1⟩, ⟨17, 0, .rwl, 0⟩]⟩,
  ⟨"ARRAY_LFSR", 0x01030120, 0x0, 1, 0x0, 1,
    [⟨31, 16, .ro, 0xACE1⟩, ⟨15, 0, .rwl, 0xACE1⟩]⟩,
  ⟨"ARRAY_SEQ_STAT", 0x01030124, 0x0, 1, 0x0, 1,
    [⟨7, 7, .ro, 0⟩, ⟨6, 6, .ro, 0⟩, ⟨5, 5, .ro, 0⟩, ⟨4, 4, .ro, 0⟩, ⟨3, 3, .ro, 0⟩]⟩,
  ⟨"ARRAY_FRAME", 0x01030128, 0x0, 1, 0x0, 1,
    [⟨31, 0, .ro, 0⟩]⟩,
  ⟨"ARRAY_COMMIT", 0x0103012C, 0x0, 1, 0x0, 1,
    [⟨31, 16, .ro, 0⟩, ⟨15, 0, .ro, 0⟩]⟩,
  ⟨"ARRAY_COMMIT_FRAME", 0x01030130, 0x0, 1, 0x0, 1,
    [⟨31, 0, .ro, 0⟩]⟩,
  ⟨"ARRAY_STG_STAT", 0x01030134, 0x0, 1, 0x0, 1,
    [⟨8, 8, .ro, 0⟩, ⟨4, 4, .ro, 1⟩, ⟨3, 0, .ro, 0⟩]⟩,
  ⟨"ARRAY_TRIG_CNT", 0x01030138, 0x0, 1, 0x0, 1,
    [⟨31, 16, .rc, 0⟩, ⟨15, 0, .rc, 0⟩]⟩,
  ⟨"ARRAY_ELIM", 0x01030140, 0x4, 4, 0x0, 1,
    [⟨23, 0, .ro, 0⟩]⟩,
  ⟨"ARRAY_SPAN", 0x01030150, 0x0, 1, 0x0, 1,
    [⟨31, 0, .ro, 0⟩]⟩,
  ⟨"ARRAY_GOV_STAT", 0x01030154, 0x0, 1, 0x0, 1,
    [⟨8, 8, .ro, 0⟩, ⟨4, 0, .ro, 0⟩]⟩,
  ⟨"ARRAY_GOV_SRC", 0x01030158, 0x0, 1, 0x0, 1,
    [⟨31, 0, .ro, 0⟩]⟩]

/-- The registers of the ARRAY block. -/
def regs_array : List RegDef := regs_array_0 ++ regs_array_1

/-- Registers of the TENG block, part 0. -/
def regs_teng_0 : List RegDef := [
  ⟨"TENG_TSTAT", 0x02000000, 0x400, 192, 0x0, 1,
    [⟨3, 3, .ro, 0⟩, ⟨2, 2, .ro, 0⟩, ⟨1, 1, .ro, 0⟩, ⟨0, 0, .ro, 0⟩]⟩,
  ⟨"TENG_TDG", 0x02000010, 0x400, 192, 0x4, 2,
    [⟨29, 16, .rwl, 0x400⟩, ⟨13, 0, .rwl, 0x400⟩]⟩,
  ⟨"TENG_TDG_ACT", 0x02000018, 0x400, 192, 0x4, 2,
    [⟨29, 16, .ro, 0x400⟩, ⟨13, 0, .ro, 0x400⟩]⟩,
  ⟨"TENG_TBLK", 0x02000020, 0x400, 192, 0x0, 1,
    [⟨31, 16, .ro, 0⟩, ⟨15, 0, .ro, 0⟩]⟩,
  ⟨"TENG_TDARK", 0x02000028, 0x400, 192, 0x0, 1,
    [⟨15, 0, .ro, 0⟩]⟩,
  ⟨"TENG_TDCGK", 0x0200002C, 0x400, 192, 0x0, 1,
    [⟨15, 0, .rwl, 0x1400⟩]⟩,
  ⟨"TENG_TNMANT", 0x02000030, 0x400, 192, 0x4, 4,
    [⟨31, 0, .ro, 0⟩]⟩,
  ⟨"TENG_TNSH", 0x02000040, 0x400, 192, 0x0, 1,
    [⟨29, 24, .ro, 0⟩, ⟨21, 16, .ro, 0⟩, ⟨13, 8, .ro, 0⟩, ⟨5, 0, .ro, 0⟩]⟩,
  ⟨"TENG_TGLVL", 0x02000050, 0x400, 192, 0x0, 1,
    [⟨15, 0, .ro, 0⟩]⟩,
  ⟨"TENG_TGCLIP", 0x02000054, 0x400, 192, 0x0, 1,
    [⟨17, 0, .ro, 0⟩]⟩,
  ⟨"TENG_TGNPIX", 0x02000058, 0x400, 192, 0x0, 1,
    [⟨17, 0, .ro, 0⟩]⟩,
  ⟨"TENG_TDDC_CNT", 0x02000060, 0x400, 192, 0x0, 1,
    [⟨31, 16, .rc, 0⟩, ⟨15, 0, .rc, 0⟩]⟩,
  ⟨"TENG_TSDC", 0x02000064, 0x400, 192, 0x0, 1,
    [⟨6, 0, .ro, 0⟩]⟩,
  ⟨"TENG_TPEAK", 0x02000068, 0x400, 192, 0x0, 1,
    [⟨7, 0, .rc, 0⟩]⟩,
  ⟨"TENG_TFRAME", 0x0200006C, 0x400, 192, 0x0, 1,
    [⟨31, 0, .ro, 0⟩]⟩,
  ⟨"TENG_CTL", 0x02030000, 0x0, 1, 0x0, 1,
    [⟨11, 8, .rwl, 4⟩, ⟨6, 4, .rwl, 2⟩, ⟨1, 1, .rwl, 1⟩, ⟨0, 0, .rwl, 1⟩]⟩,
  ⟨"TENG_REF", 0x02030004, 0x0, 1, 0x0, 1,
    [⟨23, 0, .rwl, 0x2710⟩]⟩,
  ⟨"TENG_PED", 0x02030008, 0x0, 1, 0x0, 1,
    [⟨11, 0, .rwl, 0x40⟩]⟩,
  ⟨"TENG_DCG_KNEE", 0x0203000C, 0x0, 1, 0x0, 1,
    [⟨27, 16, .rwl, 0xA00⟩, ⟨3, 0, .rwl, 0xA⟩]⟩,
  ⟨"TENG_MRG_KNEE_L", 0x02030010, 0x0, 1, 0x0, 1,
    [⟨24, 8, .rwl, 0xC00⟩, ⟨4, 0, .rwl, 9⟩]⟩]

/-- Registers of the TENG block, part 1. -/
def regs_teng_1 : List RegDef := [
  ⟨"TENG_MRG_KNEE_D", 0x02030014, 0x0, 1, 0x0, 1,
    [⟨24, 8, .rwl, 0xE000⟩, ⟨4, 0, .rwl, 0xD⟩]⟩,
  ⟨"TENG_DDC", 0x02030018, 0x0, 1, 0x0, 1,
    [⟨27, 16, .rwl, 0x40⟩, ⟨7, 0, .rwl, 0x40⟩]⟩,
  ⟨"TENG_TPAT", 0x0203001C, 0x0, 1, 0x0, 1,
    [⟨10, 8, .ro, 0⟩, ⟨2, 0, .rwl, 0⟩]⟩,
  ⟨"TENG_WIN", 0x02030020, 0x0, 1, 0x0, 1,
    [⟨31, 24, .ro, 0⟩, ⟨23, 16, .ro, 0⟩, ⟨11, 0, .ro, 0⟩]⟩,
  ⟨"TENG_SPILL_ROWS", 0x02030028, 0x0, 1, 0x0, 1,
    [⟨31, 0, .ro, 0⟩]⟩,
  ⟨"TENG_SPILL_LOST", 0x0203002C, 0x0, 1, 0x0, 1,
    [⟨31, 0, .rc, 0⟩]⟩,
  ⟨"TENG_WIN_STG", 0x02030024, 0x0, 1, 0x0, 1,
    [⟨31, 24, .ro, 0⟩, ⟨23, 16, .ro, 0⟩, ⟨11, 0, .ro, 0⟩]⟩]

/-- The registers of the TENG block. -/
def regs_teng : List RegDef := regs_teng_0 ++ regs_teng_1

/-- Registers of the PIPE block, part 0. -/
def regs_pipe_0 : List RegDef := [
  ⟨"PIPE_CTL", 0x03000000, 0x0, 1, 0x0, 1,
    [⟨4, 1, .rwl, 0⟩, ⟨0, 0, .rwl, 0⟩]⟩,
  ⟨"PIPE_STAT", 0x03000004, 0x0, 1, 0x0, 1,
    [⟨31, 24, .ro, 0⟩, ⟨21, 8, .ro, 0x3000⟩, ⟨5, 0, .ro, 0x20⟩]⟩,
  ⟨"PIPE_LATE", 0x03000008, 0x0, 1, 0x0, 1,
    [⟨31, 0, .rc, 0⟩]⟩,
  ⟨"PIPE_VSTAT", 0x03000100, 0x20, 16, 0x0, 1,
    [⟨31, 24, .ro, 0⟩, ⟨9, 8, .ro, 0⟩, ⟨6, 6, .ro, 0⟩, ⟨5, 4, .ro, 0⟩, ⟨2, 0, .ro, 0⟩]⟩,
  ⟨"PIPE_VFRAME", 0x03000104, 0x20, 16, 0x0, 1,
    [⟨31, 0, .ro, 0⟩]⟩,
  ⟨"PIPE_VDROP", 0x03000108, 0x20, 16, 0x0, 1,
    [⟨31, 16, .rc, 0⟩, ⟨15, 0, .rc, 0⟩]⟩,
  ⟨"PIPE_VSIZE", 0x0300010C, 0x20, 16, 0x0, 1,
    [⟨31, 16, .ro, 0⟩, ⟨15, 0, .ro, 0⟩]⟩,
  ⟨"PIPE_VTMSRC", 0x03000110, 0x20, 16, 0x0, 1,
    [⟨31, 0, .ro, 0⟩]⟩,
  ⟨"PIPE_VPARAM", 0x03000114, 0x20, 16, 0x0, 1,
    [⟨15, 0, .ro, 0⟩]⟩,
  ⟨"PIPE_LSC_A", 0x03010000, 0x2000, 2, 0x4, 1650,
    [⟨31, 16, .rwl, 0x1000⟩, ⟨15, 0, .rwl, 0x1000⟩]⟩,
  ⟨"PIPE_LSC_X0", 0x03020000, 0x1000, 4, 0x4, 442,
    [⟨31, 16, .rwl, 0x1000⟩, ⟨15, 0, .rwl, 0x1000⟩]⟩,
  ⟨"PIPE_LSC_X1", 0x03020800, 0x1000, 4, 0x4, 442,
    [⟨31, 16, .rwl, 0x1000⟩, ⟨15, 0, .rwl, 0x1000⟩]⟩]

/-- The registers of the PIPE block. -/
def regs_pipe : List RegDef := regs_pipe_0

/-- Registers of the AUX block, part 0. -/
def regs_aux_0 : List RegDef := [
  ⟨"AUX_CTL", 0x04000000, 0x10000, 4, 0x0, 1,
    [⟨28, 16, .rwl, 0x5DC⟩, ⟨7, 6, .rwl, 0⟩, ⟨5, 5, .rwl, 1⟩, ⟨4, 4, .rwl, 0⟩, ⟨2, 1, .rwl, 0⟩, ⟨0, 0, .rwl, 0⟩]⟩,
  ⟨"AUX_LANE", 0x04000004, 0x10000, 4, 0x0, 1,
    [⟨12, 12, .rwl, 0⟩, ⟨11, 8, .rwl, 0⟩, ⟨7, 0, .rwl, 0xE4⟩]⟩,
  ⟨"AUX_PAD", 0x04000008, 0x10000, 4, 0x0, 1,
    [⟨15, 0, .rwl, 0⟩]⟩,
  ⟨"AUX_BLK", 0x0400000C, 0x10000, 4, 0x0, 1,
    [⟨31, 16, .rwl, 0x1000⟩, ⟨15, 0, .rwl, 0⟩]⟩,
  ⟨"AUX_DDC", 0x04000010, 0x10000, 4, 0x0, 1,
    [⟨23, 16, .rwl, 0x40⟩, ⟨15, 0, .rwl, 0x400⟩]⟩,
  ⟨"AUX_STAT", 0x04000020, 0x10000, 4, 0x0, 1,
    [⟨11, 8, .ro, 0⟩, ⟨7, 4, .ro, 0⟩, ⟨2, 0, .ro, 0⟩]⟩,
  ⟨"AUX_ERR", 0x04000024, 0x10000, 4, 0x0, 1,
    [⟨31, 24, .rc, 0⟩, ⟨23, 16, .rc, 0⟩, ⟨15, 8, .rc, 0⟩, ⟨7, 0, .rc, 0⟩]⟩,
  ⟨"AUX_LBUF", 0x04000028, 0x10000, 4, 0x0, 1,
    [⟨15, 0, .rc, 0⟩]⟩,
  ⟨"AUX_VC_CFG", 0x04000100, 0x10000, 4, 0x20, 4,
    [⟨9, 8, .rwl, 0⟩, ⟨7, 0, .rwl, 0⟩]⟩,
  ⟨"AUX_VC_GEOM", 0x04000104, 0x10000, 4, 0x20, 4,
    [⟨31, 16, .rwl, 0⟩, ⟨15, 0, .rwl, 0⟩]⟩,
  ⟨"AUX_VC_TIME", 0x04000108, 0x10000, 4, 0x20, 4,
    [⟨31, 16, .rwl, 0x3E8⟩, ⟨15, 0, .rwl, 0xD05⟩]⟩,
  ⟨"AUX_VC_FRAME", 0x0400010C, 0x10000, 4, 0x20, 4,
    [⟨31, 0, .ro, 0⟩]⟩,
  ⟨"AUX_VC_LAST", 0x04000110, 0x10000, 4, 0x20, 4,
    [⟨31, 16, .ro, 0⟩, ⟨15, 8, .ro, 0⟩]⟩,
  ⟨"AUX_VC_MEAS", 0x04000114, 0x10000, 4, 0x20, 4,
    [⟨15, 0, .ro, 0⟩]⟩,
  ⟨"AUX_VC_LCNT", 0x04000118, 0x10000, 4, 0x20, 4,
    [⟨31, 16, .rc, 0⟩, ⟨15, 0, .rc, 0⟩]⟩,
  ⟨"AUX_VC_FCNT", 0x0400011C, 0x10000, 4, 0x20, 4,
    [⟨31, 24, .rc, 0⟩, ⟨23, 16, .rc, 0⟩, ⟨15, 8, .rc, 0⟩, ⟨7, 0, .rc, 0⟩]⟩]

/-- The registers of the AUX block. -/
def regs_aux : List RegDef := regs_aux_0

/-- Registers of the MEMC block, part 0. -/
def regs_memc_0 : List RegDef := [
  ⟨"MEMC_CTL", 0x05000000, 0x0, 1, 0x0, 1,
    [⟨7, 6, .rw, 0⟩, ⟨5, 4, .ro, 2⟩, ⟨1, 1, .rw, 1⟩, ⟨0, 0, .rw, 1⟩]⟩,
  ⟨"MEMC_STAT", 0x05000004, 0x0, 1, 0x0, 1,
    [⟨18, 16, .ro, 0⟩, ⟨13, 12, .ro, 2⟩, ⟨11, 10, .ro, 0⟩, ⟨9, 9, .ro, 0⟩, ⟨8, 8, .ro, 0⟩, ⟨5, 4, .ro, 2⟩, ⟨3, 0, .ro, 0⟩]⟩,
  ⟨"MEMC_BIN", 0x05000008, 0x0, 1, 0x0, 1,
    [⟨1, 0, .rwl, 2⟩]⟩,
  ⟨"MEMC_ARB", 0x0500000C, 0x0, 1, 0x0, 1,
    [⟨31, 24, .rw, 4⟩, ⟨23, 16, .rw, 0x10⟩, ⟨11, 0, .rw, 0x190⟩]⟩,
  ⟨"MEMC_PD", 0x05000010, 0x0, 1, 0x0, 1,
    [⟨15, 0, .rw, 0x100⟩]⟩,
  ⟨"MEMC_RH", 0x05000014, 0x0, 1, 0x0, 1,
    [⟨12, 0, .rwl, 0x7D0⟩]⟩,
  ⟨"MEMC_RH_CNT", 0x05000018, 0x0, 1, 0x0, 1,
    [⟨31, 16, .rc, 0⟩, ⟨15, 0, .rc, 0⟩]⟩,
  ⟨"MEMC_TRN", 0x0500001C, 0x0, 1, 0x0, 1,
    [⟨23, 16, .ro, 0⟩, ⟨7, 0, .rw, 0x19⟩]⟩,
  ⟨"MEMC_ECC_CE", 0x05000020, 0x0, 1, 0x0, 1,
    [⟨31, 0, .rc, 0⟩]⟩,
  ⟨"MEMC_ECC_UE", 0x05000024, 0x0, 1, 0x0, 1,
    [⟨31, 16, .ro, 0⟩, ⟨15, 0, .ro, 0⟩]⟩,
  ⟨"MEMC_ERR_ADDR", 0x05000028, 0x0, 1, 0x0, 1,
    [⟨31, 31, .ro, 0⟩, ⟨30, 30, .ro, 0⟩, ⟨27, 0, .ro, 0⟩]⟩,
  ⟨"MEMC_ERR_INFO", 0x0500002C, 0x0, 1, 0x0, 1,
    [⟨31, 24, .ro, 0⟩, ⟨23, 21, .ro, 0⟩, ⟨20, 13, .ro, 0⟩, ⟨12, 12, .ro, 0⟩, ⟨11, 4, .ro, 0⟩]⟩,
  ⟨"MEMC_QSEL", 0x05000060, 0x0, 1, 0x0, 1,
    [⟨15, 8, .rw, 0⟩, ⟨3, 0, .rw, 0⟩]⟩,
  ⟨"MEMC_QDATA0", 0x05000064, 0x0, 1, 0x0, 1,
    [⟨31, 31, .ro, 0⟩, ⟨30, 30, .ro, 0⟩, ⟨29, 29, .ro, 0⟩, ⟨28, 26, .ro, 0⟩, ⟨25, 18, .ro, 0⟩, ⟨17, 0, .ro, 0⟩]⟩,
  ⟨"MEMC_QDATA1", 0x05000068, 0x0, 1, 0x0, 1,
    [⟨27, 0, .ro, 0⟩]⟩,
  ⟨"MEMC_TOK", 0x05000040, 0x4, 6, 0x0, 1,
    [⟨27, 16, .ro, 0⟩, ⟨11, 0, .ro, 0⟩]⟩,
  ⟨"MEMC_DLY_SEL", 0x05001000, 0x0, 1, 0x0, 1,
    [⟨1, 0, .rw, 2⟩]⟩,
  ⟨"MEMC_DLY_DQ", 0x05001100, 0x100, 8, 0x4, 12,
    [⟨14, 8, .rw, 0⟩, ⟨6, 0, .rw, 0⟩]⟩,
  ⟨"MEMC_DLY_CA", 0x05001140, 0x100, 8, 0x0, 1,
    [⟨14, 8, .rw, 0⟩, ⟨6, 0, .rw, 0⟩]⟩]

/-- The registers of the MEMC block. -/
def regs_memc : List RegDef := regs_memc_0

/-- Registers of the LINK block, part 0. -/
def regs_link_0 : List RegDef := [
  ⟨"LINK_CTL", 0x0600F000, 0x10000, 4, 0x0, 1,
    [⟨12, 12, .rw, 0⟩, ⟨11, 11, .rw, 1⟩, ⟨10, 10, .rw, 1⟩, ⟨8, 8, .rw, 1⟩, ⟨5, 4, .rw, 3⟩, ⟨0, 0, .rw, 0⟩]⟩,
  ⟨"LINK_STAT", 0x0600F004, 0x10000, 4, 0x0, 1,
    [⟨31, 28, .ro, 0⟩, ⟨27, 26, .ro, 0⟩, ⟨25, 25, .ro, 0⟩, ⟨24, 24, .ro, 0⟩, ⟨23, 23, .ro, 0⟩, ⟨22, 22, .ro, 0⟩, ⟨21, 21, .ro, 0⟩, ⟨20, 20, .ro, 0⟩, ⟨19, 18, .ro, 3⟩, ⟨17, 16, .ro, 3⟩, ⟨15, 8, .ro, 0⟩]⟩,
  ⟨"LINK_MAP", 0x0600F008, 0x10000, 4, 0x0, 1,
    [⟨12, 12, .ro, 0⟩, ⟨11, 8, .ro, 0⟩, ⟨7, 0, .ro, 0xE4⟩]⟩,
  ⟨"LINK_TRAIN", 0x0600F00C, 0x10000, 4, 0x0, 1,
    [⟨31, 28, .ro, 0⟩, ⟨27, 24, .ro, 0⟩, ⟨15, 0, .rc, 0⟩]⟩,
  ⟨"LINK_CNT", 0x0600F010, 0x10000, 4, 0x0, 1,
    [⟨31, 16, .rc, 0⟩, ⟨15, 8, .rc, 0⟩, ⟨7, 0, .rc, 0⟩]⟩,
  ⟨"LINK_TEST", 0x0600F014, 0x10000, 4, 0x0, 1,
    [⟨31, 31, .ro, 0⟩, ⟨23, 19, .rw, 0xA⟩, ⟨18, 17, .rw, 0⟩, ⟨15, 12, .rw, 0⟩, ⟨9, 9, .rw, 0⟩, ⟨8, 8, .rw, 0⟩, ⟨1, 0, .rw, 0⟩]⟩,
  ⟨"LINK_UPERR", 0x0600F018, 0x10000, 4, 0x0, 1,
    [⟨31, 31, .ro, 0⟩, ⟨30, 24, .rc, 0⟩, ⟨23, 0, .rc, 0⟩]⟩,
  ⟨"LINK_FEC_CORR", 0x0600F020, 0x10000, 4, 0x0, 1,
    [⟨31, 0, .rc, 0⟩]⟩,
  ⟨"LINK_FEC_SYM", 0x0600F024, 0x10000, 4, 0x0, 1,
    [⟨31, 0, .rc, 0⟩]⟩,
  ⟨"LINK_FEC_UNC", 0x0600F028, 0x10000, 4, 0x0, 1,
    [⟨31, 0, .rc, 0⟩]⟩,
  ⟨"LINK_PKT_ERR", 0x0600F02C, 0x10000, 4, 0x0, 1,
    [⟨31, 16, .rc, 0⟩, ⟨15, 8, .rc, 0⟩, ⟨7, 0, .rc, 0⟩]⟩,
  ⟨"LINK_REL", 0x0600F030, 0x10000, 4, 0x0, 1,
    [⟨31, 16, .rc, 0⟩, ⟨15, 8, .rc, 0⟩, ⟨7, 0, .rc, 0⟩]⟩,
  ⟨"LINK_REL_CFG", 0x0600F034, 0x10000, 4, 0x0, 1,
    [⟨7, 0, .rw, 8⟩]⟩,
  ⟨"LINK_HOLD", 0x0600F038, 0x10000, 4, 0x0, 1,
    [⟨15, 0, .rw, 0x7D0⟩]⟩,
  ⟨"LINK_TRIG", 0x0600F03C, 0x10000, 4, 0x0, 1,
    [⟨31, 16, .rc, 0⟩, ⟨15, 0, .rc, 0⟩]⟩,
  ⟨"LINK_TOFF_LO", 0x0600F040, 0x10000, 4, 0x0, 1,
    [⟨31, 0, .ro, 0⟩]⟩,
  ⟨"LINK_TOFF_HI", 0x0600F044, 0x10000, 4, 0x0, 1,
    [⟨31, 0, .ro, 0⟩]⟩,
  ⟨"LINK_TRTT", 0x0600F048, 0x10000, 4, 0x0, 1,
    [⟨31, 31, .ro, 0⟩, ⟨30, 0, .ro, 0⟩]⟩,
  ⟨"LINK_WOFF", 0x0600F04C, 0x10000, 4, 0x0, 1,
    [⟨31, 0, .ro, 0⟩]⟩,
  ⟨"LINK_DUP", 0x0600F090, 0x10000, 4, 0x0, 1,
    [⟨15, 0, .rc, 0⟩]⟩]

/-- Registers of the LINK block, part 1. -/
def regs_link_1 : List RegDef := [
  ⟨"LINK_VS", 0x0600F050, 0x10000, 4, 0x4, 16,
    [⟨28, 16, .ro, 0x40⟩, ⟨13, 8, .ro, 0⟩]⟩,
  ⟨"LINK_FFE", 0x06000000, 0x10000, 4, 0x1000, 4,
    [⟨31, 28, .ro, 0⟩, ⟨24, 24, .ro, 0⟩, ⟨23, 16, .ro, 0x20⟩, ⟨15, 8, .ro, 0⟩, ⟨7, 0, .ro, 0⟩]⟩,
  ⟨"LINK_INJ", 0x06000004, 0x10000, 4, 0x1000, 4,
    [⟨31, 0, .rc, 0⟩]⟩,
  ⟨"LINK_RX", 0x06005000, 0x10000, 4, 0x0, 1,
    [⟨29, 24, .ro, 0⟩, ⟨23, 16, .ro, 0⟩, ⟨15, 8, .ro, 0⟩, ⟨3, 0, .ro, 0⟩]⟩,
  ⟨"LINK_DFE0", 0x06005004, 0x10000, 4, 0x0, 1,
    [⟨29, 24, .ro, 0⟩, ⟨21, 16, .ro, 0⟩, ⟨13, 8, .ro, 0⟩, ⟨6, 0, .ro, 0⟩]⟩,
  ⟨"LINK_DFE1", 0x06005008, 0x10000, 4, 0x0, 1,
    [⟨5, 0, .ro, 0⟩]⟩,
  ⟨"LINK_FREQ", 0x06006000, 0x10000, 4, 0x0, 1,
    [⟨15, 0, .ro, 0⟩]⟩]

/-- The registers of the LINK block. -/
def regs_link : List RegDef := regs_link_0 ++ regs_link_1

/-- Registers of the PCLK block, part 0. -/
def regs_pclk_0 : List RegDef := [
  ⟨"PCLK_STAT", 0x07000000, 0x0, 1, 0x0, 1,
    [⟨15, 12, .ro, 0⟩, ⟨11, 8, .ro, 0⟩, ⟨7, 7, .ro, 0⟩, ⟨6, 6, .ro, 0⟩, ⟨5, 4, .ro, 0⟩, ⟨3, 3, .ro, 0⟩, ⟨2, 2, .ro, 0⟩, ⟨1, 1, .ro, 0⟩]⟩,
  ⟨"PCLK_REF", 0x07000004, 0x0, 1, 0x0, 1,
    [⟨31, 16, .ro, 0⟩, ⟨15, 0, .ro, 0⟩]⟩,
  ⟨"PCLK_RST_CAUSE", 0x07000008, 0x0, 1, 0x0, 1,
    [⟨15, 8, .ro, 0⟩, ⟨7, 0, .ro, 1⟩]⟩,
  ⟨"PCLK_RST_CNT", 0x0700000C, 0x0, 1, 0x0, 1,
    [⟨31, 24, .rc, 0⟩, ⟨23, 16, .rc, 0⟩, ⟨15, 8, .rc, 0⟩, ⟨7, 0, .rc, 0⟩]⟩,
  ⟨"PCLK_STRAP", 0x07000010, 0x0, 1, 0x0, 1,
    [⟨27, 24, .ro, 0⟩, ⟨23, 20, .ro, 0⟩, ⟨19, 16, .ro, 0⟩, ⟨13, 8, .ro, 0⟩, ⟨7, 0, .ro, 0⟩]⟩,
  ⟨"PCLK_BOOT", 0x07000014, 0x0, 1, 0x0, 1,
    [⟨31, 16, .ro, 0⟩, ⟨7, 7, .ro, 0⟩, ⟨6, 6, .ro, 0⟩, ⟨5, 4, .ro, 0⟩, ⟨3, 0, .ro, 0⟩]⟩,
  ⟨"PCLK_WDT", 0x07000018, 0x0, 1, 0x0, 1,
    [⟨31, 16, .rw, 0x64⟩, ⟨15, 0, .ro, 0x64⟩]⟩,
  ⟨"PCLK_GATE", 0x0700001C, 0x0, 1, 0x0, 1,
    [⟨29, 16, .ro, 0⟩, ⟨13, 0, .ro, 0⟩]⟩,
  ⟨"PCLK_SRAM", 0x07000020, 0x0, 1, 0x0, 1,
    [⟨15, 0, .rc, 0⟩]⟩,
  ⟨"PCLK_PLL_STAT", 0x07000100, 0x20, 4, 0x0, 1,
    [⟨31, 29, .ro, 0⟩, ⟨28, 25, .ro, 0⟩, ⟨15, 8, .rc, 0⟩, ⟨1, 0, .ro, 0⟩]⟩,
  ⟨"PCLK_PLL_TGT", 0x07000104, 0x20, 4, 0x0, 1,
    [⟨12, 0, .ro, 0⟩]⟩,
  ⟨"PCLK_PLL_LOCK", 0x07000108, 0x20, 4, 0x0, 1,
    [⟨28, 16, .rw, 0x100⟩, ⟨15, 8, .rw, 0x14⟩, ⟨6, 0, .rw, 8⟩]⟩,
  ⟨"PCLK_PLL_LOCKT", 0x0700010C, 0x20, 4, 0x0, 1,
    [⟨15, 0, .ro, 0⟩]⟩,
  ⟨"PLL_BAND_SEL", 0x07000200, 0x0, 1, 0x0, 1,
    [⟨5, 4, .rw, 0⟩, ⟨3, 0, .rw, 0⟩]⟩,
  ⟨"PLL_BAND_TBL", 0x07000204, 0x0, 1, 0x0, 1,
    [⟨31, 19, .rw, 0⟩, ⟨18, 6, .rw, 0⟩, ⟨5, 0, .rw, 0⟩]⟩]

/-- The registers of the PCLK block. -/
def regs_pclk : List RegDef := regs_pclk_0

/-- Registers of the THERM block, part 0. -/
def regs_therm_0 : List RegDef := [
  ⟨"THERM_THR0", 0x08000000, 0x0, 1, 0x0, 1,
    [⟨31, 24, .rwl, 0x7D⟩, ⟨23, 16, .rwl, 0x78⟩, ⟨15, 8, .rwl, 0x6E⟩, ⟨7, 0, .rwl, 0x64⟩]⟩,
  ⟨"THERM_THR1", 0x08000004, 0x0, 1, 0x0, 1,
    [⟨31, 16, .rwl, 0x7D0⟩, ⟨15, 8, .rwl, 0x14⟩, ⟨3, 0, .rwl, 3⟩]⟩,
  ⟨"THERM_STAT", 0x08000008, 0x0, 1, 0x0, 1,
    [⟨31, 30, .ro, 0⟩, ⟨29, 28, .ro, 0⟩, ⟨27, 27, .ro, 0⟩, ⟨26, 26, .ro, 0⟩, ⟨25, 25, .ro, 0⟩, ⟨19, 16, .ro, 0⟩, ⟨15, 0, .ro, 0⟩]⟩,
  ⟨"THERM_MAX", 0x0800000C, 0x0, 1, 0x0, 1,
    [⟨31, 16, .ro, 0⟩, ⟨15, 0, .ro, 0⟩]⟩,
  ⟨"THERM_GRACE", 0x08000010, 0x0, 1, 0x0, 1,
    [⟨31, 0, .ro, 0xFFFFFFFF⟩]⟩,
  ⟨"THERM_LOG", 0x08000014, 0x0, 1, 0x0, 1,
    [⟨15, 8, .ro, 0⟩, ⟨5, 0, .ro, 0⟩]⟩,
  ⟨"THERM_EVT", 0x08000018, 0x0, 1, 0x0, 1,
    [⟨31, 16, .rc, 0⟩, ⟨15, 8, .rc, 0⟩, ⟨7, 0, .rc, 0⟩]⟩,
  ⟨"THERM_TS", 0x08000100, 0x4, 16, 0x0, 1,
    [⟨31, 31, .ro, 0⟩, ⟨15, 0, .ro, 0⟩]⟩,
  ⟨"THERM_PEAK", 0x08000140, 0x4, 16, 0x0, 1,
    [⟨15, 0, .rc, 0x8000⟩]⟩,
  ⟨"THERM_BAND", 0x08000180, 0x4, 12, 0x0, 1,
    [⟨15, 0, .ro, 0x100⟩]⟩]

/-- The registers of the THERM block. -/
def regs_therm : List RegDef := regs_therm_0

/-- Registers of the TMR block, part 0. -/
def regs_tmr_0 : List RegDef := [
  ⟨"TMR_CTL", 0x09000000, 0x100, 16, 0x0, 1,
    [⟨31, 31, .ro, 0⟩, ⟨30, 30, .ro, 0⟩, ⟨23, 20, .rwl, 0⟩, ⟨19, 18, .rwl, 0⟩, ⟨17, 15, .rwl, 0⟩, ⟨5, 5, .ro, 0⟩, ⟨4, 4, .rwl, 0⟩, ⟨3, 3, .rwl, 0⟩, ⟨2, 2, .rwl, 0⟩, ⟨1, 1, .rwl, 0⟩, ⟨0, 0, .rwl, 0⟩]⟩,
  ⟨"TMR_PRE", 0x09000004, 0x100, 16, 0x0, 1,
    [⟨31, 16, .rwl, 1⟩, ⟨7, 0, .rwl, 0⟩]⟩,
  ⟨"TMR_PER_LO", 0x09000008, 0x100, 16, 0x0, 1,
    [⟨31, 0, .rwl, 0xFFFFFFFF⟩]⟩,
  ⟨"TMR_PER_HI", 0x0900000C, 0x100, 16, 0x0, 1,
    [⟨15, 0, .rwl, 0xFFFF⟩]⟩,
  ⟨"TMR_M0_LO", 0x09000010, 0x100, 16, 0x0, 1,
    [⟨31, 0, .rwl, 0⟩]⟩,
  ⟨"TMR_M0_HI", 0x09000014, 0x100, 16, 0x0, 1,
    [⟨15, 0, .rwl, 0⟩]⟩,
  ⟨"TMR_M1_LO", 0x09000018, 0x100, 16, 0x0, 1,
    [⟨31, 0, .rwl, 0⟩]⟩,
  ⟨"TMR_M1_HI", 0x0900001C, 0x100, 16, 0x0, 1,
    [⟨15, 0, .rwl, 0⟩]⟩,
  ⟨"TMR_ACT", 0x09000020, 0x100, 16, 0x0, 1,
    [⟨24, 20, .rwl, 0⟩, ⟨19, 15, .rwl, 0⟩, ⟨14, 10, .rwl, 0⟩, ⟨9, 5, .rwl, 0⟩, ⟨4, 0, .rwl, 0⟩]⟩,
  ⟨"TMR_CAPCFG", 0x09000024, 0x100, 16, 0x0, 1,
    [⟨31, 24, .rwl, 0xFF⟩, ⟨23, 16, .rwl, 0⟩, ⟨15, 12, .rwl, 0⟩, ⟨11, 8, .rwl, 1⟩, ⟨1, 0, .rwl, 0⟩]⟩,
  ⟨"TMR_STAT", 0x09000028, 0x100, 16, 0x0, 1,
    [⟨31, 31, .ro, 0⟩, ⟨30, 30, .rc, 0⟩, ⟨29, 29, .rc, 0⟩, ⟨28, 28, .ro, 0⟩, ⟨7, 0, .ro, 0⟩]⟩,
  ⟨"TMR_COUNT_LO", 0x0900002C, 0x100, 16, 0x0, 1,
    [⟨31, 0, .ro, 0⟩]⟩,
  ⟨"TMR_COUNT_HI", 0x09000030, 0x100, 16, 0x0, 1,
    [⟨15, 0, .ro, 0⟩]⟩,
  ⟨"TMR_CAP_LO", 0x09000034, 0x100, 16, 0x0, 1,
    [⟨31, 0, .ro, 0⟩]⟩,
  ⟨"TMR_CAP_HI", 0x09000038, 0x100, 16, 0x0, 1,
    [⟨15, 0, .ro, 0⟩]⟩]

/-- The registers of the TMR block. -/
def regs_tmr : List RegDef := regs_tmr_0

/-- Registers of the PIO block, part 0. -/
def regs_pio_0 : List RegDef := [
  ⟨"PIO_IMEM", 0x0A000000, 0x1000, 8, 0x4, 64,
    [⟨31, 0, .rwl, 0⟩]⟩,
  ⟨"PIO_CTL", 0x0A000800, 0x1000, 8, 0x0, 1,
    [⟨31, 30, .ro, 0⟩, ⟨29, 28, .ro, 0⟩, ⟨27, 22, .ro, 0⟩, ⟨21, 16, .ro, 0⟩, ⟨15, 10, .ro, 0⟩, ⟨9, 8, .ro, 0⟩, ⟨0, 0, .rwl, 0⟩]⟩,
  ⟨"PIO_DIV", 0x0A000804, 0x1000, 8, 0x0, 1,
    [⟨31, 16, .rwl, 1⟩, ⟨7, 0, .rwl, 0⟩]⟩,
  ⟨"PIO_QCFG", 0x0A000808, 0x1000, 8, 0x0, 1,
    [⟨5, 0, .rwl, 0x10⟩]⟩,
  ⟨"PIO_SER", 0x0A00080C, 0x1000, 8, 0x0, 1,
    [⟨17, 17, .rwl, 0⟩, ⟨16, 16, .rwl, 0⟩, ⟨15, 12, .rwl, 0⟩, ⟨11, 8, .rwl, 0⟩, ⟨7, 4, .rwl, 0⟩, ⟨3, 0, .rwl, 0⟩]⟩,
  ⟨"PIO_TMO", 0x0A000810, 0x1000, 8, 0x0, 1,
    [⟨15, 0, .rwl, 0⟩]⟩,
  ⟨"PIO_PKT", 0x0A000814, 0x1000, 8, 0x0, 1,
    [⟨31, 16, .rwl, 0x3E8⟩, ⟨8, 0, .rwl, 0x10⟩]⟩,
  ⟨"PIO_Q", 0x0A000818, 0x1000, 8, 0x0, 1,
    [⟨29, 24, .ro, 0⟩, ⟨21, 16, .ro, 0⟩, ⟨8, 0, .ro, 0⟩]⟩,
  ⟨"PIO_CNT", 0x0A00081C, 0x1000, 8, 0x0, 1,
    [⟨31, 16, .rc, 0⟩, ⟨15, 0, .rc, 0⟩]⟩,
  ⟨"PIO_W0", 0x0A000820, 0x1000, 8, 0x0, 1,
    [⟨31, 0, .ro, 0⟩]⟩,
  ⟨"PIO_W1", 0x0A000824, 0x1000, 8, 0x0, 1,
    [⟨31, 0, .ro, 0⟩]⟩,
  ⟨"PIO_TXR", 0x0A000828, 0x1000, 8, 0x0, 1,
    [⟨31, 0, .ro, 0⟩]⟩,
  ⟨"PIO_RXR", 0x0A00082C, 0x1000, 8, 0x0, 1,
    [⟨31, 0, .ro, 0⟩]⟩,
  ⟨"PIO_PINCFG", 0x0A008000, 0x4, 16, 0x0, 1,
    [⟨31, 24, .rwl, 0⟩, ⟨23, 16, .rwl, 0⟩, ⟨15, 8, .rwl, 0⟩, ⟨7, 0, .rwl, 0⟩]⟩,
  ⟨"PIO_PINARG", 0x0A008040, 0x4, 16, 0x0, 1,
    [⟨31, 24, .rwl, 0⟩, ⟨23, 16, .rwl, 0⟩, ⟨15, 8, .rwl, 0⟩, ⟨7, 0, .rwl, 0⟩]⟩,
  ⟨"PIO_IN", 0x0A008080, 0x4, 2, 0x0, 1,
    [⟨31, 0, .ro, 0⟩]⟩,
  ⟨"PIO_OVR", 0x0A008088, 0x4, 2, 0x0, 1,
    [⟨31, 0, .rc, 0⟩]⟩]

/-- The registers of the PIO block. -/
def regs_pio : List RegDef := regs_pio_0

/-- Registers of the OTPC block, part 0. -/
def regs_otpc_0 : List RegDef := [
  ⟨"OTPC_STAT", 0x0B000000, 0x0, 1, 0x0, 1,
    [⟨15, 15, .ro, 0⟩, ⟨14, 14, .ro, 0⟩, ⟨13, 13, .ro, 0⟩, ⟨12, 12, .ro, 0⟩, ⟨11, 11, .ro, 0⟩, ⟨10, 10, .ro, 0⟩, ⟨6, 4, .ro, 0⟩, ⟨2, 0, .ro, 0⟩]⟩,
  ⟨"OTPC_READCNT", 0x0B000004, 0x0, 1, 0x0, 1,
    [⟨31, 24, .ro, 0⟩, ⟨23, 16, .ro, 0⟩, ⟨15, 8, .ro, 0⟩, ⟨7, 0, .ro, 0⟩]⟩,
  ⟨"OTPC_LIMITS", 0x0B000008, 0x0, 1, 0x0, 1,
    [⟨28, 22, .ro, 0⟩, ⟨21, 19, .ro, 0⟩, ⟨18, 16, .ro, 0⟩, ⟨15, 0, .ro, 0⟩]⟩,
  ⟨"OTPC_ALARM", 0x0B00000C, 0x0, 1, 0x0, 1,
    [⟨16, 0, .ro, 0⟩]⟩,
  ⟨"OTPC_ALARM_LATCH", 0x0B000010, 0x0, 1, 0x0, 1,
    [⟨31, 31, .ro, 0⟩, ⟨12, 8, .ro, 0⟩, ⟨6, 0, .ro, 0⟩]⟩,
  ⟨"OTPC_PROG", 0x0B000014, 0x0, 1, 0x0, 1,
    [⟨31, 28, .ro, 0⟩, ⟨13, 0, .ro, 0⟩]⟩,
  ⟨"OTPC_REG", 0x0B000100, 0x4, 9, 0x0, 1,
    [⟨15, 8, .ro, 0⟩, ⟨7, 7, .ro, 0⟩, ⟨6, 6, .ro, 0⟩, ⟨2, 2, .ro, 0⟩, ⟨1, 1, .ro, 0⟩, ⟨0, 0, .ro, 0⟩]⟩]

/-- The registers of the OTPC block. -/
def regs_otpc : List RegDef := regs_otpc_0

/-- Registers of the HOLD block, part 0. -/
def regs_hold_0 : List RegDef := [
  ⟨"HOLD_CTL", 0x0C000000, 0x0, 1, 0x0, 1,
    [⟨14, 12, .rwl, 0⟩, ⟨10, 8, .rwl, 0⟩, ⟨1, 1, .rwl, 0⟩, ⟨0, 0, .rwl, 1⟩]⟩,
  ⟨"HOLD_CFG", 0x0C000004, 0x0, 1, 0x0, 1,
    [⟨31, 16, .rwl, 0x64⟩, ⟨15, 0, .rwl, 0x672⟩]⟩,
  ⟨"HOLD_ILIM", 0x0C000008, 0x0, 1, 0x0, 1,
    [⟨31, 16, .rwl, 0xC8⟩, ⟨15, 0, .rwl, 0⟩]⟩,
  ⟨"HOLD_NTC", 0x0C00000C, 0x0, 1, 0x0, 1,
    [⟨31, 16, .rwl, 0xD6B⟩, ⟨15, 0, .ro, 0⟩]⟩,
  ⟨"HOLD_STAT", 0x0C000010, 0x0, 1, 0x0, 1,
    [⟨15, 15, .ro, 0⟩, ⟨14, 14, .ro, 0⟩, ⟨13, 13, .ro, 0⟩, ⟨12, 12, .ro, 0⟩, ⟨11, 8, .ro, 0⟩, ⟨5, 4, .ro, 0⟩, ⟨2, 0, .ro, 0⟩]⟩,
  ⟨"HOLD_VOLT", 0x0C000014, 0x0, 1, 0x0, 1,
    [⟨31, 16, .ro, 0⟩, ⟨15, 0, .ro, 0⟩]⟩,
  ⟨"HOLD_CUR", 0x0C000018, 0x0, 1, 0x0, 1,
    [⟨31, 16, .ro, 0⟩, ⟨15, 0, .ro, 0⟩]⟩,
  ⟨"HOLD_HEALTH", 0x0C00001C, 0x0, 1, 0x0, 1,
    [⟨31, 16, .ro, 0⟩, ⟨15, 0, .ro, 0⟩]⟩,
  ⟨"HOLD_Q", 0x0C000020, 0x0, 1, 0x0, 1,
    [⟨31, 0, .ro, 0⟩]⟩,
  ⟨"HOLD_BUOY", 0x0C000024, 0x0, 1, 0x0, 1,
    [⟨31, 0, .ro, 0⟩]⟩,
  ⟨"HOLD_SRC_R", 0x0C000028, 0x0, 1, 0x0, 1,
    [⟨15, 0, .ro, 0⟩]⟩,
  ⟨"HOLD_DUSK", 0x0C00002C, 0x0, 1, 0x0, 1,
    [⟨31, 16, .ro, 0⟩, ⟨15, 0, .ro, 0⟩]⟩]

/-- The registers of the HOLD block. -/
def regs_hold : List RegDef := regs_hold_0

/-- Registers of the DIAG block, part 0. -/
def regs_diag_0 : List RegDef := [
  ⟨"DIAG_STAT", 0x0D000000, 0x0, 1, 0x0, 1,
    [⟨23, 16, .ro, 0⟩, ⟨15, 8, .ro, 0⟩, ⟨0, 0, .ro, 0⟩]⟩,
  ⟨"DIAG_MOSAIC_DROP", 0x0D000004, 0x0, 1, 0x0, 1,
    [⟨31, 0, .rc, 0⟩]⟩,
  ⟨"DIAG_LINE_CRC", 0x0D000008, 0x0, 1, 0x0, 1,
    [⟨31, 0, .rc, 0⟩]⟩,
  ⟨"DIAG_BIST", 0x0D00000C, 0x0, 1, 0x0, 1,
    [⟨31, 31, .ro, 0⟩, ⟨26, 24, .ro, 0⟩, ⟨21, 20, .rw, 0⟩, ⟨2, 0, .wo, 0⟩]⟩,
  ⟨"DIAG_BIST_FAIL", 0x0D000010, 0x0, 1, 0x0, 1,
    [⟨31, 0, .ro, 0⟩]⟩,
  ⟨"DIAG_BIST_FIRST", 0x0D000014, 0x0, 1, 0x0, 1,
    [⟨31, 31, .ro, 0⟩, ⟨27, 0, .ro, 0⟩]⟩,
  ⟨"DIAG_MEMF", 0x0D000040, 0x0, 1, 0x0, 1,
    [⟨31, 31, .ro, 0⟩, ⟨30, 19, .ro, 0⟩, ⟨18, 9, .ro, 0⟩]⟩,
  ⟨"DIAG_MEM_KEEP", 0x0D000044, 0x0, 1, 0x0, 1,
    [⟨31, 31, .ro, 0⟩, ⟨27, 0, .ro, 0⟩]⟩,
  ⟨"DIAG_MEM_KEEP_INFO", 0x0D000048, 0x0, 1, 0x0, 1,
    [⟨31, 0, .ro, 0⟩]⟩,
  ⟨"DIAG_CONV_FAIL", 0x0D000020, 0x4, 6, 0x0, 1,
    [⟨31, 0, .ro, 0⟩]⟩,
  ⟨"DIAG_MEMQ", 0x0D010000, 0x4, 6144, 0x0, 1,
    [⟨31, 0, .ro, 0⟩]⟩]

/-- The registers of the DIAG block. -/
def regs_diag : List RegDef := regs_diag_0

/-- The block an address lies in, by its top byte and the extents of the register map (R355). -/
def blockOf (addr : Nat) : Option Block :=
  let top := addr / 0x1000000
  match top with
  | 0 => some .sys
  | 1 => some .array
  | 2 => some .teng
  | 3 => some .pipe
  | 4 => some .aux
  | 5 => some .memc
  | 6 => some .link
  | 7 => some .pclk
  | 8 => some .therm
  | 9 => some .tmr
  | 10 => some .pio
  | 11 => some .otpc
  | 12 => some .hold
  | 13 => some .diag
  | 15 => some .sec
  | _ => none

/-- The registers of a block. The SEC block lists none (R490, R355). -/
def blockRegs : Block → List RegDef
  | .sys => regs_sys
  | .array => regs_array
  | .teng => regs_teng
  | .pipe => regs_pipe
  | .aux => regs_aux
  | .memc => regs_memc
  | .link => regs_link
  | .pclk => regs_pclk
  | .therm => regs_therm
  | .tmr => regs_tmr
  | .pio => regs_pio
  | .otpc => regs_otpc
  | .hold => regs_hold
  | .diag => regs_diag
  | .sec => []

/-- The register at an address, where a block lists one. -/
def regAt (addr : Nat) : Option RegDef :=
  match blockOf addr with
  | none => none
  | some b => (blockRegs b).find? (·.has addr)

/-- The reset value of a register's fields (R9). -/
def fldsReset (fs : List Fld) : Nat := sumL (fs.map (fun f => f.reset * 2 ^ f.lo))

/-- The bits of the fields that satisfy a test. -/
def fldsMask (p : Fld → Bool) (fs : List Fld) : Nat :=
  sumL ((fs.filter p).map (fun f => 2 ^ (f.hi + 1) - 2 ^ f.lo))

end Sys2Proof.Machine
end

