-- ==== Sys2Proof/Machine/State.lean ====
section
/-! DEFINITION. The state of the T192: everything the spec gives the machine, as plain data, and the state right
after reset. -/

namespace Sys2Proof.Machine

/-- Why a command stops the model. -/
inductive Fault where
  /-- An access to frame memory above its 15 GiB (R184). Raised by the frame-memory readers and writers. Safe. -/
  | noSuchAddress (addr : Nat)
  deriving DecidableEq, Repr

/-- Why a command has no meaning. -/
inductive Refusal where
  /-- The command has no meaning yet. Raised by the dispatch alone. Safe. -/
  | notModelled (mnemonic : String)
  deriving DecidableEq, Repr

/-- The state of the machine. -/
structure State where
  pending : List Instr          -- commands waiting, first in, first out
  clk : Clk
  free : Nat                    -- the model's own counter of free values drawn
  regs : List (Nat × Nat)       -- registers that differ from their reset value, by rising address
  log : FaultLog
  leases : List Lease           -- by bitmap bit of R349
  leaseLog : List LeaseEv       -- changes of holder since reset, oldest first (R340, R353)
  lastArrayHolder : Option PortIx   -- host that held the ARRAY lease last (R77)
  arrayLapsed : Bool            -- the ARRAY lease lapsed or expired since then (R77)
  ports : List Port
  sb : Sideband
  fwq : List Job                -- requests handed over and not yet taken
  slow : List SlowJob
  misses : Nat                  -- deadline misses since boot (R365)
  diag : Diag
  pw : Power
  rs : ResetSt
  otp : Otp
  sec : Sec
  arr : ArrayS                  -- settings, sequencer, governor, tile engines
  pipe : Pipe                   -- views and pipeline
  aux : List AuxIn              -- AX0 to AX3
  mem : Mem                     -- frame memory controller
  fm : List Host.Cell           -- frame memory, by rising FMA; unlisted bytes read 0
  ring : Ring
  hold : Hold
  th : Therm
  pio : Pio                     -- timers, engines and pins
  deriving DecidableEq, Repr

/-- The machine right after a cold reset (R396, R399): in BOOT, the four ports down, every register at its reset value, the contents
of frame memory undefined, and no command waiting. -/
def State.reset : State where
  pending := []
  clk := Clk.reset
  free := 0
  regs := []
  log := FaultLog.empty
  leases := List.replicate 30 ⟨none, none, 0⟩
  leaseLog := []
  lastArrayHolder := none
  arrayLapsed := false
  ports := List.replicate 4 Port.reset
  sb := Sideband.reset
  fwq := []
  slow := []
  misses := 0
  diag := Diag.reset
  pw := Power.reset
  rs := ResetSt.reset
  otp := Otp.reset
  sec := Sec.reset
  arr := ArrayS.reset
  pipe := Pipe.reset
  aux := List.replicate 4 AuxIn.reset
  mem := Mem.reset
  fm := []
  ring := Ring.reset
  hold := Hold.reset
  th := Therm.reset
  pio := Pio.reset

end Sys2Proof.Machine
end

