-- ==== Sys2Proof/Machine/Ops.lean ====
section
/-! DEFINITION. The operations every family shares: time, the register store, notifications, the fault log, leases
and roles, and the answering of commands. -/

namespace Sys2Proof.Machine

/-! ## Outcomes and time -/

/-- The outcome of a command. -/
abbrev Out := Host.Outcome State Fault Refusal

/-- DTIME at an instant (R10, R370): the anchor plus elapsed nanoseconds, with a slew absorbing one nanosecond in
each thousand, modulo 2^64. -/
def dtimeAt (k : Clk) (t : Time) : Nat :=
  let e := (t - k.anchor) / ns
  let a := min k.slew.natAbs (e / 1000)
  let d : Int := (k.base + e : Nat) + (if k.slew < 0 then -(a : Int) else (a : Int))
  unsigned 64 d

/-- What is left of the slew at an instant (R370). -/
def slewLeft (k : Clk) (t : Time) : Int :=
  let a := min k.slew.natAbs ((t - k.anchor) / ns / 1000)
  if k.slew < 0 then k.slew + a else k.slew - a

/-- DTIME now, and at an instant. -/
def State.dtime (s : State) (t : Time) : Nat := dtimeAt s.clk t

/-- What the passing of time brings in a Dusk: ports go to QUIET, and at the commit the rails are off and BUOY begins (R229 steps 3 and 8). -/
def duskAdvance (s : State) : State :=
  if s.pw.st = .dusk then
    let s := if s.pw.quietAt ≤ s.clk.now then { s with ports := List.replicate 4 Port.reset } else s
    if s.hold.buoyFrom ≤ s.clk.now then
      { s with pw := { s.pw with
        st := .buoy, plls := s.pw.plls.map (fun p => { p with st := .off }), vcoreGood := false, vioGood := false } }
    else s
  else s

/-- The delay table of a bin, where it is valid (R203). -/
def tableOf (m : Mem) (b : Nat) : Option (List Delay) :=
  let d := m.tables.getD b DelayTable.blank
  if d.valid then some d.codes else none

/-- A sweep starts at a bin (R204, R205): its stored table, where valid, is loaded. -/
def sweepFrom (m : Mem) (prior : MemSt) (b : Nat) : Mem :=
  { m with st := .train, prior := prior, sweepBin := b, bin := b, sweepPend := false, initTill := none, dly := (tableOf m b).getD m.dly }

/-- INIT ends with the dies initialised, and the sweep of a cold boot starts (R204, R209). -/
def memAdvance (s : State) : State :=
  match s.mem.initTill with
  | some x => if s.mem.st = .init ∧ x ≤ s.clk.now then { s with mem := sweepFrom s.mem .init s.mem.bin } else s
  | none => s

/-- Steps 2 and 3 of a lock: its outputs are gated by 0.2 µs, and by 1 µs the band code is loaded and the loop acquires (R389). -/
def pllAdvance (now : Time) (p : Pll) : Pll :=
  match p.st with
  | .safe => if p.since + us ≤ now then { p with st := .acquire } else if p.since + us / 5 ≤ now then { p with st := .band } else p
  | .band => if p.since + us ≤ now then { p with st := .acquire } else p
  | _ => p

/-- BOOT ends at its step 7 (R381, R401). -/
def bootAdvance (s : State) : State :=
  let s := if s.pw.plls.any (fun p => decide (p.st = .safe ∨ p.st = .band)) then
      { s with pw := { s.pw with plls := s.pw.plls.map (pllAdvance s.clk.now) } } else s
  if s.pw.st = .boot ∧ s.pw.bootStep = 7 ∧ s.pw.bootTill ≤ s.clk.now then { s with pw := { s.pw with st := .standby } } else s

/-- The model's clock never runs backward: it moves to a later instant of a command, and what falls due by itself has happened then. -/
def State.at (s : State) (t : Time) : State :=
  duskAdvance (memAdvance (bootAdvance { s with clk := { s.clk with now := max s.clk.now t } }))

/-- DTIME made to read `d` at `t` (R370 STEP). -/
def setDtime (s : State) (t : Time) (d : Nat) (slew : Int) (synced : Bool) : State :=
  { s with clk := { s.clk with anchor := t, base := d % 2 ^ 64, slew := slew, synced := synced } }

/-- The PIO cycle of an instant (480 MHz, R423): half-nanosecond `t` lies in cycle ⌊t · 6 / 25⌋. -/
def pioCycle (t : Time) : Nat := t * 6 / 25

/-- A fresh free value and the state with the counter advanced. -/
def drawFree (s : State) : BitVec 64 × State := (Config.freeValue s.free, { s with free := s.free + 1 })

/-! ## The register store -/

/-- Value stored at an address in a list kept by rising address. -/
def storeGet (l : List (Nat × Nat)) (a : Nat) : Option Nat :=
  match l with
  | [] => none
  | (k, v) :: r => if k = a then some v else if a < k then none else storeGet r a

/-- The list with an entry put in, or taken out where `v` is the value an unlisted address reads as. -/
def storePut (l : List (Nat × Nat)) (a v dflt : Nat) : List (Nat × Nat) :=
  match l with
  | [] => if v = dflt then [] else [(a, v)]
  | (k, w) :: r =>
    if k = a then (if v = dflt then r else (a, v) :: r)
    else if a < k then (if v = dflt then (k, w) :: r else (a, v) :: (k, w) :: r)
    else (k, w) :: storePut r a v dflt

/-- Reset value of the register at an address; 0 where a block lists none. -/
def regReset (a : Nat) : Nat :=
  match regAt a with
  | some r => fldsReset r.flds
  | none => 0

/-- The stored value of a register. -/
def State.reg (s : State) (a : Nat) : Nat := (storeGet s.regs a).getD (regReset a)

/-- Store a register's value. -/
def State.setReg (s : State) (a v : Nat) : State :=
  { s with regs := storePut s.regs a (v % 2 ^ 32) (regReset a) }

/-- A field of a register's stored value. -/
def State.fld (s : State) (a hi lo : Nat) : Nat := bits (s.reg a) hi lo

/-- Store a field. -/
def State.setFld (s : State) (a hi lo v : Nat) : State := s.setReg a (setBits (s.reg a) hi lo v)

/-- Raise a counter field, which saturates at all ones. -/
def State.bump (s : State) (a hi lo n : Nat) : State :=
  s.setFld a hi lo (satAdd (hi + 1 - lo) (s.fld a hi lo) n)

/-- Raise a counter field that wraps. -/
def State.bumpWrap (s : State) (a hi lo n : Nat) : State :=
  s.setFld a hi lo (s.fld a hi lo + n)

/-! ## Ports -/

/-- A port, by index. -/
def State.port (s : State) (p : PortIx) : Port := s.ports.getD p.val Port.reset

/-- Change a port. -/
def State.modPort (s : State) (p : PortIx) (f : Port → Port) : State :=
  { s with ports := modAt s.ports p.val f }

def State.modMbx (s : State) (p : PortIx) (f : Mbx → Mbx) : State :=
  s.modPort p (fun q => { q with mbx := f q.mbx })
def State.modTr (s : State) (p : PortIx) (f : Train → Train) : State :=
  s.modPort p (fun q => { q with tr := f q.tr })
def State.modPhy (s : State) (p : PortIx) (f : Phy → Phy) : State :=
  s.modPort p (fun q => { q with phy := f q.phy })
def State.modRel (s : State) (p : PortIx) (f : Rel → Rel) : State :=
  s.modPort p (fun q => { q with rel := f q.rel })

/-- The state code of R268. -/
def PortSt.code : PortSt → Nat
  | .quiet => 0 | .detect => 1 | .clock => 2 | .lanes => 3 | .deskew => 4
  | .equalise => 5 | .rate => 6 | .active => 7 | .test => 8

/-- Whether a port is in ACTIVE. -/
def State.portActive (s : State) (p : PortIx) : Bool := decide ((s.port p).tr.st = .active)

def allPorts : List PortIx := [0, 1, 2, 3]

/-! ## Notifications (R345, R346) -/

/-- Queue a notification for a port, with the end of its deadline where it has one: it takes the next NSEQ, and a seventeenth drops the oldest. -/
def notifyDue (s : State) (p : PortIx) (code : Nat) (payload : List Byte) (t : Time) (due : Option Time) : State :=
  let m := (s.port p).mbx
  let q := m.notes ++ [⟨code, m.nseq, t, payload, due⟩]
  let s := s.modMbx p (fun m => { m with
    notes := if 16 < q.length then q.drop 1 else q
    nseq := (m.nseq + 1) % 2 ^ 32
    lostFlag := m.lostFlag || decide (16 < q.length) })
  if 16 < q.length then s.bump aSYS_MBX_ERR 7 0 1 else s

/-- Queue a notification for a port. -/
def notify (s : State) (p : PortIx) (code : Nat) (payload : List Byte) (t : Time) : State := notifyDue s p code payload t none

/-- Queue a notification for every port (R346). -/
def notifyAll (s : State) (code : Nat) (payload : List Byte) (t : Time) : State :=
  allPorts.foldl (fun s p => notify s p code payload t) s

/-! ## The fault log (R368, R491 to R496) -/

/-- Fault codes of R495. -/
def fBOOKS : Nat := 0x0101
def fWDT_RESET : Nat := 0x0102
def fLOCKSTEP_RESET : Nat := 0x0103
def fSRAM_UE_RESET : Nat := 0x0104
def fBOOT_LOOP : Nat := 0x0105
def fALARM : Nat := 0x0106
def fRAMP : Nat := 0x0201
def fCONV_BIST : Nat := 0x0202
def fMOSAIC_OVERRUN : Nat := 0x0203
def fSPILL_LOST : Nat := 0x0204
def fLINE_CRC : Nat := 0x0205
def fAUX_LOS : Nat := 0x0401
def fAUX_OVERRUN : Nat := 0x0402
def fMEM_UE : Nat := 0x0501
def fMEM_UNAVAIL : Nat := 0x0502
def fMEM_ROWHOT : Nat := 0x0503
def fMEM_BIST : Nat := 0x0504
def fLINK_STALL : Nat := 0x0601
def fLINK_BIST : Nat := 0x0602
def fREF_FREQ : Nat := 0x0701
def fPLL_BAND : Nat := 0x0702
def fPLL_FAIL : Nat := 0x0703
def fPLL_UNLOCK : Nat := 0x0704
def fVMID_LOW : Nat := 0x0705
def fSTRAP_OPEN : Nat := 0x0706
def fTS_FAIL : Nat := 0x0801
def fSQUALL : Nat := 0x0802
def fTHERM_SHUTDOWN : Nat := 0x0803
def fPIO_ILLEGAL : Nat := 0x0A01
def fWAIT_TIMEOUT : Nat := 0x0A02
def fOTP_INTEGRITY : Nat := 0x0B01
def fHOLD (k : Nat) : Nat := 0x0C00 + k
def fHU_READY : Nat := 0x0C08

/-- The ALARM_N class of a fault code in the catalogue (R492, R495). ALARM entries carry their own. -/
def alarmCls (code : Nat) : AlarmCls :=
  if [0x0501, 0x0502, 0x0701, 0x0703, 0x0706, 0x0801, 0x0B01, 0x0105].contains code then .standing
  else if [0x0101, 0x0102, 0x0103, 0x0104, 0x0202, 0x0203, 0x0205, 0x0504, 0x0602, 0x0705, 0x0803].contains code
  then .latched else .none

/-- Whether an entry holds ALARM_N low (R492). -/
def FaultEntry.holds (e : FaultEntry) : Bool :=
  match e.cls with
  | .standing => e.stands
  | .latched => true
  | .none => false

/-- `FFLAGS` of an entry (R368). -/
def FaultEntry.fflags (e : FaultEntry) : Nat := b2n e.stands + 2 * b2n e.holds

/-- The FAULT notification of an entry (R496); ALARM entries are reported under R483 instead. -/
def notifyFault (s : State) (e : FaultEntry) (event : Nat) (t : Time) : State :=
  if e.code = fALARM then s else
  notifyAll s 0x8002 (leBytes 2 e.code ++ leBytes 2 e.inst ++ [byte event, byte e.fflags] ++
    leBytes 2 e.count ++ leBytes 8 (s.dtime t)) t

/-- Position of an entry in the log. -/
def faultIx (l : List FaultEntry) (code inst : Nat) : Option Nat :=
  l.findIdx? (fun e => e.code = code && e.inst = inst)

/-- Put a new entry in the log under R368: into a free place, or in the place of the oldest entry that no longer
stands, or nowhere. -/
def logNew (s : State) (e : FaultEntry) (t : Time) : State :=
  let l := s.log
  if l.entries.length < 64 then
    notifyFault { s with log := { l with entries := l.entries ++ [e] } } e 1 t
  else if l.entries.any (fun x => !x.stands) then
    notifyFault { s with log := { l with
      entries := removeFirst (fun x => !x.stands) l.entries ++ [e], lost := satAdd 16 l.lost 1 } } e 1 t
  else
    notifyFault { s with log := { l with
      lost := satAdd 16 l.lost 1, lostAlarm := l.lostAlarm || decide (e.cls ≠ .none) } } e 1 t

/-- An occurrence of a fault with a given ALARM_N class; with `stand` its condition now holds (R491 to R496). Several occurrences in one PIO
cycle count once (R493). -/
def occurCls (s : State) (code inst : Nat) (cls : AlarmCls) (stand : Bool) (t : Time) : State :=
  match faultIx s.log.entries code inst with
  | none => logNew s ⟨code, inst, 1, stand, cls, s.dtime t, t, false, t⟩ t
  | some i =>
    let e := s.log.entries.getD i ⟨code, inst, 0, false, cls, 0, t, false, t⟩
    let same := decide (pioCycle e.lastAt = pioCycle t)
    let rise := stand && !e.stands
    let e' : FaultEntry := { e with
      count := if same then e.count else satAdd 16 e.count 1
      stands := e.stands || stand
      cls := cls
      lastAt := t
      lastNote := if rise then t else e.lastNote
      repeated := e.repeated || (!same && !rise) }
    let s := { s with log := { s.log with entries := modAt s.log.entries i (fun _ => e') } }
    if rise then notifyFault s e' 2 t else s

/-- An occurrence of an event fault. -/
def raise (s : State) (code inst : Nat) (t : Time) : State := occurCls s code inst (alarmCls code) false t

/-- A condition fault begins to stand. Nothing happens while it already stands. -/
def stand (s : State) (code inst : Nat) (t : Time) : State :=
  match faultIx s.log.entries code inst with
  | some i =>
    if (s.log.entries.getD i ⟨0, 0, 0, false, .none, 0, 0, false, 0⟩).stands then s
    else occurCls s code inst (alarmCls code) true t
  | none => occurCls s code inst (alarmCls code) true t

/-- A condition fault no longer stands (R491, R496). -/
def unstand (s : State) (code inst : Nat) (t : Time) : State :=
  match faultIx s.log.entries code inst with
  | none => s
  | some i =>
    let e := s.log.entries.getD i ⟨code, inst, 0, false, .none, 0, t, false, t⟩
    if e.stands then
      let e' := { e with stands := false, lastNote := t }
      notifyFault { s with log := { s.log with entries := modAt s.log.entries i (fun _ => e') } } e' 3 t
    else s

/-- Whether the log holds a standing entry. -/
def faultStands (s : State) (code inst : Nat) : Bool :=
  s.log.entries.any (fun e => e.code = code && e.inst = inst && e.stands)

/-- ALARM_N low (R492): released in OFF, DUSK and BUOY. -/
def alarmLow (s : State) : Bool :=
  (s.log.entries.any FaultEntry.holds || s.log.lostAlarm) &&
  !decide (s.pw.st = .off ∨ s.pw.st = .dusk ∨ s.pw.st = .buoy)

/-- A balance of the conserved-quantity table is found broken (R24, R495). -/
def raiseBooks (s : State) (quantity unit : Nat) (t : Time) : State :=
  stand s fBOOKS (256 * quantity + unit) t

/-! ## Roles (R348) -/

/-- MANUFACTURE or RETURN, where every port is PRIMARY (R348). -/
def openLife (s : State) : Bool := decide (s.sec.life = .manufacture ∨ s.sec.life = .ret)

/-- The instance of a key slot, where the slot has a usable one (R458, R473). -/
def slotInst (s : State) (k : Nat) : Option (Nat × Role × List Byte) :=
  (s.sec.slots.getD k ⟨0, none⟩).inst

/-- The slot a port is authenticated with. -/
def portAuth (s : State) (p : PortIx) : Option (Nat × Nat) := s.sec.auth.getD p.val none

/-- The role of a port (R348). -/
def portRole (s : State) (p : PortIx) : Role :=
  if s.sec.untrusted then (if p = 0 then .primary else .viewer)
  else if openLife s then .primary
  else match portAuth s p with
    | some (k, _) => match slotInst s k with
      | some (_, r, _) => r
      | none => s.sec.unauth.getD p.val .viewer
    | none => s.sec.unauth.getD p.val .viewer

def Role.code : Role → Nat | .viewer => 0 | .primary => 1 | .safety => 2

/-- Whether keys may be used at all: no kill, no alarm lock, no restrictive defaults (R348). -/
def keysUsable (s : State) : Bool :=
  !(s.sec.killed || s.sec.killLatch || s.sec.lockStands || s.sec.untrusted)

/-- A port could gain a role by authenticating (R348). -/
def couldGain (s : State) (r : Role) : Bool :=
  keysUsable s && s.sec.slots.any (fun k => match k.inst with
    | some (_, q, _) => decide (r.code ≤ q.code)
    | none => false)

/-! ## Refusals (R344) -/

/-- The place of a refusal in the order of R344. -/
def Status.rank : Status → Nat
  | .badOpcode => 1 | .badLength => 2 | .denied => 3 | .locked => 4 | .authRequired => 5
  | .noLease => 6 | .badArg => 7 | .badState => 8 | .noResource => 9 | .busy => 10
  | _ => 11

/-- The status code of R343. -/
def Status.code : Status → Nat
  | .ok => 0x0000 | .accepted => 0x0001 | .busy => 0x0101 | .denied => 0x0102 | .noLease => 0x0103
  | .badOpcode => 0x0201 | .badLength => 0x0202 | .badArg => 0x0203 | .badState => 0x0204
  | .noResource => 0x0205 | .timeout => 0x0301 | .fault => 0x0302
  | .authRequired => 0x0401 | .authFailed => 0x0402 | .locked => 0x0403

/-- The place of a field by the `DETAIL` that names it: header fields by their offset, then payload fields by theirs (R334). -/
def fieldPlace (d : Nat) : Nat := if 0x8000 ≤ d then d - 0x8000 else 0x10000 + d

/-- The refusal that comes first under R344; of two BAD_ARG the one that names the earlier field (R334). -/
def better (a b : Reject) : Reject :=
  if b.status.rank < a.status.rank ∨
    (a.status = .badArg ∧ b.status = .badArg ∧ fieldPlace b.detail < fieldPlace a.detail) then b else a

/-- The refusal a command is answered with: the first under R344, and of several BAD_ARG the one of the first field that failed (R334). -/
def judge : List (Option Reject) → Option Reject
  | [] => none
  | none :: r => judge r
  | some a :: r => match judge r with
    | none => some a
    | some b => some (better a b)

/-- A condition a command needs, and the refusal where it does not hold. -/
def need (ok : Bool) (st : Status) (detail : Nat := 0) : Option Reject := if ok then none else some ⟨st, detail⟩

/-- A field that must lie in range (R334: `DETAIL` names it by its payload offset). -/
def argOk (ok : Bool) (off : Nat) : Option Reject := need ok .badArg off

/-- Reserved payload bytes (R8): the first that is not zero is named. -/
def reserved (pl : List Byte) (off len : Nat) : Option Reject :=
  match ((slice pl off len).findIdx? (fun b => b ≠ 0)) with
  | some k => some ⟨.badArg, off + k⟩
  | none => none

/-- Reserved bits of a payload byte. -/
def reservedBits (pl : List Byte) (off mask : Nat) : Option Reject :=
  argOk (decide (Nat.land (u8 pl off) mask = 0)) off

/-- ARG bytes that a command does not define must be 0 (R330). -/
def argZero (c : Call) (from_ : Nat := 0) : Option Reject :=
  match ((slice c.arg 0 4).zipIdx.find? (fun b => decide (from_ ≤ b.2) && b.1 ≠ 0)) with
  | some b => some ⟨.badArg, 0x8008 + b.2⟩
  | none => none

/-- The payload length a command allows. -/
def lenIs (c : Call) (n : Nat) : Option Reject := need (c.payload.length = n) .badLength

/-! ## Leases (R349 to R354) -/

/-- The bitmap bit of a resource code of R349. -/
def leaseBit (code : Nat) : Option Nat :=
  if code = 0 then some 0
  else if 0x10 ≤ code ∧ code ≤ 0x13 then some (1 + (code - 0x10))
  else if 0x20 ≤ code ∧ code ≤ 0x27 then some (5 + (code - 0x20))
  else if 0x30 ≤ code ∧ code ≤ 0x3F then some (13 + (code - 0x30))
  else if code = 0x40 then some 29
  else none

/-- The resource code of a bitmap bit. -/
def leaseCode (b : Nat) : Nat :=
  if b = 0 then 0 else if b < 5 then 0x10 + (b - 1) else if b < 13 then 0x20 + (b - 5)
  else if b < 29 then 0x30 + (b - 13) else 0x40

def lARRAY : Nat := 0
def lAX (n : Nat) : Nat := 1 + n
def lPE (n : Nat) : Nat := 5 + n
def lTMR (n : Nat) : Nat := 13 + n
def lRING : Nat := 29

def freeLease : Lease := ⟨none, none, 0⟩

def State.lease (s : State) (b : Nat) : Lease := s.leases.getD b freeLease

/-- How and when the holding of a lease ends by an instant: expired at its expiry instant (R351, EVENT 5), or lapsed 250 ms after a drop (R352,
EVENT 4), whichever comes first. An equal stamp counts as after. -/
def leaseEnd (s : State) (b : Nat) (stamp : Time) : Option (Nat × Time) :=
  match (s.lease b).holder with
  | none => none
  | some p =>
    let term := (s.lease b).expires.filter (fun e => decide (e ≤ stamp))
    let drop := ((s.port p).dropAt.map (fun d => d + 250 * ms)).filter (fun e => decide (e ≤ stamp))
    match term, drop with
    | some e, some d => if e ≤ d then some (5, e) else some (4, d)
    | some e, none => some (5, e)
    | none, some d => some (4, d)
    | none, none => none

/-- The holder of a lease by the latest change made, as a command stamped `stamp` sees it. -/
def holderNow (s : State) (b : Nat) (stamp : Time) : Option PortIx :=
  if (leaseEnd s b stamp).isSome then none else (s.lease b).holder

/-- The holder of a lease as a command stamped `stamp` sees it: a command stamped before the instant of a change sees the holder before the change
(R340, R351 to R353). -/
def holderAt (s : State) (b : Nat) (stamp : Time) : Option PortIx :=
  match s.leaseLog.find? (fun e => decide (e.b = b) && decide (stamp < e.at_)) with
  | some e => e.prev
  | none => holderNow s b stamp

/-- Whether a port holds a lease at a stamp. -/
def holds (s : State) (src : Src) (b : Nat) (stamp : Time) : Bool :=
  match src with
  | .port p => decide (holderAt s b stamp = some p)
  | .sideband => false

/-- The bitmap of the leases a port holds (R349). -/
def leaseMap (s : State) (p : PortIx) (stamp : Time) : Nat :=
  bitmap ((List.range 30).map (fun b => decide (holderAt s b stamp = some p)))

def portByte (p : Option PortIx) : Byte := match p with | some q => byte q.val | none => 0xFF

/-- The LEASE notification (R347). -/
def notifyLease (s : State) (b event : Nat) (holder prev : Option PortIx) (t : Time) : State :=
  let role : Byte := match holder with | some p => byte (portRole s p).code | none => 0xFF
  notifyAll s 0x8006 ([byte (leaseCode b), byte event, portByte holder, portByte prev, role, 0, 0, 0] ++
    leBytes 8 (s.dtime t)) t

/-- A lease becomes free with a LEASE event (R351 to R353). -/
def dropLease (s : State) (b event : Nat) (t : Time) : State :=
  match (s.lease b).holder with
  | none => s
  | some p =>
    let s := { s with leases := modAt s.leases b (fun _ => freeLease), leaseLog := s.leaseLog ++ [⟨b, t, some p⟩]
                      arrayLapsed := s.arrayLapsed || (decide (b = 0) && decide (event = 4 ∨ event = 5)) }
    notifyLease s b event none (some p) t

/-! ## What a caller needs (R348, R350, R374) -/

/-- `AUTH_REQUIRED` from a port that could gain the role by authenticating, `DENIED` from one that could not. -/
def gainOrDeny (s : State) (r : Role) : Option Reject :=
  if couldGain s r then some ⟨.authRequired, 0⟩ else some ⟨.denied, 0⟩

/-- A role at or above `r`. -/
def needRole (s : State) (src : Src) (r : Role) : Option Reject :=
  match src with
  | .sideband => some ⟨.denied, 0⟩
  | .port p => if r.code ≤ (portRole s p).code then none else gainOrDeny s r

/-- A lease: a VIEWER is told to authenticate or denied, any other port without it gets `NO_LEASE`. -/
def needLease (s : State) (c : Call) (b : Nat) : Option Reject :=
  match c.src with
  | .sideband => some ⟨.denied, 0⟩
  | .port p =>
    if portRole s p = .viewer then gainOrDeny s .primary
    else need (holds s c.src b c.stamp) .noLease

/-- A lease, or the SAFETY role. -/
def needLeaseOrSafety (s : State) (c : Call) (b : Nat) : Option Reject :=
  match c.src with
  | .sideband => some ⟨.denied, 0⟩
  | .port p => if portRole s p = .safety then none else needLease s c b

/-- Any role but VIEWER. -/
def notViewer (s : State) (c : Call) : Option Reject := needRole s c.src .primary

/-! ## Answers (R333, R334, R341) -/

def Cls.code : Cls → Nat | .immediate => 0 | .fast => 1 | .slow => 2 | .bulk => 3

/-- The 64 bytes of a device entry, with its CRC-32C (R330, R331). -/
def mkEntry (opcode tag ctl index count arg : Nat) (payload : List Byte) : List Byte :=
  let h := leBytes 2 opcode ++ leBytes 2 tag ++ [byte ctl, byte payload.length, byte index, byte count] ++ leBytes 4 arg
  let body := payload ++ zeros (48 - payload.length)
  h ++ leBytes 4 (crc32c (h ++ zeros 4 ++ body)) ++ body

def chunk48 : Nat → List Byte → List (List Byte)
  | 0, _ => []
  | n + 1, l => l.take 48 :: chunk48 n (l.drop 48)

/-- The entries of a response, chained under R332 where it is longer than 48 bytes. -/
def rspEntries (r : Rsp) : List (List Byte) :=
  let n := max 1 (divCeil r.payload.length 48)
  (chunk48 n r.payload).zipIdx.map (fun x =>
    mkEntry r.opcode r.tag.toNat (r.cls.code + 4) x.2 n (r.status.code + 65536 * r.detail) x.1)

/-- The entry of a notification (R345). -/
def noteEntry (n : Note) (lost : Bool) : List Byte :=
  mkEntry n.code 0xFFFF (4 + 8 * b2n lost) 0 1 n.nseq n.payload

/-- Show entries in `SB_RSP` and raise READY, with an IBI while enabled (R360, R361). -/
def sbShow (s : State) (entries : List (List Byte)) (last : Bool) (t : Time) : State :=
  { s with sb := { s.sb with
    rsp := entries.flatten, entries := entries.length, ready := true, cmdDone := last, shownAt := t,
    ibis := s.sb.ibis + b2n s.sb.ibiEn } }

/-- The sequencer and the firmware serve in these states. In SHUTDOWN only the sideband is served (R414), and without a
PLL clock only the sideband serves (R385, R391). -/
def serves (s : State) (src : Src) : Bool :=
  match s.pw.st with
  | .standby | .active => !s.pw.refLost && (match src with
    | .sideband => true
    | .port _ => !s.pw.refUnknown)
  | .shutdown => decide (src = .sideband)
  | _ => false

/-- Whether a handed-over request is that of a command. -/
def Job.isOf (j : Job) (src : Src) (opcode : Nat) (tag : BitVec 16) : Bool := j.src = src && j.opcode = opcode && j.tag = tag

/-- A command's request in the queue of handed-over requests. -/
def jobOf (q : List Job) (src : Src) (opcode : Nat) (tag : BitVec 16) : Option Job := q.find? (fun j => j.isOf src opcode tag)

/-- The refusal that the header of a handed-over request calls for (R330, R337). -/
def jobBad (q : List Job) (c : Call) (opcode : Nat) : Option Reject := (jobOf q c.src opcode c.tag).bind Job.bad

/-- Entries of a response (R332, R334). -/
def rspCount (r : Rsp) : Nat := max 1 (divCeil r.payload.length 48)

/-- Whether the free response slots take a response: two are kept for IMMEDIATE responses and notifications (R334). -/
def rspFits (free : Nat) (r : Rsp) : Bool := decide (rspCount r + (if r.cls = .immediate then 0 else 2) ≤ free)

/-- Answers for which a port has not the response slots now are no longer judged by their deadline (R339). -/
def Mbx.excuseSlots (m : Mbx) : Mbx :=
  { m with
    wait := m.wait.map (fun r => if rspFits m.rspFree r then r else { r with due := none })
    notes := if m.rspFree = 0 then m.notes.map (fun n => { n with due := none }) else m.notes }

/-- A response waits to post (R334). -/
def Mbx.queueRsp (m : Mbx) (r : Rsp) : Mbx := ({ m with wait := m.wait ++ [r] } : Mbx).excuseSlots

/-- An exit from ACTIVE, a resend or a lack of credit on VS0: what the port has asked for and not got is no longer judged by its deadline (R339). -/
def excusePort (s : State) (p : PortIx) : State :=
  let s := { s with
    fwq := s.fwq.map (fun (j : Job) => if j.src = Src.port p then { j with due := none } else j)
    slow := s.slow.map (fun (j : SlowJob) => if j.src = Src.port p then { j with due := none } else j) }
  s.modPort p (fun q => { q with
    mbx := { q.mbx with
      wait := q.mbx.wait.map (fun (r : Rsp) => { r with due := none })
      notes := q.mbx.notes.map (fun (n : Note) => { n with due := none })
      ring := q.mbx.ring.map (fun (e : RingEntry) => { e with due := none }) }
    bulk := q.bulk.map (fun (b : Bulk) => { b with due := none }) })

/-- Queue a response for its sender (R334). -/
def respond (s : State) (c : Call) (opcode : Nat) (cls : Cls) (st : Status) (detail : Nat) (payload : List Byte) :
    State :=
  let j := jobOf s.fwq c.src opcode c.tag
  let r : Rsp := ⟨opcode, c.tag, (j.map Job.rcls).getD cls, st, detail, payload, (j.map Job.slots).getD 0, j.bind Job.due⟩
  let s := { s with fwq := removeFirst (fun j => j.isOf c.src opcode c.tag) s.fwq }
  match c.src with
  | .port p => s.modMbx p (fun m => m.queueRsp r)
  | .sideband => sbShow s (rspEntries r) (decide (st ≠ .accepted)) c.start

/-- A SLOW command in progress blocks another of the same port, and another of its opcode (R341). -/
def slowBusy (s : State) (src : Src) (opcode : Nat) : Bool :=
  s.slow.any (fun j => j.src = src || j.opcode = opcode)

/-- The COMPLETE notification of a SLOW command (R341): to its port, or to the sideband buffer. -/
def complete (s : State) (src : Src) (opcode : Nat) (tag : BitVec 16) (st : Status) (result : List Byte) (t : Time) :
    State :=
  let pl := leBytes 2 opcode ++ leBytes 2 tag.toNat ++ leBytes 2 st.code ++ [0, 0] ++ result
  let mine (j : SlowJob) : Bool := j.src = src && j.opcode = opcode && j.tag = tag
  let due := (s.slow.find? mine).bind SlowJob.due
  let s := { s with slow := removeFirst mine s.slow }
  match src with
  | .port p => notifyDue s p 0x8010 pl t due
  | .sideband =>
    let e := mkEntry 0x8010 0xFFFF 4 0 1 0 pl
    if s.sb.ready then { s with sb := { s.sb with complete := some e } } else sbShow s [e] true t

/-- Opcodes the sideband accepts (R362). -/
def sbOpcodes : List Nat := [0x0002, 0x0003, 0x0004, 0x0006, 0x0503, 0x0600, 0x0602, 0x0800, 0x0920]

/-- The conditions of a served command, in order: the sideband takes the opcode, the request's header is sound, the command's own
conditions, and no other SLOW command in progress blocks a SLOW one, last of all. -/
def refusals (s : State) (c : Call) (opcode : Nat) (cls : Cls) (checks : List (Option Reject)) : List (Option Reject) :=
  [need (decide (c.src ≠ .sideband) || sbOpcodes.contains opcode) .denied, jobBad s.fwq c opcode] ++ checks ++
  [need (decide (cls ≠ .slow) || !slowBusy s c.src opcode) .busy]

/-- In DUSK the sequencer still serves IMMEDIATE-class commands on ports that are ACTIVE (R229, R230, R245). DESIGN CHOICE: the firmware answers
nothing else then. -/
def duskServes (s : State) (src : Src) (cls : Cls) : Bool :=
  decide (s.pw.st = .dusk) && decide (cls = .immediate) && (match src with
    | .sideband => false
    | .port p => s.portActive p)

/-- The rank of a sender at equal stamps: a lower port first, the sideband last (R340). -/
def srcRank : Src → Nat
  | .port p => p.val
  | .sideband => 4

/-- Whether a handed-over request starts before a command: by stamp, then a release before an acquire (R353), then by sender (R340). -/
def startsBefore (j : Job) (c : Call) (opcode : Nat) : Bool :=
  decide (j.stamp < c.stamp) || (decide (j.stamp = c.stamp) &&
    (if opcode = 0x0100 ∧ j.opcode = 0x0101 then true else if opcode = 0x0101 ∧ j.opcode = 0x0100 then false
     else decide (srcRank j.src < srcRank c.src)))

/-- A BULK transfer in progress keeps its request (R342). -/
def bulkRuns (s : State) (j : Job) : Bool :=
  decide (j.opcode = 0x0502) && (match j.src with
    | .port p => (s.port p).bulk.any (fun b => decide (b.tag = j.tag))
    | .sideband => false)

/-- The firmware starts its commands in the order of R340: no other request handed to it waits that comes first. -/
def inOrder (s : State) (c : Call) (opcode : Nat) (cls : Cls) : Bool :=
  decide (cls = .immediate) || !s.fwq.any (fun j =>
    decide (j.cls ≠ .immediate) && !j.isOf c.src opcode c.tag && serves s j.src && !bulkRuns s j && startsBefore j c opcode)

/-- Whether a command starts: its sender is served, a firmware command waits during a handover (R403), and no other comes before it (R340). -/
def startsNow (s : State) (c : Call) (opcode : Nat) (cls : Cls) : Bool :=
  (serves s c.src || duskServes s c.src cls) && (decide (cls = .immediate) || s.sec.handover.isNone) && inOrder s c opcode cls

/-- Carry out a command of R374, where it may start. Refuse it with the first refusal of R344, and the payload such a refusal has, or let it act. A
refused command changes nothing but for its answer. -/
def commandWith (s : State) (c : Call) (opcode : Nat) (cls : Cls) (checks : State → List (Option Reject))
    (refused : Reject → List Byte) (act : State → State) : Out :=
  let s := s.at c.start
  if startsNow s c opcode cls then
    match judge (refusals s c opcode cls (checks s)) with
    | some r => .next (respond s c opcode cls r.status r.detail (refused r))
    | none => .next (act s)
  else .next s

/-- Carry out a command whose refusals have no payload. -/
def command (s : State) (c : Call) (opcode : Nat) (cls : Cls) (checks : State → List (Option Reject))
    (act : State → State) : Out := commandWith s c opcode cls checks (fun _ => []) act

/-- Answer OK with a payload. -/
def okWith (s : State) (c : Call) (opcode : Nat) (cls : Cls) (payload : List Byte) : State :=
  respond s c opcode cls .ok 0 payload

/-- Answer `ACCEPTED` and note the SLOW command in progress, which is to complete within a span of its request's last cell (R338, R341). -/
def accept (s : State) (c : Call) (opcode : Nat) (span : Nat) (data : Nat) : State :=
  let s := respond s c opcode .slow .accepted 0 []
  let s := { s with slow := s.slow ++ [⟨c.src, opcode, c.tag, c.stamp + span, data, some (c.stamp + span)⟩] }
  match c.src with
  | .sideband => { s with sb := { s.sb with busy := true } }
  | .port _ => s

/-- An event of the block: it takes place when its rule's condition holds; otherwise only time passes. -/
def event (s : State) (t : Time) (due : State → Bool) (act : State → State) : Out :=
  let s := s.at t
  if due s then .next (act s) else .next s

end Sys2Proof.Machine
end

