-- ==== Sys2Proof/Machine/PllBase.lean ====
section
/-! DEFINITION. The PLLs: targets, band choice, and the start of a lock (R387 to R389). -/

namespace Sys2Proof.Machine

def State.pll (s : State) (n : Nat) : Pll := s.pw.plls.getD n Pll.reset
def pllOf (s : State) (n : Nat) : PllSt := (s.pll n).st
def State.modPll (s : State) (n : Nat) (f : Pll → Pll) : State :=
  { s with pw := { s.pw with plls := modAt s.pw.plls n f } }

/-- Bin that PLLM runs at: in a bin change the one it leads to (R207). -/
def pllBin (s : State) : Nat := if s.mem.st = .change then s.mem.changeTo else s.mem.bin

/-- Target in kHz (R387): PLLM by the bin. 5.333 GHz is 8 × 666.7 MHz. -/
def pllKhz (s : State) (n : Nat) : Nat :=
  match n with
  | 0 => 2400000
  | 1 => 4800000
  | 2 => if pllBin s = 0 then 4800000 else if pllBin s = 1 then 5333333 else 6400000
  | _ => 8000000

/-- Margin of a band entry for a target, none where the bounds do not contain it or the entry is unused (R388). -/
def bandMargin (khz : Nat) (e : Nat × Nat × Nat) : Option Nat :=
  let lo := 1000 * e.1
  let hi := 1000 * e.2.1
  if e.1 < e.2.1 ∧ lo ≤ khz ∧ khz ≤ hi then some (min (khz - lo) (hi - khz)) else none

/-- The untried entry with the largest margin. DEDUCED: of several with the same margin the lowest. -/
def pickBand (bands : List (Nat × Nat × Nat)) (tried : List Nat) (khz : Nat) : Option Nat :=
  let c := bands.zipIdx.filterMap (fun e => if tried.contains e.2 then none else (bandMargin khz e.1).map (fun m => (e.2, m)))
  match c with
  | [] => none
  | a :: r => some (r.foldl (fun b x => if b.2 < x.2 then x else b) a).1

/-- An attempt to lock begins with the best untried entry; with none left the PLL enters FAIL and PLL_BAND is raised
(R388). A lock begins in SAFE, a further attempt in BAND (R389). DEDUCED: PLL_FAIL stands for every PLL in FAIL, as its condition in R495 says. -/
def pllAttempt (s : State) (n : Nat) (st : PllSt) (t : Time) : State :=
  let p := s.pll n
  match pickBand p.use p.tried (pllKhz s n) with
  | some e => s.modPll n (fun p => { p with st := st, entry := e, tried := e :: p.tried, since := t })
  | none => stand (raise (s.modPll n (fun p => { p with st := .fail })) fPLL_BAND n t) fPLL_FAIL n t

/-- Attempt timeout of a PLL as its register holds it. -/
def pllTmo (s : State) (n : Nat) : Time := s.fld (aPCLK_PLL_LOCK n) 15 8 * 100 * us

/-- A lock, relock or divider change begins, with the band table and the timeout as they are now (R389, R404). -/
def pllStart (s : State) (n : Nat) (t : Time) : State :=
  pllAttempt (unstand (s.modPll n (fun p => { p with tried := [], tries := 0, lockUs := 0, use := p.bands, tmo := pllTmo s n })) fPLL_FAIL n t) n .safe t

/-- A PLL reaches LOCKED; the register shows how long the lock took (R389, R404). -/
def pllLocked (s : State) (n : Nat) (t : Time) : State :=
  let p := s.pll n
  (s.modPll n (fun p => { p with st := .locked, since := t })).setReg (aPCLK_PLL_LOCKT n) (min 65535 (p.lockUs + (t - p.since) / us))

/-- An attempt fails: the next entry is tried, and the third failure is FAIL with PLL_FAIL (R389). -/
def pllAttemptFailed (s : State) (n : Nat) (t : Time) : State :=
  let s := s.modPll n (fun p => { p with tries := p.tries + 1, lockUs := p.lockUs + (t - p.since) / us })
  if 3 ≤ (s.pll n).tries then stand (s.modPll n (fun p => { p with st := .fail })) fPLL_FAIL n t
  else pllAttempt s n .band t

/-- A domain clocked by a PLL runs on the safe clock from the request of a lock to 0.2 µs after the lock, and so for good where the PLL is in FAIL
(R20, R389, R391). -/
def pllSafe (s : State) (n : Nat) : Bool :=
  match pllOf s n with
  | .safe | .band | .acquire | .fail => true
  | .locked => decide (s.clk.now < (s.pll n).since + us / 5)
  | .off => false

/-- LINKp runs on the safe clock: PLLL locks, or the port's own divider changes (R16, R20, R280). -/
def linkSafe (s : State) (p : PortIx) : Bool :=
  pllSafe s 3 || decide ((s.port p).tr.st = .rate ∧ (s.port p).tr.rateStep = .idle)

/-- SAFE_CLK of GET_STATUS (R365): some domain runs on the safe clock. -/
def safeClk (s : State) : Bool := (List.range 4).any (pllSafe s) || allPorts.any (linkSafe s)

end Sys2Proof.Machine
end

