-- ==== Sys2Proof/Machine/MemBase.lean ====
section
/-! DEFINITION. Frame memory as the other families use it: its contents, where a unit lies, the inline check word, and the
regions (R23, R180 to R188, R196, R199, R209). -/

namespace Sys2Proof.Machine

/-! ## Contents (R184, R188) -/

/-- Bytes of frame memory: 15 GiB. -/
def fmSize : Nat := 0x3C0000000
def mib : Nat := 0x100000

/-- The stored byte at an address. -/
def cellGet : List Host.Cell → Nat → Option Byte
  | [], _ => none
  | (k, v) :: r, a => if k = a then some v else cellGet r a

/-- Cells for bytes from an address on: no cell for a zero byte, none beyond the memory. -/
def cellsOf (a : Nat) (bs : List Byte) : List Host.Cell :=
  match bs with
  | [] => []
  | b :: r => if b ≠ 0 ∧ a < fmSize then (a, b) :: cellsOf (a + 1) r else cellsOf (a + 1) r

/-- Cells with the bytes of `n` addresses from `a` replaced. -/
def cellsPut (l : List Host.Cell) (a n : Nat) (new : List Host.Cell) : List Host.Cell :=
  l.filter (fun c => decide (c.1 < a)) ++ new ++ l.filter (fun c => decide (a + n ≤ c.1))

/-- The canonical form: addresses strictly rising and inside the memory, and no zero byte. -/
def Memory.wf : List Host.Cell → Bool
  | [] => true
  | [c] => decide (c.1 < fmSize) && decide (c.2 ≠ 0)
  | c :: d :: r => decide (c.1 < d.1) && decide (c.1 < fmSize) && decide (c.2 ≠ 0) && Memory.wf (d :: r)

/-- Ranges with `[a, b)` taken out. -/
def cutRange (l : List (Nat × Nat × Nat)) (a b : Nat) : List (Nat × Nat × Nat) :=
  l.flatMap (fun r =>
    (if r.1 < min r.2.1 a then [(r.1, min r.2.1 a, r.2.2)] else []) ++
    (if max r.1 b < r.2.1 then [(max r.1 b, r.2.1, r.2.2)] else []))

/-- A byte of frame memory: the one stored, a free value where the contents are undefined, otherwise 0. -/
def fmByte (s : State) (a : Nat) : Byte :=
  match cellGet s.fm a with
  | some b => b
  | none => match s.mem.undef.find? (fun r => decide (r.1 ≤ a ∧ a < r.2.1)) with
    | some r => Config.freeByte (r.2.2 * 2 ^ 34 + a)
    | none => 0

def fmRead (s : State) (a n : Nat) : List Byte := (List.range n).map (fun k => fmByte s (a + k))

/-- Store bytes. -/
def fmWrite (s : State) (a : Nat) (bs : List Byte) : State :=
  { s with fm := cellsPut s.fm a bs.length (cellsOf a bs)
           mem := { s.mem with undef := cutRange s.mem.undef a (a + bs.length) } }

/-- All of frame memory loses its contents. -/
def loseMemory (s : State) : State :=
  { s with fm := [], mem := { s.mem with gen := s.mem.gen + 1, undef := [(0, fmSize, s.mem.gen + 1)] } }

/-- The contents of a range become undefined (R188). -/
def fmForget (s : State) (a n : Nat) : State :=
  { s with fm := cellsPut s.fm a n []
           mem := { s.mem with undef := cutRange s.mem.undef a (a + n) ++ [(a, a + n, s.mem.gen + 1)], gen := s.mem.gen + 1 } }

/-! ## Controller state -/

/-- The state codes of R209. -/
def MemSt.code : MemSt → Nat
  | .off => 0 | .init => 1 | .train => 2 | .run => 3 | .change => 4 | .frozen => 5 | .unavail => 6 | .retain => 7

def memStateCode (s : State) : Nat := s.mem.st.code

/-- Frame memory is neither unavailable nor frozen (R23): it runs, or it trains or changes its bin and runs again afterwards. -/
def memUp (s : State) : Bool :=
  match s.mem.st with
  | .run => true
  | .train | .change => decide (s.mem.prior = .run)
  | _ => false

/-- Sustained capacity of a bin in MB/s (R181). -/
def binCapacity (b : Nat) : Nat := if b = 0 then 63000 else if b = 1 then 70000 else 84000

/-- `n` MEMC cycles of a bin (R181), rounded up to the model's time. -/
def memcCycles (b n : Nat) : Time := if b = 0 then divCeil (10 * n) 3 else if b = 1 then 3 * n else divCeil (5 * n) 2

/-! ## Where a unit lies (R180, R184, R185) -/

/-- DRAM unit of unit `u`. -/
def dramUnit (u : Nat) : Nat := 16 * (u / 15) + u % 15

/-- The unit of a data DRAM unit. -/
def unitOf (d : Nat) : Nat := 15 * (d / 16) + d % 16

/-- Bank queue, bank row and column unit of DRAM unit `d` under a map. -/
def place (map d : Nat) : Nat × Nat × Nat :=
  let row := bits d 27 13
  let a := map = 0
  let ch := if a then bits d 7 6 else bits d 5 4
  let sub := if a then bits d 5 5 else bits d 6 6
  let bank := if a then bits d 11 8 else bits d 10 7
  let rank := if a then bits d 12 12 else bits d 11 11
  let col := if a then bits d 4 0 else bits d 12 12 * 16 + bits d 3 0
  let c := map = 2
  let ch := if c then Nat.xor (Nat.xor ch (bits d 14 13)) (bits d 22 21) else ch
  let sub := if c then Nat.xor sub (bits d 20 20) else sub
  let bank := if c then Nat.xor (Nat.xor bank (bits d 18 15)) (bits d 26 23) else bank
  let rank := if c then Nat.xor rank (bits d 19 19) else rank
  (32 * (2 * ch + sub) + 16 * rank + bank, row, col)

def queueOf (map d : Nat) : Nat := (place map d).1

/-! ## The check word (R196) -/

/-- GF(2⁸) of the check word. -/
def gfEcc : Gf := ⟨8, 0x11D⟩

/-- The four check bytes, byte 0 the coefficient of x³. -/
def checkWord (data : List Byte) (d : Nat) : List Nat :=
  (gfEcc.parity 4 ((data ++ leBytes 4 d).map BitVec.toNat))

/-- Bytes with errors added at positions. -/
def flipBytes (bs : List Byte) (flips : List (Nat × Nat)) : List Byte :=
  bs.zipIdx.map (fun b => (flips.filter (fun f => decide (f.1 = b.2))).foldl (fun x f => x ^^^ byte f.2) b.1)

/-- The check unit of block `k`, as its data units and their check words give it (R184): the word of slot `s` at 4·s, and the CRC over bytes 0 to
59 and the unit's own D. -/
def checkUnit (s : State) (k : Nat) : List Byte :=
  let b := (List.range 15).flatMap (fun j => (checkWord (fmRead s ((15 * k + j) * 64) 64) (16 * k + j)).map byte)
  b ++ leBytes 4 (crc32c (b ++ leBytes 4 (16 * k + 15)))

/-- The CRC of a check unit holds. -/
def checkCrcOk (b : List Byte) (k : Nat) : Bool := decide (u32 b 60 = crc32c (b.take 60 ++ leBytes 4 (16 * k + 15)))

/-- The byte errors that stand in a DRAM unit; new ones; and none, once it is written. -/
def errsOf (m : Mem) (d : Nat) : List (Nat × Nat) := ((m.errs.find? (fun x => x.1 = d)).map (fun x => x.2)).getD []
def addErrs (m : Mem) (d : Nat) (l : List (Nat × Nat)) : Mem :=
  if l.isEmpty then m else { m with errs := (d, errsOf m d ++ l) :: m.errs.filter (fun x => decide (x.1 ≠ d)) }
def clearErrs (m : Mem) (d : Nat) : Mem := { m with errs := m.errs.filter (fun x => decide (x.1 ≠ d)) }

/-- The check unit of a block reads with a CRC that fails (R198). -/
def checkFails (s : State) (k : Nat) : Bool :=
  let e := errsOf s.mem (16 * k + 15)
  !e.isEmpty && !checkCrcOk (flipBytes (checkUnit s k) e) k

/-- What the decoder makes of a unit whose bytes read with errors: flips are (position 0 to 71, XOR value), where positions 0 to 63
are data bytes and 68 to 71 the check word. -/
inductive EccResult where
  | clean
  | corrected (pos val : Nat)
  | bad
  deriving DecidableEq, Repr

/-- The four syndromes of an error pattern. -/
def eccSyn (flips : List (Nat × Nat)) : List Nat :=
  (List.range 4).map (fun j => flips.foldl (fun a f =>
    Nat.xor a (gfEcc.mul (f.2 % 256) (gfEcc.pow (gfEcc.pow 2 j) (71 - f.1)))) 0)

/-- The decoder of R196: it corrects a pattern that is the error of one byte. DEDUCED: an error placed in the D bytes is detected. -/
def eccDecode (flips : List (Nat × Nat)) : EccResult :=
  let y := eccSyn flips
  if y.all (· = 0) then .clean
  else match (List.range 72).find? (fun p => !decide (64 ≤ p ∧ p < 68) && decide (eccSyn [(p, y.getD 0 0)] = y)) with
    | some p => if y.getD 0 0 = 0 then .bad else .corrected p (y.getD 0 0)
    | none => .bad

/-! ## Regions (R186, R188) -/

/-- Size of an array segment in MiB. -/
def asMib : Nat := 1920

/-- First MiB that the event ring holds. -/
def ringBase (s : State) : Nat := (8 - s.ring.nAs) * asMib

/-- End of the free range that starts at a MiB: the base of the next region, or the ring. -/
def freeEnd (s : State) (b : Nat) : Nat :=
  s.mem.regions.foldl (fun e r => if b < r.1 + r.2 then min e r.1 else e) (ringBase s)

/-- Places a free range can start at. -/
def freeStarts (s : State) : List Nat := 0 :: s.mem.regions.map (fun r => r.1 + r.2)

/-- Length of the free range from a MiB on, 0 where it is not free. -/
def freeLen (s : State) (b : Nat) : Nat :=
  if s.mem.regions.any (fun r => decide (r.1 ≤ b ∧ b < r.1 + r.2)) then 0 else freeEnd s b - b

/-- The largest free non-ring range in MiB (R211). -/
def largestFree (s : State) : Nat := maxL ((freeStarts s).map (freeLen s))

/-- The lowest base of a free range of `n` MiB. DEDUCED: R188 allocates from FMA 0 upward. -/
def findFree (s : State) (n : Nat) : Option Nat :=
  match (freeStarts s).filter (fun b => decide (n ≤ freeLen s b)) with
  | [] => none
  | b :: r => some (minL b (b :: r))

/-- Take a region at a base: its contents are undefined (R188). -/
def takeRegion (s : State) (b n : Nat) : State :=
  let s := fmForget s (b * mib) (n * mib)
  { s with mem := { s.mem with regions := s.mem.regions ++ [(b, n)] } }

def freeRegion (s : State) (r : Nat × Nat) : State :=
  { s with mem := { s.mem with regions := removeFirst (fun x => x = r) s.mem.regions } }

end Sys2Proof.Machine
end

