-- ==== Sys2Proof/Machine/OtpBase.lean ====
section
/-! DEFINITION. The OTP words and regions, and what a boot makes of them (R454 to R463). -/

namespace Sys2Proof.Machine

/-! ## The word code (R454) -/

/-- Positions 1 to 38 that hold d0 to d31. -/
def dataPos : List Nat := (List.range 39).filter (fun p => decide (2 < p ∧ p ≠ 4 ∧ p ≠ 8 ∧ p ≠ 16 ∧ p ≠ 32))

/-- XOR of the data bits whose position has bit `j` set. -/
def hamC (d j : Nat) : Bool := (dataPos.zipIdx.filter (fun p => bit p.1 j)).foldl (fun a p => xor a (bit d p.2)) false

/-- Parity of the bits `0` to `n - 1` of a word. -/
def parityOf (w n : Nat) : Bool := (List.range n).foldl (fun a k => xor a (bit w k)) false

/-- The 39-bit codeword of 32 data bits. -/
def otpEncode (d : Nat) : Nat :=
  let c := sumL ((List.range 6).map (fun j => b2n (hamC d j) * 2 ^ j))
  let w := d + c * 2 ^ 32
  w + b2n (parityOf w 38) * 2 ^ 38

/-- Data of a codeword and whether a bit was corrected; `none` for what does not decode. -/
def otpDecode (w : Nat) : Option (Nat × Bool) :=
  let d := w % 2 ^ 32
  let syn := sumL ((List.range 6).map (fun j => b2n (xor (hamC d j) (bit w (32 + j))) * 2 ^ j))
  let odd := parityOf w 39
  if syn = 0 then some (d, odd)
  else if odd && decide (syn ≤ 38) then
    match dataPos.zipIdx.find? (fun p => p.1 = syn) with
    | some p => some (Nat.xor d (2 ^ p.2), true)
    | none => some (d, true)
  else none

/-! ## Cells -/

def cellAt (cells : List OtpCell) (a : Nat) : OtpCell := (cells.find? (fun c => c.addr = a)).getD ⟨a, 0, 0⟩

/-- The accepted data of a word (R459), and whether a read corrected it. -/
def acceptCell (c : OtpCell) : Option (Nat × Bool) :=
  match otpDecode c.norm, otpDecode c.strict with
  | some (a, x), some (b, y) => if a = b then some (a, x || y) else none
  | _, _ => none

def otpWord (cells : List OtpCell) (a : Nat) : Option Nat := (acceptCell (cellAt cells a)).map (·.1)

/-- A word that is not blank at the normal margin. -/
def programmed (cells : List OtpCell) (a : Nat) : Bool :=
  let c := cellAt cells a
  decide (c.norm ≠ 0) || decide (c.strict ≠ 0)

/-! ## Regions (R455) -/

/-- First word of copy A, words of a copy, first word of copy B. -/
def regionSpan (r : Nat) : Nat × Nat × Option Nat :=
  match r with
  | 0 => (0x0000, 32, some 0x0020) | 1 => (0x0040, 8, some 0x0048) | 2 => (0x0080, 64, some 0x00C0)
  | 3 => (0x0200, 800, some 0x0520) | 4 => (0x0840, 128, none) | 5 => (0x08C0, 128, none)
  | 6 => (0x0940, 256, none) | 7 => (0x0A40, 5568, none) | _ => (0x2000, 8176, none)

/-- Body words of a region without the CRC word, and the index of the CRC word. -/
def regionBody (r : Nat) : Nat × Nat :=
  match r with
  | 0 => (31, 31) | 1 => (1, 7) | 2 => (15, 15) | 3 => (287, 287) | 4 => (1, 1) | 5 => (1, 1)
  | 6 => (255, 255) | 7 => (5567, 5567) | _ => (8159, 8175)

def lockAddr (r : Nat) : Nat := 0x3FF0 + r
def killAddr : Nat := 0x3FF9

/-- The region and word index of an address, with the copy it lies in. -/
def regionOf (a : Nat) : Option (Nat × Nat × Bool) :=
  (List.range 9).findSome? (fun r =>
    let (b, n, c) := regionSpan r
    if b ≤ a ∧ a < b + n then some (r, a - b, false)
    else match c with
      | some b' => if b' ≤ a ∧ a < b' + n then some (r, a - b', true) else none
      | none => none)

/-- Lock word of a region set (R461). -/
def regionLocked (cells : List OtpCell) (r : Nat) : Bool := programmed cells (lockAddr r)
def killSet (cells : List OtpCell) : Bool := programmed cells killAddr

/-- Word `k` of a copy, substituted from the other copy (R460). -/
def copyWord (cells : List OtpCell) (r k : Nat) (copyB : Bool) : Option Nat :=
  let (a, _, b) := regionSpan r
  match b with
  | none => otpWord cells (a + k)
  | some b =>
    let (p, q) := if copyB then (b, a) else (a, b)
    match otpWord cells (p + k) with
    | some v => some v
    | none => otpWord cells (q + k)

def copyWordD (cells : List OtpCell) (r : Nat) (copyB : Bool) (k : Nat) : Nat := (copyWord cells r k copyB).getD 0

/-- CRC-32C over words, each as four little-endian bytes (R456). -/
def wordsCrc (ws : List Nat) : Nat := crc32c (ws.flatMap (leBytes 4))

/-- Instances of a region: first word, length (R458). Lifecycle markers and steps are not CRC instances. -/
def instancesOf (r : Nat) : List (Nat × Nat) :=
  match r with
  | 2 => (List.range 4).map (fun i => (16 + 4 * i, 4)) ++ (List.range 4).map (fun i => (32 + 4 * i, 4))
  | 3 => (List.range 4).flatMap (fun s => (List.range 8).map (fun i => (288 + 128 * s + 16 * i, 16)))
  | _ => []

/-- State of an instance: blank, incomplete, valid or broken. -/
inductive InstSt where
  | blank | incomplete | valid | broken
  deriving DecidableEq, Repr

def instSt (w : Nat → Nat) (i : Nat × Nat) : InstSt :=
  let body := (List.range (i.2 - 1)).map (fun k => w (i.1 + k))
  let c := w (i.1 + i.2 - 1)
  if c = 0 then (if body.all (· = 0) then .blank else .incomplete)
  else if c = wordsCrc body then .valid else .broken

/-- Words of a region outside the body, whose misreading has a meaning of its own (R460). -/
def softWord (r k : Nat) : Bool :=
  match r with
  | 4 => decide (2 ≤ k ∧ k < 66)
  | 5 => decide (2 ≤ k ∧ k < 66)
  | 6 => true
  | 8 => decide (8159 ≤ k ∧ k < 8175)
  | _ => false

/-- Words of region `r` that are listed in `cells` and not accepted, by word index and copy. -/
def badWords (cells : List OtpCell) (r : Nat) : List (Nat × Bool) :=
  cells.filterMap (fun c => match regionOf c.addr with
    | some (q, k, b) => if q = r ∧ (acceptCell c).isNone then some (k, b) else none
    | none => none)

/-- One copy passes the checks of R462. -/
def copyOk (cells : List OtpCell) (r : Nat) (copyB : Bool) : Bool :=
  let w := copyWordD cells r copyB
  let (n, ci) := regionBody r
  let crcProg := decide (w ci ≠ 0)
  let badCust := decide (r = 6) && !(badWords cells 6).isEmpty
  let crcOk := badCust || ((!crcProg && !regionLocked cells r) || decide (w ci = wordsCrc ((List.range n).map w)))
  let instOk := (instancesOf r).all (fun i => decide (instSt w i ≠ .broken))
  let markOk := decide (r ≠ 1) || ([1, 2, 3, 4].all (fun m => decide (w m = 0 ∨ w m = 0x4C430000 + m)))
  crcOk && instOk && markOk

/-- What the boot makes of a region (R460, R462). -/
def evalRegion (cells : List OtpCell) (r : Nat) : OtpRegion :=
  let (a, _, b) := regionSpan r
  let bad := badWords cells r
  let lostHard := match b with
    | some b => bad.any (fun k => (otpWord cells (a + k.1)).isNone && (otpWord cells (b + k.1)).isNone)
    | none => bad.any (fun k => !softWord r k.1)
  let subst := match b with
    | some b => countIf (fun k : Nat × Bool => (otpWord cells ((if k.2 then a else b) + k.1)).isSome) bad
    | none => 0
  let okA := copyOk cells r false
  let okB := b.isSome && copyOk cells r true
  let (_, ci) := regionBody r
  let useB := !okA && okB
  let prog := decide (copyWordD cells r useB ci ≠ 0)
  { locked := regionLocked cells r, crcProg := prog
    crcOk := prog && (okA || okB) && !(decide (r = 6) && !bad.isEmpty), copyB := useB
    failed := lostHard || !(okA || okB), subst := subst }

/-- Words of the region as the latest boot took them; none where the region failed. -/
def bootWords (s : State) (r n : Nat) : List Nat :=
  match s.otp.regions[r]? with
  | some g => if g.failed then [] else (List.range n).map (copyWordD s.otp.bootCells r g.copyB)
  | none => []

/-- The words of TRIM: none stand for the nominal values of ROM (R463). -/
def trimWords (s : State) : List Nat := bootWords s 7 5567

end Sys2Proof.Machine
end

