-- ==== Sys2Proof/Machine/ArrayGeo.lean ====
section
/-! DEFINITION. What a settings set implies by itself: kinds, slots, exposure limits, the merge window and the checks
of a commit (R30, R45, R51 to R68, R106 to R109). Times are in half nanoseconds. T_read is kept exact, in 1/96 of a half nanosecond. -/

namespace Sys2Proof.Machine

/-- A tick of 100 ns (R60). -/
def tick : Time := 200

/-- Exposures beyond EXP0 that a mode uses, the J of R55. -/
def Settings.lastExp (s : Settings) : Nat := if s.mode ≤ 2 then 0 else s.mode - 2

/-- Whether EXPj has DCG (R51). -/
def Settings.hasDcg (s : Settings) (j : Nat) : Bool :=
  if s.mode = 1 then false else if s.mode = 2 then true else bit s.dcg j

/-- K_j of R106. -/
def Settings.kinds (s : Settings) (j : Nat) : Nat := if s.hasDcg j then 2 else 1

/-- S (R51). -/
def Settings.S (s : Settings) : Nat := sumL ((List.range (s.lastExp + 1)).map s.kinds)

/-- Index of the first kind of EXPj, the q_a of R62. -/
def Settings.qa (s : Settings) (j : Nat) : Nat := sumL ((List.range j).map s.kinds)

/-- Index of the last kind of EXPj, the q_z of R62. -/
def Settings.qz (s : Settings) (j : Nat) : Nat := s.qa j + s.kinds j - 1

/-- Exposure of kind q. -/
def Settings.expOf (s : Settings) (q : Nat) : Nat :=
  ((List.range (s.lastExp + 1)).find? (fun j => decide (q ≤ s.qz j))).getD 0

/-- Whether kind q is an LCG sample-row. -/
def Settings.isLcg (s : Settings) (q : Nat) : Bool := s.hasDcg (s.expOf q) && decide (q = s.qz (s.expOf q))

/-- Rows per tile per sample (R45). -/
def Settings.rows (s : Settings) : Nat := if s.bin then s.rowCount / 2 else s.rowCount

/-- Codes in a tile line (R39). -/
def Settings.lineLen (s : Settings) : Nat := if s.bin then 256 else 512

/-- D_j of R55. -/
def Settings.D (s : Settings) (j : Nat) : Nat := [0, s.d1, s.d2, s.d3].getD j 0

/-- D_J. -/
def Settings.DJ (s : Settings) : Nat := s.D s.lastExp

/-- Row slot of R31. -/
def Settings.slot (s : Settings) : Time := if s.res10 then 2600 else 4800

/-- Transfer offset t_x of R60. -/
def Settings.tx (s : Settings) : Time := if s.res10 then 800 else 700

/-- Slot count N of R53. -/
def Settings.N (s : Settings) : Nat := s.rows * s.S

/-- Whether folded rows are read in the next frame (R56). -/
def Settings.fold (s : Settings) : Bool := decide (s.tail = 0 ∧ s.trig = 0)

/-- Tile row that a sample-row index names (R54); with binning the first row of its pair. -/
def Settings.tileRow (s : Settings) (i : Nat) : Nat :=
  if s.bin then s.rowFirst + 4 * (i / 2) + i % 2 else s.rowFirst + i

/-- Row of the tile's image that sample-row i makes: the tile row, or the binned row of R40. -/
def Settings.imageRow (s : Settings) (i : Nat) : Nat := if s.bin then s.rowFirst / 2 + i else s.rowFirst + i

def Settings.tile (s : Settings) (t : TileIx) : TileSet := s.tiles.getD t.val TileSet.reset

/-- Slices of EXPj: 1 when it is not sliced (R66). -/
def Settings.slices (s : Settings) (j : Nat) : Nat := if j = 0 then s.n0 else if j = 1 then s.n1 else 1
def Settings.win (s : Settings) (j : Nat) : Nat := if j = 0 then s.w0 else if j = 1 then s.w1 else 0
def Settings.sliced (s : Settings) (j : Nat) : Bool := decide (1 < s.slices j ∧ j ≤ s.lastExp)

/-- Length of an exposure in ticks as R60 counts it back from IEND: W when sliced. -/
def Settings.span (s : Settings) (t : TileIx) (j : Nat) : Nat :=
  if s.sliced j then s.win j else (s.tile t).ticks.getD j 1

def allTiles : List TileIx := List.finRange 192

/-- The enabled, unkilled tiles (R42, R44). -/
def effEn (s : Settings) (killed : List TileIx) : List Bool :=
  allTiles.map (fun t => (s.tile t).en && !killed.contains t)

/-- E_lead of R70: the longest EXP0 span over the enabled tiles. -/
def leadTicks (s : Settings) (en : List Bool) : Nat :=
  maxL ((allTiles.filter (fun t => en.getD t.val false)).map (fun t => s.span t 0))

/-! ## Slots -/

/-- Start of slot `k` after IS (R53, R56): 2.5 ns × floor(k × T_read / (N × 2.5 ns)). -/
def slotOff (s : Settings) (tread k : Nat) : Time := 5 * (k * tread / (s.N * 480))

/-- T_read for N_mos and N_live (R12). -/
def treadOf (s : Settings) (mos live : Nat) : Nat :=
  max (s.N * s.slot * 96) (max (mos * 20) (live * 25))

/-- The three terms of P_min (R45), in the units of T_read. -/
def pminTerms (s : Settings) (tread : Nat) : List Nat :=
  [800000000, tread + 100000 * 96, s.N * s.slot * 160]

def pminOf (s : Settings) (tread : Nat) : Nat := maxL (pminTerms s tread)

/-- The binding term: the lowest code among the largest (R46). -/
def pminSrc (s : Settings) (tread : Nat) : Nat :=
  ((pminTerms s tread).findIdx? (fun v => v = pminOf s tread)).getD 0

/-- Nanoseconds of a span in the units of T_read. DESIGN CHOICE: to the nearest, where R93 gives no rounding (log entry 21). -/
def spanNs (v : Nat) : Nat := divRound v 192

/-- Slots of the tail: D_J cycles (R56, R58). -/
def Settings.tailSlots (s : Settings) : Nat := s.DJ * s.S

/-! ## Checks of a set (R55, R57, R61 to R67, R93) -/

def offsetsOk (s : Settings) : Bool :=
  let J := s.lastExp
  let ds := (List.range (J + 1)).map s.D
  (List.zipWith (fun a b => decide (a ≤ b)) ds (ds.drop 1)).all id &&
  decide (s.DJ ≤ s.rows - 1) && ((List.range 4).filter (fun j => decide (J < j))).all (fun j => s.D j = 0)

/-- Start of kind q of cycle m relative to IS(F), folded cycles being those of F + 1 (R56). -/
def cycOff (s : Settings) (tread m q : Nat) : Time :=
  if s.fold && decide (s.rows ≤ m) then s.period * tick + slotOff s tread ((m - s.rows) * s.S + q)
  else slotOff s tread (m * s.S + q)

/-- `ARRAY_ELIMj` (R61, R62): the largest whole ticks that keep ISTART 100 ns after the release for every row. -/
def elim (s : Settings) (tread j : Nat) : Nat :=
  if s.lastExp < j || !offsetsOk s then 0
  else if j = 0 && decide (s.trig ≠ 0) then 16777215
  else
    let gap (i : Nat) : Int :=
      let start : Int := cycOff s tread (i + s.D j) (s.qa j) + s.tx
      let release : Int :=
        if j = 0 then (cycOff s tread (i + s.DJ) (s.qz s.lastExp) + s.slot : Nat) - (s.period * tick : Nat)
        else (cycOff s tread (i + s.D (j - 1)) (s.qz (j - 1)) + s.slot : Nat)
      (start - release - tick) / (tick : Int)
    let least := (List.range s.rows).foldl (fun m i => min m (gap i)) 16777215
    least.toNat

/-- W_m of R106. -/
def window (s : Settings) : Nat :=
  sumL ((List.range s.lastExp).map (fun j => s.kinds j * (s.DJ - s.D j + 1)))

/-- Number of exposures that spill (R108): whole exposures in the order 0, 1, … until the local need fits. -/
def spillCount (s : Settings) : Nat :=
  let loc (n : Nat) : Nat := sumL ((List.range s.lastExp).map (fun j =>
    if j < n then 2 * s.kinds j else s.kinds j * (s.DJ - s.D j + 1)))
  ((List.range (s.lastExp + 1)).find? (fun n => decide (loc n ≤ 160))).getD s.lastExp

/-- Local slots needed (R108). -/
def localSlots (s : Settings) : Nat :=
  sumL ((List.range s.lastExp).map (fun j =>
    if j < spillCount s then 2 * s.kinds j else s.kinds j * (s.DJ - s.D j + 1)))

/-- SPILL_MASK: bit q for each spilled kind. -/
def spillMask (s : Settings) : Nat := 2 ^ (s.qa (spillCount s)) - 1

/-- Held sample-rows of the spilled kinds per tile: Σ K_j × (D_J − D_j + 1) (R109). -/
def spillRowsPerTile (s : Settings) : Nat :=
  sumL ((List.range (spillCount s)).map (fun j => s.kinds j * (s.DJ - s.D j + 1)))

/-- Bytes of the tile-spill region (R109). -/
def spillBytes (s : Settings) (nen : Nat) : Nat := 768 * nen * spillRowsPerTile s

/-- Spilled samples of a frame, which count in N_mos (R109). -/
def spillSamples (s : Settings) (nen : Nat) : Nat :=
  s.rows * sumL ((List.range (spillCount s)).map s.kinds) * nen * 512

/-- The failing checks of `ARRAY_STG_STAT` (R93), lowest first. `spillOk` tells whether spill merge is available. DESIGN CHOICE: a slice window below E,
which R63 gives reason 3 or 4, shows 3 (log entry 21). -/
def failing (s : Settings) (tread : Nat) (spillOk : Bool) : List Nat :=
  let J := s.lastExp
  let js := List.range (J + 1)
  let ok := offsetsOk s
  let lim := js.map (elim s tread)
  let sl := js.filter (fun j => s.sliced j)
  let e (t : TileSet) (j : Nat) : Nat := t.ticks.getD j 1
  let order := s.tiles.all (fun t => (List.range J).all (fun j => decide (e t (j + 1) ≤ e t j)) &&
    sl.all (fun j => decide (e t j ≤ s.win j)))
  let within := !ok || s.tiles.all (fun t => js.all (fun j =>
    decide ((if s.sliced j then s.win j else e t j) ≤ lim.getD j 0)))
  let slices := sl.all (fun j => decide (s.win j ≤ 160000) &&
    s.tiles.all (fun t => decide (divCeil (e t j) (s.slices j) + 1 ≤ s.win j / s.slices j)))
  let tailOk := !ok || s.tail ≠ 1 || s.trig ≠ 0 ||
    decide (100000 + slotOff s tread ((s.rows + s.DJ) * s.S - 1) + s.slot < s.period * tick)
  let dcgOk := decide (s.dcg = 0) || (decide (3 ≤ s.mode) && decide (s.dcg < 2 ^ (J + 1)))
  let r (n : Nat) (good : Bool) : List Nat := if good then [] else [n]
  r 1 (decide (s.S ≤ 8)) ++ r 2 (s.trig ≠ 0 || decide (pminOf s tread ≤ s.period * tick * 96)) ++ r 3 order ++
  r 4 within ++ r 5 ok ++ r 6 (decide (window s ≤ 160) || spillOk) ++ r 7 slices ++ r 8 tailOk ++ r 9 dcgOk

/-- The structural fields of R58, T_read apart. -/
def structDiff (a b : Settings) : Bool :=
  !(decide (a.mode = b.mode ∧ a.dcg = b.dcg ∧ a.res10 = b.res10 ∧ a.bin = b.bin ∧ a.rowFirst = b.rowFirst ∧
    a.rowCount = b.rowCount ∧ a.d1 = b.d1 ∧ a.d2 = b.d2 ∧ a.d3 = b.d3 ∧ a.tail = b.tail ∧ a.trig = b.trig))

/-! ## Slices (R67, R68) -/

/-- One shift of the LFSR. -/
def lfsrShift (v : Nat) : Nat :=
  let b := Nat.xor (Nat.xor (v % 2) (v / 4 % 2)) (Nat.xor (v / 8 % 2) (v / 32 % 2))
  v / 2 + b * 2 ^ 15

/-- One draw: sixteen shifts (R68). -/
def lfsrDraw (v : Nat) : Nat := (List.range 16).foldl (fun v _ => lfsrShift v) v

/-- `n` draws: the values in order, and the state after them. -/
def lfsrDraws : Nat → Nat → List Nat × Nat
  | 0, v => ([], v)
  | n + 1, v =>
    let w := lfsrDraw v
    let r := lfsrDraws n w
    (w :: r.1, r.2)

/-- Start tick and length in ticks of slice `i` of an exposure of `e` ticks in a window of `w` ticks cut into `n`
slices, for draw `r` (R67). -/
def slicePlace (e w n i r : Nat) : Nat × Nat :=
  let wd := w / n
  let len := e / n + (if i < e % n then 1 else 0)
  let room := wd - len - 1
  (i * wd + r * (room + 1) / 65536, len)

end Sys2Proof.Machine
end

