-- ==== Sys2Proof/Machine/Engines.lean ====
section
/-! DEFINITION. The arithmetic of a tile engine, stage by stage (R94 to R121). Samples and codes are lists over the columns of
one tile. -/

namespace Sys2Proof.Machine

/-- Arithmetic shift right of a signed number. -/
def sar (v : Int) (k : Nat) : Int := v / (2 ^ k : Int)

/-- `v` held between two bounds. -/
def clampI (v lo hi : Int) : Int := max lo (min v hi)

/-! ## Stage 1 (R32, R96, R97) -/

/-- Full scale of the reset and of the signal count. -/
def rfs (res10 : Bool) : Nat := if res10 then 252 else 255
def sfs (res10 : Bool) : Nat := if res10 then 4092 else 4095

/-- Counts as the converter delivers them: shifted left by 2 bits in 10-bit mode (R32). -/
def scaleCounts (res10 : Bool) (rs : Nat × Nat) : Nat × Nat :=
  if res10 then (rs.1 % 64 * 4, rs.2 % 1024 * 4) else (rs.1 % 256, rs.2 % 4096)

/-- D_c and the unusable flag. -/
def stage1 (res10 lcg : Bool) (err : Int) (rs : Nat × Nat) : Int × Bool :=
  let d : Int := if lcg then rs.2 + rs.1 - rfs res10 else rs.2 - rs.1
  (sar (d * (65536 + err) + 2048) 12, decide (rs.2 = sfs res10) || decide (rs.1 = rfs res10))

/-! ## Stage 2 (R98 to R100) -/

/-- The reference mean at analog gain 1.0. -/
def refOne (ref ag : Nat) : Int := (ref * 16 / max ag 1 : Nat)

/-- The filtered offset after a reference mean. -/
def offStep (off : Int) (alpha : Nat) (one : Int) : Int :=
  if alpha = 0 then one else off + sar (one - off + 2 ^ (alpha - 1)) alpha

/-- BLK of a kind (R99). -/
def blkOf (off : Int) (ag dr t kdcg : Nat) (lcg : Bool) : Int :=
  let o := sar (off * ag + 8) 4
  let dk := dr * t * ag / 2 ^ 20
  o + (if lcg then dk * 256 / max kdcg 1 else dk : Nat)

/-- The sample code H (R100). -/
def hCode (dc blk : Int) (u : Bool) : Nat := if u then 4095 else (clampI (sar (dc - blk + 8) 4 + 16) 0 4094).toNat

/-- h of a code, in LSB. -/
def hVal (h : Nat) : Int := (h : Int) - 16

/-! ## Stage 3 (R101 to R103) -/

/-- Columns that the static table lists in a sample-row: the column, the partner kind of R102, and the side it looks to. -/
structure Listed where
  x : Nat
  pair : Nat                -- 0 pixel or column, 1 the X of a pair, 2 its X + 2
  deriving DecidableEq, Repr

def defectTile (w : Nat) : Nat := bits w 31 24
def defectY (w : Nat) : Nat := bits w 23 15
def defectX (w : Nat) : Nat := bits w 14 6
def defectKind (w : Nat) : Nat := bits w 5 3

/-- The static entries of a tile, at most 64 (R101). -/
def tileDefects (all : List Nat) (t : Nat) : List Nat := (all.filter (fun w => defectTile w = t)).take 64

/-- What an entry lists in the sample-row that holds tile rows `rows`. -/
def listedIn (rows : List Nat) (w : Nat) : List Listed :=
  let here := rows.contains (defectY w)
  match defectKind w with
  | 0 => if here then [⟨defectX w, 0⟩] else []
  | 1 => if here then [⟨defectX w, 1⟩, ⟨defectX w + 2, 2⟩] else []
  | 2 => [⟨defectX w, 0⟩]
  | _ => []

/-- The usable neighbour at distance 2 to one side, or at distance 4 where that one is listed. -/
def sideOf (h : List Nat) (bad : List Nat) (x : Nat) (left : Bool) : Option Nat :=
  let get (k : Nat) : Option Nat :=
    if left then (if k ≤ x then h[x - k]? else none) else h[x + k]?
  let isBad (k : Nat) : Bool := bad.contains (if left then x - k else x + k) && (!left || decide (k ≤ x))
  let k := if isBad 2 then 4 else 2
  if isBad k then none
  else match get k with
    | some v => if v = 4095 then none else some v
    | none => none

/-- The replacement of a listed sample (R102). -/
def sdcOne (h : List Nat) (bad : List Nat) (l : Listed) : Nat :=
  let a := sideOf h bad l.x true
  let b := sideOf h bad l.x false
  let one (p q : Option Nat) : Nat := match p with | some v => v | none => q.getD 4095
  match l.pair with
  | 1 => one a b
  | 2 => one b a
  | _ => match a, b with
    | some v, some w => (v + w + 1) / 2
    | some v, none => v
    | none, some w => w
    | none, none => 4095

/-- Static correction of a sample-row. DESIGN CHOICE: of two entries that list one column, the first in the table decides (log entry 27). -/
def sdcRow (h : List Nat) (ls : List Listed) : List Nat :=
  let bad := ls.map Listed.x
  h.zipIdx.map (fun p => match ls.find? (fun l => l.x = p.2) with
    | some l => sdcOne h bad l
    | none => p.1)

/-- Dynamic correction of one sample: its code, and whether it was capped or lowered. DESIGN CHOICE: h of an unusable sample, which R100 does not
give, is 4,079 (log entry 27). -/
def ddcOne (h : List Nat) (thAbs thRel : Nat) (x : Nat) : Nat × Nat × Nat :=
  let v := h.getD x 0
  let at_ (ok : Bool) (i : Nat) : List Nat := if ok then (match h[i]? with | some n => if n = 4095 then [] else [n] | none => []) else []
  let ns := at_ (decide (4 ≤ x)) (x - 4) ++ at_ (decide (2 ≤ x)) (x - 2) ++ at_ true (x + 2) ++ at_ true (x + 4)
  if ns.length < 2 then (v, 0, 0)
  else
    let mx := hVal (maxL ns)
    let mn := hVal (minL 0 ns)
    let hi := max (thAbs : Int) (sar (mx * thRel) 8)
    let lo := max (thAbs : Int) (sar (mn * thRel) 8)
    let hv := hVal v
    if v = 4095 ∧ mx < 2048 then (maxL ns, 1, 0)
    else if mx + hi < hv then (maxL ns, 1, 0)
    else if hv < mn - lo then (minL 0 ns, 0, 1)
    else (v, 0, 0)

/-- Dynamic correction of a sample-row: the codes, and the hot and cold counts. -/
def ddcRow (h : List Nat) (done : List Nat) (thAbs thRel : Nat) : List Nat × Nat × Nat :=
  let r := (List.range h.length).map (fun x => if done.contains x then (h.getD x 0, 0, 0) else ddcOne h thAbs thRel x)
  (r.map (·.1), sumL (r.map (fun v => v.2.1)), sumL (r.map (fun v => v.2.2)))

/-! ## Stage 4 (R112, R113) -/

/-- Column binning: sums of two same-colour columns, `none` where either is unusable (R112). -/
def binCols (bin : Bool) (h : List Nat) : List (Option Int) :=
  let v (n : Nat) : Option Int := if n = 4095 then none else some (hVal n)
  if bin then
    (List.range (h.length / 2)).map (fun u =>
      match v (h.getD (4 * (u / 2) + u % 2) 4095), v (h.getD (4 * (u / 2) + u % 2 + 2) 4095) with
      | some a, some b => some (a + b)
      | _, _ => none)
  else h.map v

/-- Value of an unusable sample in LSB, where the arithmetic reads it. -/
def uVal : Option Int → Int
  | some v => v
  | none => 4079

/-- The exposure value of one pixel and its unusable flag (R113). -/
def stage4 (dcg : Bool) (k t0 ws : Nat) (hh ll : Option Int) : Int × Bool :=
  if dcg then
    let lcg := sar (uVal ll * k) 4
    let a :=
      match hh with
      | none => lcg
      | some v =>
        if v < t0 then v * 16
        else if (t0 + 2 ^ ws : Nat) ≤ v then lcg
        else
          let b := sar ((v - t0) * 256) ws
          sar (v * 16 * (256 - b) + lcg * b + 128) 8
    (a, ll.isNone)
  else (uVal hh * 16, hh.isNone)

/-! ## Stages 5 and 6 (R114 to R116) -/

/-- Mantissa and shift of F_j (R114). -/
def normOf (ref ag t : Nat) (bin : Bool) : Nat × Nat :=
  let num := 4 * ref
  let den := max 1 (ag * t * (if bin then 4 else 1))
  let sh := ((List.range 64).find? (fun k => decide (2 ^ 31 * den ≤ num * 2 ^ k))).getD 63
  let m := divRound (num * 2 ^ sh) den
  if 2 ^ 32 ≤ m then (2 ^ 31, sh - 1) else (m, sh)

/-- What stage 5 reads of one exposure. -/
structure ExpVal where
  a : Int
  u : Bool
  s0 : Nat
  ws : Nat
  mant : Nat
  sh : Nat
  deriving DecidableEq, Repr

/-- r_j, in 1/256 code. -/
def ExpVal.r (e : ExpVal) : Int := sar (e.a * e.mant) (e.sh - 8)

/-- The blend from the first usable exposure on (R115): the sum in 1/65536 code. -/
def blend : List ExpVal → Option Int
  | [] => none
  | [e] => if e.u then none else some (e.r * 256)
  | e :: f :: rest =>
    if e.u then blend (f :: rest)
    else if f.u || decide (e.a < (e.s0 * 16 : Nat)) then some (e.r * 256)
    else if ((e.s0 + 2 ^ e.ws) * 16 : Nat) ≤ e.a then blend (f :: rest)
    else
      let b := sar (e.a - (e.s0 * 16 : Nat)) (e.ws - 4)
      some (e.r * (256 - b) + (if b = 0 then 0 else f.r * b))

/-- The radiance code of a pixel. -/
def radiance (ped : Nat) (es : List ExpVal) : Nat :=
  match blend es with
  | none => 0xFFFFFF
  | some acc => (clampI (ped + sar (acc + 32768) 16) 0 0xFFFFFF).toNat

/-! ## Test patterns (R121) -/

/-- Patterns 1 to 3: code at position (u, v) of tile `t`; binned positions with `bin`. -/
def patternCode (pat t u v : Nat) (bin : Bool) : Nat :=
  let side := if bin then 256 else 512
  let x := side * (t % 16) + u
  let y := side * (t / 16) + v
  match pat with
  | 1 => if u = 0 ∨ v = 0 then 0xFFFFFF
         else t * 65536 + (if bin then v else v / 2) * 256 + (if bin then u else u / 2)
  | 2 => (if bin then 2048 else 1024) * (x + y)
  | _ =>
    let n := x / (if bin then 512 else 1024)
    let on := if v % 2 = 0 then (if u % 2 = 0 then bit n 2 else bit n 1) else (if u % 2 = 0 then bit n 1 else bit n 0)
    if on then 0x800000 else 0

/-- Pattern 4: D_c at column `u` of sample-row `i`, kind `q`. -/
def rampDc (u i q : Nat) : Int := (16 * ((u + i + 97 * q) % 4032) : Nat)

/-- Whether a pattern replaces the stage 6 output. -/
def codePattern (pat : Nat) : Bool := decide (1 ≤ pat ∧ pat ≤ 3)

/-! ## SAMPLES values (R120) -/

def sampleVal (dg h : Nat) : Nat :=
  if h = 4095 then 4095 else (min (4094 : Int) (max 0 (sar (hVal h * dg + 512) 10) + 16)).toNat

/-! ## Statistics (R117 to R119) -/

/-- floor(log2 v). -/
def log2 (v : Nat) : Nat := Nat.log2 v

/-- Histogram bin with `m` bits below the leading one kept, and the last bin (R118). -/
def histBin (hbase m last v : Nat) : Nat :=
  if v < 2 ^ hbase then 0
  else
    let e := log2 v
    min last (2 ^ m * (e - hbase) + v / 2 ^ (e - m) % 2 ^ m)

/-- Count one more in a bin of a sparse histogram, which saturates at `w` bits. -/
def histAdd (h : List (Nat × Nat)) (b n w : Nat) : List (Nat × Nat) :=
  match h with
  | [] => [(b, min n (2 ^ w - 1))]
  | (k, c) :: r =>
    if k = b then (k, satAdd w c n) :: r
    else if b < k then (b, min n (2 ^ w - 1)) :: (k, c) :: r
    else (k, c) :: histAdd r b n w

def histGet (h : List (Nat × Nat)) (b : Nat) : Nat :=
  match h with
  | [] => 0
  | (k, c) :: r => if k = b then c else histGet r b

/-- Sum of a histogram over a range of bins. -/
def histSum (h : List (Nat × Nat)) (lo hi : Nat) : Nat :=
  sumL ((h.filter (fun p => decide (lo ≤ p.1 ∧ p.1 ≤ hi))).map (·.2))

def histMerge (a b : List (Nat × Nat)) (w : Nat) : List (Nat × Nat) := b.foldl (fun h p => histAdd h p.1 p.2 w) a

/-- Mean of a sum, halves upward; 0 over no samples (R119). -/
def meanOf (sum n : Nat) : Nat := if n = 0 then 0 else divRound sum n

/-- Colour channel of a pixel: 0 R, 1 Gr, 2 Gb, 3 B (R3). -/
def chanOf (u v : Nat) : Nat := 2 * (v % 2) + u % 2

/-- The governor's EXP0 green samples of a sample-row (R117): sum of the usable ones, clipped, counted. -/
def govRow (h : List Nat) (odd : Bool) (dg : Nat) : Nat × Nat × Nat :=
  let g := (h.zipIdx.filter (fun p => decide (p.2 % 2 = if odd then 0 else 1))).map (·.1)
  (sumL ((g.filter (· ≠ 4095)).map (fun v => (clampI (sar (hVal v * dg * 16 + 512) 10) 0 65520).toNat)),
   countIf (· = 4095) g, g.length)

/-- Zone sums, counts, saturated pixels and channel histograms over one line of codes. -/
def zoneRow (codes : List Nat) (v ped hbase : Nat) :
    List Nat × List Nat × Nat × List (List (Nat × Nat)) :=
  let part (c : Nat) : List Nat := (codes.zipIdx.filter (fun p => decide (chanOf p.2 v = c))).map (·.1)
  let vals (c : Nat) : List Nat := ((part c).filter (· ≠ 0xFFFFFF)).map (· - ped)
  ((List.range 4).map (fun c => sumL (vals c)),
   (List.range 4).map (fun c => (vals c).length),
   countIf (· = 0xFFFFFF) codes,
   (List.range 4).map (fun c => (part c).foldl (fun h p =>
     histAdd h (if p = 0xFFFFFF then 255 else histBin hbase 4 255 (p - ped)) 1 17) []))

/-- Tile histogram of a row of cells: the even row's codes and the odd row's (R117). -/
def cellRow (up dn : List Nat) (ped hbase : Nat) (h : List (Nat × Nat)) : List (Nat × Nat) :=
  (List.range (up.length / 2)).foldl (fun h k =>
    let p := [up.getD (2 * k) 0, up.getD (2 * k + 1) 0, dn.getD (2 * k) 0, dn.getD (2 * k + 1) 0]
    let b := if p.contains 0xFFFFFF then 63 else histBin hbase 2 63 ((sumL (p.map (· - ped)) + 2) / 4)
    histAdd h b 1 17) h

/-! ## The dark model (R417, R418) -/

/-- DR of a tile (R417). -/
def darkDr (dr60 s factor : Nat) : Nat := min 65535 (divRound (dr60 * s * factor) (2 ^ 32))

/-- s_b after a frame (R418): `meas` the measured term, `mdl` the model's in 1/2^24. -/
def borderScale (s : Nat) (meas : Int) (mdl : Nat) : Nat :=
  if mdl = 0 then s
  else (clampI (s + sar (Int.tdiv (meas * 256 * 2 ^ 24) mdl - s) 4) 128 512).toNat

end Sys2Proof.Machine
end

