-- ==== Sys2Proof/Machine/ViewGeo.lean ====
section
/-! DEFINITION. The geometry of views: windows, output sizes, boxes and taps, line memory and contexts, the codes that a frame
puts on the mosaic bus and sends into the pipeline, and the decimation cycle (R11, R12, R38, R126, R130 to R133, R136, R147 to
R151). -/

namespace Sys2Proof.Machine

/-! ## Formats (R133) -/

def isBayer (p : ViewP) : Bool := decide (1 ≤ p.format ∧ p.format ≤ 4)
def isRgb (p : ViewP) : Bool := decide (0x10 ≤ p.format ∧ p.format ≤ 0x12)
def isSamples (p : ViewP) : Bool := decide (p.format = 5)
def isAuxRaw (p : ViewP) : Bool := decide (p.format = 0x20)

/-- Bytes per 16 pixels; AUXRAW by its bytes per sample. -/
def bytes16 (format held : Nat) : Nat :=
  match format with
  | 1 => 48 | 2 => 24 | 3 => 28 | 4 => 32 | 5 => 32 | 0x10 => 32 | 0x11 => 40 | 0x12 => 48
  | _ => 16 * held

/-- ymax of R143. -/
def yMax (p : ViewP) : Nat := if p.format = 2 then 4095 else if p.format = 3 then 16383 else 65535

/-! ## Windows and sizes (R120, R130, R131, R147) -/

/-- Box factor of a scale code. -/
def boxF (sc : Nat) : Nat := if 4 * sc ≤ 256 then 4 else if 2 * sc ≤ 256 then 2 else 1

/-- Source window of a view: x, y, width, height. -/
def viewWin (p : ViewP) (bin : Bool) : Nat × Nat × Nat × Nat :=
  if bin && p.source = 0 then
    let bv := boxF p.scy
    if isSamples p then (p.x, 2 * (p.y / 4), p.width, 2 * (p.height / 4))
    else (p.x / 2, 2 * bv * (p.y / (4 * bv)), p.width / 2, 2 * (p.height / 4))
  else (p.x, p.y, p.width, p.height)

/-- Output size of a window. -/
def outSize (p : ViewP) (w h : Nat) : Nat × Nat := (16 * (w * p.scx / 4096), 2 * (h * p.scy / 512))

def lineBytes (p : ViewP) (ow held : Nat) : Nat := ow / 16 * bytes16 p.format held

/-- Contexts and line memory (R149). -/
def needCtx (p : ViewP) : Nat := if isRgb p || decide (p.scx < 256) || decide (p.scy < 256) then 2 else 1
def needLmem (p : ViewP) : Nat :=
  if isRgb p || decide (p.scy < 256) then (if p.source = 0 ∧ p.order = 0 then 12 else 1) * p.width * 48 else 0

/-! ## The scaler's taps (R147) -/

def scStep (sc b : Nat) : Nat := 256 * 65536 / (sc * b)
def scPos (sc b o : Nat) : Nat := ((2 * o + 1) * scStep sc b - 65536) / 2

/-- Box and phase of output pixel `o`. -/
def scTap (sc o : Nat) : Nat × Nat :=
  let b := boxF sc
  let p := scPos sc b o
  (p / 65536, p / 1024 % 64)

/-- Rows of a plane of `n` rows that box `k` of factor `b` holds; taps beyond the window repeat the edge box. -/
def boxRows (n b k : Nat) : List Nat :=
  let k := min k (divCeil n b - 1)
  (List.range b).map (fun i => k * b + i) |>.filter (fun r => decide (r < n))

/-- Boxes with non-zero weight that output row `o` of a plane draws on. -/
def vBoxes (scy o : Nat) : List Nat :=
  let (i, ph) := scTap scy o
  if ph = 0 then [i] else [i, i + 1]

/-- Mirror of an index about the edge pixels of `[0, n)`, as often as it takes (R145). -/
def mirror (n : Nat) (i : Int) : Nat :=
  let m := (i % (2 * (max n 2 - 1) : Nat)).toNat
  if m < n then m else 2 * (n - 1) - m

/-- Stage 7 runs (R140). -/
def scaled (p : ViewP) : Bool := decide (p.scx < 256 ∨ p.scy < 256)

/-- Window rows that output row `oy` of a view draws on with non-zero weight, in the order of its taps. The scaler takes a plane of a Bayer source
whose rows start `by_` rows into the RGGB mosaic (R147, R173). -/
def rowsNeeded (p : ViewP) (h by_ oy : Nat) : List Nat :=
  if isSamples p || isAuxRaw p then [oy]
  else if isRgb p then
    let base := (vBoxes p.scy oy).flatMap (boxRows h (boxF p.scy))
    base.flatMap (fun (r : Nat) => [(r : Int), r - 2, r - 1, r + 1, r + 2].map (mirror h))
  else (vBoxes p.scy (oy / 2)).flatMap (fun k => (boxRows (h / 2) (boxF p.scy) k).map (fun r => 2 * r + (oy + by_) % 2))

/-! ## Rows inside the row window (R38) -/

/-- Part of a source row range `[y, y + h)` inside band `b` and inside the row window, as rows of the band. -/
def bandPart (side first rows y h b : Nat) : Nat × Nat :=
  (max (max y (b * side) - b * side) first, min (min (y + h) ((b + 1) * side) - b * side) (first + rows))

/-- Rows of a view that are converted, over the bands. -/
def liveRows (side first rows y h : Nat) : Nat :=
  sumL ((List.range 12).map (fun b => let r := bandPart side first rows y h b; r.2 - r.1))

/-- Length of the union of row ranges. -/
def unionLen (l : List (Nat × Nat)) : Nat :=
  let srt := l.mergeSort (fun a b => decide (a.1 ≤ b.1))
  (srt.foldl (fun (acc : Nat × Nat) r =>
    if r.2 ≤ max acc.2 r.1 then acc else (acc.1 + (r.2 - max acc.2 r.1), r.2)) (0, 0)).1

/-- First image row of the row window, and side of a tile in image rows and columns. -/
def winFirst (s : Settings) : Nat := if s.bin then s.rowFirst / 2 else s.rowFirst
def tileSide (s : Settings) : Nat := if s.bin then 256 else 512

/-- Rows of tile `t` that a view's window covers, in tile image rows; empty where it covers none. -/
def viewTileRows (s : Settings) (p : ViewP) (t : TileIx) : Nat × Nat :=
  let (x, y, w, h) := viewWin p s.bin
  let sideX := if s.bin && !isSamples p then 256 else 512
  let c := t.val % 16
  if x < (c + 1) * sideX ∧ c * sideX < x + w then bandPart (tileSide s) (winFirst s) s.rows y h (t.val / 16) else (0, 0)

/-- A started array view needs row `row` of tile `t` (R11). -/
def needsRow (s : Settings) (p : ViewP) (t : TileIx) (row : Nat) : Bool :=
  let r := viewTileRows s p t
  decide (p.source = 0 ∧ r.1 ≤ row ∧ row < r.2)

/-- N_mos of R12 for the views a frame carries. -/
def nMos (s : Settings) (en : List Bool) (vs : List ViewP) : Nat :=
  let ts := allTiles.filter (fun t => en.getD t.val false)
  let part (sel : ViewP → Bool) : Nat := sumL (ts.map (fun t => unionLen ((vs.filter sel).map (fun p => viewTileRows s p t))))
  part (fun p => !isSamples p) * s.lineLen + part isSamples * s.S * 512 + spillSamples s ts.length

/-- N_live of R12: the codes of every LIVE view, fill of disabled tiles included (R43), rows outside the row window left out. -/
def nLive (s : Settings) (vs : List ViewP) : Nat :=
  sumL ((vs.filter (fun p => decide (p.order = 0))).map (fun p =>
    let (_, y, w, h) := viewWin p s.bin
    liveRows (tileSide s) (winFirst s) s.rows y h * w * (if isSamples p then s.S else 1)))

/-! ## The decimation cycle (R12, R132) -/

/-- A frame can be taken by both views. -/
def decimMeet (a b : ViewP) : Bool := decide (a.phase % Nat.gcd a.decim b.decim = b.phase % Nat.gcd a.decim b.decim)

/-- The largest value of `f` over the sets of views that one frame can carry. -/
def maxOverCycle (f : List ViewP → Nat) : List ViewP → List ViewP → Nat
  | taken, [] => f taken
  | taken, v :: r =>
    if taken.all (decimMeet v) then
      if v.decim = 1 then maxOverCycle f (taken ++ [v]) r
      else max (maxOverCycle f (taken ++ [v]) r) (maxOverCycle f taken r)
    else maxOverCycle f taken r

/-- T_read of a set with the started array views (R12), in 1/96 of a half nanosecond. -/
def treadWith (s : Settings) (en : List Bool) (vs : List ViewP) : Nat :=
  maxOverCycle (fun l => treadOf s (nMos s en l) (nLive s l)) [] (vs.filter (fun p => decide (p.source = 0)))

/-- The largest N_live over the cycle (R151). -/
def maxLive (s : Settings) (vs : List ViewP) : Nat :=
  maxOverCycle (nLive s) [] (vs.filter (fun p => decide (p.source = 0)))

/-! ## Cost (R148, R149, R151) -/

/-- Pixel times of a job of `n` source pixels. -/
def jobPixels (n : Nat) : Nat := max n 384

/-- Half nanoseconds of `n` pixel times at 7.68 Gpixel/s, in 1/96. -/
def pixTime (n : Nat) : Nat := n * 25

/-- Widths of the stripes of a window. -/
def stripes (w : Nat) : List Nat := (List.range (divCeil w 512)).map (fun k => min 512 (w - 512 * k))

/-- Heights of the groups of a view that is not a LIVE array view. -/
def groupsOf (h : Nat) : List Nat := (List.range (divCeil h 16)).map (fun k => min 16 (h - 16 * k))

/-- Pixel times of one frame of such a view. -/
def frameCost (w h : Nat) : Nat :=
  sumL ((stripes w).map (fun sw => sumL ((groupsOf h).map (fun gh => jobPixels (sw * gh)))))

end Sys2Proof.Machine
end

