-- ==== Sys2Proof/Machine/ArrayOps.lean ====
section
/-! DEFINITION. Shared operations of the array sequencer: which set the next frame takes and when, the latch at an ELP, triggers,
and the judgement of the staged set (R45, R46, R52, R58 to R62, R68 to R77, R81, R93, R114, R122, R416, R417, R527, R528). -/

namespace Sys2Proof.Machine

def State.seq (s : State) : Seq := s.arr.seq
def State.modSeq (s : State) (f : Seq → Seq) : State := { s with arr := { s.arr with seq := f s.arr.seq } }
def State.eng (s : State) (t : Nat) : Eng := s.arr.eng.getD t Eng.reset
def State.modEng (s : State) (t : Nat) (f : Eng → Eng) : State :=
  { s with arr := { s.arr with eng := modAt s.arr.eng t f } }
def State.modGov (s : State) (f : Gov → Gov) : State := { s with arr := { s.arr with gov := f s.arr.gov } }

def arrayRunning (s : State) : Bool := s.seq.running
def frameNo (s : State) : Nat := s.seq.frame
def governorOn (s : State) : Bool := s.arr.gov.on
def pendSet (s : State) : Option Nat := s.arr.pend.map Commit.id
def trigAtPending (s : State) : Bool := !s.seq.trigAt.isEmpty

/-- ID of the set applied to the frame being read (R93). -/
def actId (s : State) : Nat := match s.seq.cur with | some f => f.id | none => s.seq.actId

/-! ## Inputs of the schedule -/

/-- A view is started: RUNNING or PAUSED (R125). -/
def View.started (v : View) : Bool := decide (v.st = .running ∨ v.st = .paused)

/-- Parameters of the started array views that count for an ELP at `t`: those that started before `t`, less those that `STOP_VIEW` stopped
before it (R59). -/
def arrayViews (s : State) (t : Time) : List ViewP :=
  (s.pipe.views.filter (fun v => v.started && decide (v.p.source = 0 ∧ v.since < t) &&
    (match v.stopAt with | some e => decide (t ≤ e) | none => true))).map View.p

/-- Enabled, unkilled tiles of a set. -/
def enOf (s : State) (g : Settings) : List Bool := effEn g s.sec.killedTiles

/-- T_read of a set with the views started before `t`. -/
def treadFor (s : State) (g : Settings) (t : Time) : Nat := treadWith g (enOf s g) (arrayViews s t)

/-- P_floor of the enforcement step, in ticks (R410). -/
def pFloor (s : State) : Nat := if s.th.step = 2 then 333333 else if s.th.step = 3 then 666667 else 0

/-- Interval to the next free-run frame start (R52, R410). -/
def perOf (s : State) (g : Settings) : Time := max g.period (pFloor s) * tick

/-- P_min in half nanoseconds, rounded up (R45). -/
def pminT (s : State) (g : Settings) (t : Time) : Time := divCeil (pminOf g (treadFor s g t)) 96

/-- P_min with P_floor, as the overrun test of R71 takes it (R410). -/
def trigMin (s : State) (g : Settings) (t : Time) : Time := max (pminT s g t) (pFloor s * tick)

/-- End of the last sample-row slot of a frame read on its own grid: by APPEND, a drain, or with no tail (R53, R56, R58). -/
def ownEnd (f : Frame) : Time := f.is0 + slotOff f.set f.tread (f.set.N + f.set.tailSlots - 1) + f.set.slot

/-- The end of a frame's last sample-row slot as it is scheduled: with FOLD it lies in the slots of the next frame (R60, R315). -/
def plannedEnd (f : Frame) : Time :=
  if f.set.fold ∧ 0 < f.set.tailSlots then f.is0 + f.per + slotOff f.set f.tread (f.set.tailSlots - 1) + f.set.slot else ownEnd f

/-- The latest frame that latched. -/
def lastFrame (s : State) : Option Frame := match s.seq.latched with | some f => some f | none => s.seq.cur

/-- A frame's folded rows must be drained before a frame of another structure (R58). -/
def drains (f : Frame) (g : Settings) (tread : Nat) : Bool :=
  f.set.fold && decide (0 < f.set.DJ) && (structDiff f.set g || decide (f.tread ≠ tread))

/-! ## The governor's values (R79 to R81) -/

/-- The largest E of a sliced EXP0 (R67). -/
def slicedCap (g : Settings) : Nat := min g.w0 (g.n0 * (g.w0 / g.n0 - 1))

/-- round(256 × log2(a / b)). -/
def lg256 (a b : Nat) : Int :=
  let n := (max 1 a) ^ 512
  let d := (max 1 b) ^ 512
  let e : Int := (Nat.log2 n : Int) - Nat.log2 d
  let low := if 0 ≤ e then decide (n < d * 2 ^ e.toNat) else decide (n * 2 ^ (-e).toNat < d)
  ((if low then e - 1 else e) + 1) / 2

/-- The exposure-value code of a tile's values. -/
def evCode (x : TileSet) : Int := lg256 (x.ticks.getD 0 1 * x.ag.getD 0 16 * x.dg.getD 0 1024) 16384

/-- E_cap of R80. -/
def eCap (v : Gov) (g : Settings) (tread : Nat) : Nat :=
  let e := min v.emax (elim g tread 0)
  max 1 (if g.sliced 0 then min e (slicedCap g) else e)

/-- A set with the governor's values for the tiles in its mask, clamped to that set's limits and slicing cap (R79, R81). Exposures that the mode
does not use keep theirs. The limits of `SET_GOVERNOR` enter where an output is formed. -/
def withVals (v : Gov) (g : Settings) (tread : Nat) (vals : List GovVal) : Settings :=
  let lim := (List.range (g.lastExp + 1)).map (fun j =>
    max 1 (if j = 0 ∧ g.sliced 0 then min (elim g tread 0) (slicedCap g) else elim g tread j))
  { g with tiles := g.tiles.zipIdx.map (fun x =>
      match vals.find? (fun w => w.tile.val = x.2 && v.mask.contains w.tile) with
      | none => x.1
      | some w =>
        let up (l : List Nat) (f : Nat → Nat) : List Nat := l.zipIdx.map (fun y => if y.2 ≤ g.lastExp then f y.2 else y.1)
        { x.1 with
          ticks := up x.1.ticks (fun j => max 1 (min (w.ticks.getD j 1) (lim.getD j 1)))
          ag := up x.1.ag (fun _ => w.ag)
          dg := up x.1.dg (fun _ => w.dg) }) }

/-! ## Which set the next frame takes, and when (R52, R58, R70, R75, R81, R90, R527, R528) -/

/-- A planned frame: its set, whether the pending commit and which governor outputs reach it, and which outputs wait on. -/
structure Plan where
  set : Settings
  id : Nat
  commit : Bool
  gov : List GovOut
  wait : List GovOut
  fs : Time
  elp : Time
  tread : Nat
  deriving DecidableEq, Repr

/-- The ELP of a free-run frame: 20 µs before its earliest integration start. -/
def elpOf (g : Settings) (en : List Bool) (fs : Time) : Time := fs + 50 * us + g.tx - (leadTicks g en * tick + 20 * us)

/-- Frame start and ELP of the next free-run frame with a set: 100 µs after an anchor, or a period after the last frame; a frame start that has
passed stands (R52). -/
def placeFree (s : State) (g : Settings) (anchor : Option Time) (t : Time) : Time × Time × Nat :=
  let en := enOf s g
  let tr := treadFor s g t
  let fs := match s.seq.begun, anchor with
    | some b, _ => b
    | none, some a => a + 100 * us + leadTicks g en * tick - (g.tx + 50 * us)
    | none, none => match lastFrame s with
      | some f => if drains f g tr then max (f.fs + f.per) (ownEnd f) else f.fs + f.per
      | none => t
  (fs, elpOf g en fs, tr)

/-- A set enables a tile that is in standby (R42, R75). -/
def enablesTile (s : State) (g : Settings) : Bool :=
  (List.zipWith (fun a b => a && !b) (enOf s g) (enOf s s.arr.active)).any id

/-- The set as the governor holds it: with its values in force where it is on (R79). DESIGN CHOICE: a set that is pending when the governor is turned off
applies with its own fields (log entry 28). -/
def forced (s : State) (g : Settings) (t : Time) : Settings :=
  if s.arr.gov.on then withVals s.arr.gov g (treadFor s g t) s.arr.gov.vals else g

/-- A set would move the start of the next frame: by a drain, or because it waits for a trigger (R58, R527). -/
def movesStart (s : State) (g : Settings) (t : Time) : Bool :=
  decide (g.trig ≠ 0) || (match lastFrame s with | some f => drains f g (treadFor s g t) | none => false)

/-- The governor outputs that reach a frame, laid over the set that it would otherwise use, oldest first: each by its instant against the ELP of that
set and of the set with it. With them the outputs that go on waiting; one that reaches the frame replaces those before it (R75, R81). -/
def overlay (s : State) (g : Settings) (place : Settings → Time) (t : Time) : Settings × List GovOut × List GovOut :=
  s.arr.gov.out.foldl (fun a o =>
    let w := withVals s.arr.gov a.1 (treadFor s a.1 t) o.vals
    if o.instant < place a.1 ∧ o.instant < place w then (w, a.2.1 ++ [o], []) else (a.1, a.2.1, a.2.2 ++ [o])) (g, [], [])

/-- ELP of the next free-run frame with a set and the outputs that reach it. -/
def freeElp (s : State) (g : Settings) (anchor : Option Time) (t : Time) : Time :=
  let place (g : Settings) : Time := (placeFree s g anchor t).2.1
  place (overlay s g place t).1

/-- Whether a pending set applies to the next frame, and the anchor that it brings (R75, R527, R528). `tg` is the trigger instant of that frame, where
one was accepted. DESIGN CHOICE: once the FS of a frame with an ELP after its FS has passed, a set that would move that FS waits for the next frame. -/
def commitApplies (s : State) (c : Commit) (tg : Option Time) (t : Time) : Bool × Option Time :=
  let a := s.arr.active
  let g := forced s c.set t
  if a.trig = 0 then
    let base := freeElp s a s.seq.anchor t
    if s.seq.begun.isSome && movesStart s g t then (false, none)
    else if g.trig = 0 then (decide (c.instant < base) && decide (c.instant < freeElp s g s.seq.anchor t), none)
    else (decide (c.instant < base), none)
  else if g.trig = 0 then
    (tg.isNone, some (max (max c.instant (s.seq.anchor.getD 0)) (match lastFrame s with | some f => ownEnd f | none => 0)))
  else match tg with
    | none => (true, none)
    | some x => (decide (c.instant < (if enablesTile s g then x - 20 * us else x)), none)

/-- The next frame runs from a trigger. -/
def trigNext (s : State) (t : Time) : Bool :=
  match s.arr.pend with
  | some c =>
    let r := commitApplies s c s.seq.tg t
    if r.1 then decide (c.set.trig ≠ 0) else decide (s.arr.active.trig ≠ 0)
  | none => decide (s.arr.active.trig ≠ 0)

/-- The set in force for triggers: that of the next frame, or the active set while the array is stopped (R71). -/
def trigSet (s : State) (t : Time) : Settings :=
  match s.arr.pend with
  | some c => if s.seq.running && (commitApplies s c none t).1 then c.set else s.arr.active
  | none => s.arr.active

/-- The plan of the next frame. -/
def plan (s : State) (t : Time) : Plan :=
  let tg := s.seq.tg
  let ca : Bool × Option Time := match s.arr.pend with | some c => commitApplies s c tg t | none => (false, none)
  let base : Settings := match s.arr.pend with
    | some c => if ca.1 then forced s c.set t else s.arr.active
    | none => s.arr.active
  let anchor := match ca.2 with | some a => if ca.1 then some a else s.seq.anchor | none => s.seq.anchor
  let place (g : Settings) : Time × Time × Nat :=
    match tg with
    | some x => (x, x, treadFor s g t)
    | none => placeFree s g anchor t
  let o := overlay s base (fun g => (place g).2.1) t
  let p := place o.1
  { set := o.1, id := if ca.1 then (match s.arr.pend with | some c => c.id | none => 0) else s.seq.actId
    commit := ca.1, gov := o.2.1, wait := o.2.2, fs := p.1, elp := p.2.1, tread := p.2.2 }

/-! ## Engine configuration (R122, R158) -/

/-- The latched configuration after a write. -/
def applyEng (c : EngCfg) (lsc a v : Nat) : EngCfg × Nat :=
  if a = aTENG_CTL then ({ c with ctl := v }, lsc)
  else if a = aTENG_REF then ({ c with refTicks := v }, lsc)
  else if a = aTENG_PED then ({ c with ped := v }, lsc)
  else if a = aTENG_DCG_KNEE then ({ c with dcgKnee := v }, lsc)
  else if a = aTENG_MRG_KNEE_L then ({ c with kneeL := v }, lsc)
  else if a = aTENG_MRG_KNEE_D then ({ c with kneeD := v }, lsc)
  else if a = aTENG_DDC then ({ c with ddc := v }, lsc)
  else if a = aTENG_TPAT then ({ c with pat := v }, lsc)
  else if a = aPIPE_CTL then (c, v % 2)
  else match (List.range 192).find? (fun t => aTENG_TDCGK t = a) with
    | some t => ({ c with kdcg := modAt c.kdcg t (fun _ => v) }, lsc)
    | none => (c, lsc)

/-- Reading of the sensor of a band in 1/16 °C, by the exact mean of its neighbours where it failed (R417). DEDUCED: its neighbours lie among TS0 to
TS11. Where no sensor is left the reading is a free value. -/
def bandTemp (s : State) (b : Nat) : Int :=
  let g (n : Nat) : Option Int := match s.th.sensors[n]? with | some x => if x.failed then none else some (2 * x.temp) | none => none
  match g b with
  | some v => v
  | none =>
    let l := if b = 0 then none else g (b - 1)
    let r := if b = 11 then none else g (b + 1)
    match l, r with
    | some x, some y => (x + y) / 2
    | some x, none => x
    | none, some y => y
    | none, none => (g 12).getD ((g 13).getD (Config.lostTemp b s.clk.now))

/-- Bands whose reading moved by more than 2 °C since the previous ELP (R416). -/
def movedBands (s : State) : List Nat :=
  (List.range 12).filter (fun b => match s.th.elpT[b]? with
    | some v => decide (32 < (bandTemp s b - v).natAbs)
    | none => false)

/-- DR of every tile, by the temperatures of the bands (R417). -/
def darkRates (s : State) (temps : List Int) : List Nat :=
  allTiles.map (fun t =>
    let b := t.val / 16
    darkDr (Config.trimDark (trimWords s) t).1.toNat (s.th.band.getD b 0x100) (Config.darkFactor (trimWords s) (temps.getD b 0)))

/-! ## The latch (R68, R76, R98, R114) -/

/-- Tiles that keep an offset their frame's mode uses (R98), and tiles whose ramp error exceeds ±1/64 (R34). -/
def heldTiles (s : State) (g : Settings) (en : List Bool) : List Nat × List Nat :=
  let lcg := (List.range (g.lastExp + 1)).any g.hasDcg
  let on := (List.range 192).filter (fun t => en.getD t false)
  (on.filter (fun t => let e := s.eng t; !e.measured || !e.okH || (lcg && !e.okL)),
   on.filter (fun t => let e := s.eng t; e.measured && decide (1024 < e.ramp.natAbs)))

def blankStat (t : TileIx) : TileStat :=
  { tile := t, lvl := 0, clip := 0, npix := 0, sums := [0, 0, 0, 0], counts := [0, 0, 0, 0], sat := 0, hist := [], above := []
    refH := 0, refL := 0, refBad := false, border := none, ramp := 0, measured := false, tclip := 0, tecl := 0, ag0 := 16 }

/-- What the overhead slots gave a tile, noted with its frame (R49). DESIGN CHOICE: the border mean is given to the nearest 1/16 LSB, halves up, and a
negative one as 0 (R48 gives no rounding; log entry 27). -/
def noteOverhead (s : State) (x : TileStat) : TileStat :=
  let e := s.eng x.tile.val
  if e.measured then
    { x with refH := e.refHcg, refL := e.refLcg, refBad := e.refBad, ramp := e.ramp, measured := true
             border := if e.border.2 = 0 then none else some (meanOf (e.border.1 * 16).toNat e.border.2, e.border.2) }
  else x

/-- What the engines now correct and clamp with. -/
def calNow (s : State) : List TileCal := s.arr.eng.map (fun e => ⟨e.ramp, e.offH, e.offL⟩)

/-- `F_j` of every enabled tile (R114). -/
def normsOf (g : Settings) (en : List Bool) (ref : Nat) : List (List (Nat × Nat)) :=
  allTiles.map (fun t => if en.getD t.val false then
    (List.range (g.lastExp + 1)).map (fun j => normOf ref ((g.tile t).ag.getD j 16) ((g.tile t).ticks.getD j 1) g.bin) else [])

/-- An engine write reaches a frame whose ELP its stamp precedes, as long as the frame has converted no sample-row: a frame never mixes two
configurations (R15, R122). -/
def takesWrite (stamp : Time) (f : Frame) : Bool := decide (stamp < f.elp) && decide (f.next = 0)

/-- Such a write applied to the frame's own copy of the configuration. -/
def lateWrite (stamp : Time) (a v : Nat) (f : Frame) : Frame :=
  if takesWrite stamp f then
    let (cfg, lsc) := applyEng f.cfg f.lsc a v
    { f with cfg := cfg, lsc := lsc, norm := normsOf f.set f.en cfg.refTicks }
  else f

/-- Values of the governor with those of a newer output in their place. -/
def GovOut.over (o : GovOut) (vals : List GovVal) : List GovVal :=
  o.vals ++ vals.filter (fun w => !(o.vals.any (fun x => x.tile = w.tile)))

/-- The governor at an ELP: the outputs that reached the frame are in force, the rest wait, and each exposure-value code is that of the values in
force, save of a tile whose output waits (R80, R81). -/
def takeOutputs (v : Gov) (p : Plan) : Gov :=
  let g := p.set
  let v := { v with
    out := p.wait
    x := v.x.map (fun y => if p.wait.any (fun o => o.vals.any (fun w => w.tile = y.1)) then y else (y.1, evCode (g.tile y.1))) }
  match p.gov.getLast? with
  | none => v
  | some o =>
    let now := p.gov.foldl (fun l o => o.over l) []
    { v with
      vals := p.gov.foldl (fun l o => o.over l) v.vals, src := o.src
      clamped := now.any (fun w => v.mask.contains w.tile && !((g.tile w.tile).ag.getD 0 16 = w.ag && (g.tile w.tile).dg.getD 0 1024 = w.dg &&
        (List.range (g.lastExp + 1)).all (fun j => (g.tile w.tile).ticks.getD j 1 = w.ticks.getD j 1))) }

/-- Latch the planned frame at its ELP: its set becomes active, the draws are made (DESIGN CHOICE: at the ELP; R68 names no instant, and
`FRAME_START` of 95_what_each_step_holds.md names the draw), and the engine configuration and the dark rates are taken. Overhead slots that have
ended are the frame's own. -/
def latchFrame (s : State) (p : Plan) : State :=
  let g := p.set
  let en := enOf s g
  let q := s.seq
  let trigd := q.tg.isSome
  let noted := trigd || (q.begun.isSome && decide (q.ovh = 8))
  let old := s.arr.active
  -- draws (R68)
  let st0 := if p.commit && decide (g.seed ≠ old.seed) then g.seed else q.lfsr
  let (d0, st1) := lfsrDraws g.n0 st0
  let (d1, st2) := if 1 ≤ g.lastExp then lfsrDraws g.n1 st1 else ([], st1)
  -- engine configuration (R122, R158)
  let (now, later) := s.arr.engPend.partition (fun w => decide (w.1 < p.elp))
  let (cfg, lsc) := now.foldl (fun c w => applyEng c.1 c.2 w.2.1 w.2.2) (s.arr.engAct, s.arr.lscAct)
  let temps := (List.range 12).map (bandTemp s)
  let cfg := { cfg with dark := List.zipWith (fun e x => if e.1 then x else e.2) (en.zip (s.arr.engAct.dark)) (darkRates s temps) }
  -- spill region (R109, R188)
  let spill := decide (0 < spillMask g)
  let (base, gone) : Option (Nat × Nat) × List (Nat × Nat) :=
    if p.commit then
      match s.arr.spillPend with
      | some r => (some r, s.arr.spillBase.toList)
      | none => if spill then (s.arr.spillBase, []) else (none, s.arr.spillBase.toList)
    else (s.arr.spillBase, [])
  let drain := match q.cur with | some f => drains f g p.tread | none => false
  let moved := movedBands s
  let held := if noted then heldTiles s g en else ([], [])
  let stats := (allTiles.filter (fun t => en.getD t.val false)).map (fun t =>
    let x := { blankStat t with ag0 := (g.tile t).ag.getD 0 16 }
    if noted then noteOverhead s x else x)
  let is0 := if trigd then p.fs + 3 * us / 2 + leadTicks g en * tick - g.tx else p.fs + 50 * us
  let f : Frame :=
    { num := q.nextNum, id := p.id, set := g, en := en, elp := p.elp, fs := p.fs, fsD := s.dtime p.fs, is0 := is0, tread := p.tread
      per := perOf s g, draws0 := d0, draws1 := d1, resync := drain || q.relock, cfg := cfg
      spillAt := (base.getD (0, 0)).1, spillRow := (match lastFrame s with | some p => p.spillRow + p.set.rows | none => 0), lsc := lsc, norm := normsOf g en cfg.refTicks, next := 0
      endAt := none, spill := spillMask g, stats := stats, chan := [[], [], [], []], lost := []
      spillRaised := [], hold := held.1, rampBad := held.2, takers := [], cal := if noted then calNow s else [], temps := temps }
  let dropTrig := if g.trig = 2 then 0 else q.trigAt.length
  let undo : Undo :=
    { active := old, pend := s.arr.pend, engPend := s.arr.engPend, engAct := s.arr.engAct, lscAct := s.arr.lscAct, norm := s.arr.norm
      spillBase := s.arr.spillBase, spillPend := s.arr.spillPend, gone := gone, gov := s.arr.gov, anchor := q.anchor, relock := q.relock
      lfsr := q.lfsr, tg := q.tg, armed := q.armed, trigAt := q.trigAt, ignored := s.fld aARRAY_TRIG_CNT 31 16, actId := q.actId
      alpha0 := q.alpha0, elpT := s.th.elpT }
  let s := gone.foldl freeRegion s
  let s := s.bump aARRAY_TRIG_CNT 31 16 dropTrig
  let s := if g.trig = 2 then s else s.modSeq (fun q => { q with trigAt := [] })
  let s := { s with th := { s.th with elpT := temps }
                    arr := { s.arr with
                      active := g, pend := if p.commit then none else s.arr.pend, engPend := later, engAct := cfg
                      lscAct := lsc, norm := f.norm, spillBase := base, spillPend := if p.commit then none else s.arr.spillPend
                      undo := if q.begun.isSome then none else some undo } }
  let s := s.modGov (fun v => takeOutputs v p)
  s.modSeq (fun q => { q with
    latched := some f, nextNum := (q.nextNum + 1) % 2 ^ 32, anchor := none, relock := false, lfsr := st2, tg := none, armed := false
    actId := p.id, alpha0 := if noted then [] else moved })

/-- The latch of a frame that has not started undone, for a commit stamped before its ELP (R15, R75). What came since the ELP stays: engine writes, and
the governor's own settings. DESIGN CHOICE: a frame that has started keeps its set (log entry 24). -/
def unlatch (s : State) (stamp : Time) : State :=
  match s.seq.latched, s.arr.undo with
  | some f, some u =>
    if stamp < f.elp then
      let s := s.setFld aARRAY_TRIG_CNT 31 16 u.ignored
      let s := { s with
        mem := { s.mem with regions := s.mem.regions ++ u.gone.filter (fun (r : Nat × Nat) => decide (r.2 ≤ freeLen s r.1)) }
        th := { s.th with elpT := u.elpT }
        arr := { s.arr with
          active := u.active, pend := u.pend, engPend := u.engPend ++ s.arr.engPend.filter (fun w => !u.engPend.contains w)
          engAct := u.engAct, lscAct := u.lscAct, norm := u.norm, spillBase := u.spillBase, spillPend := u.spillPend, undo := none } }
      let s := if s.arr.gov.on && u.gov.on then
          s.modGov (fun v => { v with
            out := u.gov.out ++ v.out.filter (fun o => !u.gov.out.contains o), vals := u.gov.vals, src := u.gov.src, clamped := u.gov.clamped })
        else s
      s.modSeq (fun q => { q with
        latched := none, nextNum := f.num, anchor := u.anchor, relock := q.relock || u.relock, lfsr := u.lfsr, tg := u.tg, armed := u.armed
        trigAt := u.trigAt, actId := u.actId, alpha0 := u.alpha0 })
    else s
  | _, _ => s

/-! ## The staged set (R46, R65, R73, R74, R77, R93, R106) -/

/-- MiB of the tile-spill region of a set; 0 without spill merge. -/
def spillMib (s : State) (g : Settings) : Nat := divCeil (spillBytes g (countIf id (enOf s g))) mib

/-- A region can hold the spill of a set (R188). -/
def spillFits (s : State) (g : Settings) : Bool :=
  (match s.arr.spillBase with | some r => decide (spillMib s g ≤ r.2) | none => false) ||
  (findFree (match s.arr.spillPend with | some r => freeRegion s r | none => s) (spillMib s g)).isSome

/-- The checks that the staged set fails, lowest first. -/
def stagedFailing (s : State) (t : Time) : List Nat :=
  let g := s.arr.staged
  failing g (treadFor s g (t + 1)) (memUp s && spillFits s g)

/-- The staged set becomes a copy of the pending or the active set (R77). -/
def resetStaged (s : State) : State :=
  { s with arr := { s.arr with staged := match s.arr.pend with | some c => c.set | none => s.arr.active } }

/-- ELP of the free-run frame `k` periods after the next one, the next keeping the active set: with the active set and with the pending one, each
under the governor outputs that reach the frame (R58, R75, R81). -/
def laterElp (s : State) (c : Commit) (k : Nat) (t : Time) : Time × Time :=
  let a := s.arr.active
  let fs := (placeFree s a s.seq.anchor t).1 + k * perOf s a
  let at_ (g : Settings) : Time :=
    let tr := treadFor s g t
    let last := (placeFree s a s.seq.anchor t).1 + (k - 1) * perOf s a + 50 * us
    let own := last + slotOff a (treadFor s a t) (a.N + a.tailSlots - 1) + a.slot
    let fs := if a.fold && decide (0 < a.DJ) && (structDiff a g || decide (treadFor s a t ≠ tr)) then max fs own else fs
    let place (g : Settings) : Time := elpOf g (enOf s g) fs
    place (overlay s g place t).1
  (at_ a, at_ (forced s c.set t))

/-- A number of frames by which an ELP with any set that waits follows the commit's instant: each frame is a period later, and an ELP precedes its FS
by less than the longest exposure of a set that waits and 20 µs. -/
def farthest (s : State) (c : Commit) (t : Time) : Nat :=
  let lead (g : Settings) : Nat := leadTicks g (enOf s g)
  let outs := s.arr.gov.out.map (fun o => max (lead (withVals s.arr.gov s.arr.active (treadFor s s.arr.active t) o.vals))
    (lead (withVals s.arr.gov c.set (treadFor s c.set t) o.vals)))
  let most := (outs ++ [lead (forced s c.set t)]).foldl max (lead s.arr.active)
  (c.instant + most * tick + 20 * us - (placeFree s s.arr.active s.seq.anchor t).1) / max 1 (perOf s s.arr.active) + 1

/-- The frame that a commit of instant `c.instant` reaches and its ELP (R75, R89): the first whose ELP follows it with either set, a governor output
that waits laid over both. -/
def commitTarget (s : State) (t : Time) : Nat × Option Time :=
  match s.arr.pend with
  | none => (0, none)
  | some c =>
    let q := s.seq
    if !q.running || q.stopping then (q.nextNum, none)
    else
      let p := plan s t
      if p.commit then (q.nextNum, if p.set.trig ≠ 0 then q.tg else some p.elp)
      else if s.arr.active.trig ≠ 0 then ((q.nextNum + 1) % 2 ^ 32, none)
      else
        let later (k : Nat) : Bool :=
          let e := laterElp s c k t
          decide (c.instant < e.1) && (decide (c.set.trig ≠ 0) || decide (c.instant < e.2))
        let e (k : Nat) : Option Time := if c.set.trig = 0 then some (laterElp s c k t).2 else none
        let k := ((List.range (farthest s c t)).find? (fun k => later (k + 1))).getD (farthest s c t) + 1
        ((q.nextNum + k) % 2 ^ 32, e k)

/-! ## Triggers (R69 to R72, R527, R528) -/

/-- What becomes of a trigger. -/
inductive TrigRes where
  | accepted | overrun | ignored
  deriving DecidableEq, Repr

/-- A trigger of source `src` at instant `tg`. -/
def trigRes (s : State) (src : Nat) (tg t : Time) : TrigRes :=
  let g := trigSet s t
  if g.trig ≠ src then .ignored
  else
    let early := match s.seq.lastTg with | some l => decide (tg < l + trigMin s g t) | none => false
    if !s.seq.armed || early then .overrun else .accepted

def takeTrigger (s : State) (src : Nat) (tg t : Time) : State :=
  match trigRes s src tg t with
  | .accepted => s.modSeq (fun q => { q with tg := some tg, lastTg := some tg, armed := false })
  | .overrun => s.bump aARRAY_TRIG_CNT 15 0 1
  | .ignored => s.bump aARRAY_TRIG_CNT 31 16 1

/-- A capture event of timer channel `n` is a pin trigger where the set in force names it (R69). -/
def pinTrigger (s : State) (n : Nat) (t : Time) : State :=
  if (trigSet s t).trigTmr = n then takeTrigger s 3 t t else s

/-- A TRIG cell (R69, R323). -/
def cmdTrigger (s : State) (t : Time) : State := takeTrigger s 1 t t

end Sys2Proof.Machine
end

