-- ==== Sys2Proof/Machine/Crypto.lean ====
section
/-! DEFINITION. The public algorithms the security chapter names: AES-256 and its CMAC (R474, R477, R478), AES key wrap
(R471, R472), SHA-256 and ECDSA P-256 verification (R479). PRESUMED: the spec names the algorithms only; their
steps are those of the public standards (FIPS 197, SP 800-38B, SP 800-38F KW, FIPS 180-4, FIPS 186-4). -/

namespace Sys2Proof.Machine

/-- The AES field, x⁸ + x⁴ + x³ + x + 1. -/
def gfAes : Gf := ⟨8, 0x11B⟩

def rotl8 (v k : Nat) : Nat := (v * 2 ^ k % 256) + (v / 2 ^ (8 - k))

/-- The AES S-box. -/
def aesSub (a : Nat) : Nat :=
  let b := if a = 0 then 0 else gfAes.inv a
  Nat.xor (Nat.xor (Nat.xor (Nat.xor (Nat.xor b (rotl8 b 1)) (rotl8 b 2)) (rotl8 b 3)) (rotl8 b 4)) 0x63

/-- The inverse S-box. -/
def aesInvSub (a : Nat) : Nat :=
  let b := Nat.xor (Nat.xor (Nat.xor (rotl8 a 1) (rotl8 a 3)) (rotl8 a 6)) 5
  if b = 0 then 0 else gfAes.inv b

def xorL (a b : List Nat) : List Nat := List.zipWith Nat.xor a b

/-- The next key word from the word before it, the word eight before it, and its index. -/
def aesKeyWord (i : Nat) (prev back : List Nat) : List Nat :=
  let t :=
    if i % 8 = 0 then
      let r := (prev.drop 1 ++ prev.take 1).map aesSub
      xorL r [gfAes.pow 2 (i / 8 - 1), 0, 0, 0]
    else if i % 8 = 4 then prev.map aesSub else prev
  xorL t back

/-- Key expansion: words newest first. -/
def aesExpand : Nat → Nat → List (List Nat) → List (List Nat)
  | 0, _, ws => ws
  | n + 1, i, ws => aesExpand n (i + 1) (aesKeyWord i (ws.getD 0 []) (ws.getD 7 []) :: ws)

def chunk4 : Nat → List Nat → List (List Nat)
  | 0, _ => []
  | n + 1, l => l.take 4 :: chunk4 n (l.drop 4)

def groupRound : Nat → List (List Nat) → List (List Nat)
  | 0, _ => []
  | n + 1, ws => (ws.take 4).flatten :: groupRound n (ws.drop 4)

/-- The fifteen round keys of AES-256. -/
def aesKeys (key : List Nat) : List (List Nat) :=
  groupRound 15 ((aesExpand 52 8 (chunk4 8 key).reverse).reverse)

def aesShift (s : List Nat) : List Nat :=
  [0, 5, 10, 15, 4, 9, 14, 3, 8, 13, 2, 7, 12, 1, 6, 11].map (fun i => s.getD i 0)

def aesInvShift (s : List Nat) : List Nat :=
  [0, 13, 10, 7, 4, 1, 14, 11, 8, 5, 2, 15, 12, 9, 6, 3].map (fun i => s.getD i 0)

def mixCol (m : List Nat) (c : List Nat) : List Nat :=
  (List.range 4).map (fun r =>
    (List.range 4).foldl (fun acc k => Nat.xor acc (gfAes.mul (m.getD ((k + 4 - r) % 4) 0) (c.getD k 0))) 0)

def aesMix (m : List Nat) (s : List Nat) : List Nat := ((chunk4 4 s).map (mixCol m)).flatten

def aesRounds : List (List Nat) → List Nat → List Nat
  | [], s => s
  | [k], s => xorL (aesShift (s.map aesSub)) k
  | k :: ks, s => aesRounds ks (xorL (aesMix [2, 3, 1, 1] (aesShift (s.map aesSub))) k)

/-- AES-256 encryption of a 16-byte block. -/
def aesEnc (key blk : List Nat) : List Nat :=
  match aesKeys key with
  | [] => blk
  | k0 :: ks => aesRounds ks (xorL blk k0)

def aesInvRounds : List (List Nat) → List Nat → List Nat
  | [], s => s
  | [k], s => xorL ((aesInvShift s).map aesInvSub) k
  | k :: ks, s => aesInvRounds ks (aesMix [14, 11, 13, 9] (xorL ((aesInvShift s).map aesInvSub) k))

/-- AES-256 decryption of a 16-byte block. -/
def aesDec (key blk : List Nat) : List Nat :=
  match (aesKeys key).reverse with
  | [] => blk
  | k0 :: ks => aesInvRounds ks (xorL blk k0)

def beVal (l : List Nat) : Nat := l.foldl (fun a b => 256 * a + b) 0
def beBytes : Nat → Nat → List Nat
  | 0, _ => []
  | n + 1, v => beBytes n (v / 256) ++ [v % 256]

/-- Doubling of a CMAC subkey. -/
def cmacDbl (v : Nat) : Nat :=
  let d := (2 * v) % 2 ^ 128
  if 2 ^ 127 ≤ v then Nat.xor d 0x87 else d

def cmacChain (key : List Nat) : Nat → List Nat → List Nat → List Nat
  | 0, x, _ => x
  | n + 1, x, m => cmacChain key n (aesEnc key (xorL x (m.take 16))) (m.drop 16)

/-- AES-256-CMAC of a message, 16 bytes. -/
def cmacN (key msg : List Nat) : List Nat :=
  let k1 := cmacDbl (beVal (aesEnc key (List.replicate 16 0)))
  let n := if msg.length = 0 then 1 else (msg.length + 15) / 16
  let last := msg.drop (16 * (n - 1))
  let lastBlk :=
    if last.length = 16 then xorL last (beBytes 16 k1)
    else xorL (last ++ [0x80] ++ List.replicate (15 - last.length) 0) (beBytes 16 (cmacDbl k1))
  let x := cmacChain key (n - 1) (List.replicate 16 0) msg
  aesEnc key (xorL x lastBlk)

def toNats (l : List Byte) : List Nat := l.map BitVec.toNat
def toBytes (l : List Nat) : List Byte := l.map byte

/-- AES-256-CMAC over bytes. -/
def cmac (key msg : List Byte) : List Byte := toBytes (cmacN (toNats key) (toNats msg))

/-- One inner step of key wrap: (A, R). -/
def kwStep (key : List Nat) (n : Nat) (s : List Nat × List (List Nat)) (t : Nat) : List Nat × List (List Nat) :=
  let i := (t - 1) % n
  let b := aesEnc key (s.1 ++ s.2.getD i [])
  (xorL (b.take 8) (beBytes 8 t), modAt s.2 i (fun _ => b.drop 8))

def kwUnstep (key : List Nat) (n : Nat) (s : List Nat × List (List Nat)) (t : Nat) : List Nat × List (List Nat) :=
  let i := (t - 1) % n
  let b := aesDec key (xorL s.1 (beBytes 8 t) ++ s.2.getD i [])
  (b.take 8, modAt s.2 i (fun _ => b.drop 8))

def chunk8 : Nat → List Nat → List (List Nat)
  | 0, _ => []
  | n + 1, l => l.take 8 :: chunk8 n (l.drop 8)

/-- AES key wrap of a 32-byte key: 40 bytes (R471). -/
def keyWrap (kek key : List Byte) : List Byte :=
  let r := (List.range 24).foldl (fun s t => kwStep (toNats kek) 4 s (t + 1))
    (List.replicate 8 0xA6, chunk8 4 (toNats key))
  toBytes (r.1 ++ r.2.flatten)

/-- AES key unwrap: the key, or none where the integrity check fails (R472). -/
def keyUnwrap (kek wrapped : List Byte) : Option (List Byte) :=
  let w := toNats wrapped
  let r := (List.range 24).foldl (fun s t => kwUnstep (toNats kek) 4 s (24 - t))
    (w.take 8, chunk8 4 (w.drop 8))
  if r.1 = List.replicate 8 0xA6 then some (toBytes r.2.flatten) else none

/-- The prime numbers below 312, for the constants of SHA-256. -/
def shaPrimes : List Nat :=
  (List.range 312).filter (fun p => decide (2 ≤ p) && (List.range p).all (fun d => decide (d < 2) || decide (p % d ≠ 0)))

/-- Largest integer whose `k`-th power is at most `n`, by bisection on `bitsLeft` bits. -/
def rootFloor (k n : Nat) : Nat → Nat → Nat
  | 0, acc => acc
  | b + 1, acc => rootFloor k n b (if (acc + 2 ^ b) ^ k ≤ n then acc + 2 ^ b else acc)

/-- First 32 bits of the fractional part of the `k`-th root of a prime. -/
def rootFrac (k p : Nat) : Nat := rootFloor k (p * 2 ^ (32 * k)) 40 0 % 2 ^ 32

def shaK : List Nat := shaPrimes.map (rootFrac 3)
def shaH0 : List Nat := (shaPrimes.take 8).map (rootFrac 2)

def rotr32 (v k : Nat) : Nat := v / 2 ^ k + (v % 2 ^ k) * 2 ^ (32 - k)
def add32 (a b : Nat) : Nat := (a + b) % 2 ^ 32

/-- Message schedule, words newest first. -/
def shaSched : Nat → List Nat → List Nat
  | 0, w => w
  | n + 1, w =>
    let w2 := w.getD 1 0
    let w15 := w.getD 14 0
    let s1 := Nat.xor (Nat.xor (rotr32 w2 17) (rotr32 w2 19)) (w2 / 2 ^ 10)
    let s0 := Nat.xor (Nat.xor (rotr32 w15 7) (rotr32 w15 18)) (w15 / 2 ^ 3)
    shaSched n (add32 (add32 s1 (w.getD 6 0)) (add32 s0 (w.getD 15 0)) :: w)

def shaRound (s : List Nat) (kw : Nat × Nat) : List Nat :=
  match s with
  | [a, b, c, d, e, f, g, h] =>
    let s1 := Nat.xor (Nat.xor (rotr32 e 6) (rotr32 e 11)) (rotr32 e 25)
    let ch := Nat.xor (Nat.land e f) (Nat.land (2 ^ 32 - 1 - e) g)
    let t1 := add32 (add32 h s1) (add32 (add32 ch kw.1) kw.2)
    let s0 := Nat.xor (Nat.xor (rotr32 a 2) (rotr32 a 13)) (rotr32 a 22)
    let maj := Nat.xor (Nat.xor (Nat.land a b) (Nat.land a c)) (Nat.land b c)
    [add32 t1 (add32 s0 maj), a, b, c, add32 d t1, e, f, g]
  | _ => s

def shaBlock (h : List Nat) (blk : List Nat) : List Nat :=
  let w := (shaSched 48 ((chunk4 16 blk).map beVal).reverse).reverse
  List.zipWith add32 h ((shaK.zip w).foldl shaRound h)

def shaBlocks : Nat → List Nat → List Nat → List Nat
  | 0, h, _ => h
  | n + 1, h, m => shaBlocks n (shaBlock h (m.take 64)) (m.drop 64)

/-- SHA-256 of a message, as a number. -/
def sha256 (msg : List Byte) : Nat :=
  let l := msg.length
  let pad := (119 - l % 64) % 64
  let m := toNats msg ++ [0x80] ++ List.replicate pad 0 ++ beBytes 8 (8 * l)
  (shaBlocks (m.length / 64) shaH0 m).foldl (fun a w => a * 2 ^ 32 + w) 0

/-- The curve P-256: its prime, its order, and its base point. -/
def p256 : Nat := 2 ^ 256 - 2 ^ 224 + 2 ^ 192 + 2 ^ 96 - 1
def n256 : Nat := 0xFFFFFFFF00000000FFFFFFFFFFFFFFFFBCE6FAADA7179E84F3B9CAC2FC632551
def g256 : Nat × Nat :=
  (0x6B17D1F2E12C4247F8BCE6E563A440F277037D812DEB33A0F4A13945D898C296,
   0x4FE342E2FE1A7F9B8EE7EB4A7C0F9E162BCE33576B315ECECBB6406837BF51F5)

def powMod (m : Nat) : Nat → Nat → Nat → Nat → Nat
  | 0, _, _, acc => acc
  | k + 1, a, e, acc => powMod m k (a * a % m) (e / 2) (if e % 2 = 1 then acc * a % m else acc)

def invMod (m a : Nat) : Nat := powMod m 256 (a % m) (m - 2) 1

/-- A point of the curve, none for the point at infinity. -/
abbrev EcPoint := Option (Nat × Nat)

def ecAdd (a b : EcPoint) : EcPoint :=
  match a, b with
  | none, q => q
  | q, none => q
  | some (x1, y1), some (x2, y2) =>
    if x1 = x2 ∧ (y1 + y2) % p256 = 0 then none else
    let l :=
      if x1 = x2 then (3 * x1 * x1 + (p256 - 3)) * invMod p256 (2 * y1) % p256
      else (y2 + p256 - y1) * invMod p256 (x2 + p256 - x1) % p256
    let x3 := (l * l + 2 * p256 - x1 - x2) % p256
    some (x3, (l * (x1 + p256 - x3) + p256 - y1) % p256)

def ecMul : Nat → Nat → EcPoint → EcPoint → EcPoint
  | 0, _, _, acc => acc
  | k + 1, e, a, acc => ecMul k (e / 2) (ecAdd a a) (if e % 2 = 1 then ecAdd acc a else acc)

/-- Whether (r, s) signs the digest `h` under the public key `q`. -/
def ecdsaVerify (q : Nat × Nat) (h r s : Nat) : Bool :=
  if r = 0 ∨ s = 0 ∨ n256 ≤ r ∨ n256 ≤ s then false else
  let w := invMod n256 s
  match ecAdd (ecMul 256 (h * w % n256) (some g256) none) (ecMul 256 (r * w % n256) (some q) none) with
  | none => false
  | some (x, _) => decide (x % n256 = r)

end Sys2Proof.Machine
end

