-- ==== Sys2Proof/Machine/MemQueue.lean ====
section
/-! DEFINITION. How a request reaches the bank queues of the frame memory controller, its tokens, and the accesses of the device's own
requesters (R26, R109, R183, R189 to R191, R195, R201, R202). -/

namespace Sys2Proof.Machine

def State.modMem (s : State) (f : Mem → Mem) : State := { s with mem := f s.mem }

/-! ## Tokens and queues (R189) -/

def quota (c : Nat) : Nat := [768, 640, 768, 384, 384, 128].getD c 0

/-- Every entry that holds a token. -/
def memEntries (m : Mem) : List MemEnt := m.queue ++ m.dies ++ m.await.map (fun x => x.1) ++ m.held.map (fun h => h.1)

/-- Tokens of reads that the write buffer answered within the last MEMC cycle (R191). -/
def hitsOf (m : Mem) (t : Time) : List MemHit := m.hits.filter (fun h => decide (t < h.till))

def tokensOf (m : Mem) (c : Nat) (t : Time) : Nat :=
  countIf (fun e : MemEnt => decide (e.cls = c)) (memEntries m) + countIf (fun h : MemHit => decide (h.cls = c)) (hitsOf m t)
def tokensHeld (m : Mem) (t : Time) : Nat := (memEntries m).length + (hitsOf m t).length
def queueFillOf (m : Mem) (q : Nat) : Nat := countIf (fun e : MemEnt => decide (e.q = q)) (memEntries m)

/-- A request of a class may take a token and an entry of a queue: one entry of each queue is kept for the control class. -/
def mayEnter (m : Mem) (c q : Nat) (t : Time) : Bool :=
  decide (tokensOf m c t < quota c) && decide (queueFillOf m q < if c = 5 then 12 else 11)

def MemOp.isWrite : MemOp → Bool
  | .read => false
  | .write _ _ => true

def fullMask : Nat := 2 ^ 64 - 1

def MemOp.isFull : MemOp → Bool
  | .read => false
  | .write n _ => decide (n = fullMask)

/-- The next access of an entry writes: a partial write is first read (R193). -/
def busWrite (e : MemEnt) : Bool := e.op.isFull || (e.op.isWrite && e.half)

/-- The newest queued write to a unit (R191). -/
def newestWrite (m : Mem) (d : Nat) : Option MemEnt := (m.queue.filter (fun e => decide (e.d = d) && e.op.isWrite)).getLast?

def memAnswer (s : State) (l : List MemReply) : State := s.modMem (fun m => { m with replies := l })
def memReply (s : State) (c i d : Nat) (a : MemAns) : State := memAnswer s [⟨c, i, d, a⟩]

/-- The controller is frozen, also while it sweeps or changes its bin (R199, R200). -/
def isFrozen (m : Mem) : Bool := decide (m.st = .frozen) || (decide (m.st = .train ∨ m.st = .change) && decide (m.prior = .frozen))

/-! ## Banks, ranks and sub-channels (R183, R192, R194, R195) -/

def Bank.new (q : Nat) : Bank := ⟨q, none, 0, 0, 0, 0, []⟩
def Rank.new (sc r : Nat) : Rank := ⟨sc, r, [], false, 0, 0⟩

def bankOf (m : Mem) (q : Nat) : Bank := (m.banks.find? (fun b => b.q = q)).getD { Bank.new q with dueAt := m.refFrom, busyTill := m.refTill }
def rankOf (m : Mem) (sc r : Nat) : Rank := (m.ranks.find? (fun k => k.sc = sc && k.rank = r)).getD { Rank.new sc r with idleFrom := m.refFrom }
def subOf (m : Mem) (sc : Nat) : SubCh := m.subs.getD sc SubCh.new

def setBank (m : Mem) (b : Bank) : Mem := { m with banks := b :: m.banks.filter (fun x => decide (x.q ≠ b.q)) }
def setRank (m : Mem) (k : Rank) : Mem := { m with ranks := k :: m.ranks.filter (fun x => !(decide (x.sc = k.sc) && decide (x.rank = k.rank))) }

def scOf (q : Nat) : Nat := q / 32
def rankIx (q : Nat) : Nat := q % 32 / 16

/-- A rank in power-down wakes: its first command follows after tXP. -/
def wakeRank (m : Mem) (q : Nat) (t : Time) : Mem :=
  let k := rankOf m (scOf q) (rankIx q)
  if k.down then setRank m { k with down := false, wakeAt := t + m.tim.xp, idleFrom := t } else m

/-! ## Row disturbance (R201, R202) -/

/-- The table of a bank after an activate of a row, and the row's estimate. -/
def rowActivate (rows : List (Nat × Nat)) (r : Nat) : List (Nat × Nat) × Nat :=
  match rows.find? (fun x => x.1 = r) with
  | some x => (rows.map (fun y => if y.1 = r then (r, y.2 + 1) else y), x.2 + 1)
  | none =>
    if rows.length < 256 then (rows ++ [(r, 1)], 1)
    else
      let low := rows.foldl (fun a x => if x.2 < a.2 then x else a) (rows.headD (0, 0))
      (rows.map (fun y => if y.1 = low.1 then (r, low.2 + 1) else y), low.2 + 1)

/-- A new throttle of a requester in a bank queue, or of the bank where 64 throttles stand. MEM_ROWHOT names the bank queue, once per window. -/
def addThrottle (s : State) (c i q : Nat) (t : Time) : State :=
  let full := decide (64 ≤ s.mem.throttles.length)
  let s := s.modMem (fun m => { m with
    throttles := if full then m.throttles else m.throttles ++ [⟨c, i, q, t⟩]
    bankThrottle := if full then q :: m.bankThrottle else m.bankThrottle
    throttled := min (2 ^ 32 - 1) (m.throttled + 1) })
  let s := if full then s.bump aMEMC_RH_CNT 31 16 1 else s
  let s := s.bump aMEMC_RH_CNT 15 0 1
  if s.mem.hotRaised.contains q then s else raise (s.modMem (fun m => { m with hotRaised := q :: m.hotRaised })) fMEM_ROWHOT q t

/-- An activate of a row in a bank at an instant, by a requester (R182, R183, R201, R202). -/
def activate (s : State) (c i q row : Nat) (at_ t : Time) : State :=
  let b := bankOf s.mem q
  let (rows, est) := rowActivate b.rows row
  let s := s.modMem (fun m =>
    let k := rankOf m (scOf q) (rankIx q)
    { setRank (setBank m { b with lastAct := some at_, rows := rows }) { k with acts := (at_ :: k.acts).take 4 } with
      throttles := m.throttles.map (fun h => if h.cls = c ∧ h.inst = i ∧ h.q = q then { h with lastAct := at_ } else h) })
  if est = s.mem.rhThresh then addThrottle s c i q t else s

/-! ## Entry (R26, R189 to R191) -/

/-- Whether a sub-channel is in write mode (R192): what its queues hold now decides, and between the limits the mode stays. -/
def writeModeAt (s : State) (sc : Nat) : Bool :=
  let l := s.mem.queue.filter (fun e => decide (scOf e.q = sc) && e.op.isWrite)
  if s.fld aMEMC_ARB 23 16 ≤ l.length ∨ l.any (fun e => e.aged) then true
  else if l.length < s.fld aMEMC_ARB 31 24 then false
  else (subOf s.mem sc).writeMode

/-- A sub-channel takes the mode that its queues ask for: at each arrival, issue and aging. -/
def settleMode (s : State) (sc : Nat) : State :=
  let w := writeModeAt s sc
  s.modMem (fun m => { m with subs := modAt m.subs sc (fun c => { c with writeMode := w }) })

/-- The instant at which a sub-channel takes a request: one per MEMC cycle, in the order in which they come (R190). -/
def arrivalAt (m : Mem) (sc : Nat) (t : Time) : Time :=
  match (subOf m sc).lastIn with
  | some a => max t (a + memcCycles m.bin 1)
  | none => t

/-- What a full write answers a read with: its data. -/
def writeData (s : State) (e : MemEnt) : List Byte :=
  match e.op with
  | .write _ b => if e.moved then fmRead s (unitOf e.d * 64) 64 else b
  | .read => []

/-- An entry takes the place and the slot of the first of the entries `p` of a queue, each of these those of the next, and the last the new slot. -/
def takeFirst (p : MemEnt → Bool) (a : Time) : MemEnt → List MemEnt → List MemEnt
  | c, [] => [{ c with at_ := a }]
  | c, x :: r => if p x then { c with at_ := x.at_ } :: takeFirst p a x r else x :: takeFirst p a c r

/-- A request enters its bank queue with a token. A read whose newest queued write is full is answered from it, and holds its token for one
MEMC cycle (R191). A write is taken before the reads of its unit that came in the same cycle, which a full one answers (R190). -/
def enterRequest (s : State) (t : Time) (c i d : Nat) (op : MemOp) (moved : Bool) : State :=
  let q := queueOf s.mem.map d
  let sc := scOf q
  let a := arrivalAt s.mem sc t
  let cyc := memcCycles s.mem.bin 1
  let e : MemEnt := ⟨c, i, d, q, op, t, a, false, false, moved⟩
  let s := s.modMem (fun m => wakeRank { m with
    hits := hitsOf m t
    subs := modAt m.subs sc (fun x => { x with lastIn := some a }) } q t)
  if op.isWrite then
    let early (x : MemEnt) : Bool := decide (x.d = d) && !x.op.isWrite && decide (t < x.came + cyc)
    let l := s.mem.queue.filter early
    let q := takeFirst early a e s.mem.queue
    let s := settleMode (s.modMem (fun m => { m with queue := if op.isFull then q.filter (fun x => !early x) else q })) sc
    if op.isFull && !l.isEmpty then
      memAnswer (s.modMem (fun m => { m with hits := m.hits ++ l.map (fun x => ⟨x.cls, a + cyc⟩) }))
        ((l.filter (fun x => !x.moved)).map (fun x => ⟨x.cls, x.inst, d, .data (writeData s e)⟩))
    else s
  else match newestWrite s.mem d with
    | some w =>
      if w.op.isFull then
        let s := s.modMem (fun m => { m with hits := m.hits ++ [⟨c, a + cyc⟩] })
        if moved then s else memReply s c i d (.data (writeData s w))
      else s.modMem (fun m => { m with queue := m.queue ++ [e] })
    | none => s.modMem (fun m => { m with queue := m.queue ++ [e] })

/-- A request arrives: it enters, or it waits at its requester, where requests stay in order (R26, R189). While the memory self-test runs every
requester waits (R501). -/
def memArrive (s : State) (t : Time) (c i d : Nat) (op : MemOp) (moved : Bool) : State :=
  let q := queueOf s.mem.map d
  if s.mem.wait.any (fun e => decide (e.cls = c ∧ e.inst = i)) || !mayEnter s.mem c q t || decide (s.diag.run = 2) then
    s.modMem (fun m => { m with wait := m.wait ++ [⟨c, i, d, q, op, t, t, false, false, moved⟩] })
  else enterRequest s t c i d op moved

/-- The bytes that waiting requests have still to write stand after a loss of the contents. -/
def rewriteWaiting (s old : State) : State :=
  (old.mem.wait.filter (fun e => e.moved)).foldl (fun s e => match e.op with
    | .write mask _ => (List.range 64).foldl (fun s k =>
        let a := 64 * unitOf e.d + k
        if bit mask k then fmWrite s a [fmByte old a] else s) s
    | .read => s) s

/-- Requests that wait enter, in order, as far as tokens and entries go. -/
def admitWaiting (s : State) (t : Time) : State :=
  s.mem.wait.foldl (fun s e => memArrive s t e.cls e.inst e.d e.op e.moved) (s.modMem (fun m => { m with wait := [] }))

/-! ## The device's own accesses (R109, R137, R189, R220) -/

/-- Units that a byte range touches. -/
def unitsIn (a n : Nat) : List Nat := (List.range (divCeil (a + n) 64 - a / 64)).map (fun k => a / 64 + k)

/-- Byte enables of a range in a unit. -/
def rangeMask (a n u : Nat) : Nat := 2 ^ (min 64 (a + n - 64 * u)) - 2 ^ (a - 64 * u)

/-- A requester of the device stores bytes: one write request for each unit. DESIGN CHOICE: the bytes stand in frame memory from then on, as its
later reads find them (R191), and a write that is lost leaves its unit undefined. -/
def memStore (s : State) (c i a : Nat) (bs : List Byte) (t : Time) : State :=
  if bs.isEmpty then s
  else (unitsIn a bs.length).foldl (fun s u => memArrive s t c i (dramUnit u) (.write (rangeMask a bs.length u) []) true) (fmWrite s a bs)

/-- A requester of the device reads a range: one read request for each unit. -/
def memLoad (s : State) (c i a n : Nat) (t : Time) : State :=
  if n = 0 then s
  else (unitsIn a n).foldl (fun s u => memArrive s t c i (dramUnit u) .read true) s

/-- A request of a class and instance for a unit of a range is not finished. -/
def memPending (m : Mem) (c i a n : Nat) : Bool :=
  (m.wait ++ m.queue ++ m.dies ++ m.await.map (fun x => x.1)).any (fun e => decide (e.cls = c ∧ e.inst = i ∧ a / 64 ≤ unitOf e.d ∧ unitOf e.d < divCeil (a + n) 64))

/-- A scrub, which writes what its unit holds (R198). -/
def MemEnt.isScrub (e : MemEnt) : Bool := decide (e.cls = 5 ∧ e.inst = 2)

/-- A sweep is aborted and its delays discarded; a bin change runs to its end (R208). -/
def settleMem (m : Mem) : Mem :=
  match m.st with
  | .train => { m with st := if m.prior = .frozen then .frozen else if m.prior = .unavail then .unavail else .run }
  | .change =>
    let b := m.changeTo
    { m with bin := b, dly := (tableOf m b).getD m.dly, st := if m.prior = .frozen then .frozen else .run }
  | _ => m

/-- Frame memory with its dies in self-refresh: nothing waits, nothing is held, and MEMC shows RETAIN (R208, R381). -/
def parked (m : Mem) : Mem :=
  { m with
    st := .retain, queue := [], wait := [], hits := [], dies := [], await := [], held := [], ecc := [], ckq := [], ckd := [], seals := []
    recover := none, initTill := none }

/-- Every request with a token is lost, and with `all` those that wait at their requesters: what the device's own writes had moved is undefined,
but where a full write that waits still brings the whole unit. -/
def loseRequests (s : State) (all : Bool) : State :=
  let m := s.mem
  let l := ((if all then m.wait else []) ++ m.queue ++ m.dies ++ m.await.map (fun x => x.1)).filter (fun e => e.moved && e.op.isWrite && !e.isScrub)
  let kept (e : MemEnt) : Bool := !all && m.wait.any (fun x => decide (x.d = e.d) && x.op.isFull)
  let s := ((l.filter (fun e => !kept e)).map (fun e => unitOf e.d)).eraseDups.foldl (fun s u => fmForget s (64 * u) 64) s
  s.modMem (fun m => { m with
    wait := if all then [] else m.wait, queue := [], dies := [], await := [], held := [], hits := [], seals := [] })

end Sys2Proof.Machine
end

