-- ==== Sys2Proof/Machine/RingOps.lean ====
section
/-! DEFINITION. The event ring: chunks, records, segments, the directory and its reading back, and BULK transfers (R216 to R227, R235,
R246 to R248, R342). -/

namespace Sys2Proof.Machine

def State.modRing (s : State) (f : Ring → Ring) : State := { s with ring := f s.ring }

/-! ## Chunks (R216, R217) -/

def chunkSize : Nat := 0x4000000

/-- FMA of a chunk. -/
def chunkBase (k : Nat) : Nat := (7 - k / 30) * 0x78000000 + k % 30 * 0x4000000

def Chunk.free : Chunk := ⟨0, 0, 0, 0, none⟩
def chunkOf (r : Ring) (k : Nat) : Chunk := r.chunks.getD k Chunk.free
def segOf (r : Ring) (i : Nat) : Segment := r.segs.getD i Segment.free
def modChunk (s : State) (k : Nat) (f : Chunk → Chunk) : State := s.modRing (fun r => { r with chunks := modAt r.chunks k f })
def modSeg (s : State) (i : Nat) (f : Segment → Segment) : State := s.modRing (fun r => { r with segs := modAt r.segs i f })

/-- An empty chunk table: chunk 0 holds the directory. -/
def newChunks (nAs : Nat) : List Chunk :=
  if nAs = 0 then [] else ⟨3, 0, 0, 0, none⟩ :: List.replicate (30 * nAs - 1) Chunk.free

/-- STATE of `RING_STATUS` (R247). DEDUCED: a frozen or absent frame memory shows as STOPPED. -/
def ringStateCode (s : State) : Nat :=
  if s.ring.nAs = 0 then 0 else if s.ring.stopped || !memUp s then 2 else if s.ring.full then 3 else 1

def ringOpenSegment (s : State) : Bool := s.ring.segs.any (fun g => decide (g.state = 1))
def noSealed (s : State) : Bool := s.ring.segs.all (fun g => decide (g.state ≠ 2))

/-! ## Records (R218) -/

/-- Chunks that hold a part of a record. -/
def recChunks (r : RingRec) : List Nat := r.chunk :: r.parts.map (fun p => p.1)

/-- First chunk that continues a record. -/
def recNext (r : RingRec) : Nat :=
  match r.parts.find? (fun p => decide (p.1 ≠ r.chunk)) with
  | some p => p.1
  | none => 0xFFFFFFFF

/-- The record header. -/
def recHeader (r : RingRec) : List Byte :=
  let flags := Nat.lor r.rflags (if recNext r = 0xFFFFFFFF then 0 else 8)
  let h := leBytes 4 0x52454331 ++ [byte r.view, byte flags] ++ leBytes 2 r.fflags ++ leBytes 4 r.frame ++ leBytes 2 r.setId ++
    leBytes 2 r.paramId ++ leBytes 8 r.fsDtime ++ leBytes 4 r.length ++ leBytes 2 r.lines ++ [byte r.format, 0] ++
    leBytes 4 (recNext r) ++ zeros 4 ++ slice r.tag 0 16 ++ zeros 4
  h ++ leBytes 4 (crc32c h)

/-- A record lies in the window of a segment (R223). -/
def inWindow (g : Segment) (r : RingRec) : Bool :=
  decide (g.start ≤ r.fsDtime ∧ r.fsDtime ≤ g.end_) && bit (Nat.lor g.views g.also) r.view

/-- Slots of the OPEN segments whose window a record lies in. -/
def openSlotsOf (s : State) (r : RingRec) : List Nat :=
  (List.range 8).filter (fun i => decide ((segOf s.ring i).state = 1) && inWindow (segOf s.ring i) r)

/-- Pin chunks for a slot. -/
def pinChunks (s : State) (slot : Nat) (ks : List Nat) : State :=
  ks.foldl (fun s k => modChunk s k (fun c => { c with pin := setBit c.pin slot true })) s

/-! ## The directory (R221) -/

/-- The 64 bytes of a segment entry (R247). -/
def segBytes (s : State) (i : Nat) : List Byte :=
  let g := segOf s.ring i
  let held := if g.state = 0 then 0 else
    sumL ((s.ring.recs.filter (fun r => inWindow g r)).map (fun r => 64 + r.length))
  [byte g.state, byte g.flags] ++ leBytes 2 g.id ++ [byte (min 255 g.events), 0] ++ leBytes 2 g.views ++ leBytes 8 g.start ++
  leBytes 8 g.end_ ++ leBytes 8 g.sealed ++ leBytes 2 g.firstCode ++ leBytes 2 g.lastCode ++
  leBytes 4 (countIf (fun c : Chunk => bit c.pin i) s.ring.chunks) ++ leBytes 8 g.firstEvent ++ leBytes 8 g.lastEvent ++
  leBytes 4 (held / mib) ++ zeros 4

def chunkBytes (c : Chunk) : List Byte :=
  [byte c.state, byte c.view, byte c.pin, 0] ++ leBytes 4 c.seq ++ leBytes 8 (c.first.getD 0)

/-- One copy of the directory. -/
def dirBytes (s : State) (t : Time) : List Byte :=
  let r := s.ring
  let b := leBytes 4 0x44495231 ++ leBytes 4 r.gen ++ [byte r.nAs, byte s.mem.map, byte r.flags, 0] ++ leBytes 2 r.views ++
    leBytes 2 r.nextId ++ leBytes 4 r.pre ++ leBytes 4 r.post ++ leBytes 8 (s.dtime t) ++ zeros 32 ++
    (r.chunks.take 180).flatMap chunkBytes ++ zeros (16 * (180 - r.chunks.length)) ++
    (List.range 8).flatMap (segBytes s) ++ zeros 636
  b ++ leBytes 4 (crc32c b)

/-- Offset of copy B. -/
def dirB : Nat := 0x200000

/-- The firmware writes the pair, where there is a directory and frame memory takes writes. -/
def dirWrite (s : State) (t : Time) : State :=
  if s.ring.nAs = 0 || !memUp s then s
  else
    let s := s.modRing (fun r => { r with gen := (r.gen + 1) % 2 ^ 32 })
    let b := dirBytes s t
    memStore (memStore s 5 0 (chunkBase 0) b t) 5 0 (chunkBase 0 + dirB) b t

/-- A valid copy of the directory. -/
def dirValid (b : List Byte) : Bool := decide (u32 b 0 = 0x44495231) && decide (u32 b 4092 = crc32c (b.take 4092))

/-- The copy with the higher valid generation, as frame memory holds it. -/
def dirRead (s : State) : Option (List Byte) :=
  let a := fmRead s (chunkBase 0) 4096
  let b := fmRead s (chunkBase 0 + dirB) 4096
  match dirValid a, dirValid b with
  | true, true => some (if u32 a 4 < u32 b 4 then b else a)
  | true, false => some a
  | false, true => some b
  | false, false => none

/-- Chunk entry `k` and segment entry `i` of a directory. -/
def dirChunk (b : List Byte) (k : Nat) : Chunk :=
  let o := 64 + 16 * k
  ⟨u8 b o, u8 b (o + 1), u8 b (o + 2), u32 b (o + 4), if u64 b (o + 8) = 0 then none else some (u64 b (o + 8))⟩

def dirSeg (b : List Byte) (i : Nat) : Segment :=
  let o := 2944 + 64 * i
  { state := u8 b o, flags := u8 b (o + 1), id := u16 b (o + 2), events := u8 b (o + 4), views := u16 b (o + 6), also := 0
    start := u64 b (o + 8), end_ := u64 b (o + 16), sealed := u64 b (o + 24), firstCode := u16 b (o + 32)
    lastCode := u16 b (o + 34), firstEvent := u64 b (o + 40), lastEvent := u64 b (o + 48) }

/-- PASR mask of a directory (R229): AS7 and every array segment with a pinned chunk; empty where no segment is sealed. -/
def dirMask (b : List Byte) : Nat :=
  if (List.range 8).all (fun i => decide (u8 b (2944 + 64 * i) = 0)) then 0
  else (List.range 180).foldl (fun m k => if u8 b (66 + 16 * k) = 0 then m else Nat.lor m (2 ^ (7 - k / 30))) 128

/-! ## Segments (R223 to R226, R248) -/

/-- A segment becomes SEALED; UNTRUSTED while an alarm lock stands (R224, R481). -/
def sealSegment (s : State) (i flags : Nat) (t : Time) : State :=
  dirWrite (modSeg s i (fun g => { g with
    state := 2, flags := Nat.lor (Nat.lor g.flags flags) (if s.sec.lockStands then 32 else 0) })) t

/-- A segment is released: its pins clear and FULL ends (R248). -/
def releaseSlot (s : State) (i : Nat) (t : Time) : State :=
  let s := s.modRing (fun r => { r with
    full := false
    chunks := r.chunks.map (fun c => { c with pin := setBit c.pin i false })
    segs := modAt r.segs i (fun _ => Segment.free) })
  dirWrite s t

/-- The oldest SEALED segment. -/
def oldestSealed (s : State) : Option Nat :=
  ((List.range 8).filter (fun i => decide ((segOf s.ring i).state = 2))).foldl (fun a i => match a with
    | none => some i
    | some j => if (segOf s.ring i).firstEvent < (segOf s.ring j).firstEvent then some i else some j) none

def addLost (s : State) (n : Nat) : State := s.modRing (fun r => { r with lostEvents := min (2 ^ 32 - 1) (r.lostEvents + n) })

/-- Set CONT of a chunk of view `v` that continues a record (R217). -/
def setCont (s : State) (v k n : Nat) (t : Time) : State :=
  let a := chunkBase k
  let h := fmRead s a 12 ++ leBytes 4 n ++ fmRead s (a + 16) 44
  memStore (memLoad s 3 v a 64 t) 3 v a (h ++ leBytes 4 (crc32c h)) t

/-- Where a view's next byte goes. -/
def posOf (s : State) (v : Nat) : Option RingPos := s.ring.pos.find? (fun p => p.view = v)
def setPos (s : State) (v k off : Nat) : State :=
  s.modRing (fun r => { r with pos := ⟨v, k, off⟩ :: r.pos.filter (fun p => decide (p.view ≠ v)) })

/-- The open record of a view. -/
def openRec (s : State) (v : Nat) : Option RingRec := s.ring.recs.find? (fun r => r.openNow && decide (r.view = v))
def modOpen (s : State) (v : Nat) (f : RingRec → RingRec) : State :=
  s.modRing (fun r => { r with recs := r.recs.map (fun x => if x.openNow && decide (x.view = v) then f x else x) })

/-- The pieces of a record: its header, and what follows. -/
def recPieces (r : RingRec) : List (Nat × Nat × Nat) := (r.chunk, r.off, 64) :: r.parts

/-- The units of the pieces of a record, as ranges. -/
def recUnits (r : RingRec) : List (Nat × Nat) :=
  (recPieces r).map (fun p => ((chunkBase p.1 + p.2.1) / 64, divCeil (chunkBase p.1 + p.2.1 + p.2.2) 64))

/-- The ring writer asks for the seal of a record, and whether it still awaits the acknowledge (R197). -/
def askSeal (s : State) (r : RingRec) : State := s.modMem (fun m => { m with seals := m.seals ++ recUnits r })
def sealAwaited (s : State) (r : RingRec) : Bool := s.mem.seals.any (fun x => (recUnits r).contains x)

/-- Frame flags of a view's frame as they stand: those of its FEND, and while an aux frame is open at its stream those that the stream has
gathered (R134, R166). -/
def flagsNow (s : State) (f : VFrame) : Nat :=
  let c := (s.aux.getD (f.p.source - 1) AuxIn.reset).vcs.getD f.p.vc AuxVc.reset
  if f.p.source ≠ 0 ∧ c.openAt.isSome ∧ c.count = f.frame then Nat.lor f.fflags (256 * c.fflags) else f.fflags

/-- FFLAGS of a record at its seal: those of the frame in progress, of its FEND where that waits in a queue, and otherwise those that the FEND
brought (R218). -/
def sealFlags (s : State) (r : RingRec) : Nat :=
  match s.pipe.frames.find? (fun f => decide (f.view.val = r.view ∧ f.frame = r.frame)) with
  | some f => Nat.lor (flagsNow s f) (if 0 < f.lost then 32 else 0)
  | none =>
    match (s.ports.flatMap (fun q => q.vq)).find? (fun k => decide (k.type = 3 ∧ k.view.map (fun v => v.val) = some r.view ∧ k.frame = r.frame)) with
    | some k => u16 k.bytes 2
    | none => r.fflags

/-- Close an open record (R218, R219): the zero bytes to a 64-byte boundary, CONT of the chunks that continue it, and its header. Every OPEN
segment whose window holds it moves `SEALED_THROUGH` (R224). -/
def closeRec (s : State) (v flags : Nat) (t : Time) : State :=
  match openRec s v, posOf s v with
  | some r, some p =>
    let pad := (64 - p.off % 64) % 64
    let s := if 0 < pad then memStore s 3 v (chunkBase p.chunk + p.off) (zeros pad) t else s
    let s := setPos s v p.chunk (p.off + pad)
    let parts := if 0 < pad then r.parts ++ [(p.chunk, p.off, pad)] else r.parts
    let r' := { r with length := r.length + pad, parts := parts, fflags := sealFlags s r, rflags := Nat.lor r.rflags (Nat.lor 1 flags), openNow := false }
    let s := modOpen s v (fun _ => r')
    let cont := (recChunks r').eraseDups.filter (fun k => decide (k ≠ r.chunk))
    let s := cont.foldl (fun s k => setCont s v k
      (sumL ((r'.parts.filter (fun q => decide (q.1 = k))).map (fun q => q.2.2))) t) s
    let s := askSeal (memStore s 3 v (chunkBase r.chunk + r.off) (recHeader r') t) r'
    (List.range 8).foldl (fun s i =>
      if (segOf s.ring i).state = 1 ∧ inWindow (segOf s.ring i) r' then
        modSeg s i (fun g => { g with sealed := max g.sealed r'.fsDtime })
      else s) s
  | _, _ => s

def openViews (s : State) : List Nat := (s.ring.recs.filter (fun r => r.openNow)).map (fun r => r.view)

/-- Every open record is closed. -/
def closeAll (s : State) (flags : Nat) (t : Time) : State := (openViews s).foldl (fun s v => closeRec s v flags t) s

/-- The OPEN segments end at their `SEALED_THROUGH`. -/
def cutSegments (s : State) (flags : Nat) (t : Time) : State :=
  (List.range 8).foldl (fun s i =>
    if (segOf s.ring i).state = 1 then sealSegment (modSeg s i (fun g => { g with end_ := g.sealed })) i flags t else s) s

/-- FULL (R226). DEDUCED: records that can take no chunk close TRUNCATED. -/
def ringFull (s : State) (t : Time) : State :=
  let s := closeAll s 2 t
  cutSegments (s.modRing (fun r => { r with full := true })) 2 t

/-- The chunk that a view takes: a free one of the lowest SEQ, else any unpinned record chunk of the lowest SEQ (R226). -/
def chunkChoice (s : State) : Option Nat :=
  let c := s.ring.chunks.zipIdx.filter (fun c => decide (c.1.state ≠ 3 ∧ c.1.pin = 0))
  let f := c.filter (fun c => decide (c.1.state = 0))
  match (if f.isEmpty then c else f) with
  | [] => none
  | a :: r => some (r.foldl (fun b x => if x.1.seq < b.1.seq then x else b) a).2

/-- With every chunk pinned the oldest SEALED segments are released under DROP_OLDEST; at most 8 are (R226). -/
def freeAChunk : Nat → State → Time → State
  | 0, s, _ => s
  | n + 1, s, t =>
    if (chunkChoice s).isSome then s
    else match oldestSealed s with
      | some i => freeAChunk n (releaseSlot (addLost s (segOf s.ring i).events) i t) t
      | none => s

/-- A view takes a chunk: what it held is lost, its header is written, it is pinned for the OPEN segments of the view, and the directory
follows (R217, R221, R223, R226). The ring enters FULL where there is none. -/
def takeChunk (s : State) (v : Nat) (t : Time) : State :=
  let s := if bit s.ring.flags 1 then freeAChunk 8 s t else s
  match chunkChoice s with
  | none => ringFull s t
  | some k =>
    let pins := (List.range 8).filter (fun i =>
      let g := segOf s.ring i
      decide (g.state = 1 ∧ s.dtime t ≤ g.end_) && bit (Nat.lor g.views g.also) v)
    let h := leBytes 4 0x43484B31 ++ [byte v, 0, 0, 0] ++ leBytes 4 s.ring.seq ++ leBytes 4 0 ++ leBytes 8 (s.dtime t) ++ zeros 36
    let s := s.modRing (fun r => { r with
      chunks := modAt (r.chunks.zipIdx.map (fun c => match r.pos.find? (fun p => p.view = v) with
          | some p => if p.chunk = c.2 ∧ c.1.state = 1 then { c.1 with state := 2 } else c.1
          | none => c.1)) k
        (fun _ => ⟨1, v, bitmap ((List.range 8).map (fun i => pins.contains i)), r.seq, none⟩)
      recs := r.recs.filter (fun x => !(recChunks x).contains k)
      pos := ⟨v, k, 64⟩ :: r.pos.filter (fun p => decide (p.view ≠ v ∧ p.chunk ≠ k))
      seq := (r.seq + 1) % 2 ^ 32 })
    dirWrite (memStore s 3 v (chunkBase k) (h ++ leBytes 4 (crc32c h)) t) t

/-- Append bytes to the open record of a view, over as many chunks as it takes. -/
def appendRec : Nat → State → Nat → List Byte → Time → State
  | 0, s, _, _, _ => s
  | n + 1, s, v, bs, t =>
    match openRec s v with
    | none => s
    | some r =>
      if bs.isEmpty then s
      else match posOf s v with
        | none => s
        | some p =>
          if chunkSize ≤ p.off then
            let s' := takeChunk s v t
            let s' := match posOf s' v with
              | some q => if (openRec s' v).isSome then (openSlotsOf s' r).foldl (fun s i => pinChunks s i [q.chunk]) s' else s'
              | none => s'
            appendRec n s' v bs t
          else
            let m := min bs.length (chunkSize - p.off)
            let s := memStore s 3 v (chunkBase p.chunk + p.off) (bs.take m) t
            let s := setPos s v p.chunk (p.off + m)
            let s := modOpen s v (fun r => { r with
              length := r.length + m
              parts := match r.parts.getLast? with
                | some q => if q.1 = p.chunk ∧ q.2.1 + q.2.2 = p.off then r.parts.dropLast ++ [(q.1, q.2.1, q.2.2 + m)]
                  else r.parts ++ [(p.chunk, p.off, m)]
                | none => [(p.chunk, p.off, m)] })
            appendRec n s v (bs.drop m) t

/-- An open record opens with the FSTART of its frame (R219): the header takes its place, and its chunk is pinned where an OPEN window holds
the frame. -/
def openRecord (s : State) (v : Nat) (b : List Byte) (t : Time) : State :=
  let needs := match posOf s v with | some p => decide (chunkSize ≤ p.off) | none => true
  let s := if needs then takeChunk s v t else s
  match posOf s v with
  | none => s
  | some p =>
    if s.ring.full || decide (chunkSize ≤ p.off) then s
    else
      let r : RingRec := { view := v, frame := u32 b 8, setId := u16 b 6, paramId := u16 b 12, fsDtime := u64 b 24
                           chunk := p.chunk, off := p.off, length := 0, lines := 0, format := u8 b 2, fflags := u16 b 4
                           rflags := 0, tag := zeros 16, parts := [], openNow := true }
      let s := memStore s 3 v (chunkBase p.chunk + p.off) (recHeader r) t
      let s := setPos s v p.chunk (p.off + 64)
      let s := s.modRing (fun x => { x with
        recs := x.recs ++ [r]
        chunks := modAt x.chunks p.chunk (fun c => { c with first := match c.first with | some d => some d | none => some r.fsDtime }) })
      (openSlotsOf s r).foldl (fun s i => pinChunks s i [p.chunk]) s

/-- Bytes in the buffer of the ring writer: those of its write requests that wait for a token or an entry (R220). -/
def ringBuffered (s : State) : Nat := 64 * countIf (fun e : MemEnt => decide (e.cls = 3) && e.op.isWrite) s.mem.wait

/-- A line entry of R218 goes into the open record, or is left out with GAP where the buffer of 2 MiB has no room (R220). -/
def addLine (s : State) (v : Nat) (b : List Byte) (t : Time) : State :=
  let data := b.drop 8
  let e := slice b 0 2 ++ [byte (u8 b 2), 0] ++ leBytes 4 data.length ++ data
  let e := e ++ zeros ((8 - e.length % 8) % 8)
  if 2097152 < ringBuffered s + e.length then modOpen s v (fun r => { r with rflags := Nat.lor r.rflags 4 })
  else
    let s := modOpen s v (fun r => { r with lines := r.lines + 1 })
    appendRec 8 s v e t

/-- A record of a view lies in the window of a segment. -/
def windowHas (g : Segment) (v fs : Nat) : Bool := decide (g.start ≤ fs ∧ fs ≤ g.end_) && bit (Nat.lor g.views g.also) v

/-- CUT, where a freeze has cost a record of a segment's window (R227). -/
def cutFlag (r : Ring) (g : Segment) : Segment :=
  if r.lostRecs.any (fun x => windowHas g x.1 x.2) then { g with flags := Nat.lor g.flags 2 } else g

/-- A freeze costs a record: the OPEN segments whose window holds it carry CUT, and so do those that open over it later (R227). No window reaches
back by more than 60 s. -/
def loseRecord (s : State) (v fs : Nat) : State :=
  s.modRing (fun r =>
    let r := { r with lostRecs := r.lostRecs.filter (fun x => decide (x ≠ (v, fs) ∧ fs ≤ x.2 + 60000000000)) ++ [(v, fs)] }
    { r with segs := r.segs.map (fun g => if g.state = 1 then cutFlag r g else g) })

/-- A frame of a view starts: the mask and the PRE and POST of `CONFIG_RING` come into force for it, and a view that is a ring view from now on
belongs to the OPEN segments (R223, R244). -/
def ringFrameStart (s : State) (v frame : Nat) : State :=
  let on := bit s.ring.views v
  let live (n : Nat) : Bool := s.pipe.frames.any (fun f => decide (f.view.val = v ∧ f.frame = n)) ||
    s.ports.any (fun q => q.vq.any (fun k => decide (k.type = 1 ∧ k.view.map (fun x => x.val) = some v ∧ k.frame = n)))
  s.modRing (fun r => { r with
    viewsAct := setBit r.viewsAct v on
    begun := r.begun.filter (fun e => decide (e ≠ (v, frame)) && (decide (e.1 ≠ v) || live e.2)) ++ (if on then [(v, frame)] else [])
    acts := if on then modAt r.acts v (fun _ => (r.pre, r.post)) else r.acts
    segs := if on then r.segs.map (fun g => if g.state = 1 then { g with also := Nat.lor g.also (2 ^ v) } else g) else r.segs })

/-- A packet of a view leaves its output queue: the ring writer copies it (R219, R222, R227). -/
def packetLeft (s : State) (_p : PortIx) (k : Pkt) (t : Time) : State :=
  match k.view with
  | none => s
  | some v =>
    let b := k.bytes.take (k.bytes.length - 4)
    let on := s.ring.begun.contains (v.val, k.frame)
    let s := if k.type = 1 then s.modRing (fun r => { r with begun := r.begun.filter (fun e => decide (e ≠ (v.val, k.frame))) }) else s
    if s.ring.nAs = 0 then s
    else if isFrozen s.mem then
      match k.type, openRec s v.val with
      | 1, _ => if on then loseRecord s v.val (u64 b 24) else s
      | y, some r => loseRecord (if y = 3 then modOpen s v.val (fun r => { r with fflags := u16 b 2 }) else s) v.val r.fsDtime
      | _, none => s
    else match k.type with
      | 1 =>
        let s := closeRec s v.val 2 t
        if on && decide (ringStateCode s = 1) then openRecord s v.val b t else s
      | 2 => if (openRec s v.val).isSome then addLine s v.val b t else s
      | 3 =>
        let s := modOpen s v.val (fun r => { r with
          fflags := u16 b 2, tag := slice b 24 16, rflags := Nat.lor r.rflags (16 * (u8 b 1 % 2)) })
        closeRec s v.val (if bit (u16 b 2) 0 then 2 else 0) t
      | _ => s

/-- A deleted view leaves the mask (R222). In FROZEN its open record stands until `MEM_RECOVER` (R227). -/
def ringForget (s : State) (v : Nat) (t : Time) : State :=
  let s := if isFrozen s.mem then s else closeRec s v 2 t
  s.modRing (fun r => { r with views := setBit r.views v false, viewsAct := setBit r.viewsAct v false, begun := r.begun.filter (fun e => decide (e.1 ≠ v)) })

/-- After a freeze every open record is closed with TRUNCATED and GAP (R227). -/
def ringThaw (s : State) (t : Time) : State := closeAll s 6 t

/-- Frame memory is unavailable: the ring stops and keeps its sealed segments (R205, R227). -/
def ringStop (s : State) : State :=
  s.modRing (fun r => { r with stopped := decide (r.nAs ≠ 0) || r.stopped, memStop := decide (r.nAs ≠ 0) || r.memStop, recs := r.recs.filter (fun x => !x.openNow) })

/-- FS_DTIME of the oldest record in the ring. -/
def oldestFs (s : State) : Option Nat :=
  match s.ring.recs with
  | [] => none
  | r :: l => some (l.foldl (fun a x => min a x.fsDtime) r.fsDtime)

/-- PRE and POST in force in ms, the longest of the ring views in force: a view keeps its own until its next frame start (R244). Without one they
are those of `CONFIG_RING`. -/
def ringPre (r : Ring) : Nat :=
  if r.viewsAct = 0 then r.pre else maxL (((List.range 16).filter (fun v => bit r.viewsAct v)).map (fun v => (r.acts.getD v (0, 0)).1))
def ringPost (r : Ring) : Nat :=
  if r.viewsAct = 0 then r.post else maxL (((List.range 16).filter (fun v => bit r.viewsAct v)).map (fun v => (r.acts.getD v (0, 0)).2))

/-- Open a segment in a slot for an event at DTIME `d` (R223, R226). DEDUCED: a window that reaches before DTIME 0 starts at 0, and one of an
empty ring carries PRE_SHORT. -/
def openSegment (s : State) (i code flags d end_ : Nat) (t : Time) : State :=
  let start := d - ringPre s.ring * 1000000
  let short := match oldestFs s with | some o => decide (start < o) | none => true
  let g : Segment := { state := 1, flags := Nat.lor flags (b2n short), id := s.ring.nextId, events := 1, views := s.ring.viewsAct, also := 0
                       start := start, end_ := end_, sealed := 0, firstCode := code, lastCode := code, firstEvent := d, lastEvent := d }
  let inw := s.ring.recs.filter (fun r => inWindow g r)
  let g := { cutFlag s.ring g with sealed := maxL ((inw.filter (fun r => !r.openNow)).map (fun r => r.fsDtime)) }
  let s := s.modRing (fun r => { r with segs := modAt r.segs i (fun _ => g), nextId := (r.nextId + 1) % 65536 })
  dirWrite (pinChunks s i (inw.flatMap recChunks)) t

/-- The OPEN segment that an event at `d` extends (R225). -/
def extendable (s : State) (d : Nat) : Option Nat :=
  (List.range 8).find? (fun i => decide ((segOf s.ring i).state = 1 ∧ d ≤ (segOf s.ring i).end_))

/-- A further event in the window of the OPEN segment. -/
def extendSegment (s : State) (i code d : Nat) : State :=
  let s := modSeg s i (fun g => cutFlag s.ring { g with
    end_ := max g.end_ (d + ringPost s.ring * 1000000), events := min 255 (g.events + 1), flags := Nat.lor g.flags 8
    lastCode := code, lastEvent := d })
  pinChunks s i ((s.ring.recs.filter (fun r => inWindow (segOf s.ring i) r)).flatMap recChunks)

def freeSlot (s : State) : Option Nat := (List.range 8).find? (fun i => decide ((segOf s.ring i).state = 0))

/-- A free slot, with the oldest SEALED segment released under DROP_OLDEST where all are in use, and whether that happened (R226). -/
def makeSlot (s : State) (t : Time) : Option Nat × Bool × State :=
  match freeSlot s with
  | some i => (some i, false, s)
  | none =>
    if bit s.ring.flags 1 then
      match oldestSealed s with
      | some i => (some i, true, releaseSlot (addLost s (segOf s.ring i).events) i t)
      | none => (none, false, addLost s 1)
    else (none, false, addLost s 1)

/-! ## Dusk and Dawn (R229, R230, R235) -/

/-- The ring part of Dusk steps 4 and 6 at D: open records and the OPEN segment end, the POWER_LOSS segment opens and seals, and the directory is
written. -/
def ringDusk (s : State) (d : Time) : State :=
  if s.ring.nAs = 0 then s
  else
    let s := closeAll s 2 d
    let s := cutSegments s 4 d
    let s := if bit s.ring.flags 0 && !s.ring.stopped then
        match makeSlot s d with
        | (some i, _, s) => sealSegment (openSegment s i 0xFFFF 16 (s.dtime d) (s.dtime d) d) i 0 d
        | (none, _, s) => s
      else s
    dirWrite s d

/-- Pinned chunks of a directory. -/
def dirPinned (b : List Byte) : List Nat := (List.range 180).filter (fun k => decide (u8 b (66 + 16 * k) ≠ 0))

/-- The header of a chunk reads valid. -/
def chunkHeaderOk (s : State) (k : Nat) : Bool :=
  let h := fmRead s (chunkBase k) 64
  decide (u32 h 0 = 0x43484B31) && decide (u32 h 60 = crc32c (h.take 60))

/-- The directory check after a Buoy (R235): what it finds, and the number of segments recovered, none where the ring is lost. -/
def ringRecover (s : State) (t : Time) : State × Option Nat :=
  let s := memLoad (memLoad s 5 0 (chunkBase 0) 4096 t) 5 0 (chunkBase 0 + dirB) 4096 t
  match dirRead s with
  | none =>
    let n := s.ring.nAs
    ({ s with ring := { Ring.reset with
        nAs := n, chunks := newChunks n, stopped := true, recovered := true, lostFlag := true } }, none)
  | some b =>
    let s := (dirPinned b).foldl (fun s k => memLoad s 5 0 (chunkBase k) 64 t) s
    let bad := (dirPinned b).filter (fun k => !chunkHeaderOk s k)
    let dead := bad.foldl (fun m k => Nat.lor m (u8 b (66 + 16 * k))) 0
    let n := u8 b 8
    let fix (i : Nat) : Segment :=
      let g := { dirSeg b i with also := (segOf s.ring i).also }
      if bit dead i || g.state = 0 then Segment.free
      else if g.state = 1 then { g with state := 2, flags := Nat.lor g.flags 4, end_ := g.sealed }
      else g
    let chunks := (List.range (30 * n)).map (fun k =>
      let c := dirChunk b k
      if k = 0 then ⟨3, 0, 0, 0, none⟩
      else
        let pin := bitmap ((List.range 8).map (fun i => bit c.pin i && !bit dead i))
        if pin = 0 then { Chunk.free with seq := c.seq } else { c with pin := pin, state := 2 })
    let keep := (chunks.zipIdx.filter (fun c => decide (c.1.pin ≠ 0))).map (fun c => c.2)
    let r : Ring := { s.ring with
      nAs := n, flags := u8 b 10, views := u16 b 12, nextId := u16 b 14, pre := u32 b 16, post := u32 b 20
      acts := List.replicate 16 (u32 b 16, u32 b 20), gen := u32 b 4, viewsAct := 0, begun := [], lostRecs := [], full := false, stopped := true, memStop := false, recovered := true, lostFlag := false
      chunks := chunks, segs := (List.range 8).map fix, pos := []
      seq := (maxL (chunks.map (fun c => c.seq)) + 1) % 2 ^ 32
      recs := s.ring.recs.filter (fun x => !x.openNow && (recChunks x).all (fun k => keep.contains k)) }
    let s := { s with ring := r }
    let moved := (List.range 8).any (fun i => decide ((dirSeg b i).state ≠ (fix i).state))
    (if moved then dirWrite s t else s, some (countIf (fun g : Segment => decide (g.state = 2)) r.segs))

/-! ## Reading back (R246, R318, R342) -/

/-- Records of a view in a segment, in increasing FRAME; of an OPEN segment those up to `SEALED_THROUGH`. -/
def segRecs (s : State) (i v : Nat) : List RingRec :=
  let g := segOf s.ring i
  let l := s.ring.recs.filter (fun r => decide (r.view = v) && inWindow g r && !r.openNow && (decide (g.state = 2) || decide (r.fsDtime ≤ g.sealed)))
  l.mergeSort (fun a b => decide (a.frame ≤ b.frame))

def recAt (s : State) (k off : Nat) : Option RingRec := s.ring.recs.find? (fun r => decide (r.chunk = k) && decide (r.off = off))

/-- The address ranges of `n` bytes from offset `off` of the pieces of a record. -/
def pieceSpans : List (Nat × Nat × Nat) → Nat → Nat → List (Nat × Nat)
  | [], _, _ => []
  | p :: r, off, n =>
    if p.2.2 ≤ off then pieceSpans r (off - p.2.2) n
    else
      let m := min n (p.2.2 - off)
      (chunkBase p.1 + p.2.1 + off, m) :: (if m < n then pieceSpans r 0 (n - m) else [])

/-- The final response of a BULK transfer. -/
def bulkEnd (s : State) (p : PortIx) (st : Status) (t : Time) : State :=
  match (s.port p).bulk with
  | none => s
  | some b =>
    let s := s.modPort p (fun q => { q with bulk := none, rel := { q.rel with bulkq := [] } })
    let s := { s with fwq := s.fwq.map (fun j =>
      if j.isOf (.port p) 0x0502 b.tag ∧ b.index ≠ 0 then { j with due := if st = .ok then some (t + 200 * us) else none } else j) }
    respond s ⟨.port p, b.tag, [], t, t, []⟩ 0x0502 .bulk st 0
      (leBytes 4 b.ackRecords ++ leBytes 8 b.ackBytes ++ leBytes 4 (b.last.getD 0xFFFFFFFF))

/-- One BULK packet of the transfer of a port is made, read by the link readers of the port (R189, R318). DESIGN CHOICE: where the record to read next
is gone, the transfer ends with FAULT (log entry 85). -/
def bulkNext (s : State) (p : PortIx) (t : Time) : State :=
  match (s.port p).bulk with
  | none => s
  | some b =>
    match b.items with
    | [] => s
    | it :: rest =>
      match recAt s it.2.1 it.2.2 with
      | none => bulkEnd s p .fault t
      | some r =>
        let total := 64 + r.length
        let n := min 1792 (total - b.off)
        let ends := decide (total ≤ b.off + n)
        let spans := pieceSpans (recPieces r) b.off n
        let flags := b2n (decide (b.off = 0)) + 2 * b2n ends + 4 * b2n (ends && rest.isEmpty)
        let body := leBytes 2 b.tag.toNat ++ [1, byte flags] ++ leBytes 4 b.index ++ leBytes 4 it.1 ++ leBytes 4 b.off ++
          leBytes 4 n ++ spans.flatMap (fun x => fmRead s x.1 x.2)
        let s := spans.foldl (fun s x => memLoad s 4 p.val x.1 x.2 t) s
        s.modPort p (fun q => { q with
          rel := { q.rel with bulkq := q.rel.bulkq ++ [⟨false, b.vs, withCrc32 body, q.rel.nextIdent⟩], nextIdent := q.rel.nextIdent + 1 }
          bulk := some { b with
            index := b.index + 1, items := if ends then rest else b.items, off := if ends then 0 else b.off + n
            live := b.live ++ [(q.rel.nextIdent, if ends then it.1 + 1 else 0, n)] } })

/-- Keep two BULK packets waiting while frame memory serves reads. -/
def bulkRefill (s : State) (p : PortIx) (t : Time) : State :=
  (List.range 2).foldl (fun s _ => if (s.port p).rel.bulkq.length < 2 ∧ s.mem.st = .run then bulkNext s p t else s) s

/-- A packet of the transfer is acknowledged; after the last the final response follows. -/
def bulkAcked (s : State) (p : PortIx) (ident : Nat) (t : Time) : State :=
  match (s.port p).bulk with
  | none => s
  | some b =>
    match b.live.find? (fun x => x.1 = ident) with
    | none => s
    | some x =>
      let b' := { b with
        live := b.live.filter (fun y => decide (y.1 ≠ ident)), ackBytes := b.ackBytes + x.2.2
        ackRecords := b.ackRecords + (if x.2.1 = 0 then 0 else 1), last := if x.2.1 = 0 then b.last else some (x.2.1 - 1) }
      let s := s.modPort p (fun q => { q with bulk := some b' })
      if b'.live.isEmpty && b'.items.isEmpty then bulkEnd s p .ok t else bulkRefill s p t

/-- An exit from ACTIVE, or the loss of frame memory, aborts the transfer (R326). -/
def abortBulk (s : State) (p : PortIx) (t : Time) : State := bulkEnd s p .fault t

/-- A segment is being read (R248). -/
def segRead (s : State) (i : Nat) : Bool := s.ports.any (fun q => match q.bulk with | some b => decide (b.seg = i) | none => false)

end Sys2Proof.Machine
end

