-- ==== Sys2Proof/Machine/ViewPix.lean ====
section
/-! DEFINITION. The arithmetic of pipeline stages 2 to 8 on whole rows (R133, R140 to R147, R173). A row is the list of the
window's pixel values. -/

namespace Sys2Proof.Machine

/-! ## Stage 2, aux sources (R173) -/

/-- A received sample of `n` bits after black level and gain. -/
def auxStage2 (n bl bg v : Nat) : Nat :=
  if v = 2 ^ n - 1 then 0xFFFF
  else
    let x := if n = 20 then v / 16 else v * 2 ^ (16 - n)
    (clampI (sar (((x : Int) - bl) * bg + 2048) 12) 0 0xFFFE).toNat

/-- Dynamic correction of an aux line on 16-bit values (R173). -/
def auxDdc (l : List Nat) (thAbs thRel : Nat) : List Nat :=
  (List.range l.length).map (fun x =>
    let v := l.getD x 0
    let at_ (ok : Bool) (i : Nat) : List Nat :=
      if ok then (match l[i]? with | some n => if n = 0xFFFF then [] else [n] | none => []) else []
    let ns := at_ (decide (4 ≤ x)) (x - 4) ++ at_ (decide (2 ≤ x)) (x - 2) ++ at_ true (x + 2) ++ at_ true (x + 4)
    if ns.length < 2 then v
    else
      let mx := maxL ns
      let mn := minL 0 ns
      if v = 0xFFFF ∧ mx < 32768 then mx
      else if mx + max thAbs (mx * thRel / 256) < v then mx
      else if v + max thAbs (mn * thRel / 256) < mn then mn
      else v)

/-! ## Stages 3 and 4 (R141, R142) -/

/-- The second line of R141. -/
def gainCode (ped c g : Nat) : Nat := (clampI (ped + sar (((c : Int) - ped) * g + 2048) 12) 0 0xFFFFFF).toNat

/-- Bilinear gain from four nodes and the position in the cell, in 1/256. -/
def lscGain (g00 g10 g01 g11 fx fy : Nat) : Nat :=
  (g00 * (256 - fx) * (256 - fy) + g10 * fx * (256 - fy) + g01 * (256 - fx) * fy + g11 * fx * fy + 32768) / 65536 % 65536

/-- Gain of a node: halfword `h` of a bank that starts at an address. -/
def lscNode (s : State) (base h : Nat) : Nat :=
  let r := s.reg (base + 4 * (h / 2))
  if h % 2 = 0 then r % 65536 else r / 65536

/-- Cell and position of coordinate `x` on an aux grid axis of `n` cells over a width. -/
def auxCell (w n x : Nat) : Nat × Nat :=
  let k := ((List.range n).filter (fun k => decide (k * w / n ≤ x))).length - 1
  let lo := k * w / n
  let hi := (k + 1) * w / n
  (k, if hi ≤ lo then 0 else 256 * (x - lo) / (hi - lo))

/-! ## Stage 5 (R143, R144) -/

/-- One curve segment's value. DEDUCED: the slope is cut to the 32 bits that R143 gives it. -/
def curveSeg (x0 y0 x1 y1 c : Nat) : Nat :=
  let slope := (y1 - y0) * 2 ^ 20 / (x1 - x0) % 2 ^ 32
  min y1 (y0 + ((c - x0) * slope + 2 ^ 19) / 2 ^ 20)

/-- The curve through knees, (0, 0) implicit. -/
def curveAt : Nat → Nat → List (Nat × Nat) → Nat → Nat
  | _, y0, [], _ => y0
  | x0, y0, (x1, y1) :: r, c => if c ≤ x1 then curveSeg x0 y0 x1 y1 c else curveAt x1 y1 r c

/-- The knees of the tone curve of R144 from a histogram of 256 bins. -/
def toneCurve (xs : List Nat) (h : List (Nat × Nat)) (lo hi ymax : Nat) : List (Nat × Nat) :=
  let o := (List.range 16).map (fun k => histSum h (16 * k) (16 * k + 15))
  let avg := sumL o / 16
  let w := o.map (fun v => max (avg / 2 ^ lo) (min v (avg * 2 ^ hi)))
  let w := if sumL w = 0 then List.replicate 16 1 else w
  let tot := sumL w
  (List.range 16).map (fun k => (xs.getD k 0, ymax * sumL (w.take (k + 1)) / tot))

/-! ## Stage 6 (R145, R146) -/

/-- Demosaic of one pixel: `px dx dy` is the neighbour, `c` its channel; the result is R, G, B. -/
def demosaic (px : Int → Int → Int) (c : Nat) : Nat × Nat × Nat :=
  let fin (v : Int) : Nat := (clampI (sar (v + 8) 4) 0 65535).toNat
  let ax := px 1 0 + px (-1) 0 + px 0 1 + px 0 (-1)
  let dg := px 1 1 + px (-1) 1 + px 1 (-1) + px (-1) (-1)
  let rowTwo := px 2 0 + px (-2) 0
  let colTwo := px 0 2 + px 0 (-2)
  let o := px 0 0
  let green := fin (8 * o + 4 * ax - 2 * (rowTwo + colTwo))
  let opp := fin (12 * o + 4 * dg - 3 * (rowTwo + colTwo))
  let along := fin (10 * o + 8 * (px 1 0 + px (-1) 0) - 2 * dg - 2 * rowTwo + colTwo)
  let across := fin (10 * o + 8 * (px 0 1 + px 0 (-1)) - 2 * dg - 2 * colTwo + rowTwo)
  match c with
  | 0 => (o.toNat, green, opp)
  | 3 => (opp, green, o.toNat)
  | 1 => (along, o.toNat, across)
  | _ => (across, o.toNat, along)

/-- Colour matrix (R146). -/
def ccmOf (m : List Int) (v : Nat × Nat × Nat) : Nat × Nat × Nat :=
  let row (i : Nat) : Nat :=
    (clampI (sar (m.getD (3 * i) 0 * v.1 + m.getD (3 * i + 1) 0 * v.2.1 + m.getD (3 * i + 2) 0 * v.2.2 + 512) 10 +
      m.getD (9 + i) 0) 0 65535).toNat
  (row 0, row 1, row 2)

/-- Gamma (R146). -/
def gammaOf (lut : List Nat) (v : Nat) : Nat :=
  let i := v / 512
  let f := v % 512
  let a : Int := lut.getD i 0
  let b : Int := lut.getD (i + 1) 0
  (a + sar ((b - a) * f + 256) 9).toNat

/-! ## Stage 7 (R147) -/

/-- Column sums of rows. -/
def sumRows : List (List Nat) → List Nat
  | [] => []
  | [r] => r
  | r :: rs => List.zipWith (· + ·) r (sumRows rs)

def meanRows (rs : List (List Nat)) : List Nat := (sumRows rs).map (fun v => divRound v (max 1 rs.length))

/-- Vertical scaling: row `o` of a plane of `n` rows. -/
def vScale (rows : Nat → List Nat) (n sc o : Nat) : List Nat :=
  let (i, ph) := scTap sc o
  let box (k : Nat) : List Nat := meanRows ((boxRows n (boxF sc) k).map rows)
  if ph = 0 then box i else List.zipWith (fun a b => ((64 - ph) * a + ph * b + 32) / 64) (box i) (box (i + 1))

/-- Rounded means of boxes of `b` values. -/
def hBoxes (b : Nat) : Nat → List Nat → List Nat
  | 0, _ => []
  | n + 1, l =>
    let c := l.take b
    if c.isEmpty then [] else divRound (sumL c) c.length :: hBoxes b n (l.drop b)

/-- The four horizontal weights of a phase, in 1/256; the second takes the rounding error. -/
def hWeights (ph : Nat) : Int × Int × Int × Int :=
  let p : Int := ph
  let rnd (v : Int) : Int := (v + 1024) / 2048
  let a := rnd (-4096 * p + 128 * p * p - p * p * p)
  let c := rnd (4096 * p + 256 * p * p - 3 * p * p * p)
  let d := rnd (-64 * p * p + p * p * p)
  (a, 256 - a - c - d, c, d)

/-- The last window column that an output row of an array view draws on with non-zero weight (R134, R147). -/
def lastCol (p : ViewP) (w ow : Nat) : Nat :=
  if isSamples p then w - 1
  else
    let n := if isRgb p then ow else ow / 2
    let box (o : Nat) : Nat :=
      let (i, ph) := scTap p.scx o
      let (_, _, c, d) := hWeights ph
      i + (if d ≠ 0 then 2 else if c ≠ 0 then 1 else 0)
    let c := boxF p.scx * (maxL ([1, 2, 3].map (fun k => if k ≤ n then box (n - k) else 0)) + 1) - 1
    min (w - 1) (if isRgb p then c + 2 else 2 * c + 1)

/-- Horizontal scaling of a row of a plane to `n` outputs, held to `vmax`. -/
def hScale (sc vmax n : Nat) (l : List Nat) : List Nat :=
  let bx := hBoxes (boxF sc) l.length l
  (List.range n).map (fun o =>
    let (i, ph) := scTap sc o
    let g (k : Int) : Int := bx.getD (clampI k 0 (bx.length - 1 : Nat)).toNat 0
    let (a, b, c, d) := hWeights ph
    (clampI (sar (a * g ((i : Int) - 1) + b * g i + c * g (i + 1) + d * g (i + 2) + 128) 8) 0 vmax).toNat)

/-! ## Stage 8 (R133, R146) -/

/-- Bits of values packed from bit 0 upward, `w` bits each. -/
def packBits (w : Nat) (vs : List Nat) : List Byte :=
  let v := vs.foldr (fun x acc => x % 2 ^ w + 2 ^ w * acc) 0
  leBytes (w * vs.length / 8) v

def packGroups (k w : Nat) : Nat → List Nat → List Byte
  | 0, _ => []
  | n + 1, l => if l.isEmpty then [] else packBits w (l.take k) ++ packGroups k w n (l.drop k)

/-- Twice-rounded luma and colour difference of a 16-bit RGB value (R146). PRESUMED: the coefficients of BT.601 and BT.709. -/
def yuvOf (yuv ten : Bool × Bool) (v : Nat × Nat × Nat) : Nat × Nat × Nat :=
  let (k709, lim) := yuv
  let kr : Int := if k709 then 2126 else 2990
  let kb : Int := if k709 then 722 else 1140
  let kg : Int := 10000 - kr - kb
  let y : Int := kr * v.1 + kg * v.2.1 + kb * v.2.2
  let q : Int := if ten.1 then 4 else 1
  let top : Int := if ten.1 then 1023 else 255
  let span : Int := if lim then 219 * q else top
  let cspan : Int := if lim then 224 * q else top
  let off : Int := if lim then 16 * q else 0
  let rnd (n d : Int) : Int := (2 * n + d) / (2 * d)
  let yc := clampI (off + rnd (y * span) (65535 * 10000)) 0 top
  let ch (x : Nat) (k : Int) : Int :=
    clampI (128 * q + rnd (((x : Int) * 10000 - y) * cspan) (65535 * 2 * (10000 - k))) 0 top
  (yc.toNat, (ch v.2.2 kb).toNat, (ch v.1 kr).toNat)

/-- 4:2:2 components in order Y0, U, Y1, V. -/
def yuv422 : Nat → List (Nat × Nat × Nat) → List Nat
  | 0, _ => []
  | n + 1, l => match l with
    | a :: b :: r => [a.1, divRound (a.2.1 + b.2.1) 2, b.1, divRound (a.2.2 + b.2.2) 2] ++ yuv422 n r
    | _ => []

/-- Bytes of a line of Bayer values. -/
def packBayer (format : Nat) (vs : List Nat) : List Byte :=
  match format with
  | 1 => vs.flatMap (leBytes 3)
  | 2 => packGroups 2 12 vs.length vs
  | 3 => packGroups 4 14 vs.length vs
  | _ => vs.flatMap (leBytes 2)

/-- Bytes of a line of RGB pixels. -/
def packRgb (p : ViewP) (px : List (Nat × Nat × Nat)) : List Byte :=
  let c8 (v : Nat) : Byte := byte (min 255 ((v + 128) / 256))
  match p.format with
  | 0x12 => px.flatMap (fun v => [c8 v.1, c8 v.2.1, c8 v.2.2])
  | 0x10 => (yuv422 px.length (px.map (yuvOf (bit p.yuv 0, bit p.yuv 1) (false, false)))).map byte
  | _ => packGroups 4 10 (4 * px.length) (yuv422 px.length (px.map (yuvOf (bit p.yuv 0, bit p.yuv 1) (true, false))))

/-! ## One output row -/

/-- What stages 3 to 8 read of a frame: the view's parameters and window size, the pedestal and the curve. -/
structure PixCtx where
  p : ViewP
  w : Nat
  h : Nat
  ow : Nat
  ped : Nat
  curve : List (Nat × Nat)
  bay : Nat                 -- Bayer phase of the source's pixel (0, 0) where the scaler rebuilds the mosaic; 0 is RGGB (R147, R173)

/-- A row after stages 3 to 5. `chan` is the channel of a window pixel (x, y), and `lsc` its lens-shading gain. -/
def stages345 (k : PixCtx) (chan lsc : Nat → Nat → Nat) (y : Nat) (row : List Nat) : List Nat :=
  row.zipIdx.map (fun v =>
    let c := v.1
    let ch := chan v.2 y
    let c := if bit k.p.flags 1 then gainCode k.ped c (lsc v.2 y) else c
    let c := gainCode k.ped c (if ch = 0 then k.p.wbR else if ch = 3 then k.p.wbB else k.p.wbG)
    if k.p.curve = 0 then c else curveAt 0 0 k.curve c)

/-- A row of demosaiced, corrected and gamma-encoded pixels; `rows` are rows after stage 5. -/
def rgbRow (k : PixCtx) (chan : Nat → Nat → Nat) (rows : Nat → List Nat) (y : Nat) : List (Nat × Nat × Nat) :=
  let near (d : Int) : List Nat := rows (mirror k.h (y + d))
  let n := [near (-2), near (-1), near 0, near 1, near 2]
  (List.range k.w).map (fun (x : Nat) =>
    let px (dx dy : Int) : Int := ((n.getD (dy + 2).toNat []).getD (mirror k.w (x + dx)) 0 : Nat)
    let v := ccmOf k.p.ccm (demosaic px (chan x y))
    (gammaOf k.p.gamma v.1, gammaOf k.p.gamma v.2.1, gammaOf k.p.gamma v.2.2))

/-- Bytes of output row `oy` of a Bayer, YUV or RGB view; `src` gives window rows after stages 1 and 2. -/
def outRow (k : PixCtx) (chan lsc : Nat → Nat → Nat) (src : Nat → List Nat) (oy : Nat) : List Byte :=
  let rows (y : Nat) : List Nat := stages345 k chan lsc y (src y)
  if isRgb k.p then
    let ch (f : Nat × Nat × Nat → Nat) : List Nat :=
      hScale k.p.scx 65535 k.ow (vScale (fun y => (rgbRow k chan rows y).map f) k.h k.p.scy oy)
    packRgb k.p (List.zipWith (fun a b => (a, b)) (ch (·.1)) (List.zipWith (fun a b => (a, b)) (ch (·.2.1)) (ch (·.2.2))))
  else
    let vmax := if k.p.format = 1 then 0xFFFFFF else yMax k.p
    let plane (px : Nat) : List Nat :=
      hScale k.p.scx vmax (k.ow / 2) (vScale (fun r =>
        ((rows (2 * r + (oy + k.bay / 2) % 2)).zipIdx.filter (fun v => decide (v.2 % 2 = (px + k.bay) % 2))).map (·.1)) (k.h / 2) k.p.scy (oy / 2))
    packBayer k.p.format ((List.zipWith (fun a b => [a, b]) (plane 0) (plane 1)).flatten)

end Sys2Proof.Machine
end

