-- ==== Sys2Proof/Machine/ViewOps.lean ====
section
/-! DEFINITION. Shared operations of views: packets, frames in progress, output rows, drops, and the pauses and stops of views
(R13, R34, R43, R124 to R139, R148 to R151, R313 to R316, R324, R325, R478). -/

namespace Sys2Proof.Machine

def State.view (s : State) (v : Nat) : View := s.pipe.views.getD v View.reset
def State.modView (s : State) (v : Nat) (f : View → View) : State :=
  { s with pipe := { s.pipe with views := modAt s.pipe.views v f } }
def State.modPipe (s : State) (f : Pipe → Pipe) : State := { s with pipe := f s.pipe }

/-- The frame of a view in progress. -/
def vframe (s : State) (v frame : Nat) : Option VFrame :=
  s.pipe.frames.find? (fun f => f.view.val = v && f.frame = frame)
def State.modVf (s : State) (v frame : Nat) (g : VFrame → VFrame) : State :=
  s.modPipe (fun p => { p with frames := p.frames.map (fun f => if f.view.val = v ∧ f.frame = frame then g f else f) })

def viewIx (n : Nat) : ViewIx := Fin.ofNat 16 n
def auxIx (n : Nat) : AuxIx := Fin.ofNat 4 n

/-! ## Aux sources (R161, R176) -/

def auxDt (s : State) (n v : Nat) : Nat := s.fld (aAUX_VC_CFG n v) 7 0
def auxBayer (s : State) (n v : Nat) : Nat := s.fld (aAUX_VC_CFG n v) 9 8
def auxW (s : State) (n v : Nat) : Nat := s.fld (aAUX_VC_GEOM n v) 15 0
def auxH (s : State) (n v : Nat) : Nat := s.fld (aAUX_VC_GEOM n v) 31 16
def auxFrameIv (s : State) (n v : Nat) : Time := s.fld (aAUX_VC_TIME n v) 15 0 * 10 * us

/-- Bits of a raw sample; 8 for what is not a raw type (R161). -/
def dtBits (dt : Nat) : Nat :=
  match dt with | 0x2B => 10 | 0x2C => 12 | 0x2D => 14 | 0x2E => 16 | 0x2F => 20 | 0x1F => 10 | _ => 8
def dtRaw (dt : Nat) : Bool := decide (0x2A ≤ dt ∧ dt ≤ 0x2F)
def dtYuv (dt : Nat) : Bool := decide (dt = 0x1E ∨ dt = 0x1F)
def dtKnown (dt : Nat) : Bool := dtRaw dt || dtYuv dt || decide (dt = 0x12)

/-- Bytes that hold one pixel (R161). -/
def dtHeld (dt : Nat) : Nat :=
  if dt = 0x1F then 4 else if dt = 0x2F then 3 else if dt = 0x12 ∨ dt = 0x2A then 1 else 2

/-- Samples per pixel. -/
def dtParts (dt : Nat) : Nat := if dtYuv dt then 2 else 1

/-- Bytes of 16 pixels in AUXRAW (R133). -/
def dtBytes16 (dt : Nat) : Nat := if dt = 0x1F then 40 else 16 * dtHeld dt

/-- Bytes of a line of a view over a source. -/
def viewLineBytes (p : ViewP) (ow dt : Nat) : Nat :=
  if isAuxRaw p then ow / 16 * dtBytes16 dt else lineBytes p ow 1

/-- Packing of ten-bit components as received. PRESUMED: CSI-2's order, four bytes of high bits and then the low bits. -/
def packCsi10 : Nat → List Nat → List Byte
  | 0, _ => []
  | n + 1, l => match l with
    | a :: b :: c :: d :: r =>
      [byte (a / 4), byte (b / 4), byte (c / 4), byte (d / 4), byte (a % 4 + 4 * (b % 4) + 16 * (c % 4) + 64 * (d % 4))] ++ packCsi10 n r
    | _ => []

/-- An AUXRAW line from samples as received. -/
def packAuxRaw (dt : Nat) (l : List Nat) : List Byte :=
  if dt = 0x1F then packCsi10 l.length l
  else if dt = 0x2F then l.flatMap (leBytes 3)
  else if dt = 0x12 ∨ dt = 0x2A ∨ dt = 0x1E then l.map byte
  else l.flatMap (leBytes 2)

/-- Received components U Y0 V Y1 in the order of YUV422. PRESUMED: CSI-2's component order. -/
def yuvOrder : Nat → List Nat → List Nat
  | 0, _ => []
  | n + 1, l => match l with
    | u :: y0 :: v :: y1 :: r => [y0, u, y1, v] ++ yuvOrder n r
    | _ => []

/-! ## Packets (R138, R297, R313 to R316) -/

/-- Bytes of a view that wait in its output queue. -/
def queueFill (s : State) (v : Nat) : Nat :=
  sumL (((s.port (s.view v).owner).vq.filter (fun k => k.view = some (viewIx v))).map (fun k => k.bytes.length - k.done))

/-- Put a packet of a view in its output queue. -/
def queuePkt (s : State) (v type frame : Nat) (body : List Byte) : State :=
  let w := s.view v
  s.modPort w.owner (fun q => { q with vq := q.vq ++ [⟨type, w.p.vs, withCrc32 body, 0, some (viewIx v), frame⟩] })

def cFSTART : Nat := 1
def cLINE : Nat := 2
def cFEND : Nat := 3
def cSTATS : Nat := 4

/-- FSTART bytes 0 to 39 (R313). -/
def fstartBody (f : VFrame) : List Byte :=
  let dt := f.auxAct.getD 9 0
  [byte f.view.val, byte f.p.source, byte f.p.format, byte f.p.order] ++ leBytes 2 (f.fflags % 32) ++ leBytes 2 f.setId ++
  leBytes 4 f.frame ++ leBytes 2 f.paramId ++ leBytes 2 f.ow ++ leBytes 2 f.oh ++ [0, 0] ++
  leBytes 4 (viewLineBytes f.p f.ow dt) ++ leBytes 8 f.fsD ++ leBytes 4 f.spanNs ++ zeros 4

/-- The AES-256-CMAC of a frame (R478). -/
def tagOf (f : VFrame) (fend : List Byte) : List Byte :=
  match f.tag with
  | some b => cmac f.tk (b ++ fend)
  | none => zeros 16

/-- The end of a frame that a FEND sent before it names: for the array the scheduled end of its last sample-row slot, and for aux, where it is not known,
the instant of the FEND (R315; DESIGN CHOICE, log entry 84). -/
def feAt (s : State) (f : VFrame) (t : Time) : Time :=
  match (s.seq.cur.toList ++ s.seq.prev.toList).find? (fun x => decide (f.p.source = 0 ∧ x.num = f.frame)) with
  | some x => max t (plannedEnd x)
  | none => t

/-- A FEND that is owed names the end of its frame (R315, R325). -/
def cutEnds (b : List Byte) (d : Nat) : List Byte := slice b 0 16 ++ leBytes 8 d ++ slice b 24 16

/-- FEND without its CRC (R315), with given flags, line counts and OR of line flags. -/
def fendBody (s : State) (f : VFrame) (flags lines lost lor : Nat) (t : Time) : List Byte :=
  let ff := Nat.lor flags (if 0 < lost then 32 else 0)
  let head := [byte f.view.val, byte (b2n f.tag.isSome)] ++ leBytes 2 ff ++ leBytes 4 f.frame ++ leBytes 2 lines ++ leBytes 2 lost ++
    [byte lor, 0, 0, 0] ++ leBytes 8 (if f.srcEnd.isSome then f.endD else s.dtime (feAt s f t))
  head ++ tagOf f head

/-! ## Missed frames (R128, R129) -/

def notifyDrop (s : State) (v reason first count : Nat) (t : Time) : State :=
  notify s (s.view v).owner 0x8007 ([byte v, byte reason, 0, 0] ++ leBytes 4 first ++ leBytes 4 count) t

/-- Report what has been missed, and count anew. -/
def reportMiss (s : State) (v : Nat) (t : Time) : State :=
  let w := s.view v
  let s := notifyDrop s v w.missReason w.missFirst w.missCount t
  s.modView v (fun w => { w with missCount := 0, missAt := some t })

/-- A view misses a frame: counted, and reported at once when it is the first, also the first for want of memory, or a second has passed. In PAUSED
the report waits for the return (R128, R325). -/
def missFrame (s : State) (v frame reason : Nat) (t : Time) : State :=
  let s := if reason = 4 then s else s.bump (aPIPE_VDROP v) 31 16 1
  let w := s.view v
  let now := decide (reason ≠ 1) && (!w.missing || decide (reason = 2 ∧ w.missReason ≠ 2) || (match w.missAt with | some a => decide (a + sec ≤ t) | none => true))
  let s := s.modView v (fun w => { w with
    missFirst := if w.missCount = 0 then frame else w.missFirst
    missCount := w.missCount + 1, missReason := reason, missing := true })
  if now then reportMiss s v t else s

/-! ## Source rows (R13, R38, R43, R134, R137) -/

/-- Side of a tile in the frame's columns. -/
def VFrame.sideX (f : VFrame) : Nat := if f.binned && !isSamples f.p then 256 else 512
def VFrame.sideY (f : VFrame) : Nat := if f.binned then 256 else 512

/-- Frame-store address of window row `y` of a RASTER array view. -/
def storeAddr (s : State) (f : VFrame) (y : Nat) : Nat :=
  let base := match (s.view f.view.val).region with | some r => r.1 * mib | none => 0
  base + f.store * (f.sw * f.sh * 3) + y * f.sw * 3

/-- Fill for part of a row: its flags with it. -/
def fillPart (f : VFrame) (n flag : Nat) : List Nat × Nat := (List.replicate n f.p.fill, flag)

/-- The part of window row `y` that tile column `c` gives, for lines of kind `q`. -/
def arrPart (s : State) (f : VFrame) (y c : Nat) (q : Option Nat) : List Nat × Nat :=
  let yy := f.sy + y
  let b := yy / f.sideY
  let r := yy % f.sideY
  let t := 16 * b + c
  let lo := max f.sx (c * f.sideX)
  let hi := min (f.sx + f.sw) ((c + 1) * f.sideX)
  let off := !f.en.getD t false
  let out := decide (r < f.rowLo ∨ f.rowHi ≤ r)
  if off || out then fillPart f (hi - lo) (2 * b2n off + 4 * b2n out)
  else if f.p.order = 1 then
    let bytes := fmRead s (storeAddr s f y + (lo - f.sx) * 3) ((hi - lo) * 3)
    ((List.range (hi - lo)).map (fun k => u24 bytes (3 * k)), 0)
  else
    match s.pipe.lines.find? (fun l => l.src = 0 && l.unit = t && l.frame = f.frame && l.row = r && decide (l.kind = q)) with
    | some l =>
      if l.codes.isEmpty then fillPart f (hi - lo) l.flags
      else ((l.codes.drop (lo - c * f.sideX)).take (hi - lo), l.flags)
    | none => fillPart f (hi - lo) 1

/-- The last tile column that a view's output draws on. -/
def VFrame.lastTile (f : VFrame) : Nat := (f.sx + lastCol f.p f.sw f.ow) / f.sideX

/-- A window row of an array view, with the line flags of the parts that its output draws on (R134). -/
def arrRow (s : State) (f : VFrame) (y : Nat) (q : Option Nat) : List Nat × Nat :=
  let c0 := f.sx / f.sideX
  let c1 := (f.sx + f.sw - 1) / f.sideX
  let parts := (List.range (c1 + 1 - c0)).map (fun k => arrPart s f y (c0 + k) q)
  (parts.flatMap (·.1), (parts.take (f.lastTile + 1 - c0)).foldl (fun a p => Nat.lor a p.2)
    (((f.lineFlags.find? (fun l => l.1 = y)).map (·.2)).getD 0))

/-- Address of row `row` of a store of an aux stream. -/
def auxStoreAddr (s : State) (n v store row : Nat) : Nat :=
  let base := match (s.aux.getD n AuxIn.reset).region.getD v none with | some r => r.1 * mib | none => 0
  let line := auxW s n v * dtHeld (auxDt s n v)
  base + (store * auxH s n v + row) * line

/-- A line of samples as the frame stores hold it, and back (R161). -/
def auxToBytes (dt : Nat) (l : List Nat) : List Byte := l.flatMap (leBytes (dtHeld dt / dtParts dt))
def auxOfBytes (dt : Nat) (bs : List Byte) : List Nat :=
  let k := dtHeld dt / dtParts dt
  (List.range (bs.length / k)).map (fun i => leVal (slice bs (k * i) k))

/-- A window row of an aux view as received, with its line flags. -/
def auxRow (s : State) (f : VFrame) (y : Nat) : List Nat × Nat :=
  let n := f.p.source - 1
  let v := f.p.vc
  let dt := f.auxAct.getD 9 0
  let k := dtParts dt
  let cut (l : List Nat) : List Nat := (l.drop (k * f.sx)).take (k * f.sw)
  if f.p.order = 1 then
    (cut (auxOfBytes dt (fmRead s (auxStoreAddr s n v f.store (f.sy + y)) (f.geomW * dtHeld dt))),
     ((f.lineFlags.find? (fun l => l.1 = f.sy + y)).map (·.2)).getD 0)
  else
    match s.pipe.lines.find? (fun l => l.src = f.p.source && l.unit = v && l.frame = f.frame && l.row = f.sy + y) with
    | some l => (cut (l.codes ++ List.replicate (k * f.geomW - l.codes.length) (f.auxAct.getD 5 0 % 2 ^ dtBits dt)), l.flags)
    | none => (List.replicate (k * f.sw) (f.auxAct.getD 5 0 % 2 ^ dtBits dt), 0x40)

/-- A window row after stage 2, as codes (R140, R173). Stage 2 runs on the whole line. -/
def auxCodes (s : State) (f : VFrame) (y : Nat) : List Nat :=
  let g := { f with sx := 0, sw := f.geomW }
  let dt := f.auxAct.getD 9 0
  let v := (auxRow s g y).1.map (auxStage2 (dtBits dt) (f.auxAct.getD 6 0) (f.auxAct.getD 7 0))
  let v := if f.auxAct.getD 1 0 = 1 then auxDdc v (f.auxAct.getD 4 0) (f.auxAct.getD 3 0) else v
  (((v.drop f.sx).take f.sw).map (· * 256))

/-! ## Output rows (R120, R133 to R136) -/

/-- Channel of a window pixel: by the array's mosaic, or by the stream's Bayer phase. -/
def chanAt (f : VFrame) (x y : Nat) : Nat :=
  if f.p.source = 0 then chanOf x y
  else
    let b := f.auxAct.getD 10 0
    chanOf (x + b % 2) (y + b / 2)

/-- Lens-shading gain of a window pixel (R141). -/
def lscAt (s : State) (f : VFrame) (x y : Nat) : Nat :=
  let c := chanAt f x y
  if f.p.source = 0 then
    let pos (v : Nat) : Nat := if f.binned then 4 * (v / 2) + v % 2 else v
    let px := pos (f.sx + x)
    let py := pos (f.sy + y)
    let g (dx dy : Nat) : Nat := lscNode s (aPIPE_LSC_A f.lsc 0) (c * 825 + (py / 256 + dy) * 33 + px / 256 + dx)
    lscGain (g 0 0) (g 1 0) (g 0 1) (g 1 1) (px % 256) (py % 256)
  else
    let n := f.p.source - 1
    let base := if f.lsc = 0 then aPIPE_LSC_X0 n 0 else aPIPE_LSC_X1 n 0
    let (k, fx) := auxCell f.geomW 16 (f.sx + x)
    let (m, fy) := auxCell f.geomH 12 (f.sy + y)
    let g (dx dy : Nat) : Nat := lscNode s base (c * 221 + (m + dy) * 17 + k + dx)
    lscGain (g 0 0) (g 1 0) (g 0 1) (g 1 1) fx fy

/-- Bayer phase that the scaler takes off: that of a scaled aux source (R147, R173). -/
def bayerOf (f : VFrame) : Nat := if f.p.source ≠ 0 ∧ scaled f.p then f.auxAct.getD 10 0 else 0

/-- Window rows that an output row of a frame draws on. -/
def vfRows (f : VFrame) (oy : Nat) : List Nat := rowsNeeded f.p f.sh (bayerOf f / 2) oy

/-- Bytes of the line of output row `oy` and kind `q`, and its line flags. -/
def lineOf (s : State) (f : VFrame) (oy q : Nat) : List Byte × Nat :=
  let arr := decide (f.p.source = 0)
  let dt := f.auxAct.getD 9 0
  let rows := vfRows f oy
  let flags := rows.foldl (fun a y => Nat.lor a (if arr then (arrRow s f y (if isSamples f.p then some q else none)).2
    else (auxRow s f y).2)) 0
  if isSamples f.p then
    ((arrRow s f oy (some q)).1.flatMap (fun v => leBytes 2 (v % 4096 + 4096 * q)), flags)
  else if isAuxRaw f.p then (packAuxRaw dt (auxRow s f oy).1, flags)
  else if !arr && dtYuv dt then
    let l := yuvOrder f.sw (auxRow s f oy).1
    (if dt = 0x1E then l.map byte else packGroups 4 10 l.length l, flags)
  else
    let k : PixCtx := { p := f.p, w := f.sw, h := f.sh, ow := f.ow, ped := f.ped, curve := f.curve, bay := bayerOf f }
    (outRow k (chanAt f) (lscAt s f) (fun y => if arr then (arrRow s f y none).1 else auxCodes s f y) oy, flags)

/-- BAND of a LINE. DEDUCED: the band of the first source row that its first tap draws on. -/
def lineBand (f : VFrame) (oy : Nat) : Nat :=
  if f.p.source = 0 ∧ f.p.order = 0 then (f.sy + (vfRows f oy).headD 0) / f.sideY else 0xFF

/-- Queue one completed line, or drop it where the queue has no room (R138). -/
def queueLine (s : State) (f : VFrame) (oy q : Nat) (t : Time) : State :=
  let v := f.view.val
  let (bytes, flags) := lineOf s f oy q
  let row := if isSamples f.p then f.sy + oy else oy
  let hdr := leBytes 2 row ++ [byte flags, byte (lineBand f oy)] ++ leBytes 2 f.frame ++ [byte q, byte v]
  let body := hdr ++ bytes
  if queueFill s v + body.length + 4 ≤ 262144 then
    let s := queuePkt s v cLINE f.frame body
    s.modVf v f.frame (fun f => { f with
      queued := f.queued + 1, lor := Nat.lor f.lor flags, rows := f.rows.filter (fun r => r ≠ (oy, q)), tag := f.tag.map (· ++ body) })
  else
    let first := !f.dropNoted
    let s := s.bump (aPIPE_VDROP v) 15 0 1
    let s := s.modVf v f.frame (fun f => { f with
      lost := f.lost + 1, lor := Nat.lor f.lor flags, rows := f.rows.filter (fun r => r ≠ (oy, q)), dropNoted := true })
    if first then missFrame s v f.frame 4 t else s

/-- FSTART, once per frame, ahead of its first line. -/
def startVf (s : State) (f : VFrame) : State :=
  if f.started then s
  else
    let body := fstartBody f
    let s := queuePkt s f.view.val cFSTART f.frame body
    let s := s.setReg (aPIPE_VPARAM f.view.val) f.paramId
    let s := s.setReg (aPIPE_VSIZE f.view.val) (f.ow + 65536 * f.oh)
    s.modVf f.view.val f.frame (fun f => { f with started := true, tag := f.tag.map (· ++ body) })

def removeVf (s : State) (v frame : Nat) : State :=
  s.modPipe (fun p =>
    let fs := p.frames.filter (fun f => !(decide (f.view.val = v) && decide (f.frame = frame)))
    { p with
      frames := fs
      ready := p.ready.filter (fun j => !(decide (j.view.val = v) && decide (j.frame = frame)))
      lines := p.lines.filter (fun l => fs.any (fun f => f.p.source = l.src && f.frame = l.frame &&
        (decide (l.src = 0) || decide (f.p.vc = l.unit)))) })

/-- FEND, after the last line, with extra frame flags; the frame is no longer in progress. -/
def endVf (s : State) (f : VFrame) (extra : Nat) (t : Time) : State :=
  let s := startVf s f
  let f := (vframe s f.view.val f.frame).getD f
  let s := queuePkt s f.view.val cFEND f.frame (fendBody s f (Nat.lor (flagsNow s f) extra) f.queued f.lost f.lor t)
  let s := s.setReg (aPIPE_VFRAME f.view.val) f.frame
  -- a whole frame ends a run of missed ones, one without a dropped line a run of those (R128, R138)
  let s := s.modView f.view.val (fun w => { w with missing := w.missing && (if w.missReason = 4 then decide (f.lost ≠ 0) else bit extra 0) })
  removeVf s f.view.val f.frame

/-- The view's stream is LATE (R169). -/
def sourceLate (s : State) (p : ViewP) : Bool :=
  decide (p.source ≠ 0) && ((s.aux.getD (p.source - 1) AuxIn.reset).vcs.getD p.vc AuxVc.reset).late

/-- End a frame whose rows have all been queued and whose source has ended; not while its stream is LATE (R169). -/
def finishVf (s : State) (v frame : Nat) (t : Time) : State :=
  match vframe s v frame with
  | some f =>
    if f.rows.isEmpty && f.srcEnd.isSome && !sourceLate s f.p then
      let s := match f.late with
        | some l => if l < t then s.bump aPIPE_LATE 31 0 1 else s
        | none => s
      endVf s f 0 t
    else s
  | none => s

/-- End a frame early (R91, R139): with an FEND flagged TRUNCATED where it has begun, otherwise without a trace. -/
def truncateVf (s : State) (f : VFrame) (extra : Nat) (t : Time) : State :=
  if f.started then endVf s f (Nat.lor 1 extra) t else removeVf s f.view.val f.frame

/-! ## Groups and jobs (R135, R136, R148) -/

/-- Bands and rows of a LIVE array view go by tile rows; other views by window rows. -/
def banded (f : VFrame) : Bool := decide (f.p.source = 0 ∧ f.p.order = 0)

/-- Band and group of window row `y`. -/
def groupOf (f : VFrame) (y : Nat) : Nat × Nat :=
  if banded f then ((f.sy + y) / f.sideY, (f.sy + y) % f.sideY / 16) else (12, y / 16)

/-- Window rows of a group. -/
def groupRows (f : VFrame) (b g : Nat) : List Nat :=
  if banded f then
    ((List.range 16).map (fun k => b * f.sideY + 16 * g + k)).filterMap (fun yy =>
      if f.sy ≤ yy ∧ yy < f.sy + f.sh then some (yy - f.sy) else none)
  else ((List.range 16).map (fun k => 16 * g + k)).filter (fun y => decide (y < f.sh))

/-- The group whose completion completes output row `oy`: that of its needed row that arrives last. -/
def ownerGroup (f : VFrame) (oy : Nat) : Nat × Nat :=
  let rs := vfRows f oy
  if banded f then
    let key (y : Nat) : Nat :=
      let r := (f.sy + y) % f.sideY
      if r < f.rowLo ∨ f.rowHi ≤ r then 0 else r + 1
    groupOf f (rs.foldl (fun a y => if key a < key y then y else a) (rs.headD 0))
  else groupOf f (maxL rs)

def stripeCount (f : VFrame) : Nat := divCeil f.sw 512

/-- Every stripe of a group has left stage 8. -/
def groupDone (f : VFrame) (b g : Nat) : Bool :=
  (List.range (stripeCount f)).all (fun k => f.jobs.contains (b, g, k))

/-- The lines of window row `y` in columns `[lo, hi)` of the source have reached the pipeline, or are fill. -/
def rowArrived (s : State) (f : VFrame) (lo hi y : Nat) : Bool :=
  if f.p.source = 0 then
    let b := (f.sy + y) / f.sideY
    let r := (f.sy + y) % f.sideY
    let c0 := lo / f.sideX
    let c1 := (hi - 1) / f.sideX
    let got (t : Nat) (k : Option Nat) : Bool :=
      s.pipe.lines.any (fun l => l.src = 0 && l.unit = t && l.frame = f.frame && l.row = r && decide (l.kind = k))
    decide (r < f.rowLo ∨ f.rowHi ≤ r) ||
    (List.range (c1 + 1 - c0)).all (fun i =>
      let t := 16 * b + c0 + i
      !f.en.getD t false || (if isSamples f.p then (List.range f.s).all (fun q => got t (some q)) else got t none))
  else s.pipe.lines.any (fun l => l.src = f.p.source && l.unit = f.p.vc && l.frame = f.frame && l.row = f.sy + y)

/-- The lines that stripe `k` of a group reads, margins and seam rows included, have reached the pipeline (R136, R148). -/
def groupArrived (s : State) (f : VFrame) (b g k : Nat) : Bool :=
  if f.p.order = 1 then f.readback.isSome && memUp s
  else
    let lo := f.sx + 512 * k - min 16 (512 * k)
    let hi := min (f.sx + f.sw) (f.sx + 512 * (k + 1) + 16)
    let seam := (f.rows.filter (fun r => decide (ownerGroup f r.1 = (b, g)))).flatMap (fun r => vfRows f r.1)
    (groupRows f b g ++ seam).all (rowArrived s f lo hi)

/-- A finished job: its rows that are now complete leave in ascending order. -/
def jobDone (s : State) (j : Job8) (t : Time) : State :=
  match vframe s j.view.val j.frame with
  | none => s
  | some f =>
    let s := startVf s f
    let s := s.modVf f.view.val f.frame (fun f => { f with jobs := f.jobs ++ [(j.band, j.group, j.stripe)] })
    match vframe s j.view.val j.frame with
    | none => s
    | some f =>
      let s :=
        if groupDone f j.band j.group then
          (f.rows.filter (fun r => decide (ownerGroup f r.1 = (j.band, j.group)))).foldl (fun s r =>
            match vframe s j.view.val j.frame with
            | some f => queueLine s f r.1 r.2 t
            | none => s) s
        else s
      finishVf s j.view.val j.frame t

/-! ## Opening a frame (R126, R127, R132, R144, R325) -/

/-- Soft parameters whose stamp lies before the frame start come into force, and the tag setting likewise (R127, R477). -/
def applySoft (w : View) (fs : Time) : View :=
  let now := w.soft.filter (fun x => decide (x.stamp < fs))
  let w := match now.reverse with
    | x :: _ => { w with p := x.p, paramId := x.id, soft := w.soft.filter (fun x => !decide (x.stamp < fs)) }
    | [] => w
  match w.tagPend with
  | some (a, k) => if a < fs then { w with tags := k, tagPend := none } else w
  | none => w

/-- Whether a view would take frame `n` whose latch or frame start is at `at_`. -/
def takesFrame (w : View) (n : Nat) (at_ : Time) : Bool :=
  w.stopHow.isNone && decide (w.takeFrom < at_) && decide (n % max 1 w.p.decim = w.p.phase)

/-- The newest record of a source (R154). -/
def newestStats (s : State) (src : Nat) : Option StatRec := s.arr.stats.find? (fun r => r.src = src)

/-- Curve of a frame whose frame start is `fs` (R143, R144), and the frame whose statistics gave it: the newest that were complete then. -/
def frameCurve (s : State) (p : ViewP) (ped hbase : Nat) (fs : Time) : List (Nat × Nat) × Option Nat :=
  if p.curve = 1 then (p.knee.take p.knees, none)
  else if p.curve = 2 then
    let xs := if p.source = 0 then (List.range 15).map (fun k => ped + 2 ^ (hbase + k + 1)) ++ [0xFFFFFF]
      else (List.range 16).map (fun k => min 0xFFFFFF (2 ^ (9 + k)))
    match s.arr.stats.find? (fun r => r.src = p.source && decide (r.at_ ≤ fs)) with
    | some r =>
      let h := if p.source = 0 then histMerge (r.chan.getD 1 []) (r.chan.getD 2 []) 32 else r.chan.getD 0 []
      (toneCurve xs h (p.tm % 16) (p.tm / 16) (yMax p), some r.frame)
    | none => (toneCurve xs [] (p.tm % 16) (p.tm / 16) (yMax p), none)
  else ([], none)

/-- Tags go on only while the owner is authenticated and no LOCK stands (R478). -/
def tagKeyNow (s : State) (w : View) : Option (List Byte) :=
  if (portAuth s w.owner).isSome && !s.sec.lockStands then w.tags else none

/-- A frame of a view from its source's facts. -/
def openVf (s : State) (v : Nat) (f : VFrame) (hbase : Nat) : State :=
  let w := s.view v
  let p := w.p
  let (curve, src) := frameCurve s p f.ped hbase f.fsAt
  let s := match src with | some n => s.setReg (aPIPE_VTMSRC v) n | none => s
  let tk := tagKeyNow s w
  let rows := (List.range f.oh).flatMap (fun y => (List.range f.s).map (fun q => (y, q)))
  let f := { f with curve := curve, tag := tk.map (fun _ => []), tk := tk.getD [], rows := rows, store := w.store }
  let s := ringFrameStart s v f.frame
  let s := s.modView v (fun w => { w with store := 1 - w.store })
  s.modPipe (fun q => { q with frames := q.frames ++ [f] })

/-- A view's frame of the array (R76, R120, R130, R131, R134). DESIGN CHOICE: one whose OW or OH is 0 when binned is sent, with empty lines or without
lines (log entry 34). -/
def arrVf (s : State) (v : Nat) (w : View) (f : Frame) : VFrame :=
  let g := f.set
  let (sx, sy, sw, sh) := viewWin w.p g.bin
  let (ow, oh) := if isSamples w.p then (sw, sh) else outSize w.p sw sh
  let pat := f.cfg.pat
  { view := viewIx v, frame := f.num, setId := f.id, p := w.p, paramId := w.paramId, binned := g.bin, sx := sx, sy := sy, sw := sw
    sh := sh, ow := ow, oh := oh, fsAt := f.fs, fsD := f.fsD, spanNs := spanNs f.tread
    fflags := 2 * b2n f.resync + 4 * b2n g.bin + 8 * b2n (decide (pat ≠ 0)) + 16 * b2n s.sec.untrusted
    s := if isSamples w.p then g.S else 1, ped := f.cfg.ped, started := false, jobs := [], rows := [], queued := 0
    lost := 0, lor := 0, srcEnd := none, endD := 0, store := 0, readback := none, late := none, curve := [], lineFlags := [], tag := none
    tk := [], en := f.en, rowLo := winFirst g, rowHi := winFirst g + g.rows, lsc := f.lsc, interval := f.per * w.p.decim
    dropNoted := false, auxAct := [], geomW := 0, geomH := 0 }

/-- The store that a RASTER view would give its next frame still holds one that is being read back (R137). -/
def storeBusy (s : State) (v : Nat) : Bool :=
  s.pipe.frames.any (fun f => decide (f.view.val = v ∧ f.p.order = 1 ∧ f.store = (s.view v).store))

/-- What a view's frame takes from the array frame's engine configuration, once more: for a write that reached it late (R15, R122, R158). -/
def reconfigure (s : State) (f : Frame) : State :=
  (s.pipe.frames.filter (fun x => decide (x.p.source = 0 ∧ x.frame = f.num))).foldl (fun s x =>
    let (curve, src) := frameCurve s x.p f.cfg.ped (bits f.cfg.ctl 11 8) x.fsAt
    let s := match src with | some n => s.setReg (aPIPE_VTMSRC x.view.val) n | none => s
    s.modVf x.view.val x.frame (fun x => { x with
      ped := f.cfg.ped, lsc := f.lsc, curve := curve
      fflags := x.fflags - 8 * (x.fflags / 8 % 2) + 8 * b2n (decide (f.cfg.pat ≠ 0)) })) s

/-- The frame start of an array frame reaches the views (R126 to R128, R325). A RASTER view whose store for it is still being read back misses it
(DEDUCED from R137; REASON 2 as R172 has it). -/
def openArrayFrame (s : State) (f : Frame) (t : Time) : State :=
  (List.range 16).foldl (fun s v =>
    let w := s.view v
    if w.p.source ≠ 0 ∨ !w.started then s
    else
      let s := s.modView v (fun w => applySoft w f.fs)
      let w := s.view v
      if !takesFrame w f.num f.elp then s
      else if w.st = .paused then missFrame s v f.num 1 t
      else if w.p.order = 1 ∧ (!memUp s ∨ storeBusy s v) then missFrame s v f.num 2 t
      else openVf s v (arrVf s v w f) (bits f.cfg.ctl 11 8)) s

/-- The source frame has ended (R133 to R137). -/
def endSource (s : State) (src vc frame : Nat) (t : Time) : State :=
  let hit (f : VFrame) : Bool := decide (f.p.source = src ∧ f.frame = frame) && (decide (src = 0) || decide (f.p.vc = vc))
  let ids := (s.pipe.frames.filter hit).map (fun f => f.view.val)
  let s := s.modPipe (fun q => { q with views := q.views.map (fun w =>
    if w.p.source = src ∧ (src = 0 ∨ w.p.vc = vc) then { w with cut := w.cut.map (fun b => if u32 b 4 = frame then cutEnds b (s.dtime t) else b) } else w) })
  ids.foldl (fun s v => finishVf (s.modVf v frame (fun f => { f with srcEnd := some t, endD := s.dtime t })) v frame t) s

/-- The source frame was cut short: its frames end TRUNCATED (R91, R168). -/
def truncateSource (s : State) (src vc frame extra : Nat) (t : Time) : State :=
  let hit (f : VFrame) : Bool := decide (f.p.source = src ∧ f.frame = frame) && (decide (src = 0) || decide (f.p.vc = vc))
  (s.pipe.frames.filter hit).foldl (fun s f => truncateVf s { f with srcEnd := some (f.srcEnd.getD t), endD := if f.srcEnd.isSome then f.endD else s.dtime t } extra t) s

/-! ## Resources, pauses and stops (R125, R139, R324, R325) -/

/-- The frame stores of an aux stream, given back when its last started RASTER view leaves (R172, R188). -/
def releaseAuxStore (s : State) (n vc : Nat) : State :=
  let used := s.pipe.views.any (fun w => w.started && decide (w.p.source = n + 1 ∧ w.p.vc = vc ∧ w.p.order = 1))
  match (s.aux.getD n AuxIn.reset).region.getD vc none with
  | some r =>
    if used then s
    else { freeRegion s r with aux := modAt (freeRegion s r).aux n (fun a => { a with
      region := modAt a.region vc (fun _ => none), vcs := modAt a.vcs vc (fun c => { c with storeOk := false }) }) }
  | none => s

/-- A view gives back its contexts, line memory, stores and frames, and goes to CREATED. -/
def releaseView (s : State) (v : Nat) : State :=
  let w := s.view v
  let s := match w.region with | some r => freeRegion s r | none => s
  let s := (s.pipe.frames.filter (fun f => decide (f.view.val = v))).foldl (fun s f => removeVf s v f.frame) s
  let s := s.modPipe (fun p => { p with ready := p.ready.filter (fun j => decide (j.view.val ≠ v)) })
  let s := s.modView v (fun w => { w with
    st := .created, ctx := 0, lmem := 0, region := none, stopHow := none, stopAt := none, stopCall := false, cut := none, missing := false
    missCount := 0, missAt := none })
  if w.p.source ≠ 0 ∧ w.p.order = 1 then releaseAuxStore s (w.p.source - 1) w.p.vc else s

/-- The first frame from number `n` on that a view takes under R132. -/
def inPhase (p : ViewP) (n : Nat) : Nat :=
  let d := max 1 p.decim
  (n + (p.phase + d - n % d) % d) % 2 ^ 32

/-- The frame that a stop loses first, and how many are lost by now (R129): those missed already, then those cut short,
else the next frame that the view would have taken.
DESIGN CHOICE: where none is missed yet the next one counts, so COUNT is at least 1 (log entry 36). -/
def stopLoss (s : State) (v : Nat) : Nat × Nat :=
  let w := s.view v
  let cut := (s.pipe.frames.filter (fun f => decide (f.view.val = v))).map VFrame.frame
  let next := if w.p.source = 0 then (match s.seq.latched with | some f => f.num | none => s.seq.nextNum)
    else (((s.aux.getD (w.p.source - 1) AuxIn.reset).vcs.getD w.p.vc AuxVc.reset).count + 1) % 2 ^ 32
  (if 0 < w.missCount then w.missFirst else cut.headD (inPhase w.p next), max 1 (w.missCount + cut.length))

/-- A view that is being deleted goes to FREE (R125). -/
def freeDeleted (s : State) (v : Nat) (del : Bool) (t : Time) : State :=
  if del then ringForget (s.modView v (fun _ => View.reset)) v t else s

/-- A stop takes effect: frames in progress end, and the view goes to CREATED, or to FREE where it is being deleted (R125, R139). -/
def stopViewNow (s : State) (v : Nat) (t : Time) : State :=
  let w := s.view v
  let loss := stopLoss s v
  let s := (s.pipe.frames.filter (fun f => decide (f.view.val = v))).foldl (fun s f => truncateVf s f 0 t) s
  let s := releaseView s v
  let s := if w.stopCall then notifyDrop s v 3 loss.1 loss.2 t else s
  freeDeleted s v w.del t

/-- The FEND that an interrupted frame still owes (R325). -/
def cutFend (s : State) (f : VFrame) (unsent gone : Nat) (t : Time) : List Byte :=
  fendBody s { f with tag := none } (Nat.lor (flagsNow s f) 33) (f.queued - unsent) (f.lost + unsent + gone) (Nat.lor f.lor 1) t

/-- An FEND that had been queued and was not sent, made into the FEND that is owed. -/
def cutQueued (body : List Byte) (unsent gone : Nat) : List Byte :=
  slice body 0 1 ++ [0] ++ leBytes 2 (Nat.lor (u16 body 2) 33) ++ slice body 4 4 ++ leBytes 2 (u16 body 8 - unsent) ++
  leBytes 2 (u16 body 10 + unsent + gone) ++ [byte (Nat.lor (u8 body 12) 1)] ++ slice body 13 11 ++ zeros 16

/-- Cells of a stream sent and not freed by the host: at least those in flight (R309). -/
def creditOut (c : Credits) (v : Nat) : Nat := (c.sent.getD v 0 + 65536 - c.freed.getD v 0 % 65536) % 65536

/-- A port's exit from ACTIVE moves its RUNNING views to PAUSED (R324, R325). It is called while the unsent packets still wait. LOST
counts the unsent lines, and of the sent ones a free number of at most the cells not freed: the device cannot tell those in flight (log entry 84). -/
def pauseViews (s : State) (p : PortIx) (t : Time) : State :=
  let vq := (s.port p).vq
  let (x, s) := drawFree s
  (List.range 16).foldl (fun s v =>
    let w := s.view v
    if w.st = .running ∧ w.owner = p then
      let mine := vq.filter (fun k => k.view = some (viewIx v))
      let whole (n : Nat) : Bool := mine.any (fun k => k.type = cFSTART && k.frame = n && k.done = 0)
      let gone (n : Nat) : Nat := x.toNat % (min n (creditOut (s.port p).cr w.p.vs) + 1)
      let unsent (n : Nat) : Nat := countIf (fun k => k.type = cLINE && k.frame = n) mine
      let opens := s.pipe.frames.filter (fun f => decide (f.view.val = v))
      let ended := mine.filter (fun k => k.type = cFEND)
      let cut := match ended.find? (fun k => !whole k.frame), opens.find? (fun f => f.started && !whole f.frame) with
        | some k, _ => some (cutQueued (k.bytes.take 40) (unsent k.frame) (gone (u16 k.bytes 8 - unsent k.frame)))
        | none, some f => some (cutFend s f (unsent f.frame) (gone (f.queued - unsent f.frame)) t)
        | none, none => none
      let lostFrames := (ended.filter (fun k => whole k.frame)).map Pkt.frame ++
        (opens.filter (fun f => !f.started || whole f.frame)).map VFrame.frame
      let s := opens.foldl (fun s f => removeVf s v f.frame) s
      let s := s.modView v (fun w => { w with st := .paused, cut := match w.cut with | some c => some c | none => cut })
      lostFrames.foldl (fun s n => missFrame s v n 1 t) s
    else s) s

/-- A port returned to ACTIVE in time: each view ends its interrupted frame and runs on (R325). -/
def resumeViews (s : State) (p : PortIx) (t : Time) : State :=
  (List.range 16).foldl (fun s v =>
    let w := s.view v
    if w.st = .paused ∧ w.owner = p then
      let s := match w.cut with
        | some b => (queuePkt s v cFEND (u32 b 4) b).setReg (aPIPE_VFRAME v) (u32 b 4)
        | none => s
      let s := match s.seq.latched with
        | some f => if w.p.source = 0 ∧ takesFrame w f.num f.elp then missFrame s v f.num 1 t else s
        | none => s
      let s := if 0 < (s.view v).missCount then reportMiss s v t else s
      s.modView v (fun w => { w with st := .running, takeFrom := t, cut := none, missing := false })
    else s) s

/-- The hold ended first: the port's views go to CREATED (R325). -/
def expireHold (s : State) (p : PortIx) (t : Time) : State :=
  (List.range 16).foldl (fun s v =>
    let w := s.view v
    if w.st = .paused ∧ w.owner = p then
      freeDeleted (releaseView s v) v w.del t
    else s) s

/-- Bitmap of a port's PAUSED views (R327). -/
def pausedMap (s : State) (p : PortIx) : Nat :=
  bitmap ((List.range 16).map (fun v => decide ((s.view v).st = .paused ∧ (s.view v).owner = p)))

/-- Bitmap of the RUNNING or of the PAUSED views (R365). -/
def viewsIn (s : State) (running : Bool) : Nat :=
  bitmap ((List.range 16).map (fun v => decide ((s.view v).st = (if running then .running else .paused))))

/-- Every started view is stopped as `STOP_VIEW` with `HOW` 1 does (R383, R229, R414). -/
def stopAllViews (s : State) (t : Time) : State :=
  (List.range 16).foldl (fun s v => if (s.view v).started then stopViewNow s v t else s) s

/-- No frame stores are held (R501). -/
def noStores (s : State) : Bool := s.mem.regions.isEmpty

/-- RASTER frames that frame memory cannot serve are missed (R128). -/
def dropRaster (s : State) (t : Time) : State :=
  (s.pipe.frames.filter (fun f => decide (f.p.order = 1))).foldl (fun s f =>
    let s := truncateVf s f 0 t
    missFrame s f.view.val f.frame 2 t) s

/-- Frame memory is unavailable: RASTER views go to CREATED, or to FREE where they are being deleted, each with a `FRAME_DROP` for the first frame it
misses, and aux stores are released (R125, R128, R205). -/
def rasterToCreated (s : State) (t : Time) : State :=
  (List.range 16).foldl (fun s v =>
    let w := s.view v
    if w.started ∧ w.p.order = 1 then
      let next := (stopLoss s v).1
      let open_ := s.pipe.frames.filter (fun f => decide (f.view.val = v))
      let s := open_.foldl (fun s f => missFrame (truncateVf s f 0 t) v f.frame 2 t) s
      let s := if open_.isEmpty && !(w.missing && decide (w.missReason = 2)) then missFrame s v next 2 t else s
      freeDeleted (releaseView s v) v w.del t
    else s) s

end Sys2Proof.Machine
end

