-- ==== Sys2Proof/Machine/Readers.lean ====
section
/-! DEFINITION. What other families read of thermal management, the hold-up charger and frame memory, and the end of a port's authentication
(R250, R410, R412, R474, R478). -/

namespace Sys2Proof.Machine

/-- Downstream rate cap of the enforcement step (R410). -/
def thermDnCap (s : State) (_p : PortIx) : Nat := if s.th.step = 0 then 3 else if s.th.step = 3 then 1 else 2

/-- THROTTLED stands while the step is above 0 (R412). -/
def throttled (s : State) : Bool := decide (0 < s.th.step)

/-- LEVEL as FOGHORN shows it (R413). DEDUCED: SHUTDOWN shows as CRITICAL. -/
def thermLevel (s : State) : Nat := min 3 s.th.level

/-- PHASE codes of R250. -/
def ChgPhase.code : ChgPhase → Nat
  | .off => 0 | .pre => 1 | .fast => 2 | .taper => 3 | .done => 4 | .maintain => 5 | .suspend => 6 | .fault => 7

def chargerPhase (s : State) : Nat := s.hold.phase.code

/-- HU_SRC reads a valid class (R228, R236). -/
def holdupValid (s : State) : Bool := decide (s.hold.srcClass = 1 ∨ s.hold.srcClass = 2)

def memRunning (s : State) : Bool := decide (s.mem.st = .run)

/-- A port's authentication ends: its live NONCE goes, and the tags of its views stop (R474, R478). -/
def endAuth (s : State) (p : PortIx) (_t : Time) : State :=
  let s := { s with sec := { s.sec with auth := modAt s.sec.auth p.val (fun _ => none), nonces := modAt s.sec.nonces p.val (fun _ => none) } }
  s.modPipe (fun q => { q with views := q.views.map (fun w => if w.owner = p then { w with tags := none, tagPend := none } else w) })

end Sys2Proof.Machine
end

