-- ==== Sys2Proof/Machine/ViewStart.lean ====
section
/-! DEFINITION. View parameters as commands carry them, their checks, and what a start of a view needs and does (R46, R126, R130 to R133,
R136, R143, R149, R151, R155, R170, R172, R175, R188, R400). -/

namespace Sys2Proof.Machine

/-! ## Parameters (R155) -/

/-- The parameters in a `CREATE_VIEW` or `MODIFY_VIEW` payload. -/
def parseView (b : List Byte) : ViewP :=
  let full := decide (b.length = 424)
  { source := u8 b 1, vc := u8 b 2, format := u8 b 3, order := u8 b 4, decim := u8 b 5, phase := u8 b 6, vs := u8 b 7
    x := u16 b 8, y := u16 b 10, width := u16 b 12, height := u16 b 14, scx := u16 b 16, scy := u16 b 18
    flags := u8 b 20, curve := u8 b 21, knees := u8 b 22, tm := u8 b 23, fill := u24 b 24
    wbR := u16 b 28, wbG := u16 b 30, wbB := u16 b 32, yuv := u8 b 34
    knee := if full then (List.range 16).map (fun k => (u24 b (48 + 5 * k), u16 b (51 + 5 * k))) else []
    ccm := if full then (List.range 12).map (fun k => signed 16 (u16 b (128 + 2 * k)))
           else [1024, 0, 0, 0, 1024, 0, 0, 0, 1024, 0, 0, 0]
    gamma := if full then (List.range 129).map (fun k => u16 b (152 + 2 * k)) else (List.range 129).map (fun k => min 65535 (512 * k)) }

/-- Data type of a view's stream; 0 for the array. -/
def viewDt (s : State) (p : ViewP) : Nat := if p.source = 0 then 0 else auxDt s (p.source - 1) p.vc

/-- Width and height of a view's source. -/
def sourceSize (s : State) (p : ViewP) : Nat × Nat :=
  if p.source = 0 then (8192, 6144) else (auxW s (p.source - 1) p.vc, auxH s (p.source - 1) p.vc)

/-- Format and source go together (R133). -/
def formatOk (s : State) (p : ViewP) : Bool :=
  let dt := viewDt s p
  if p.source = 0 then isBayer p || isSamples p || isRgb p
  else if dtYuv dt then isAuxRaw p || (decide (p.format = 0x10) && decide (dt = 0x1E)) || (decide (p.format = 0x11) && decide (dt = 0x1F))
  else if dtRaw dt then isAuxRaw p || isBayer p || isRgb p
  else isAuxRaw p

/-- A view that keeps its source's size. -/
def unscaled (s : State) (p : ViewP) : Bool := isSamples p || isAuxRaw p || dtYuv (viewDt s p)

/-- Curve and format go together (R133). DEDUCED: what bypasses stage 5 takes `CURVE` 0. -/
def curveOk (s : State) (p : ViewP) : Bool :=
  if unscaled s p || decide (p.format = 1) then decide (p.curve = 0) else decide (p.curve = 1 ∨ p.curve = 2)

/-- Knee `k` meets R143, or is 0 beyond `KNEES`. -/
def kneeOk (p : ViewP) (k : Nat) : Bool :=
  let a := p.knee.getD k (0, 0)
  let b := if k = 0 then (0, 0) else p.knee.getD (k - 1) (0, 0)
  if k < p.knees then decide (b.1 < a.1 ∧ b.2 ≤ a.2) && (decide (k + 1 < p.knees) || decide (a.2 ≤ yMax p))
  else decide (a = (0, 0))

/-- The checks of R130 to R133, R136, R143 and R155 on view `v`'s parameters for an owner. -/
def viewChecks (s : State) (owner : Option PortIx) (v : Nat) (b : List Byte) : List (Option Reject) :=
  let p := parseView b
  let (w, h) := sourceSize s p
  let (ow, oh) := outSize p p.width p.height
  let same := unscaled s p
  let others := s.pipe.views.zipIdx.any (fun x =>
    decide (x.2 ≠ v) && decide (x.1.st ≠ .free) && decide (some x.1.owner = owner) && decide (x.1.p.vs = p.vs))
  let liveY := decide (p.order ≠ 0 ∨ p.source ≠ 0) || decide (p.y % (2 * boxF p.scy) = 0)
  let badKnee := if p.curve = 1 then (List.range 16).find? (fun k => !kneeOk p k)
    else (List.range 16).find? (fun k => decide (p.knee.getD k (0, 0) ≠ (0, 0)))
  [argOk (decide (p.source ≤ 4)) 1, argOk (if p.source = 0 then decide (p.vc = 0) else decide (p.vc ≤ 3)) 2, argOk (formatOk s p) 3,
   argOk (decide (p.order ≤ 1) && (!isSamples p || decide (p.order = 0))) 4, argOk (decide (1 ≤ p.decim)) 5,
   argOk (decide (p.phase < p.decim)) 6, argOk (decide (1 ≤ p.vs ∧ p.vs ≤ 15) && !others) 7,
   argOk (decide (p.x % 16 = 0 ∧ p.x + 16 ≤ w)) 8, argOk (decide (p.y % 2 = 0 ∧ p.y + 2 ≤ h) && liveY) 10,
   argOk (decide (p.width % 16 = 0 ∧ 16 ≤ p.width ∧ p.x + p.width ≤ w)) 12,
   argOk (decide (p.height % 2 = 0 ∧ 2 ≤ p.height ∧ p.y + p.height ≤ h)) 14,
   argOk (decide (32 ≤ p.scx ∧ p.scx ≤ 256 ∧ 16 ≤ ow) && (!same || decide (p.scx = 256))) 16,
   argOk (decide (32 ≤ p.scy ∧ p.scy ≤ 256 ∧ 2 ≤ oh) && (!same || decide (p.scy = 256))) 18,
   reservedBits b 20 0xFC, argOk (curveOk s p && (decide (p.curve ≠ 1) || decide (b.length = 424))) 21,
   argOk (if p.curve = 1 then decide (4 ≤ p.knees ∧ p.knees ≤ 16) else decide (p.knees = 0)) 22,
   argOk (if p.curve = 2 then decide (p.tm % 16 ≤ 7 ∧ p.tm / 16 ≤ 7) else decide (p.tm = 0)) 23,
   reserved b 27 1, reservedBits b 34 0xFC, reserved b 35 13,
   (match badKnee with | some k => some ⟨.badArg, 48 + 5 * k⟩ | none => none),
   if b.length = 424 then reserved b 410 14 else none]

/-- Contexts and line memory of a view; stages that a YUV stream bypasses hold none. -/
def viewCtx (s : State) (p : ViewP) : Nat := if unscaled s p then 1 else needCtx p
def viewLmem (s : State) (p : ViewP) : Nat := if unscaled s p then 0 else needLmem p

/-- Output size in unbinned frames. -/
def viewSize (p : ViewP) : Nat × Nat := outSize p p.width p.height

/-- The 16-byte answer to `CREATE_VIEW` and `MODIFY_VIEW`. -/
def viewAnswer (s : State) (v : Nat) (p : ViewP) : List Byte :=
  let (ow, oh) := viewSize p
  [byte v, byte (viewCtx s p), 0, 0] ++ leBytes 2 ow ++ leBytes 2 oh ++ leBytes 4 (viewLineBytes p ow (viewDt s p)) ++
  leBytes 4 (viewLmem s p)

/-! ## Resources of a start (R126, R137, R149, R170, R172, R188) -/

/-- Free contexts and free line memory. -/
def ctxFree (s : State) : Nat := 32 - sumL (s.pipe.views.map View.ctx)

/-- A stop that waited is complete: with `HOW` 0 no frame of the view is open, with 1 none of its stripes runs (R139). -/
def stopReady (s : State) (v : ViewIx) : Bool :=
  match (s.view v.val).stopHow with
  | some 0 => !s.pipe.frames.any (fun f => decide (f.view = v))
  | some _ => (match s.pipe.run with | some (j, _) => decide (j.view ≠ v) | none => true)
  | none => false

/-- Contexts that stops of this same instant free; a release counts before a claim (R25). -/
def ctxFreed (s : State) (t : Time) : Nat :=
  sumL (s.pending.map (fun i => match i with
    | .viewStopDone u v => if u = t ∧ stopReady s v then (s.view v.val).ctx else 0
    | _ => 0))
def lmemTotal : Nat := 12 * 0x100000
def lmemFree (s : State) : Nat := lmemTotal - sumL (s.pipe.views.map View.lmem)

/-- MiB of the frame stores that a start takes: 0 for LIVE order, and for a stream whose stores exist. -/
def storesMib (s : State) (p : ViewP) : Nat :=
  if p.order ≠ 1 then 0
  else if p.source = 0 then divCeil (2 * p.width * p.height * 3) mib
  else
    let n := p.source - 1
    if ((s.aux.getD n AuxIn.reset).region.getD p.vc none).isSome then 0
    else divCeil (2 * auxW s n p.vc * auxH s n p.vc * dtHeld (auxDt s n p.vc)) mib

/-- Bytes that a LIVE aux view reserves in its input's line buffer (R170). -/
def lineReserve (s : State) (p : ViewP) : Nat :=
  if p.source = 0 ∨ p.order = 1 then 0 else 32 * auxW s (p.source - 1) p.vc * dtHeld (viewDt s p)

def reservedLines (s : State) (src : Nat) : Nat :=
  sumL ((s.pipe.views.filter (fun w => w.started && decide (w.p.source = src))).map (fun w => lineReserve s w.p))

/-! ## Admission (R46, R151, R175) -/

/-- P of R151 in half nanoseconds: the running period, or 33,333.3 µs. -/
def admitPeriod (s : State) : Nat := if s.seq.running then perOf s s.arr.active else 66666600

/-- The left-hand side of R151 with a list of started views, in 1/96 of a half nanosecond. -/
def admitSum (s : State) (vs : List ViewP) : Rat :=
  let g := s.arr.active
  let cost (p : ViewP) : Nat := let (_, _, w, h) := viewWin p g.bin; pixTime (frameCost w h)
  let part (p : ViewP) : Rat :=
    if p.source ≠ 0 then
      (cost p * admitPeriod s : Rat) / ((max 1 (auxFrameIv s (p.source - 1) p.vc)) * max 1 p.decim : Nat)
    else if p.order = 1 then (cost p : Rat) / (max 1 p.decim : Nat)
    else 0
  vs.foldl (fun a p => a + part p) (pixTime (maxLive g vs) : Rat)

/-- Parameters of every started view. -/
def startedViews (s : State) : List ViewP := (s.pipe.views.filter View.started).map View.p

/-- The view may be added (R151). -/
def admits (s : State) (p : ViewP) : Bool := decide (admitSum s (startedViews s ++ [p]) * 10 ≤ ((admitPeriod s * 96 * 9 : Nat) : Rat))

/-- `PIPE_STAT.LOAD`: the sum in percent of P, to the nearest (R151; 45.9 reads 46 in the worked example). -/
def admitLoad (s : State) : Nat := (admitSum s (startedViews s) * 100 / ((admitPeriod s * 96 : Nat) : Rat) + 1 / 2).floor.toNat

/-- The view would raise a P_min above the frame period (R45, R46). DESIGN CHOICE: the period is that of the active set, also while the array is
stopped, and that of a pending set; in triggered modes, which have no period, the view is not refused for it. -/
def raisesPmin (s : State) (p : ViewP) (t : Time) : Bool :=
  let exceeds (g : Settings) : Bool := decide (g.trig = 0) &&
    decide (perOf s g * 96 < pminOf g (treadWith g (enOf s g) (arrayViews s (t + 1) ++ [p])))
  decide (p.source = 0) && (exceeds s.arr.active || (match s.arr.pend with | some c => exceeds c.set | none => false))

/-- What a start is refused for. -/
def startChecks (s : State) (v : Nat) (t : Time) : List (Option Reject) :=
  let w := s.view v
  let p := w.p
  let (sw, sh) := sourceSize s p
  let n := storesMib s p
  [need (decide (w.st = .created)) .badState, need (decide (p.order = 0) || memUp s) .badState,
   need (decide (p.x + p.width ≤ sw ∧ p.y + p.height ≤ sh) && formatOk s p) .badState,
   need (decide (viewCtx s p + sumL (s.pipe.views.map View.ctx) ≤ 32 + ctxFreed s t)) .noResource, need (decide (viewLmem s p ≤ lmemFree s)) .noResource,
   need (decide (p.source = 0) || decide (reservedLines s p.source + lineReserve s p ≤ 0x80000)) .noResource,
   need (decide (n = 0) || (findFree s n).isSome) .noResource, need (admits s p) .noResource, need (!raisesPmin s p t) .noResource]

/-- Number of the first frame that a view started now takes (R126, R132). -/
def firstFrame (s : State) (p : ViewP) : Nat :=
  let n := if p.source = 0 then s.seq.nextNum
    else (((s.aux.getD (p.source - 1) AuxIn.reset).vcs.getD p.vc AuxVc.reset).count + 1) % 2 ^ 32
  inPhase p n

/-- A view starts and claims its resources at an instant (R126). -/
def beginView (s : State) (v : Nat) (t : Time) : State :=
  let p := (s.view v).p
  let n := storesMib s p
  let first := firstFrame s p
  let base := if n = 0 then none else findFree s n
  let s := match base with | some b => takeRegion s b n | none => s
  let s := match base with
    | some b =>
      if p.source = 0 then s
      else { s with aux := modAt s.aux (p.source - 1) (fun a => { a with region := modAt a.region p.vc (fun _ => some (b, n)) }) }
    | none => s
  let own := if p.source = 0 then base.map (fun b => (b, n)) else none
  s.modView v (fun w => { w with
    st := .running, ctx := viewCtx s p, lmem := viewLmem s p, first := first, since := t, takeFrom := t, region := own, store := 0
    stopHow := none, stopAt := none, stopCall := false, del := false, cut := none, missing := false, missCount := 0, missAt := none })

/-- The view that profile P1 or P2 starts at a port's first entry to ACTIVE (R400). -/
def startProfileView (s : State) (p : PortIx) (t : Time) : State :=
  let v := p.val
  if decide (s.pw.st = .active ∧ (s.view v).owner = p) && (judge (startChecks s v t)).isNone then beginView s v t else s

end Sys2Proof.Machine
end

