-- ==== Sys2Proof/Machine/PortOps.lean ====
section
/-! DEFINITION. Shared operations of the Stenal Link ports: state changes, entries to and exits from ACTIVE, failures, the
rate offer, and acknowledgements (R268 to R281, R303 to R312, R324 to R327, R336, R352). -/

namespace Sys2Proof.Machine

/-! ## Port settings -/

def State.ctlFld (s : State) (p : PortIx) (hi lo : Nat) : Nat := s.fld (aLINK_CTL p.val) hi lo
def portEn (s : State) (p : PortIx) : Bool := decide (s.ctlFld p 0 0 = 1)

/-- DN_CAP: the thermal cap, and 2 under restrictive defaults (R287, R464). -/
def dnCap (s : State) (p : PortIx) : Nat := if s.sec.untrusted then min 2 (thermDnCap s p) else thermDnCap s p

/-- Preset of a downstream rate (R263). -/
def ratePreset (dn : Nat) : Nat := if dn = 2 then 2 else if dn = 3 then 5 else 0

/-- |c−1| and |c+1| of a preset (R262). -/
def presetTaps (k : Nat) : Nat × Nat :=
  ([(0, 0), (0, 4), (0, 6), (0, 8), (2, 4), (2, 6), (2, 8), (4, 6), (4, 8), (3, 0)]).getD k (0, 0)

/-! ## Symbols and blocks (R16, R254, R272, R282) -/

/-- PLLL divider of a downstream rate code, and the frequency of LINKp in kHz (R16). -/
def rateDiv (dn : Nat) : Nat := 128 / 2 ^ dn
def linkKhz (q : Port) : Nat := 8000000 / q.tr.div

/-- Half-nanoseconds that `n` symbols last: downstream, by the divider, and upstream (R16, R254). -/
def dnSymbols (q : Port) (n : Nat) : Time := n * q.tr.div / 128
def upSymbols (up n : Nat) : Time := if up = 0 then n else n / 2

/-- The port's divider changes to a downstream rate (R16, R256). -/
def setRates (r : Train) (dn up : Nat) : Train := { r with dnRate := dn, upRate := up, div := rateDiv dn }

/-- Symbols from one training block to the next: 128, and in EQUALISE a period of 16,384 (R272, R279). -/
def blockSpan (st : PortSt) : Nat := if st = .equalise then 16384 else 128

/-- SEQ of the training block that the lanes send at an instant (R272). In DETECT only bursts send blocks. -/
def blockSeq (q : Port) (t : Time) : Nat :=
  if q.tr.st = .detect then q.tr.blkSeq
  else (q.tr.blkSeq + (t - q.tr.blkFrom) / max 1 (dnSymbols q (blockSpan q.tr.st))) % 256

/-- COUNT of GO at an instant (R280). -/
def goCount (q : Port) (t : Time) : Nat := 7 - (t - q.tr.goFrom) / max 1 (dnSymbols q 128)

/-- The message and body of the device's training blocks at an instant (R275). -/
def deviceBody (s : State) (p : PortIx) (t : Time) : Nat × List Byte :=
  let q := s.port p
  let r := q.tr
  match r.st with
  | .lanes => (0x03, zeros 16)
  | .deskew => (0x04, q.phy.delay.map byte ++ zeros 12)
  | .equalise =>
    (0x05, (List.range 4).map (fun k => byte (q.phy.ffePreset.getD k 0 + 16 * b2n (q.phy.ffeLimit.getD k false))) ++
      [byte q.phy.reqId, byte (b2n q.phy.upOk), 0, 0] ++
      (List.range 4).flatMap (fun k => [byte (256 - q.phy.ffePre.getD k 0), byte (256 - q.phy.ffePost.getD k 0)]))
  | .rate =>
    if r.rateStep = .go then (0x07, byte (goCount q t) :: zeros 15)
    else (0x06, [byte r.offDn, byte r.offUp,
      byte (b2n r.offPreDn + 2 * b2n r.offPreUp + 4 * b2n (decide (r.offDn = r.dnRate ∧ r.offUp = r.upRate)))] ++ zeros 13)
  | _ =>
    (0x01, [byte (s.ctlFld p 5 4), byte (s.ctlFld p 8 8),
      byte (1 + 2 * s.ctlFld p 11 11), byte (b2n (decide (0 < r.rxGood))), byte r.pass, byte s.pw.devid, byte p.val] ++ zeros 9)

def tsync : List Byte := [0x88, 0x22, 0xA8, 0x02, 0x2A, 0x80, 0x0A, 0xA2]

/-- A training block (R272). -/
def trainBlockOf (msg lane st seq : Nat) (body : List Byte) : List Byte :=
  let mid := [byte msg, byte lane, byte st, byte seq] ++ body ++ [0, 0]
  tsync ++ mid ++ leBytes 2 (crc16 mid)

/-- The training block of lane `k`: logical lane `k` under the current map, and in a Beacon burst physical lane `k` (R270, R272). -/
def deviceBlock (s : State) (p : PortIx) (k : Nat) (t : Time) : List Byte :=
  let (m, body) := deviceBody s p t
  trainBlockOf m k (s.port p).tr.st.code (blockSeq (s.port p) t) body

/-- The lanes send the blocks of this instant, none while they are idle before a change of rate, or ABORT blocks with a reason (R272, R275, R280). -/
def sendBlocks (s : State) (p : PortIx) (t : Time) : State :=
  let l := if (s.port p).tr.st = .rate ∧ (s.port p).tr.rateStep = .idle then [] else (List.range 4).map (fun k => deviceBlock s p k t)
  s.modTr p (fun r => { r with blocks := l })
def sendAbort (s : State) (p : PortIx) (reason : Nat) (t : Time) : State :=
  let q := s.port p
  s.modTr p (fun r => { r with blocks := (List.range 4).map (fun k => trainBlockOf 0x0F k r.st.code (blockSeq q t) (byte reason :: zeros 15)) })

/-- A PRBS generator of logical lane `l` as it starts: all ones with bit `l` cleared (R282). -/
def prbsSeed (pat l : Nat) : Nat := 2 ^ (prbsPoly pat).1 - 1 - 2 ^ l

/-- The generator states of selected lanes at the start of a pattern. -/
def seedGens (pat lanes : Nat) : List (Option Nat) := (List.range 4).map (fun l => if bit lanes l then some (prbsSeed pat l) else none)

/-- A generator state `n` bits on. -/
def prbsRun (pat : Nat) : Nat → Nat → Nat
  | 0, st => st
  | n + 1, st => prbsRun pat n (prbsBit (prbsPoly pat).1 (prbsPoly pat).2 st).2

/-- Bits that a generator has sent by an instant: two for each symbol, and none under the training block of an EQUALISE period (R279, R282). -/
def genBits (q : Port) (t : Time) : Nat :=
  let n := (t - q.phy.genAt) * 128 / q.tr.div
  if q.tr.st = .equalise then 2 * (16256 * (n / 16384) + (n % 16384 - 128)) else 2 * n

/-- The state of the generator of a logical lane at an instant, where it runs. -/
def genState (q : Port) (l : Nat) (t : Time) : Option Nat :=
  let pat := if q.tr.st = .equalise then 3 else q.test.pat
  (q.phy.gen.getD l none).map (prbsRun pat (genBits q t))

/-! ## States -/

/-- Enter a training state; its blocks follow those of the state before (R272). CLOCK clears the delays and the DFE taps, and its first pass restores the upright identity map;
EQUALISE starts every lane at its rate's preset and the CTLE choice anew (R263, R264, R277, R278). -/
def enterTrain (s : State) (p : PortIx) (st : PortSt) (t : Time) : State :=
  let seq := blockSeq (s.port p) t
  let s := s.modTr p (fun r => { r with
    st := st, entered := t, good := 0, rxGood := 0, lastLeads := [], rateStep := .offer, blkSeq := seq, blkFrom := t })
  let s := match st with
  | .clock =>
    let first := decide ((s.port p).tr.pass = 0)
    s.modPhy p (fun y => { y with
      delay := [0, 0, 0, 0], dfe := [0, 0, 0, 0, 0]
      map := if first then [0, 1, 2, 3] else y.map
      inv := if first then [false, false, false, false] else y.inv })
  | .equalise =>
    let k := ratePreset (s.port p).tr.dnRate
    let (a, b) := presetTaps k
    s.modPhy p (fun y => { y with
      ffePre := [a, a, a, a], ffePost := [b, b, b, b], ffePreset := [k, k, k, k]
      ffeLimit := [false, false, false, false], ctleTry := 0, ctleBest := 0, ctleAt := t, upOk := false
      chkSync := false, winBits := 0, winErrs := 0, winAt := t, gen := seedGens 3 15, genAt := t })
  | _ => s
  sendBlocks s p t

/-- The LINK notification (R327) for one port, about port `p`. -/
def notifyLink (s : State) (q p : PortIx) (reason : Nat) (t : Time) : State :=
  let r := (s.port p).tr
  let act := decide (r.st = .active)
  notify s q 0x8003 ([byte p.val, byte r.st.code, byte reason, 0,
    if act then byte r.dnRate else 0xFF, if act then byte r.upRate else 0xFF] ++
    leBytes 2 (pausedMap s p) ++ leBytes 8 (s.dtime t)) t

/-- LINK to every other port in ACTIVE (R324). -/
def notifyLinkOthers (s : State) (p : PortIx) (reason : Nat) (t : Time) : State :=
  allPorts.foldl (fun s q => if q ≠ p && s.portActive q then notifyLink s q p reason t else s) s

/-- Back-off after failure number `n` (R270). -/
def backoff (n : Nat) : Time := if n = 0 then 0 else if n ≤ 3 then ms else if n ≤ 10 then 100 * ms else sec

/-- Cells sent and not freed by the host, all streams (R309, R312). -/
def cellsOut (c : Credits) : Nat := sumL ((List.range 16).map (creditOut c))

/-- The port leaves ACTIVE for `st` (R312, R324, R336): cells in flight are written off, a free number
of those that the host has not freed, since the host alone knows which of them it holds (log entry 84), unsent video is discarded, an open
chain is discarded and its slots freed, BULK aborts, its views pause, the hold timer starts unless it runs, and LINK goes to every other port in ACTIVE.
A drop also starts the lapse of the port's leases (R352). -/
def leaveActive (s : State) (p : PortIx) (st : PortSt) (reason : Nat) (drop : Bool) (t : Time) : State :=
  let q := s.port p
  let (x, s) := drawFree s
  let s := s.bumpWrap (aLINK_WOFF p.val) 31 0 (x.toNat % (cellsOut q.cr + 1))
  let s := excusePort (abortBulk s p t) p
  let s := pauseViews s p t
  let s := s.modPort p (fun q => { q with
    tr := { q.tr with
      st := st, entered := t, good := 0, rxGood := 0, away := !drop, changeAt := none, changeBy := none, rateStep := .offer
      preDn := false, preUp := false, blocks := [] }
    rel := { Rel.reset with nextIdent := q.rel.nextIdent, rto := q.rel.rto }
    vq := q.vq.filter (fun k => k.view.isNone && decide (k.done = 0))
    rxPkt := none
    inbox := q.inbox.filter (fun k => decide (k.type = 1))
    lostIn := q.lostIn + countIf (fun k => decide (k.type ≠ 1)) q.inbox
    owedLimit := false, cwCells := []
    lt := { q.lt with owed := none }
    mbx := { q.mbx with
      chain := none
      reqFree := q.mbx.reqFree + (match q.mbx.chain with | some c => c.next | none => 0)
      reqOwed := 0
      oldRecent := (q.mbx.recent ++ q.mbx.oldRecent).take 32, recent := []
      ring := q.mbx.ring.map (fun e => if e.acked then e else { e with sent := false }) }
    dropAt := if drop then some t else q.dropAt
    holdEnd := match q.holdEnd with
      | some h => some h
      | none => some (t + s.fld (aLINK_HOLD p.val) 15 0 * ms) })
  notifyLinkOthers s p reason t

/-- Record a failure in `LINKp_TRAIN` (R289). -/
def noteFail (s : State) (p : PortIx) (reason : Nat) : State :=
  let s := s.modTr p (fun r => { r with failState := r.st.code, reason := reason })
  s.bump (aLINK_TRAIN p.val) 15 0 1

/-- A drop from ACTIVE to DETECT (R266, R267, R352). It is no training failure, so no back-off runs. -/
def dropPort (s : State) (p : PortIx) (reason : Nat) (t : Time) : State :=
  let s := noteFail s p reason
  let s := leaveActive s p .detect reason true t
  s.modTr p (fun r => { r with backoffEnd := t, backoffOver := true, nextBeacon := t })

/-- The port is in a rate pass: from CLOCK at the new rates to the final RATE (R268, R271). -/
def ratePass (r : Train) : Bool := decide (r.pass = 1) && decide (r.st ≠ .test)

/-- A failure in a training state (R269 to R271, R275): counted and told by ABORT, a rate pass lowers FALL, and the port waits in DETECT. A failure
while the port is out of ACTIVE for a rate change is a drop timed from this entry to DETECT (R281). -/
def trainFail (s : State) (p : PortIx) (reason : Nat) (t : Time) : State :=
  let s := sendAbort (noteFail s p reason) p reason t
  let seq := blockSeq (s.port p) t
  let r := (s.port p).tr
  let n := min 255 (r.fails + 1)
  s.modPort p (fun q => { q with
    dropAt := if r.away then some t else q.dropAt
    tr := { q.tr with
      st := .detect, entered := t, good := 0, rxGood := 0, fails := n, away := false, pass := 0
      fall := if ratePass r then r.dnRate - 1 else r.fall
      preDn := false, preUp := false, blkSeq := seq, blkFrom := t, backoffEnd := t + backoff n, backoffOver := false, rateStep := .offer } })

/-- A failure of the port in any state from CLOCK on: a drop in ACTIVE, a training failure elsewhere (R266). -/
def failPort (s : State) (p : PortIx) (reason : Nat) (t : Time) : State :=
  if s.portActive p then dropPort s p reason t else trainFail s p reason t

/-- A port goes to QUIET: disabled, in Dusk, or in a reset (R268, R270, R271, R287). From ACTIVE, and while it is out of ACTIVE for a rate change or a
test, this is a drop. -/
def quietPort (s : State) (p : PortIx) (t : Time) : State :=
  let s := if s.portActive p then leaveActive s p .quiet 0 true t else s
  s.modPort p (fun q => { q with
    dropAt := if q.tr.away then some t else q.dropAt
    tr := { q.tr with
      st := .quiet, entered := t, fails := 0, fall := 3, away := false, pass := 0, preDn := false, preUp := false, blocks := [] } })

/-- An enabled port in QUIET goes to DETECT, where PLLL gives it a clock (R268, R391). -/
def enablePort (s : State) (p : PortIx) (t : Time) : State :=
  if decide ((s.port p).tr.st = .quiet) && portEn s p && !decide (pllOf s 3 = .fail ∨ pllOf s 3 = .off) then
    s.modTr p (fun r => { r with st := .detect, entered := t, backoffEnd := t, backoffOver := true, nextBeacon := t })
  else s

/-- The port's leases lapse, and its authentication ends (R348, R352). -/
def lapsePort (s : State) (p : PortIx) (t : Time) : State :=
  let s := (List.range 30).foldl (fun s b =>
    if (s.lease b).holder = some p then (match leaseEnd s b t with
      | some e => dropLease s b e.1 e.2
      | none => dropLease s b 4 t)
    else s) s
  let s := endAuth s p t
  s.modPort p (fun q => { q with dropAt := none })

/-- MSG packets of the entries still held, in order, at an entry to ACTIVE (R326, R336). -/
def resendRing (ring : List RingEntry) (next : Nat) : List RingEntry × List RelPkt :=
  let r := ring.zipIdx.map (fun x => { x.1 with ident := next + x.2, sent := false, acked := false })
  (r, r.map (fun e => ⟨true, 0, withCrc32 e.bytes, e.ident⟩))

/-- The port enters ACTIVE (R280, R310 to R312, R325, R326, R336): sequences, credits and contexts reset, acknowledged
entries are freed, the others are sent again, LINK is sent, and its views resume or, after the hold, have been freed. An entry 250 ms or
more after a drop comes after the lapse (R352). -/
def enterActive (s : State) (p : PortIx) (t : Time) : State :=
  let q := s.port p
  let s := match q.dropAt with
    | some d => if d + 250 * ms ≤ t then lapsePort s p (d + 250 * ms) else s
    | none => s
  let late := match q.holdEnd with | some h => decide (h ≤ t) | none => false
  let s := if late then expireHold s p t else s
  let acked := countIf (fun e : RingEntry => e.acked) q.mbx.ring
  let (ring, pkts) := resendRing (q.mbx.ring.filter (fun e => !e.acked)) q.rel.nextIdent
  let s := s.modPort p (fun q => { q with
    tr := { q.tr with
      st := .active, entered := t, fails := 0, away := false, changeAt := none, changeBy := none, pass := 0
      preDn := q.tr.offPreDn, preUp := q.tr.offPreUp, rateStep := .offer, blocks := [] }
    rel := { Rel.reset with msgq := pkts, nextIdent := q.rel.nextIdent + pkts.length, rto := q.rel.rto, progressAt := t }
    cr := Credits.reset
    lt := { q.lt with valid := false, amBad := 0 }
    mbx := { q.mbx with
      ring := ring, rspFree := q.mbx.rspFree + acked, consumed := 0, sentCount := 0, acceptedReq := 0
      cmdLimit := q.mbx.reqFree, dupLeft := 32 }
    rxPkt := none, activeAt := t, unc := 0, beaconAt := none, owedLimit := false
    dropAt := none, holdEnd := none, rxY := 0 })
  let s := if late then s else resumeViews s p t
  let s := notifyLinkOthers s p 0 t
  let s := notifyLink s p p 0 t
  let s := if s.rs.dawnPorts.contains p then
      notify { s with rs := { s.rs with dawnPorts := s.rs.dawnPorts.filter (· ≠ p) } } p 0x8005 s.rs.dawnNote t
    else s
  if s.rs.autoViews.contains p then
    startProfileView { s with rs := { s.rs with autoViews := s.rs.autoViews.filter (· ≠ p) } } p t
  else s

/-- The offer of R280. -/
def offer (s : State) (p : PortIx) : Nat × Nat × Bool × Bool :=
  let r := (s.port p).tr
  (min (min r.hostDn (s.ctlFld p 5 4)) (min (dnCap s p) r.fall),
   min r.hostUp (s.ctlFld p 8 8),
   bit r.hostCaps 1 && decide (s.ctlFld p 10 10 = 1),
   bit r.hostCaps 0 && decide (s.ctlFld p 11 11 = 1))

/-- Enter RATE with the offer of this instant. -/
def enterRate (s : State) (p : PortIx) (t : Time) : State :=
  let (d, u, pd, pu) := offer s p
  let s := enterTrain s p .rate t
  sendBlocks (s.modTr p (fun r => { r with offDn := d, offUp := u, offPreDn := pd, offPreUp := pu })) p t

/-- The offer of this instant differs from the rates in use. -/
def offerDiffers (s : State) (p : PortIx) : Bool :=
  let (d, u, _, _) := offer s p
  let r := (s.port p).tr
  s.portActive p && !(decide (d = r.dnRate) && decide (u = r.upRate))

/-- A change of rate is wanted (R281, R287): from instant `due`, or once the response that `by_` names is acknowledged, or 100 µs after it was sent. -/
def wantChange (s : State) (p : PortIx) (due : Option Time) (by_ : Option (PortIx × BitVec 16)) : State :=
  if offerDiffers s p then s.modTr p (fun r => { r with changeAt := due, changeBy := by_ }) else s

/-- The response to a SET_LINK_RATE has left (an instant 100 µs later) or is acknowledged: the change that awaits it may start (R281). -/
def changeDue (s : State) (p : PortIx) (tag : Nat) (due : Time) : State :=
  allPorts.foldl (fun s x => s.modTr x (fun r =>
    match r.changeBy with
    | some (y, g) => if y = p ∧ g.toNat = tag then { r with changeAt := some (match r.changeAt with | some a => min a due | none => due) } else r
    | none => r)) s

/-! ## Acknowledgements (R303 to R307) -/

/-- What the acknowledgement of a MSG packet makes due: a reset that waited for its OK response (R366), and a rate change that
waited for the response to SET_LINK_RATE (R281). -/
def msgAcked (s : State) (p : PortIx) (e : RingEntry) (t : Time) : State :=
  let op := u16 e.bytes 0
  if op = 0x0004 then
    { s with rs := { s.rs with req := s.rs.req.map (fun r =>
        if r.src = .port p then { r with due := some t } else r) } }
  else if op = 0x0802 then
    changeDue s p (u16 e.bytes 2) t
  else s

/-- The last cell of a reliable packet is acknowledged. -/
def packetAcked (s : State) (p : PortIx) (ident : Nat) (t : Time) : State :=
  match (s.port p).mbx.ring.find? (fun e => e.ident = ident && e.sent) with
  | some e =>
    let s := s.modMbx p (fun m => { m with ring := m.ring.map (fun x =>
      if x.ident = ident then { x with acked := true } else x) })
    msgAcked s p e t
  | none => bulkAcked s p ident t

/-- An `ACK` names a cell that was sent, and is no more than 64 behind the last one (R307). -/
def ackOk (r : Rel) (ack : Nat) : Bool :=
  let d := (ack + 256 - r.lastAck) % 256
  decide (d ≤ r.out.length ∨ 192 ≤ d)

/-- Take an `ACK` for the downstream reliable class (R303, R307). -/
def takeAck (s : State) (p : PortIx) (ack : Nat) (t : Time) : State :=
  let r := (s.port p).rel
  let d := (ack + 256 - r.lastAck) % 256
  if d = 0 then s
  else if d ≤ r.out.length then
    let gone := r.out.take d
    let rest := r.out.drop d
    let s := s.modRel p (fun r => { r with
      out := rest, resend := min r.resend rest.length, lastAck := ack, progressAt := t, timeouts := 0 })
    let s := unstand s fLINK_STALL p.val t
    gone.foldl (fun s c => if c.eop then packetAcked s p c.ident t else s) s
  else if 256 - d ≤ 64 then s
  else s.bump (aLINK_PKT_ERR p.val) 7 0 1

/-- A go-back: every outstanding cell is to be resent, and the RTO register takes effect (R306, R328). -/
def goBack (s : State) (p : PortIx) (ack : Nat) (t : Time) : State :=
  let rto := s.fld (aLINK_REL_CFG p.val) 7 0
  s.modRel p (fun r => { r with resend := r.out.length, goBack := some (ack, t), rto := rto })

/-- Take a NAK that names `ack` (R306). -/
def takeNak (s : State) (p : PortIx) (ack : Nat) (t : Time) : State :=
  let s := s.bump (aLINK_REL p.val) 15 8 1
  let r := (s.port p).rel
  match r.goBack with
  | some (a, t0) => if a = ack ∧ t < t0 + r.rto * us / 2 then s else goBack s p ack t
  | none => goBack s p ack t

/-- Device credit of a stream (R309). -/
def credit (c : Credits) (v : Nat) : Nat :=
  c.allow.getD v 64 - (c.sent.getD v 0 + 65536 - c.freed.getD v 0 % 65536) % 65536

/-- Markers and cells are sent in ACTIVE, and after GO while the host's first marker is awaited (R280). -/
def marking (q : Port) : Bool :=
  decide (q.tr.st = .active) || (decide (q.tr.st = .rate) && decide (q.tr.rateStep = .go))

/-- Count a breach of the protocol (R328). -/
def proto (s : State) (p : PortIx) : State := s.bump (aLINK_PKT_ERR p.val) 7 0 1

/-- The port a command came from, 0 for the sideband. -/
def srcIx : Src → PortIx
  | .port p => p
  | .sideband => 0

end Sys2Proof.Machine
end

