-- ==== Sys2Proof/Machine/Books.lean ====
section
/-! DEFINITION. The conserved quantities and the check of their books (R24, R495). -/

namespace Sys2Proof.Machine

/-- Cells of a stream that the host's counts do not cover yet: in flight or not given back (R309). -/
def cellsAway (c : Credits) (v : Nat) : Nat := (c.sent.getD v 0 + 65536 - c.freed.getD v 0 % 65536) % 65536

/-- Streams of a port in ACTIVE with more cells away than their allowance. -/
def creditsOut (s : State) : List (Nat × Nat) :=
  allPorts.flatMap (fun p => ((List.range 16).filter (fun v =>
    s.portActive p && decide ((s.port p).cr.allow.getD v 64 < cellsAway (s.port p).cr v))).map (fun v => (1, 16 * p.val + v)))

/-- Request tokens: a class above its quota (R189). -/
def tokensOut (s : State) : Bool := (List.range 6).any (fun c => decide (quota c < tokensOf s.mem c s.clk.now))

/-- Request slots of a port that are held: by its open chain, by requests handed over, and by responses not yet posted (R333). -/
def reqHeld (s : State) (p : PortIx) : Nat :=
  (match (s.port p).mbx.chain with | some c => c.next | none => 0) +
  sumL ((s.fwq.filter (fun j => j.src = .port p)).map (fun j => j.slots)) + sumL ((s.port p).mbx.wait.map (fun r => r.slots))

/-- Two open ring records of one view (R216). -/
def recordsOut (s : State) : Bool := decide (¬ (openViews s).Nodup)

/-- The pools whose books are out, as quantity and unit (R24, R495). The ARRAY lease has one holder by its form. -/
def brokenPools (s : State) : List (Nat × Nat) :=
  creditsOut s ++
  (if tokensOut s then [(2, 0)] else []) ++
  ((List.range 192).filter (fun t => decide (160 < (s.eng t).held.length + (s.eng t).fetched.length))).map (fun t => (3, t)) ++
  ((List.range 192).filter (fun t => decide (4 < (s.eng t).outq.length))).map (fun t => (4, t)) ++
  (allPorts.filter (fun p => decide ((s.port p).mbx.reqFree + reqHeld s p ≠ 32 + (s.port p).mbx.reqOwed))).map (fun p => (5, p.val)) ++
  (allPorts.filter (fun p => decide ((s.port p).mbx.rspFree + (s.port p).mbx.ring.length ≠ 32))).map (fun p => (6, p.val)) ++
  (if 32 < sumL (s.pipe.views.map View.ctx) then [(7, 0)] else []) ++
  (if recordsOut s then [(8, 0)] else [])

/-- The check of the books: BOOKS for each broken pool, standing until a reset; nothing balances the pool before that (R24). DESIGN CHOICE: the
check is made whenever no command waits (log entry 1). -/
def checkBooks (s : State) : State := (brokenPools s).foldl (fun s x => raiseBooks s x.1 x.2 s.clk.now) s

end Sys2Proof.Machine
end

