-- ==== Sys2Proof/Machine/TimerOps.lean ====
section
/-! DEFINITION. Timer channels: starts, stops, resets, captures, own events with their actions and links, and source
events (R423 to R432). -/

namespace Sys2Proof.Machine

def State.tmr (s : State) (n : Nat) : Tmr := s.pio.tmr.getD n Tmr.reset
def State.modTmr (s : State) (n : Nat) (f : Tmr → Tmr) : State :=
  { s with pio := { s.pio with tmr := modAt s.pio.tmr n f } }
def State.pe (s : State) (e : Nat) : Pe := s.pio.pe.getD e Pe.reset
def State.modPe (s : State) (e : Nat) (f : Pe → Pe) : State :=
  { s with pio := { s.pio with pe := modAt s.pio.pe e f } }

/-- Configuration fields of a channel (R453). -/
def tmrMode (s : State) (n : Nat) : Bool := bit (s.reg (aTMR_CTL n)) 0
def tmrOneShot (s : State) (n : Nat) : Bool := bit (s.reg (aTMR_CTL n)) 1
def tmrImmediate (s : State) (n : Nat) : Bool := bit (s.reg (aTMR_CTL n)) 2
def tmrOutInit (s : State) (n : Nat) : Bool := bit (s.reg (aTMR_CTL n)) 4
def tmrSrc (s : State) (n : Nat) : Nat := s.fld (aTMR_CTL n) 17 15
def tmrHwStart (s : State) (n : Nat) : Nat := s.fld (aTMR_CTL n) 19 18
def tmrLink (s : State) (n : Nat) : Nat := s.fld (aTMR_CTL n) 23 20
def tmrDiv (s : State) (n : Nat) : Nat := s.fld (aTMR_PRE n) 31 16 * 256 + s.fld (aTMR_PRE n) 7 0

/-- Index of the latest event of a free-running source at an instant (R423): PIO clock, KEEP clock, or DTIME microsecond. -/
def srcIndex (s : State) (src : Nat) (t : Time) : Nat :=
  if src = 0 then pioCycle t else if src = 1 then t * 32768 / 2000000000 else s.dtime t / 1000

/-- A start (R424, R426): the channel counts on from its COUNT with the prescaler cleared. It is not taken in a PIO cycle that
holds a STOP (R429). -/
def tmrStart (s : State) (n : Nat) (t : Time) : State :=
  if (s.tmr n).run then s else
  s.modTmr n (fun c => if c.stopCyc = some (pioCycle t) then c else
    { c with run := true, acc := 0, ticks := 0, last := srcIndex s (tmrSrc s n) t })

/-- A stop (R426). -/
def tmrStop (s : State) (n : Nat) (t : Time) : State :=
  s.modTmr n (fun c => { c with run := false, stopCyc := some (pioCycle t) })

/-- The count that captures of this PIO cycle see (R429): of several resets in one cycle the first keeps it. -/
def tmrBefore (c : Tmr) (cyc : Nat) : Option (Nat × Nat) :=
  match c.rstCyc with
  | some (k, v) => if k = cyc then some (k, v) else some (cyc, c.count)
  | none => some (cyc, c.count)

/-- A reset (R426): COUNT 0, direction up, the output to OUT_INIT, the prescaler cleared. -/
def tmrReset (s : State) (n : Nat) (t : Time) : State :=
  s.modTmr n (fun c => { c with
    rstCyc := tmrBefore c (pioCycle t)
    count := 0, down := false, acc := 0, ticks := 0, last := srcIndex s (tmrSrc s n) t, out := tmrOutInit s n })

/-- COUNT as a capture of a PIO cycle sees it: the value before a reset of the same cycle (R429). -/
def tmrSeen (c : Tmr) (cyc : Nat) : Nat :=
  match c.rstCyc with
  | some (k, v) => if k = cyc then v else c.count
  | none => c.count

/-- A value enters the capture register (R431). -/
def tmrCapture (s : State) (n v : Nat) (t : Time) : State :=
  s.modTmr n (fun c => { c with
    prevCap := c.cap, cap := v, capCyc := some (pioCycle t), overcap := c.overcap || c.fresh, fresh := true })

/-- A link or host command on a channel (R428, R446): 1 START, 2 STOP, 3 RESET, 4 CAPTURE. -/
def tmrCommand (s : State) (n op : Nat) (t : Time) : State :=
  match op with
  | 1 => tmrStart s n t
  | 2 => tmrStop s n t
  | 3 => tmrReset s n t
  | 4 => tmrCapture s n (tmrSeen (s.tmr n) (pioCycle t)) t
  | _ => s

/-- A source event of sources 3 to 5 (R423, R424): the prescaler takes it where the channel runs. -/
def tmrSourceEvent (s : State) (n : Nat) : State :=
  if (s.tmr n).run then
    s.modTmr n (fun c =>
      let a := c.acc + 256
      if tmrDiv s n ≤ a then { c with acc := a - tmrDiv s n, ticks := c.ticks + 1 } else { c with acc := a })
  else s

def allTmr : List Nat := List.range 16

/-- A PERIOD event of channel `n` reaches every channel that counts it (R423, R428). -/
def tmrChain (s : State) (n : Nat) : State :=
  allTmr.foldl (fun s m => if tmrSrc s m = 4 ∧ tmrLink s m = n then tmrSourceEvent s m else s) s

/-- The engines' latches take a timer event (R435): 0 MATCH0, 1 MATCH1, 2 PERIOD, 3 CAPTURE. -/
def latchAll (s : State) (n ev : Nat) : State :=
  { s with pio := { s.pio with pe := s.pio.pe.map (fun p => { p with latch := setBit p.latch (4 * n + ev) true }) } }

/-- The output and link actions of an event whose ACT field starts at bit `lo` (R428). -/
def tmrActions (s : State) (n lo : Nat) (t : Time) : State :=
  let a := s.fld (aTMR_ACT n) (lo + 4) lo
  let s := s.modTmr n (fun c => { c with
    out := match a % 4 with | 1 => true | 2 => false | 3 => !c.out | _ => c.out })
  tmrCommand s (tmrLink s n) (a / 4) t

/-- The shadows take effect (R427). -/
def tmrShadows (c : Tmr) : Tmr :=
  { c with per := c.shPer.getD c.per, m0 := c.shM0.getD c.m0, m1 := c.shM1.getD c.m1, shPer := none, shM0 := none
           shM1 := none }

/-- The period boundary of R425: shadows take effect, and a one-shot channel stops. That stop is no STOP command (R429). -/
def tmrBoundary (s : State) (n : Nat) : State :=
  let s := s.modTmr n tmrShadows
  if tmrOneShot s n then s.modTmr n (fun c => { c with run := false, count := 0 }) else s

/-- The own PERIOD event (R425, R428). -/
def tmrPeriod (s : State) (n : Nat) (t : Time) : State :=
  let s := s.modTmr n (fun c => { c with duePer := false })
  let s := if tmrMode s n then s else tmrBoundary s n
  let s := latchAll s n 2
  tmrChain (tmrActions s n 15 t) n

/-- Shadows of a running channel with IMMEDIATE (R427): they take effect at once, and a PERIOD at or below COUNT fires. -/
def tmrImmediateNow (s : State) (n : Nat) : State :=
  let newPer := (s.tmr n).shPer.isSome
  let s := s.modTmr n tmrShadows
  s.modTmr n (fun c =>
    if newPer && decide (c.per ≤ c.count) then
      if tmrMode s n then { c with count := c.per, down := true, duePer := true }
      else { c with count := 0, duePer := true }
    else c)

/-- A write of PERIOD (0), MATCH0 (1) or MATCH1 (2) (R427). -/
def tmrWrite (s : State) (n which v : Nat) : State :=
  if (s.tmr n).run then
    let s := s.modTmr n (fun c => match which with
      | 0 => { c with shPer := some v } | 1 => { c with shM0 := some v } | _ => { c with shM1 := some v })
    if tmrImmediate s n then tmrImmediateNow s n else s
  else s.modTmr n (fun c => match which with
      | 0 => { c with per := v } | 1 => { c with m0 := v } | _ => { c with m1 := v })

/-- One tick (R425): COUNT moves, and the events it reaches become due. -/
def tmrTick (s : State) (n : Nat) : State :=
  let ud := tmrMode s n
  s.modTmr n (fun c =>
    let (v, dn, per, zero) :=
      if ud then
        if c.down then
          if c.count ≤ 1 then (0, false, false, true) else (c.count - 1, true, false, false)
        else if c.per ≤ c.count + 1 then (c.per, true, true, false) else (c.count + 1, false, false, false)
      else if c.per ≤ c.count then (0, false, true, false) else (c.count + 1, false, false, false)
    { c with count := v, down := dn, duePer := c.duePer || per, dueZero := c.dueZero || zero
             dueM0 := c.dueM0 || decide (v = c.m0 ∧ c.m0 ≤ c.per)
             dueM1 := c.dueM1 || decide (v = c.m1 ∧ c.m1 ≤ c.per) })

/-- A step of DTIME makes no ticks of SRC 2: what was outstanding before it stays so (R423). DESIGN CHOICE: log entry 58. -/
def timersStep (s old : State) (t : Time) : State :=
  allTmr.foldl (fun s n =>
    if tmrSrc s n = 2 then s.modTmr n (fun c => { c with last := srcIndex s 2 t + c.last - srcIndex old 2 t }) else s) s

/-- An array frame start reaches the channels (R423, R426) and the FSYNC_OUT pins (R442). -/
def timerFrameStart (s : State) (t : Time) : State :=
  let s := allTmr.foldl (fun s n =>
    let s := if tmrSrc s n = 5 then tmrSourceEvent s n else s
    if tmrHwStart s n = 2 then tmrStart (tmrReset s n t) n t else s) s
  let fs := (List.range 64).filter (fun p => s.fld (aPIO_PINCFG (p / 4)) (8 * (p % 4) + 1) (8 * (p % 4)) = 3)
  let high := fs.map (fun p => (p, t + s.fld (aPIO_PINARG (p / 4)) (8 * (p % 4) + 7) (8 * (p % 4)) * us))
  { s with pio := { s.pio with fsync := high ++ s.pio.fsync.filter (fun x => !fs.contains x.1) } }

/-- Configuration byte of a pin (R442, R452). -/
def pinCfg (s : State) (i : Nat) : Nat := s.fld (aPIO_PINCFG (i / 4)) (8 * (i % 4) + 7) (8 * (i % 4))

/-- What an output makes of the level it is driven by: inverted with INV, and released for high where it is open-drain (R442). -/
def pinOut (cfg : Nat) (b : Bool) : Option Bool :=
  let v := xor b (bit cfg 7)
  if bit cfg 3 && v then none else some v

/-- The level at which the device holds a pin, none where the pin is an input or its driver has released it (R442). -/
def pinDriven (s : State) (i : Nat) : Option Bool :=
  let cfg := pinCfg s i
  let arg := s.fld (aPIO_PINARG (i / 4)) (8 * (i % 4) + 7) (8 * (i % 4))
  let e := s.pe (i / 8)
  match cfg % 4 with
  | 0 => if bit cfg 2 then pinOut cfg (bit cfg 6) else none
  | 1 => if bit e.dir (i % 8) then pinOut cfg (bit e.lvl (i % 8)) else none
  | 2 => pinOut cfg (s.tmr arg).out
  | _ => pinOut cfg (s.pio.fsync.any (fun x => decide (x.1 = i)))

/-- The fault of a halt, by its code in PIOn_CTL.FAULT (R439). -/
def peFault (fault : Nat) : Nat := if fault = 1 then fWAIT_TIMEOUT else fPIO_ILLEGAL

/-- A halted engine is about to stop: its fault no longer stands (R439, R495). -/
def peRelease (s : State) (e : Nat) (t : Time) : State :=
  if (s.pe e).st = .halted then unstand s (peFault (s.pe e).fault) e t else s

/-- Every channel and engine stops, and every pin returns to its reset state (R433). -/
def stopTimersAndPio (s : State) (t : Time) : State :=
  let s := allTmr.foldl (fun s n => tmrStop s n t) s
  let s := (List.range 8).foldl (fun s e => (peRelease s e t).modPe e (fun p =>
    if p.st = .stopped then p else
    { p with st := .stopped, waitFrom := none, keepW0 := p.w0, keepW1 := p.w1, keepTx := p.txr, keepRx := p.rxr })) s
  let s := (List.range 16).foldl (fun s k => (s.setReg (aPIO_PINCFG k) 0).setReg (aPIO_PINARG k) 0) s
  { s with pio := { s.pio with fsync := [] } }

end Sys2Proof.Machine
end

