-- ==== Sys2Proof/Machine/ArrayRun.lean ====
section
/-! DEFINITION. The running array: starts and stops, overhead slots, row slots, the engines' work on each sample-row, integrations, and
the lines that leave the tiles (R11, R13, R34 to R36, R49, R52 to R58, R60, R67, R70, R76, R90, R91, R94 to R121, R497). -/

namespace Sys2Proof.Machine

/-! ## Lines (R11, R13, R109, R497) -/

/-- A view's frame takes row `row` of tile `t` in lines of this sort. -/
def vfNeeds (f : VFrame) (t row : Nat) (samples : Bool) : Bool :=
  let y := t / 16 * f.sideY + row
  let c := t % 16
  decide (f.p.source = 0) && (isSamples f.p == samples) && decide (f.sy ≤ y ∧ y < f.sy + f.sh) &&
  decide (f.sx < (c + 1) * f.sideX ∧ c * f.sideX < f.sx + f.sw)

/-- Codes of a tile line that a RASTER frame stores, and where. -/
def rasterPart (s : State) (f : VFrame) (t row : Nat) (codes : List Nat) : Nat × List Nat :=
  let c := t % 16
  let lo := max f.sx (c * f.sideX)
  let hi := min (f.sx + f.sw) ((c + 1) * f.sideX)
  let part := if codes.isEmpty then List.replicate (hi - lo) f.p.fill else (codes.drop (lo - c * f.sideX)).take (hi - lo)
  (storeAddr s f (t / 16 * f.sideY + row - f.sy) + (lo - f.sx) * 3, part)

/-- Deliver a radiance or sample line of tile `t` to its consumers: LIVE views through the arbiter, RASTER views through the frame-store
writer. No codes stand for fill. -/
def deliverLine (s : State) (t frame row : Nat) (kind : Option Nat) (codes : List Nat) (flags : Nat) (at_ : Time) : State :=
  let fs := s.pipe.frames.filter (fun f => decide (f.frame = frame) && vfNeeds f t row kind.isSome)
  let s := if fs.any (fun f => decide (f.p.order = 0)) then
      s.modPipe (fun p => { p with lines := p.lines ++ [⟨0, t, frame, row, kind, codes, flags, at_⟩] })
    else s
  (fs.filter (fun f => decide (f.p.order = 1))).foldl (fun s f =>
    if memUp s then
      let (a, part) := rasterPart s f t row codes
      let y := t / 16 * f.sideY + row - f.sy
      let s := memStore s 1 f.view.val a (part.flatMap (leBytes 3)) at_
      if flags = 0 ∨ f.lastTile < t % 16 then s
      else s.modVf f.view.val frame (fun f => { f with lineFlags := f.lineFlags ++ [(y, flags)] })
    else s) s

/-- Place of an enabled tile among the enabled tiles. -/
def tileOrd (en : List Bool) (t : Nat) : Nat := countIf id (en.take t)

/-- Depth of a spilled kind in rows, and the rows of the kinds before it (R109). -/
def spillDepth (g : Settings) (q : Nat) : Nat := g.DJ - g.D (g.expOf q) + 1
def spillOffset (g : Settings) (q : Nat) : Nat := sumL ((List.range q).map (spillDepth g))

/-- Frame-memory address of a spilled sample-row. DESIGN CHOICE: tile by tile, kind by kind, rows in a ring that runs on from frame to frame. -/
def spillAddr (f : Frame) (t q i : Nat) : Nat :=
  f.spillAt * mib + 768 * (tileOrd f.en t * spillRowsPerTile f.set + spillOffset f.set q + (f.spillRow + i) % spillDepth f.set q)

/-- The frames that the sequencer holds. -/
def liveFrames (s : State) : List Frame := s.seq.cur.toList ++ s.seq.prev.toList ++ s.seq.latched.toList
def frameOf (s : State) (n : Nat) : Option Frame := (liveFrames s).find? (fun f => f.num = n)
def State.modFrame (s : State) (n : Nat) (g : Frame → Frame) : State :=
  let m (o : Option Frame) : Option Frame := o.map (fun f => if f.num = n then g f else f)
  s.modSeq (fun q => { q with cur := m q.cur, prev := m q.prev, latched := m q.latched })
def State.modStat (s : State) (n t : Nat) (g : TileStat → TileStat) : State :=
  s.modFrame n (fun f => { f with stats := f.stats.map (fun x => if x.tile.val = t then g x else x) })

/-- Places of a tile's output queue that transfers of this same instant free; a release counts before a claim (R25). -/
def linesFreed (s : State) (t : Nat) (at_ : Time) : Nat :=
  countIf (fun i => match i with | .mosaicLineTransfer u k _ => decide (u = at_ ∧ k.val = t) | _ => false) s.pending

/-- A line is lost: it is counted, and every consumer fills it and flags it DAMAGED (R13, R19). -/
def dropLine (s : State) (t : Nat) (l : Line) (at_ : Time) : State :=
  let s := s.bump aDIAG_MOSAIC_DROP 31 0 1
  match l.kind with
  | .spill _ => s
  | .radiance => deliverLine s t l.frame l.row none [] 1 at_
  | .samples q => deliverLine s t l.frame l.row (some q) [] 1 at_

/-- The ARRAY side of the output queues is reset: they are emptied, and each line in them is lost (R19). -/
def loseQueued (s : State) (at_ : Time) : State :=
  (List.range 192).foldl (fun s t =>
    (s.eng t).outq.foldl (fun s l => dropLine s t l at_) (s.modEng t (fun e => { e with outq := [] }))) s

/-- A line leaves its engine for the output queue; a full queue drops it (R13). A line that no consumer needs is discarded (R11). -/
def emitLine (s : State) (t : Nat) (l : Line) (at_ : Time) : State :=
  let needed := match l.kind with
    | .spill _ => true
    | .radiance => s.pipe.frames.any (fun f => decide (f.frame = l.frame) && vfNeeds f t l.row false)
    | .samples _ => s.pipe.frames.any (fun f => decide (f.frame = l.frame) && vfNeeds f t l.row true)
  if !needed then s
  else if (s.eng t).outq.length < 4 + linesFreed s t at_ then s.modEng t (fun e => { e with outq := e.outq ++ [l] })
  else raise (dropLine s t l at_) fMOSAIC_OVERRUN t at_

/-- The mosaic bus takes the oldest line of a tile (R11, R109, R497); `crcOk` tells whether its CRC-32C holds at the arbiter.
DESIGN CHOICE: a spilled row whose line does not reach frame memory is fetched and merged as any other, with the bytes that stand there (R111 names
fetches alone; log entry 29). -/
def takeLine (s : State) (t : Nat) (crcOk : Bool) (at_ : Time) : State :=
  match (s.eng t).outq with
  | [] => s
  | l :: rest =>
    let s := s.modEng t (fun e => { e with outq := rest })
    let flags := b2n l.damaged
    match l.kind with
    | .spill q =>
      match frameOf s l.frame with
      | some f =>
        if memUp s then
          memStore (s.bumpWrap aTENG_SPILL_ROWS 31 0 1) 0 t (spillAddr f t q l.row) (packGroups 2 12 l.codes.length l.codes) at_
        else s
      | none => s
    | .radiance =>
      if crcOk then deliverLine s t l.frame l.row none l.codes flags at_
      else
        let s := s.bump aDIAG_LINE_CRC 31 0 1
        let s := raise s fLINE_CRC t at_
        deliverLine s t l.frame l.row none [] 1 at_
    | .samples q => deliverLine s t l.frame l.row (some q) l.codes flags at_

/-! ## Overhead slots (R34 to R36, R98) -/

/-- Border pixels of a tile that a slot reads (R28). -/
def borderCount (t : Nat) : Nat :=
  let b := t / 16
  let c := t % 16
  if b = 0 ∨ b = 11 then 512 else if c = 0 ∨ c = 15 then 32 else 0

/-- The set's mode uses DCG in some exposure. -/
def usesDcg (g : Settings) : Bool := (List.range (g.lastExp + 1)).any g.hasDcg

/-- Sum and count of signal minus reset over samples. -/
def diffSum (res10 : Bool) (l : List (Nat × Nat)) : Int × Nat :=
  ((l.map (scaleCounts res10)).foldl (fun a rs => a + ((rs.2 : Int) - rs.1)) 0, l.length)

def addSum (a b : Int × Nat) : Int × Nat := (a.1 + b.1, a.2 + b.2)

/-- One overhead slot of a tile. Border pixels that the static table names are left out (R101). -/
def overheadTile (s : State) (g : Settings) (k t : Nat) (counts : List (Nat × Nat)) : State :=
  let lcg := usesDcg g && decide (k % 4 = 2 ∨ k % 4 = 3)
  if k < 4 then
    let d := diffSum g.res10 (counts.take 512)
    s.modEng t (fun e => if lcg then { e with sumL := addSum e.sumL d } else { e with sumH := addSum e.sumH d })
  else
    let bad := (tileDefects s.sec.defects t).filterMap (fun w =>
      if defectKind w = 3 ∧ defectY w = k - 4 then some (defectX w) else none)
    let l := ((counts.take (borderCount t)).zipIdx.filter (fun p => !bad.contains p.2)).map (·.1)
    let d := diffSum g.res10 l
    s.modEng t (fun e => { e with border := addSum e.border d })

/-- A tile's reference mean in the form of `ARRAY_TREF`. DESIGN CHOICE: to the nearest 1/16 LSB, halves up, held between 0 and 65,535. -/
def refMean (a : Int × Nat) : Nat := min 65535 (meanOf (a.1 * 16).toNat a.2)

def nominalOff (s : State) (t : Nat) (lcg : Bool) : Int :=
  signed 16 (Config.trimOffset (trimWords s) (Fin.ofNat 192 t) lcg).toNat

/-- The engine takes the ramp error and the reference means at the end of the overhead slots (R34, R96, R98). DESIGN CHOICE: slots that end before the
frame's own ELP use the ALPHA of the configuration latched last (log entry 77). -/
def closeOverhead (s : State) (g : Settings) (t : Nat) (err : Int) (alpha0 : Bool) : State :=
  let alpha := if alpha0 || s.seq.ovhFirst then 0 else bits s.arr.engAct.ctl 6 4
  let ag := (g.tile (Fin.ofNat 192 t)).ag.getD 0 16
  let ok (lcg : Bool) (a : Int × Nat) : Bool :=
    let (lo, hi) := Config.trimRefRange (trimWords s) (Fin.ofNat 192 t) lcg
    decide (0 < a.2) && decide (lo.toNat ≤ refMean a ∧ refMean a ≤ hi.toNat)
  let out (lcg : Bool) (a : Int × Nat) : Bool := decide (0 < a.2) && !ok lcg a
  s.modEng t (fun e =>
    let up (lcg : Bool) (a : Int × Nat) (off : Option Int) : Option Int :=
      if ok lcg a then some (offStep (off.getD (nominalOff s t lcg)) alpha (refOne (refMean a) ag)) else off
    { e with
      ramp := err, refHcg := refMean e.sumH, refLcg := refMean e.sumL, refBad := out false e.sumH || out true e.sumL
      okH := ok false e.sumH, okL := ok true e.sumL, offH := up false e.sumH e.offH, offL := up true e.sumL e.offL })

/-- A frame that has started has read all its slots. -/
def curOver (s : State) : Bool := match s.seq.cur with | some f => f.endAt.isSome | none => true

/-- The frame start whose overhead slots are being read in free-run: that of a frame with no row read yet, or one whose ELP is still to come. -/
def ovhFrom (s : State) : Option Time :=
  match s.seq.begun, s.seq.cur with
  | some b, _ => some b
  | none, some f => if f.set.trig = 0 ∧ f.endAt.isNone ∧ f.next = 0 then some f.fs else none
  | none, none => none

/-- The set active at the start of the overhead slots (R36). -/
def ovhSetOf (s : State) : Settings := s.seq.ovhSet.getD s.arr.active

/-- Instant from which the slots that precede arming run: the end of the last frame or the start of the array, and not before the stamp of a commit
that changes to a trigger (R70, R90, R527). -/
def armFrom (s : State) : Time :=
  let b := match s.seq.cur with | some f => f.endAt.getD 0 | none => s.seq.anchor.getD 0
  match s.arr.pend with
  | some c => if s.arr.active.trig = 0 then max b c.instant else b
  | none => b

/-- The slot of a free-run frame, or one that precedes arming. -/
def ovhDue (s : State) (t : Time) : Bool :=
  decide (s.seq.ovh < 8) && s.seq.running && !s.seq.cut &&
  match ovhFrom s with
  | some b => decide (b + (s.seq.ovh + 1) * (ovhSetOf s).slot ≤ t)
  | none => curOver s && trigNext s t && s.seq.latched.isNone && !s.seq.stopping &&
      decide (armFrom s + (s.seq.ovh + 1) * (ovhSetOf s).slot ≤ t)

/-- The overhead slots start: the set now active says which tiles convert them, and how (R36). -/
def openOverhead (s : State) : State :=
  let g := s.arr.active
  let en := enOf s g
  let s := s.modSeq (fun q => { q with ovh := 0, ovhSet := some g })
  { s with arr := { s.arr with eng := s.arr.eng.zipIdx.map (fun x =>
      { x.1 with sumH := (0, 0), sumL := (0, 0), border := (0, 0), measured := en.getD x.2 false, okH := false, okL := false }) } }

/-- One overhead slot: `samples` are the reset and signal counts by tile, and `ramp` the ramp errors, taken with the last slot. -/
def overheadSlot (s : State) (samples : List (TileIx × List (Nat × Nat))) (ramp : List (TileIx × Int)) (t : Time) : State :=
  let k := s.seq.ovh
  let s := if s.seq.ovhSet.isNone then (openOverhead s).modSeq (fun q => { q with ovh := k }) else s
  let g := ovhSetOf s
  let on (x : Nat) : Bool := (s.eng x).measured
  let s := (samples.filter (fun x => on x.1.val)).foldl (fun s x => overheadTile s g k x.1.val x.2) s
  let s := s.modSeq (fun q => { q with ovh := k + 1 })
  if k = 7 then
    let inFrame := s.seq.begun.isNone && (match s.seq.cur with | some f => f.endAt.isNone && decide (f.set.trig = 0) | none => false)
    let bands := if inFrame then s.seq.alpha0 else movedBands s
    let s := ((List.range 192).filter on).foldl (fun s x =>
      let err := ((ramp.find? (fun r => r.1.val = x)).map (·.2)).getD (s.eng x).ramp
      closeOverhead s g x err (bands.contains (x / 16))) s
    let bad := (List.range 192).filter (fun x => on x && decide (1024 < (s.eng x).ramp.natAbs))
    let s := bad.foldl (fun s x => raise s fRAMP x t) s
    let s := s.modSeq (fun q => { q with ovhFirst := false })
    match s.seq.cur with
    | some f =>
      if inFrame then
        let h := heldTiles s f.set f.en
        s.modFrame f.num (fun f => { f with hold := h.1, rampBad := h.2, stats := f.stats.map (noteOverhead s), cal := calNow s })
      else s
    | none => s
  else s

/-! ## A sample-row in a tile (R94 to R121) -/

/-- What a frame's rows in a tile are corrected and clamped with: its own values, whichever frame's slots they are read in (R34, R49, R98). -/
def calOf (s : State) (f : Frame) (t : Nat) : TileCal :=
  f.cal.getD t (let e := s.eng t; ⟨e.ramp, e.offH, e.offL⟩)

/-- The H codes of one sample-row after stage 3, with the hot and cold counts. -/
def rowCodes (s : State) (f : Frame) (t i q : Nat) (pat4 : Bool) (counts : List (Nat × Nat)) : List Nat × Nat × Nat :=
  let g := f.set
  let e := calOf s f t
  let j := g.expOf q
  let lcg := g.isLcg q
  let ts := g.tile (Fin.ofNat 192 t)
  let off := (if lcg then e.offL else e.offH).getD (nominalOff s t lcg)
  let blk := blkOf off (ts.ag.getD j 16) (f.cfg.dark.getD t 0) (g.span (Fin.ofNat 192 t) j) (f.cfg.kdcg.getD t 0x1400) lcg
  let h := (List.range 512).map (fun u =>
    if pat4 then hCode (rampDc (if g.bin then 2 * (u / 4) + u % 2 else u) i q) 0 false
    else
      let r := stage1 g.res10 lcg e.ramp (scaleCounts g.res10 (counts.getD u (0, 0)))
      hCode r.1 blk r.2)
  let r0 := g.tileRow i
  let rows := if g.bin then [r0, r0 + 2] else [r0]
  let ls := if bit f.cfg.ctl 0 then (tileDefects s.sec.defects t).flatMap (listedIn rows) else []
  let h := if ls.isEmpty then h else sdcRow h ls
  if bit f.cfg.ctl 1 then ddcRow h (ls.map Listed.x) (bits f.cfg.ddc 27 16) (bits f.cfg.ddc 7 0) else (h, 0, 0)

/-- A spilled kind of a row has not come back at its merge: its line was dropped, or its fetch is late or lost (R111). -/
def spillMissing (s : State) (f : Frame) (t i : Nat) : Bool :=
  (List.range f.set.S).any (fun q => bit f.spill q &&
    ((s.eng t).lostRows.contains (f.num, i, q) || !(s.eng t).fetched.any (fun x => decide (x.frame = f.num ∧ x.row = i ∧ x.kind = q))))

/-- H codes of a kind of a row at its merge: this slot's, a held row's, or none, as every spilled kind of a row is where one is missing (R111). -/
def kindRow (s : State) (f : Frame) (t i q : Nat) (now : Nat × List Nat) : Option (List Nat) :=
  if q = now.1 then some now.2
  else if bit f.spill q && spillMissing s f t i then none
  else
    let e := s.eng t
    let hit (x : Held) : Bool := decide (x.frame = f.num ∧ x.row = i ∧ x.kind = q)
    ((e.held ++ e.dcg ++ e.fetched).find? hit).map Held.h

/-- The radiance codes of a merged row (R112 to R116, R121). -/
def mergeRow (s : State) (f : Frame) (t i : Nat) (now : Nat × List Nat) : List Nat :=
  let g := f.set
  let v := g.imageRow i
  if codePattern f.cfg.pat then (List.range g.lineLen).map (fun u => patternCode f.cfg.pat t u v g.bin)
  else
    let b := b2n g.bin
    let cols (q : Nat) : List (Option Int) := binCols g.bin ((kindRow s f t i q now).getD (List.replicate 512 4095))
    let t0 := bits f.cfg.dcgKnee 27 16 * 2 ^ b
    let ws := bits f.cfg.dcgKnee 3 0 + b
    let exps := (List.range (g.lastExp + 1)).map (fun j =>
      let d := g.hasDcg j
      let knee := if d then f.cfg.kneeD else f.cfg.kneeL
      let nm := (f.norm.getD t []).getD j (2 ^ 31, 31)
      (d, cols (g.qa j), cols (g.qz j), bits knee 24 8 * 2 ^ b, bits knee 4 0 + b, nm))
    (List.range g.lineLen).map (fun u =>
      radiance f.cfg.ped (exps.map (fun x =>
        let (d, hh, ll, s0, w, nm) := x
        let a := stage4 d (f.cfg.kdcg.getD t 0x1400) t0 ws (hh.getD u none) (ll.getD u none)
        { a := a.1, u := a.2, s0 := s0, ws := w, mant := nm.1, sh := nm.2 })))

/-- Zone sums and histograms take a line of codes (R117, R119). -/
def statLine (s : State) (f : Frame) (t i : Nat) (codes : List Nat) : State :=
  let v := f.set.imageRow i
  let ped := if codePattern f.cfg.pat then 0 else f.cfg.ped
  let hb := bits f.cfg.ctl 11 8
  let (sums, cnts, sat, ch) := zoneRow codes v ped hb
  let s := s.modStat f.num t (fun x => { x with
    sums := List.zipWith (· + ·) x.sums sums, counts := List.zipWith (· + ·) x.counts cnts, sat := x.sat + sat
    hist := if v % 2 = 1 then cellRow x.above codes ped hb x.hist else x.hist
    above := codes })
  s.modFrame f.num (fun f => { f with chan := List.zipWith (fun a b => histMerge a b 25) f.chan ch })

/-- A spilled kind of the row did not return (R111). -/
def spillLost (s : State) (f : Frame) (t : Nat) (at_ : Time) : State :=
  let s := s.bump aTENG_SPILL_LOST 31 0 1
  let s := if f.spillRaised.isEmpty then raise s fSPILL_LOST 0 at_ else s
  s.modFrame f.num (fun f => { f with lost := t :: f.lost, spillRaised := t :: f.spillRaised })

/-- One sample-row of a tile (R105): governor statistics and SAMPLES lines, then held, spilled, kept for the DCG merge, or merged. -/
def slotTile (s : State) (num t i q : Nat) (counts : List (Nat × Nat)) (at_ : Time) : State :=
  match frameOf s num with
  | none => s
  | some f =>
    let g := f.set
    let j := g.expOf q
    let J := g.lastExp
    let pat4 := decide (f.cfg.pat = 4)
    let (h, hot, cold) := rowCodes s f t i q pat4 counts
    let real := if pat4 then (rowCodes s f t i q false counts).1 else h
    let sc := (counts.take 512).map (scaleCounts g.res10)
    let dg := (g.tile (Fin.ofNat 192 t)).dg
    let s := (s.bump (aTENG_TDDC_CNT t) 15 0 hot).bump (aTENG_TDDC_CNT t) 31 16 cold
    let gv := govRow real (decide (g.imageRow i % 2 = 1)) (dg.getD 0 1024)
    let s := s.modStat num t (fun x => { x with
      tclip := x.tclip + countIf (fun r => r.2 = sfs g.res10) sc
      tecl := x.tecl + countIf (fun r => r.1 = rfs g.res10) sc
      lvl := if q = 0 then x.lvl + gv.1 else x.lvl
      clip := if q = 0 then x.clip + gv.2.1 else x.clip
      npix := if q = 0 then x.npix + gv.2.2 else x.npix })
    let dmg := f.rampBad.contains t
    let s := emitLine s t ⟨num, g.imageRow i, .samples q, h.map (sampleVal (dg.getD j 1024)), dmg⟩ at_
    -- the row that this slot reads has ended its integration
    let s := s.modSeq (fun x => { x with integ := x.integ.filter (fun n =>
      !(decide (n.frame = num) && decide (n.tile.val = t) && decide (n.row = i) && decide (n.exp = j))) })
    if j < J then
      if bit f.spill q then emitLine s t ⟨num, i, .spill q, h, false⟩ at_
      else
        let s := s.modEng t (fun e => { e with held := e.held ++ [⟨num, i, q, h⟩] })
        let n := (s.eng t).held.length + (s.eng t).fetched.length
        s.setFld (aTENG_TPEAK t) 7 0 (max n (s.fld (aTENG_TPEAK t) 7 0))
    else if q < g.S - 1 then s.modEng t (fun e => { e with dcg := (⟨num, i, q, h⟩ : Held) :: e.dcg.take 1 })
    else
      let lost := spillMissing s f t i
      let codes := mergeRow s f t i (q, h)
      let s := if lost then spillLost s f t at_ else s
      let s := statLine s f t i codes
      let s := emitLine s t ⟨num, g.imageRow i, .radiance, codes, dmg⟩ at_
      let keep (x : Held) : Bool := !(decide (x.frame = num) && decide (x.row = i))
      s.modEng t (fun e => { e with
        held := e.held.filter keep, dcg := e.dcg.filter keep, fetched := e.fetched.filter keep
        asked := e.asked.filter (fun x => !(decide (x.1 = num) && decide (x.2.1 = i)))
        lostRows := e.lostRows.filter (fun x => !(decide (x.1 = num) && decide (x.2.1 = i))) })

/-! ## The end of a frame (R49, R78, R119) -/

/-- The per-frame registers of a tile, all at once (R49, R98, R111). TREF of a frame in which the tile converted no reference rows is a free value
(DESIGN CHOICE: R48 states none), its REF_LCG 0 without DCG (R48); TRAMP is the error that the engine used, and TBORDER is 0 where no border was read. -/
def publishTile (s : State) (f : Frame) (x : TileStat) : State :=
  let t := x.tile.val
  let (free, s') := drawFree s
  let s := if x.measured then s.setReg (aARRAY_TREF t) (x.refH + 65536 * x.refL) else s'.setReg (aARRAY_TREF t) (free.toNat % 65536 + (if usesDcg f.set then free.toNat / 65536 % 65536 * 65536 else 0))
  let s := s.setReg (aARRAY_TBORDER t) (match x.border with
    | some b => 2 ^ 31 + (b.2 % 4096) * 65536 + min 65535 b.1
    | none => 0)
  let s := s.setReg (aARRAY_TRAMP t) (unsigned 16 (calOf s f t).ramp)
  let s := s.setReg (aARRAY_TCLIP t) x.tclip
  let s := s.setReg (aARRAY_TECLIPSE t) x.tecl
  let s := s.setReg (aARRAY_TFRAME t) f.num
  let s := (s.setFld (aARRAY_TSTAT t) 3 3 (b2n (f.rampBad.contains t))).setFld (aARRAY_TSTAT t) 2 2 (b2n x.refBad)
  (s.setFld (aTENG_TSTAT t) 3 3 (b2n (f.lost.contains t))).setFld (aTENG_TSTAT t) 1 1 (b2n (f.hold.contains t))

/-- A frame's last sample-row slot has ended. -/
def endFrame (s : State) (num : Nat) (at_ : Time) : State :=
  match frameOf s num with
  | none => s
  | some f =>
    let s := f.stats.foldl (fun s x => publishTile s f x) s
    let s := s.modFrame num (fun f => { f with endAt := some at_ })
    let s := s.modSeq (fun q => { q with
      done := q.done ++ [{ f with endAt := some at_ }]
      prev := if (q.prev.map Frame.num) = some num then none else q.prev
      ovh := if (q.cur.map Frame.num) = some num then 0 else q.ovh
      ovhSet := if (q.cur.map Frame.num) = some num then none else q.ovhSet })
    endSource s 0 0 num at_

/-- The array has stopped: nothing is armed, and pixels are held in reset (R91). A frame whose FS has come has used its number, one whose FS has not
gives it back (R52, R90; DESIGN CHOICE, log entry 26). DESIGN CHOICE: a `TRIGGER_AT` accepted while a stop of `HOW` 0 still finishes stays pending
(R92 names no drop; log entry 25). -/
def haltArray (s : State) : State :=
  let s := s.modSeq (fun q => { q with
    nextNum := (match q.latched with | some f => f.num | none => if q.begun.isSome then (q.nextNum + 1) % 2 ^ 32 else q.nextNum)
    running := false, stopping := false, armed := false, latched := none, cur := none, prev := none, tg := none, anchor := none, integ := []
    relock := q.relock && q.stopping, begun := none, cut := false })
  { s with arr := { s.arr with undo := none } }

/-- Pending `TRIGGER_AT` requests are dropped and counted (R72). -/
def dropTrigAt (s : State) : State :=
  (s.bump aARRAY_TRIG_CNT 31 16 s.seq.trigAt.length).modSeq (fun q => { q with trigAt := [] })

/-- The array has stopped once every frame that latched has ended (R91). -/
def maybeHalt (s : State) : State :=
  if s.seq.running && s.seq.stopping && !s.seq.cut && s.seq.latched.isNone && s.seq.tg.isNone && curOver s && s.seq.prev.isNone then haltArray s
  else s

/-! ## Row slots (R53 to R58) -/

/-- A FOLD frame's folded rows are to be drained: the next frame differs in structure, or no frame follows. -/
def drainNow (s : State) (f : Frame) (t : Time) : Bool :=
  f.set.fold && decide (0 < f.set.DJ) &&
  (match s.seq.latched with
   | some g => drains f g.set g.tread
   | none => s.seq.stopping || trigNext s t || drains f (plan s t).set (plan s t).tread)

/-- Slots of a frame: with its tail where it has one of its own. -/
def slotsOf (s : State) (f : Frame) (t : Time) : Nat :=
  if !f.set.fold || drainNow s f t then f.set.N + f.set.tailSlots else f.set.N

/-- The sample-row that slot `k` of the frame being read holds: the frame, the row index and the kind. -/
def slotRow (s : State) (f : Frame) (k : Nat) : Option (Nat × Nat × Nat) :=
  let m := k / f.set.S
  let q := k % f.set.S
  let d := f.set.D (f.set.expOf q)
  if d ≤ m then (if m - d < f.set.rows then some (f.num, m - d, q) else none)
  else match s.seq.prev with
    | some p => if p.endAt.isNone ∧ p.set.fold then some (p.num, p.set.rows + m - d, q) else none
    | none => none

def rowSlotDue (s : State) (t : Time) : Bool :=
  match s.seq.cur with
  | some f => s.seq.running && decide (f.next < slotsOf s f t) && (decide (s.seq.ovh = 8) || decide (f.set.trig ≠ 0)) &&
    decide (f.is0 + slotOff f.set f.tread f.next + f.set.slot ≤ t)
  | none => false

/-- The frame a slot belongs to has its last sample-row in it. -/
def lastOf (f : Frame) (i q : Nat) : Bool := decide (i = f.set.rows - 1 ∧ q = f.set.S - 1)

/-- An engine discards what it holds of the frames that `gone` names. -/
def Eng.discard (e : Eng) (gone : Nat → Bool) : Eng :=
  { e with
    held := e.held.filter (fun h => !gone h.frame), dcg := e.dcg.filter (fun h => !gone h.frame)
    fetched := e.fetched.filter (fun h => !gone h.frame), asked := e.asked.filter (fun x => !gone x.1), lostRows := e.lostRows.filter (fun x => !gone x.1)
    outq := e.outq.filter (fun l => !gone l.frame) }

/-- Slot of its own frame or of the next that a frame has reached, counted from its IS. -/
def slotReached (s : State) (f : Frame) : Nat :=
  match s.seq.cur with
  | some c => if c.num = f.num then c.next else f.set.N + c.next
  | none => 0

/-- The fetches of a frame that fall due with the end of a slot: at the end of cycle m − 2, of each spilled kind, the sample-row that exposure J needs in
cycle m, as 12 requests (R109). Where frame memory answers with a fault the fetch is lost (R111). -/
def issueFetches (s : State) (f : Frame) (t : Time) : State :=
  let g := f.set
  let k := slotReached s f
  let row := k / g.S + 1 - g.DJ
  if k % g.S ≠ 0 ∨ k / g.S + 1 < g.DJ ∨ g.rows ≤ row then s
  else ((List.range 192).filter (fun x => f.en.getD x false)).foldl (fun s x =>
    ((List.range g.S).filter (fun q => bit f.spill q)).foldl (fun s q =>
      if memUp s then memLoad (s.modEng x (fun e => { e with asked := e.asked ++ [(f.num, row, q)] })) 0 x (spillAddr f x q row) 768 t
      else s.modEng x (fun e => { e with lostRows := e.lostRows ++ [(f.num, row, q)] })) s) s

/-- The array ends at once: frames left incomplete end TRUNCATED, and what the engines hold of them is discarded (R91). -/
def cutArray (s : State) (t : Time) : State :=
  let open_ := (liveFrames s).filter (fun f => f.endAt.isNone)
  let s := open_.foldl (fun s f => truncateSource s 0 0 f.num 0 t) s
  haltArray { s with arr := { s.arr with eng := s.arr.eng.map (fun e => e.discard (fun n => open_.any (fun f => f.num = n))) } }

def rowSlot (s : State) (samples : List (TileIx × List (Nat × Nat))) (t : Time) : State :=
  match s.seq.cur with
  | none => s
  | some f =>
    let k := f.next
    let fin := f.is0 + slotOff f.set f.tread k + f.set.slot
    let row := slotRow s f k
    let s := s.modFrame f.num (fun f => { f with next := k + 1 })
    let s : State := match row with
      | none => s
      | some (n, i, q) =>
        match frameOf s n with
        | none => s
        | some g =>
          let s := ((List.range 192).filter (fun x => g.en.getD x false)).foldl (fun s x =>
            slotTile s n x i q (((samples.find? (fun r => r.1.val = x)).map (·.2)).getD []) t) s
          if lastOf g i q then endFrame s n fin else s
    let s := ((s.seq.cur.toList ++ s.seq.prev.toList).filter (fun f => f.endAt.isNone && decide (f.spill ≠ 0))).foldl (fun s f => issueFetches s f t) s
    if s.seq.cut then cutArray s t else maybeHalt s

/-! ## Frame starts (R52, R58, R76) -/

/-- The frame being read has no slot left. -/
def readOut (s : State) (t : Time) : Bool :=
  match s.seq.cur with
  | some f => decide (slotsOf s f t ≤ f.next)
  | none => true

/-- What every FS brings: the frame number, the timers, and in free-run the start of the overhead slots (R52). -/
def numberFrame (s : State) (n : Nat) (trig : Bool) (t : Time) : State :=
  let s := s.modSeq (fun q => { q with frame := n })
  let s := if trig then s.modSeq (fun q => { q with ovh := 8 }) else openOverhead s
  timerFrameStart s t

/-- A frame past its FS and its ELP is the one being read, and reaches the views. -/
def enterFrame (s : State) (f : Frame) (t : Time) : State :=
  let old := s.seq.cur
  let f := { f with fsD := if s.seq.begun.isSome then s.seq.begunD else s.dtime f.fs }
  let s := s.modSeq (fun q => { q with
    cur := some f, latched := none, begun := none
    prev := match old with | some o => if o.endAt.isNone then some o else none | none => none })
  let s := openArrayFrame { s with arr := { s.arr with undo := none } } f t
  let views := (s.pipe.frames.filter (fun x => decide (x.p.source = 0 ∧ x.frame = f.num) && bit x.p.flags 0)).map (fun x => x.view.val)
  s.modFrame f.num (fun f => { f with takers := views })

/-- FS of the next frame: of the latched one, or, with an exposure so short that the ELP comes later, of one that has yet to latch (R52). -/
def frameStart (s : State) (t : Time) : State :=
  match s.seq.latched with
  | some f => enterFrame (numberFrame s f.num (decide (f.set.trig ≠ 0)) t) f t
  | none =>
    let p := plan s t
    numberFrame (s.modSeq (fun q => { q with begun := some p.fs, begunD := s.dtime p.fs })) s.seq.nextNum false t

/-- A FS is due: the frame's schedule has come to it, and the frame before has no slot left on its grid. -/
def frameDue (s : State) (t : Time) : Bool :=
  !s.seq.cut && readOut s t &&
  match s.seq.latched with
  | some f => decide (f.fs ≤ t)
  | none => s.seq.running && !s.seq.stopping && s.seq.begun.isNone && s.seq.tg.isNone && !trigNext s t &&
      (let p := plan s t; decide (p.fs < p.elp) && decide (p.fs ≤ t))

/-- The ELP of the next frame; one whose FS has passed is from then on the frame being read. -/
def latchNext (s : State) (t : Time) : State :=
  let begun := s.seq.begun.isSome
  let s := latchFrame s (plan s t)
  match s.seq.latched with
  | some f => if begun then enterFrame s f t else s
  | none => s

/-- The array has no frame to be read and waits for a trigger (R70). -/
def armDue (s : State) (t : Time) : Bool :=
  s.seq.running && !s.seq.stopping && !s.seq.armed && trigNext s t && curOver s && s.seq.latched.isNone && s.seq.tg.isNone &&
  decide (s.seq.ovh = 8)

/-- The next frame reaches its ELP (R76): its own instant in free-run, the trigger's in triggered modes. -/
def latchDue (s : State) (t : Time) : Bool :=
  s.seq.running && !s.seq.stopping && s.seq.latched.isNone &&
  (match s.seq.tg with
   | some x => decide (x ≤ t)
   | none => !trigNext s t && decide ((plan s t).elp ≤ t))

/-! ## Start and stop (R90, R91, R391) -/

def startArrayAt (s : State) (t : Time) : State :=
  s.modSeq (fun q => { q with
    running := true, stopping := false, armed := false, ovh := 0, ovhSet := none, ovhFirst := true, anchor := some t, tg := none, cur := none
    prev := none, latched := none, begun := none, cut := false })

/-- A row slot has begun and has not ended. -/
def slotBusy (s : State) (t : Time) : Bool :=
  match s.seq.cur with
  | some f =>
    let at_ := f.is0 + slotOff f.set f.tread f.next
    s.seq.running && decide (f.next < slotsOf s f t) && (decide (s.seq.ovh = 8) || decide (f.set.trig ≠ 0)) && decide (at_ < t)
  | none => false

/-- The array stops as `STOP_ARRAY` with `HOW` 1 does, at the end of the row slot in progress (R91). -/
def stopArrayNow (s : State) (t : Time) : State :=
  if !s.seq.running then s
  else
    let s := dropTrigAt s
    if slotBusy s t then s.modSeq (fun q => { q with stopping := true, cut := true, armed := false, tg := none }) else cutArray s t

/-- The array is stopped within one effect that leaves it no clock or no supply: the row slot in progress goes with it. -/
def killArray (s : State) (t : Time) : State := if s.seq.running then cutArray (loseQueued (dropTrigAt s) t) t else s

/-- Frames whose ELP came after a stamp are not started (R91): a latched one gives way, one being read ends TRUNCATED, and the frame before it goes
on. DESIGN CHOICE: what their ELP made active stays active. -/
def dropLate (s : State) (stamp t : Time) : State :=
  let s := match s.seq.latched with
    | some f => if stamp < f.elp then (s.modSeq (fun q => { q with latched := none, nextNum := f.num })) else s
    | none => s
  let s := if s.seq.begun.isSome then s.modSeq (fun q => { q with begun := none, nextNum := (q.nextNum + 1) % 2 ^ 32 }) else s
  let s := match s.seq.tg with | some x => if stamp < x then s.modSeq (fun q => { q with tg := none }) else s | none => s
  match s.seq.cur with
  | some f =>
    if f.endAt.isNone && decide (stamp < f.elp) then
      let s := truncateSource s 0 0 f.num 0 t
      let s : State := { s with arr := { s.arr with eng := s.arr.eng.map (fun e => Eng.discard e (fun n => decide (n = f.num))) } }
      let back := s.seq.prev.map (fun p => { p with next := min (p.set.N + p.set.tailSlots) (p.set.N + f.next) })
      s.modSeq (fun q => { q with cur := back, prev := none, ovh := 8, integ := q.integ.filter (fun n => decide (n.frame ≠ f.num)) })
    else s
  | none => s

/-- `STOP_ARRAY` with `HOW` 0 and its stamp. -/
def stopArrayAfter (s : State) (stamp t : Time) : State :=
  if !s.seq.running then s
  else maybeHalt ((dropLate (dropTrigAt s) stamp t).modSeq (fun q => { q with stopping := true, armed := false }))

/-! ## Integrations (R60, R67) -/

/-- IEND of row `i`, exposure `j`; `own` tells that the frame's folded rows are drained on its own grid (R58, R60). -/
def iEnd (f : Frame) (own : Bool) (i j : Nat) : Time :=
  let m := i + f.set.D j
  let k (c : Nat) : Nat := c * f.set.S + f.set.qa j
  (if f.set.fold && !own && decide (f.set.rows ≤ m) then f.is0 + f.per + slotOff f.set f.tread (k (m - f.set.rows))
   else f.is0 + slotOff f.set f.tread (k m)) + f.set.tx

def iStart (f : Frame) (own : Bool) (t : TileIx) (i j : Nat) : Time := iEnd f own i j - f.set.span t j * tick

/-- A frame's folded rows are read on its own grid, as far as is known: it drains, or no frame follows it. -/
def onOwnGrid (s : State) (f : Frame) (t : Time) : Bool :=
  match s.seq.prev with
  | some p => if p.num = f.num then false else drainNow s f t
  | none => drainNow s f t

/-- End of slice `n`, its transfer tick included. -/
def sliceEnd (f : Frame) (own : Bool) (t : TileIx) (i j n : Nat) : Time :=
  let e := (f.set.tile t).ticks.getD j 1
  let d := (if j = 0 then f.draws0 else f.draws1).getD n 0
  let (a, len) := slicePlace e (f.set.win j) (f.set.slices j) n d
  iStart f own t i j + (a + len + 1) * tick

end Sys2Proof.Machine
end

