-- ==== Sys2Proof/Machine/AuxOps.lean ====
section
/-! DEFINITION. Shared operations of the auxiliary camera inputs: configuration, starts and stops, line formats, frames and their
policing (R159 to R177). -/

namespace Sys2Proof.Machine

def State.auxIn (s : State) (n : Nat) : AuxIn := s.aux.getD n AuxIn.reset
def State.modAux (s : State) (n : Nat) (f : AuxIn → AuxIn) : State := { s with aux := modAt s.aux n f }
def State.auxVc (s : State) (n v : Nat) : AuxVc := (s.auxIn n).vcs.getD v AuxVc.reset
def State.modVc (s : State) (n v : Nat) (f : AuxVc → AuxVc) : State := s.modAux n (fun a => { a with vcs := modAt a.vcs v f })

/-! ## Configuration (R176, R177) -/

def auxEn (s : State) (n : Nat) : Bool := decide (s.fld (aAUX_CTL n) 0 0 = 1)
def auxRate (s : State) (n : Nat) : Nat := s.fld (aAUX_CTL n) 28 16
def auxLanes (s : State) (n : Nat) : Nat := 2 ^ s.fld (aAUX_CTL n) 2 1

/-- The soft fields of stream `v` as the registers hold them. -/
def auxSoft (s : State) (n v : Nat) : List Nat :=
  [s.fld (aAUX_CTL n) 4 4, s.fld (aAUX_CTL n) 5 5, s.fld (aAUX_CTL n) 7 6, s.fld (aAUX_DDC n) 23 16, s.fld (aAUX_DDC n) 15 0,
   s.fld (aAUX_PAD n) 15 0, s.fld (aAUX_BLK n) 15 0, s.fld (aAUX_BLK n) 31 16, s.fld (aAUX_VC_TIME n v) 31 16]

/-- An input enters SKEW_WAIT or RUN, or stays off (R160). Its streams time out from here (R169). -/
def auxEnter (s : State) (n : Nat) (t : Time) : State :=
  let st := if !auxEn s n || decide (s.pw.st ≠ .active) then AuxSt.off else if 1500 < auxRate s n then .skewWait else .run
  s.modAux n (fun a => { a with
    st := st, skewed := [], losLane := 0
    vcs := a.vcs.map (fun c => { c with openAt := none, lastFs := if st = .run then some t else none, everFs := false, late := false }) })

/-- The aux receivers come on (R382, R383). -/
def startAllAux (s : State) (t : Time) : State := (List.range 4).foldl (fun s n => auxEnter s n t) s

/-- The aux inputs stop, and leave LOS (R383). -/
def stopAllAux (s : State) (t : Time) : State :=
  (List.range 4).foldl (fun s n => (unstand s fAUX_LOS n t).modAux n (fun a => { a with
    st := .off, skewed := [], losLane := 0, stat := []
    vcs := a.vcs.map (fun c => { c with openAt := none, late := false, storeOk := false }) })) s

/-- The frames that an aux stream's Frame Start at `fs` opened. -/
def vfOf (n v : Nat) (fs : Time) (f : VFrame) : Bool := decide (f.p.source = n + 1 ∧ f.p.vc = v ∧ f.fsAt = fs)

/-- Soft fields of a stream, from its first Frame Start that follows the stamp, be it that of the open frame (R15, R177). DESIGN CHOICE: what that frame
has already stored or sent stands (log entry 37). -/
def auxSoftIn (s : State) (n v : Nat) (stamp : Time) (soft : List Nat) : State :=
  let c := s.auxVc n v
  match c.openAt with
  | some o =>
    if stamp < o then
      let s := s.modVc n v (fun c => { c with act := soft })
      let s := s.modPipe (fun q => { q with frames := q.frames.map (fun f =>
        if vfOf n v o f then { f with auxAct := soft ++ [auxDt s n v, auxBayer s n v] } else f) })
      s.modAux n (fun a => { a with stat := a.stat.map (fun r => if r.vc = v ∧ r.frame = c.count then { r with act := soft } else r) })
    else s.modVc n v (fun c => { c with soft := c.soft ++ [(stamp, soft)] })
  | none => s.modVc n v (fun c => { c with soft := c.soft ++ [(stamp, soft)] })

/-- A configuration that the registers now hold takes effect: soft fields from the next frame start of each stream, hard ones at once with a
reset of the D-PHY (R177). -/
def auxConfigured (s : State) (n : Nat) (stamp : Time) (hard : Bool) (t : Time) : State :=
  let s := (List.range 4).foldl (fun s v => auxSoftIn s n v stamp (auxSoft s n v)) s
  if hard then auxEnter (unstand s fAUX_LOS n t) n t else s

/-- A view fed from the input is started (R177). -/
def auxInUse (s : State) (n : Nat) : Bool := s.pipe.views.any (fun w => w.started && decide (w.p.source = n + 1))

/-! ## Packets (R161). PRESUMED: the header ECC and the payload CRC-16 of CSI-2, which the spec names and does not set out (log entry 37). -/

/-- Parity masks of the 26 header bits: data identifier, word count, VCX. -/
def csiMasks : List Nat := [0x1F12CB7, 0x2F2555B, 0x3749A6D, 0x3B8E38E, 0x3DF03F0, 0x3EFFC00]

/-- The 26 protected bits of a received header: bits 23:0 and VCX, bits 31:30. -/
def csiBits (h : BitVec 32) : Nat := h.toNat % 2 ^ 24 + h.toNat / 2 ^ 30 * 2 ^ 24

/-- Exclusive or of the bits that a mask selects. -/
def csiParity (v mask : Nat) : Nat := countIf (fun k => bit mask k && bit v k) (List.range 26) % 2

def csiEcc (v : Nat) : Nat := sumL (csiMasks.zipIdx.map (fun m => csiParity v m.1 * 2 ^ m.2))

/-- The syndrome of a single error in protected bit `k`. -/
def csiColumn (k : Nat) : Nat := sumL (csiMasks.zipIdx.map (fun m => b2n (bit m.1 k) * 2 ^ m.2))

/-- A received header: 0 sound, 1 corrected, 2 not correctable, and its protected bits after correction. -/
def csiHeader (h : BitVec 32) : Nat × Nat :=
  let v := csiBits h
  let syn := Nat.xor (csiEcc v) (h.toNat / 2 ^ 24 % 64)
  if syn = 0 then (0, v)
  else if (List.range 6).any (fun k => decide (syn = 2 ^ k)) then (1, v)
  else match (List.range 26).find? (fun k => csiColumn k = syn) with
    | some k => (1, Nat.xor v (2 ^ k))
    | none => (2, v)

def csiOk (h : BitVec 32) : Nat := (csiHeader h).1
/-- Virtual channel with its VCX bits, data type and word count. -/
def csiVc (h : BitVec 32) : Nat := let v := (csiHeader h).2; v / 64 % 4 + 4 * (v / 2 ^ 24)
def csiDt (h : BitVec 32) : Nat := (csiHeader h).2 % 64
def csiWc (h : BitVec 32) : Nat := (csiHeader h).2 / 256 % 65536

/-- A sound header of virtual channel `vc` (VCX above it), data type and word count. -/
def csiMake (vc dt wc : Nat) : BitVec 32 :=
  let v := dt % 64 + 64 * (vc % 4) + 256 * (wc % 65536) + 2 ^ 24 * (vc / 4 % 4)
  BitVec.ofNat 32 (v % 2 ^ 24 + csiEcc v * 2 ^ 24 + v / 2 ^ 24 * 2 ^ 30)

def csiCrcBit (v : Nat) : Nat := if v % 2 = 1 then Nat.xor (v / 2) 0x8408 else v / 2
def csiCrc (bs : List Byte) : Nat :=
  bs.foldl (fun v b => csiCrcBit (csiCrcBit (csiCrcBit (csiCrcBit (csiCrcBit (csiCrcBit (csiCrcBit (csiCrcBit (Nat.xor v b.toNat))))))))) 0xFFFF

/-! ## Lines (R161, R167) -/

/-- Bits of a pixel on the wire. -/
def dtBpp (dt : Nat) : Nat := if dt = 0x1F then 20 else if dt = 0x1E then 16 else dtBits dt

/-- Bytes and samples of a packing group. -/
def dtGroup (dt : Nat) : Nat × Nat :=
  match dt with
  | 0x2B => (5, 4) | 0x2C => (3, 2) | 0x2D => (7, 4) | 0x2E => (2, 1) | 0x2F => (5, 2) | 0x1F => (5, 4) | 0x1E => (4, 4) | _ => (1, 1)

/-- Samples of one group. PRESUMED: the packing of CSI-2, which the spec names and does not set out. -/
def unpackGroup (dt : Nat) (b : List Byte) : List Nat :=
  let g (k : Nat) : Nat := u8 b k
  match dt with
  | 0x2B | 0x1F => [g 0 * 4 + bits (g 4) 1 0, g 1 * 4 + bits (g 4) 3 2, g 2 * 4 + bits (g 4) 5 4, g 3 * 4 + bits (g 4) 7 6]
  | 0x2C => [g 0 * 16 + bits (g 2) 3 0, g 1 * 16 + bits (g 2) 7 4]
  | 0x2D => let v := u24 b 4
            [g 0 * 64 + bits v 5 0, g 1 * 64 + bits v 11 6, g 2 * 64 + bits v 17 12, g 3 * 64 + bits v 23 18]
  | 0x2E => [g 0 * 256 + g 1]
  | 0x2F => [g 0 * 4096 + g 1 * 16 + bits (g 4) 3 0, g 2 * 4096 + g 3 * 16 + bits (g 4) 7 4]
  | _ => b.map BitVec.toNat

/-- Whole pixels that a payload carries (R167), in samples; YUV pixels come in pairs. -/
def lineSamples (dt bytes : Nat) : Nat :=
  let px := 8 * bytes / dtBpp dt
  if dtYuv dt then px / 2 * 4 else px

/-- Samples of a payload. Bytes of a group that the packet does not carry are free values. -/
def unpackLine (s : State) (dt : Nat) (b : List Byte) : List Nat × State :=
  let (n, _) := dtGroup dt
  let (f, s) := if b.length % n = 0 then (0, s) else drawFree s
  let w := b ++ (if b.length % n = 0 then [] else (leBytes 8 f.toNat).take (n - b.length % n))
  let l := (List.range (w.length / n)).flatMap (fun k => unpackGroup dt (slice w (n * k) n))
  (l.take (lineSamples dt b.length), s)

/-! ## Frames (R163, R168, R172) -/

/-- Started views of a stream. -/
def streamViews (s : State) (n v : Nat) : List Nat :=
  (List.range 16).filter (fun k => let w := s.view k; w.started && decide (w.p.source = n + 1 ∧ w.p.vc = v))

/-- Frames in progress of a stream. -/
def streamFrames (s : State) (n v : Nat) : List VFrame :=
  s.pipe.frames.filter (fun f => decide (f.p.source = n + 1 ∧ f.p.vc = v))

/-- Pad value of a stream, cut to its sample width (R167). -/
def padOf (c : AuxVc) (dt : Nat) : Nat := c.act.getD 5 0 % 2 ^ dtBits dt

/-- One line of a stream goes to its LIVE views, whose jobs pad it, to its frame store, and back to the open frames' flags. A line that finds the line
buffer full reaches the LIVE views as a pad line, and the store as received (R171, R172). -/
def auxDeliver (s : State) (n v row : Nat) (got : List Nat) (flags : Nat) (full : Bool) (t : Time) : State :=
  let c := s.auxVc n v
  let dt := auxDt s n v
  let fs := (streamFrames s n v).filter (fun f => f.frame = c.count)
  let s := if fs.any (fun f => decide (f.p.order = 0)) then
      s.modPipe (fun p => { p with lines := p.lines ++ [⟨n + 1, v, c.count, row, none, if full then [] else got, if full then 0x40 else flags, t⟩] })
    else s
  let codes := got ++ List.replicate (auxW s n v * dtParts dt - got.length) (padOf c dt)
  if c.storeOk && memUp s then
    let s := memStore s 1 (16 + n) (auxStoreAddr s n v c.store row) (auxToBytes dt codes) t
    if flags = 0 then s
    else (fs.filter (fun f => decide (f.p.order = 1))).foldl (fun s f =>
      s.modVf f.view.val f.frame (fun f => { f with lineFlags := f.lineFlags ++ [(row, flags)] })) s
  else s

/-- Lines of a stream that wait in the line buffer for a LIVE view's jobs. Pad lines are not stored in it (R171). -/
def linesWaiting (s : State) (n v : Nat) : Nat :=
  let fs := (streamFrames s n v).filter (fun f => decide (f.p.order = 0))
  countIf (fun l : SrcLine => decide (l.src = n + 1 ∧ l.unit = v) && !bit l.flags 6 && fs.any (fun f => decide (f.frame = l.frame) &&
    decide (f.sy ≤ l.row ∧ l.row < f.sy + f.sh) && !(let g := groupOf f (l.row - f.sy); groupDone f g.1 g.2))) s.pipe.lines

/-- The stream's space in the line buffer is full (R170, R171). DEDUCED: the space is what its started LIVE views reserve. -/
def lbufFull (s : State) (n v : Nat) : Bool :=
  let live := countIf (fun k => decide ((s.view k).p.order = 0)) (streamViews s n v)
  decide (0 < live ∧ 32 * live ≤ linesWaiting s n v)

/-- Close the open frame of a stream (R168): `extra` are frame flags of R166, bit 8 as bit 0. -/
def closeAuxFrame (s : State) (n v extra : Nat) (t : Time) : State :=
  let c := s.auxVc n v
  if c.openAt.isNone then s
  else
    let h := auxH s n v
    let short := decide (c.lines < h)
    let fl := Nat.lor (Nat.lor c.fflags extra) (b2n short)
    let s := if short then s.bump (aAUX_VC_FCNT n v) 7 0 1 else s
    let s := if bit fl 1 then s.bump (aAUX_VC_FCNT n v) 15 8 1 else s
    let drop := short && decide (c.act.getD 0 0 = 1)
    let s := s.modPipe (fun p => { p with frames := p.frames.map (fun f =>
      if f.p.source = n + 1 ∧ f.p.vc = v ∧ f.frame = c.count then { f with fflags := Nat.lor f.fflags (256 * fl) } else f) })
    let s :=
      if drop then
        let s := s.bump (aAUX_VC_FCNT n v) 23 16 1
        let ids := ((streamFrames s n v).filter (fun f => f.frame = c.count)).map (fun f => f.view.val)
        let s := truncateSource s (n + 1) v c.count 0 t
        let s := ids.foldl (fun s k => missFrame s k c.count 5 t) s
        s.modAux n (fun a => { a with stat := a.stat.filter (fun r => !(decide (r.vc = v ∧ r.frame = c.count))) })
      else
        let s := (List.range (h - c.lines)).foldl (fun s k => auxDeliver s n v (c.lines + k) [] 0x40 false t) s
        let s := endSource s (n + 1) v c.count t
        let mine (r : AuxStat) : Bool := decide (r.vc = v ∧ r.frame = c.count) && r.endAt.isNone
        s.modAux n (fun a => { a with stat := (a.stat.filter (fun r => !(mine r && decide (r.act.getD 2 0 ≠ v)))).map (fun r =>
          if mine r then { r with endAt := some t } else r) })
    s.modVc n v (fun c => { c with openAt := none, lastLines := min 65535 c.lines, lastFlags := fl, storeOk := false })

/-- A view's frame of a stream. -/
def auxVf (s : State) (k n v : Nat) (t : Time) : VFrame :=
  let w := s.view k
  let c := s.auxVc n v
  let (ow, oh) := outSize w.p w.p.width w.p.height
  { view := viewIx k, frame := c.count, setId := 0, p := w.p, paramId := w.paramId, binned := false, sx := w.p.x, sy := w.p.y
    sw := w.p.width, sh := w.p.height, ow := ow, oh := oh, fsAt := t, fsD := s.dtime t, spanNs := 0, fflags := 16 * b2n s.sec.untrusted, s := 1, ped := 0
    started := false, jobs := [], rows := [], queued := 0, lost := 0, lor := 0, srcEnd := none, endD := 0, store := 0, readback := none
    late := none, curve := [], lineFlags := [], tag := none, tk := [], en := [], rowLo := 0, rowHi := 0, lsc := (s.auxIn n).bank
    interval := auxFrameIv s n v * w.p.decim, dropNoted := false, auxAct := c.act ++ [auxDt s n v, auxBayer s n v]
    geomW := auxW s n v, geomH := auxH s n v }

/-- When a LATE stream's timeout ran out. -/
def lateFrom (c : AuxVc) : Time := c.lastFs.getD 0 + c.act.getD 8 0 * 100 * us

/-- Frames of a LATE stream that a view has missed since it last counted. DEDUCED: one for each frame interval of the view. -/
def lateMisses (s : State) (w : View) (t : Time) : Nat :=
  if sourceLate s w.p then
    (t - max (w.missAt.getD 0) (lateFrom (s.auxVc (w.p.source - 1) w.p.vc))) / max 1 (auxFrameIv s (w.p.source - 1) w.p.vc * w.p.decim)
  else 0

/-- The views of a LATE stream count what they missed before the Frame Start that clears LATE (R169). -/
def countLate (s : State) (n v : Nat) (t : Time) : State :=
  (streamViews s n v).foldl (fun s k =>
    let w := s.view k
    let m := lateMisses s w t
    if m = 0 ∨ w.st = .paused then s
    else (s.bump (aPIPE_VDROP k) 31 16 m).modView k (fun w => { w with missCount := w.missCount + m })) s

/-- An accepted Frame Start of a stream (R163, R168, R169, R172, R177). -/
def openAuxFrame (s : State) (n v : Nat) (t : Time) : State :=
  let s := (countLate s n v t).modVc n v (fun c => { c with late := false })
  let s := closeAuxFrame s n v 4 t
  -- frames that ended while the stream was LATE
  let s := (streamFrames s n v).foldl (fun s f => finishVf s f.view.val f.frame t) s
  let c := s.auxVc n v
  let s := match c.lastFs with
    | some f => if c.everFs then s.setReg (aAUX_VC_MEAS n v) (min 65535 ((t - f) / (10 * us))) else s
    | none => s
  -- the soft configuration and the lens-shading bank of this frame
  let s := s.modAux n (fun a => match a.bankPend with
    | some (at_, b) => if at_ < t then { a with bank := b, bankPend := none } else a
    | none => a)
  let now := c.soft.filter (fun x => decide (x.1 < t))
  let count := (c.count + 1) % 2 ^ 32
  let s := s.modVc n v (fun c => { c with
    act := match now.reverse with | x :: _ => x.2 | [] => c.act
    soft := c.soft.filter (fun x => !decide (x.1 < t))
    count := count, openAt := some t, openD := s.dtime t, lastFs := some t, everFs := true, lines := 0, fflags := 0, late := false })
  -- the frame store
  let raster := (streamViews s n v).any (fun k => decide ((s.view k).p.order = 1))
  let store := 1 - c.store
  let busy := (streamFrames s n v).any (fun f => decide (f.p.order = 1 ∧ f.store = store))
  let ok := raster && !busy && memUp s && ((s.auxIn n).region.getD v none).isSome
  let s := s.modVc n v (fun c => { c with storeOk := ok, store := if ok then store else c.store })
  -- the views
  let s := (streamViews s n v).foldl (fun s k =>
    let s := s.modView k (fun w => applySoft w t)
    let w := s.view k
    if !takesFrame w count t then s
    else if w.st = .paused then missFrame s k count 1 t
    else if w.p.order = 1 ∧ !ok then missFrame s k count 2 t
    else
      let s := openVf s k (auxVf s k n v t) 0
      s.modVf k count (fun f => { f with store := store })) s
  -- statistics
  if auxDt s n v ≠ 0x12 then
    let takers := ((streamFrames s n v).filter (fun f => decide (f.frame = count) && bit f.p.flags 0)).map (fun f => f.view.val)
    s.modAux n (fun a => { a with stat := a.stat ++ [⟨v, count, s.dtime t, none, [], (s.auxVc n v).act, takers⟩] })
  else s

end Sys2Proof.Machine
end

