-- ==== Sys2Proof/Machine/LinkPhy.lean ====
section
/-! DEFINITION. The Stenal Link physical layer: training, equalisation, loss of signal, rate changes and tests
(R253 to R289). -/

namespace Sys2Proof.Machine

/-! ## Blocks and markers -/

def amSync : List Byte := [0x82, 0xA0, 0x2A, 0x08, 0x8A, 0x20, 0xA2, 0x0A]

/-- A host training block as received: none where it is invalid, else its bytes upright and whether it came inverted
(R272 to R274). -/
def readBlock (blk : List Byte) : Option (List Byte × Bool) :=
  let blk := slice blk 0 32
  let flip := blk.map (fun b => b ^^^ 0xAA)
  let ok (x : List Byte) : Bool := decide (x.take 8 = tsync) && decide (crc16 (slice x 8 22) = u16 x 30)
  if ok blk then some (blk, false) else if ok flip then some (flip, true) else none

/-- States in which training blocks are exchanged and acted on (R272). -/
def training (st : PortSt) : Bool :=
  decide (st = .clock ∨ st = .lanes ∨ st = .deskew ∨ st = .equalise ∨ st = .rate)

/-- States from CLOCK to ACTIVE (R266). -/
def clockToActive (st : PortSt) : Bool := training st || decide (st = .active)

/-! ## Host messages -/

/-- HELLO in CLOCK (R275, R276). -/
def rxHello (s : State) (p : PortIx) (b : List Byte) (t : Time) : State :=
  let s := s.modTr p (fun r => { r with
    hostDn := min 3 (u8 b 12), hostUp := min 1 (u8 b 13), hostCaps := u8 b 14 % 4
    good := if u8 b 15 = 1 then r.good + 1 else 0 })
  let r := (s.port p).tr
  if 8 ≤ r.rxGood ∧ 2 ≤ r.good then enterTrain s p (if r.pass = 0 then .lanes else .deskew) t else s

/-- A valid host block in CLOCK: the first sets the sampling phase and `UP_INV`, and it counts toward the eight whatever it carries (R276). -/
def clockBlock (s : State) (p : PortIx) (inverted : Bool) (t : Time) : State :=
  let n := (s.port p).tr.rxGood
  let s := s.modPhy p (fun y => { y with upInv := inverted })
  let s := if n = 0 then
      let (v, s) := drawFree s
      s.modPhy p (fun y => { y with phase := v.toNat % 256, phaseAt := t })
    else s
  s.modTr p (fun r => { r with rxGood := r.rxGood + 1 })

/-- A MAP message in LANES (R277). -/
def rxLanes (s : State) (p : PortIx) (b : List Byte) (t : Time) : State :=
  let m := (List.range 4).map (fun r => u8 b (12 + r))
  let s := s.modTr p (fun r => { r with lastLeads := m })
  if (List.range 4).all (fun r => decide (m.getD r 0 = r)) then
    let s := s.modTr p (fun r => { r with good := r.good + 1 })
    if 2 ≤ (s.port p).tr.good then enterTrain s p .deskew t else s
  else
    let seen := m.map (fun x => x % 8)
    let usable := m.all (fun x => decide (x < 128)) && (List.range 4).all (fun k => seen.contains k)
    let s := s.modTr p (fun r => { r with good := 0 })
    if usable then
      s.modPhy p (fun y => { y with
        map := seen.map (fun l => y.map.getD l l)
        inv := (List.range 4).foldl (fun inv r =>
          if bit (m.getD r 0) 6 then modAt inv (y.map.getD (seen.getD r 0) 0) not else inv) y.inv })
    else s

/-- LEAD and APPLIED in DESKEW (R278). -/
def rxDeskew (s : State) (p : PortIx) (b : List Byte) (t : Time) : State :=
  let lead := (List.range 4).map (fun r => u8 b (12 + r))
  let applied := (List.range 4).map (fun r => u8 b (16 + r))
  if applied ≠ (s.port p).phy.delay then s
  else if lead.all (· = 0) then
    let s := s.modTr p (fun r => { r with good := r.good + 1 })
    if 2 ≤ (s.port p).tr.good then enterTrain s p .equalise t else s
  else
    let d := List.zipWith (· + ·) (s.port p).phy.delay lead
    if d.any (fun x => decide (63 < x)) then trainFail s p 3 t
    else (s.modPhy p (fun y => { y with delay := d })).modTr p (fun r => { r with good := 0 })

/-- One lane's request (R262, R263, R279): taps, preset code and LIMIT after it. -/
def applyReq (req : Nat) (pre post preset : Nat) (limit : Bool) : Nat × Nat × Nat × Bool :=
  let op := bits req 7 6
  if op = 1 then
    let k := bits req 3 0
    if k ≤ 9 then ((presetTaps k).1, (presetTaps k).2, k, false) else (pre, post, preset, true)
  else if op = 2 then
    let move (code v : Nat) : Int := if code = 1 then v + 1 else if code = 2 then (v : Int) - 1 else v
    let a := move (bits req 3 2) pre
    let b := move (bits req 1 0) post
    if 0 ≤ a ∧ 0 ≤ b ∧ a ≤ 6 ∧ b ≤ 10 ∧ a + b ≤ 14 then (a.toNat, b.toNat, 15, false) else (pre, post, preset, true)
  else (pre, post, preset, limit)

/-- An EQ message in EQUALISE (R279). -/
def rxEq (s : State) (p : PortIx) (b : List Byte) (t : Time) : State :=
  let id := u8 b 16
  let y := (s.port p).phy
  let s := if y.reqSeen && decide (y.reqId = id) then s else
    let z := (List.range 4).map (fun k => applyReq (u8 b (12 + k)) (y.ffePre.getD k 0) (y.ffePost.getD k 0)
      (y.ffePreset.getD k 0) (y.ffeLimit.getD k false))
    s.modPhy p (fun y => { y with
      ffePre := z.map (fun x => x.1), ffePost := z.map (fun x => x.2.1), ffePreset := z.map (fun x => x.2.2.1)
      ffeLimit := z.map (fun x => x.2.2.2), reqId := id, reqSeen := true })
  let s := s.modTr p (fun r => { r with good := if bit (u8 b 17) 0 then r.good + 1 else 0 })
  if (s.port p).phy.upOk && decide (2 ≤ (s.port p).tr.good) then enterRate s p t else s

/-- RATE messages (R280): two blocks that echo and accept the offer. -/
def rxRate (s : State) (p : PortIx) (b : List Byte) (t : Time) : State :=
  let r := (s.port p).tr
  if r.rateStep ≠ .offer then s else
  let fin := decide (r.offDn = r.dnRate ∧ r.offUp = r.upRate)
  let echo := decide (u8 b 12 = r.offDn) && decide (u8 b 13 = r.offUp) &&
    decide (u8 b 14 = b2n r.offPreDn + 2 * b2n r.offPreUp + 4 * b2n fin)
  if echo && decide (u8 b 15 = 1) then
    let s := s.modTr p (fun r => { r with good := r.good + 1 })
    if 2 ≤ (s.port p).tr.good then
      if fin then
        -- GO counts 7 down to 0, then the first marker with AMSEQ 0 is due
        s.modPort p (fun q => { q with
          tr := { q.tr with rateStep := .go, goFrom := t, good := 0 }
          cwCells := [], txY := [0, 0, 0, 0]
          lt := { q.lt with txSeq := 0, rxSeq := none, cwSince := 1024, cwUp := 0 } })
      else s.modTr p (fun r => { r with rateStep := .idle, idleEnd := t + 50 * us, good := 0 })
    else s
  else s.modTr p (fun r => { r with good := 0 })

/-- What a valid block that shows the device's state does, by its message; another message ends a run of success blocks (R274 to R280). -/
def actBlock (s : State) (p : PortIx) (b : List Byte) (t : Time) : State :=
  match (s.port p).tr.st, u8 b 8 with
  | .clock, 0x01 => rxHello s p b t
  | .lanes, 0x03 => rxLanes s p b t
  | .deskew, 0x04 => rxDeskew s p b t
  | .equalise, 0x05 => rxEq s p b t
  | .rate, 0x06 => rxRate s p b t
  | _, _ => s.modTr p (fun r => { r with good := 0 })

/-- `TRAINING_BLOCK_RX`: a host block is checked and acted on, and the lanes send the blocks that follow from it (R272 to R280). In DETECT blocks are
only checked. -/
def execTrainingBlockRx (t : Time) (p : PortIx) (block : List Byte) (s : State) : Out :=
  event s t (fun s => training (s.port p).tr.st || decide ((s.port p).tr.st = .detect)) (fun s =>
    match readBlock block with
    | none =>
      let s := s.bump (aLINK_CNT p.val) 7 0 1
      s.modTr p (fun r => { r with good := 0, rxGood := 0 })
    | some (b, inverted) =>
      if (s.port p).tr.st = .detect then s
      else if u8 b 8 = 0x0F then trainFail s p 6 t
      else
        let s := if (s.port p).tr.st = .clock then clockBlock s p inverted t else s
        let s := if u8 b 10 ≠ (s.port p).tr.st.code then s.modTr p (fun r => { r with good := 0 }) else actBlock s p b t
        if training (s.port p).tr.st then sendBlocks s p t else s)

/-- Timeout of a training state (R269). -/
def trainLimit : PortSt → Time
  | .clock => 2 * ms | .lanes => 4 * ms | .deskew => 2 * ms | .equalise => 20 * ms | .rate => 2 * ms | _ => 0

/-- `TRAINING_TIMEOUT`: the state's timeout expires (R269). -/
def execTrainingTimeout (t : Time) (p : PortIx) (s : State) : Out :=
  event s t (fun s => let r := (s.port p).tr; training r.st && decide (r.entered + trainLimit r.st ≤ t)) (fun s =>
    let r := (s.port p).tr
    let missing := decide (r.st = .lanes) &&
      (decide (r.lastLeads = []) || r.lastLeads.any (fun x => decide (128 ≤ x)))
    trainFail s p (if missing then 2 else 1) t)

/-- `BACKOFF_END`: a new attempt is accepted, and a Beacon burst is due (R270). -/
def execBackoffEnd (t : Time) (p : PortIx) (s : State) : Out :=
  event s t (fun s => let r := (s.port p).tr; decide (r.st = .detect) && !r.backoffOver && decide (r.backoffEnd ≤ t))
    (fun s => s.modTr p (fun r => { r with backoffOver := true, nextBeacon := r.backoffEnd }))

/-- `BEACON_BURST`: 40 µs of HELLO blocks at 2 GBd, 625 blocks, then the next burst after max(100 ms, B) (R270). -/
def execBeaconBurst (t : Time) (p : PortIx) (s : State) : Out :=
  event s t (fun s => let r := (s.port p).tr; decide (r.st = .detect) && r.backoffOver && decide (r.nextBeacon ≤ t))
    (fun s =>
      let s := s.modTr p (fun r => { r with dnRate := 0, div := 128, pass := 0, nextBeacon := t + max (100 * ms) (backoff r.fails) })
      (sendBlocks s p t).modTr p (fun r => { r with blkSeq := (r.blkSeq + 625) % 256 }))

/-- `UCLK_VALID`: 10 µs of UCLK at 500 MHz after the back-off start the first pass (R268). -/
def execUclkValid (t : Time) (p : PortIx) (s : State) : Out :=
  event s t (fun s =>
    let q := s.port p
    decide (q.tr.st = .detect) && q.tr.backoffOver && !q.phy.los && !q.phy.lol) (fun s =>
      enterTrain (s.modTr p (fun r => { setRates r 0 0 with pass := 0 })) p .clock t)

/-- `RATE_IDLE_END`: the divider has changed, and both sides restart at the new rates in CLOCK with PASS 1 (R16, R280). -/
def execRateIdleEnd (t : Time) (p : PortIx) (s : State) : Out :=
  event s t (fun s => let r := (s.port p).tr; decide (r.st = .rate) && decide (r.rateStep = .idle) && decide (r.idleEnd ≤ t))
    (fun s => enterTrain (s.modTr p (fun r => { setRates r r.offDn r.offUp with pass := 1 })) p .clock t)

/-- `RATE_CHANGE_START`: at a marker boundary the port leaves ACTIVE for RATE with the new offer; no drop (R281, R324). -/
def execRateChangeStart (t : Time) (p : PortIx) (s : State) : Out :=
  event s t (fun s => s.portActive p && decide (1024 ≤ (s.port p).lt.cwSince) &&
      (match (s.port p).tr.changeAt with | some d => decide (d ≤ t) | none => false))
    (fun s => enterRate (leaveActive s p .rate 0 false t) p t)

/-! ## Equaliser and sampling phase -/

/-- `CTLE_SETTING_STEP`: a setting has run for 2¹⁵ symbols, and its height is compared with the best so far (R264). The window of R279 starts after the
choice. -/
def execCtleSettingStep (t : Time) (p : PortIx) (height : Nat) (s : State) : Out :=
  event s t (fun s => decide ((s.port p).tr.st = .equalise) && decide ((s.port p).phy.ctleTry < 16) &&
      decide ((s.port p).phy.ctleAt + upSymbols (s.port p).tr.upRate 32768 ≤ t)) (fun s =>
    s.modPhy p (fun y =>
      let h := min 255 height
      let take := decide (y.ctleTry = 0) || decide (y.ctleBest < h)
      { y with
        ctle := if take then y.ctleTry else y.ctle
        eye := if take then h else y.eye
        ctleBest := if take then h else y.ctleBest
        ctleAt := t
        ctleTry := y.ctleTry + 1
        winBits := 0, winErrs := 0, winAt := t }))

/-- A tap one LSB up or down, held inside its signed width (R264). -/
def dfeTap (k : Nat) (up : Bool) (h : Int) : Int :=
  let m : Int := if k = 0 then 64 else 32
  if up then min (m - 1) (h + 1) else max (-m) (h - 1)

/-- `DFE_ADAPT`: sign-sign LMS moves each tap one LSB per 256 symbols, unless adaptation is frozen (R264). -/
def execDfeAdapt (t : Time) (p : PortIx) (err : Bool) (data : List Bool) (s : State) : Out :=
  event s t (fun s =>
    let q := s.port p
    let st := q.tr.st
    ((decide (st = .equalise) && decide (16 ≤ q.phy.ctleTry)) || decide (st = .rate) || decide (st = .active)) &&
    !q.phy.los && !q.phy.lol && decide (s.ctlFld p 12 12 = 0) && !(q.test.run && decide (q.test.inj ≠ 0)) &&
    decide (q.phy.dfeAt + upSymbols q.tr.upRate 256 ≤ t)) (fun s =>
      s.modPhy p (fun y => { y with
        dfeAt := t
        dfe := y.dfe.zipIdx.map (fun x => dfeTap x.2 (data.getD x.2 false == err) x.1) }))

/-- `PHASE_TRACK`: at most one step of 1/64 UI per 1,024 symbols in ACTIVE (R255). -/
def execPhaseTrack (t : Time) (p : PortIx) (later : Bool) (s : State) : Out :=
  event s t (fun s =>
    let q := s.port p
    s.portActive p && decide (q.phy.phaseAt + upSymbols q.tr.upRate 1024 ≤ t)) (fun s =>
      s.modPhy p (fun y => { y with phase := (if later then y.phase + 1 else y.phase + 255) % 256, phaseAt := t }))

/-! ## Loss of signal -/

/-- A 2 µs window of the UCLK measurement has passed since the last (R265). -/
def freqDue (y : Phy) (t : Time) : Bool := match y.freqAt with | some a => decide (a + 2 * us ≤ t) | none => true

/-- Start of the standing episode of LOS or LOL. -/
def lossAt (y : Phy) (lol : Bool) : Time := if lol then y.lolAt else y.losAt

/-- An episode ends: one of at most 10 µs is counted, and the link stays up (R266). -/
def endLoss (s : State) (p : PortIx) (lol : Bool) (t : Time) : State :=
  let short := decide (t ≤ lossAt (s.port p).phy lol + 10 * us)
  let s := s.modPhy p (fun y => if lol then { y with lol := false } else { y with los := false })
  if short && clockToActive (s.port p).tr.st then s.bump (aLINK_CNT p.val) 31 16 1 else s

/-- A 2 µs window measures UCLK: LOL stands exactly where it is beyond ±1,000 ppm (R265). -/
def freqWindow (s : State) (p : PortIx) (ppm : Int) (t : Time) : State :=
  let s := s.modPhy p (fun y => { y with freqPpm := ppm, freqAt := some t })
  if ppm.natAbs ≤ 1000 then (if (s.port p).phy.lol then endLoss s p true t else s)
  else s.modPhy p (fun y => if y.lol then y else { y with lol := true, lolAt := t })

/-- `LOS_ONSET` (R265, R266): the amplitude falls below 60 mV, or a 2 µs window measures UCLK. An episode that stands already goes on. -/
def execLosOnset (t : Time) (p : PortIx) (lol : Bool) (ppm : Int) (s : State) : Out :=
  event s t (fun s => !lol || freqDue (s.port p).phy t) (fun s =>
    if lol then freqWindow s p ppm t else s.modPhy p (fun y => if y.los then y else { y with los := true, losAt := t }))

/-- `LOS_CLEAR` (R265, R266): the amplitude is back, or a 2 µs window measures UCLK, which ends LOL within ±1,000 ppm. -/
def execLosClear (t : Time) (p : PortIx) (ppm : Option Int) (s : State) : Out :=
  event s t (fun s => if ppm.isSome then (s.port p).phy.lol && freqDue (s.port p).phy t else (s.port p).phy.los) (fun s =>
    match ppm with
    | some x => freqWindow s p x t
    | none => endLoss s p false t)

/-- `LOS_FAILURE`: LOS or LOL has stood for 10 µs in a state from CLOCK to ACTIVE (R266, R267). -/
def execLosFailure (t : Time) (p : PortIx) (lol : Bool) (s : State) : Out :=
  event s t (fun s =>
    let q := s.port p
    (if lol then q.phy.lol else q.phy.los) && clockToActive q.tr.st && decide (lossAt q.phy lol + 10 * us ≤ t))
    (fun s => failPort s p (if lol then 8 else 7) t)

/-! ## Commands -/

/-- The port a link command names: the caller's own, or any for SAFETY (R287, R288). -/
def ownOrSafety (s : State) (c : Call) (port : Nat) : Option Reject :=
  match c.src with
  | .sideband => some ⟨.denied, 0⟩
  | .port p => if p.val = port then none else need (decide (portRole s p = .safety)) .denied

def portIx (n : Nat) : PortIx := Fin.ofNat 4 n

/-- `LINK_STATUS` (R286). -/
def execLinkStatus (c : Call) (s : State) : Out :=
  command s c 0x0800 .fast (fun _ => [lenIs c 4, argZero c, argOk (decide (u8 c.payload 0 < 4)) 0, reserved c.payload 1 3])
    (fun s =>
      let p := portIx (u8 c.payload 0)
      let q := s.port p
      let act := s.portActive p
      let map := bits (sumL ((List.range 4).map (fun k => q.phy.map.getD k k * 4 ^ k)) +
        256 * bitmap q.phy.inv + 4096 * b2n q.phy.upInv) 15 0
      okWith s c 0x0800 .fast
        ([byte p.val, byte q.tr.st.code, byte q.tr.dnRate, byte q.tr.upRate,
          byte (b2n (act && q.tr.preDn) + 2 * b2n (act && q.tr.preUp) + 4 * b2n q.phy.los + 8 * b2n q.phy.lol + 16 * b2n (decide (dnCap s p < 3))),
          byte q.tr.fails, byte q.tr.failState, byte q.tr.reason] ++ leBytes 2 map ++
         [byte q.phy.ctle, byte q.phy.eye] ++ (List.range 4).map (fun k => byte (q.phy.ffePreset.getD k 0)) ++
         (List.range 4).map (fun k => byte (q.phy.delay.getD k 0)) ++
         leBytes 4 (s.fld (aLINK_CNT p.val) 31 16) ++ leBytes 4 (s.fld (aLINK_CNT p.val) 15 8) ++
         leBytes 4 (if act then min (2 ^ 32 - 1) ((s.clk.now - q.activeAt) / ms) else 0)))

/-- `SET_LINK_RATE` (R281, R287). -/
def execSetLinkRate (c : Call) (s : State) : Out :=
  let pl := c.payload
  let own := decide (c.src = .port (portIx (u8 pl 0)))
  command s c 0x0802 .fast (fun s => [lenIs c 4, ownOrSafety s c (u8 pl 0), argZero c,
      argOk (decide (u8 pl 0 < 4)) 0, argOk (decide (u8 pl 1 ≤ 3)) 1, argOk (decide (u8 pl 2 ≤ 1)) 2,
      reservedBits pl 3 0xF0, argOk (!own || bit (u8 pl 3) 0) 3])
    (fun s =>
      let p := portIx (u8 pl 0)
      let f := u8 pl 3
      let a := aLINK_CTL p.val
      let s := ((((s.setFld a 5 4 (u8 pl 1)).setFld a 8 8 (u8 pl 2)).setFld a 10 10 (b2n (bit f 1))).setFld a 11 11
        (b2n (bit f 2))).setFld a 0 0 (b2n (bit f 0))
      let s := s.modTr p (fun r => { r with fails := 0, fall := 3 })
      let s := okWith s c 0x0802 .fast []
      if bit f 0 then
        let s := enablePort s p c.start
        if bit f 3 then wantChange s p none (some (srcIx c.src, c.tag)) else s
      else quietPort s p c.start)

/-- The test a running test or the next one uses, from its command (R288). -/
def testOf (c : Call) : LinkTest :=
  let pl := c.payload
  { run := false, pat := u8 pl 1, genDn := bit (u8 pl 2) 0, chkUp := bit (u8 pl 2) 1, lanes := u8 pl 3 % 16, inj := u8 pl 4
    injExp := u8 pl 5, endAt := u32 pl 8 * ms, injected := 0, flip := 0, injAt := c.start, syncLoss := 0, errors := 0, src := c.src, tag := c.tag }

/-- One symbol on each selected lane is hit: it is counted, and in ACTIVE it is a data symbol of the next codeword (R284, `LINKp_Ll_INJ`). -/
def inject (s : State) (p : PortIx) : State :=
  let q := s.port p
  let s := (List.range 4).foldl (fun s k =>
    if bit q.test.lanes k then
      (s.bump (aLINK_INJ p.val (q.phy.map.getD k k)) 31 0 1).modPort p (fun q =>
        { q with test := { q.test with injected := q.test.injected + 1 } })
    else s) s
  if q.tr.st = .active then s.modPort p (fun q => { q with test := { q.test with flip := Nat.lor q.test.flip q.test.lanes } }) else s

/-- A test begins: its duration runs from now. With a pattern the port goes to TEST, from ACTIVE or any other state but QUIET, where a disabled port
stays (R268, R288, R324). -/
def beginTest (s : State) (p : PortIx) (t : Time) : State :=
  let s := if (s.port p).test.pat = 0 then s
    else if s.portActive p then leaveActive s p .test 0 false t
    else if (s.port p).tr.st = .quiet then s
    else s.modTr p (fun r => { r with st := .test, entered := t, good := 0, rxGood := 0, preDn := false, preUp := false, blocks := [] })
  let s := s.modPort p (fun q => { q with
    test := { q.test with run := true, endAt := t + q.test.endAt, injAt := t }
    phy := { q.phy with
      chkSync := false, chkState := 0, chkBits := 0, winBits := 0, winErrs := 0, winAt := t, genAt := t
      gen := if q.test.pat ≠ 0 ∧ q.test.genDn then seedGens q.test.pat q.test.lanes else [none, none, none, none] } })
  if (s.port p).test.inj = 1 then inject s p else s

/-- `LINK_TEST` (R288). DESIGN CHOICE: R288 gives `LANES` bits 3:0 and marks bits 7:4 in no way; a set bit is refused as a reserved one
(log entry 76). With no pattern the injection starts at once; with a pattern the port goes to TEST once the ACCEPTED
response has been sent. -/
def execLinkTest (c : Call) (s : State) : Out :=
  let pl := c.payload
  let p := portIx (u8 pl 0)
  command s c 0x0801 .slow (fun s => [lenIs c 12, ownOrSafety s c (u8 pl 0), argZero c,
      argOk (decide (u8 pl 0 < 4)) 0, argOk (decide (u8 pl 1 ≤ 3)) 1,
      reservedBits pl 2 0xFC, argOk (decide (u8 pl 1 ≠ 0) || decide (u8 pl 2 % 4 = 0)) 2,
      reservedBits pl 3 0xF0, argOk (decide (u8 pl 4 ≤ 2)) 4, argOk (decide (10 ≤ u8 pl 5) && decide (u8 pl 5 ≤ 30)) 5,
      reserved pl 6 2, argOk (decide (1 ≤ u32 pl 8) && decide (u32 pl 8 ≤ 60000)) 8,
      need (decide (u8 pl 1 ≠ 0) || s.portActive p) .badState, need (!(s.port p).test.run) .busy])
    (fun s =>
      let s := accept s c 0x0801 (50 * ms + u32 pl 8 * ms) p.val
      let a := aLINK_TEST p.val
      let s := s.setReg a (u8 pl 1 % 4 + 256 * (u8 pl 2 % 4) + 4096 * (u8 pl 3 % 16) + 131072 * (u8 pl 4 % 4) +
        524288 * (u8 pl 5 % 32))
      let s := s.modPort p (fun q => { q with test := testOf c })
      if u8 pl 1 = 0 then beginTest s p c.start else s)

/-- `LINK_TEST_END`: the duration ends, with what a checker in SYNC has counted since its latest window; after a pattern the port trains again from
CLOCK as a rate pass (R268, R283, R288). -/
def execLinkTestEnd (t : Time) (r : TestEnd) (s : State) : Out :=
  let p := r.port
  event s t (fun s => (s.port p).test.run && decide ((s.port p).test.endAt ≤ t)) (fun s =>
    let s := if (s.port p).tr.st = .test ∧ (s.port p).test.chkUp ∧ (s.port p).phy.chkSync then
        (s.bump (aLINK_UPERR p.val) 23 0 r.errors).modPort p (fun q => { q with
          phy := { q.phy with chkBits := q.phy.chkBits + r.bits }, test := { q.test with errors := q.test.errors + r.errors } })
      else s
    let q := s.port p
    let s := s.modPort p (fun q => { q with test := { q.test with run := false, flip := 0 } })
    let s := if q.tr.st = .test then
        enterTrain (s.modTr p (fun r => { r with pass := 1 })) p .clock t else s
    complete s q.test.src 0x0801 q.test.tag .ok
      ([byte p.val, byte q.test.pat, byte (b2n q.phy.chkSync), 0] ++ leBytes 8 q.phy.chkBits ++
        leBytes 4 q.test.errors ++ leBytes 4 q.test.injected ++ leBytes 4 q.test.syncLoss) t)

/-- `ERROR_INJECTION`: every 2^INJ_EXP symbols, periodic injection hits one symbol on each selected lane (R284). -/
def execErrorInjection (t : Time) (p : PortIx) (s : State) : Out :=
  event s t (fun s =>
    let q := s.port p
    q.test.run && decide (q.test.inj = 2) && (decide (q.tr.st = .active) || decide (q.tr.st = .test)) &&
    decide (q.test.injAt + dnSymbols q (2 ^ q.test.injExp) ≤ t))
    (fun s => inject (s.modPort p (fun q => { q with test := { q.test with injAt := q.test.injAt + dnSymbols q (2 ^ q.test.injExp) } })) p)

/-- Bits a checker predicts from its state, each beside the bit received: the count of mismatches and the state after them
(R282, R283). -/
def prbsCheck (n m : Nat) : Nat → List Bool → Nat → Nat × Nat
  | st, [], e => (e, st)
  | st, b :: r, e =>
    let (x, st') := prbsBit n m st
    prbsCheck n m st' r (if x = b2n b then e else e + 1)

/-- The state a checker loads from its first bits. -/
def prbsLoad (l : List Bool) : Nat := l.foldl (fun a b => 2 * a + b2n b) 0

/-- Whether an upstream checker runs: in EQUALISE always, in TEST with `CHK_UP`. -/
def checking (q : Port) : Bool := decide (q.tr.st = .equalise) || (decide (q.tr.st = .test) && q.test.chkUp)

/-- The pattern a checker follows: PRBS31 in EQUALISE, the test's own in TEST (R279, R288). -/
def checkPat (q : Port) : Nat := if q.tr.st = .test then q.test.pat else 3

/-- `PRBS_SYNC_ACQUIRED`: the first bits load the checker, and 64 correct bits in a row declare SYNC (R283). -/
def execPrbsSyncAcquired (t : Time) (p : PortIx) (rx : List Bool) (s : State) : Out :=
  event s t (fun s => checking (s.port p) && !(s.port p).phy.chkSync) (fun s =>
    let (n, m) := prbsPoly (checkPat (s.port p))
    let (e, st) := prbsCheck n m (prbsLoad (rx.take n)) ((rx.drop n).take 64) 0
    if e = 0 ∧ n + 64 ≤ rx.length then
      s.modPhy p (fun y => { y with chkSync := true, chkState := st, winBits := 0, winErrs := 0, winAt := t }) else s)

/-- `PRBS_SYNC_LOSS`: 16 or more errors in a window of 64 bits count a SYNC_LOSS, and the checker reloads (R283). -/
def execPrbsSyncLoss (t : Time) (p : PortIx) (rx : List Bool) (s : State) : Out :=
  event s t (fun s => checking (s.port p) && (s.port p).phy.chkSync && decide (rx.length = 64)) (fun s =>
    let q := s.port p
    let (n, m) := prbsPoly (checkPat q)
    let (e, st) := prbsCheck n m q.phy.chkState rx 0
    let s := (s.bump (aLINK_UPERR p.val) 23 0 e).modPort p (fun q => { q with
      phy := { q.phy with
        chkBits := q.phy.chkBits + 64, winBits := q.phy.winBits + 64, winErrs := q.phy.winErrs + e, chkState := st
        chkSync := decide (e < 16) }
      test := { q.test with errors := q.test.errors + e, syncLoss := q.test.syncLoss + b2n (decide (16 ≤ e)) } })
    if 16 ≤ e then s.bump (aLINK_UPERR p.val) 30 24 1 else s)

/-- Time that 2²³ PRBS bits take upstream: two for each symbol, and in EQUALISE 16,256 symbols of each 16,384 (R279, R282). -/
def winSpan (q : Port) : Time :=
  upSymbols q.tr.upRate (if q.tr.st = .equalise then 2 ^ 22 / 16256 * 16384 + 2 ^ 22 % 16256 else 2 ^ 22)

/-- `PRBS_WINDOW_END`: in SYNC a window of 2²³ bits ends with an error count, of which the windows of 64 bits have counted a part; in EQUALISE, where it
began after the CTLE choice, it sets UP_OK. The checker's state moves on with the bits (R279, R283). -/
def execPrbsWindowEnd (t : Time) (p : PortIx) (errors : Nat) (s : State) : Out :=
  event s t (fun s => checking (s.port p) && (s.port p).phy.chkSync &&
      (decide ((s.port p).tr.st = .test) || decide (16 ≤ (s.port p).phy.ctleTry)) && decide ((s.port p).phy.winAt + winSpan (s.port p) ≤ t))
    (fun s =>
      let eq := decide ((s.port p).tr.st = .equalise)
      let fresh := errors - (s.port p).phy.winErrs
      let s := s.bump (aLINK_UPERR p.val) 23 0 fresh
      s.modPort p (fun q => { q with
        phy := { q.phy with
          upOk := if eq then decide (errors ≤ 83) else q.phy.upOk
          chkBits := q.phy.chkBits + (2 ^ 23 - q.phy.winBits), winBits := 0, winErrs := 0, winAt := t
          chkState := prbsRun (checkPat q) (2 ^ 23 - q.phy.winBits) q.phy.chkState }
        test := { q.test with errors := q.test.errors + (if eq then 0 else fresh) } }))

/-- `HOLD_EXPIRY`: the views of a port that has not returned are freed (R325). -/
def execHoldExpiry (t : Time) (p : PortIx) (s : State) : Out :=
  event s t (fun s => !s.portActive p && (match (s.port p).holdEnd with | some h => decide (h ≤ t) | none => false))
    (fun s => expireHold (s.modPort p (fun q => { q with holdEnd := none })) p t)

/-! ## Markers (R259 to R261, R320) -/

/-- The marker of logical lane `k` downstream (R260). -/
def markerOf (k seq : Nat) : List Byte :=
  let mid := [byte k] ++ leBytes 3 seq ++ [0, 0]
  amSync ++ mid ++ leBytes 2 (crc16 mid)

/-- A downstream marker is due: 1,024 codewords, the 348,160 data symbols of each lane, have left since the last, or GO has counted down to 0 (R259,
R280). -/
def markerDue (q : Port) (t : Time) : Bool :=
  marking q && decide (1024 ≤ q.lt.cwSince) && (decide (q.tr.st = .active) || decide (q.lt.txSeq ≠ 0) ||
    decide (q.tr.goFrom + 8 * dnSymbols q 128 ≤ t))

/-- `ALIGNMENT_MARKER_TX`: the lanes send the marker, which is stamped; every 32nd owes a TIME packet (R259, R260, R320, R322).
Precoding takes effect from the first (R280). -/
def execAlignmentMarkerTx (t : Time) (p : PortIx) (s : State) : Out :=
  event s t (fun s => markerDue (s.port p) t) (fun s =>
    let d := s.dtime t
    s.modPort p (fun q => { q with
      txY := [0, 0, 0, 0]
      tr := { q.tr with preDn := if q.tr.st = .active then q.tr.preDn else q.tr.offPreDn }
      lt := { q.lt with
        cwSince := 0
        marks := (List.range 4).map (fun k => markerOf k q.lt.txSeq)
        txSeq := (q.lt.txSeq + 1) % 2 ^ 24
        dn := ((q.lt.txSeq, d) :: q.lt.dn).take 256
        owed := if q.lt.txSeq % 32 = 0 ∧ q.tr.st = .active then some t else q.lt.owed } }))

/-- Whether an upstream marker is accepted: SYNC exact, CRC good, AMSEQ next (R260, R261). -/
def markerOk (q : Port) (m : List Byte) : Bool :=
  let want := match q.lt.rxSeq with | some n => (n + 1) % 2 ^ 24 | none => 0
  decide (slice m 0 8 = amSync) && decide (crc16 (slice m 8 6) = u16 m 14) && decide (u24 m 9 = want)

/-- An upstream marker is due: the first, or in ACTIVE one after 256 codewords (R259, R292). -/
def markerUp (q : Port) : Bool := marking q && (decide (q.tr.st ≠ .active) || decide (256 ≤ q.lt.cwUp))

/-- `ALIGNMENT_MARKER_RX`: an accepted marker is stamped, and the first one enters ACTIVE; three failures in a row are AM loss
(R261, R280, R320). -/
def execAlignmentMarkerRx (t : Time) (p : PortIx) (marker : List Byte) (s : State) : Out :=
  event s t (fun s => markerUp (s.port p)) (fun s =>
    let q := s.port p
    if markerOk q marker then
      let d := s.dtime t
      let s := if q.tr.st = .active then s else enterActive s p t
      s.modPort p (fun q => { q with
        rxY := 0
        lt := { q.lt with rxSeq := some (u24 marker 9), amBad := 0, cwUp := 0, up := ((u24 marker 9, d) :: q.lt.up).take 16 } })
    else
      let s := s.bump (aLINK_CNT p.val) 15 8 1
      let s := s.modPort p (fun q => { q with rxY := 0, lt := { q.lt with amBad := q.lt.amBad + 1, cwUp := 0 } })
      if 3 ≤ (s.port p).lt.amBad ∧ s.portActive p then
        dropPort (s.modPort p (fun q => { q with lt := { q.lt with amBad := 0 } })) p 9 t
      else s)

end Sys2Proof.Machine
end

