-- ==== Sys2Proof/Machine/LinkProto.lean ====
section
/-! DEFINITION. Stenal Link framing: codewords, cells, the reliable class, credits, time transfer, and the
downstream cell slot (R290 to R323). -/

namespace Sys2Proof.Machine

/-! ## Cells -/

/-- A 64-byte cell (R295). -/
def mkCell (type vs : Nat) (sop eop : Bool) (payload : List Byte) : List Byte :=
  [byte (16 * type + vs), byte (128 * b2n sop + 64 * b2n eop + payload.length)] ++ payload ++ zeros (62 - payload.length)

/-- Upstream cell types (R296). -/
def tCMD : Nat := 1
def tCREDIT : Nat := 2
def tACK : Nat := 3
def tTIME : Nat := 7
def tTRIG : Nat := 9
def tTRAIN : Nat := 13
def tFILL : Nat := 14
/-- The model's own mark for a doorbell, a CMD packet of KIND 1, in the inbox. -/
def tDOORBELL : Nat := 17

/-- Put a delivered packet in the port's inbox. -/
def deliver (s : State) (p : PortIx) (type : Nat) (body : List Byte) (stamp : Time) : State :=
  s.modPort p (fun q => { q with inbox := q.inbox ++ [⟨type, body, stamp⟩] })

/-- Take a delivered packet out of the inbox: its stamp, and the state without it. -/
def takeIn (s : State) (p : PortIx) (type : Nat) (body : List Byte) (t : Time) : Time × State :=
  let m (k : InPkt) : Bool := k.type = type && k.body = body
  match (s.port p).inbox.find? m with
  | some k => (k.stamp, s.modPort p (fun q => { q with inbox := removeFirst m q.inbox }))
  | none => (t, s)

/-- A NAK is owed, and the sender is asked again for the open packet's first cell (R304, R311). -/
def refusePacket (s : State) (p : PortIx) : State :=
  s.modRel p (fun r => { r with rxSeq := r.rxFirst, rxBuf := [], rxOpen := false, owedNak := true })

/-! ## Posting to the response ring -/

/-- Release request slots; those claimed ahead at the same instant come first (R25, R333). -/
def Mbx.releaseReq (m : Mbx) (n : Nat) : Mbx := { m with reqFree := m.reqFree + (n - m.reqOwed), reqOwed := m.reqOwed - n }

/-- Claim a request slot, or one that a release of the same instant gives (R25, R329). -/
def Mbx.claimReq (m : Mbx) : Mbx := if m.reqFree = 0 then { m with reqOwed := m.reqOwed + 1 } else { m with reqFree := m.reqFree - 1 }

/-- Post entries: each takes a response slot, and in ACTIVE leaves as a MSG packet (R334, R317). -/
def postEntries (s : State) (p : PortIx) (es : List (List Byte)) (due : Option Time) : State :=
  s.modPort p (fun q =>
    let act := decide (q.tr.st = .active)
    let ring := es.zipIdx.map (fun x => (⟨q.rel.nextIdent + x.2, x.1, false, false,
      if x.2 = 0 ∧ act then due else none⟩ : RingEntry))
    { q with
      mbx := ({ q.mbx with ring := q.mbx.ring ++ ring, rspFree := q.mbx.rspFree - es.length } : Mbx).excuseSlots
      rel := { q.rel with
        nextIdent := q.rel.nextIdent + es.length
        msgq := if act then q.rel.msgq ++ ring.map (fun e => ⟨true, 0, withCrc32 e.bytes, e.ident⟩) else q.rel.msgq } })

/-- Post a response; its request slots are freed, which raises CMD_LIMIT (R311, R333). -/
def postRsp (s : State) (p : PortIx) (r : Rsp) (rest : List Rsp) : State :=
  let s := postEntries (s.modMbx p (fun m => { m with wait := rest })) p (rspEntries r) r.due
  s.modPort p (fun q => { q with
    owedLimit := q.owedLimit || decide (0 < r.slots)
    mbx := { q.mbx.releaseReq r.slots with cmdLimit := (q.mbx.cmdLimit + r.slots) % 65536 } })

/-- Post the next waiting entry: IMMEDIATE responses, then notifications while the port is in ACTIVE, then other responses, where the slots it needs are
free; two slots are kept for the first two kinds (R334, R345). -/
def postNext (s : State) (p : PortIx) : State :=
  let m := (s.port p).mbx
  let imm (r : Rsp) : Bool := r.cls = .immediate
  match m.wait.find? imm, (if s.portActive p then m.notes else []), m.wait with
  | some r, _, _ => if rspFits m.rspFree r then postRsp s p r (removeFirst imm m.wait) else s
  | none, n :: rest, _ =>
    if 1 ≤ m.rspFree then
      postEntries (s.modMbx p (fun m => { m with notes := rest, lostFlag := false })) p [noteEntry n m.lostFlag] n.due
    else s
  | none, [], r :: rs => if rspFits m.rspFree r then postRsp s p r rs else s
  | none, [], [] => s

/-- Post entries one after another. -/
def postMany : Nat → State → PortIx → State
  | 0, s, _ => s
  | n + 1, s, p => postMany n (postNext s p) p

/-- Request slots that responses posted at this instant free: they count before a claim (R25, R333). -/
def slotsDue (s : State) (p : PortIx) (t : Time) : Nat :=
  let n := countIf (fun i => match i with | .responsePost u q => decide (u = t) && decide (q = p) | _ => false) s.pending
  ((postMany n s p).port p).mbx.reqFree - (s.port p).mbx.reqFree

/-- Whether a doorbell acknowledges entries that were sent (R335). -/
def doorbellOk (m : Mbx) (body : List Byte) : Bool :=
  decide (u8 body 0 = 1) && decide ((u16 body 2 + 65536 - m.consumed) % 65536 ≤ (m.sentCount + 65536 - m.consumed) % 65536)

/-- The response slots of consumed entries are freed (R335). -/
def Mbx.consume (m : Mbx) (body : List Byte) : Mbx :=
  let n := (u16 body 2 + 65536 - m.consumed) % 65536
  { m with ring := m.ring.drop n, rspFree := m.rspFree + min n m.ring.length, consumed := u16 body 2 }

/-- Doorbells of this instant free their slots before a claim (R25). -/
def doorbellsDue (s : State) (p : PortIx) (t : Time) : State :=
  s.pending.foldl (fun s i => match i with
    | .doorbell u q body =>
      if u = t ∧ q = p ∧ s.portActive p ∧ doorbellOk (s.port p).mbx body then s.modMbx p (fun m => m.consume body) else s
    | _ => s) s

/-- A CMD packet whose last cell has been accepted (R297, R304, R311, R317). -/
def takeCmd (s : State) (p : PortIx) (pkt : List Byte) (seq : Nat) (t : Time) : State :=
  if !crc32Ok pkt then refusePacket (s.bump (aLINK_PKT_ERR p.val) 31 16 1) p else
  let q := s.port p
  let left := (q.mbx.cmdLimit + slotsDue s p t + 65536 - q.mbx.acceptedReq % 65536) % 65536
  let kind := u8 pkt 0
  if kind = 0 ∧ (left = 0 ∨ 32768 ≤ left) then refusePacket (proto s p) p else
  let s := s.modRel p (fun r => { r with
    rxAck := seq, rxSeq := (seq + 1) % 256, rxBuf := [], rxOpen := false, owedAck := some (r.owedAck.getD t), nakAt := none })
  if kind = 0 ∧ pkt.length = 72 then
    deliver (s.modMbx p (fun m => { m with acceptedReq := (m.acceptedReq + 1) % 65536 })) p tCMD (slice pkt 4 64) t
  else if kind = 1 ∧ pkt.length = 16 then deliver s p tDOORBELL (slice pkt 4 8) t
  else proto s p

/-- An upstream reliable cell (R303, R304). -/
def rxReliable (s : State) (p : PortIx) (sop eop : Bool) (pay : List Byte) (t : Time) : State :=
  let seq := u8 pay 0
  let s := takeAck s p (u8 pay 1) t
  let r := (s.port p).rel
  let d := (seq + 256 - r.rxSeq) % 256
  if d = 0 then
    let first := if sop then seq else r.rxFirst
    let buf := if sop then pay.drop 2 else r.rxBuf ++ pay.drop 2
    if !sop && !r.rxOpen then
      -- a cell of no packet: taken in order and discarded
      proto (s.modRel p (fun r => { r with rxSeq := (seq + 1) % 256, rxAck := seq, owedAck := some t, nakAt := none })) p
    else
      let s := s.modRel p (fun r => { r with
        rxSeq := (seq + 1) % 256, rxBuf := buf, rxOpen := true, rxFirst := first, nakAt := none })
      if eop then takeCmd s p buf seq t else s
  else if 192 ≤ d then s.modRel p (fun r => { r with owedAck := some (r.owedAck.getD t) })
  else
    let again := match r.nakAt with | none => true | some n => decide (n + r.rto * us / 2 ≤ t)
    if again then s.modRel p (fun r => { r with owedNak := true, nakAt := some t }) else s

/-- One upstream cell with its R15 stamp (R295 to R298). -/
def rxCell (s : State) (p : PortIx) (cell : List Byte) (t : Time) : State :=
  let b0 := u8 cell 0
  let b1 := u8 cell 1
  let type := b0 / 16
  let sop := bit b1 7
  let eop := bit b1 6
  let len := b1 % 64
  if !([tCMD, tCREDIT, tACK, tTIME, tTRIG, tTRAIN, tFILL].contains type) then s.bump (aLINK_PKT_ERR p.val) 15 8 1
  else if len = 0 ∨ 62 < len ∨ (eop = false ∧ len ≠ 62) ∨ b0 % 16 ≠ 0 then proto s p
  else if type = tFILL then s
  else
    let pay := slice cell 2 len
    if type = tCMD then (if len < 2 then proto s p else rxReliable s p sop eop pay t)
    else if type = tCREDIT ∨ type = tACK ∨ type = tTRAIN then
      (if sop && eop then deliver s p type pay t else proto s p)
    else
      -- unreliable context of the one upstream stream
      let s := if sop then s.modPort p (fun q => { q with rxPkt := some (type, pay) })
        else s.modPort p (fun q => { q with rxPkt := q.rxPkt.map (fun (x : Nat × List Byte) => (x.1, x.2 ++ pay)) })
      if eop then
        match (s.port p).rxPkt with
        | some (ty, body) => deliver (s.modPort p (fun q => { q with rxPkt := none })) p ty body t
        | none => s
      else s

/-- The five cells of a codeword, each stamped when its last symbol is received (R15). -/
def rxCells (s : State) (p : PortIx) (bytes : List Byte) (t : Time) : State :=
  let up := (s.port p).tr.upRate
  (List.range 5).foldl (fun s k => rxCell s p (slice bytes (64 * k) 64) (t - upSymbols up (1360 - 256 * (k + 1)))) s

/-- `UPSTREAM_CODEWORD`: polarity, precoding and the Gray map are undone, the codeword is decoded, and its cells are delivered or
discarded together (R257, R258, R290 to R293). -/
def execUpstreamCodeword (t : Time) (p : PortIx) (levels : List (Fin 4)) (s : State) : Out :=
  event s t (fun s => s.portActive p && decide (levels.length = 1360) && decide ((s.port p).lt.cwUp < 256)) (fun s =>
    let q := s.port p
    let ys := levels.map (fun y => if q.phy.upInv then 3 - y.val else y.val)
    let vs := if q.tr.preUp then unprecode q.rxY ys else ys
    let s := s.modPort p (fun q => { q with rxY := ys.getLastD 0, lt := { q.lt with cwUp := q.lt.cwUp + 1 } })
    match gf10.decode 16 (valuesCw vs) with
    | none =>
      (s.bump (aLINK_FEC_UNC p.val) 31 0 1).modPort p (fun q => { q with unc := (q.unc + 1) % 65536 })
    | some (w, n) =>
      let s := if n = 0 then s else (s.bump (aLINK_FEC_CORR p.val) 31 0 1).bump (aLINK_FEC_SYM p.val) 31 0 n
      rxCells s p (leBytes 320 (symVal (w.take 256))) t)

/-! ## Control cells, time and triggers -/

/-- A control or unreliable packet is acted on only with a good CRC of the right length (R297, R302). -/
def withBody (s : State) (p : PortIx) (type n : Nat) (body : List Byte) (t : Time) (f : State → Time → State) : Out :=
  event s t (fun s => s.portActive p) (fun s =>
    let (stamp, s) := takeIn s p type body t
    if body.length = n && crc32Ok body then f s stamp
    else s.bump (aLINK_PKT_ERR p.val) 31 16 1)

/-- `ACK`: an acknowledgement, or with bit 0 a NAK (R302, R306, R307). -/
def execAck (t : Time) (p : PortIx) (body : List Byte) (s : State) : Out :=
  withBody s p tACK 8 body t (fun s stamp =>
    let ok := ackOk (s.port p).rel (u8 body 0)
    let s := takeAck s p (u8 body 0) stamp
    if ok && bit (u8 body 1) 0 then takeNak s p (u8 body 0) stamp else s)

/-- The counts of a CREDIT cell, by stream. -/
def creditCounts (body : List Byte) : List Nat := (List.range 16).map (fun v => u16 body (2 + 2 * v))

/-- Counts never go back nor beyond the cells sent (R309). -/
def creditOk (c : Credits) (freed : List Nat) : Bool :=
  let out (sent f : Nat) : Nat := (sent + 65536 - f % 65536) % 65536
  (List.range 16).all (fun v => decide (out (c.sent.getD v 0) (freed.getD v 0) ≤ out (c.sent.getD v 0) (c.freed.getD v 0)))

/-- Credit that CREDIT cells of this same instant give back; a release counts before a claim (R25). -/
def creditDue (s : State) (p : PortIx) (t : Time) : State :=
  s.pending.foldl (fun s i => match i with
    | .credit u q body =>
      if u = t ∧ q = p ∧ body.length = 56 ∧ crc32Ok body ∧ !bit (u8 body 0) 0 ∧ creditOk (s.port p).cr (creditCounts body) then
        s.modPort p (fun q => { q with cr := { q.cr with freed := creditCounts body } })
      else s
    | _ => s) s

/-- `CREDIT`: cells freed per stream, and the allowances of the first INIT (R302, R309, R310). -/
def execCredit (t : Time) (p : PortIx) (body : List Byte) (s : State) : Out :=
  withBody s p tCREDIT 56 body t (fun s _ =>
    let c := (s.port p).cr
    let freed := creditCounts body
    let allow := (List.range 16).map (fun v => u8 body (34 + v))
    let init := bit (u8 body 0) 0
    if !creditOk c freed || (init && !c.init && allow.any (fun a => decide (63 < a))) then proto s p else
    let s := if init && c.init then proto s p else s
    s.modPort p (fun q => { q with cr := { q.cr with
      freed := freed
      allow := if init && !c.init then allow.map (fun a => 64 * (a + 1)) else q.cr.allow
      init := q.cr.init || init } }))

/-- `TRAIN_CELL`: ABORT ends ACTIVE with reason ABORT (R267, R302). -/
def execTrainCell (t : Time) (p : PortIx) (body : List Byte) (s : State) : Out :=
  withBody s p tTRAIN 8 body t (fun s stamp =>
    if u8 body 0 = 0x0F then dropPort s p 6 stamp else proto s p)

/-- Signed difference of two 64-bit times. -/
def diff64 (a b : Nat) : Int := signed 64 ((a + 2 ^ 64 - b % 2 ^ 64) % 2 ^ 64)

/-- `UPSTREAM_TIME_CELL`: θ and δ from the two markers it names (R321, R322). -/
def execUpstreamTimeCell (t : Time) (p : PortIx) (body : List Byte) (s : State) : Out :=
  withBody s p tTIME 32 body t (fun s stamp =>
    let lt := (s.port p).lt
    match lt.up.lookup (u32 body 0), lt.dn.lookup (u32 body 12) with
    | some dRx, some dTx =>
      let a := diff64 (u64 body 16) dTx
      let b := diff64 dRx (u64 body 4)
      s.modPort p (fun q => { q with lt := { q.lt with
        theta := tdivI (a - b) 2, rtt := a + b, valid := true, lastCell := stamp
        upMark := u32 body 0, upStamp := dRx, owed := some (q.lt.owed.getD stamp) } })
    | _, _ => proto s p)

/-- `TRIG_CELL`: a frame trigger from the holder of the ARRAY lease (R323). -/
def execTrigCell (t : Time) (p : PortIx) (body : List Byte) (s : State) : Out :=
  withBody s p tTRIG 8 body t (fun s stamp =>
    if u8 body 0 ≠ 0 then proto s p
    else if holderAt s lARRAY stamp = some p then
      cmdTrigger (s.bump (aLINK_TRIG p.val) 15 0 1) stamp
    else s.bump (aLINK_TRIG p.val) 31 16 1)

/-! ## Downstream -/

/-- The link-control record (R300). -/
def linkRecord (q : Port) (nak : Bool) : List Byte :=
  [byte q.rel.rxAck, byte (b2n nak)] ++ leBytes 2 q.mbx.cmdLimit ++ leBytes 2 q.unc ++ [0, 0]

/-- A FILL cell (R300). -/
def fillCell (q : Port) (nak : Bool) : List Byte := mkCell 0xE 0 true true (withCrc32 (linkRecord q nak))

/-- A BEACON cell (R301). -/
def beaconCell (s : State) (p : PortIx) (t : Time) (thr : Bool) : List Byte :=
  let q := s.port p
  mkCell 0xF 0 true true (withCrc32 (linkRecord q false ++
    [byte s.pw.devid, byte p.val, byte (b2n s.sec.untrusted + 2 * b2n thr + 4 * b2n s.clk.synced), 0] ++
    leBytes 8 (s.dtime t) ++ leBytes 4 (min (2 ^ 32 - 1) ((t - q.activeAt) / ms)) ++ zeros 4))

/-- A downstream TIME packet (R322). -/
def timePacket (s : State) (p : PortIx) : List Byte :=
  let lt := (s.port p).lt
  let (n, d) := lt.dn.headD (0, 0)
  withCrc32 (leBytes 4 n ++ leBytes 8 d ++ leBytes 4 lt.upMark ++ leBytes 8 lt.upStamp ++
    leBytes 8 (unsigned 64 lt.theta) ++ leBytes 4 (unsigned 32 lt.rtt) ++
    [byte (b2n lt.valid + 2 * b2n s.clk.synced), 0, 0, 0])

/-- The first symbol of a lane with its low bit flipped: its level moves by one (R284). -/
def hitFirst : List Nat → List Nat
  | [] => []
  | y :: r => Nat.xor y 1 :: r

/-- A cell leaves: it is noted, and the fifth closes a codeword, whose levels go to the lanes after any injection (R258, R259, R284, R290 to R292). -/
def emitCell (s : State) (p : PortIx) (cell : List Byte) : State :=
  s.modPort p (fun q =>
    let cells := q.cwCells ++ [cell]
    if cells.length < 5 then { q with lastCell := cell, cwCells := cells }
    else
      let cw := codeword cells.flatten
      let vs := (cwValues cw).zipIdx
      let lanes := (List.range 4).map (fun k =>
        let l := (vs.filter (fun x => decide (x.2 % 4 = k))).map (fun x => x.1)
        if q.tr.preDn then precode (q.txY.getD k 0) l else l)
      { q with lastCell := cell, cwCells := [], lastCw := cw
               lastLanes := lanes.zipIdx.map (fun x => if q.test.run && bit q.test.flip x.2 then hitFirst x.1 else x.1)
               txY := lanes.map (fun l => l.getLastD 0)
               test := { q.test with flip := 0 }
               lt := { q.lt with cwSince := q.lt.cwSince + 1 } })

/-- A cell of a stream takes one unit of its credit (R309). -/
def takeCredit (s : State) (p : PortIx) (v : Nat) : State :=
  s.modPort p (fun q => { q with cr := { q.cr with sent := modAt q.cr.sent v (fun n => (n + 1) % 65536) } })

/-- A deadline that is judged has passed: a miss is counted, of an IMMEDIATE command or another (R338, R339, R375). -/
def judgeDue (s : State) (due : Option Time) (imm : Bool) (t : Time) : State :=
  if due.any (fun d => decide (d < t)) then
    let s := { s with misses := min (2 ^ 32 - 1) (s.misses + 1) }
    if imm then s.bump aSYS_DEADLINE 15 0 1 else s.bump aSYS_DEADLINE 31 16 1
  else s

/-- The first cell of an answer leaves: a response, a COMPLETE, or the first BULK packet of a transfer, whose deadline ends with it (R338). -/
def countMiss (s : State) (p : PortIx) (k : RelPkt) (t : Time) : State :=
  if k.msg then
    match (s.port p).mbx.ring.find? (fun e => e.ident = k.ident) with
    | some e => judgeDue s e.due (decide (u8 e.bytes 4 % 4 = 0) && decide (u16 e.bytes 2 ≠ 0xFFFF)) t
    | none => s
  else match (s.port p).bulk with
    | some b => (judgeDue s b.due false t).modPort p (fun q => { q with bulk := some { b with due := none } })
    | none => s

/-- The last cell of a MSG packet leaves for the first time: the entry counts as sent, and a test that waited for its ACCEPTED response
begins (R288, R336). -/
def msgSent (s : State) (p : PortIx) (ident : Nat) (t : Time) : State :=
  match (s.port p).mbx.ring.find? (fun e => e.ident = ident) with
  | none => s
  | some e =>
    let s := s.modMbx p (fun m => { m with
      sentCount := (m.sentCount + 1) % 65536
      ring := m.ring.map (fun x => if x.ident = ident then { x with sent := true } else x) })
    let s := if u16 e.bytes 0 = 0x0004 then
        { s with rs := { s.rs with req := s.rs.req.map (fun (r : ResetReq) =>
          if r.src = Src.port p ∧ r.due = none then { r with due := some (t + 100 * us) } else r) } }
      else s
    let s := if u16 e.bytes 0 = 0x0802 then changeDue s p (u16 e.bytes 2) (t + 100 * us) else s
    if u16 e.bytes 0 = 0x0801 ∧ u16 e.bytes 8 = 1 then
      match s.slow.find? (fun j => j.src = .port p && decide (j.opcode = 0x0801) && decide (j.tag.toNat = u16 e.bytes 2)) with
      | some j => if (s.port (portIx j.data)).test.run then s else beginTest s (portIx j.data) t
      | none => s
    else s

/-- The reliable packet that a new cell is of, and its bytes already sent, none where it starts: the packet in progress, else a new MSG, else a new BULK packet;
one whose stream has no credit is not ready (R299). -/
def nextRel (q : Port) : Option (RelPkt × Option Nat) :=
  let ok (k : RelPkt) : Bool := decide (0 < credit q.cr k.vs)
  match q.rel.cur with
  | some (k, n) => if ok k then some (k, some n) else none
  | none => match (q.rel.msgq.head?).filter ok with
    | some k => some (k, none)
    | none => ((q.rel.bulkq.head?).filter ok).map (fun k => (k, none))

/-- Whether a new reliable cell may leave: window and credit (R299, R303). -/
def relReady (q : Port) : Bool := decide (q.rel.out.length < 64) && (nextRel q).isSome

/-- Send a reliable cell again, which is no progress of ACK (R306). -/
def sendAgain (s : State) (p : PortIx) : State :=
  let q := s.port p
  match q.rel.out.drop (q.rel.out.length - q.rel.resend) with
  | [] => s
  | c :: _ =>
    let s := (s.bump (aLINK_REL p.val) 31 16 1).modRel p (fun r => { r with
      resend := r.resend - 1, owedAck := none })
    emitCell s p (mkCell c.type c.vs c.sop c.eop ([byte c.seq, byte q.rel.rxAck] ++ c.data))

/-- Send the next new reliable cell: of the packet in progress, else of a new MSG, else of a new BULK packet (R299, R303). -/
def sendNew (s : State) (p : PortIx) (t : Time) : State :=
  let q := s.port p
  match nextRel q with
  | none => s
  | some (k, at_) =>
    let off := at_.getD 0
    let fresh := at_.isNone
    let data := (k.bytes.drop off).take 60
    let eop := decide (k.bytes.length ≤ off + 60)
    let ty := if k.msg then 5 else 6
    let cell : RelCell := ⟨q.rel.txSeq, ty, k.vs, decide (off = 0), eop, data, k.ident⟩
    let s := s.modRel p (fun r => { r with
      txSeq := (r.txSeq + 1) % 256
      out := r.out ++ [cell]
      cur := if eop then none else some (k, off + 60)
      msgq := if fresh && k.msg then r.msgq.drop 1 else r.msgq
      bulkq := if fresh && !k.msg then r.bulkq.drop 1 else r.bulkq
      owedAck := none
      progressAt := if r.out.isEmpty then t else r.progressAt })
    let s := takeCredit s p k.vs
    let s := if fresh then countMiss s p k t else s
    let s := emitCell s p (mkCell ty k.vs cell.sop eop ([byte cell.seq, byte q.rel.rxAck] ++ data))
    if eop then (if k.msg then msgSent s p k.ident t else bulkRefill s p t) else s

/-- The packet at the head of a stream's queue. -/
def headOf (q : Port) (v : Nat) : Option Pkt := q.vq.find? (fun k => k.vs = v)

/-- The next stream in turn with a packet and credit (R299). -/
def nextStream (q : Port) : Option Nat :=
  ((List.range 16).map (fun k => (q.turn + 1 + k) % 16)).find? (fun v =>
    (headOf q v).isSome && decide (0 < credit q.cr v))

/-- Send one cell of a video or PIODATA packet; a packet whose last cell leaves is handed to the ring writer where its view is a ring view
(R218, R219, R299). -/
def sendVideo (s : State) (p : PortIx) (v : Nat) (t : Time) : State :=
  match headOf (s.port p) v with
  | none => s
  | some k =>
    let data := (k.bytes.drop k.done).take 62
    let eop := decide (k.bytes.length ≤ k.done + 62)
    let m (x : Pkt) : Bool := x.vs = v
    let s := s.modPort p (fun q => { q with
      turn := v
      vq := if eop then removeFirst m q.vq else
        match q.vq.findIdx? m with
        | some i => modAt q.vq i (fun x => { x with done := x.done + 62 })
        | none => q.vq })
    let s := emitCell (takeCredit s p v) p (mkCell k.type v (decide (k.done = 0)) eop data)
    if eop then packetLeft s p k t else s

/-- A cell may leave: the markers in force hold fewer than 1,024 codewords (R259, R292). -/
def cellSlot (q : Port) : Bool := marking q && decide (q.lt.cwSince < 1024)

/-- `DOWNSTREAM_CELL_SLOT`: the first cell that is ready, in the order of R299; a TIME cell waits while a packet on its stream
is half sent (R298). From the first marker until ACTIVE only FILL leaves (R280). -/
def execDownstreamCellSlot (t : Time) (p : PortIx) (s : State) : Out :=
  event s t (fun s => cellSlot (s.port p)) (fun s =>
    let s := if s.portActive p then creditDue s p t else s
    let q := s.port p
    if !s.portActive p then emitCell s p (fillCell q false) else
    let rel := decide (0 < q.rel.resend) || relReady q
    let s := if 0 < q.rel.resend ∨ (q.rel.msgq ≠ [] ∧ credit q.cr 0 = 0) then excusePort s p else s
    if q.rel.owedNak || q.owedLimit || (q.rel.owedAck.isSome && !rel) then
      let s := s.modPort p (fun q => { q with owedLimit := false, rel := { q.rel with owedNak := false, owedAck := none } })
      emitCell s p (fillCell q q.rel.owedNak)
    else if 0 < q.rel.resend then sendAgain s p
    else if relReady q then sendNew s p t
    else if q.lt.owed.isSome && decide (0 < credit q.cr 0) && !((headOf q 0).any (fun k => decide (0 < k.done))) then
      let s := s.modPort p (fun q => { q with lt := { q.lt with owed := none } })
      emitCell (takeCredit s p 0) p (mkCell 7 0 true true (timePacket s p))
    else match nextStream q with
      | some v => sendVideo s p v t
      | none =>
        if match q.beaconAt with | none => true | some b => decide (b + 10 * us ≤ t) then
          emitCell (s.modPort p (fun q => { q with beaconAt := some t })) p (beaconCell s p t (throttled s))
        else emitCell s p (fillCell q false))

/-- `RTO_EXPIRY`: the oldest outstanding cells are resent; the sixteenth expiry in a row raises LINK_STALL once (R306). -/
def execRtoExpiry (t : Time) (p : PortIx) (s : State) : Out :=
  event s t (fun s =>
    let r := (s.port p).rel
    s.portActive p && !r.out.isEmpty && decide (r.progressAt + r.rto * us ≤ t)) (fun s =>
      let s := s.bump (aLINK_REL p.val) 7 0 1
      let s := goBack s p (s.port p).rel.lastAck t
      let s := s.modRel p (fun r => { r with progressAt := t, timeouts := r.timeouts + 1 })
      if 16 ≤ (s.port p).rel.timeouts then stand s fLINK_STALL p.val t else s)

end Sys2Proof.Machine
end

