-- ==== Sys2Proof/Machine/Mailbox.lean ====
section
/-! DEFINITION. Mailbox rings: request entries and chains, doorbells, the posting of responses and notifications
(R329 to R346, R374), and the sideband with its CCCs (R358 to R362). -/

namespace Sys2Proof.Machine

/-- The class of an opcode in the index (R374); none where it is not listed. -/
def opClass (op : Nat) : Option Cls :=
  if [0x0204, 0x0207, 0x0501].contains op then some .immediate
  else if [0x0005, 0x0505, 0x0801, 0x0911, 0x0912, 0x0913, 0x0920].contains op then some .slow
  else if op = 0x0502 then some .bulk
  else if [0x0001, 0x0002, 0x0003, 0x0004, 0x0006, 0x0007, 0x0010, 0x0011, 0x0020, 0x0100, 0x0101, 0x0102,
      0x0200, 0x0201, 0x0202, 0x0203, 0x0205, 0x0206, 0x0208, 0x0209, 0x020A, 0x020B,
      0x0300, 0x0301, 0x0302, 0x0303, 0x0304, 0x0305, 0x0400, 0x0401, 0x0500, 0x0503, 0x0504, 0x0506,
      0x0600, 0x0601, 0x0602, 0x0603, 0x0604, 0x0700, 0x0701, 0x0702, 0x0710, 0x0711, 0x0712, 0x0713, 0x0714,
      0x0800, 0x0802, 0x0900, 0x0901, 0x0902, 0x0910].contains op then some .fast
  else none

/-- The class that a CTL byte carries (R330). -/
def clsOf (ctl : Nat) : Cls := match ctl % 4 with | 0 => .immediate | 1 => .fast | 2 => .slow | _ => .bulk

/-- Answer a request of a port that never reached a command (R331, R332, R374). `h` is the header of its first entry. -/
def answerRaw (s : State) (p : PortIx) (h : List Byte) (r : Reject) (slots : Nat) (t : Time) : State :=
  let k := clsOf (u8 h 4)
  s.modMbx p (fun m => m.queueRsp
    ⟨u16 h 0, BitVec.ofNat 16 (u16 h 2), k, r.status, r.detail, [], slots, some (t + (if k = .immediate then 4 else 200) * us)⟩)

/-- The parts of the header that every entry of a chain repeats: OPCODE, TAG, CTL, COUNT and ARG (R332). -/
def chainHdr (e : List Byte) : List Byte := slice e 0 5 ++ slice e 7 5

/-- Whether an entry carries its own CRC-32C (R331). -/
def entryCrcOk (e : List Byte) : Bool := decide (crc32c (slice e 0 12 ++ zeros 4 ++ slice e 16 48) = u32 e 12)

/-- The answer to an entry that fails its CRC (R331). -/
def crcBad : Reject := ⟨.badArg, 0x800C⟩

/-- BAD_OPCODE where the opcode is not listed, which comes before any other refusal (R344, R374). -/
def opcodeFirst (e : List Byte) (r : Reject) : Reject := if opClass (u16 e 0) = none then ⟨.badOpcode, 0⟩ else r

/-- A field of the header of a first entry that breaks R330 or R337 beyond its CRC: TAG, CTL and class, LEN, COUNT; the earliest. -/
def headerBad (e : List Byte) : Option Reject :=
  if u16 e 2 = 0xFFFF then some ⟨.badArg, 0x8002⟩
  else if 4 ≤ u8 e 4 ∨ (opClass (u16 e 0)).any (fun k => decide (k ≠ clsOf (u8 e 4))) then some ⟨.badArg, 0x8004⟩
  else if 48 < u8 e 5 then some ⟨.badArg, 0x8005⟩
  else if u8 e 7 = 0 ∨ 16 < u8 e 7 then some ⟨.badArg, 0x8007⟩
  else none

/-- Whether the LEN or COUNT of a first entry lies outside R330, so that no request follows from it. -/
def shapeBad (e : List Byte) : Bool := decide (48 < u8 e 5) || decide (u8 e 7 = 0) || decide (16 < u8 e 7)

/-- A class mismatch is counted (R375). -/
def countClass (s : State) (e : List Byte) : State :=
  if (opClass (u16 e 0)).any (fun k => decide (k ≠ clsOf (u8 e 4))) then s.bump aSYS_MBX_ERR 15 8 1 else s

/-- The end of a request's deadline (R338, R339): 4 µs, or 200 µs and 25 µs more for each FAST command beyond eight before it. -/
def requestDue (s : State) (k : Cls) (t : Time) : Time :=
  if k = .immediate then t + 4 * us else
  let ahead := countIf (fun j : Job => decide (j.cls = .fast)) s.fwq
  t + 200 * us + 25 * us * (ahead - 8)

/-- What a whole request is answered with at once: its opcode is not listed, or a chain is IMMEDIATE (R332, R374). -/
def requestBad (e : List Byte) (count : Nat) : Option Reject :=
  match opClass (u16 e 0) with
  | none => some ⟨.badOpcode, 0⟩
  | some k => if k = .immediate ∧ 1 < count then some ⟨.badLength, 0⟩ else none

/-- Hand a whole request to the sequencer or the firmware (R337). `e` is its first entry. -/
def handOver (s : State) (src : Src) (e payload : List Byte) (slots : Nat) (beyond : Option Nat) (t : Time) : State :=
  let k := (opClass (u16 e 0)).getD .fast
  let s := countClass s e
  let due := match src with | .port _ => some (requestDue s k t) | .sideband => none
  let bad := match headerBad e with | some r => some r | none => beyond.map (fun d => ⟨.badArg, d⟩)
  { s with fwq := s.fwq ++ [⟨src, u16 e 0, BitVec.ofNat 16 (u16 e 2), k, slice e 8 4, t, slots, payload, due, bad, clsOf (u8 e 4)⟩] }

/-- A whole request of a port: answered at once where its CRC, its opcode or its chain is bad, and else handed over (R331, R332, R337, R374). -/
def dispatchRequest (s : State) (p : PortIx) (e payload : List Byte) (count : Nat) (bad : Bool) (beyond : Option Nat) (t : Time) : State :=
  if bad then answerRaw s p e crcBad count t
  else match requestBad e count with
    | some r => answerRaw s p e r count t
    | none => handOver s (.port p) e payload count beyond t

/-- First non-zero byte of an entry beyond its LEN, as an offset into the joined payload (R330). -/
def beyondLen (e : List Byte) (base : Nat) : Option Nat :=
  let len := u8 e 5
  ((slice e 16 48).zipIdx.find? (fun x => decide (len ≤ x.2) && x.1 ≠ 0)).map (fun x => base + x.2)

/-- An entry that begins a command (R330 to R332, R344). -/
def firstEntry (s : State) (p : PortIx) (e : List Byte) (t : Time) : State :=
  let bad := !entryCrcOk e
  let count := u8 e 7
  let pl := slice e 16 (u8 e 5)
  if bad ∧ (count ≤ 1 ∨ u8 e 6 ≠ 0 ∨ shapeBad e ∨ u8 e 5 ≠ 48) then answerRaw s p e crcBad 1 t
  else if u8 e 6 ≠ 0 then answerRaw s p e (opcodeFirst e ⟨.badLength, 0⟩) 1 t
  else if shapeBad e then answerRaw (countClass s e) p e (opcodeFirst e ((headerBad e).getD crcBad)) 1 t
  else if count = 1 then dispatchRequest s p e pl 1 bad (beyondLen e 0) t
  else if u8 e 5 ≠ 48 then answerRaw s p e (opcodeFirst e ⟨.badLength, 1⟩) 1 t
  else s.modMbx p (fun m => { m with chain := some ⟨slice e 0 12, 1, count, pl, t, bad, beyondLen e 0⟩ })

/-- A chain is closed and answered (R332). -/
def closeChain (s : State) (p : PortIx) (c : Chain) (r : Reject) (t : Time) : State :=
  let s := (s.modMbx p (fun m => { m with chain := none })).bump aSYS_MBX_ERR 23 16 1
  answerRaw s p c.hdr r c.next t

/-- An entry after the repeat check: it opens, continues, ends or breaks a chain (R332). -/
def joinEntry (s : State) (p : PortIx) (e : List Byte) (t : Time) : State :=
  match (s.port p).mbx.chain with
  | none => firstEntry s p e t
  | some c =>
    let len := u8 e 5
    let lastOne := decide (c.next + 1 = c.count)
    let fits := decide (u8 e 6 = c.next) && decide (chainHdr e = slice c.hdr 0 5 ++ slice c.hdr 7 5) &&
      (if lastOne then decide (1 ≤ len ∧ len ≤ 48) else decide (len = 48))
    if fits then
      let c' : Chain := { c with
        next := c.next + 1, payload := c.payload ++ slice e 16 len, last := t
        crcBad := c.crcBad || !entryCrcOk e
        beyond := match c.beyond with | some b => some b | none => beyondLen e c.payload.length }
      if lastOne then
        dispatchRequest (s.modMbx p (fun m => { m with chain := none })) p c.hdr c'.payload c.count c'.crcBad c'.beyond t
      else s.modMbx p (fun m => { m with chain := some c' })
    else firstEntry (closeChain s p c (opcodeFirst c.hdr ⟨.badLength, c.next⟩) t) p e t

/-- `REQUEST_ENTRY`: a request entry takes a slot, or is not accepted where none is free (R25, R26, R329); a repeat after a return is not acted on again
(R326); and the entry joins its chain. -/
def execRequestEntry (t : Time) (p : PortIx) (entry : List Byte) (s : State) : Out :=
  event s t (fun s => s.portActive p || (s.port p).inbox.any (fun k => k.type = tCMD && k.body = entry)) (fun s =>
    let (stamp, s) := takeIn s p tCMD entry t
    let m := (s.port p).mbx
    if m.reqFree = 0 ∧ slotsDue s p t ≤ m.reqOwed then s.modRel p (fun r => { r with owedNak := true }) else
    let key := (u16 entry 2, u32 entry 12)
    let again := decide (0 < m.dupLeft) && m.oldRecent.contains key
    let s := s.modMbx p (fun m => { m.claimReq with dupLeft := m.dupLeft - 1, recent := (key :: m.recent).take 32 })
    if again then
      -- the repeat is counted, its slot is freed, and a response still held is sent again
      let s := s.bump (aLINK_DUP p.val) 15 0 1
      s.modPort p (fun q => { q with
        mbx := { q.mbx.releaseReq 1 with cmdLimit := (q.mbx.cmdLimit + 1) % 65536 }
        owedLimit := true
        rel := { q.rel with msgq := q.rel.msgq ++ ((q.mbx.ring.filter (fun e =>
          e.sent && decide (u16 e.bytes 2 = key.1))).map (fun e => ⟨true, 0, withCrc32 e.bytes, e.ident⟩)) } })
    else joinEntry (if entryCrcOk entry then s else s.bump aSYS_MBX_ERR 31 24 1) p entry stamp)

/-- `CHAIN_TIMEOUT`: an open chain without a further entry for 1 ms is answered with TIMEOUT (R332). -/
def execChainTimeout (t : Time) (p : PortIx) (s : State) : Out :=
  event s t (fun s => match (s.port p).mbx.chain with | some c => decide (c.last + ms ≤ t) | none => false) (fun s =>
    match (s.port p).mbx.chain with
    | some c => closeChain s p c ⟨.timeout, 0⟩ t
    | none => s)

/-- `DOORBELL`: consumed device entries free their response slots (R335). -/
def execDoorbell (t : Time) (p : PortIx) (body : List Byte) (s : State) : Out :=
  event s t (fun s => s.portActive p) (fun s =>
    let s := (takeIn s p tDOORBELL body t).2
    if doorbellOk (s.port p).mbx body then s.modMbx p (fun m => m.consume body) else proto s p)

/-- `RESPONSE_POST`: IMMEDIATE responses, then notifications, then other responses, as the slots allow, with those that doorbells of the same instant
free (R25, R334, R345). -/
def execResponsePost (t : Time) (p : PortIx) (s : State) : Out :=
  event s t (fun _ => true) (fun s => postNext (doorbellsDue s p t) p)

/-- `COMPLETE_DROP`: a COMPLETE still queued after 1 s is dropped and counted, and the next notification carries LOST (R345). -/
def execCompleteDrop (t : Time) (p : PortIx) (s : State) : Out :=
  let old (n : Note) : Bool := n.code = 0x8010 && decide (n.arose + sec ≤ t)
  event s t (fun s => (s.port p).mbx.notes.any old) (fun s =>
    (s.modMbx p (fun m => { m with notes := removeFirst old m.notes, lostFlag := true })).bump aSYS_MBX_ERR 7 0 1)

/-! ## The sideband -/

/-- The sideband answers only where the control processor runs (R22, R401). -/
def sbServes (s : State) : Bool := serves s .sideband

/-! The byte window of R359: what a read transfer of SB_STAT or SB_RSP gives, and what a write transfer to SB_REQ stores. -/

/-- The SB_STAT byte (R359). -/
def sbStat (s : State) : Byte := byte (b2n s.sb.ready + 2 * b2n s.sb.busy + 4 * b2n s.sb.err + 8 * s.sb.entries)

/-- The bytes of a read transfer from SB_RSP: 0 beyond the 1,024 bytes of the buffer and beyond what it holds (R359). -/
def sbRead (s : State) (n : Nat) : List Byte := (List.range n).map (fun k => if k < 1024 then s.sb.rsp.getD k 0 else 0)

/-- A write transfer to SB_REQ begins at its byte 0, and bytes beyond its end are ignored (R359). -/
def sbWrite (s : State) (l : List Byte) : State :=
  { s with sb := { s.sb with req := l.take 1024 ++ s.sb.req.drop (min 1024 l.length) } }

/-- Answer a sideband request that never reached a command. -/
def sbAnswer (s : State) (e : List Byte) (r : Reject) (t : Time) : State :=
  sbShow s (rspEntries ⟨u16 e 0, BitVec.ofNat 16 (u16 e 2), clsOf (u8 e 4), r.status, r.detail, [], 0, none⟩) true t

/-- Whether the `n` entries from byte 0 of SB_REQ form one valid chain (R332, R360). -/
def sbChainOk (req : List Byte) (n : Nat) : Bool :=
  let e0 := slice req 0 64
  (List.range n).all (fun k =>
    let e := slice req (64 * k) 64
    decide (u8 e 6 = k) && decide (chainHdr e = chainHdr e0) &&
    (if k + 1 = n then (decide (u8 e 5 ≤ 48) && (decide (n = 1) || decide (1 ≤ u8 e 5))) else decide (u8 e 5 = 48)))

/-- What the request in SB_REQ is answered with at once, of its `n` entries examined (R330 to R332, R344, R360). -/
def sbBad (req : List Byte) (n fails : Nat) : Option Reject :=
  let e := slice req 0 64
  if fails ≠ 0 then some crcBad
  else if u8 e 6 ≠ 0 then some (opcodeFirst e ⟨.badLength, 0⟩)
  else if shapeBad e then some (opcodeFirst e ((headerBad e).getD crcBad))
  else if !sbChainOk req n then some (opcodeFirst e ⟨.badLength, 0⟩)
  else requestBad e n

/-- `SB_SUBMIT`: the bytes written to SB_REQ and the SUBMIT write that follows (R359, R360). Each entry examined that fails its CRC is counted (R331). -/
def execSbSubmit (t : Time) (request : List Byte) (s : State) : Out :=
  event s t sbServes (fun s =>
    let s := sbWrite s request
    if s.sb.busy || s.sb.ready then { s with sb := { s.sb with err := true } } else
    let req := s.sb.req
    let s := { s with sb := { s.sb with err := false, busy := true, complete := none } }
    let e := slice req 0 64
    let n := if shapeBad e then 1 else u8 e 7
    let fails := countIf (fun k => !entryCrcOk (slice req (64 * k) 64)) (List.range n)
    let s := if fails = 0 then s else s.bump aSYS_MBX_ERR 31 24 fails
    match sbBad req n fails with
    | some r => sbAnswer (if fails = 0 ∧ shapeBad e then countClass s e else s) e r t
    | none =>
      let pl := (List.range n).flatMap (fun k => slice req (64 * k + 16) (u8 req (64 * k + 5)))
      handOver s .sideband e pl 0 (beyondLen (slice req (64 * (n - 1)) 64) (48 * (n - 1))) t)

/-- `SB_DONE`: the shown response is consumed; a COMPLETE that waits is then shown; a reset that waited for it is due
(R360, R366). -/
def execSbDone (t : Time) (s : State) : Out :=
  event s t sbServes (fun s =>
    if !s.sb.ready then { s with sb := { s.sb with err := true } } else
    let final := s.sb.cmdDone
    let s := { s with
      sb := { s.sb with ready := false, err := false, entries := 0, busy := s.sb.busy && !final }
      rs := { s.rs with req := s.rs.req.map (fun (r : ResetReq) =>
        if r.src = Src.sideband then { r with due := some t } else r) } }
    match s.sb.complete with
    | some e => sbShow { s with sb := { s.sb with complete := none } } [e] true t
    | none => s)

/-- `SB_ABORT`: the request buffer is cleared and a response shown is discarded; a command already started still runs, and a COMPLETE that waited behind
the response is shown (R360). -/
def execSbAbort (t : Time) (s : State) : Out :=
  event s t sbServes (fun s =>
    let queued := s.fwq.any (fun j => j.src = .sideband)
    let s := { s with
      fwq := s.fwq.filter (fun (j : Job) => decide (j.src ≠ Src.sideband))
      sb := { s.sb with
        req := zeros 1024, rsp := zeros 1024, entries := 0, ready := false, err := false
        busy := s.sb.busy && !queued && !(s.sb.ready && s.sb.cmdDone) } }
    match s.sb.complete with
    | some e => sbShow { s with sb := { s.sb with complete := none } } [e] true t
    | none => s)

/-! ## I3C (R358, R361) -/

/-- ENEC and DISEC act on the interrupt event, bit 0 of the event byte. -/
def execEnec (t : Time) (events : Byte) (s : State) : Out :=
  event s t (fun s => sbServes s && s.sb.i3c) (fun s =>
    if bit events.toNat 0 then { s with sb := { s.sb with ibiEn := true } } else s)
def execDisec (t : Time) (events : Byte) (s : State) : Out :=
  event s t (fun s => sbServes s && s.sb.i3c) (fun s =>
    if bit events.toNat 0 then { s with sb := { s.sb with ibiEn := false } } else s)

/-- RSTDAA resets the dynamic address and returns the target to I2C mode. -/
def execRstdaa (t : Time) (s : State) : Out :=
  event s t sbServes (fun s => { s with sb := { s.sb with dynAddr := 0, i3c := false } })

/-- ENTDAA gives a dynamic address to a target that has none, and I3C mode begins. -/
def execEntdaa (t : Time) (addr : BitVec 7) (s : State) : Out :=
  event s t (fun s => sbServes s && decide (s.sb.dynAddr = 0)) (fun s =>
    { s with sb := { s.sb with dynAddr := addr.toNat, i3c := true } })

/-- SETDASA names the target by its static address, 0x10 + DEVID. -/
def execSetdasa (t : Time) (static addr : BitVec 7) (s : State) : Out :=
  event s t (fun s => sbServes s && decide (s.sb.dynAddr = 0) && decide (static.toNat = 0x10 + s.pw.devid)) (fun s =>
    { s with sb := { s.sb with dynAddr := addr.toNat, i3c := true } })

/-- SETNEWDA changes the dynamic address. -/
def execSetnewda (t : Time) (addr : BitVec 7) (s : State) : Out :=
  event s t (fun s => sbServes s && s.sb.i3c && decide (s.sb.dynAddr ≠ 0)) (fun s =>
    { s with sb := { s.sb with dynAddr := addr.toNat } })

/-- SETMWL and SETMRL: the largest length is 1,026 bytes, and one below 65 is refused. -/
def execSetmwl (t : Time) (len : BitVec 16) (s : State) : Out :=
  event s t (fun s => sbServes s && s.sb.i3c && decide (65 ≤ len.toNat)) (fun s =>
    { s with sb := { s.sb with mwl := min 1026 len.toNat } })
def execSetmrl (t : Time) (len : BitVec 16) (s : State) : Out :=
  event s t (fun s => sbServes s && s.sb.i3c && decide (65 ≤ len.toNat)) (fun s =>
    { s with sb := { s.sb with mrl := min 1026 len.toNat } })

/-- A GET CCC answers with bytes, most significant first as I3C sends them. -/
def cccAnswer (t : Time) (bytes : State → List Byte) (s : State) : Out :=
  event s t (fun s => sbServes s && s.sb.i3c) (fun s => { s with sb := { s.sb with ccc := bytes s } })

def execGetmwl (t : Time) (s : State) : Out := cccAnswer t (fun s => (leBytes 2 s.sb.mwl).reverse) s
def execGetmrl (t : Time) (s : State) : Out := cccAnswer t (fun s => (leBytes 2 s.sb.mrl).reverse ++ [1]) s
def execGetpid (t : Time) (s : State) : Out := cccAnswer t (fun s => s.sec.pid.reverse) s
def execGetbcr (t : Time) (s : State) : Out := cccAnswer t (fun _ => [0x06]) s
def execGetdcr (t : Time) (s : State) : Out := cccAnswer t (fun _ => [0x00]) s
/-- GETSTATUS: the spec gives the answer no layout, so its two bytes are a free value drawn for each answer. -/
def execGetstatus (t : Time) (s : State) : Out :=
  event s t (fun s => sbServes s && s.sb.i3c) (fun s =>
    let (v, s) := drawFree s
    { s with sb := { s.sb with ccc := [byte (v.toNat / 256), byte v.toNat] } })

end Sys2Proof.Machine
end

