-- ==== Sys2Proof/Machine/System.lean ====
section
/-! DEFINITION. System commands, leases, DTIME, power-state commands, the fault log and the self-tests
(R363 to R373, R351, R352, R383, R496, R500 to R502). -/

namespace Sys2Proof.Machine

def Life.code : Life → Nat
  | .blank => 0 | .manufacture => 1 | .provisioned => 2 | .field => 3 | .ret => 4

def PowerState.code : PowerState → Nat
  | .off => 0 | .boot => 1 | .standby => 2 | .active => 3 | .dusk => 4 | .buoy => 5 | .dawn => 6 | .shutdown => 7

/-- RESTRICTED stands while REF is unknown, while a PLL is in FAIL, and after a boot loop (R381). -/
def restricted (s : State) : Bool :=
  s.pw.refUnknown || s.pw.bootLoop || s.pw.plls.any (fun p => decide (p.st = .fail))

/-! ## Identity and status -/

/-- `HELLO` (R363). -/
def execHello (c : Call) (s : State) : Out :=
  command s c 0x0001 .fast (fun _ => [lenIs c 8, argZero c, reserved c.payload 2 6]) (fun s =>
    let p := (srcIx c.src)
    let s := s.modMbx p (fun m => { m with hostVer := u16 c.payload 0 })
    let m := (s.port p).mbx
    let auth := match portAuth s p with | some (k, _) => 1 + 2 * k | none => 0
    okWith s c 0x0001 .fast
      (leBytes 2 0x0100 ++ [byte p.val, byte (portRole s p).code, byte auth, byte s.pw.devid, byte s.sec.life.code,
        byte (b2n s.sec.untrusted + 2 * b2n (restricted s) + 4 * b2n s.clk.synced), byte m.reqFree, byte m.rspFree, 0, 0] ++
       leBytes 4 m.nseq ++ leBytes 8 (s.dtime c.start) ++ leBytes 4 (leaseMap s p c.stamp) ++ zeros 4))

/-- 24 bytes with bit (t mod 8) of byte t div 8 set for each killed tile (R364). -/
def killedMask (l : List TileIx) : List Byte :=
  (List.range 24).map (fun k => byte (sumL ((List.range 8).map (fun b => b2n (l.any (fun t => t.val = 8 * k + b)) * 2 ^ b))))

/-- `GET_INFO` (R364). -/
def execGetInfo (c : Call) (s : State) : Out :=
  command s c 0x0002 .fast (fun _ => [lenIs c 0, argZero c]) (fun s =>
    okWith s c 0x0002 .fast
      (leBytes 2 0x0192 ++ [0x10, byte Config.romVer.toNat] ++ leBytes 4 s.sec.fwVer ++
       [byte s.sec.fwSrc, byte s.sec.rollback, byte s.pw.devid, byte (s.pw.profStrap + 16 * s.pw.profEff), byte s.sec.life.code,
        byte (b2n s.sec.untrusted + 2 * b2n s.pw.keepRc + 4 * b2n (holdupValid s)), byte s.sec.killedTiles.length, 0] ++
       s.sec.uid ++ killedMask s.sec.killedTiles))

/-- `GET_STATUS` (R365). -/
def execGetStatus (c : Call) (s : State) : Out :=
  command s c 0x0003 .fast (fun _ => [lenIs c 0, argZero c]) (fun s =>
    let flags := b2n (throttled s && decide (s.pw.st = .active)) + 2 * b2n (restricted s) + 4 * b2n s.sec.untrusted + 8 * b2n s.pw.keepRc +
      16 * b2n (safeClk s) + 32 * b2n (governorOn s) + 64 * b2n (arrayRunning s) + 128 * b2n s.clk.synced
    okWith s c 0x0003 .fast
      ([byte s.pw.st.code, byte flags, byte (memStateCode s), byte (ringStateCode s)] ++
       allPorts.map (fun p => byte (s.port p).tr.st.code) ++ leBytes 4 (frameNo s) ++ leBytes 2 (actId s) ++
       leBytes 2 ((pendSet s).getD 0) ++ [byte (chargerPhase s), byte (thermLevel s)] ++
       leBytes 2 (countIf (fun e => e.stands) s.log.entries) ++ leBytes 4 s.misses ++
       [portByte (holderAt s lARRAY c.stamp), portByte (holderAt s lRING c.stamp), byte (b2n (pendSet s).isSome), 0] ++
       leBytes 2 (viewsIn s true) ++ leBytes 2 (viewsIn s false) ++ leBytes 8 (s.dtime c.start) ++
       leBytes 4 (min (2 ^ 32 - 1) ((c.start - s.clk.upSince) / ms)) ++ zeros 4))

/-! ## Resets and power states -/

/-- `RESET_DEVICE` (R362, R366): the OK response is posted, and the reset waits for it. -/
def execResetDevice (c : Call) (s : State) : Out :=
  command s c 0x0004 .fast (fun s => [lenIs c 4,
      match c.src with
      | .sideband => need (openLife s || allPorts.all (fun p => !s.portActive p)) .denied
      | .port p => if openLife s then none else if portRole s p = .safety then none else gainOrDeny s .safety,
      argZero c, argOk (decide (u8 c.payload 0 ≤ 1)) 0, reserved c.payload 1 3])
    (fun s =>
      let s := okWith s c 0x0004 .fast []
      { s with rs := { s.rs with req := some ⟨decide (u8 c.payload 0 = 1), c.src,
        match c.src with | .sideband => some (c.start + 10 * ms) | .port _ => none⟩ } })

/-- Order statistic `k`, from 0, of counts below 4,096: the largest value with at most `k` counts below it. -/
def orderStat (l : List Nat) (k : Nat) : Nat :=
  (List.range 12).foldr (fun b v => if countIf (fun x : Nat => decide (x < v + 2 ^ b)) l ≤ k then v + 2 ^ b else v) 0

/-- Twice the median of a tile's 512 counts at a level (R500). DESIGN CHOICE: the exact mean of the middle two. -/
def median2 (l : List Nat) : Nat := orderStat l ((l.length - 1) / 2) + orderStat l (l.length / 2)

/-- Columns of a tile of which a count differs by more than 8 from the tile's median at that level (R500). -/
def badColumns (levels : List (List Nat)) : List Nat :=
  let bad := levels.map (fun l =>
    let m := median2 l
    l.map (fun v => decide (m + 16 < 2 * v ∨ 2 * v + 16 < m)))
  (List.range 512).filter (fun c => bad.any (fun l => l.getD c false))

/-- What failed: columns as tile × 512 + column, DRAM units, or lanes (R500 to R502). -/
def bistFails : BistRead → List Nat
  | .conv l => l.flatMap (fun x => (badColumns x.2).map (fun c => 512 * x.1.val + c))
  | .units l => l
  | .lanes l => (List.range l.length).filter (fun k => decide (0 < l.getD k 0))

/-- A reading belongs to the test that runs, and covers every enabled tile (R500). DESIGN CHOICE: log entry 70. -/
def bistMatches (s : State) (r : BistRead) : Bool :=
  decide (s.diag.run = r.kind) && (match r with
    | .conv l => decide (l.map (fun x => x.1) = allTiles.filter (fun k => (enOf s s.arr.active).getD k.val false))
    | _ => true)

/-- The result of a finished self-test, its failures and the first of them (R505). -/
def recordBist (s : State) (fails : List Nat) : State :=
  let s := { s with diag := { s.diag with run := 0 } }
  let s := s.setFld aDIAG_BIST 26 24 (if fails.isEmpty then 1 else 2)
  let s := s.setReg aDIAG_BIST_FAIL fails.length
  s.setReg aDIAG_BIST_FIRST (match fails with | [] => 0 | f :: _ => 2 ^ 31 + f % 2 ^ 28)

/-- The converter self-test ends: the tiles that fail are marked, and CONV_BIST is raised for each (R500). -/
def finishConv (s : State) (fails : List Nat) (t : Time) : State :=
  let s := recordBist s fails
  let tiles := (List.range 192).filter (fun k => fails.any (fun f => f / 512 = k))
  let s := (List.range 6).foldl (fun s w => s.setReg (aDIAG_CONV_FAIL w)
    (sumL ((tiles.filter (fun k => k / 32 = w)).map (fun k => 2 ^ (k % 32))))) s
  tiles.foldl (fun s k => raise s fCONV_BIST k t) s

/-- The memory self-test ends: the contents of frame memory are undefined, every unit's check word is good, and the requesters that waited enter (R501). -/
def finishMemBist (s : State) (fails : List Nat) (t : Time) : State :=
  let s := (rewriteWaiting (loseMemory (recordBist s fails)) s).modMem (fun m => { m with errs := [], ecc := [], ckq := [] })
  admitWaiting (if fails.isEmpty then s else raise s fMEM_BIST 0 t) t

/-- The link self-test ends (R502). -/
def finishLinkBist (s : State) (fails : List Nat) (t : Time) : State :=
  let s := recordBist s fails
  if fails.isEmpty then s else raise s fLINK_BIST s.diag.runPort t

/-- The self-test that runs ends (R500 to R502). -/
def finishBist (s : State) (fails : List Nat) (t : Time) : State :=
  match s.diag.run with
  | 1 => finishConv s fails t
  | 2 => finishMemBist s fails t
  | _ => finishLinkBist s fails t

/-- Whether the device is in ACTIVE, or on the way there, as a command stamped `stamp` sees it (R340, R383). -/
def activeSeen (s : State) (stamp : Time) : Bool × Bool :=
  match s.pw.seen.find? (fun e => decide (stamp < e.at_)) with
  | some e => (e.active, e.settling)
  | none => (decide (s.pw.st = .active), s.rs.settleAt.isSome)

/-- What needs ACTIVE is refused with `BAD_STATE`, and with `BUSY` on the way to ACTIVE (R382, R383). -/
def needActive (s : State) (c : Call) : Option Reject :=
  let x := activeSeen s c.stamp
  need x.1 (if x.2 then .busy else .badState)

/-- A change between STANDBY and ACTIVE is noted, for commands stamped before it. -/
def noteState (s : State) (t : Time) : State :=
  { s with pw := { s.pw with seen := s.pw.seen ++ [⟨t, decide (s.pw.st = .active), s.rs.settleAt.isSome⟩] } }

/-- The pumps start and the converter self-test runs (R377, R383, R500). -/
def startPumps (s : State) (t : Time) : State :=
  let s := noteState s t
  { s with rs := { s.rs with settleAt := some (t + ms / 2) }, diag := { s.diag with run := 1, started := t } }

/-- ACTIVE to STANDBY (R383). -/
def goStandby (s : State) (t : Time) : State :=
  let s := noteState s t
  let cut := (List.range 16).filterMap (fun v => match s.pipe.frames.filter (fun f => decide (f.view.val = v)) with
    | [] => none
    | f :: r => some (v, f.frame, r.length + 1))
  let s := cut.foldl (fun s c => notifyDrop s c.1 3 c.2.1 c.2.2 t) s
  let s := (stopArrayNow s t).modSeq (fun q => { q with relock := false })
  let s := stopAllViews s t
  let s := stopAllAux s t
  { s with pw := { s.pw with st := .standby } }

/-- `SET_POWER_STATE` (R367, R383). -/
def execSetPowerState (c : Call) (s : State) : Out :=
  let target := u8 c.payload 0
  command s c 0x0005 .slow (fun s => [lenIs c 4, needLeaseOrSafety s c lARRAY, argZero c,
      argOk (decide (target = 2 ∨ target = 3)) 0, reserved c.payload 1 3,
      need (decide (s.pw.st = .standby ∨ s.pw.st = .active)) .badState])
    (fun s =>
      let s := accept s c 0x0005 (50 * ms) target
      let res (n : Nat) : List Byte := [byte n, 0, 0, 0]
      if s.pw.st.code = target then complete s c.src 0x0005 c.tag .ok (res target) c.start
      else if target = 2 then complete (goStandby s c.start) c.src 0x0005 c.tag .ok (res 2) c.start
      else if pllOf s 0 = .fail then complete s c.src 0x0005 c.tag .fault (res 2) c.start
      else startPumps s c.start)

/-- `PUMPS_SETTLED`: ACTIVE is reached; a profile that starts the array does so now (R383, R399). With PLLA in FAIL by then the command completes with FAULT
and 2 (R383, R391). -/
def execPumpsSettled (t : Time) (s : State) : Out :=
  event s t (fun s => match s.rs.settleAt with | some d => decide (d ≤ t) && decide (s.pw.st = .standby) | none => false) (fun s =>
    let at_ := s.rs.settleAt.getD t
    let s := noteState (if s.diag.run = 1 then finishConv s [] t else s) t
    if pllOf s 0 = .fail then
      let s := { s with rs := { s.rs with settleAt := none, autoStart := false } }
      match s.slow.find? (fun j => j.opcode = 0x0005) with
      | some j => complete s j.src 0x0005 j.tag .fault [2, 0, 0, 0] t
      | none => s
    else
    let s := { s with pw := { s.pw with st := .active }, rs := { s.rs with settleAt := none } }
    let s := startAllAux s t
    let s := match s.slow.find? (fun j => j.opcode = 0x0005) with
      | some j => complete s j.src 0x0005 j.tag .ok [3, 0, 0, 0] t
      | none => s
    if s.rs.autoStart then startArrayAt { s with rs := { s.rs with autoStart := false } } at_ else s)

/-- `SLOW_COMMAND_TIMEOUT`: work beyond its deadline completes with TIMEOUT (R341). -/
def execSlowCommandTimeout (t : Time) (opcode : BitVec 16) (s : State) : Out :=
  let m (j : SlowJob) : Bool := j.opcode = opcode.toNat && decide (j.deadline ≤ t)
  event s t (fun s => s.slow.any m) (fun s =>
    match s.slow.find? m with
    | some j => complete s j.src j.opcode j.tag .timeout [] t
    | none => s)

/-! ## The fault log -/

/-- One log entry as `GET_FAULTS` returns it (R368). -/
def faultBytes (e : FaultEntry) : List Byte :=
  leBytes 2 e.code ++ leBytes 2 e.inst ++ leBytes 2 e.count ++ [byte e.fflags, 0] ++ leBytes 8 e.dtime

/-- `GET_FAULTS` (R368). -/
def execGetFaults (c : Call) (s : State) : Out :=
  let first := u16 c.payload 0
  command s c 0x0006 .fast (fun _ => [lenIs c 4, argZero c, argOk (decide (first ≤ 63)) 0,
      argOk (decide (1 ≤ u8 c.payload 2 ∧ u8 c.payload 2 ≤ 47)) 2, reserved c.payload 3 1])
    (fun s =>
      let es := (s.log.entries.drop first).take (u8 c.payload 2)
      okWith s c 0x0006 .fast (leBytes 2 s.log.entries.length ++ leBytes 2 first ++ leBytes 2 es.length ++
        leBytes 2 s.log.lost ++ zeros 8 ++ es.flatMap faultBytes))

/-- Whether an entry matches a clear; 0xFFFF matches any value (R369). -/
def clearMatch (code inst : Nat) (e : FaultEntry) : Bool :=
  (decide (code = 0xFFFF) || decide (code = e.code)) && (decide (inst = 0xFFFF) || decide (inst = e.inst))

/-- `CLEAR_FAULTS` (R369, R493). -/
def execClearFaults (c : Call) (s : State) : Out :=
  let code := u16 c.payload 0
  let inst := u16 c.payload 2
  command s c 0x0007 .fast (fun s => [lenIs c 4, needLeaseOrSafety s c lARRAY, argZero c]) (fun s =>
    let fresh (e : FaultEntry) : Bool := decide (pioCycle e.lastAt = pioCycle c.start)
    let hit := clearMatch code inst
    let kept := s.log.entries.filter (fun e => !hit e || e.stands || fresh e)
    let all := decide (code = 0xFFFF ∧ inst = 0xFFFF)
    let n := s.log.entries.length - kept.length
    let s := { s with log := { s.log with
      entries := kept.map (fun e => if hit e then { e with count := 1, repeated := false } else e)
      lost := if all then 0 else s.log.lost
      lostAlarm := s.log.lostAlarm && !all } }
    okWith s c 0x0007 .fast (leBytes 2 n ++ leBytes 2 (countIf (fun e => hit e && e.stands) s.log.entries)))

/-- `FAULT_REPEAT`: a FAULT notification with EVENT 4, at most once per second per entry (R496). -/
def execFaultRepeat (t : Time) (code inst : BitVec 16) (s : State) : Out :=
  let m (e : FaultEntry) : Bool := e.code = code.toNat && e.inst = inst.toNat && e.repeated && decide (e.lastNote + sec ≤ t)
  event s t (fun s => s.log.entries.any m) (fun s =>
    match s.log.entries.findIdx? m with
    | some i =>
      let l := modAt s.log.entries i (fun e => { e with repeated := false, lastNote := t })
      notifyFault { s with log := { s.log with entries := l } } (l.getD i ⟨0, 0, 0, false, .none, 0, 0, false, 0⟩) 4 t
    | none => s)

/-! ## DTIME -/

/-- `TIME_SYNC` (R370). -/
def execTimeSync (c : Call) (s : State) : Out :=
  let pl := c.payload
  let p := portIx (u8 pl 0)
  command s c 0x0020 .fast (fun s =>
      let lt := (s.port p).lt
      [lenIs c 8, needLeaseOrSafety s c lARRAY, argZero c, argOk (decide (u8 pl 0 < 4)) 0, argOk (decide (u8 pl 1 ≤ 1)) 1,
       reserved pl 2 6, argOk (decide (u8 pl 1 = 0) || decide (lt.theta.natAbs ≤ 10000000)) 0,
       need (lt.valid && decide (c.start ≤ lt.lastCell + 100 * ms)) .badState,
       need (decide (u8 pl 1 = 1) || !(arrayRunning s || trigAtPending s || ringOpenSegment s)) .badState])
    (fun s =>
      let th := (s.port p).lt.theta
      let d := s.dtime c.start
      let s := if u8 pl 1 = 0 then timersStep (setDtime s c.start (unsigned 64 ((d : Int) + th)) 0 true) s c.start
        else setDtime s c.start d th true
      okWith s c 0x0020 .fast (leBytes 8 (unsigned 64 th) ++ leBytes 8 (s.dtime c.start)))

/-- `DTIME_SLEW_END`: θ has been absorbed (R370). -/
def execDtimeSlewEnd (t : Time) (s : State) : Out :=
  event s t (fun s => decide (s.clk.slew ≠ 0) && decide (slewLeft s.clk t = 0))
    (fun s => setDtime s t (s.dtime t) 0 s.clk.synced)

/-! ## Leases -/

/-- A holder whose lease has expired or lapsed by an instant, with its event not yet taken, gives it up first, at its own instant (R347, R351 to R353). -/
def settleLease (s : State) (b : Nat) (stamp : Time) : State :=
  match leaseEnd s b stamp with
  | some e => dropLease s b e.1 e.2
  | none => s

/-- The holder that an acquire meets: the present one, which commands served before it have made (R353), and where none holds the lease now, the one
of its stamp (R340). -/
def acquireHolder (s : State) (b : Nat) (stamp : Time) : Option PortIx :=
  match (s.lease b).holder with
  | some _ => holderNow s b stamp
  | none => holderAt s b stamp

/-- The term of a lease from instant E (R351). -/
def termOf (s : State) (term : Nat) (t : Time) : Option Time × Nat :=
  if term = 0 then (none, 0) else (some (t + term * ms), (s.dtime t + term * 1000000) % 2 ^ 64)

/-- Put a holder on a lease; the ARRAY lease passing to another host, or acquired after a lapse, resets the staged set (R77). -/
def grantLease (s : State) (b : Nat) (p : PortIx) (term : Nat) (t : Time) : State :=
  let (e, d) := termOf s term t
  let prev := (s.lease b).holder
  let s := { s with
    leases := modAt s.leases b (fun _ => ⟨some p, e, d⟩)
    leaseLog := if prev = some p then s.leaseLog else s.leaseLog ++ [⟨b, t, prev⟩] }
  if b = 0 then
    let other := s.arrayLapsed || (match s.lastArrayHolder with | some q => decide (q ≠ p) | none => false)
    let s := if other then resetStaged s else s
    { s with lastArrayHolder := some p, arrayLapsed := false }
  else s

def termOk (term : Nat) : Bool := decide (term = 0 ∨ (100 ≤ term ∧ term ≤ 60000))

/-- `ACQUIRE_LEASE` (R350, R351, R371). -/
def execAcquireLease (c : Call) (s : State) : Out :=
  let pl := c.payload
  let p := (srcIx c.src)
  let b := (leaseBit (u8 pl 0)).getD 30
  let term := u32 pl 4
  command s c 0x0100 .fast (fun s => [lenIs c 8, notViewer s c, argZero c,
      argOk (leaseBit (u8 pl 0)).isSome 0, reservedBits pl 1 0xFE, reserved pl 2 2, argOk (termOk term) 4,
      match acquireHolder s b c.stamp with
      | none => none
      | some q => if q = p then none
        else need (decide (portRole s p = .safety) && bit (u8 pl 1) 0 && !decide (portRole s q = .safety)) .busy])
    (fun s =>
      let s := settleLease s b c.stamp
      let prev := (s.lease b).holder
      let s := grantLease s b p term c.start
      let s := match prev with
        | none => notifyLease s b 1 (some p) none c.start
        | some q => if q = p then s else notifyLease s b 3 (some p) (some q) c.start
      okWith s c 0x0100 .fast ([byte (u8 pl 0), portByte prev, byte (portRole s p).code, 0] ++ leBytes 4 term ++
        leBytes 8 (s.lease b).expDtime))

/-- The leases a release or renewal names, of those the caller holds at its stamp. -/
def namedLeases (s : State) (c : Call) (code : Nat) : List Nat :=
  let held (b : Nat) : Bool := holds s c.src b c.stamp
  if code = 0xFF then (List.range 30).filter held
  else match leaseBit code with
    | some b => if held b then [b] else []
    | none => []

/-- Of the leases named, those that the caller holds when the command starts: a command of a holder that has lost its lease since still runs, and changes
nothing there (R340, R353). -/
def stillHeld (s : State) (src : Src) (l : List Nat) : List Nat :=
  l.filter (fun b => match src with | .port p => decide ((s.lease b).holder = some p) | .sideband => false)

def leaseBits (l : List Nat) : Nat := sumL (l.map (fun b => 2 ^ b))

/-- `RELEASE_LEASE` (R372). -/
def execReleaseLease (c : Call) (s : State) : Out :=
  let pl := c.payload
  command s c 0x0101 .fast (fun s =>
      let good := decide (u8 pl 0 = 0xFF) || (leaseBit (u8 pl 0)).isSome
      [lenIs c 4, argZero c, argOk good 0, reserved pl 1 3,
       need (!good || !(namedLeases s c (u8 pl 0)).isEmpty) .noLease])
    (fun s =>
      let named := namedLeases s c (u8 pl 0)
      let s := named.foldl (fun s b => settleLease s b c.start) s
      let l := stillHeld s c.src named
      let s := l.foldl (fun s b => dropLease s b 2 c.start) s
      okWith s c 0x0101 .fast (leBytes 4 (leaseBits l)))

/-- `RENEW_LEASE` (R373). -/
def execRenewLease (c : Call) (s : State) : Out :=
  let pl := c.payload
  let term := u32 pl 4
  command s c 0x0102 .fast (fun s =>
      let good := decide (u8 pl 0 = 0xFF) || (leaseBit (u8 pl 0)).isSome
      [lenIs c 8, argZero c, argOk good 0, reserved pl 1 3, argOk (termOk term) 4,
       need (!good || !(namedLeases s c (u8 pl 0)).isEmpty) .noLease])
    (fun s =>
      let named := namedLeases s c (u8 pl 0)
      let s := named.foldl (fun s b => settleLease s b c.start) s
      let l := stillHeld s c.src named
      let (e, d) := termOf s term c.start
      let s := l.foldl (fun s b => { s with leases := modAt s.leases b (fun x => { x with expires := e, expDtime := d }) }) s
      okWith s c 0x0102 .fast (leBytes 4 (leaseBits l) ++ leBytes 8 d))

/-- `LEASE_EXPIRY`: the term has run out (R351). -/
def execLeaseExpiry (t : Time) (r : Fin 30) (s : State) : Out :=
  event s t (fun s => (s.lease r.val).holder.isSome &&
      (match (s.lease r.val).expires with | some e => decide (e ≤ t) | none => false))
    (fun s => settleLease s r.val t)

/-- `LEASE_LAPSE`: 250 ms after a drop without a return (R352). -/
def execLeaseLapse (t : Time) (p : PortIx) (s : State) : Out :=
  event s t (fun s => match (s.port p).dropAt with | some d => decide (d + 250 * ms ≤ t) | none => false)
    (fun s => lapsePort s p (((s.port p).dropAt).getD t + 250 * ms))

/-! ## Self-tests -/

/-- A self-test starts through `DIAG_BIST` where none runs (R500 to R502, R505). -/
def startBist (s : State) (kind port : Nat) (t : Time) : State :=
  { s with diag := { run := kind, runPort := port, started := t } }

/-- `CONVERTER_SELF_TEST` (R500). -/
def execConverterSelfTest (t : Time) (s : State) : Out :=
  event s t (fun s => decide (s.diag.run = 0) && !arrayRunning s) (fun s => startBist s 1 0 t)

/-- Conditions of the memory self-test (R501). -/
def memBistOk (s : State) : Bool := openLife s && memRunning s && noStores s && noSealed s

/-- `MEMORY_SELF_TEST` (R501). -/
def execMemorySelfTest (t : Time) (s : State) : Out :=
  event s t (fun s => decide (s.diag.run = 0) && memBistOk s) (fun s => startBist s 2 0 t)

/-- The link self-test needs its port in QUIET (R502). -/
def linkBistOk (s : State) : Bool := decide ((s.port (portIx (s.fld aDIAG_BIST 21 20))).tr.st = .quiet)

/-- `LINK_SELF_TEST` (R502). -/
def execLinkSelfTest (t : Time) (s : State) : Out :=
  event s t (fun s => decide (s.diag.run = 0) && linkBistOk s) (fun s => startBist s 3 (s.fld aDIAG_BIST 21 20) t)

end Sys2Proof.Machine
end

