-- ==== Sys2Proof/Machine/ArrayCmds.lean ====
section
/-! DEFINITION. Array commands and the sequencer's events (R41, R52, R53, R60, R67, R70 to R93, R109, R111, R497). -/

namespace Sys2Proof.Machine

/-! ## Staging (R82 to R88) -/

def stage (s : State) (f : Settings → Settings) : State := { s with arr := { s.arr with staged := f s.arr.staged } }

/-- The checks that every array command of chapter "Exposure" starts with. -/
def arrayCmd (c : Call) (n : Nat) (argFrom : Nat := 0) (s : State) : List (Option Reject) :=
  [lenIs c n, needLease s c lARRAY, argZero c argFrom]

/-- The row window of R37: the offset of the first field that breaks it. -/
def windowOk (bin : Bool) (first count off : Nat) : List (Option Reject) :=
  let m := if bin then 4 else 2
  [argOk (decide (first % m = 0 ∧ first ≤ 510)) off,
   argOk (decide (count % m = 0 ∧ m ≤ count ∧ count ≤ 512 ∧ first + count ≤ 512)) (off + 2)]

/-- `SET_ARRAY_MODE` (R83). -/
def execSetArrayMode (c : Call) (s : State) : Out :=
  let p := c.payload
  let fl := u8 p 2
  command s c 0x0200 .fast (fun s => arrayCmd c 8 0 s ++
      [argOk (decide (1 ≤ u8 p 0 ∧ u8 p 0 ≤ 5)) 0, reservedBits p 1 0xF0, reservedBits p 2 0xFC, reserved p 3 1] ++
      windowOk (bit fl 1) (u16 p 4) (u16 p 6) 4)
    (fun s => okWith (stage s (fun g => { g with
      mode := u8 p 0, dcg := u8 p 1, res10 := bit fl 0, bin := bit fl 1, rowFirst := u16 p 4, rowCount := u16 p 6 })) c 0x0200 .fast [])

/-- `SET_FRAME_TIMING` (R84). -/
def execSetFrameTiming (c : Call) (s : State) : Out :=
  let p := c.payload
  command s c 0x0201 .fast (fun s => arrayCmd c 16 0 s ++
      [argOk (decide (u8 p 0 ≤ 3)) 0, argOk (decide (u8 p 1 ≤ 15)) 1, argOk (decide (u8 p 2 ≤ 1)) 2, reserved p 3 1,
       argOk (decide (41667 ≤ u32 p 4 ∧ u32 p 4 ≤ 268435455)) 4, argOk (decide (u16 p 8 ≤ 1023)) 8,
       argOk (decide (u16 p 10 ≤ 1023)) 10, argOk (decide (u16 p 12 ≤ 1023)) 12, reserved p 14 2])
    (fun s => okWith (stage s (fun g => { g with
      trig := u8 p 0, trigTmr := u8 p 1, tail := u8 p 2, period := u32 p 4, d1 := u16 p 8, d2 := u16 p 10, d3 := u16 p 12 }))
      c 0x0201 .fast [])

/-- Whether the governor holds a tile's exposure and gain (R79). -/
def governed (s : State) (t : Nat) : Bool := s.arr.gov.on && s.arr.gov.mask.any (fun x => x.val = t)

/-- The layout of R85: `valOk` judges one value, and `put` stages it for an exposure. -/
def tileCommand (s : State) (c : Call) (opcode : Nat) (valOk : Nat → Bool) (put : TileSet → Nat → Nat → TileSet) : Out :=
  let p := c.payload
  let n := (p.length - 4) / 3
  let mask := u8 p 0
  let form := u8 p 1
  let first := u8 p 2
  let count := u8 p 3
  let one := decide (mask = 1 ∨ mask = 2 ∨ mask = 4 ∨ mask = 8)
  let val (k : Nat) : Nat := u24 p (4 + 3 * k)
  let bad := ((List.range n).find? (fun k => !valOk (val k)))
  command s c opcode .fast (fun s =>
      [need (decide (7 ≤ p.length ∧ (p.length - 4) % 3 = 0 ∧ n ≤ 192)) .badLength, needLease s c lARRAY, argZero c,
       argOk (decide (mask ≠ 0 ∧ mask < 16) && (form ≠ 1 || one)) 0, argOk (decide (form ≤ 1)) 1,
       argOk (decide (first ≤ 191)) 2, argOk (decide (1 ≤ count ∧ first + count ≤ 192)) 3,
       argOk (decide (n = if form = 0 then 1 else count)) 3,
       (match bad with | some k => some ⟨.badArg, 4 + 3 * k⟩ | none => none),
       need (!(List.range count).any (fun k => governed s (first + k))) .badState])
    (fun s => okWith (stage s (fun g => { g with
      tiles := g.tiles.zipIdx.map (fun x =>
        if first ≤ x.2 ∧ x.2 < first + count then
          let v := val (if form = 0 then 0 else x.2 - first)
          (List.range 4).foldl (fun y j => if bit mask j then put y j v else y) x.1
        else x.1) })) c opcode .fast [])

/-- `SET_TILE_EXPOSURE` (R85). -/
def execSetTileExposure (c : Call) (s : State) : Out :=
  tileCommand s c 0x0202 (fun v => decide (1 ≤ v)) (fun y j v => { y with ticks := modAt y.ticks j (fun _ => v) })

/-- `SET_TILE_GAIN` (R85). -/
def execSetTileGain (c : Call) (s : State) : Out :=
  tileCommand s c 0x0203
    (fun v => decide (16 ≤ bits v 8 0 ∧ bits v 8 0 ≤ 256 ∧ 1024 ≤ bits v 22 9 ∧ bits v 22 9 ≤ 16383 ∧ bits v 23 23 = 0))
    (fun y j v => { y with ag := modAt y.ag j (fun _ => bits v 8 0), dg := modAt y.dg j (fun _ => bits v 22 9) })

/-- Tiles of a mask of 24 bytes. -/
def tileMask (bs : List Byte) : List TileIx := allTiles.filter (fun t => bit (u8 bs (t.val / 8)) (t.val % 8))

/-- The governor goes off: what it has not applied is dropped, and its values in force are staged, of the exposures that the mode in force uses (R79). -/
def governorOff (s : State) : State :=
  let v := s.arr.gov
  if v.on then
    let a := s.arr.active
    let s := stage s (fun g => { g with
      tiles := g.tiles.zipIdx.map (fun x =>
        if v.mask.any (fun t => t.val = x.2) && v.vals.any (fun w => w.tile.val = x.2) then
          let y := a.tiles.getD x.2 x.1
          let up (l m : List Nat) : List Nat := l.zipIdx.map (fun z => if z.2 ≤ a.lastExp then m.getD z.2 z.1 else z.1)
          { x.1 with ticks := up x.1.ticks y.ticks, ag := up x.1.ag y.ag, dg := up x.1.dg y.dg }
        else x.1) })
    s.modGov (fun v => { v with on := false, out := [], due := [], vals := [], x := [] })
  else s

/-- `SET_GOVERNOR` (R79, R86). -/
def execSetGovernor (c : Call) (s : State) : Out :=
  let p := c.payload
  let range (off lo hi : Nat) : Option Reject := argOk (decide (lo ≤ u16 p off ∧ u16 p off ≤ hi)) off
  command s c 0x0205 .fast (fun s => arrayCmd c 44 0 s ++
      [argOk (decide (u8 p 0 ≤ 1)) 0, reserved p 1 1, range 2 256 65520, argOk (decide (16 ≤ u8 p 4 ∧ u8 p 4 ≤ 64)) 4,
       argOk (decide (16 ≤ u8 p 5 ∧ u8 p 5 ≤ 32)) 5, range 6 1 4096, range 8 1 4096, range 10 1 4096,
       argOk (decide (1 ≤ u32 p 12 ∧ u32 p 12 ≤ 16777215)) 12, range 16 16 256, range 18 1024 16383])
    (fun s =>
      let s := if u8 p 0 = 0 then governorOff s
        else
          let fresh := !s.arr.gov.on
          s.modGov (fun v => { v with
            on := true, target := u16 p 2, nbr := u8 p 4, chg := u8 p 5, ratios := [u16 p 6, u16 p 8, u16 p 10], emax := u32 p 12
            agmax := u16 p 16, dgmax := u16 p 18, mask := tileMask (p.drop 20), first := v.first || fresh
            x := if fresh then [] else v.x.filter (fun y => (tileMask (p.drop 20)).contains y.1), vals := v.vals.filter (fun w => (tileMask (p.drop 20)).contains w.tile) })
      okWith s c 0x0205 .fast [])

/-- `SET_SLICING` (R68, R87). -/
def execSetSlicing (c : Call) (s : State) : Out :=
  let p := c.payload
  let win (off n : Nat) : Option Reject := argOk (decide (u32 p off ≤ 160000) && (decide (n ≤ 1) || decide (2 ≤ u32 p off))) off
  command s c 0x0206 .fast (fun s => arrayCmd c 16 0 s ++
      [argOk (decide (1 ≤ u8 p 0 ∧ u8 p 0 ≤ 8)) 0, argOk (decide (1 ≤ u8 p 1 ∧ u8 p 1 ≤ 8)) 1, argOk (decide (u16 p 2 ≠ 0)) 2,
       win 4 (u8 p 0), win 8 (u8 p 1), reserved p 12 4])
    (fun s => okWith (stage s (fun g => { g with
      n0 := u8 p 0, n1 := u8 p 1, seed := u16 p 2, w0 := u32 p 4, w1 := u32 p 8 })) c 0x0206 .fast [])

/-- `SET_TILE_ENABLE` (R41, R88). -/
def execSetTileEnable (c : Call) (s : State) : Out :=
  let m := tileMask c.payload
  command s c 0x020A .fast (fun s => arrayCmd c 24 0 s ++ [argOk (m.any (fun t => !s.sec.killedTiles.contains t)) 0])
    (fun s => okWith (stage s (fun g => { g with
      tiles := g.tiles.zipIdx.map (fun x => { x.1 with en := m.any (fun t => t.val = x.2) }) })) c 0x020A .fast [])

/-! ## Commit (R74, R75, R89, R188) -/

/-- The region that a committed set's spill needs, taken where the one in force is too small. -/
def reserveSpill (s : State) (g : Settings) : State :=
  let s := match s.arr.spillPend with | some r => freeRegion s r | none => s
  let s := { s with arr := { s.arr with spillPend := none } }
  let n := spillMib s g
  let fits := match s.arr.spillBase with | some r => decide (n ≤ r.2) | none => false
  if decide (n = 0) || fits then s
  else match findFree s n with
    | some b => let s := takeRegion s b n
                { s with arr := { s.arr with spillPend := some (b, n) } }
    | none => s

/-- `COMMIT_SETTINGS` (R15, R74, R89): a frame whose ELP came after the stamp and that has not started is latched anew. -/
def execCommitSettings (c : Call) (s : State) : Out :=
  command s c 0x0204 .immediate (fun s =>
      let fl := stagedFailing s c.start
      arrayCmd c 0 2 s ++
      [need (decide (fl = []) || decide (fl = [6])) .badArg,
       need (!(decide (fl = [6]) && !memUp s)) .badState, need (!(decide (fl = [6]) && memUp s)) .noResource])
    (fun s =>
      let late := s.seq.latched.any (fun f => decide (c.stamp < f.elp)) && s.arr.undo.isSome
      let s := reserveSpill (unlatch s c.stamp) s.arr.staged
      let s := { s with arr := { s.arr with pend := some ⟨u16 c.arg 0, c.stamp, s.arr.staged⟩ } }
      let s := if trigNext s c.start then s else s.modSeq (fun q => { q with armed := false })
      let (n, at_) := commitTarget s c.start
      let s := if late && latchDue s c.start then latchNext s c.start else s
      okWith s c 0x0204 .immediate (leBytes 4 n ++ leBytes 8 (match at_ with | some x => s.dtime x | none => 0)))

/-! ## Triggers (R69 to R72, R89, R92) -/

/-- `TRIGGER_FRAME` (R71, R89). -/
def execTriggerFrame (c : Call) (s : State) : Out :=
  command s c 0x0207 .immediate (fun s => arrayCmd c 0 0 s ++ [needActive s c]) (fun s =>
    match trigRes s 1 c.stamp c.start with
    | .accepted =>
      let n := s.seq.nextNum
      okWith (takeTrigger s 1 c.stamp c.start) c 0x0207 .immediate (leBytes 4 n ++ leBytes 8 (s.dtime c.stamp))
    | .overrun => respond (takeTrigger s 1 c.stamp c.start) c 0x0207 .immediate .busy 0 []
    | .ignored => respond (takeTrigger s 1 c.stamp c.start) c 0x0207 .immediate .badState 0 [])

/-- `TRIGGER_AT` (R72, R92). -/
def execTriggerAt (c : Call) (s : State) : Out :=
  let d := u64 c.payload 0
  command s c 0x020B .fast (fun s =>
      let gap := divCeil (pminT s (trigSet s c.start) c.start) ns
      arrayCmd c 8 0 s ++
      [argOk (decide (s.dtime c.stamp + 10000 ≤ d) && s.seq.trigAt.all (fun x => decide (x + gap ≤ d))) 0,
       needActive s c, need s.seq.running .badState, need (decide (s.seq.trigAt.length < 4)) .noResource])
    (fun s => okWith (s.modSeq (fun q => { q with trigAt := q.trigAt ++ [d] })) c 0x020B .fast [])

/-- `TRIGGER_AT_DUE`: the earliest pending request acts at its DTIME (R69, R72). -/
def execTriggerAtDue (t : Time) (s : State) : Out :=
  event s t (fun s => s.seq.trigAt.any (fun d => decide (d ≤ s.dtime t))) (fun s =>
    match s.seq.trigAt with
    | [] => s
    | x :: l =>
      let d := minL x (x :: l)
      let s := s.modSeq (fun q => { q with trigAt := removeFirst (· = d) q.trigAt })
      takeTrigger s 2 (t - (s.dtime t - d) * ns) t)

/-! ## Start and stop (R90, R91, R382, R391) -/

/-- `START_ARRAY` (R90). Where its stamp lies before a change to STANDBY that was made meanwhile, the array has stopped with that change (R340, R383). -/
def execStartArray (c : Call) (s : State) : Out :=
  command s c 0x0208 .fast (fun s => arrayCmd c 0 0 s ++
      [needActive s c, need (!s.seq.running) .badState, need (!decide (pllOf s 0 = .fail)) .fault])
    (fun s => okWith (if s.pw.st = .active then startArrayAt (s.modSeq (fun q => { q with relock := false })) c.stamp else s) c 0x0208 .fast (leBytes 4 s.seq.nextNum))

/-- `STOP_ARRAY` (R91). -/
def execStopArray (c : Call) (s : State) : Out :=
  let how := u8 c.payload 0
  command s c 0x0209 .fast (fun s => arrayCmd c 4 0 s ++ [argOk (decide (how ≤ 1)) 0, reserved c.payload 1 3])
    (fun s =>
      okWith (if how = 1 then stopArrayNow s c.start else stopArrayAfter s c.stamp c.start) c 0x0209 .fast [])

/-! ## The sequencer's events -/

/-- `EXPOSURE_LATCH_POINT` (R76). -/
def execExposureLatchPoint (t : Time) (s : State) : Out :=
  event s t (fun s => latchDue s t) (fun s => latchNext s t)

/-- `FRAME_START` (R52, R58). -/
def execFrameStart (t : Time) (s : State) : Out :=
  event s t (fun s => frameDue s t) (fun s => frameStart s t)

/-- `ARRAY_ARM` (R70, R527). -/
def execArrayArm (t : Time) (s : State) : Out :=
  event s t (fun s => armDue s t) (fun s => s.modSeq (fun q => { q with armed := true }))

/-- `OVERHEAD_SLOT` (R35). -/
def execOverheadSlot (t : Time) (samples : List (TileIx × List (Nat × Nat))) (ramp : List (TileIx × Int)) (s : State) : Out :=
  event s t (fun s => ovhDue s t) (fun s => overheadSlot s samples ramp t)

/-- `ROW_SLOT` (R53 to R58, R94 to R121). -/
def execRowSlot (t : Time) (samples : List (TileIx × List (Nat × Nat))) (s : State) : Out :=
  event s t (fun s => rowSlotDue s t) (fun s => rowSlot s samples t)

/-- The frame whose row a tile begins to integrate now. -/
def integFrame (s : State) (t : Time) (tile : TileIx) (row exp : Nat) : Option Frame :=
  (liveFrames s).find? (fun f => f.en.getD tile.val false && decide (row < f.set.rows ∧ exp ≤ f.set.lastExp) &&
    decide (iStart f (onOwnGrid s f t) tile row exp ≤ t ∧ t < iEnd f (onOwnGrid s f t) row exp) &&
    !s.seq.integ.any (fun n => decide (n.frame = f.num ∧ n.tile = tile ∧ n.row = row ∧ n.exp = exp)))

/-- `INTEGRATION_START` (R60). -/
def execIntegrationStart (t : Time) (tile : TileIx) (row : Nat) (exp : Fin 4) (s : State) : Out :=
  event s t (fun s => (integFrame s t tile row exp.val).isSome) (fun s =>
    match integFrame s t tile row exp.val with
    | some f => s.modSeq (fun q => { q with integ := q.integ ++ [⟨f.num, tile, row, exp.val, 0⟩] })
    | none => s)

/-- The integration whose next slice has been transferred. -/
def sliceOf (s : State) (t : Time) (tile : TileIx) (row exp : Nat) : Option Integ :=
  s.seq.integ.find? (fun n => decide (n.tile = tile ∧ n.row = row ∧ n.exp = exp) &&
    (match frameOf s n.frame with
     | some f => f.set.sliced exp && decide (n.slices < f.set.slices exp) && decide (sliceEnd f (onOwnGrid s f t) tile row exp n.slices ≤ t)
     | none => false))

/-- `INTEGRATION_SLICE` (R67). -/
def execIntegrationSlice (t : Time) (tile : TileIx) (row : Nat) (exp : Fin 4) (s : State) : Out :=
  event s t (fun s => (sliceOf s t tile row exp.val).isSome) (fun s =>
    match sliceOf s t tile row exp.val with
    | some m => s.modSeq (fun q => { q with integ := q.integ.map (fun n => if n = m then { n with slices := n.slices + 1 } else n) })
    | none => s)

/-- `MOSAIC_LINE_TRANSFER` (R11, R109, R497). -/
def execMosaicLineTransfer (t : Time) (tile : TileIx) (crcOk : Bool) (s : State) : Out :=
  event s t (fun s => !(s.eng tile.val).outq.isEmpty) (fun s => takeLine s tile.val crcOk t)

/-- The frame whose spilled row `row` of kind `q` is being fetched for a tile (R109, R111). -/
def fetchFrame (s : State) (tile q row : Nat) : Option Frame :=
  (s.seq.cur.toList ++ s.seq.prev.toList).find? (fun f => f.endAt.isNone && f.en.getD tile false && bit f.spill q && decide (row < f.set.rows) &&
    decide ((row + f.set.DJ - 1) * f.set.S ≤ slotReached s f ∧ slotReached s f ≤ (row + f.set.DJ) * f.set.S + f.set.S - 1) &&
    decide (countIf (fun h : Held => h.kind = q) (s.eng tile).fetched < 2) &&
    !(s.eng tile).fetched.any (fun h => decide (h.frame = f.num ∧ h.row = row ∧ h.kind = q)) &&
    (s.eng tile).asked.contains (f.num, row, q))

/-- Codes of a spilled sample-row in frame memory: pairs of 12 bits in 3 bytes. -/
def unpack12 (bs : List Byte) : List Nat :=
  (List.range (bs.length / 3)).flatMap (fun k => [u24 bs (3 * k) % 4096, u24 bs (3 * k) / 4096])

/-- `SPILL_FETCH_COMPLETE` (R109, R111): a fetch that frame memory answers with a fault is lost. -/
def execSpillFetchComplete (t : Time) (tile : TileIx) (kind : Fin 8) (row : Nat) (ok : Bool) (s : State) : Out :=
  event s t (fun s => decide (s.mem.st = .run) && (match fetchFrame s tile.val kind.val row with
      | some f => !memPending s.mem 0 tile.val (spillAddr f tile.val kind.val row) 768
      | none => false)) (fun s =>
    match fetchFrame s tile.val kind.val row with
    | some f =>
      let s := s.modEng tile.val (fun e => { e with asked := e.asked.filter (fun x => decide (x ≠ (f.num, row, kind.val))) })
      if ok then
        let codes := unpack12 (fmRead s (spillAddr f tile.val kind.val row) 768)
        let s := s.modEng tile.val (fun e => { e with fetched := e.fetched ++ [⟨f.num, row, kind.val, codes⟩] })
        let n := (s.eng tile.val).held.length + (s.eng tile.val).fetched.length
        s.setFld (aTENG_TPEAK tile.val) 7 0 (max n (s.fld (aTENG_TPEAK tile.val) 7 0))
      else s.modEng tile.val (fun e => { e with lostRows := e.lostRows ++ [(f.num, row, kind.val)] })
    | none => s)

/-! ## Statistics (R78, R117 to R119, R152 to R154, R418) -/

/-- Bins of a sparse histogram as bytes. -/
def histBytes (h : List (Nat × Nat)) (bins w : Nat) : List Byte := (List.range bins).flatMap (fun b => leBytes w (histGet h b))

/-- The 16 bytes of a zone record. -/
def zoneBytes (x : Option TileStat) : List Byte :=
  match x with
  | none => zeros 16
  | some x =>
    (List.range 4).flatMap (fun c => leBytes 3 (min 0xFFFFFF (meanOf (x.sums.getD c 0) (x.counts.getD c 0)))) ++
    leBytes 3 (x.sat % 2 ^ 19 + 2 ^ 23) ++ [0]

def arrayRecord (s : State) (f : Frame) : StatRec :=
  let st (t : Nat) : Option TileStat := f.stats.find? (fun x => x.tile.val = t)
  let flags := b2n f.set.bin + 2 * b2n (decide (f.cfg.pat ≠ 0)) + 4 * b2n s.sec.untrusted +
    8 * b2n (decide (f.set.rowFirst ≠ 0 ∨ f.set.rowCount ≠ 512))
  let hb := bits f.cfg.ctl 11 8
  let head := [0, 1] ++ leBytes 2 f.id ++ leBytes 4 f.num ++ leBytes 8 f.fsD ++ leBytes 2 192 ++ [byte flags, byte hb] ++
    leBytes 4 44064 ++ zeros 8
  { src := 0, frame := f.num, id := f.id, chan := f.chan
    bytes := head ++ (List.range 192).flatMap (fun t => zoneBytes (st t)) ++
      (List.range 192).flatMap (fun t => histBytes (match st t with | some x => x.hist | none => []) 64 3) ++
      (List.range 4).flatMap (fun c => histBytes (f.chan.getD c []) 256 4)
    gov := f.stats.map (fun x => (x.tile.val, meanOf x.lvl (x.npix - x.clip), x.clip, x.npix)), at_ := s.clk.now }

/-- Keep a complete record: the two newest of each source (R154). -/
def keepStats (s : State) (r : StatRec) : State :=
  let old := s.arr.stats
  let mine := old.filter (fun x => x.src = r.src)
  { s with arr := { s.arr with stats := r :: mine.take 1 ++ old.filter (fun x => x.src ≠ r.src) } }

/-- Send a record to the views that take its frame (R154, R316). DESIGN CHOICE: a view that has stopped by then is sent none (log entry 36). -/
def sendStats (s : State) (views : List Nat) (r : StatRec) : State :=
  views.foldl (fun s v => if (s.view v).st = .running then queuePkt s v cSTATS r.frame ([byte v, 0, 0, 0] ++ r.bytes) else s) s

/-- The border scales after a frame (R418). -/
def updateBorder (s : State) (f : Frame) : State :=
  let p := max 1 (f.per / tick)
  let band := (List.range 12).map (fun b =>
    let old := s.th.band.getD b 0x100
    let l := f.stats.filter (fun x => decide (x.tile.val / 16 = b) && x.border.isSome)
    if l.isEmpty then old
    else
      let meas := l.foldl (fun (a : Int) x => a + Int.tdiv ((((x.border.getD (0, 0)).1 : Int) - x.refH) * 16 * 65536) (max 1 x.ag0 * p : Nat)) 0
      let fac := Config.darkFactor (trimWords s) (f.temps.getD b 0)
      let mdl := sumL (l.map (fun x => (Config.trimDark (trimWords s) x.tile).2.toNat * fac))
      borderScale old meas mdl)
  { s with th := { s.th with band := band } }

/-- `STATS_COMPLETE` (R78). -/
def execStatsComplete (t : Time) (s : State) : Out :=
  event s t (fun s => match s.seq.done with | f :: _ => (match f.endAt with | some e => decide (e ≤ t) | none => false) | [] => false)
    (fun s =>
      match s.seq.done with
      | [] => s
      | f :: rest =>
        let s := s.modSeq (fun q => { q with done := rest })
        let r := arrayRecord s f
        let s := keepStats s r
        let s := (List.range 192).foldl (fun s x =>
          let g := ((r.gov.find? (fun y => y.1 = x)).map (·.2)).getD (0, 0, 0)
          (((s.setReg (aTENG_TGLVL x) g.1).setReg (aTENG_TGCLIP x) g.2.1).setReg (aTENG_TGNPIX x) g.2.2).setReg (aTENG_TFRAME x) f.num) s
        let s := sendStats s f.takers r
        let s := updateBorder s f
        if s.arr.gov.on then s.modGov (fun v => { v with due := v.due ++ [(f.num, f.endAt.getD t + 500 * us)] }) else s)

/-! ## The governor (R79 to R81) -/

/-- g = 2^(y/256) as a numerator and a denominator (R80): the exact value cut to 40 significant bits, off by at most 2^-24 of itself. -/
def pow2of (y : Int) : Nat × Nat :=
  let k := y / 256
  let f := (y % 256).toNat
  let root (v : Nat) : Nat := Nat.sqrt (Nat.sqrt (Nat.sqrt (Nat.sqrt (Nat.sqrt (Nat.sqrt (Nat.sqrt (Nat.sqrt v)))))))
  let m := root (2 ^ (256 * 39 + f)) + (Config.govErr y).val - 32768
  if 0 ≤ k then (m * 2 ^ k.toNat, 2 ^ 39) else (m, 2 ^ (39 + (-k).toNat))

/-- Edge-sharing tiles. -/
def sharesEdge (a b : TileIx) : Bool :=
  (decide (a.val + 1 = b.val) && decide (a.val % 16 ≠ 15)) || decide (a.val + 16 = b.val)

/-- The largest fraction a/16 of the step that meets the neighbour limit. -/
def govFraction (nbr : Int) (xs : List (TileIx × Int × Int)) : Nat × List (TileIx × Int) :=
  let ys (a : Nat) : List (TileIx × Int) := xs.map (fun v => (v.1, v.2.1 + Int.tdiv ((a : Int) * (v.2.2 - v.2.1)) 16))
  let ok (a : Nat) : Bool :=
    let l := ys a
    l.all (fun u => l.all (fun w => !sharesEdge u.1 w.1 || decide (((u.2 - w.2).natAbs : Int) ≤ nbr)))
  let a := (((List.range 17).reverse).find? ok).getD 0
  (a, ys a)

/-- The values of a tile from its exposure-value code (R80). DESIGN CHOICE: an exposure that the mode does not use gets its `RATIO` share too, so
that it has one when a later set uses it (R81 names none; log entry 28). -/
def govSplit (v : Gov) (g : Settings) (tread : Nat) (t : TileIx) (y : Int) : GovVal :=
  let (n, d) := pow2of y
  let hold (x lo hi : Nat) : Nat := max lo (min x hi)
  let ticks := hold (n / d) 1 (eCap v g tread)
  let ag := hold (16 * n / (d * ticks)) 16 v.agmax
  let dg := hold (divRound (16384 * n) (d * (ticks * ag))) 1024 v.dgmax
  let short (j : Nat) : Nat :=
    let n := max 1 (ticks / max 1 (v.ratios.getD (j - 1) 1))
    if j ≤ g.lastExp then min n (max 1 (elim g tread j)) else n
  { tile := t, ticks := (List.range 4).map (fun j => if j = 0 then ticks else short j), ag := ag, dg := dg }

/-- Output of the governor from the record of a frame, or none where no masked tile takes part. -/
def govOutput (s : State) (n : Nat) (tg t : Time) : State :=
  let v := s.arr.gov
  let g := s.arr.active
  match s.arr.stats.find? (fun r => r.src = 0 && r.frame = n) with
  | none => s
  | some r =>
    let st (x : TileIx) : Nat × Nat × Nat := ((r.gov.find? (fun y => y.1 = x.val)).map (·.2)).getD (0, 0, 0)
    let part := v.mask.filter (fun x => decide ((st x).2.2 ≠ 0))
    let own (x : TileIx) : Int := match v.x.find? (fun y => y.1 = x) with | some y => y.2 | none => evCode (g.tile x)
    let mean : Int := (2 * (part.foldl (fun a x => a + own x) 0) + part.length) / (2 * max 1 part.length : Nat)
    let cur (x : TileIx) : Int := if v.first then mean else own x
    let chg := lg256 v.chg 16
    let xs := part.map (fun x =>
      let (lvl, clip, np) := st x
      let step : Int := if np < clip * 128 then -256 else lg256 v.target 1 - lg256 (max lvl 16) 1
      (x, cur x, cur x + clampI step (-chg) chg))
    if part.isEmpty then s
    else
      let (a, ys) := govFraction (lg256 v.nbr 16) xs
      let tread := treadFor s g t
      let vals := ys.map (fun y => govSplit v g tread y.1 y.2)
      let xs := vals.map (fun w => (w.tile, lg256 (w.ticks.getD 0 1 * w.ag * w.dg) 16384))
      s.modGov (fun v => { v with
        first := false, frac := a, clamped := false, x := xs ++ v.x.filter (fun y => !(xs.any (fun z => z.1 = y.1)))
        out := v.out ++ [⟨tg, n, vals⟩] })

/-- `GOVERNOR_OUTPUT` (R81). -/
def execGovernorOutput (t : Time) (s : State) : Out :=
  event s t (fun s => s.arr.gov.on && (match s.arr.gov.due with | d :: _ => decide (d.2 ≤ t) | [] => false)) (fun s =>
    match s.arr.gov.due with
    | d :: rest =>
      let s := s.modGov (fun v => { v with due := rest })
      if s.sec.handover.isSome then s else govOutput s d.1 d.2 t
    | [] => s)

end Sys2Proof.Machine
end

