-- ==== Sys2Proof/Machine/AuxCmds.lean ====
section
/-! DEFINITION. Aux commands and the events of the aux inputs (R159 to R179). -/

namespace Sys2Proof.Machine

/-! ## Packets (R160 to R162) -/

/-- The input receives: its receivers run and it is enabled. -/
def auxOn (s : State) (n : Nat) : Bool := decide (s.pw.st = .active) && decide ((s.auxIn n).st ≠ .off)

/-- What a packet's header brings, and whether its contents count: `vc` with its VCX bits, `hdr` 0 sound, 1 corrected, 2 not correctable. -/
def auxPacket (s : State) (n vc hdr : Nat) : State × Bool :=
  match (s.auxIn n).st with
  | .run =>
    if hdr = 2 then
      let s := s.bump (aAUX_ERR n) 15 8 1
      (if vc < 4 ∧ (s.auxVc n vc).openAt.isSome then s.modVc n vc (fun c => { c with fflags := Nat.lor c.fflags 8 }) else s, false)
    else
      let s := if hdr = 1 then s.bump (aAUX_ERR n) 7 0 1 else s
      if 4 ≤ vc then (s.bump (aAUX_ERR n) 31 24 1, false) else (s, true)
  | .skewWait => (s.bump (aAUX_ERR n) 31 24 1, false)
  | _ => (s, false)

/-- `AUX_FRAME_START` (R163, R168, R169): a packet that comes as a Frame Start, data type 0 (PRESUMED: of CSI-2). -/
def execAuxFrameStart (t : Time) (n : AuxIx) (head : BitVec 24) (ecc : Byte) (s : State) : Out :=
  event s t (fun s => auxOn s n.val) (fun s =>
    let hdr : BitVec 32 := ecc ++ head
    let v := csiVc hdr
    let (s, go) := auxPacket s n.val v (csiOk hdr)
    if go && decide (csiDt hdr = 0 ∧ auxDt s n.val v ≠ 0) then openAuxFrame s n.val v t else s)

/-- `AUX_FRAME_END` (R168): a packet that comes as a Frame End, data type 1 (PRESUMED: of CSI-2). -/
def execAuxFrameEnd (t : Time) (n : AuxIx) (head : BitVec 24) (ecc : Byte) (s : State) : Out :=
  event s t (fun s => auxOn s n.val) (fun s =>
    let hdr : BitVec 32 := ecc ++ head
    let v := csiVc hdr
    let (s, go) := auxPacket s n.val v (csiOk hdr)
    if go && decide (csiDt hdr = 1) then closeAuxFrame s n.val v 0 t else s)

/-- A line of the open frame of a stream (R162, R167, R171, R174). -/
def auxLine (s : State) (n v : Nat) (payload : List Byte) (crcOk : Bool) (t : Time) : State :=
  let c := s.auxVc n v
  let dt := auxDt s n v
  let row := c.lines
  let s := s.modVc n v (fun c => { c with lines := c.lines + 1 })
  if auxH s n v ≤ row then s.modVc n v (fun c => { c with fflags := Nat.lor c.fflags 2 })
  else
    let want := auxW s n v * dtParts dt
    let (l, s) := unpackLine s dt payload
    let short := decide (l.length < want)
    let long := decide (want < l.length)
    let s := if short then s.bump (aAUX_VC_LCNT n v) 15 0 1 else s
    let s := if long then s.bump (aAUX_VC_LCNT n v) 31 16 1 else s
    let got := l.take want
    let flags := 0x10 * b2n short + 0x20 * b2n long + 0x80 * b2n (!crcOk)
    let full := lbufFull s n v
    let s := if flags ≠ 0 || full then s.modVc n v (fun c => { c with fflags := Nat.lor c.fflags 16 }) else s
    let s := if full then raise (s.bump (aAUX_LBUF n) 15 0 1) fAUX_OVERRUN n t else s
    let s := auxDeliver s n v row got flags full t
    s.modAux n (fun a => { a with stat := a.stat.map (fun r =>
      if r.vc = v ∧ r.frame = c.count ∧ r.endAt.isNone then { r with lines := r.lines ++ [(row, got)] } else r) })

/-- `AUX_LONG_PACKET` (R161, R162, R167): the payload CRC of every long packet is checked. It also takes what a short packet of another type brings: Line
Start and Line End are ignored, generic short packets are discarded. PRESUMED: their CSI-2 data types, 0x02, 0x03 and 0x08 to 0x0F. -/
def execAuxLongPacket (t : Time) (n : AuxIx) (di : Byte) (wc : BitVec 16) (ecc : Byte) (payload : List Byte) (crc : BitVec 16) (s : State) : Out :=
  event s t (fun s => auxOn s n.val) (fun s =>
    let hdr : BitVec 32 := ecc ++ wc ++ di
    let v := csiVc hdr
    let dt := csiDt hdr
    let body := payload.take (csiWc hdr)
    let ok := decide (csiCrc body = crc.toNat)
    let (s, go) := auxPacket s n.val v (csiOk hdr)
    let s := if (s.auxIn n.val).st = .run ∧ csiOk hdr ≠ 2 ∧ 16 ≤ dt ∧ !ok then s.bump (aAUX_ERR n.val) 23 16 1 else s
    if !go ∨ dt ≤ 3 then s
    else if !dtKnown dt || decide (auxDt s n.val v ≠ dt) then s.bump (aAUX_ERR n.val) 31 24 1
    else if (s.auxVc n.val v).openAt.isSome then auxLine s n.val v body ok t
    else s)

/-- An input enters RUN: its streams time out from here, save those that are LATE, which count on (R169). -/
def enterRun (t : Time) (c : AuxVc) : AuxVc := if c.late then c else { c with lastFs := some t, everFs := false }

/-- `SKEW_CALIBRATION` (R160): periodic calibration changes no state of the model. -/
def execSkewCalibration (t : Time) (n : AuxIx) (lane : Fin 4) (initial : Bool) (s : State) : Out :=
  event s t (fun s => auxOn s n.val && initial && decide ((s.auxIn n.val).st = .skewWait)) (fun s =>
    let s := s.modAux n.val (fun a => { a with skewed := lane.val :: a.skewed })
    if (List.range (auxLanes s n.val)).all (fun k => (s.auxIn n.val).skewed.contains k) then
      s.modAux n.val (fun a => { a with st := .run, vcs := a.vcs.map (enterRun t) })
    else s)

/-- `AUX_LOS` (R165). -/
def execAuxLos (t : Time) (n : AuxIx) (lanes : BitVec 4) (s : State) : Out :=
  event s t (fun s => auxOn s n.val && decide ((s.auxIn n.val).st ≠ .los)) (fun s =>
    let s := (List.range 4).foldl (fun s v => closeAuxFrame s n.val v 4 t) s
    let s := s.modAux n.val (fun a => { a with st := .los, losLane := lanes.toNat })
    stand s fAUX_LOS n.val t)

/-- `AUX_LOS_RECOVER` (R165). DEDUCED: an input whose initial calibration is not complete goes back to SKEW_WAIT (R160). -/
def execAuxLosRecover (t : Time) (n : AuxIx) (s : State) : Out :=
  event s t (fun s => auxOn s n.val && decide ((s.auxIn n.val).st = .los)) (fun s =>
    let ready := decide (auxRate s n.val ≤ 1500) || (List.range (auxLanes s n.val)).all (fun k => (s.auxIn n.val).skewed.contains k)
    let s := s.modAux n.val (fun a =>
      if ready then { a with st := .run, losLane := 0, vcs := a.vcs.map (enterRun t) }
      else { a with st := .skewWait, losLane := 0 })
    unstand s fAUX_LOS n.val t)

/-- `AUX_LATE` (R169): in RUN and in LOS alike, from the previous Frame Start or from the entry to RUN. -/
def execAuxLate (t : Time) (n : AuxIx) (vc : Fin 4) (s : State) : Out :=
  event s t (fun s =>
      let c := s.auxVc n.val vc.val
      auxOn s n.val && decide (auxDt s n.val vc.val ≠ 0) && !c.late &&
      (match c.lastFs with | some f => decide (f + c.act.getD 8 0 * 100 * us < t) | none => false))
    (fun s =>
      let s := s.modVc n.val vc.val (fun c => { c with late := true })
      let s := s.bump (aAUX_VC_FCNT n.val vc.val) 31 24 1
      (streamViews s n.val vc.val).foldl (fun s k => missFrame s k ((s.auxVc n.val vc.val).count + 1) 5 t) s)

/-! ## Statistics (R152 to R154, R174) -/

/-- Channel of sample `i` of row `y`, as a place in the record: R, Gr, Gb, B, or Y, Cb, Cr. -/
def auxChan (dt bayer i y : Nat) : Nat :=
  if dtYuv dt then (if i % 2 = 1 then 0 else if i % 4 = 0 then 1 else 2)
  else chanOf (i + bayer % 2) (y + bayer / 2)

/-- The samples of a record with their pixel column, row and channel. -/
def auxSamples (dt bayer : Nat) (r : AuxStat) : List (Nat × Nat × Nat × Nat) :=
  r.lines.flatMap (fun l => l.2.zipIdx.map (fun x => (x.2 / dtParts dt, l.1, auxChan dt bayer x.2 l.1, x.1)))

/-- The 16-bit values of a row of samples after stage 2, under the frame's soft configuration (R173); a short line is padded for its neighbours' sake. -/
def statRow (s : State) (n : Nat) (r : AuxStat) (got : List Nat) : List Nat :=
  let dt := auxDt s n r.vc
  let x := got ++ List.replicate (auxW s n r.vc * dtParts dt - got.length) (r.act.getD 5 0 % 2 ^ dtBits dt)
  let y :=
    if dtRaw dt then
      let y := x.map (auxStage2 (dtBits dt) (r.act.getD 6 0) (r.act.getD 7 0))
      if r.act.getD 1 0 = 1 then auxDdc y (r.act.getD 4 0) (r.act.getD 3 0) else y
    else x.map (fun v => v * 2 ^ (16 - dtBits dt))
  y.take got.length

/-- The record of a frame. DESIGN CHOICE: saturated values stay out of a zone's means, as R117 leaves them out for the array (log entry 36). -/
def auxRecord (s : State) (n : Nat) (r0 : AuxStat) : StatRec :=
  let r := { r0 with lines := r0.lines.map (fun l => (l.1, statRow s n r0 l.2)) }
  let dt := auxDt s n r.vc
  let w := auxW s n r.vc
  let h := auxH s n r.vc
  let px := auxSamples dt (auxBayer s n r.vc) r
  let zone (k m : Nat) : List Byte :=
    let z := px.filter (fun p => decide (2 * (k * w / 32) ≤ p.1 ∧ p.1 < 2 * ((k + 1) * w / 32) ∧ 2 * (m * h / 24) ≤ p.2.1 ∧ p.2.1 < 2 * ((m + 1) * h / 24)))
    (List.range 4).flatMap (fun c =>
      let v := (z.filter (fun p => decide (p.2.2.1 = c ∧ p.2.2.2 ≠ 0xFFFF))).map (fun p => p.2.2.2)
      leBytes 3 (min 0xFFFFFF (meanOf (256 * sumL v) v.length))) ++
    leBytes 3 (countIf (fun p : Nat × Nat × Nat × Nat => decide (p.2.2.2 = 0xFFFF)) z % 2 ^ 19 + 2 ^ 23) ++ [0]
  let chan := (List.range 4).map (fun c =>
    (px.filter (fun p => decide (p.2.2.1 = c))).foldl (fun hst p => histAdd hst (p.2.2.2 / 256) 1 32) [])
  let head := [byte (n + 1), 1, 0, 0] ++ leBytes 4 r.frame ++ leBytes 8 r.fsD ++ leBytes 2 192 ++ [byte (4 * b2n s.sec.untrusted), 0] ++
    leBytes 4 7200 ++ zeros 8
  { src := n + 1, frame := r.frame, id := 0, gov := [], chan := chan, at_ := s.clk.now
    bytes := head ++ (List.range 12).flatMap (fun m => (List.range 16).flatMap (fun k => zone k m)) ++
      (List.range 4).flatMap (fun c => histBytes (chan.getD c []) 256 4) }

/-- `AUX_STATS_COMPLETE` (R174). -/
def execAuxStatsComplete (t : Time) (n : AuxIx) (s : State) : Out :=
  let ready (r : AuxStat) : Bool := match r.endAt with | some e => decide (e ≤ t) | none => false
  event s t (fun s => (s.auxIn n.val).stat.any ready) (fun s =>
    match (s.auxIn n.val).stat.find? ready with
    | some r =>
      let rec_ := auxRecord s n.val r
      let s := s.modAux n.val (fun a => { a with stat := removeFirst ready a.stat })
      sendStats (keepStats s rec_) r.takers rec_
    | none => s)

/-! ## Commands (R176 to R178) -/

/-- The checks of one stream section. DEDUCED: the fields of a disabled stream may be 0. -/
def streamChecks (p : List Byte) (v : Nat) : List (Option Reject) :=
  let o := 16 + 16 * v
  let dt := u8 p o
  let rng (off lo hi : Nat) (even : Bool) : Option Reject :=
    let x := u16 p off
    argOk ((decide (lo ≤ x ∧ x ≤ hi) && (!even || decide (x % 2 = 0))) || (decide (dt = 0) && decide (x = 0))) off
  [argOk (decide (dt = 0) || dtKnown dt) o, argOk (decide (u8 p (o + 1) ≤ 3) && (dtRaw dt || decide (dt = 0) || decide (u8 p (o + 1) = 0))) (o + 1),
   rng (o + 2) 16 8192 true, rng (o + 4) 2 8192 true, reserved p (o + 6) 2, rng (o + 8) 100 65535 false, rng (o + 10) 10 65535 false,
   reserved p (o + 12) 4]

/-- The physical lanes of the lanes in use differ (R164). -/
def mapOk (map lanes : Nat) : Bool := ((List.range lanes).map (fun k => map / 4 ^ k % 4)).Nodup

/-- The registers of an input as a payload sets them. -/
def auxRegs (n : Nat) (p : List Byte) : List (Nat × Nat) :=
  let fl := u8 p 1
  let lanes := if u8 p 2 = 4 then 2 else if u8 p 2 = 2 then 1 else 0
  [(aAUX_CTL n, bits fl 0 0 + lanes * 2 + bits fl 1 1 * 16 + bits fl 2 2 * 32 + bits fl 4 3 * 64 + u16 p 6 * 65536),
   (aAUX_LANE n, u8 p 3 + bits (u8 p 4) 3 0 * 256 + bits (u8 p 4) 4 4 * 4096), (aAUX_PAD n, u16 p 8), (aAUX_BLK n, u16 p 10 + u16 p 12 * 65536),
   (aAUX_DDC n, u16 p 14 + u8 p 5 * 65536)] ++
  (List.range 4).flatMap (fun v =>
    let o := 16 + 16 * v
    [(aAUX_VC_CFG n v, u8 p o + u8 p (o + 1) * 256), (aAUX_VC_GEOM n v, u16 p (o + 2) + u16 p (o + 4) * 65536),
     (aAUX_VC_TIME n v, u16 p (o + 8) + u16 p (o + 10) * 65536)])

/-- Bits of an input's configuration register that are hard fields (R177). -/
def auxHardBits (n a v : Nat) : Nat :=
  if a = aAUX_CTL n then v % 8 + v / 65536 * 65536
  else if a = aAUX_PAD n ∨ a = aAUX_BLK n ∨ a = aAUX_DDC n then 0
  else if (List.range 4).any (fun k => aAUX_VC_TIME n k = a) then v % 65536
  else v

/-- The new register values change a hard field. -/
def auxHardChange (s : State) (n : Nat) (l : List (Nat × Nat)) : Bool :=
  l.any (fun x => decide (auxHardBits n x.1 x.2 ≠ auxHardBits n x.1 (s.reg x.1)))

/-- Put register values and let them take effect. -/
def auxApply (s : State) (n : Nat) (l : List (Nat × Nat)) (stamp t : Time) : State :=
  let hard := auxHardChange s n l
  auxConfigured (l.foldl (fun s x => s.setReg x.1 x.2) s) n stamp hard t

/-- `CONFIG_AUX` (R176, R177). -/
def execConfigAux (c : Call) (s : State) : Out :=
  let p := c.payload
  let n := u8 p 0
  command s c 0x0400 .fast (fun s =>
      [lenIs c 80, needLease s c (lAX (min n 3)), argZero c, argOk (decide (n ≤ 3)) 0, reservedBits p 1 0xE0,
       argOk (decide (u8 p 2 = 1 ∨ u8 p 2 = 2 ∨ u8 p 2 = 4)) 2, argOk (mapOk (u8 p 3) (u8 p 2)) 3, reservedBits p 4 0xE0,
       argOk (decide (80 ≤ u16 p 6 ∧ u16 p 6 ≤ 4500)) 6] ++ (List.range 4).flatMap (streamChecks p) ++
      [need (!(auxHardChange s n (auxRegs n p) && auxInUse s n)) .badState])
    (fun s => okWith (auxApply s n (auxRegs n p) c.stamp c.start) c 0x0400 .fast [])

def AuxSt.code : AuxSt → Nat | .off => 0 | .skewWait => 1 | .run => 2 | .los => 3

/-- `AUX_STATUS` (R178). -/
def execAuxStatus (c : Call) (s : State) : Out :=
  let n := u8 c.payload 0
  command s c 0x0401 .fast (fun _ => [lenIs c 4, argZero c, argOk (decide (n ≤ 3)) 0, reserved c.payload 1 3]) (fun s =>
    let a := s.auxIn n
    okWith s c 0x0401 .fast ([byte n, byte a.st.code, byte a.losLane, 0] ++ leBytes 4 (s.reg (aAUX_ERR n)) ++ leBytes 4 (s.reg (aAUX_LBUF n)) ++
      zeros 4 ++ (List.range 4).flatMap (fun v =>
        let x := s.auxVc n v
        leBytes 4 x.count ++ leBytes 2 (s.reg (aAUX_VC_MEAS n v)) ++
        [byte x.lastFlags, byte (b2n (decide (auxDt s n v ≠ 0)) + 2 * b2n x.late + 4 * b2n x.openAt.isSome)])))

end Sys2Proof.Machine
end

