-- ==== Sys2Proof/Machine/HoldOps.lean ====
section
/-! DEFINITION. The hold-up charger and the lamps (R236 to R243, R249, R250). -/

namespace Sys2Proof.Machine

def State.modHold (s : State) (f : Hold → Hold) : State := { s with hold := f s.hold }

/-! ## Settings and limits (R236, R239, R240, R249) -/

def huEn (s : State) : Bool := decide (s.fld aHOLD_CTL 0 0 = 1)
def huTarget (s : State) : Nat := s.fld aHOLD_CFG 15 0
def huCnom (s : State) : Nat := s.fld aHOLD_CFG 31 16

/-- Input limit of a source class, mA. -/
def classLimit (k : Nat) : Nat := if k = 1 then 100 else if k = 2 then 400 else 0

/-- ILIM: the class limit, or the configured one when that is lower. -/
def huIlim (s : State) : Nat :=
  let c := classLimit s.hold.srcClass
  let l := s.fld aHOLD_ILIM 15 0
  if l = 0 then c else min c l

/-- The effective target: 0.10 V lower in the window from 70 to 85 °C. -/
def effTarget (s : State) : Nat := if s.hold.zone = 3 then huTarget s - 100 else huTarget s

def charging (h : Hold) : Bool := decide (h.phase = .pre ∨ h.phase = .fast ∨ h.phase = .taper ∨ h.phase = .maintain)

/-- The present input limit: PRE at 10 %, half current below 0 °C, and 25 % less for each system-priority step. -/
def ilimEff (s : State) : Nat :=
  if !charging s.hold then 0
  else
    let l := huIlim s
    let k := if s.hold.phase = .pre then l / 10 else l
    min (if s.hold.zone = 1 then k / 2 else k) (l * (4 - s.hold.steps) / 4)

/-- Q_B in mC. -/
def budget (s : State) : Nat := 15 * huCnom s * huTarget s / 100

/-- CAP_EST in 0.1 F. -/
def capEst (h : Hold) : Nat := if h.caps.isEmpty then 0 else sumL h.caps / h.caps.length

/-- Energy above 0.60 V in mJ. DESIGN CHOICE: with CAP_EST, and with `C_NOM` while there is none. -/
def eAvail (s : State) : Nat :=
  let c := if s.hold.caps.isEmpty then huCnom s else capEst s.hold
  c * (s.hold.ocv * s.hold.ocv - 360000) / 20000

/-- Source class of a HU_SRC reading in 100 Ω, and its fault. -/
def srcClassOf (r : Nat) : Nat × Option Nat :=
  if r < 10 then (3, some 2) else if 68 ≤ r ∧ r ≤ 150 then (1, none) else if 330 ≤ r ∧ r ≤ 680 then (2, none)
  else if 4700 < r then (0, none) else (3, some 3)

/-! ## Faults and READY (R240, R241, R250) -/

def holdFault (s : State) (k : Nat) (t : Time) : State :=
  let s := if s.hold.faults.contains k then s else s.modHold (fun h => { h with faults := h.faults ++ [k] })
  stand s (fHOLD k) 0 t

def holdClear (s : State) (k : Nat) (t : Time) : State :=
  unstand (s.modHold (fun h => { h with faults := h.faults.filter (fun x => decide (x ≠ k)) })) (fHOLD k) 0 t

def holdFaultIf (s : State) (k : Nat) (bad : Bool) (t : Time) : State := if bad then holdFault s k t else holdClear s k t

/-- READY, and the fault HU_READY where a valid class is not READY. -/
def updateReady (s : State) (t : Time) : State :=
  let r := holdupValid s && s.hold.faults.isEmpty && decide (9 * effTarget s ≤ 10 * s.hold.ocv)
  let s := s.modHold (fun h => { h with ready := r })
  if holdupValid s && !r then stand s fHU_READY 0 t else unstand s fHU_READY 0 t

/-! ## Phases (R238) -/

/-- A pulse begins. -/
def beginPulse (s : State) (t : Time) : State := s.modHold (fun h => { h with pulse := true, pulseAt := t, preOcv := h.ocv })

def setPhase (s : State) (p : ChgPhase) : State := s.modHold (fun h => { h with phase := p })

/-- Charging stops for a fault of the phase FAULT. -/
def chargeFault (s : State) (k : Nat) (t : Time) : State :=
  holdFault ((setPhase s .fault).modHold (fun h => { h with pulse := false })) k t

def phaseByOcv (h : Hold) : ChgPhase := if h.ocv < 500 then .pre else .fast

/-- A suspend window or the NTC fault. -/
def mustSuspend (h : Hold) : Bool := decide (h.zone = 0 ∨ h.zone = 4) || h.faults.contains 4

/-- SUSPEND is entered or left. -/
def applySuspend (s : State) (t : Time) : State :=
  let h := s.hold
  if mustSuspend h then
    if charging h || decide (h.phase = .done) then (setPhase s .suspend).modHold (fun h => { h with pulse := false }) else s
  else if h.phase = .suspend then beginPulse (setPhase s (phaseByOcv h)) t
  else s

/-- OVERVOLT: OCV more than 50 mV above the configured target, in any phase that may charge (R238). -/
def checkOvervolt (s : State) (t : Time) : State :=
  if huTarget s + 50 < s.hold.ocv ∧ s.hold.phase ≠ .off ∧ s.hold.phase ≠ .fault then chargeFault s 7 t else s

/-- OFF is left with EN set and a valid class: a charge cycle starts. -/
def startCharger (s : State) (t : Time) : State :=
  if decide (s.hold.phase = .off) && huEn s && holdupValid s then
    let s := (setPhase s (phaseByOcv s.hold)).modHold (fun h => { h with q := 0, lowPulses := 0 })
    checkOvervolt (applySuspend (beginPulse s t) t) t
  else s

/-- EN as it changes: 0 stops the charger, and 0 to 1 clears CHG_BUDGET and the count and starts a cycle (R240). -/
def enChanged (s : State) (was : Bool) (t : Time) : State :=
  let now := huEn s
  if !now then
    if s.hold.phase = .fault then s else (setPhase s .off).modHold (fun h => { h with pulse := false })
  else if was then s
  else
    let s := holdClear (holdClear s 1 t) 7 t
    let s := s.modHold (fun h => { h with q := 0 })
    let s := if s.hold.phase = .fault ∧ s.hold.srcClass ≠ 3 then setPhase s .off else s
    startCharger s t

/-! ## Temperature (R239) -/

/-- Bits below the point of log2 of `x` (1 to 2, in 2^-40), by squaring. -/
def log2Bits : Nat → Nat → Nat
  | 0, _ => 0
  | n + 1, x =>
    let y := x * x / 2 ^ 40
    if 2 ^ 41 ≤ y then 2 ^ n + log2Bits n (y / 2) else log2Bits n y

/-- ln of a ratio of numbers, in 2^-32. -/
def lnRatio (a b : Nat) : Int :=
  let k : Int := (Nat.log2 a : Int) - (Nat.log2 b : Int)
  let x := a * 2 ^ 40 * 2 ^ Nat.log2 b / (b * 2 ^ Nat.log2 a)
  let (k, x) := if x < 2 ^ 40 then (k - 1, 2 * x) else (k, x)
  (k * 2 ^ 32 + log2Bits 32 x) * 2977044472 / 2 ^ 32

/-- Store temperature in 1/8 °C of a thermistor reading: 1/T = 1/298.15 K + ln(R / 10 kΩ) / NTC_B, to the nearest step with an error of at most
one (log entry 17). -/
def ntcTemp (ohm b : Nat) : Int :=
  let inv : Rat := 100 / 29815 + (lnRatio ohm 10000 : Rat) / (2 ^ 32 * max b 1 : Nat)
  let v := if inv ≤ 0 then 32767 else (8 / inv - 8 * 27315 / 100 + 1 / 2).floor
  max (-32768) (min 32767 (v + (Config.ntcErr ohm b).val - 1))

/-- The window of a reading in 1/8 °C. A window further from 0 to 70 °C is entered at its bound, and left 2 °C inside the next. -/
def nextZone (z : Nat) (t : Int) : Nat :=
  let out := if t < -320 then 0 else if t < 0 then 1 else if t < 560 then 2 else if t ≤ 680 then 3 else 4
  let back := if t < -304 then 0 else if t < 16 then 1 else if t < 544 then 2 else if t < 664 then 3 else 4
  let backLow := if t < -304 then 0 else if t < 16 then 1 else 2
  if z < 2 then (if out < z then out else if 2 < out then out else max z (min backLow 2))
  else if 2 < z then (if z < out then out else if out < 2 then out else max 2 (min z back))
  else out

/-- A reading of HU_NTC. -/
def readNtc (s : State) (ohm : Nat) (t : Time) : State :=
  let bad := decide (1000000 < ohm ∨ ohm < 200)
  let s := holdFaultIf s 4 bad t
  let s := s.modHold (fun h => { h with ntcAt := t })
  let s := if bad then s
    else
      let v := ntcTemp ohm (s.fld aHOLD_NTC 31 16)
      s.modHold (fun h => { h with temp := v, zone := nextZone h.zone v })
  updateReady (applySuspend s t) t

/-! ## Boot (R236) -/

/-- HU_SRC, the store and HU_NTC are read at boot and at Dawn, and the charger starts. -/
def holdBoot (s : State) (t : Time) : State :=
  let e := s.pw.env
  let (k, f) := srcClassOf e.huSrc
  let z := if e.ntc < -320 then 0 else if e.ntc < 0 then 1 else if e.ntc < 560 then 2 else if e.ntc ≤ 680 then 3 else 4
  let s := { s with hold := { Hold.reset with
    srcClass := k, srcR := min 0xFFFF e.huSrc, ocv := e.ocv, temp := e.ntc, zone := z, ntcAt := t
    duskUs := s.hold.duskUs, duskUj := s.hold.duskUj, buoyMs := s.hold.buoyMs, duskAt := s.hold.duskAt
    commitAt := s.hold.commitAt, duskCause := s.hold.duskCause, result := s.hold.result, recovered := s.hold.recovered
    dawnOcv := s.hold.dawnOcv, pasr := s.hold.pasr, keepBin := s.hold.keepBin } }
  let s := [1, 2, 3, 4, 5, 6, 7].foldl (fun s k => holdClear s k t) s
  let s := match f with
    | some k => chargeFault s k t
    | none => s
  updateReady (startCharger s t) t

/-! ## Lamps (R242, R243) -/

/-- Pattern of STAT0 (0) and STAT1 (1). -/
def lampPattern (s : State) (pin : Nat) : Nat :=
  let host := decide (s.fld aHOLD_CTL 1 1 = 1)
  let buoy := decide (s.pw.st = .buoy)
  if s.pw.st = .off then 0
  else if host then (if buoy then 0 else if pin = 0 then s.fld aHOLD_CTL 10 8 else s.fld aHOLD_CTL 14 12)
  else if pin = 0 then
    if buoy then 0
    else if decide (s.hold.phase = .fault) || s.hold.faults.contains 5 || s.hold.faults.contains 6 then 3
    else if s.hold.srcClass = 0 then 0
    else if s.hold.ready then 1
    else 2
  else if buoy then (if s.hold.pasr ≠ 0 then 6 else 0)
  else if s.ring.full || s.ring.memStop || (decide (s.ring.nAs ≠ 0) && isFrozen s.mem) then 3
  else if !noSealed s then 5
  else if ringStateCode s = 1 then 1
  else 0

/-- Whether a pattern sinks current at an instant. DESIGN CHOICE: patterns run from the model's time origin. -/
def patternOn (code : Nat) (t : Time) : Bool :=
  match code with
  | 1 => true
  | 2 => decide (t % sec < sec / 2)
  | 3 => decide (t % (250 * ms) < 125 * ms)
  | 4 => decide (t % (2 * sec) < 100 * ms)
  | 5 => decide (t % (2 * sec) < 100 * ms) || (decide (200 * ms ≤ t % (2 * sec)) && decide (t % (2 * sec) < 300 * ms))
  | 6 => decide (t % (5 * sec) < 20 * ms)
  | _ => false

end Sys2Proof.Machine
end

