-- ==== Sys2Proof/Machine/HoldCmds.lean ====
section
/-! DEFINITION. Events and commands of the hold-up charger and the lamps (R237 to R243, R249, R250). -/

namespace Sys2Proof.Machine

/-- The Keeper's and charger's events need VIO. -/
def powered (s : State) : Bool := !decide (s.pw.st = .off ∨ s.pw.st = .dusk ∨ s.pw.st = .buoy)

/-- `CHARGER_VIO_SAMPLE` (R237). -/
def execChargerVioSample (t : Time) (mv : Nat) (s : State) : Out :=
  event s t powered (fun s => s.modHold (fun h =>
    let low := decide (mv < 1740)
    { h with
      vioLow := low, downAt := if low && !h.vioLow then t else h.downAt
      vioHighSince := if 1760 ≤ mv then (match h.vioHighSince with | some a => some a | none => some t) else none }))

/-- `CHARGER_LIMIT_DOWN` (R237). DEDUCED: the first step comes 50 µs after the sample that was low. -/
def execChargerLimitDown (t : Time) (s : State) : Out :=
  event s t (fun s => powered s && s.hold.vioLow && decide (s.hold.steps < 4) && decide (s.hold.downAt + 50 * us ≤ t))
    (fun s => s.modHold (fun h => { h with steps := h.steps + 1, downAt := t }))

/-- `CHARGER_LIMIT_UP` (R237). -/
def execChargerLimitUp (t : Time) (s : State) : Out :=
  event s t (fun s => powered s && decide (0 < s.hold.steps) &&
      (match s.hold.vioHighSince with | some a => decide (a + 10 * ms ≤ t) | none => false))
    (fun s => s.modHold (fun h => { h with steps := h.steps - 1, vioHighSince := some t }))

/-- `CHARGER_REST_START` (R238, R240, R241): 900 ms into the pulse, with its charge and its ESR estimate. -/
def execChargerRestStart (t : Time) (mean dq v1 iOut : Nat) (s : State) : Out :=
  event s t (fun s => powered s && charging s.hold && s.hold.pulse && decide (s.hold.pulseAt + 900 * ms ≤ t)) (fun s =>
    let taper := decide (s.hold.phase = .taper ∨ s.hold.phase = .maintain)
    let low := decide (10 * mean < huIlim s)
    let s := s.modHold (fun h => { h with
      pulse := false, pulseAt := t, iIn := mean, q := h.q + dq, pulseQ := dq
      esr := if iOut = 0 then h.esr else min 65535 ((v1 - h.preOcv) * 1000 / iOut)
      lowPulses := if taper && low then h.lowPulses + 1 else 0 })
    updateReady (holdFaultIf s 6 (decide (s.fld aHOLD_ILIM 31 16 < s.hold.esr)) t) t)

/-- A measured OCV, and OVERVOLT (R238). -/
def measureOcv (s : State) (ocv : Nat) (t : Time) : State := checkOvervolt (s.modHold (fun h => { h with ocv := ocv })) t

/-- Three pulses below ILIM/10 end TAPER and MAINTAIN; 0.5 V ends PRE (R238). -/
def phaseMove (s : State) (t : Time) : State :=
  let h := s.hold
  match h.phase with
  | .pre => if 500 ≤ h.ocv then setPhase s .fast else s
  | .taper | .maintain =>
    if 3 ≤ h.lowPulses then (setPhase s .done).modHold (fun h => { h with q := 0, pulseQ := 0, lowPulses := 0, pulseAt := t, iIn := 0 })
    else s
  | _ => s

/-- `CHARGER_PULSE_END` (R238 to R241): the 100 ms rest ends. -/
def execChargerPulseEnd (t : Time) (ocv ohm : Nat) (s : State) : Out :=
  event s t (fun s => powered s && charging s.hold && !s.hold.pulse && decide (s.hold.pulseAt + 100 * ms ≤ t)) (fun s =>
    let h := s.hold
    let s := if h.phase = .fast ∧ h.preOcv + 10 ≤ ocv then
        s.modHold (fun h => { h with caps := (min 65535 (10 * h.pulseQ / (ocv - h.preOcv)) :: h.caps).take 8 })
      else s
    let s := measureOcv s ocv t
    let s := if s.hold.caps.isEmpty then s else holdFaultIf s 5 (decide (10 * capEst s.hold < 6 * huCnom s)) t
    let s := if charging s.hold && decide (budget s < s.hold.q) then chargeFault s 1 t else s
    let s := if charging s.hold then phaseMove s t else s
    let s := readNtc s ohm t
    if charging s.hold && !s.hold.pulse then beginPulse s t else s)

/-- `CHARGER_OCV_CHECK` (R238). -/
def execChargerOcvCheck (t : Time) (ocv : Nat) (s : State) : Out :=
  event s t (fun s => powered s && decide (s.hold.phase = .done) && decide (s.hold.pulseAt + 10 * sec ≤ t)) (fun s =>
    let s := (measureOcv s ocv t).modHold (fun h => { h with pulseAt := t })
    let s := if s.hold.phase = .done ∧ 100 * ocv < 97 * effTarget s then
        beginPulse ((setPhase s .maintain).modHold (fun h => { h with q := 0, lowPulses := 0 })) t
      else s
    updateReady s t)

/-- `CHARGE_BUDGET_EXCEEDED` (R240). -/
def execChargeBudgetExceeded (t : Time) (dq : Nat) (s : State) : Out :=
  event s t (fun s => powered s && charging s.hold && s.hold.pulse && decide (budget s < s.hold.q + dq)) (fun s =>
    updateReady (chargeFault (s.modHold (fun h => { h with q := h.q + dq })) 1 t) t)

/-- `CHARGE_TARGET_REACHED` (R238). -/
def execChargeTargetReached (t : Time) (mv : Nat) (s : State) : Out :=
  event s t (fun s => powered s && decide (s.hold.phase = .fast) && s.hold.pulse && decide (effTarget s ≤ mv)) (fun s =>
    (setPhase s .taper).modHold (fun h => { h with lowPulses := 0 }))

/-- `NTC_READ` (R239). -/
def execNtcRead (t : Time) (ohm : Nat) (s : State) : Out :=
  event s t (fun s => powered s && !charging s.hold && decide (s.hold.ntcAt + sec ≤ t)) (fun s => readNtc s ohm t)

/-- `LANTERN_PATTERN_TICK` (R242, R243). -/
def execLanternPatternTick (t : Time) (pin : Fin 2) (s : State) : Out :=
  event s t (fun _ => true) (fun s =>
    s.modHold (fun h => { h with lampOn := modAt h.lampOn pin.val (fun _ => patternOn (lampPattern s pin.val) t) }))

/-- Settings of the hold-up registers take effect (R240, R249, R252). -/
def holdApply (s : State) (ctl cfg ilim ntcB : Nat) (t : Time) : State :=
  let was := huEn s
  let s := (((s.setReg aHOLD_CTL ctl).setReg aHOLD_CFG cfg).setReg aHOLD_ILIM ilim).setFld aHOLD_NTC 31 16 ntcB
  updateReady (checkOvervolt (enChanged s was t) t) t

/-- The ranges of R249. DESIGN CHOICE: without a class the input limit may be up to 400 mA. -/
def holdIlimOk (s : State) (v : Nat) : Bool :=
  decide (v = 0 ∨ (10 ≤ v ∧ v ≤ (if classLimit s.hold.srcClass = 0 then 400 else classLimit s.hold.srcClass)))

/-- `CONFIG_HOLDUP` (R249). -/
def execConfigHoldup (c : Call) (s : State) : Out :=
  let pl := c.payload
  let inR (o lo hi : Nat) : Option Reject := argOk (decide (lo ≤ u16 pl o ∧ u16 pl o ≤ hi)) o
  command s c 0x0603 .fast (fun s => [lenIs c 16, needLeaseOrSafety s c lARRAY, argZero c, reservedBits pl 0 0xFC, reserved pl 1 1,
      inR 2 1200 1750, inR 4 10 500, argOk (holdIlimOk s (u16 pl 6)) 6, inR 8 2000 5000, argOk (decide (u8 pl 10 ≤ 6)) 10,
      argOk (decide (u8 pl 11 ≤ 6)) 11, inR 12 10 2000, reserved pl 14 2,
      need (!bit (u8 pl 0) 0 || decide (s.hold.srcClass ≠ 0)) .badState])
    (fun s =>
      let s := holdApply s (u8 pl 0 + u8 pl 10 * 256 + u8 pl 11 * 4096) (u16 pl 2 + u16 pl 4 * 65536)
        (u16 pl 6 + u16 pl 12 * 65536) (u16 pl 8) c.start
      okWith s c 0x0603 .fast [])

/-- `HOLDUP_STATUS` (R250). -/
def execHoldupStatus (c : Call) (s : State) : Out :=
  command s c 0x0602 .fast (fun _ => [lenIs c 0, argZero c]) (fun s =>
    let h := s.hold
    okWith s c 0x0602 .fast ([byte h.phase.code, byte h.srcClass, byte (h.faults.headD 0),
      byte (b2n h.ready + 2 * b2n (decide (h.zone = 3)) + 4 * b2n (decide (0 < h.steps)) + 8 * b2n (decide (h.zone = 1)))] ++
      leBytes 2 h.ocv ++ leBytes 2 (effTarget s) ++ leBytes 2 h.iIn ++ leBytes 2 (ilimEff s) ++ leBytes 2 h.esr ++
      leBytes 2 (capEst h) ++ leBytes 2 (unsigned 16 h.temp) ++ [0, 0] ++ leBytes 4 h.q ++ leBytes 4 (budget s) ++
      leBytes 4 (eAvail s)))

end Sys2Proof.Machine
end

