-- ==== Sys2Proof/Machine/MemOps.lean ====
section
/-! DEFINITION. The operations of the frame memory controller: queues, tokens, the pick, the ECC cache, freezes, sweeps and bin changes (R183,
R189 to R214). -/

namespace Sys2Proof.Machine

/-- The time that the two bursts of a unit access take the data bus (R182). -/
def busTime (bin : Nat) : Time := if bin = 0 then 10 else if bin = 1 then 9 else 8

/-- The activates of a requester in a bank are held back (R202). -/
def heldBack (m : Mem) (c i q : Nat) (t : Time) : Bool :=
  m.throttles.any (fun h => h.cls = c && h.inst = i && h.q = q && decide (t < h.lastAct + 8 * m.tim.rc)) ||
  (m.bankThrottle.contains q && decide (c ≠ 5) &&
    (match (bankOf m q).lastAct with | some a => decide (t < a + 8 * m.tim.rc) | none => false))

/-- An older entry to the same unit waits (R191). -/
def olderSame (m : Mem) (e : MemEnt) (before : List MemEnt) : Bool :=
  m.dies.any (fun x => decide (x.d = e.d)) || m.await.any (fun x => decide (x.1.d = e.d)) || before.any (fun x => decide (x.d = e.d))

/-- Bank and rank take an activate: R183, no refresh in progress, none overdue, and no power-down (R192, R194, R195). -/
def bankReady (m : Mem) (q : Nat) (t : Time) : Bool :=
  let b := bankOf m q
  let k := rankOf m (scOf q) (rankIx q)
  (match b.lastAct with | some a => decide (a + m.tim.rc ≤ t) | none => true) && decide (b.busyTill ≤ t) && decide (b.owed < 8) &&
  !k.down && decide (k.wakeAt ≤ t) && (match k.acts with | a :: _ => decide (a + m.tim.rrd ≤ t) | [] => true) &&
  (match k.acts[3]? with | some a => decide (a + m.tim.faw ≤ t) | none => true)

/-- The data bus of a sub-channel takes an access: the bursts before it are over, and a turn of direction has its time (R182, R183). -/
def busReady (m : Mem) (sc : Nat) (w : Bool) (t : Time) : Bool :=
  let c := subOf m sc
  match c.lastWrite with
  | none => true
  | some p => decide (c.lastAt + busTime m.bin + (if p = w then 0 else if p then m.tim.wtr else m.tim.rtw) ≤ t)

/-- Bank, rank and bus meet R183, and no refresh is in progress or overdue (R192, R194). -/
def timingOk (m : Mem) (e : MemEnt) (t : Time) : Bool := decide (e.at_ ≤ t) && bankReady m e.q t && busReady m (scOf e.q) (busWrite e) t

/-- Entries of a sub-channel that are eligible, oldest first. -/
def eligible (s : State) (sc : Nat) (t : Time) : List MemEnt :=
  let m := s.mem
  let mode := writeModeAt s sc
  (m.queue.zipIdx.filter (fun x => decide (scOf x.1.q = sc) && !olderSame m x.1 (m.queue.take x.2) && timingOk m x.1 t &&
    !heldBack m x.1.cls x.1.inst x.1.q t && (x.1.aged || decide (x.1.op.isWrite = mode)))).map (fun x => x.1)

/-- The pick, and whether the rotating pointer made it. -/
def pickOf (s : State) (sc : Nat) (t : Time) : Option (MemEnt × Bool) :=
  let l := eligible s sc t
  match l.find? (fun e => e.aged) with
  | some e => some (e, false)
  | none =>
    let p := (subOf s.mem sc).ptr
    ((List.range 32).findSome? (fun k => l.find? (fun e => decide (e.q % 32 = (p + 1 + k) % 32)))).map (fun e => (e, true))

/-- An entry of a rank waits in a queue (R195). -/
def rankWaits (m : Mem) (q : Nat) : Bool :=
  (m.queue.map (fun e => e.q) ++ m.ckq.map (fun k => k.q)).any (fun x => decide (scOf x = scOf q ∧ rankIx x = rankIx q))

/-- An access takes the data bus of its sub-channel, and its rank is idle from here where nothing else waits for it (R182, R195). -/
def takeBus (m : Mem) (q : Nat) (w : Bool) (t : Time) : Mem :=
  let k := rankOf m (scOf q) (rankIx q)
  { setRank m { k with idleFrom := if rankWaits m q then k.idleFrom else t } with
    subs := modAt m.subs (scOf q) (fun c => { c with lastWrite := some w, lastAt := t }) }

/-- An access is issued: an activate of its row in its bank (R182, R183, R192). -/
def issue (s : State) (e : MemEnt) (rotating : Bool) (t : Time) : State :=
  let sc := scOf e.q
  let s := s.modMem (fun m => takeBus { m with
    queue := removeFirst (fun x => x = e) m.queue, dies := m.dies ++ [e]
    subs := modAt m.subs sc (fun c => { c with ptr := if rotating then e.q % 32 else c.ptr }) } e.q (busWrite e) t)
  activate (settleMode s sc) e.cls e.inst e.q (place s.mem.map e.d).2.1 t t

/-! ## The ECC cache (R197) -/

def eccLine (m : Mem) (sc b : Nat) : Option EccLine := m.ecc.find? (fun l => l.sc = sc && l.block = b)

/-- The device holds the check word of a unit: in the line of its block, or in one that is being written back. -/
def eccHolds (m : Mem) (d : Nat) : Bool :=
  let has (l : List (Nat × Nat)) : Bool := l.any (fun w => decide (w.1 = d % 16))
  (match eccLine m (scOf (queueOf m.map d)) (d / 16) with
    | some l => has l.words
    | none => false) ||
  (m.ckq ++ m.ckd).any (fun k => decide (k.block = d / 16) && (match k.words with | some w => has w | none => false))

/-! ## The check-unit queue (R197) -/

/-- Entries of the check-unit queue of a sub-channel; it has room for one more. -/
def ckCount (m : Mem) (sc : Nat) : Nat := countIf (fun k : CkEnt => decide (scOf k.q = sc)) (m.ckq ++ m.ckd)
def ckRoom (m : Mem) (sc : Nat) : Bool := decide (ckCount m sc < 8)

/-- Lines whose write-back is not done: they are dirty. -/
def dirtyLines (m : Mem) : Nat := m.ecc.length + countIf (fun k : CkEnt => k.words.isSome) (m.ckq ++ m.ckd)

/-- Bank queue of the check unit of a block. -/
def ckBank (m : Mem) (block : Nat) : Nat := queueOf m.map (16 * block + 15)

/-- An access to a check unit enters the queue, and its rank wakes (R195, R197). -/
def ckPush (m : Mem) (block : Nat) (words : Option (List (Nat × Nat))) (t : Time) : Mem :=
  wakeRank { m with ckq := m.ckq ++ [⟨block, ckBank m block, words, false, t⟩] } (ckBank m block) t

/-- The check unit of a block is fetched for reads: one fetch serves all that await it. -/
def ckFetch (m : Mem) (block : Nat) (t : Time) : Mem :=
  if (m.ckq ++ m.ckd).any (fun k => decide (k.block = block ∧ k.words = none)) then m else ckPush m block none t

/-- The next access writes: that of a whole line, or of a merge that is read (R197). -/
def ckWrites (k : CkEnt) : Bool := match k.words with | some w => k.half || decide (w.length = 15) | none => false

/-- A line leaves the cache to be written back. -/
def writeBack (m : Mem) (l : EccLine) (t : Time) : Mem :=
  ckPush { m with ecc := removeFirst (fun x => x = l) m.ecc } l.block (some l.words) t

/-- Lines are written back as far as the check-unit queues have room. -/
def flushLines (m : Mem) (p : EccLine → Bool) (t : Time) : Mem :=
  (m.ecc.filter p).foldl (fun m l => if ckRoom m l.sc then writeBack m l t else m) m

/-- The check-unit queues may issue: in RUN, in the flush of a bin change, and in that of a MEM_RECOVER (R199, R204, R207, R214). -/
def ckMayIssue (m : Mem) : Bool :=
  match m.st with
  | .run => true
  | .change => decide (m.prior ≠ .frozen) && !m.flushed
  | .frozen => m.recover.isSome
  | _ => false

/-- The oldest check-unit access of a sub-channel that may be issued: none to its unit is before it, and bank, bus and throttles allow it. -/
def ckPick (s : State) (sc : Nat) (t : Time) : Option CkEnt :=
  let m := s.mem
  if !ckMayIssue m then none
  else ((m.ckq.zipIdx.find? (fun x => decide (scOf x.1.q = sc) && !(m.ckd ++ m.ckq.take x.2).any (fun k => decide (k.block = x.1.block)) &&
    bankReady m x.1.q t && busReady m sc (ckWrites x.1) t && !heldBack m 5 2 x.1.q t)).map (fun x => x.1))

/-- A check-unit access is issued (R182, R183, R201). -/
def ckIssue (s : State) (k : CkEnt) (t : Time) : State :=
  let s := s.modMem (fun m => takeBus { m with
    ckq := removeFirst (fun x => x = k) m.ckq, ckd := m.ckd ++ [{ k with at_ := t }] } k.q (ckWrites k) t)
  activate s 5 2 k.q (place s.mem.map (16 * k.block + 15)).2.1 t t

/-! ## Lines of the cache -/

/-- The check word of a unit goes into the line of its block, which is taken where it has none. -/
def eccPut (m : Mem) (d word : Nat) (t : Time) : Mem :=
  let sc := scOf (queueOf m.map d)
  match eccLine m sc (d / 16) with
  | some _ => { m with ecc := m.ecc.map (fun l => if l.sc = sc ∧ l.block = d / 16 then
      { l with words := (d % 16, word) :: l.words.filter (fun w => decide (w.1 ≠ d % 16)), used := t } else l) }
  | none => { m with ecc := m.ecc ++ [⟨sc, d / 16, [(d % 16, word)], t⟩] }

/-- The line that a 65th of its sub-channel evicts: the one used least recently. -/
def eccVictim (m : Mem) (d : Nat) : Option EccLine :=
  let sc := scOf (queueOf m.map d)
  let mine := m.ecc.filter (fun l => decide (l.sc = sc))
  if (eccLine m sc (d / 16)).isSome ∨ mine.length < 64 then none
  else mine.foldl (fun a l => match a with
    | none => some l
    | some x => if l.used < x.used then some l else a) (none : Option EccLine)

def eccTouch (m : Mem) (d : Nat) (t : Time) : Mem :=
  let sc := scOf (queueOf m.map d)
  { m with ecc := m.ecc.map (fun l => if l.sc = sc ∧ l.block = d / 16 then { l with used := t } else l) }

/-! ## Freeze (R199, R504) -/

/-- Every spill fetch that is outstanding is lost (R111). -/
def loseFetches (s : State) : State :=
  { s with arr := { s.arr with eng := s.arr.eng.map (fun e => { e with asked := [], lostRows := e.lostRows ++ e.asked }) } }

/-- An uncorrectable result (R111, R198, R199). -/
def freeze (s : State) (check : Bool) (u syn c i : Nat) (rmw : Bool) (q : Nat) (t : Time) : State :=
  if isFrozen s.mem then s.bump aMEMC_ECC_UE 31 16 1
  else
    let s := s.setReg aDIAG_MEMF (2 ^ 31 + tokensHeld s.mem t * 2 ^ 19 + dirtyLines s.mem * 2 ^ 9)
    let s := s.modMem (fun m => if m.st = .run then { m with st := .frozen } else { m with prior := .frozen })
    let s := s.setReg aMEMC_ERR_ADDR (b2n check * 2 ^ 31 + 2 ^ 30 + u)
    let s := s.setReg aMEMC_ERR_INFO (syn % 256 * 2 ^ 24 + c * 2 ^ 21 + i * 2 ^ 13 + b2n rmw * 2 ^ 12 + q * 16)
    let s := s.bump aMEMC_ECC_UE 15 0 1
    dropRaster (stand (loseFetches s) fMEM_UE q t) t

/-! ## Seals (R197) -/

/-- A block lies in a range of units. -/
def blockIn (r : Nat × Nat) (b : Nat) : Bool := decide (r.1 < 15 * b + 15 ∧ 15 * b < r.2)

/-- A write into a range of units is not finished. -/
def sealWrites (m : Mem) (r : Nat × Nat) : Bool :=
  (m.wait ++ m.queue ++ m.dies ++ m.await.map (fun x => x.1)).any (fun e => e.op.isWrite && decide (r.1 ≤ unitOf e.d ∧ unitOf e.d < r.2))

/-- A seal is done: nothing of its range is left to write, nor is a line of it (R197). -/
def sealDone (m : Mem) (r : Nat × Nat) : Bool :=
  !sealWrites m r && !m.ecc.any (fun l => blockIn r l.block) && !(m.ckq ++ m.ckd).any (fun k => k.words.isSome && blockIn r k.block)

/-- The seals whose writes are done: the lines of each range are flushed, and where that is over the seal is acknowledged (R197). -/
def sealAcks (s : State) (t : Time) : State :=
  s.mem.seals.foldl (fun s r =>
    if isFrozen s.mem || sealWrites s.mem r then s
    else
      let s := s.modMem (fun m => flushLines m (fun l => blockIn r l.block) t)
      if sealDone s.mem r then s.modMem (fun m => { m with seals := removeFirst (fun x => x = r) m.seals }) else s) s

/-! ## Sweeps and bin changes (R203 to R208) -/

/-- The bin in use is the lower of the requested and the allowed one (R206). -/
def wantedBin (m : Mem) : Nat := min m.target m.cap

/-- A sweep starts at a bin. -/
def startSweep (s : State) (prior : MemSt) (b : Nat) : State := s.modMem (fun m => sweepFrom m prior b)

/-- The end of a MEM_RECOVER (R213). -/
def endRecover (s : State) (ok : Bool) (t : Time) : State :=
  match s.slow.find? (fun j => j.opcode = 0x0505) with
  | some j => complete s j.src 0x0505 j.tag (if ok then .ok else .fault) [] t
  | none => s

/-- Every request with a token is answered with a fault and frees it, and with `all` also those that wait at their requesters (R205, R214). -/
def failRequests (s : State) (all : Bool) : State :=
  let l := (memEntries s.mem ++ if all then s.mem.wait else []).filter (fun e => !e.moved)
  memAnswer (loseRequests s all) (l.map (fun e => ⟨e.cls, e.inst, e.d, .fault⟩))

/-- Frame memory is unavailable (R111, R205). -/
def memUnavail (s : State) (t : Time) : State :=
  let s := (loseFetches (failRequests s true)).modMem (fun m => { m with
    st := .unavail, ecc := [], ckq := [], ckd := [], sweepPend := false, changePend := false, initTill := none, recover := none })
  let s := stand s fMEM_UNAVAIL 0 t
  let s := ringStop (rasterToCreated s t)
  let s := allPorts.foldl (fun s p => abortBulk s p t) s
  endRecover s false t

/-- PLLM locks anew; where it enters FAIL, frame memory is unavailable (R391). -/
def relockPllm (s : State) (t : Time) : State :=
  let s := pllStart s 2 t
  if pllOf s 2 = .fail then memUnavail s t else s

/-- Steps 1 to 3 of a bin change: the ECC cache is flushed, but in FROZEN, and once that and the accesses at the dies are over PLLM relocks (R199,
R207). -/
def changeFlush (s : State) (t : Time) : State :=
  if s.mem.st = .change ∧ !s.mem.flushed then
    let hold := decide (s.mem.prior = .frozen)
    let s := if hold then s else s.modMem (fun m => flushLines m (fun _ => true) t)
    let m := s.mem
    if m.dies.isEmpty && m.ckd.isEmpty && (hold || (m.ecc.isEmpty && m.ckq.isEmpty)) then
      relockPllm (s.modMem (fun m => { m with flushed := true })) t
    else s
  else s

/-- A bin change is accepted (R207 step 1). -/
def acceptChange (s : State) (t : Time) : State :=
  let m := s.mem
  let prior := if m.st = .run ∨ m.st = .frozen then m.st else m.prior
  changeFlush (s.modMem (fun m => { m with
    st := .change, prior := prior, changeTo := wantedBin m, changeAt := t, changePend := false, flushed := false })) t

/-- A change is requested: it starts in RUN, and otherwise waits (R200, R206, R209). -/
def requestChange (s : State) (t : Time) : State :=
  let m := s.mem
  match m.st with
  | .run => if wantedBin m = m.bin then s else acceptChange s t
  | .init | .frozen | .train | .change => s.modMem (fun m => { m with changePend := true })
  | _ => s

/-- A cap below the bin in use forces a change, also in FROZEN and out of a sweep (R200, R206). A running change is followed by it. -/
def forceChange (s : State) (t : Time) : State :=
  let m := s.mem
  let bin := if m.st = .train then m.sweepBin else if m.st = .change then m.changeTo else m.bin
  if m.cap < bin then
    match m.st with
    | .run | .frozen | .train => acceptChange s t
    | .init | .change => s.modMem (fun m => { m with changePend := true })
    | _ => s
  else s

/-- The thermal cap changes (R206, R410, R412). -/
def setMemCap (s : State) (cap : Nat) (t : Time) : State :=
  let old := s.mem.cap
  let s := s.modMem (fun m => { m with cap := cap })
  if cap < old then forceChange s t else if old < cap then requestChange s t else s

/-- Step 5 of R214: the error record is cleared, and what stood for it ends. -/
def thawEnd (s : State) (t : Time) : State :=
  let s := ((s.setReg aMEMC_ECC_UE 0).setFld aMEMC_ERR_ADDR 30 30 0).setReg aDIAG_MEMF 0
  unstand (ringThaw s t) fMEM_UE (s.fld aMEMC_ERR_INFO 11 4) t

/-- The controller runs again: what waited goes on. -/
def memResume (s : State) (t : Time) : State :=
  let thawed := s.mem.recover.isSome
  let s := s.modMem (fun m => { m with st := .run, recover := none })
  let s := if thawed then thawEnd s t else s
  let s := unstand s fMEM_UNAVAIL 0 t
  let s := endRecover (admitWaiting s t) true t
  let s := allPorts.foldl (fun s p => bulkRefill s p t) s
  if s.mem.changePend && decide (wantedBin s.mem ≠ s.mem.bin) then acceptChange s t
  else
    let s := s.modMem (fun m => { m with changePend := false })
    if s.mem.sweepPend then startSweep s .run s.mem.bin else s

/-- The unit of a recorded failure, or the whole block of a check unit, is written as zeros with valid check words, by the firmware (R201, R214
step 3). What stood wrong there is gone with the writes that are on their way (log entry 87). -/
def poisonUnit (s : State) (t : Time) : State :=
  let u := s.fld aMEMC_ERR_ADDR 27 0
  let d := dramUnit u
  if s.fld aMEMC_ERR_ADDR 31 31 = 1 then
    (memStore s 5 0 (u / 15 * 15 * 64) (zeros 960) t).modMem (fun m => (List.range 16).foldl (fun m k => clearErrs m (d / 16 * 16 + k)) m)
  else (memStore s 5 0 (u * 64) (zeros 64) t).modMem (fun m => clearErrs m d)

/-- The end of a freeze (R214): once every line is written back and nothing is at the dies, the held requests are answered with faults, the unit
is poisoned, and the controller sweeps or resumes. Fetches of check units are dropped with the reads that await them. -/
def recoverStep (s : State) (t : Time) : State :=
  match s.mem.st, s.mem.recover with
  | .frozen, some f =>
    let s := s.modMem (fun m => flushLines { m with ckq := m.ckq.filter (fun k => k.words.isSome) } (fun _ => true) t)
    let m := s.mem
    if m.ecc.isEmpty && m.ckq.isEmpty && m.ckd.isEmpty && m.dies.isEmpty then
      let s := failRequests s false
      let s := if bit f 1 then poisonUnit s t else s
      if bit f 0 then startSweep s .run s.mem.bin else memResume s t
    else s
  | _, _ => s

/-- The state before a sweep or a change comes back. In FROZEN a further forced change is carried out, and a MEM_RECOVER goes on (R200, R214). -/
def memReturn (s : State) (t : Time) : State :=
  if s.mem.prior = .frozen then
    let s := s.modMem (fun m => { m with st := .frozen })
    if s.mem.cap < s.mem.bin then acceptChange s t else recoverStep s t
  else memResume s t

/-- °C of a reading in 1/8 °C. -/
def wholeC (v : Int) : Int := v / 8

/-- TS14 has moved by more than DRIFT since the last sweep (R204): a sweep starts, or waits for a freeze or a change to end. -/
def memDrift (s : State) (t14 : Int) : State :=
  if ((t14 - s.mem.lastT).natAbs : Nat) ≤ 8 * s.fld aMEMC_TRN 7 0 then s
  else match s.mem.st with
    | .run => startSweep s .run s.mem.bin
    | .frozen | .change => s.modMem (fun m => { m with sweepPend := true })
    | _ => s

/-- TS14, where it works. -/
def ts14 (s : State) : Option Int :=
  match s.th.sensors[14]? with
  | some x => if x.failed then none else some x.temp
  | none => none

/-- The refresh multiplier that TS14 asks for (R194). -/
def hotMul (s : State) : Nat :=
  match ts14 s with
  | some v => if 840 < v then 4 else if 680 < v then 2 else 1
  | none => 1

/-- The refresh multiplier in use: that of the dies' latest report, and at least that of TS14 (R194). -/
def setRefmul (s : State) : State := s.modMem (fun m => { m with refmul := max m.dieMul (hotMul s) })

/-! ## Demand (R210) -/

/-- Bytes each second of an amount per interval. -/
def perSecond (bytes : Nat) (iv : Time) : Nat := bytes * sec / max 1 iv

/-- The interval at which a view takes frames. -/
def viewInterval (s : State) (p : ViewP) : Time :=
  max 1 p.decim * (if p.source = 0 then admitPeriod s else auxFrameIv s (p.source - 1) p.vc)

/-- Bytes of `rows` lines of `n` bytes, one after another from a unit on, that lie in units which a line writes only in part: their writes are partial. -/
def partBytes (n rows : Nat) : Nat :=
  if n % 64 = 0 then 0
  else sumL ((List.range rows).map (fun i =>
    let a := i * n
    let whole := (a + n) / 64 - divCeil a 64
    if (a + n) / 64 < divCeil a 64 then n else n - 64 * whole))

/-- Demand of stores that a writer fills with frames of `rows` lines of `n` bytes in an interval. -/
def fillDemand (n rows : Nat) (iv : Time) : Nat :=
  (perSecond (n * rows) iv + perSecond (partBytes n rows) iv) * 16 / 15

/-- Bytes of a view's frame as its RASTER store holds it: lines of the window, which binning halves, or the stream's. -/
def storeSize (s : State) (p : ViewP) : Nat × Nat :=
  if p.source = 0 then
    let (_, _, sw, sh) := viewWin p s.arr.active.bin
    (sw * 3, sh)
  else (auxW s (p.source - 1) p.vc * dtHeld (auxDt s (p.source - 1) p.vc), p.height)

/-- Demand of the readback of a RASTER view, and of the writer of its own stores. -/
def storeDemand (s : State) (p : ViewP) : Nat :=
  if p.order ≠ 1 then 0
  else
    let (n, rows) := storeSize s p
    let iv := viewInterval s p
    perSecond (n * rows) iv * 16 / 15 + (if p.source = 0 then fillDemand n rows iv else 0)

/-- Demand of the writer of a stream's stores, which the RASTER views of the stream share and which takes every frame (R172). -/
def sharedDemand (s : State) (n v : Nat) : Nat :=
  fillDemand (auxW s n v * dtHeld (auxDt s n v)) (auxH s n v) (max 1 (auxFrameIv s n v))

/-- Demand of the ring writer for a ring view, headers included: it writes whole blocks. -/
def ringDemand (s : State) (p : ViewP) : Nat :=
  let (ow, oh) := if p.source = 0 then (let (_, _, sw, sh) := viewWin p s.arr.active.bin; if isSamples p then (sw, sh) else outSize p sw sh) else viewSize p
  perSecond (64 + oh * (8 + 8 * divCeil (viewLineBytes p ow (viewDt s p)) 8)) (viewInterval s p) * 16 / 15

/-- DEMAND in MB/s. DESIGN CHOICE: the configured users are the spill of the set in force, the RASTER views and the ring views that exist. -/
def memDemand (s : State) : Nat :=
  let g := s.arr.active
  let nen := countIf (fun e => e) (enOf s g)
  let spill := perSecond (1536 * g.rows * g.qa (spillCount g) * nen) (admitPeriod s) * 16 / 15
  let views := s.pipe.views.zipIdx.filter (fun w => decide (w.1.st ≠ .free))
  let raster := views.filter (fun w => decide (w.1.p.order = 1))
  let streams := ((raster.filter (fun w => decide (w.1.p.source ≠ 0))).map (fun w => (w.1.p.source - 1, w.1.p.vc))).eraseDups
  let stores := sumL (raster.map (fun w => storeDemand s w.1.p)) + sumL (streams.map (fun x => sharedDemand s x.1 x.2))
  let ring := sumL ((views.filter (fun w => bit s.ring.views w.2 && decide (s.ring.nAs ≠ 0))).map (fun w => ringDemand s w.1.p))
  (spill + stores + ring) / 1000000

end Sys2Proof.Machine
end

