-- ==== Sys2Proof/Machine/MemCmds.lean ====
section
/-! DEFINITION. Events and commands of the frame memory controller (R189 to R214). -/

namespace Sys2Proof.Machine

/-! ## Requests -/

/-- A new request is answered with a fault: the controller is frozen or unavailable (R199, R205). -/
def memRefuses (m : Mem) : Bool := isFrozen m || decide (m.st = .unavail) || (decide (m.st = .train) && decide (m.prior = .unavail))

/-- The request that the operands of `MEM_REQUEST` spell. -/
def requestOp (write : Option (BitVec 64 × List Byte)) : MemOp :=
  match write with
  | some (m, b) => .write m.toNat (slice b 0 64)
  | none => .read

/-- `MEM_REQUEST` (R26, R184, R189 to R191, R199, R205). Before the dies are up and in RETAIN the request waits at its requester. -/
def execMemRequest (t : Time) (cls : Fin 6) (inst : Byte) (fma : Nat) (write : Option (BitVec 64 × List Byte)) (s : State) : Out :=
  let s := s.at t
  if fmSize ≤ fma then .fault (.noSuchAddress fma)
  else
    let d := dramUnit (fma / 64)
    if memRefuses s.mem then .next (memReply s cls.val inst.toNat d .fault)
    else match s.mem.st with
      | .run | .train | .change => .next (memArrive s t cls.val inst.toNat d (requestOp write) false)
      | _ => .next (s.modMem (fun m => { m with
          wait := m.wait ++ [⟨cls.val, inst.toNat, d, queueOf m.map d, requestOp write, t, t, false, false, false⟩] }))

/-- `MEM_PICK` (R192, R197): an access to a check unit that may be issued goes first. DESIGN CHOICE: the spec gives no order between the two
kinds of traffic. -/
def execMemPick (t : Time) (sc : Fin 8) (s : State) : Out :=
  event s t (fun s => (ckPick s sc.val t).isSome || (decide (s.mem.st = .run) && (pickOf s sc.val t).isSome)) (fun s =>
    match ckPick s sc.val t, pickOf s sc.val t with
    | some k, _ => ckIssue s k t
    | none, some (e, r) => issue s e r t
    | none, none => s)

/-- The age limit of R192. -/
def agedAt (s : State) (e : MemEnt) : Time := e.at_ + s.fld aMEMC_ARB 11 0 * 20

/-- `ENTRY_AGED` (R192). -/
def execEntryAged (t : Time) (q : Fin 256) (s : State) : Out :=
  let m (s : State) (e : MemEnt) : Bool := decide (e.q = q.val) && !e.aged && decide (agedAt s e ≤ t)
  event s t (fun s => s.mem.queue.any (m s)) (fun s =>
    settleMode (s.modMem (fun k => { k with queue := k.queue.map (fun e => if m s e then { e with aged := true } else e) })) (scOf q.val))

/-! ## Completion (R193, R196 to R199) -/

/-- The bytes of a unit with enabled bytes replaced. -/
def mergeUnit (old new : List Byte) (mask : Nat) : List Byte :=
  (List.range 64).map (fun k => if bit mask k then new.getD k 0 else old.getD k 0)

/-- An access that reads has its data: what the decoder makes of the errors that stand in the unit and, where its word is fetched, in its check
unit, with `far` the errors in the D that the unit was read with (R196 to R198). The second part tells a check unit whose CRC fails. -/
def readResult (s : State) (d : Nat) (far : List (Nat × Nat)) : EccResult × Bool :=
  if !eccHolds s.mem d && checkFails s (d / 16) then (.bad, true)
  else
    let word := if eccHolds s.mem d then [] else
      ((errsOf s.mem (16 * (d / 16) + 15)).filter (fun x => decide (4 * (d % 16) ≤ x.1 ∧ x.1 < 4 * (d % 16) + 4))).map
        (fun x => (68 + x.1 - 4 * (d % 16), x.2))
    (eccDecode (errsOf s.mem d ++ far ++ word), false)

/-- The syndrome of a read, as `readResult` forms it. -/
def readSyn (s : State) (d : Nat) (far : List (Nat × Nat)) : Nat := (eccSyn (errsOf s.mem d ++ far)).headD 0

/-- A corrected read is counted, and with SCRUB_EN the unit is written back (R198): not in FROZEN, where nothing new enters, and not for a partial
write, whose own write follows. The scrub writes what the unit holds when it is done. DEDUCED: none is queued for a unit with a newer write. -/
def corrected (s : State) (e : MemEnt) (t : Time) : State :=
  let s := s.bump aMEMC_ECC_CE 31 0 1
  if s.fld aMEMC_CTL 1 1 = 1 ∧ !isFrozen s.mem ∧ !e.op.isWrite ∧ (newestWrite s.mem e.d).isNone then
    memArrive s t 5 2 e.d (.write fullMask []) true
  else s

/-- A finished entry gives its answer, or its result is held in FROZEN (R199). An access of the device's own requesters needs no answer. -/
def finishEnt (s : State) (e : MemEnt) (a : MemAns) : State :=
  if isFrozen s.mem then s.modMem (fun m => { m with held := m.held ++ [(e, false)] })
  else if e.moved then s else memReply s e.cls e.inst e.d a

/-- An entry has written its unit: the line of its check word has room, as the one used least recently leaves for a 65th (R197); data, check word,
answer. -/
def writeDone (s : State) (e : MemEnt) (mask : Nat) (b : List Byte) (t : Time) : State :=
  let a := unitOf e.d * 64
  let s := if e.moved then s else fmWrite s a (mergeUnit (fmRead s a 64) b mask)
  let s := s.modMem (fun m =>
    let m := match eccVictim m e.d with | some l => writeBack m l t | none => m
    clearErrs (eccPut m e.d (leVal ((checkWord (fmRead s a 64) e.d).map byte)) t) e.d)
  finishEnt s e .done

/-- The half-done partial write goes back to its place by age, and its rank wakes (R192, R193, R195). -/
def putBack (s : State) (e : MemEnt) (t : Time) : State :=
  settleMode (s.modMem (fun m => wakeRank { m with
    queue := m.queue.filter (fun x => decide (x.at_ < e.at_)) ++ [{ e with half := true }] ++ m.queue.filter (fun x => decide (e.at_ ≤ x.at_)) }
    e.q t)) (scOf e.q)

/-- The read of an entry has its data and its check word. -/
def finishRead (s : State) (e : MemEnt) (far : List (Nat × Nat)) (t : Time) : State :=
  let (r, bad) := readResult s e.d far
  match r with
  | .bad =>
    let s := s.modMem (fun m => { m with held := m.held ++ [(e, true)] })
    freeze s bad (unitOf e.d) (readSyn s e.d far) e.cls e.inst e.op.isWrite e.q t
  | _ =>
    let s := match r with | .corrected _ _ => corrected s e t | _ => s
    if e.op.isWrite && !isFrozen s.mem then putBack s e t
    else finishEnt s e (.data (fmRead s (unitOf e.d * 64) 64))

/-- The read of an entry has its data. Where the device does not hold the check word it is fetched, but not in FROZEN, where nothing is issued: the
result then stays without one (R197, R199). -/
def readDone (s : State) (e : MemEnt) (flips : List (Nat × Nat)) (t : Time) : State :=
  let s := s.modMem (fun m => eccTouch (addErrs m e.d (flips.filter (fun x => decide (x.1 < 64)))) e.d t)
  let far := flips.filter (fun x => decide (64 ≤ x.1))
  if eccHolds s.mem e.d then finishRead s e far t
  else s.modMem (fun m =>
    let m := { m with await := m.await ++ [(e, far)] }
    if isFrozen m then m else ckFetch m (e.d / 16) t)

/-- An access to a check unit is finished: a fetch completes the reads that await it; a merge is written next, or freezes the controller where the
CRC fails, and then waits with its words; and a write leaves no error in the unit (R197 to R199). In a MEM_RECOVER such a line is given up. -/
def ckDone (s : State) (k : CkEnt) (chk : List (Nat × Nat)) (t : Time) : State :=
  let d := 16 * k.block + 15
  let s := s.modMem (fun m => { m with ckd := removeFirst (fun x => x = k) m.ckd })
  if ckWrites k then s.modMem (fun m => clearErrs m d)
  else
    let s := s.modMem (fun m => addErrs m d (chk.filter (fun x => decide (x.1 < 64))))
    match k.words with
    | none =>
      let l := s.mem.await.filter (fun x => decide (x.1.d / 16 = k.block))
      l.foldl (fun s x => finishRead s x.1 x.2 t)
        (s.modMem (fun m => { m with await := m.await.filter (fun x => decide (x.1.d / 16 ≠ k.block)) }))
    | some _ =>
      let bad := checkFails s k.block
      let s := if bad then freeze s true (15 * k.block) 0 5 2 true k.q t else s
      if bad && s.mem.recover.isSome then s
      else s.modMem (fun m => wakeRank { m with ckq := { k with half := !bad } :: m.ckq } k.q t)

/-- The access at the dies that finishes in a bank: of a data unit and a check unit the one issued first. -/
def ckFirst (m : Mem) (q : Nat) : Option CkEnt :=
  match m.ckd.find? (fun k => decide (k.q = q)) with
  | some k => if m.dies.any (fun e => decide (e.q = q)) && decide ((bankOf m q).lastAct = some k.at_) then none else some k
  | none => none

/-- A data access can finish: where it needs an access to a check unit, for a fetch or a line that leaves, the queue has room, and in FROZEN no line
leaves (R197, R199). -/
def mayFinish (m : Mem) (e : MemEnt) : Bool :=
  if busWrite e then (eccVictim m e.d).isNone || (ckRoom m (scOf e.q) && !(isFrozen m && m.recover.isNone))
  else eccHolds m e.d || isFrozen m || ckRoom m (scOf e.q) || (m.ckq ++ m.ckd).any (fun k => decide (k.block = e.d / 16 ∧ k.words = none))

/-- The data access at the dies of a bank that can finish. -/
def dataFirst (m : Mem) (q : Nat) : Option MemEnt := (m.dies.find? (fun e => decide (e.q = q))).filter (mayFinish m)

/-- `MEM_ACCESS_COMPLETE` (R193, R197 to R199): the oldest access at the dies of a bank finishes; a data unit is read with the errors `flips`, and a check unit with `chk`. Its token may be
free, so that what waits may enter, and seals, a bin change and a MEM_RECOVER may go on. -/
def execMemAccessComplete (t : Time) (q : Fin 256) (flips chk : List (Nat × Nat)) (s : State) : Out :=
  event s t (fun s => (ckFirst s.mem q.val).isSome || (dataFirst s.mem q.val).isSome) (fun s =>
    let s := match ckFirst s.mem q.val, dataFirst s.mem q.val with
      | some k, _ => ckDone s k chk t
      | none, some e =>
        let s := s.modMem (fun m => { m with dies := removeFirst (fun x => x = e) m.dies })
        (match e.op with
          | .write mask b => if busWrite e then writeDone s e mask b t else readDone s e flips t
          | .read => readDone s e flips t)
      | none, none => s
    let s := if isFrozen s.mem then s else sealAcks (admitWaiting s t) t
    recoverStep (changeFlush s t) t)

/-! ## Refresh and power-down (R194, R195) -/

/-- Interval of a bank's refreshes: tREFW by 8,192. -/
def refreshIv (m : Mem) : Time := m.tim.refw / 8192 / max 1 m.refmul

/-- The dies are out of self-refresh: also in INIT, and in a bin change until its flush is over (R194, R207). -/
def diesAwake (s : State) : Bool :=
  match s.mem.st with
  | .init | .run | .train | .frozen => true
  | .change => !s.mem.flushed
  | _ => false

/-- A refresh may be issued into the bank: bank and rank are ready, and no entry of it is eligible unless 8 are owed. -/
def refreshInto (s : State) (b : Bank) (t : Time) : Bool :=
  let k := rankOf s.mem (scOf b.q) (rankIx b.q)
  decide (b.busyTill ≤ t) && (match b.lastAct with | some a => decide (a + s.mem.tim.rc ≤ t) | none => true) &&
  !k.down && decide (k.wakeAt ≤ t) &&
  (decide (8 ≤ b.owed) || !(decide (s.mem.st = .run) && (eligible s (scOf b.q) t).any (fun e => decide (e.q = b.q))) &&
    ((ckPick s (scOf b.q) t).all (fun k => decide (k.q ≠ b.q))))

/-- An interval of the bank has passed. -/
def refreshDue (s : State) (q : Nat) (t : Time) : Bool := decide ((bankOf s.mem q).dueAt + refreshIv s.mem ≤ t)

/-- A bank with a passed interval counted: against a refresh pulled in, or as owed. -/
def oweRefresh (m : Mem) (b : Bank) : Bank :=
  { b with owed := if b.ahead = 0 then min 8 (b.owed + 1) else b.owed, ahead := b.ahead - 1, dueAt := b.dueAt + refreshIv m }

/-- A bank with a refresh issued: one owed, or one pulled in. -/
def doRefresh (m : Mem) (b : Bank) (t : Time) : Bank :=
  { b with owed := b.owed - 1, ahead := if b.owed = 0 then b.ahead + 1 else b.ahead, busyTill := t + m.tim.rfc }

/-- `REFRESH_DUE` (R194, R195): an interval that has passed is owed and wakes the rank, and a refresh is issued where one is owed, or pulled in
where no interval has passed, up to 8 ahead. DEDUCED: at 8 owed no further one is counted. -/
def execRefreshDue (t : Time) (q : Fin 256) (s : State) : Out :=
  event s t (fun s => diesAwake s && (refreshDue s q.val t ||
      (refreshInto s (bankOf s.mem q.val) t && (decide (0 < (bankOf s.mem q.val).owed) || decide ((bankOf s.mem q.val).ahead < 8))))) (fun s =>
    let b := bankOf s.mem q.val
    let due := refreshDue s q.val t
    let b := if due then oweRefresh s.mem b else b
    let b := if refreshInto s b t && (decide (0 < b.owed) || (!due && decide (b.ahead < 8))) then doRefresh s.mem b t else b
    s.modMem (fun m => wakeRank (setBank m b) q.val t))

/-- `REFRESH_RATE_POLL` (R194). -/
def execRefreshRatePoll (t : Time) (reports : List (Fin 3)) (s : State) : Out :=
  event s t (fun s => diesAwake s && decide (s.mem.polled + 16 * ms ≤ t)) (fun s =>
    setRefmul (s.modMem (fun m => { m with dieMul := maxL (1 :: reports.map (fun r => 2 ^ r.val)), polled := t })))

/-- `POWER_DOWN_ENTRY` (R195): no entry of the rank is queued or at the dies. -/
def execPowerDownEntry (t : Time) (sc : Fin 8) (rank : Fin 2) (s : State) : Out :=
  event s t (fun s =>
      let k := rankOf s.mem sc.val rank.val
      decide (s.fld aMEMC_CTL 0 0 = 1) && decide (s.mem.st = .run) && !k.down &&
      !((s.mem.queue ++ s.mem.dies).map (fun e => e.q) ++ (s.mem.ckq ++ s.mem.ckd).map (fun k => k.q)).any
        (fun q => decide (scOf q = sc.val ∧ rankIx q = rank.val)) &&
      decide (k.idleFrom + memcCycles s.mem.bin (s.fld aMEMC_PD 15 0) ≤ t))
    (fun s => s.modMem (fun m => setRank m { rankOf m sc.val rank.val with down := true }))

/-- `ECC_LINE_IDLE` (R197): the line is written back, where the check-unit queue has room. -/
def execEccLineIdle (t : Time) (sc : Fin 8) (block : Nat) (used : Time) (s : State) : Out :=
  event s t (fun s => decide (s.mem.st = .run) && ckRoom s.mem sc.val && (match eccLine s.mem sc.val block with
      | some l => decide (l.used = used ∧ used + 10 * us ≤ t)
      | none => false))
    (fun s => s.modMem (fun m => match eccLine m sc.val block with
      | none => m
      | some l => writeBack m l t))

/-- `ROWHAMMER_WINDOW` (R201, R202). -/
def execRowhammerWindow (t : Time) (s : State) : Out :=
  event s t (fun s => decide (s.mem.rhStart + 32 * ms ≤ t)) (fun s =>
    s.modMem (fun m => { m with
      banks := m.banks.map (fun b => { b with rows := [] }), throttles := [], bankThrottle := []
      rhStart := m.rhStart + 32 * ms, rhThresh := s.fld aMEMC_RH 12 0, hotRaised := [] }))

/-! ## Sweeps and bins -/

/-- The window of codes that passes: its first code and its width, for each code of a lane (R203). -/
abbrev LaneWin := (Nat × Nat) × (Nat × Nat)

/-- Width of a lane's window: the narrower of its two. -/
def laneWidth (w : LaneWin) : Nat := min w.1.2 w.2.2

/-- The code at the centre of a window. DESIGN CHOICE: of two middle codes the lower. -/
def centreOf (w : Nat × Nat) : Nat := w.1 + (w.2 - 1) / 2

/-- A sweep ends (R203 to R205). -/
def sweepDone (s : State) (results : List LaneWin) (t : Time) : State :=
  let ok := decide (results.length = 104) && results.all (fun r => decide (16 ≤ laneWidth r))
  let b := s.mem.sweepBin
  let s := s.modMem (fun m => { m with
    sweeps := min (2 ^ 32 - 1) (m.sweeps + 1), windowMin := minL 0 (results.map laneWidth)
    lastT := match ts14 s with | some v => v | none => m.lastT })
  if ok then
    let d := results.map (fun r => (centreOf r.1, centreOf r.2))
    memReturn (s.modMem (fun m => { m with tables := modAt m.tables b (fun _ => ⟨true, d⟩), dly := d, bin := b })) t
  else if 0 < b then startSweep s s.mem.prior (b - 1)
  else memUnavail s t

/-- A write of MEMC_BIN.TARGET (R206). -/
def writeTarget (s : State) (v : Nat) (t : Time) : State :=
  let s := (s.setFld aMEMC_BIN 1 0 v).modMem (fun m => { m with target := v })
  requestChange s t

/-- `MEMC_BIN_TARGET_WRITE` (R206, R215): 3 is refused. -/
def execMemcBinTargetWrite (t : Time) (target : BitVec 2) (s : State) : Out :=
  event s t (fun s => decide (target.toNat ≠ 3) && serves s .sideband) (fun s => writeTarget s target.toNat t)

/-- The dies leave self-refresh: refresh intervals run anew (R194). -/
def wakeDies (m : Mem) (t : Time) : Mem :=
  { m with refFrom := t, banks := m.banks.map (fun b => { b with owed := 0, ahead := 0, dueAt := t })
           ranks := m.ranks.map (fun k => { k with down := false, wakeAt := t, idleFrom := t }) }

/-- Step 4 of a bin change: 8 refreshes go into every bank (R207). -/
def refreshAll (m : Mem) (t : Time) : Mem :=
  { m with refTill := t + 8 * m.tim.rfc, banks := m.banks.map (fun b => { b with busyTill := t + 8 * m.tim.rfc }) }

/-- Steps 4 and 5 of a bin change: the dies leave self-refresh, the table loads, 8 refreshes per bank are issued, and the check decides (R207). -/
def changeDone (s : State) (ok : Bool) (t : Time) : State :=
  let b := s.mem.changeTo
  let s := s.modMem (fun m => refreshAll (wakeDies m t) t)
  match tableOf s.mem b, ok with
  | some d, true => memReturn (s.modMem (fun m => { m with bin := b, dly := d })) t
  | _, _ => startSweep s s.mem.prior b

/-! ## Commands -/

/-- `MEM_STATUS` (R211). -/
def execMemStatus (c : Call) (s : State) : Out :=
  command s c 0x0504 .fast (fun _ => [lenIs c 0, argZero c]) (fun s =>
    let m := s.mem
    let valid (b : Nat) : Nat := b2n (tableOf m b).isSome
    okWith s c 0x0504 .fast ([byte m.st.code, byte m.bin, byte m.map,
      byte (b2n (decide (m.st = .train)) + 2 * b2n (decide (m.cap < 2)) + 4 * valid 0 + 8 * valid 1 + 16 * valid 2), byte m.refmul, 0, 0, 0] ++
      leBytes 4 (s.reg aMEMC_ECC_CE) ++ leBytes 4 (s.reg aMEMC_ECC_UE) ++ leBytes 4 (s.reg aMEMC_ERR_ADDR) ++
      leBytes 4 (s.reg aMEMC_ERR_INFO) ++ leBytes 4 (memDemand s) ++ leBytes 4 (binCapacity m.bin) ++ leBytes 4 m.throttled ++
      leBytes 4 (largestFree s) ++ leBytes 2 (tokensHeld m c.start) ++ [byte m.windowMin, byte (unsigned 8 (wholeC m.lastT))] ++ leBytes 4 m.sweeps))

/-- `MEM_RECOVER` (R212 to R214). -/
def execMemRecover (c : Call) (s : State) : Out :=
  let f := u8 c.payload 0
  command s c 0x0505 .slow (fun s =>
      let st := s.mem.st
      [lenIs c 4, needLeaseOrSafety s c lARRAY, argZero c, reservedBits c.payload 0 0xFC, reserved c.payload 1 3,
       need (!decide (st = .init ∨ st = .train ∨ st = .change) && s.mem.recover.isNone) .busy,
       need (!decide (st = .off ∨ st = .retain) && (!decide (st = .run ∨ st = .unavail) || bit f 0)) .badState])
    (fun s =>
      let s := accept s c 0x0505 (50 * ms) f
      match s.mem.st with
      | .frozen => recoverStep (s.modMem (fun m => { m with recover := some f })) c.start
      | .unavail => startSweep (s.modMem (fun m => wakeDies m c.start)) .unavail (wantedBin s.mem)
      | _ => startSweep s .run s.mem.bin)

end Sys2Proof.Machine
end

