-- ==== Sys2Proof/Machine/Timers.lean ====
section
/-! DEFINITION. Timer commands and events (R423 to R433, R444 to R447). -/

namespace Sys2Proof.Machine

/-- Leases of every channel in a mask. -/
def needTmrLeases (s : State) (c : Call) (mask : Nat) : List (Option Reject) :=
  (allTmr.filter (fun n => bit mask n)).map (fun n => needLease s c (lTMR n))

def u48 (bs : List Byte) (off : Nat) : Nat := leVal (slice bs off 6)

/-- Link codes of an ACT word: 0 to 4 (R428); bits 31:25 are reserved. -/
def actOk (a : Nat) : Bool := decide (a < 2 ^ 25) && [0, 5, 10, 15, 20].all (fun lo => decide (bits a (lo + 4) (lo + 2) ≤ 4))
def actLinks (a : Nat) : Bool := [0, 5, 10, 15, 20].any (fun lo => decide (bits a (lo + 4) (lo + 2) ≠ 0))

/-- The register values that a CONFIG_TIMER payload stands for: CTL, PRE, ACT and CAPCFG. -/
def tmrCtlOf (pl : List Byte) : Nat :=
  bits (u8 pl 1) 3 0 + bits (u8 pl 1) 4 4 * 2 ^ 4 + u8 pl 2 * 2 ^ 15 + u8 pl 7 * 2 ^ 18 + u8 pl 3 * 2 ^ 20
def tmrPreOf (pl : List Byte) : Nat := u16 pl 4 * 2 ^ 16 + u8 pl 6
def tmrCapOf (pl : List Byte) : Nat :=
  bits (u8 pl 37) 1 0 + bits (u8 pl 37) 7 4 * 2 ^ 8 + u8 pl 38 * 2 ^ 12 + (u16 pl 40 - 1) * 2 ^ 16 + u8 pl 36 * 2 ^ 24

/-- Fields of CTL that a running channel may change: HWSTART and IMMEDIATE (R445). -/
def tmrSoftCtl : Nat := 3 * 2 ^ 18 + 4

/-- `CONFIG_TIMER` (R445). -/
def execConfigTimer (c : Call) (s : State) : Out :=
  let pl := c.payload
  let n := u8 pl 0 % 16
  command s c 0x0700 .fast (fun s => [lenIs c 48,
      needLease s c (lTMR n), if actLinks (u32 pl 32) then needLease s c (lTMR (u8 pl 3 % 16)) else none,
      argZero c, argOk (decide (u8 pl 0 < 16)) 0, reservedBits pl 1 0xE0, argOk (decide (u8 pl 2 ≤ 5)) 2,
      argOk (decide (u8 pl 3 < 16)) 3, argOk (decide (1 ≤ u16 pl 4)) 4, argOk (decide (u8 pl 7 ≤ 2)) 7,
      argOk (decide (1 ≤ u48 pl 8)) 8, reserved pl 14 2, reserved pl 22 2, reserved pl 30 2,
      argOk (actOk (u32 pl 32)) 32, argOk (decide (u8 pl 36 < 64 ∨ u8 pl 36 = 0xFF)) 36,
      argOk (decide (bits (u8 pl 37) 1 0 ≤ 2 ∧ bits (u8 pl 37) 3 2 = 0 ∧ 1 ≤ bits (u8 pl 37) 7 4)) 37,
      argOk (decide (u8 pl 38 < 16)) 38, reserved pl 39 1, argOk (decide (1 ≤ u16 pl 40 ∧ u16 pl 40 ≤ 256)) 40,
      reserved pl 42 6,
      need (!(s.tmr n).run || (decide (Nat.lor (tmrCtlOf pl) tmrSoftCtl = Nat.lor (s.reg (aTMR_CTL n)) tmrSoftCtl) &&
        decide (tmrPreOf pl = s.reg (aTMR_PRE n)))) .badState])
    (fun s =>
      let wasRun := (s.tmr n).run
      let s := (((s.setReg (aTMR_CTL n) (tmrCtlOf pl)).setReg (aTMR_PRE n) (tmrPreOf pl)).setReg (aTMR_ACT n) (u32 pl 32)).setReg
        (aTMR_CAPCFG n) (tmrCapOf pl)
      let w (s : State) (lo hi v : Nat) : State := (s.setReg lo (v % 2 ^ 32)).setReg hi (v / 2 ^ 32)
      let s := w (w (w s (aTMR_PER_LO n) (aTMR_PER_HI n) (u48 pl 8)) (aTMR_M0_LO n) (aTMR_M0_HI n) (u48 pl 16))
        (aTMR_M1_LO n) (aTMR_M1_HI n) (u48 pl 24)
      let s := s.modTmr n (fun x => { x with at_ := none })
      let s := tmrWrite (tmrWrite (tmrWrite s n 0 (u48 pl 8)) n 1 (u48 pl 16)) n 2 (u48 pl 24)
      let s := if wasRun then s else s.modTmr n (fun x => { x with count := 0, out := tmrOutInit s n })
      okWith s c 0x0700 .fast [])

/-- The start of the first PIO cycle at or after an instant. -/
def pioCeil (t : Time) : Time := divCeil (divCeil (t * 6) 25 * 25) 6

/-- The instant at which DTIME reaches a value that lies ahead. -/
def whenDtime (s : State) (t : Time) (d : Nat) : Time := t + (d + 2 ^ 64 - s.dtime t) % 2 ^ 64 * ns

/-- What one TIMER_CONTROL does to a channel: 4 is RESET then START (R446). -/
def tmrControl (s : State) (n op : Nat) (t : Time) : State :=
  if op = 4 then tmrStart (tmrReset s n t) n t else tmrCommand s n op t

/-- `TIMER_CONTROL` (R446). -/
def execTimerControl (c : Call) (s : State) : Out :=
  let pl := c.payload
  let ns_ := allTmr.filter (fun n => bit (u16 pl 0) n)
  let at_ := u64 pl 4
  let timed := bit (u8 pl 3) 0
  let ahead (s : State) : Nat := (at_ + 2 ^ 64 - s.dtime c.stamp) % 2 ^ 64
  command s c 0x0702 .fast (fun s => [lenIs c 12] ++ needTmrLeases s c (u16 pl 0) ++ [argZero c,
      argOk (decide (1 ≤ u8 pl 2 ∧ u8 pl 2 ≤ 4)) 2, reservedBits pl 3 0xFE,
      argOk (!timed || decide (20000 ≤ ahead s ∧ ahead s ≤ 60000000000)) 4])
    (fun s =>
      let s := ns_.foldl (fun s n => s.modTmr n (fun x => { x with at_ := none })) s
      if timed then
        let s := ns_.foldl (fun s n => s.modTmr n (fun x => { x with at_ := some (at_, u8 pl 2) })) s
        okWith s c 0x0702 .fast (leBytes 8 (s.dtime (pioCeil (whenDtime s c.start at_))))
      else
        let s := ns_.foldl (fun s n => tmrControl s n (u8 pl 2) c.start) s
        okWith s c 0x0702 .fast (leBytes 8 (s.dtime c.start)))

/-- Whether a pending TIMER_CONTROL has reached its DTIME. -/
def atDue (s : State) (t : Time) (x : Nat × Nat) : Bool := decide ((s.dtime t + 2 ^ 64 - x.1) % 2 ^ 64 < 2 ^ 63)

/-- `TIMER_CONTROL_AT`: every pending command that has reached its DTIME acts in this PIO cycle (R446). -/
def execTimerControlAt (t : Time) (s : State) : Out :=
  let due (s : State) (n : Nat) : Bool := match (s.tmr n).at_ with | some x => atDue s t x | none => false
  event s t (fun s => allTmr.any (due s)) (fun s =>
    allTmr.foldl (fun s n => match (s.tmr n).at_ with
      | some x => if atDue s t x then tmrControl (s.modTmr n (fun c => { c with at_ := none })) n x.2 t else s
      | none => s) s)

/-- `TIMER_CAPTURE` (R447). -/
def execTimerCapture (c : Call) (s : State) : Out :=
  let pl := c.payload
  command s c 0x0701 .fast (fun _ => [lenIs c 4, argZero c, reserved pl 2 2]) (fun s =>
    let ns_ := allTmr.filter (fun n => bit (u16 pl 0) n)
    okWith s c 0x0701 .fast (leBytes 8 (s.dtime c.start) ++ ns_.flatMap (fun n =>
      leBytes 6 (s.tmr n).count ++ [byte (b2n (s.tmr n).run + 2 * b2n (s.tmr n).down), 0])))

/-! ## Events -/

/-- Source events that a channel still needs for its next tick (R424). -/
def tmrNeed (s : State) (n : Nat) : Nat := max 1 (divCeil (tmrDiv s n - (s.tmr n).acc) 256)

/-- No own event of the channel's previous tick is still to be taken. -/
def tmrClear (c : Tmr) : Bool := !(c.dueCap || c.dueM0 || c.dueM1 || c.duePer || c.dueZero)

/-- `TIMER_TICK` (R424, R425). Sources 0 to 2 run freely; sources 3 to 5 have made the tick with their events. -/
def execTimerTick (t : Time) (n : TmrIx) (s : State) : Out :=
  let n := n.val
  let due (s : State) : Bool := (s.tmr n).run && tmrClear (s.tmr n) &&
    (if tmrSrc s n ≤ 2 then decide ((s.tmr n).last + tmrNeed s n ≤ srcIndex s (tmrSrc s n) t) else decide (0 < (s.tmr n).ticks))
  event s t due (fun s =>
    let m := tmrNeed s n
    let s := if tmrSrc s n ≤ 2 then
        s.modTmr n (fun c => { c with last := c.last + m, acc := c.acc + 256 * m - tmrDiv s n })
      else s.modTmr n (fun c => { c with ticks := c.ticks - 1 })
    tmrTick s n)

/-- `PERIOD_EVENT` (R425, R428). A capture and the matches of the same cycle are taken first (R429). -/
def execPeriodEvent (t : Time) (n : TmrIx) (s : State) : Out :=
  event s t (fun s => (s.tmr n.val).duePer && !(s.tmr n.val).dueCap && !(s.tmr n.val).dueM0 && !(s.tmr n.val).dueM1) (fun s => tmrPeriod s n.val t)

/-- `MATCH_EVENT` (R425, R428). A capture of the same cycle is taken first (R429). -/
def execMatchEvent (t : Time) (n : TmrIx) (second : Bool) (s : State) : Out :=
  let n := n.val
  event s t (fun s => !(s.tmr n).dueCap && (if second then (s.tmr n).dueM1 && !(s.tmr n).dueM0 else (s.tmr n).dueM0)) (fun s =>
    let s := s.modTmr n (fun c => if second then { c with dueM1 := false } else { c with dueM0 := false })
    tmrActions (latchAll s n (b2n second)) n (if second then 10 else 5) t)

/-- `ZERO_EVENT` (R425, R427, R428). -/
def execZeroEvent (t : Time) (n : TmrIx) (s : State) : Out :=
  let n := n.val
  event s t (fun s => (s.tmr n).dueZero && !(s.tmr n).dueCap && !(s.tmr n).dueM0 && !(s.tmr n).dueM1) (fun s =>
    let s := s.modTmr n (fun c => { c with dueZero := false })
    tmrActions (tmrBoundary s n) n 20 t)

/-- `PIN_EDGE_ACCEPTED` (R430): the filter accepts a new level; a selected edge advances the edge prescaler. -/
def execPinEdgeAccepted (t : Time) (n : TmrIx) (level : Bool) (s : State) : Out :=
  let n := n.val
  event s t (fun s => decide (s.fld (aTMR_CAPCFG n) 31 24 < 64) && decide ((s.tmr n).level ≠ level)) (fun s =>
    let s := s.modTmr n (fun c => { c with level := level })
    let e := s.fld (aTMR_CAPCFG n) 1 0
    let sel := (decide (e = 0) && level) || (decide (e = 1) && !level) || decide (2 ≤ e)
    if sel then
      let s := if tmrSrc s n = 3 then tmrSourceEvent s n else s
      let full := decide (s.fld (aTMR_CAPCFG n) 23 16 ≤ (s.tmr n).edges)
      s.modTmr n (fun c => if full then { c with edges := 0, dueCap := true, capVal := c.count }
        else { c with edges := c.edges + 1 })
    else s)

/-- `CAPTURE_EVENT` (R430, R431, R428, R426, R69). -/
def execCaptureEvent (t : Time) (n : TmrIx) (s : State) : Out :=
  let n := n.val
  event s t (fun s => (s.tmr n).dueCap) (fun s =>
    let s := s.modTmr n (fun c => { c with dueCap := false })
    let s := tmrCapture s n (s.tmr n).capVal t
    let s := tmrActions (latchAll s n 3) n 0 t
    let s := if tmrHwStart s n = 1 then tmrStart (tmrReset s n t) n t else s
    pinTrigger s n t)

/-- A read of `TMRn_CAP_LO` (R431): its value and the state after it. -/
def readCapLo (s : State) (n : Nat) (t : Time) : Nat × State :=
  let c := s.tmr n
  let same := decide (c.capCyc = some (pioCycle t))
  let v := if same then c.prevCap else c.cap
  (v % 2 ^ 32, s.modTmr n (fun c => { c with capCopy := v, fresh := c.fresh && same }))

/-- `TMR_CAP_LO_READ` (R431). -/
def execTmrCapLoRead (t : Time) (n : TmrIx) (s : State) : Out :=
  event s t (fun _ => true) (fun s =>
    let (v, s) := readCapLo s n.val t
    { s with pio := { s.pio with readVal := v } })

/-- A read of `TMRn_COUNT_LO` or `TMRn_COUNT_HI` (R432). -/
def readCount (s : State) (n : Nat) (high : Bool) : Nat × State :=
  let c := s.tmr n
  if c.run then (0, s.modTmr n (fun c => { c with rdRun := true }))
  else (if high then c.count / 2 ^ 32 else c.count % 2 ^ 32, s)

/-- `TMR_COUNT_READ` (R432). -/
def execTmrCountRead (t : Time) (n : TmrIx) (high : Bool) (s : State) : Out :=
  event s t (fun _ => true) (fun s =>
    let (v, s) := readCount s n.val high
    { s with pio := { s.pio with readVal := v } })

/-- `FSYNC_OUT_END` (R442). -/
def execFsyncOutEnd (t : Time) (pin : Fin 64) (s : State) : Out :=
  event s t (fun s => s.pio.fsync.any (fun x => decide (x.1 = pin.val ∧ x.2 ≤ t)))
    (fun s => { s with pio := { s.pio with fsync := s.pio.fsync.filter (fun x => !decide (x.1 = pin.val ∧ x.2 ≤ t)) } })

/-- `PIN_TRANSITION_OVERRUN` (R443). -/
def execPinTransitionOverrun (t : Time) (pin : Fin 64) (s : State) : Out :=
  event s t (fun _ => true) (fun s => { s with pio := { s.pio with ovr := setBit s.pio.ovr pin.val true } })

end Sys2Proof.Machine
end

