-- ==== Sys2Proof/Machine/PioEngines.lean ====
section
/-! DEFINITION. The PIO engines: instructions, queues, packets and their commands (R434 to R443, R448 to R452). An
instruction row executes where the running engine's PC holds that instruction and its tick has come. -/

namespace Sys2Proof.Machine

/-! ## Instruction words -/

/-- The instruction at an engine's PC. -/
def peWord (s : State) (e : Nat) : Nat := s.reg (aPIO_IMEM e (s.pe e).pc)
def peOp (w : Nat) : Nat := bits w 31 28

def peDepth (s : State) (e : Nat) : Nat := s.fld (aPIO_QCFG e) 5 0
def rxCap (s : State) (e : Nat) : Nat := 32 - peDepth s e
def rxFull (s : State) (e : Nat) : Bool := decide (rxCap s e ≤ (s.pe e).rxq.length)

/-- Operand bits that an `OP` uses (R435). -/
def peMask (op : Nat) : Nat :=
  match op with
  | 0 => 0x1FFFF | 1 => 0x73F | 2 => 0x100 | 3 => 0x100 | 4 => 0xFFF | 5 => 0x3FFFF | 6 => 0x3FFFFF
  | 7 => 0x3FF7 | 8 => 0x3F7F3F | _ => 0

/-- Whether an instruction is PIO_ILLEGAL where it executes (R435, R437, R438). -/
def peIllegal (s : State) (e : Nat) : Bool :=
  let w := peWord s e
  let o := bits w 23 0
  let op := peOp w
  decide (10 < op) || decide (Nat.land o (peMask op) ≠ o) ||
  (match op with
   | 1 => decide (bits w 5 0 = 0 ∨ 32 < bits w 5 0)
   | 2 => decide (peDepth s e = 0)
   | 3 => decide (peDepth s e = 32)
   | 4 => decide (4 < bits w 11 8 ∨ 6 < bits w 7 4 ∨ 2 < bits w 3 0)
   | 6 => decide (2 ≤ (s.pe e).stack.length ∨ bits w 21 16 < (s.pe e).pc + 1)
   | 7 => decide (6 < bits w 11 8)
   | 8 => decide (7 < bits w 11 8)
   | _ => false)

/-- Divider of the engine in 1/256 PIO cycles (R434). -/
def peDiv (s : State) (e : Nat) : Nat := s.fld (aPIO_DIV e) 31 16 * 256 + s.fld (aPIO_DIV e) 7 0

/-- PIO cycle of the engine's k-th tick (R424, R434). -/
def peTickCycle (s : State) (e k : Nat) : Nat := (s.pe e).start + divCeil (k * peDiv s e) 256

/-- The running engine's next instruction may begin at this instant. -/
def peReady (s : State) (e : Nat) (t : Time) : Bool :=
  decide ((s.pe e).st = .running) && decide (peTickCycle s e (s.pe e).ticks ≤ pioCycle t)

def peRuns (op : Nat) (e : Nat) (t : Time) (s : State) : Bool :=
  peReady s e t && decide (peOp (peWord s e) = op) && !peIllegal s e

/-! ## Flow (R437) -/

/-- PC and loop stack after an instruction that does not branch. -/
def peNext (pc : Nat) (stack : List LoopEnt) : Nat × List LoopEnt :=
  match stack with
  | [] => ((pc + 1) % 64, [])
  | l :: r =>
    if pc = l.last then
      if 1 < l.count then (l.first, { l with count := l.count - 1 } :: r) else ((pc + 1) % 64, r)
    else ((pc + 1) % 64, l :: r)

/-- The loop stack after a taken BR. -/
def pePop (target : Nat) : List LoopEnt → List LoopEnt
  | [] => []
  | l :: r => if l.first ≤ target ∧ target ≤ l.last then l :: r else pePop target r

/-- The ticks an instruction takes are used, with its HOLD. -/
def peSpend (n w : Nat) (p : Pe) : Pe := { p with ticks := p.ticks + n + bits w 27 24 }

/-- An instruction ends after `n` ticks, and the engine goes on. -/
def peDone (s : State) (e n : Nat) : State :=
  let w := peWord s e
  s.modPe e (fun p =>
    let (pc, st) := peNext p.pc p.stack
    { peSpend n w p with pc := pc, stack := st, st := .running, waitFrom := none })

/-- The levels of an engine's local pins: those the device drives at their level, the others as the board holds them (R435, R442). -/
def pinsSeen (s : State) (e : Nat) (board : Byte) : Byte :=
  BitVec.ofNat 8 (bitmap ((List.range 8).map (fun j => (pinDriven s (8 * e + j)).getD (board.getLsbD j))))

/-- The values kept for readout (R441). -/
def peKeep (p : Pe) : Pe := { p with keepW0 := p.w0, keepW1 := p.w1, keepTx := p.txr, keepRx := p.rxr }

/-- A halt (R439), whose fault stands until STOP_PIO (R495). -/
def peHalt (s : State) (e fault : Nat) (t : Time) : State :=
  let s := s.modPe e (fun p => { peKeep p with st := .halted, fault := fault, waitFrom := none })
  stand s (peFault fault) e t

/-- A stop (R441). -/
def peStop (p : Pe) : Pe := { peKeep p with st := .stopped, tc := 0, rc := 0, waitFrom := none }

/-- A stall begins (R439). -/
def peStall (s : State) (e : Nat) (t : Time) : State :=
  s.modPe e (fun p => { p with st := .stalled, waitFrom := some t })

/-! ## Instructions -/

/-- `DRIVE` (R435). -/
def execDrive (t : Time) (e : EngIx) (s : State) : Out :=
  let e := e.val
  event s t (peRuns 0 e t) (fun s =>
    let w := peWord s e
    let put (v : Nat) : Nat := Nat.lor (v - Nat.land v (bits w 15 8)) (Nat.land (bits w 7 0) (bits w 15 8))
    let s := s.modPe e (fun p => if bit w 16 then { p with dir := put p.dir } else { p with lvl := put p.lvl })
    peDone s e 1)

/-- One bit out of TXR (R436): the bit and the register after it. -/
def shiftOut (msbf : Bool) (v : BitVec 32) : Bool × BitVec 32 :=
  if msbf then (v.getLsbD 31, v <<< 1) else (v.getLsbD 0, v >>> 1)

/-- One bit into RXR (R436): the register and RC after it. -/
def shiftIn (msbf : Bool) (b : Bool) (v : BitVec 32) (rc : Nat) : BitVec 32 × Nat :=
  if 32 ≤ rc then (v, rc)
  else if msbf then (v <<< 1 ||| BitVec.ofNat 32 (b2n b), rc + 1)
  else (BitVec.ofNat 32 (setBit v.toNat rc b), rc + 1)

/-- The bit periods of an XFER from the first `n` bits of `di` (R436). -/
def xferBits (msbf tx rx : Bool) (doPin : Option Nat) (di : Pe → Nat → Bool) (n : Nat) (p : Pe) : Pe :=
  (List.range n).foldl (fun p k =>
    let p := if tx then
        let (b, v) := shiftOut msbf p.txr
        { p with txr := v, tc := p.tc - 1, lvl := match doPin with | some d => setBit p.lvl d b | none => p.lvl }
      else p
    if rx then
      let (v, rc) := shiftIn msbf (di p k) p.rxr p.rc
      { p with rxr := v, rc := rc }
    else p) p

/-- A pin of `SER`: its local number where enabled (R435). -/
def serPin (s : State) (e lo : Nat) : Option Nat :=
  if s.fld (aPIO_SER e) (lo + 3) (lo + 3) = 1 then some (s.fld (aPIO_SER e) (lo + 2) lo) else none

/-- DI as XFER samples bit `k` of it, after that bit of DO is out (R436): a pin that the engine drives reads what it drives, CK its level in the second
half; another pin that the device drives reads its level, and the others what the board gives. -/
def xferDi (s : State) (e : Nat) (tx : Bool) (board : BitVec 32) (p : Pe) (k : Nat) : Bool :=
  match serPin s e 4 with
  | none => board.getLsbD k
  | some i =>
    let cfg := pinCfg s (8 * e + i)
    if cfg % 4 = 1 then
      let isCk := decide (serPin s e 8 = some i)
      let half := xor (decide (s.fld (aPIO_SER e) 16 16 = 1)) (decide (s.fld (aPIO_SER e) 17 17 = 0))
      if bit p.dir i && !(isCk && tx && decide (serPin s e 0 = some i)) then
        (pinOut cfg (if isCk then half else bit p.lvl i)).getD (board.getLsbD k)
      else board.getLsbD k
    else (pinDriven s (8 * e + i)).getD (board.getLsbD k)

/-- `XFER` (R436). With DI disabled the bits sampled are free values. -/
def execXfer (t : Time) (e : EngIx) (di : BitVec 32) (s : State) : Out :=
  let e := e.val
  event s t (peRuns 1 e t) (fun s =>
    let w := peWord s e
    let n := bits w 5 0
    let (di, s) := if (serPin s e 4).isSome || !bit w 9 then (di, s) else
      let (v, s) := drawFree s
      (v.setWidth 32, s)
    let s := s.modPe e (xferBits (bit w 10) (bit w 8) (bit w 9) (serPin s e 0) (xferDi s e (bit w 8) di) n)
    let s := match serPin s e 8 with
      | some k => s.modPe e (fun p => { p with lvl := setBit p.lvl k (s.fld (aPIO_SER e) 16 16 = 1) })
      | none => s
    peDone s e (2 * (s.fld (aPIO_SER e) 15 12 + 1) * n))

/-- TXR takes the head of TXQ (R435). -/
def peFetch (s : State) (e : Nat) : State :=
  s.modPe e (fun p => match p.txq with
    | [] => p
    | x :: r => { p with txr := x, tc := 32, txq := r })

/-- `FETCH` (R435, R439). -/
def execFetch (t : Time) (e : EngIx) (s : State) : Out :=
  let e := e.val
  event s t (peRuns 2 e t) (fun s =>
    if bit (peWord s e) 8 && (s.pe e).txq.isEmpty then peStall s e t else peDone (peFetch s e) e 1)

/-- RXQ takes RXR, or loses it where it is full (R435, R438). -/
def peStore (s : State) (e : Nat) (t : Time) : State :=
  let full := rxFull s e
  let s := if full then s.bump (aPIO_CNT e) 31 16 1 else s
  s.modPe e (fun p => { p with
    rxq := if full then p.rxq else p.rxq ++ [(p.rxr, t, s.dtime t)]
    ovf := p.ovf || full, rxr := 0, rc := 0 })

/-- `STORE` (R435, R438, R439). -/
def execStore (t : Time) (e : EngIx) (s : State) : Out :=
  let e := e.val
  event s t (peRuns 3 e t) (fun s =>
    if bit (peWord s e) 8 && rxFull s e then peStall s e t else peDone (peStore s e t) e 1)

/-- Reverse the byte order of a word. -/
def byteSwap (v : BitVec 32) : BitVec 32 := BitVec.ofNat 32 (leVal (leBytes 4 v.toNat).reverse)

/-- A source of COPY (R435). -/
def peSource (p : Pe) (pins : Byte) (c : Nat) : BitVec 32 :=
  match c with
  | 0 => p.txr | 1 => p.rxr | 2 => p.w0 | 3 => p.w1 | 4 => pins.setWidth 32
  | 5 => BitVec.ofNat 32 p.txq.length | _ => 0

/-- `COPY` (R435). -/
def execCopy (t : Time) (e : EngIx) (pins : Byte) (s : State) : Out :=
  let e := e.val
  event s t (peRuns 4 e t) (fun s =>
    let w := peWord s e
    let seen := pinsSeen s e pins
    let s := s.modPe e (fun p =>
      let x := peSource p seen (bits w 7 4)
      let v := match bits w 3 0 with | 0 => x | 1 => ~~~x | _ => byteSwap x
      match bits w 11 8 with
      | 0 => { p with txr := v, tc := 32 }
      | 1 => { p with rxr := v, rc := 32 }
      | 2 => { p with w0 := v }
      | 3 => { p with w1 := v }
      | _ => { p with lvl := v.toNat % 256 })
    peDone s e 1)

/-- `IMM` (R435). -/
def execImm (t : Time) (e : EngIx) (s : State) : Out :=
  let e := e.val
  event s t (peRuns 5 e t) (fun s =>
    let w := peWord s e
    let put (v : BitVec 32) : BitVec 32 := BitVec.ofNat 32
      (if bit w 17 then setBits v.toNat 31 16 (bits w 15 0) else setBits v.toNat 15 0 (bits w 15 0))
    let s := s.modPe e (fun p => if bit w 16 then { p with w1 := put p.w1 } else { p with w0 := put p.w0 })
    peDone s e 1)

/-- `LOOP` (R437). -/
def execLoop (t : Time) (e : EngIx) (s : State) : Out :=
  let e := e.val
  event s t (peRuns 6 e t) (fun s =>
    let w := peWord s e
    s.modPe e (fun p => { peSpend 1 w p with
      stack := ⟨p.pc + 1, bits w 21 16, bits w 15 0 + 1⟩ :: p.stack, pc := p.pc + 1 }))

/-- The latch bit that an instruction names in its `TMR` and `EVT` fields. -/
def peLatchBit (tmr evt : Nat) : Nat := 4 * tmr + evt

/-- Whether a level, queue or timer-event WAIT condition holds now (R437). -/
def waitHolds (s : State) (e : Nat) (pins : Byte) (edge : Bool) : Bool :=
  let w := peWord s e
  let pin := (pinsSeen s e pins).getLsbD (bits w 2 0)
  match bits w 11 8 with
  | 0 => pin
  | 1 => !pin
  | 2 => edge
  | 3 => edge
  | 4 => bit (s.pe e).latch (peLatchBit (bits w 7 4) (bits w 13 12))
  | 5 => !(s.pe e).txq.isEmpty
  | _ => !rxFull s e

/-- A timer-event WAIT clears the latch that BR tests (R437). -/
def waitClear (s : State) (e : Nat) : State :=
  let w := peWord s e
  if bits w 11 8 = 4 then
    s.modPe e (fun p => { p with latch := setBit p.latch (peLatchBit (bits w 7 4) (bits w 13 12)) false })
  else s

/-- `WAIT` (R437, R439): it completes at once, or the engine stalls. -/
def execWait (t : Time) (e : EngIx) (pins : Byte) (s : State) : Out :=
  let e := e.val
  event s t (peRuns 7 e t) (fun s =>
    let s := waitClear s e
    if waitHolds s e pins false then peDone s e 1 else peStall s e t)

/-- Whether a BR condition holds (R435). -/
def brHolds (s : State) (e : Nat) (pins : Byte) : Bool :=
  let w := peWord s e
  let p := s.pe e
  let pin := (pinsSeen s e pins).getLsbD (bits w 14 12)
  match bits w 11 8 with
  | 0 => true
  | 1 => pin
  | 2 => !pin
  | 3 => p.txq.isEmpty
  | 4 => rxFull s e
  | 5 => decide (p.w0 = p.w1)
  | 6 => decide (p.w0 = 0)
  | _ => bit p.latch (peLatchBit (bits w 19 16) (bits w 21 20))

/-- `BR` (R435, R437). -/
def execBr (t : Time) (e : EngIx) (pins : Byte) (s : State) : Out :=
  let e := e.val
  event s t (peRuns 8 e t) (fun s =>
    let w := peWord s e
    let taken := brHolds s e pins
    let s := if bits w 11 8 = 7 then
        s.modPe e (fun p => { p with latch := setBit p.latch (peLatchBit (bits w 19 16) (bits w 21 20)) false })
      else s
    if taken then
      s.modPe e (fun p => { peSpend 1 w p with pc := bits w 5 0, stack := pePop (bits w 5 0) p.stack })
    else peDone s e 1)

/-! ## Packets (R438, R319) -/

/-- The stream takes a PIODATA packet: credit on VS0, and no earlier one waits. -/
def pioRoom (s : State) (e : Nat) : Bool :=
  let q := s.port (s.pe e).port
  decide (0 < credit q.cr 0) && !q.vq.any (fun k => decide (k.type = 8))

/-- The PIODATA packet of an engine's buffer (R319). -/
def pioPacket (s : State) (e : Nat) : List Byte :=
  let p := s.pe e
  withCrc32 ([byte e, byte (b2n p.ovf)] ++ leBytes 2 p.buf.length ++ leBytes 4 p.pkts ++
    leBytes 8 p.bufD ++ p.buf.flatMap (fun w => leBytes 4 w.toNat))

/-- The buffer leaves: it goes to VS0, is lost where the port is out of ACTIVE, and waits where VS0 lacks credit (R438). -/
def pioSend (s : State) (e : Nat) : State :=
  let p := s.pe e
  let gone (o : Bool) (p : Pe) : Pe :=
    { p with buf := [], bufAt := none, ovf := o, pkts := (p.pkts + 1) % 2 ^ 32, flush := false }
  if p.buf.isEmpty then s
  else if !s.portActive p.port then
    ((s.bump (aPIO_CNT e) 31 16 p.buf.length).bump (aPIO_CNT e) 15 0 1).modPe e (gone true)
  else if pioRoom s e then
    let pk : Pkt := ⟨8, 0, pioPacket s e, 0, none, 0⟩
    (s.modPort p.port (fun q => { q with vq := q.vq ++ [pk] })).modPe e (gone false)
  else s.modPe e (fun p => { p with flush := true })

/-- `FLUSH` (R435, R438). -/
def execFlush (t : Time) (e : EngIx) (s : State) : Out :=
  let e := e.val
  event s t (peRuns 9 e t) (fun s => peDone (pioSend s e) e 1)

/-- `END` (R441). -/
def execEnd (t : Time) (e : EngIx) (s : State) : Out :=
  event s t (peRuns 10 e.val t) (fun s => s.modPe e.val peStop)

/-- `PIO_ILLEGAL` (R435, R439). -/
def execPioIllegal (t : Time) (e : EngIx) (s : State) : Out :=
  event s t (fun s => peReady s e.val t && peIllegal s e.val) (fun s => peHalt s e.val 2 t)

/-- The first engine tick at or after an instant. -/
def peTickAt (s : State) (e : Nat) (t : Time) : Nat := divCeil (256 * (pioCycle t - (s.pe e).start)) (peDiv s e)

/-- Whether the condition of a stalled engine's instruction holds. -/
def stallOver (s : State) (e : Nat) (pins : Byte) (edge : Bool) : Bool :=
  match peOp (peWord s e) with
  | 2 => !(s.pe e).txq.isEmpty
  | 3 => !rxFull s e
  | _ => waitHolds s e pins edge

/-- `PIO_STALL_END` (R437, R439): the instruction takes its tick from the next engine tick on. -/
def execPioStallEnd (t : Time) (e : EngIx) (pins : Byte) (edge : Bool) (s : State) : Out :=
  let e := e.val
  event s t (fun s => decide ((s.pe e).st = .stalled) && stallOver s e pins edge) (fun s =>
    let s := s.modPe e (fun p => { p with ticks := max p.ticks (peTickAt s e t) })
    let s := match peOp (peWord s e) with
      | 2 => peFetch s e
      | 3 => peStore s e t
      | _ => waitClear s e
    peDone s e 1)

/-- `WAIT_TIMEOUT` (R439). -/
def execWaitTimeout (t : Time) (e : EngIx) (s : State) : Out :=
  let e := e.val
  event s t (fun s =>
    let tmo := s.fld (aPIO_TMO e) 15 0
    decide ((s.pe e).st = .stalled) && decide (peOp (peWord s e) = 7) && decide (0 < tmo) &&
    (match (s.pe e).waitFrom with | some f => decide (f + tmo * us ≤ t) | none => false))
    (fun s => peHalt s e 1 t)

/-- `RXQ_WORD_MOVE`: one word per PIO cycle (R438). -/
def execRxqWordMove (t : Time) (e : EngIx) (s : State) : Out :=
  let e := e.val
  event s t (fun s => !(s.pe e).rxq.isEmpty && decide ((s.pe e).buf.length < 256) &&
      decide ((s.pe e).movedAt ≠ some (pioCycle t))) (fun s =>
    s.modPe e (fun p => match p.rxq with
      | [] => p
      | x :: r => { p with
          rxq := r, buf := p.buf ++ [x.1], bufAt := some (p.bufAt.getD x.2.1)
          bufD := if p.bufAt.isSome then p.bufD else x.2.2, movedAt := some (pioCycle t) }))

/-- Whether the buffer can leave or be lost now. -/
def pioCanLeave (s : State) (e : Nat) : Bool := !s.portActive (s.pe e).port || pioRoom s e

/-- `PIODATA_PACKET`: the buffer holds PKT_WORDS words, or a FLUSH waited for credit (R438). -/
def execPiodataPacket (t : Time) (e : EngIx) (s : State) : Out :=
  let e := e.val
  event s t (fun s => !(s.pe e).buf.isEmpty && pioCanLeave s e &&
    (decide (s.fld (aPIO_PKT e) 8 0 ≤ (s.pe e).buf.length) || (s.pe e).flush)) (fun s => pioSend s e)

/-- `PKT_US_EXPIRY` (R438). -/
def execPktUsExpiry (t : Time) (e : EngIx) (s : State) : Out :=
  let e := e.val
  event s t (fun s => pioCanLeave s e && (match (s.pe e).bufAt with
    | some b => decide (b + s.fld (aPIO_PKT e) 31 16 * us ≤ t)
    | none => false)) (fun s => pioSend s e)

/-! ## Commands -/

def peMaskList (m : Nat) : List Nat := (List.range 8).filter (fun e => bit m e)
def needPeLeases (s : State) (c : Call) (m : Nat) : List (Option Reject) :=
  (peMaskList m).map (fun e => needLease s c (lPE e))
def peStopped (s : State) (e : Nat) : Bool := decide ((s.pe e).st = .stopped)

/-- `TXQ_DEPTH` takes a value; a change empties both queues (R441). -/
def setDepth (s : State) (e v : Nat) : State :=
  let s' := s.setFld (aPIO_QCFG e) 5 0 v
  if v = peDepth s e then s' else s'.modPe e (fun p => { p with txq := [], rxq := [] })

/-- `LOAD_PIO` (R448, R441). -/
def execLoadPio (c : Call) (s : State) : Out :=
  let pl := c.payload
  let e := u8 pl 0 % 8
  let n := u8 pl 2
  let cfg := bit (u8 pl 3) 0
  command s c 0x0710 .fast (fun s => [need (decide (pl.length = 20 + 4 * n)) .badLength,
      needLease s c (lPE e), argZero c, argOk (decide (u8 pl 0 < 8)) 0, argOk (decide (u8 pl 1 < 64)) 1,
      argOk (decide (n ≤ 64 ∧ u8 pl 1 + n ≤ 64)) 2, reservedBits pl 3 0xFE, argOk (!cfg || decide (1 ≤ u16 pl 4)) 4,
      argOk (!cfg || decide (u8 pl 7 ≤ 32)) 7, argOk (decide (u16 pl 8 < 4096)) 8, reservedBits pl 10 0xC0, reserved pl 11 1,
      argOk (!cfg || decide (1 ≤ u16 pl 16 ∧ u16 pl 16 ≤ 256)) 16, argOk (!cfg || decide (1 ≤ u16 pl 18)) 18,
      need (peStopped s e) .badState])
    (fun s =>
      let s := (List.range n).foldl (fun s k => s.setReg (aPIO_IMEM e (u8 pl 1 + k)) (u32 pl (20 + 4 * k))) s
      let s := if cfg then
          let s := setDepth s e (u8 pl 7)
          let s := s.setReg (aPIO_DIV e) (u16 pl 4 * 2 ^ 16 + u8 pl 6)
          let s := s.setReg (aPIO_SER e) (u16 pl 8 + bits (u8 pl 10) 3 0 * 2 ^ 12 + bits (u8 pl 10) 5 4 * 2 ^ 16)
          let s := s.setReg (aPIO_TMO e) (u16 pl 14)
          let s := s.setReg (aPIO_PKT e) (u16 pl 18 * 2 ^ 16 + u16 pl 16)
          { s with pio := { s.pio with
            initDir := modAt s.pio.initDir e (fun _ => u8 pl 12), initVal := modAt s.pio.initVal e (fun _ => u8 pl 13) } }
        else s
      okWith s c 0x0710 .fast [])

/-- `START_PIO` (R449, R440). -/
def execStartPio (c : Call) (s : State) : Out :=
  let pl := c.payload
  command s c 0x0711 .fast (fun s => [lenIs c 12] ++ needPeLeases s c (u8 pl 0) ++
      [argZero c, reservedBits pl 1 0xFE, reserved pl 2 2] ++
      (List.range 8).map (fun e => argOk (decide (u8 pl (4 + e) < 64)) (4 + e)) ++
      (peMaskList (u8 pl 0)).map (fun e => need (peStopped s e) .badState))
    (fun s =>
      let port : PortIx := match c.src with | .port p => p | .sideband => 0
      let s := (peMaskList (u8 pl 0)).foldl (fun s e =>
        let s := s.setFld (aPIO_CTL e) 0 0 (u8 pl 1)
        s.modPe e (fun p => { p with
          st := .running, fault := 0, pc := u8 pl (4 + e), w0 := 0, w1 := 0, txr := 0, rxr := 0, tc := 0, rc := 0, stack := []
          latch := 0, dir := s.pio.initDir.getD e 0, lvl := s.pio.initVal.getD e 0, port := port, start := pioCycle c.start
          ticks := 0, waitFrom := none })) s
      okWith s c 0x0711 .fast (leBytes 8 (s.dtime c.start)))

/-- `STOP_PIO` (R450, R441). -/
def execStopPio (c : Call) (s : State) : Out :=
  let pl := c.payload
  command s c 0x0712 .fast (fun s => [lenIs c 4] ++ needPeLeases s c (u8 pl 0) ++
      [argZero c, reservedBits pl 1 0xFE, reserved pl 2 2]) (fun s =>
    let rep := (List.range 8).flatMap (fun e =>
      let p := s.pe e
      let st := match p.st with | .stopped => 0 | .running => 1 | .stalled => 2 | .halted => 3
      if bit (u8 pl 0) e then [byte (st + 4 * p.fault), byte p.tc, byte p.rc, byte p.pc] else zeros 4)
    let s := (peMaskList (u8 pl 0)).foldl (fun s e =>
      let s := (peRelease s e c.start).modPe e (fun p => if p.st = .stopped then p else peStop p)
      if bit (u8 pl 1) 0 then
        let p := s.pe e
        (s.bump (aPIO_CNT e) 31 16 (p.rxq.length + p.buf.length)).modPe e (fun p => { p with
          txq := [], rxq := [], buf := [], bufAt := none, flush := false })
      else s) s
    okWith s c 0x0712 .fast rep)

/-- `PIO_QUEUE` (R451). -/
def execPioQueue (c : Call) (s : State) : Out :=
  let pl := c.payload
  let e := u8 pl 0 % 8
  let n := u16 pl 2
  let room (s : State) : Nat := peDepth s e - (s.pe e).txq.length
  command s c 0x0713 .fast (fun s => [need (decide (pl.length = 4 + 4 * n)) .badLength, needLease s c (lPE e), argZero c,
      argOk (decide (u8 pl 0 < 8)) 0, reservedBits pl 1 0xFE, argOk (decide (1 ≤ n ∧ n ≤ 191)) 2,
      need (decide (peDepth s e ≠ 0)) .badState,
      need (!bit (u8 pl 1) 0 || decide (n ≤ room s)) .noResource])
    (fun s =>
      let k := min n (room s)
      let ws := (List.range k).map (fun i => BitVec.ofNat 32 (u32 pl (4 + 4 * i)))
      let s := s.modPe e (fun p => { p with txq := p.txq ++ ws })
      okWith s c 0x0713 .fast (leBytes 2 k ++ [byte (s.pe e).txq.length, 0]))

/-- The ranges of a pin's `ARG` by its `MUX` (R442, R452). -/
def pinArgOk (cfg arg : Nat) : Bool :=
  match cfg % 4 with
  | 2 => decide (arg < 16)
  | 3 => decide (1 ≤ arg)
  | _ => decide (arg = 0)

/-- A pin takes its configuration; a pin that leaves FSYNC_OUT is no longer timed. -/
def setPin (s : State) (pin cfg arg : Nat) : State :=
  let k := pin / 4
  let j := 8 * (pin % 4)
  let s := (s.setFld (aPIO_PINCFG k) (j + 7) j cfg).setFld (aPIO_PINARG k) (j + 7) j arg
  if cfg % 4 = 3 then s else { s with pio := { s.pio with fsync := s.pio.fsync.filter (fun x => x.1 ≠ pin) } }

/-- `CONFIG_PINS` (R452). -/
def execConfigPins (c : Call) (s : State) : Out :=
  let pl := c.payload
  let n := u8 pl 0
  let ix := List.range n
  let pin (i : Nat) : Nat := u8 pl (4 + 4 * i)
  command s c 0x0714 .fast (fun s => [need (decide (pl.length = 4 + 4 * n)) .badLength] ++
      (ix.filter (fun i => decide (pin i < 64))).map (fun i => needLease s c (lPE (pin i / 8))) ++
      [argZero c, argOk (decide (1 ≤ n ∧ n ≤ 64)) 0, reserved pl 1 3] ++
      ix.flatMap (fun i => [
        argOk (decide (pin i < 64) && !(List.range i).any (fun j => decide (pin j = pin i))) (4 + 4 * i),
        argOk (decide (bits (u8 pl (5 + 4 * i)) 5 4 ≠ 3)) (5 + 4 * i),
        argOk (pinArgOk (u8 pl (5 + 4 * i)) (u8 pl (6 + 4 * i))) (6 + 4 * i), reserved pl (7 + 4 * i) 1]))
    (fun s => okWith (ix.foldl (fun s i => setPin s (pin i) (u8 pl (5 + 4 * i)) (u8 pl (6 + 4 * i))) s) c 0x0714 .fast [])

end Sys2Proof.Machine
end

