-- ==== Sys2Proof/Machine/OtpOps.lean ====
section
/-! DEFINITION. OTP settings in force, programming word by word, the alarms, and firmware images (R457 to R490). -/

namespace Sys2Proof.Machine

/-! ## What the boot reads (R457 to R464, R469 to R472, R481) -/

/-- Copy in use of a region. -/
def useB (s : State) (r : Nat) : Bool := match s.otp.regions[r]? with | some g => g.copyB | none => false
def regionFailed (s : State) (r : Nat) : Bool := match s.otp.regions[r]? with | some g => g.failed | none => false

/-- A word of a region as it stands, in the copy in use. -/
def liveWord (s : State) (r k : Nat) : Nat := copyWordD s.otp.cells r (useB s r) k

/-- Body words as the boot read them, none where the region failed or its body is blank. DEDUCED: a blank body gives the reset values of
R463. -/
def bodyOf (s : State) (r n : Nat) : Option (List Nat) :=
  let w := bootWords s r n
  if w.all (· = 0) then none else some w

def Life.ofMark : Nat → Life
  | 0 => .blank | 1 => .manufacture | 2 => .provisioned | 3 => .field | _ => .ret

/-- The highest valid marker (R458, R469). -/
def markerState (s : State) : Life :=
  Life.ofMark (maxL (0 :: [1, 2, 3, 4].filter (fun m => decide (liveWord s 1 m = 0x4C430000 + m))))

/-- A group of words holds something. -/
def groupUsed (s : State) (r first n : Nat) : Bool := (List.range n).any (fun k => decide (liveWord s r (first + k) ≠ 0))

/-- Instances used of a limited setting: key slot (region 3), alarm policy or override (region 2). -/
def keyUsed (s : State) (slot : Nat) : Nat := countIf (fun i => groupUsed s 3 (288 + 128 * slot + 16 * i) 16) (List.range 8)
def polUsed (s : State) (kind : Nat) : Nat := countIf (fun i => groupUsed s 2 (16 + 16 * kind + 4 * i) 4) (List.range 4)

/-- First unused place of `n` instances. -/
def freePlace (n : Nat) (used : Nat → Bool) : Option Nat := (List.range n).find? (fun i => !used i)

/-- The valid instance of the highest index, with its value. -/
def polInst (s : State) (kind : Nat) : Option Nat :=
  if regionFailed s 2 then none
  else (List.range 4).reverse.findSome? (fun i =>
    let k := 16 + 16 * kind + 4 * i
    if instSt (liveWord s 2) (k, 4) = .valid ∧ liveWord s 2 k = 0x50000000 + 256 * kind + i then some (liveWord s 2 (k + 1)) else none)

/-- The alarm policy in force (R458, R481). -/
def alarmPolicy (s : State) : Nat :=
  match polInst s 0 with
  | some v => v % 2 ^ 17
  | none => match bodyOf s 2 16 with | some w => (Config.policyAlarm w).toNat | none => 0x1004

/-- The boot-profile override in force (R458, R472). -/
def overrideOf (s : State) : Option Nat :=
  match polInst s 1 with
  | some v => if v ≤ 3 then some v else none
  | none => match bodyOf s 2 16 with | some w => (Config.policyOverride w).map (·.val) | none => none

def roleOf : Nat → Role | 0 => .viewer | 1 => .primary | _ => .safety

def kekBytes : List Byte := leBytes 32 Config.kek.toNat

/-- The wrapped key of ten words, unwrapped (R471). -/
def unwrapWords (s : State) (first : Nat) : Option (List Byte) :=
  keyUnwrap kekBytes ((List.range 10).flatMap (fun k => leBytes 4 (liveWord s 3 (first + k))))

/-- A key slot (R458, R471). -/
def keySlotOf (s : State) (slot : Nat) : KeySlot :=
  let inst := if regionFailed s 3 || !s.sec.pufOk then none else
    (List.range 8).reverse.findSome? (fun i =>
      let k := 288 + 128 * slot + 16 * i
      let h := liveWord s 3 k
      if instSt (liveWord s 3) (k, 16) = .valid ∧ h / 256 = 0x4B0000 + 256 * slot + i ∧ h % 256 ≤ 2 then
        some (i, roleOf (h % 256), k + 1)
      else none)
  ⟨keyUsed s slot, inst.bind (fun x => (unwrapWords s x.2.2).map (fun key => (x.1, x.2.1, key)))⟩

/-- Helper data are present in a copy: the PUF has been enrolled (R462, R471). -/
def enrolled (cells : List OtpCell) : Bool :=
  cells.any (fun c => (decide (0x0200 ≤ c.addr ∧ c.addr < 0x0300) || decide (0x0520 ≤ c.addr ∧ c.addr < 0x0620)) &&
    (decide (c.norm ≠ 0) || decide (c.strict ≠ 0)))

/-- Keys and policy take their values from the words as they stand. DEDUCED: an instance takes effect when its programming completes. -/
def otpSettings (s : State) : State :=
  let s := { s with sec := { s.sec with slots := (List.range 4).map (keySlotOf s) } }
  { s with sec := { s.sec with
    alarmPol := alarmPolicy s
    vendor := if s.sec.pufOk && !regionFailed s 3 && groupUsed s 3 256 10 then unwrapWords s 256 else none } }

/-- The anti-rollback counter (R458, R460). -/
def rollbackOf (s : State) : Nat :=
  if regionFailed s 4 then 64 else countIf (fun n => programmed s.otp.cells (0x0840 + 1 + n)) ((List.range 64).map (· + 1))

/-- The static defect entries (R101, R457). -/
def defectsOf (s : State) : List Nat :=
  let w := bootWords s 8 8176
  let n := min 8158 (w.headD 0)
  let ret := (List.range 16).map (fun k => (otpWord s.otp.bootCells (0x2000 + 8159 + k)))
  let ret := (ret.filterMap (fun x => x)).takeWhile (· ≠ 0)
  if w.isEmpty then [] else (w.drop 1).take n ++ ret.filter (fun e => decide (bits e 5 3 = 7))

/-- A THERMLOG entry used (R415, R460). -/
def logEntryUsed (s : State) (e : Nat) : Bool :=
  programmed s.otp.cells (0x08C0 + 2 + 2 * e) || programmed s.otp.cells (0x08C0 + 3 + 2 * e)
def logUsed (s : State) : Nat := if regionFailed s 5 then 32 else countIf (logEntryUsed s) (List.range 32)

/-- A region's integrity, with the check of the KEK for KEYS (R462). -/
def bootRegion (cells : List OtpCell) (kekOk : Bool) (r : Nat) : OtpRegion :=
  let g := evalRegion cells r
  if r = 3 ∧ enrolled cells ∧ !kekOk then { g with failed := true } else g

/-- Instances left incomplete (R458). -/
def incompleteOf (s : State) : Nat :=
  sumL ([2, 3].map (fun r => countIf (fun i => decide (instSt (liveWord s r) i = .incomplete)) (instancesOf r)))

/-- Step 3 of the boot reads the OTP (R401, R459 to R464). The lifecycle moves only at a cold reset (R469). -/
def otpBoot (s : State) (cold kekOk : Bool) (t : Time) : State :=
  let cells := s.otp.cells
  let regs := (List.range 9).map (bootRegion cells kekOk)
  let s := { s with otp := { s.otp with
    bootCells := cells, regions := regs
    readCorr := min 255 (countIf (fun c => match acceptCell c with | some (_, x) => x | none => false) cells)
    readSubst := min 255 (sumL (regs.map OtpRegion.subst))
    badLog := min 255 (countIf (fun e => [2, 3].any (fun k => (acceptCell (cellAt cells (0x08C0 + k + 2 * e))).isNone)) (List.range 32)) } }
  let s := { s with otp := { s.otp with incomplete := min 255 (incompleteOf s) } }
  let bad := regs.any (fun g => g.failed)
  let life := if bad then .field else if cold then markerState s else s.sec.life
  let s := { s with sec := { s.sec with
    life := life, lcNext := if bad then .field else markerState s, untrusted := bad
    killed := killSet cells
    pufOk := enrolled cells && kekOk && !regionFailed s 3
    unauth := match bodyOf s 2 16 with
      | some w => allPorts.map (fun p => roleOf (Config.policyRole w p).val)
      | none => [.viewer, .viewer, .viewer, .viewer]
    rollback := rollbackOf s
    uid := match bodyOf s 0 31 with | some w => leBytes 8 (Config.identUid w).toNat | none => zeros 8
    pid := match bodyOf s 0 31 with | some w => leBytes 6 (Config.identPid w).toNat | none => zeros 6
    defects := defectsOf s } }
  let s := { s with sec := { s.sec with
    killedTiles := (List.finRange 192).filter (fun t => (tileDefects s.sec.defects t.val).any (fun e => decide (bits e 5 3 = 7))) } }
  let s := otpSettings s
  regs.zipIdx.foldl (fun s g => if g.1.failed then stand s fOTP_INTEGRITY g.2 t else unstand s fOTP_INTEGRITY g.2 t) s

/-! ## Programming (R465, R466) -/

def OtpWhat.own : OtpWhat → Bool
  | .cmd _ _ _ => false
  | .killReturn _ _ => false
  | _ => true

/-- Temperature part of the window of R465: every working sensor reads 0 °C to 85 °C. -/
def otpWindow (s : State) : Bool :=
  decide (s.pw.st = .standby ∨ s.pw.st = .active) &&
  s.th.sensors.all (fun x => x.failed || decide (0 ≤ x.temp ∧ x.temp ≤ 680))

/-- Programming begins or waits: an own write goes ahead of a command's, at the end of the word in progress (R466). -/
def pushJob (s : State) (j : OtpJob) : State :=
  let l := match s.otp.jobs with
    | [] => [j]
    | a :: r => if j.what.own then a :: (r.filter (fun x => x.what.own) ++ j :: r.filter (fun x => !x.what.own)) else a :: r ++ [j]
  { s with otp := { s.otp with jobs := l } }

def killJob : OtpJob := ⟨.kill, [(killAddr, 0)], 0⟩

/-- Both copies of words of copy A of a region (R467). -/
def bothCopies (r : Nat) (ws : List (Nat × Nat)) : List (Nat × Nat) :=
  let (a, _, b) := regionSpan r
  match b with
  | some b => ws ++ ws.map (fun w => (w.1 + b - a, w.2))
  | none => ws

/-! ## Alarms (R480 to R483) -/

/-- The action of a source: code 3 acts as LOCK. -/
def alarmAction (s : State) (b : Nat) : Nat :=
  let a := bits s.sec.alarmPol (2 * b + 1) (2 * b)
  if a = 3 then 1 else a

def alarmClass (s : State) (a : Nat) : AlarmCls :=
  if a ≠ 0 then .standing else if bit s.sec.alarmPol 16 then .latched else .none

/-- The key-kill in force: the word, or the Keeper latch (R466, R473). -/
def killedNow (s : State) : Bool := s.sec.killed || s.sec.killLatch

/-- The ALARM notification (R483). -/
def notifyAlarm (s : State) (b a flags dtime : Nat) (t : Time) : State :=
  notifyAll s 0x8008 ([byte b, byte a, byte (flags + 2 * b2n (killedNow s)), 0] ++
    leBytes 4 (if b = 6 then 16 else 0) ++ leBytes 8 dtime) t

/-- An alarm acts (R481). DEDUCED: the ALARM of an ERASE is sent once `KILL_HOST` has been programmed, as in the example of R483. -/
def actAlarm (s : State) (b a flags : Nat) (t : Time) : State :=
  let s := if a = 0 then s else
    allPorts.foldl (fun s p => endAuth s p t) { s with sec := { s.sec with lockStands := true, lockBy := s.sec.lockBy ++ [(b, a)] } }
  let s := occurCls s fALARM b (alarmClass s a) (decide (a ≠ 0)) t
  if a = 2 ∧ !s.sec.killed then
    pushJob { s with sec := { s.sec with alarmWait := s.sec.alarmWait ++ [(b, a, flags, s.dtime t)] } } killJob
  else notifyAlarm s b a flags (s.dtime t) t

/-- A source fires: one alarm per cold reset, later occurrences only count (R480). -/
def fireAlarm (s : State) (b : Nat) (t : Time) : State :=
  if bit s.sec.fired b then
    if (faultIx s.log.entries fALARM b).isSome then
      occurCls s fALARM b (match faultIx s.log.entries fALARM b with
        | some i => (s.log.entries.getD i ⟨0, 0, 0, false, .none, 0, 0, false, 0⟩).cls
        | none => .none) false t
    else s
  else actAlarm { s with sec := { s.sec with fired := setBit s.sec.fired b true } } b (alarmAction s b) 0 t

/-- In BUOY the Keeper latches a source and its action (R482). -/
def latchAlarm (s : State) (b : Nat) : State :=
  if s.sec.buoyLatch.any (fun x => x.1 = b) then s
  else { s with sec := { s.sec with buoyLatch := s.sec.buoyLatch ++ [(b, alarmAction s b)] } }

/-- A source fires where the T192 stands: latched in BUOY, acted on where the control processor runs, nothing without power. -/
def alarmEvent (s : State) (b : Nat) (buoy : Bool) (t : Time) : State :=
  match s.pw.st with
  | .off => s
  | .buoy => if buoy then latchAlarm s b else s
  | _ => fireAlarm s b t

/-! ## The end of a word (R465, R466) -/

/-- The cells with one word's bits as they now read. A bit that reads 1 at the strict margin reads 1 at the normal one, and a programmed bit stays. -/
def putCell : List OtpCell → Nat → Nat → Nat → List OtpCell
  | [], a, n, k => if n = 0 ∧ k = 0 then [] else [⟨a, n, k⟩]
  | c :: r, a, n, k =>
    if c.addr = a then ⟨a, Nat.lor c.norm n, Nat.lor c.strict k⟩ :: r
    else if a < c.addr then (if n = 0 ∧ k = 0 then c :: r else ⟨a, n, k⟩ :: c :: r)
    else c :: putCell r a n k

/-- A word verifies: both margins read its codeword. The data of `KILL_HOST` is not given, so any word that decodes and is not blank
verifies there. DESIGN CHOICE: the verify margin is taken to agree with both reads. -/
def verifies (a d norm strict : Nat) : Bool :=
  if a = killAddr then decide (norm = strict ∧ norm ≠ 0) && (otpDecode norm).isSome
  else decide (norm = otpEncode d ∧ strict = otpEncode d)

def inCopyB (a : Nat) : Bool := match regionOf a with | some (_, _, b) => b | none => false

/-- The COMPLETE of a programming command (R486, R487). -/
def otpComplete (s : State) (src : Src) (op : Nat) (tag : BitVec 16) (st : Status) (written failAddr : Nat) (t : Time) : State :=
  let res : List Byte := match op with
    | 0x0911 => leBytes 2 written ++ leBytes 2 failAddr
    | 0x0913 => [byte (match s.sec.lcNext with | .blank => 0 | .manufacture => 1 | .provisioned => 2 | .field => 3 | .ret => 4), 0, 0, 0]
    | _ => []
  complete s src op tag st res t

/-- ALARM notifications that waited for `KILL_HOST` go out. -/
def flushAlarms (s : State) (t : Time) : State :=
  let l := s.sec.alarmWait
  l.foldl (fun s x => notifyAlarm s x.1 x.2.1 x.2.2.1 x.2.2.2 t) { s with sec := { s.sec with alarmWait := [] } }

/-- A shutdown that OTP does not hold is kept by the Keeper: the newest four, and a count (R415). -/
def keepLog (s : State) (e : Nat × Nat) : State :=
  let l := s.th.kept ++ [e]
  { s with th := { s.th with kept := l.drop (l.length - 4), dropped := satAdd 8 s.th.dropped 1 } }

/-- A programming ends. -/
def endJob (s : State) (j : OtpJob) (st : Status) (failAddr : Nat) (t : Time) : State :=
  let ok := decide (st = .ok)
  let s := { s with otp := { s.otp with progStatus := if ok then 1 else 2 } }
  match j.what with
  | .cmd src op tag => otpComplete (otpSettings s) src op tag st j.written failAddr t
  | .killReturn src tag => otpComplete s src 0x0913 tag st j.written failAddr t
  | .thermlog e => if ok then s else keepLog s e
  | .kill => flushAlarms { s with sec := { s.sec with killed := s.sec.killed || ok, killLatch := !ok } } t
  | .rollback => s

/-- The programming goes on: the lifecycle marker, counter and kill that a verified word gives. -/
def afterWord (s : State) (j : OtpJob) (a : Nat) (ok : Bool) (t : Time) : State :=
  let s := { s with sec := { s.sec with
    lcNext := if s.sec.untrusted then s.sec.lcNext else markerState s
    rollback := rollbackOf s } }
  match j.what with
  | .killReturn _ _ =>
    if a = killAddr ∧ ok then allPorts.foldl (fun s p => endAuth s p t) { s with sec := { s.sec with killed := true } } else s
  | .cmd _ op _ => if op = 0x0911 ∧ a = 0x0200 + 265 ∧ ok then { s with sec := { s.sec with pufOk := true } } else s
  | _ => s

/-- One word's programming ends with its verify result. A command met by an alarm lock ends with LOCKED (R344, R481). -/
def wordDone (s : State) (norm strict : Nat) (t : Time) : State :=
  match s.otp.jobs with
  | ⟨what, (a, d) :: ws, written⟩ :: rest =>
    let norm := Nat.lor norm strict
    let ok := verifies a d norm strict
    let j : OtpJob := ⟨what, ws, if ok && !inCopyB a then written + 1 else written⟩
    let s := { s with otp := { s.otp with cells := putCell s.otp.cells a norm strict, lastAddr := a } }
    let s := afterWord s j a ok t
    let drop (s : State) : State := { s with otp := { s.otp with jobs := s.otp.jobs.drop 1 } }
    if !ok then endJob (drop s) j .fault a t
    else if ws.isEmpty then endJob (drop s) j .ok 0xFFFF t
    else if !what.own && s.sec.lockStands then endJob (drop s) j .locked 0xFFFF t
    else
      let own := rest.filter (fun x => x.what.own)
      let cmds := rest.filter (fun x => !x.what.own)
      { s with otp := { s.otp with jobs := if what.own then j :: own ++ cmds else own ++ j :: cmds } }
  | _ => s

/-- A reset drops every programming; a kill that had not finished stays latched. DESIGN CHOICE: the word in progress keeps its earlier bits. -/
def dropJobs (s : State) : State :=
  let kill := s.otp.jobs.any (fun j => decide (j.what = .kill))
  { s with otp := { s.otp with jobs := [], stopDusk := none }
           sec := { s.sec with killLatch := s.sec.killLatch || kill, alarmWait := [] } }

/-- A THERMLOG entry is programmed, or kept by the Keeper (R415). -/
def logShutdown (s : State) (e : Nat → Nat × Nat) : State :=
  let n := logUsed s
  if n < 32 then
    let (a, b) := e n
    pushJob s ⟨.thermlog (a, b), [(0x08C0 + 2 + 2 * n, a), (0x08C0 + 3 + 2 * n, b)], 0⟩
  else keepLog s (e 31)

/-! ## Authentication (R474 to R478) -/

/-- The bytes M(d) of R474. -/
def authMsg (s : State) (nonce : List Byte) (p slot gen d : Nat) : List Byte :=
  [0x41, 0x55, 0x54, 0x48] ++ nonce ++ s.sec.uid ++ [byte p, byte slot, byte gen, byte d]

/-- The tag key TK of a view (R477). -/
def tagKey (s : State) (key : List Byte) (v slot gen : Nat) : List Byte :=
  let c (n : Nat) := cmac key ([byte n, 0x54, 0x41, 0x47, 0x4B] ++ s.sec.uid ++ [byte v, byte slot, byte gen])
  c 1 ++ c 2

/-- A live NONCE of a port for a slot. -/
def liveNonce (s : State) (p : PortIx) (slot : Nat) (t : Time) : Option Nonce :=
  match s.sec.nonces.getD p.val none with
  | some n => if n.slot = slot ∧ t < n.issued + sec then some n else none
  | none => none

def clearNonce (s : State) (p : PortIx) : State := { s with sec := { s.sec with nonces := modAt s.sec.nonces p.val (fun _ => none) } }

/-- A failed authentication is counted; the sixteenth fires AUTHFAIL, and the count starts again after it (R475). -/
def authFailed (s : State) (p : PortIx) (t : Time) : State :=
  let n := if 16 ≤ s.sec.authFails then 1 else s.sec.authFails + 1
  let s := clearNonce s p
  let s := { s with sec := { s.sec with authFails := n, failAt := modAt s.sec.failAt p.val (fun _ => some t) } }
  if n = 16 then fireAlarm s 6 t else s

/-! ## Firmware images (R479, R489) -/

/-- The image bytes of a load: later pieces replace earlier ones. -/
def imageBody (l : FwLoad) : List Byte :=
  l.have_.foldl (fun b x => b.take x.1 ++ x.2 ++ b.drop (x.1 + x.2.length)) (zeros l.length)

/-- How far the pieces cover the body without a gap. -/
def coverTo : Nat → List (Nat × List Byte) → Nat → Nat
  | 0, _, pos => pos
  | n + 1, l, pos =>
    match l.find? (fun x => decide (x.1 ≤ pos ∧ pos < x.1 + x.2.length)) with
    | some x => coverTo n l (x.1 + x.2.length)
    | none => pos

def loadWhole (l : FwLoad) : Bool := decide (l.length ≤ coverTo (l.have_.length + 1) l.have_ 0)

/-- The signature covers header bytes 0 to 63 and the body. -/
def imageSigned (header body : List Byte) : Bool :=
  ecdsaVerify Config.vendorFwKey (sha256 (header.take 64 ++ body)) (beVal (toNats (slice header 64 32))) (beVal (toNats (slice header 96 32)))

end Sys2Proof.Machine
end

