-- ==== Sys2Proof/Machine/Thermal.lean ====
section
/-! DEFINITION. Thermal management: sampling, levels, Squall, enforcement, FOGHORN and shutdown (R405 to R422). -/

namespace Sys2Proof.Machine

/-! ## Settings in force (R408, R464) -/

/-- WARN, THROTTLE, CRITICAL and SHUTDOWN in °C. -/
def thresholds (s : State) : List Nat :=
  if s.sec.untrusted then [85, 95, 105, 110]
  else [s.fld aTHERM_THR0 7 0, s.fld aTHERM_THR0 15 8, s.fld aTHERM_THR0 23 16, s.fld aTHERM_THR0 31 24]

/-- Threshold of level `k`, 1 to 4, in 1/8 °C. -/
def thr8 (s : State) (k : Nat) : Int := 8 * ((thresholds s).getD (k - 1) 0 : Nat)
def hyst8 (s : State) : Int := 8 * ((if s.sec.untrusted then 3 else s.fld aTHERM_THR1 3 0 : Nat) : Int)
def squallThr (s : State) : Nat := if s.sec.untrusted then 10 else s.fld aTHERM_THR1 15 8
def graceLen (s : State) : Time := (if s.sec.untrusted then 100 else s.fld aTHERM_THR1 31 16) * ms

def State.modTherm (s : State) (f : Therm → Therm) : State := { s with th := f s.th }

/-- Sensors that work, by number. -/
def working (s : State) : List (Nat × Sensor) := (s.th.sensors.zipIdx.filter (fun x => !x.1.failed)).map (fun x => (x.2, x.1))

/-- The hottest working sensor and its reading; sensor 0 and 0x8000 where none works. -/
def hottest (s : State) : Nat × Int :=
  match working s with
  | [] => (0, -32768)
  | a :: r => let b := r.foldl (fun b x => if b.2.temp < x.2.temp then x else b) a; (b.1, b.2.temp)

/-- The highest rate of rise, in 1/8 °C/s. -/
def topRate (s : State) : Int :=
  match working s with
  | [] => 0
  | a :: r => max (-32768) (min 32767 (r.foldl (fun b x => max b x.2.rate) a.2.rate))

/-! ## FOGHORN (R413) -/

def graceMs (s : State) (t : Time) : Nat :=
  match s.th.grace with
  | some e => divCeil (e - t) ms
  | none => 2 ^ 32 - 1

/-- `FSEQ` of FOGHORN number `n`: it counts from 1 and wraps from 0xFFFF to 1. -/
def fseqOf (n : Nat) : Nat := if n = 0 then 0 else (n - 1) % 65535 + 1

/-- A FOGHORN goes to every port. -/
def foghorn (s : State) (cause : Nat) (t : Time) : State :=
  let n := s.th.fseq + 1
  let (k, v) := hottest s
  let pl := [byte (thermLevel s), byte s.th.step, byte cause, byte k] ++ leBytes 2 (unsigned 16 v) ++
    leBytes 2 (unsigned 16 (topRate s)) ++ leBytes 4 (graceMs s t) ++ leBytes 2 (fseqOf n) ++ [0, 0]
  notifyAll (s.modTherm (fun h => { h with fseq := n, last := pl, sentAt := t })) 0x8001 pl t

/-! ## Enforcement (R407, R410 to R412) -/

def stepCap (step : Nat) : Nat := if step = 0 then 2 else if step = 1 then 1 else 0

/-- The down timer runs while the step is above 0, the level below THROTTLE, no Squall stands and no failure holds step 3. -/
def downEval (s : State) (t : Time) : State :=
  s.modTherm (fun h => { h with down :=
    if 0 < h.step ∧ h.level < 2 ∧ !h.squall ∧ !h.forced then some (h.down.getD (t + 10 * sec)) else none })

/-- The step changes: its caps act at once, and a FOGHORN tells of it. -/
def setStep (s : State) (n cause : Nat) (t : Time) : State :=
  let old := s.th.step
  if n = old then s
  else
    let s := if old < n then s.bump aTHERM_EVT 15 8 1 else s
    let s := s.modTherm (fun h => { h with step := n })
    let s := setMemCap s (stepCap n) t
    let s := allPorts.foldl (fun s p => if dnCap s p < (s.port p).tr.dnRate then wantChange s p (some t) none else s) s
    foghorn s cause t

/-- The grace timer starts, unless it runs; a start stops the down timer. -/
def startGrace (s : State) (t : Time) : State :=
  if s.th.grace.isSome then s
  else s.modTherm (fun h => { h with grace := some (t + graceLen s), down := none })

/-! ## A sample (R406 to R409) -/

/-- One sensor at a sample, held as a signed 16-bit value in 1/8 °C (R405): failures, rate of rise and runs. A failed sensor returns after 64 good samples with no history. -/
def sensorStep (thr : List Int) (t : Time) (x : Sensor) (r : Option Int) : Sensor :=
  let dead : Sensor := { x with failed := true, badRun := 0, goodRun := 0, hist := [], tempRun := 0, hotRun := [0, 0, 0, 0], rate := 0 }
  match r with
  | none => dead
  | some r =>
    let v := max (-32768) (min 32767 r)
    let bad := decide (v < -480 ∨ 1280 < v)
    if x.failed then
      if bad then { x with goodRun := 0 }
      else if 64 ≤ x.goodRun + 1 then { dead with failed := false, temp := v, hist := [(t, v)] }
      else { x with goodRun := x.goodRun + 1 }
    else if bad && decide (4 ≤ x.badRun + 1) then dead
    else
      let fresh (y : Time × Int) : Bool := decide (t < y.1 + sec / 2)
      let older := x.hist.dropWhile fresh
      { x with
        temp := v, badRun := if bad then x.badRun + 1 else 0
        hist := (t, v) :: (x.hist.takeWhile fresh ++ older.take 1)
        tempRun := if v < -440 ∨ 1120 < v then x.tempRun + 1 else 0
        hotRun := List.zipWith (fun n (k : Int) => if k ≤ v then min 2 (n + 1) else 0) x.hotRun thr
        rate := match older with | o :: _ => 2 * (v - o.2) | [] => 0 }

/-- The sensors take their readings: TS_FAIL, peaks and the TEMP alarm follow. -/
def takeReads (s : State) (reads : List (Option Int)) (t : Time) : State :=
  let thr := [1, 2, 3, 4].map (thr8 s)
  (List.range 16).foldl (fun s n =>
    let x := s.th.sensors.getD n Sensor.reset
    let y := sensorStep thr t x (reads.getD n none)
    let s := s.modTherm (fun h => { h with sensors := modAt h.sensors n (fun _ => y) })
    let s := if y.failed && !x.failed then (stand s fTS_FAIL n t).bump aTHERM_EVT 7 0 1
      else if x.failed && !y.failed then unstand s fTS_FAIL n t else s
    let s := if !y.failed && decide (signed 16 (s.fld (aTHERM_PEAK n) 15 0) < y.temp) then
        s.setFld (aTHERM_PEAK n) 15 0 (unsigned 16 y.temp) else s
    if y.tempRun = 2 then fireAlarm s 4 t else s) s

/-- The level that two samples at or above a threshold enter. -/
def enteredLevel (s : State) : Nat :=
  maxL (0 :: [1, 2, 3, 4].filter (fun k => (working s).any (fun x => decide (2 ≤ x.2.hotRun.getD (k - 1) 0))))

/-- Since when every sensor has read below each threshold less HYST. -/
def belowStep (s : State) (t : Time) : List (Option Time) :=
  (s.th.below.zipIdx).map (fun x =>
    if (working s).all (fun y => decide (y.2.temp < thr8 s (x.2 + 1) - hyst8 s)) then some (x.1.getD t) else none)

/-- A rate above the threshold, or at least half of it. -/
def rateOver (s : State) : Bool := (working s).any (fun x => decide (8 * (squallThr s : Int) < 10 * x.2.rate))
def rateOverHalf (s : State) : Bool := (working s).any (fun x => decide (8 * (squallThr s : Int) < 20 * x.2.rate))
def rateAtHalf (s : State) : Bool := (working s).any (fun x => decide (8 * (squallThr s : Int) ≤ 20 * x.2.rate))

/-- A reading within 5 °C of THROTTLE or CRITICAL. -/
def nearLimit (s : State) : Bool :=
  (working s).any (fun x => decide ((x.2.temp - thr8 s 2).natAbs ≤ 40 ∨ (x.2.temp - thr8 s 3).natAbs ≤ 40))

/-- Sensor failures that hold step 3. -/
def failHold (s : State) : Bool :=
  let f (n : Nat) : Bool := (s.th.sensors.getD n Sensor.reset).failed
  (f 12 && f 13) || decide (4 ≤ countIf (fun x : Sensor => x.failed) s.th.sensors)

/-! ## Shutdown (R414, R415) -/

/-- The shutdown of R414, taken as a whole at its entry (spec/95_what_each_step_holds.md). Channels, engines and pins stop at its step 1 (R433). DEDUCED: MEMC shows RETAIN while the dies refresh themselves; `PEAK` is the highest
reading since the level last left 0. -/
def thermShutdown (s : State) (n : Nat) (t : Time) : State :=
  let s := raise s fTHERM_SHUTDOWN n t
  let s := stopTimersAndPio (goStandby s t) t
  let s := allPorts.foldl (fun s p => quietPort s p (t + ms / 2)) s
  let s := (loseRequests (s.modMem settleMem) true).modMem parked
  let up := min (2 ^ 32 - 1) ((t - s.rs.coldAt) / sec)
  let s := logShutdown s (fun e => (e * 2 ^ 24 + n * 2 ^ 20 + unsigned 12 (max (-2048) (min 2047 s.th.peak)) * 2 ^ 8 + (thresholds s).getD 3 0 % 256, up))
  { s with
    pw := { s.pw with st := .shutdown, plls := s.pw.plls.map (fun p => { p with st := .off }) }
    rs := { s.rs with settleAt := none, keepFaults := s.rs.keepFaults ++ [(fTHERM_SHUTDOWN, n)] }
    th := { s.th with shutAt := some (t + 5 * ms), coolAt := none, fast := true } }

/-- The sensor whose readings entered SHUTDOWN. -/
def shutSensor (s : State) : Nat :=
  match (working s).find? (fun x => decide (2 ≤ x.2.hotRun.getD 3 0)) with
  | some x => x.1
  | none => 0

/-- Levels, Squall, step and sampling rate after the readings of a sample (R406 to R412). -/
def evalSample (s : State) (t : Time) : State :=
  let old := s.th.level
  let new := max old (enteredLevel s)
  let s := s.modTherm (fun h => { h with below := belowStep s t })
  let s := s.modTherm (fun h => { h with peak := if new = 0 then (hottest s).2 else max h.peak (hottest s).2 })
  let s := s.modTherm (fun h => { h with level := new })
  let s := if old < 2 ∧ 2 ≤ new then startGrace s t else s
  let s := if new ≠ old then foghorn s 1 t else s
  let onset := rateOver s && !s.th.squall
  let s := if rateAtHalf s then s.modTherm (fun h => { h with squallAt := t }) else s
  let s := if onset then
      let s := raise ((s.modTherm (fun h => { h with squall := true })).bump aTHERM_EVT 31 16 1) fSQUALL 0 t
      foghorn (if 1 ≤ new then startGrace s t else s) 2 t
    else s
  let s := if old < 3 ∧ 3 ≤ new then setStep s 3 3 t else s
  let s := s.modTherm (fun h => { h with forced := failHold s })
  let s := if s.th.forced then setStep s 3 4 t else s
  let s := downEval s t
  let s := if nearLimit s || rateOverHalf s then s.modTherm (fun h => { h with fast := true, fastAt := t }) else s
  let s := setRefmul s
  let s := match ts14 s with | some v => memDrift s v | none => s
  if old < 4 ∧ new = 4 ∧ s.pw.st ≠ .shutdown then thermShutdown s (shutSensor s) t else s

/-- The sensors run in these states, not while REF is lost (R386); in SHUTDOWN they sample at 4 kHz. -/
def sampling (s : State) : Bool := decide (s.pw.st = .standby ∨ s.pw.st = .active ∨ s.pw.st = .shutdown) && !s.pw.refLost
def samplePeriod (s : State) : Time := if s.th.fast then ms / 4 else 4 * ms

/-- `TS_SAMPLE` (R406 to R409). -/
def execTsSample (t : Time) (reads : List (Option Int)) (s : State) : Out :=
  event s t (fun s => sampling s && (match s.th.sampledAt with | some a => decide (a + samplePeriod s ≤ t) | none => true)) (fun s =>
    let s := takeReads (s.modTherm (fun h => { h with sampledAt := some t })) reads t
    let cool := decide (s.pw.st = .shutdown) && (working s).all (fun x => decide (x.2.temp < thr8 s 4 - 120))
    evalSample (s.modTherm (fun h => { h with coolAt := if cool then some (h.coolAt.getD t) else none })) t)

/-! ## Timers -/

/-- `LEVEL_HOLD_EXPIRY` (R408): levels whose hold has lasted 1 s are left. -/
def leftLevel (s : State) (t : Time) : Nat → Nat
  | 0 => 0
  | k + 1 => match s.th.below.getD k none with
    | some a => if a + sec ≤ t then leftLevel s t k else k + 1
    | none => k + 1

def execLevelHoldExpiry (t : Time) (s : State) : Out :=
  event s t (fun s => sampling s && decide (leftLevel s t s.th.level < s.th.level)) (fun s =>
    let s := s.modTherm (fun h => { h with level := leftLevel s t h.level })
    downEval (foghorn s 1 t) t)

/-- `SQUALL_CLEAR` (R409). -/
def execSquallClear (t : Time) (s : State) : Out :=
  event s t (fun s => sampling s && s.th.squall && decide (s.th.squallAt + sec ≤ t))
    (fun s => downEval (s.modTherm (fun h => { h with squall := false })) t)

/-- `SAMPLE_RATE_RETURN` (R406). -/
def execSampleRateReturn (t : Time) (s : State) : Out :=
  event s t (fun s => s.th.fast && decide (s.pw.st ≠ .shutdown) && decide (s.th.fastAt + sec ≤ t))
    (fun s => s.modTherm (fun h => { h with fast := false }))

/-- `GRACE_EXPIRY` (R411). -/
def execGraceExpiry (t : Time) (s : State) : Out :=
  event s t (fun s => sampling s && (match s.th.grace with | some e => decide (e ≤ t) | none => false)) (fun s =>
    let s := s.modTherm (fun h => { h with grace := none })
    if 2 ≤ s.th.level ∨ (s.th.squall ∧ 1 ≤ s.th.level) then
      downEval (setStep (startGrace s t) (min 3 (s.th.step + 1)) 3 t) t
    else downEval s t)

/-- `DOWN_TIMER_EXPIRY` (R411). -/
def execDownTimerExpiry (t : Time) (s : State) : Out :=
  event s t (fun s => sampling s && (match s.th.down with | some e => decide (e ≤ t) | none => false)) (fun s =>
    downEval (setStep (s.modTherm (fun h => { h with down := none })) (s.th.step - 1) 3 t) t)

/-- `FOGHORN_REPEAT` (R413). -/
def execFoghornRepeat (t : Time) (s : State) : Out :=
  event s t (fun s => decide (2 ≤ s.th.level) && decide (s.th.fseq ≠ 0) && decide (s.th.sentAt + sec ≤ t)) (fun s =>
    let s := s.modTherm (fun h => { h with sentAt := t })
    allPorts.foldl (fun s p => if s.th.acked.getD p.val 0 < s.th.fseq then notify s p 0x8001 s.th.last t else s) s)

/-! ## Commands (R419 to R421) -/

/-- A reading as the interface shows it. -/
def shownTemp (x : Sensor) : Nat := if x.failed then 0x8000 else unsigned 16 x.temp

/-- `THERMAL_STATUS` (R419). -/
def execThermalStatus (c : Call) (s : State) : Out :=
  command s c 0x0600 .fast (fun _ => [lenIs c 0, argZero c]) (fun s =>
    let (k, v) := hottest s
    okWith s c 0x0600 .fast
      ([byte (thermLevel s), byte s.th.step,
        byte (b2n s.th.fast + 2 * b2n s.th.squall + 4 * b2n s.sec.untrusted + 8 * b2n (throttled s)), byte k] ++
       leBytes 2 (unsigned 16 v) ++ leBytes 2 (unsigned 16 (topRate s)) ++ leBytes 4 (graceMs s c.start) ++
       [byte (logUsed s), 0, 0, 0] ++ (List.range 16).flatMap (fun n => leBytes 2 (shownTemp (s.th.sensors.getD n Sensor.reset)))))

/-- The count of the latest FOGHORN that carried an `FSEQ`, none where it was not yet sent. -/
def fogCount (s : State) (f : Nat) : Option Nat :=
  let n := s.th.fseq
  let back := (fseqOf n + 65535 - f) % 65535
  if f = 0 ∨ n = 0 ∨ n ≤ back then none else some (n - back)

/-- `ACK_FOGHORN` (R420). -/
def execAckFoghorn (c : Call) (s : State) : Out :=
  let f := u16 c.payload 0
  command s c 0x0601 .fast (fun s => [lenIs c 4, argZero c, argOk (fogCount s f).isSome 0, reserved c.payload 2 2]) (fun s =>
    let n := (fogCount s f).getD 0
    okWith (s.modTherm (fun h => { h with acked := if n = h.fseq then modAt h.acked (srcIx c.src).val (fun _ => n) else h.acked })) c 0x0601 .fast [])

/-- The ranges of R408, from the offsets of the payload of R421; each threshold lies at least 2 °C above the one before it. -/
def thermArgs (pl : List Byte) : List (Option Reject) :=
  [argOk (decide (85 ≤ u8 pl 0 ∧ u8 pl 0 ≤ 110)) 0,
   argOk (decide (95 ≤ u8 pl 1 ∧ u8 pl 1 ≤ 118 ∧ u8 pl 0 + 2 ≤ u8 pl 1)) 1,
   argOk (decide (105 ≤ u8 pl 2 ∧ u8 pl 2 ≤ 124 ∧ u8 pl 1 + 2 ≤ u8 pl 2)) 2,
   argOk (decide (110 ≤ u8 pl 3 ∧ u8 pl 3 ≤ 130 ∧ u8 pl 2 + 2 ≤ u8 pl 3)) 3,
   argOk (decide (1 ≤ u8 pl 4 ∧ u8 pl 4 ≤ 10)) 4, argOk (decide (10 ≤ u8 pl 5 ∧ u8 pl 5 ≤ 80)) 5,
   argOk (decide (100 ≤ u16 pl 6 ∧ u16 pl 6 ≤ 10000)) 6, reserved pl 8 4]

/-- `SET_THERMAL` (R421); it is denied under restrictive defaults (R408). -/
def execSetThermal (c : Call) (s : State) : Out :=
  let pl := c.payload
  command s c 0x0604 .fast (fun s => [lenIs c 12, need (!s.sec.untrusted) .denied, needLeaseOrSafety s c lARRAY, argZero c] ++ thermArgs pl)
    (fun s =>
      let s := s.setReg aTHERM_THR0 (u32 pl 0)
      let s := s.setReg aTHERM_THR1 (u16 pl 6 * 65536 + u8 pl 5 * 256 + u8 pl 4)
      okWith s c 0x0604 .fast [])

end Sys2Proof.Machine
end

