-- ==== Sys2Proof/Machine/Boot.lean ====
section
/-! DEFINITION. Resets, the boot, Dusk, Buoy and Dawn as whole operations (R228 to R235, R376 to R403, R466, R482, R494). -/

namespace Sys2Proof.Machine

/-! ## Memory contents -/

/-- Array segments outside a mask lose theirs. -/
def loseOutside (s : State) (mask : Nat) : State :=
  (List.range 8).foldl (fun s k => if bit mask k then s else fmForget s (k * 0x78000000) 0x78000000) s

/-! ## Reset (R394) -/

/-- Conditions that a reset ends: their log entries stop standing. -/
def clearedByReset : List Nat :=
  [fBOOKS, fAUX_LOS, fMEM_UE, fMEM_UNAVAIL, fLINK_STALL, fREF_FREQ, fPLL_FAIL, fTS_FAIL]

def endConditions (s : State) (t : Time) : State :=
  (s.log.entries.filter (fun e => e.stands && clearedByReset.contains e.code)).foldl (fun s e => unstand s e.code e.inst t) s

/-- The controller after a reset that keeps frame memory (R200, R394). -/
def memKept (m : Mem) : Mem :=
  { Mem.reset with bin := m.bin, target := 2, sweepBin := m.bin, changeTo := m.bin, map := m.map, tables := m.tables, dly := m.dly
                   tim := m.tim, errs := m.errs, undef := m.undef, gen := m.gen }

/-- Views, ports, array, pipeline, leases, mailboxes, timers and settings at their reset values, and what `KEEP` holds kept: the reset
counters, the shutdown log, the kill latch and the authentication count. -/
def resetUnits (s : State) (t : Time) : State :=
  let s := (List.range 16).foldl (fun s v => ringForget s v t) s
  let s := dropJobs s
  { s with
    clk := { s.clk with upSince := t }
    regs := s.regs.filter (fun r => decide (r.1 = aPCLK_RST_CNT))
    leases := List.replicate 30 freeLease, leaseLog := [], lastArrayHolder := none, arrayLapsed := false
    ports := List.replicate 4 Port.reset, sb := Sideband.reset, fwq := [], slow := [], misses := 0, diag := Diag.reset
    arr := ArrayS.reset, pipe := Pipe.reset, aux := List.replicate 4 AuxIn.reset, pio := Pio.reset
    th := { Therm.reset with dropped := s.th.dropped, kept := s.th.kept }
    rs := { s.rs with req := none, settleAt := none, autoStart := false, autoViews := [] }
    sec := { s.sec with
      auth := [none, none, none, none], nonces := [none, none, none, none], failAt := [none, none, none, none]
      load := none, handover := none }
    pw := { s.pw with
      seen := [], refLost := false, refUnknown := false, refKhz := 0, refSrc := 0, lfWaitFrom := none, bootStep := 0
      plls := List.replicate 4 Pll.reset } }

/-- What a cold reset clears besides: DTIME, the fault log, frame memory, the ring, a loaded image, and the alarms fired. -/
def resetCold (s : State) (t : Time) : State :=
  let s := loseMemory (resetUnits { s with ring := Ring.reset } t)
  { s with
    clk := { s.clk with anchor := t, base := 0, slew := 0, synced := false }
    log := FaultLog.empty, ring := Ring.reset
    mem := { Mem.reset with undef := s.mem.undef, gen := s.mem.gen }
    rs := { s.rs with coldAt := t }
    sec := { s.sec with
      fired := 0, latchBuoy := false, fwVer := Config.romFwVer.toNat, fwSrc := 0, fwImage := [], fwSvn := 0, stepsTo := 0 } }

/-- What the Keeper holds is lost with it (R529). -/
def keeperClear (s : State) : State :=
  { s with
    regs := s.regs.filter (fun r => decide (r.1 ≠ aPCLK_RST_CNT))
    th := { s.th with dropped := 0, kept := [] }
    rs := { s.rs with lastFw := none, coldFw := [], keepFaults := [], memKeep := none, dawnPorts := [], dawnNote := [], porLatched := false }
    pw := { s.pw with started := false, cause := 0, prevCause := 0, bootLoop := false }
    hold := Hold.reset
    sec := { s.sec with
      authFails := 0, killLatch := false, lockStands := false, lockBy := [], buoyLatch := [], latchBuoy := false } }

/-- Power is gone, and with it all that VCORE and VIO hold (R228, R379, R380). -/
def powerLost (s : State) (t : Time) : State :=
  let s := resetCold s t
  { s with pw := { s.pw with st := .off, vcoreGood := false, vmidGood := false, vioGood := false } }

/-! ## Straps and profile (R397, R398) -/

/-- Level of a strap from thousandths of VIO, and whether it is open. -/
def strapLevel (v : Nat) : Nat × Bool :=
  if v < 80 then (0, false) else if v < 300 then (1, false) else if v ≤ 700 then (0, true) else if v ≤ 920 then (2, false) else (3, false)

def readStraps (s : State) (t : Time) : State :=
  let l := (List.range 4).map (fun k => strapLevel (s.pw.env.straps.getD k 0))
  let lv (k : Nat) : Nat := (l.getD k (0, false)).1
  let s := { s with pw := { s.pw with
    strapLevels := l.map (fun x => x.1), strapOpen := l.map (fun x => x.2)
    devid := lv 0 + 4 * lv 1 + 16 * lv 2, profStrap := lv 3 } }
  l.zipIdx.foldl (fun s x => if x.1.2 then stand s fSTRAP_OPEN x.2 t else unstand s fSTRAP_OPEN x.2 t) s

/-- The profile in effect. -/
def chooseProfile (s : State) : State :=
  let o := overrideOf s
  let p := o.getD s.pw.profStrap
  let eff := if s.pw.bootLoop || (decide (p = 3) && decide (s.sec.life ≠ .manufacture)) then 0 else p
  { s with pw := { s.pw with ovr := o.isSome, profEff := eff } }

/-! ## REF (R385) -/

def policyKhz (s : State) : Nat := match bodyOf s 2 16 with | some w => (Config.policyRefKhz w).toNat | none => 0

/-- A count agrees with `REF_KHZ` within a tolerance in thousandths. -/
def refAgrees (khz meas tol : Nat) : Bool := decide ((if khz ≤ meas then meas - khz else khz - meas) * 1000 ≤ khz * tol)

/-- The REF check: the frequency in use and its source, none where REF is unknown. -/
def refCheck (s : State) (meas : Nat) (xtal : Bool) : Option (Nat × Nat) :=
  let khz := policyKhz s
  if khz ≠ 0 then (if refAgrees khz meas (if xtal then 1 else 60) then some (khz, 0) else none)
  else
    let m := (meas + 50) / 100 * 100
    if xtal ∧ 19200 ≤ m ∧ m ≤ 52000 then some (m, 1) else none

def applyRef (s : State) (r : Option (Nat × Nat)) (meas : Nat) (t : Time) : State :=
  let s := { s with pw := { s.pw with
    refMeas := meas, refUnknown := r.isNone, refKhz := match r with | some x => x.1 | none => 0
    refSrc := match r with | some x => x.2 | none => 2 } }
  if r.isNone then stand s fREF_FREQ 0 t else unstand s fREF_FREQ 0 t

/-! ## The PLLs at boot (R387 to R389, R401 step 5) -/

def bandTable (s : State) (n : Nat) : List (Nat × Nat × Nat) :=
  (List.finRange 16).map (fun e => let (lo, hi, c) := Config.trimBand (trimWords s) (Fin.ofNat 4 n) e; (lo.toNat, hi.toNat, c.toNat))

/-- A PLL locks at boot where the board lets it and an entry of its table fits; the duration of the lock is open, at most the 400 µs that R401
gives. Where the board does not let it, each attempt fails, entry after entry, to FAIL (R388, R389). -/
def bootPll (s : State) (n : Nat) (t : Time) : State :=
  let s := pllStart (s.modPll n (fun _ => { Pll.reset with bands := bandTable s n })) n t
  if pllOf s n = .fail then s
  else if s.pw.env.pllOk.getD n false then
    let (v, s) := drawFree s
    (s.modPll n (fun p => { p with st := .locked, since := t })).setReg (aPCLK_PLL_LOCKT n) (v.toNat % 401)
  else (List.range 3).foldl (fun s _ => if pllOf s n = .fail then s else pllAttemptFailed s n t) s

/-! ## Frame memory at boot (R187, R203, R401 step 8) -/

def policyMap (s : State) : Nat := match bodyOf s 2 16 with | some w => (Config.policyMapNext w).val | none => 2

/-- Delay tables seeded from OTP TRIM; `keep` is a table that the Keeper held. -/
def seedTables (s : State) (keep : Option (Nat × DelayTable)) : List DelayTable :=
  let seed (b : Fin 3) : DelayTable :=
    if Config.trimTable (trimWords s) b then ⟨true, (List.range 104).map (fun i =>
      let (x, y) := Config.trimDelay (trimWords s) b i; (x.toNat, y.toNat))⟩
    else DelayTable.blank
  (List.finRange 3).map (fun b => match keep with
    | some (k, d) => if k = b.val then d else seed b
    | none => seed b)

/-- The timing parameters of R183 from OTP TRIM, in the model's unit of time; the nominal ones where TRIM is blank. -/
def seedTiming (s : State) : MemTim :=
  if (trimWords s).isEmpty then MemTim.nominal
  else
    let f (k : Fin 8) : Nat := (Config.trimTiming (trimWords s) k).toNat
    ⟨f 0, f 1, f 2, f 3, f 4, f 5, f 6, f 7⟩

/-- The directory check of a cold boot after the store was exhausted in BUOY finds the ring lost (R232). -/
def findRingLost (s : State) : State :=
  if s.rs.ringLost then { s with ring := { s.ring with lostFlag := true }, rs := { s.rs with ringLost := false } } else s

/-- Step 8: a cold boot sweeps once the dies are initialised, by the end of step 7 (log entry 83); a warm one stays in INIT for its loopback check. Without PLLM frame memory is unavailable, and without REF it stays
OFF. -/
def bootMemory (s : State) (t : Time) : State :=
  match s.pw.bootKind with
  | .dawn => s
  | k =>
    if pllOf s 2 = .off then s
    else if pllOf s 2 = .fail then memUnavail s t
    else
      let s := s.modMem (fun m => wakeDies { m with rhStart := t, polled := t, rhThresh := s.fld aMEMC_RH 12 0 } t)
      let s := s.modMem (fun m => { m with st := .init, prior := .init, changeTo := m.bin })
      if k = .warm then s else (findRingLost s).modMem (fun m => { m with initTill := some t })

/-! ## Profiles (R399, R400) -/

/-- The `CREATE_VIEW` payload of R400. -/
def profilePayload (v : Nat) : List Byte :=
  [byte v, 0, 0, 2, 0, 1, 0, 1] ++ leBytes 2 0 ++ leBytes 2 0 ++ leBytes 2 8192 ++ leBytes 2 6144 ++ leBytes 2 64 ++ leBytes 2 64 ++
  [1, 2, 0, 0x22] ++ leBytes 4 0 ++ leBytes 2 0x1000 ++ leBytes 2 0x1000 ++ leBytes 2 0x1000 ++ [0] ++ zeros 13

def enableAt (s : State) (p : PortIx) (t : Time) : State := enablePort (s.setFld (aLINK_CTL p.val) 0 0 1) p t

/-- Ports, governor, views and the array start of the profile in effect. DESIGN CHOICE: P3 enables every port with its reset rates. -/
def actProfile (s : State) (t : Time) : State :=
  let hosts : List PortIx := match s.pw.profEff with | 1 => [0] | 2 => [0, 1] | _ => []
  if s.pw.refUnknown then s
  else if s.pw.profEff = 3 then allPorts.foldl (fun s p => enableAt s p t) s
  else if hosts.isEmpty then s
  else
    let s := hosts.foldl (fun s p => enableAt ((s.setFld (aLINK_CTL p.val) 5 4 2).setFld (aLINK_CTL p.val) 8 8 1) p t) s
    let s := s.modGov (fun v => { v with
      on := true, target := 8192, nbr := 32, chg := 32, ratios := [1, 1, 1], emax := 320000, agmax := 128, dgmax := 1024
      mask := List.finRange 192, first := true, x := [] })
    let s := hosts.foldl (fun s p => s.modView p.val (fun _ => { View.reset with
      st := .created, owner := p, p := parseView (profilePayload p.val) })) s
    let s := { s with rs := { s.rs with autoViews := hosts } }
    if pllOf s 0 = .fail then s
    else
      let s := startPumps s t
      { s with rs := { s.rs with autoStart := true } }

/-! ## What the Keeper raises again (R494, R482) -/

def fromKeeper (s : State) (t : Time) : State :=
  let s := s.rs.keepFaults.foldl (fun s f => raise s f.1 f.2 t) s
  let s := match s.rs.memKeep with
    | some (a, i) => raise ((s.setReg aDIAG_MEM_KEEP (2 ^ 31 + a % 2 ^ 28)).setReg aDIAG_MEM_KEEP_INFO i) fMEM_UE (bits i 11 4) t
    | none => s
  let s := { s with rs := { s.rs with keepFaults := [], memKeep := none } }
  if s.sec.lockStands && decide (s.pw.bootKind ≠ .warm) then
    s.sec.lockBy.foldl (fun s x =>
      notifyAlarm (occurCls { s with sec := { s.sec with fired := setBit s.sec.fired x.1 true } } fALARM x.1 .standing true t)
        x.1 x.2 0 (s.dtime t) t) s
  else s

/-- Step 6: a kill still owed is written again, and the alarms latched in BUOY act. -/
def replayLatches (s : State) (t : Time) : State :=
  let s := if s.sec.killLatch && !s.sec.killed then pushJob s killJob else s
  let l := s.sec.buoyLatch
  let s := { s with sec := { s.sec with buoyLatch := [], latchBuoy := s.sec.latchBuoy || !l.isEmpty } }
  l.foldl (fun s x => actAlarm { s with sec := { s.sec with fired := setBit s.sec.fired x.1 true } } x.1 x.2 1 t) s

/-! ## The boot (R401) -/

/-- The PLLs of a boot (R385, R401 step 5): none is started while REF is unknown, and those that Dawn has locked then stop, with frame memory
unavailable. -/
def bootPlls (s : State) (t : Time) : State :=
  if s.pw.refUnknown then
    let s := { s with pw := { s.pw with plls := s.pw.plls.map (fun p => { p with st := .off }) } }
    if s.pw.bootKind = .dawn then memUnavail s t else s
  else if s.pw.bootKind = .dawn then s
  else (List.range 4).foldl (fun s n => bootPll s n (t - ms)) s

/-- Steps 4 to 8, with REF settled. Step 7 follows at the instant `t`, and BOOT lasts until it. -/
def bootEnd (s : State) (t : Time) : State :=
  let s := bootPlls s t
  let k (b : Nat) : Nat := (Config.trimDcgK (trimWords s) (Fin.ofNat 192 b)).toNat
  let s := if (trimWords s).isEmpty then s else
    (List.range 192).foldl (fun s b => s.setReg (aTENG_TDCGK b) (k b))
      { s with arr := { s.arr with engAct := { s.arr.engAct with kdcg := (List.range 192).map k } } }
  let s := holdBoot s t
  let s := replayLatches s t
  let s := { s with pw := { s.pw with bootStep := 7, bootTill := t, bootTime := min 65535 ((t - s.pw.bootFrom) / (10 * us)) } }
  bootMemory (actProfile s t) t

/-- `FW_SRC` while ROM firmware runs: 1 with patches in TRIM, which a blank or failed region does not give (R364, R463). -/
def romSrc (s : State) : Nat := match bodyOf s 7 5567 with | some w => b2n (Config.trimPatches w) | none => 0

/-- Step 3: the OTP is read, straps are decoded, and the Keeper's records are raised. Then REF is checked; with `REF_KHZ` at 0 a boot waits for the
crystal. -/
def bootStart (s : State) (t : Time) : State :=
  let k := s.pw.bootKind
  let e := s.pw.env
  let t3 := t + 7 * ms / 2
  let s := { s with pw := { s.pw with
    st := .boot, started := true, bootFrom := t, bootStep := 3, lfxtalOk := e.lfxtal, keepRc := !e.lfxtal, vcoreGood := true, vmidGood := true, vioGood := true } }
  let s := otpBoot s (decide (k ≠ .warm)) e.kekOk t3
  let s := if k = .warm then s else readStraps s t3
  let s := chooseProfile s
  let s := if s.pw.bootLoop then stand s fBOOT_LOOP 0 t3 else unstand s fBOOT_LOOP 0 t3
  let s := fromKeeper s t3
  let s := if s.sec.untrusted then fireAlarm s 5 t3 else s
  let s := if s.sec.untrusted || s.pw.bootLoop then
      { s with sec := { s.sec with fwVer := Config.romFwVer.toNat, fwSrc := 0, fwImage := [], fwSvn := 0, stepsTo := 0 } } else s
  let s := if s.sec.fwSrc = 2 then s else { s with sec := { s.sec with fwSrc := romSrc s } }
  let s := if k = .cold then s.modMem (fun m => { m with map := policyMap s, tables := seedTables s none, dly := ((seedTables s none).getD m.bin DelayTable.blank).codes }) else s
  let s := s.modMem (fun m => { m with tim := seedTiming s })
  let s := s.setFld aMEMC_CTL 7 6 (policyMap s)
  if policyKhz s = 0 ∧ !e.lfxtal then { s with pw := { s.pw with lfWaitFrom := some t } }
  else bootEnd (applyRef s (refCheck s e.refKhz e.lfxtal) e.refKhz t3) (t + 5 * ms)

/-- A reset counter of `PCLK_RST_CNT`. -/
def countReset (s : State) (cause : Nat) : State :=
  match cause with
  | 3 => s.bump aPCLK_RST_CNT 15 8 1
  | 6 => s.bump aPCLK_RST_CNT 31 24 1
  | 7 => s.bump aPCLK_RST_CNT 23 16 1
  | 9 => s.bump aPCLK_RST_CNT 7 0 1
  | _ => s

/-- The cause is recorded; causes 1 and 2 end an alarm lock and a boot loop (R393, R395, R481). -/
def recordCause (s : State) (cause : Nat) : State :=
  let s := countReset s cause
  let s := { s with pw := { s.pw with prevCause := if cause = 1 then 0 else s.pw.cause, cause := cause } }
  if cause = 1 ∨ cause = 2 then
    { s with pw := { s.pw with bootLoop := false }, rs := { s.rs with coldFw := [] }
             sec := { s.sec with lockStands := false, lockBy := [] } }
  else s

/-- `MAP_NEXT` as written since the boot, where it was (R187). -/
def writtenMap (s : State) : Option Nat :=
  let v := s.fld aMEMC_CTL 7 6
  if s.pw.bootStep < 7 ∨ v = policyMap s then none else some v

/-- A reset of the running device and the boot that follows (R393, R394). A warm one keeps frame memory, ring, log, DTIME and image. -/
def resetDevice (s : State) (cold : Bool) (cause : Nat) (t : Time) : State :=
  let map := writtenMap s
  let s := recordCause s cause
  let s := { s with pw := { s.pw with bootKind := if cold then .cold else .warm } }
  if cold then
    let s := bootStart (resetCold s t) t
    match map with
    | some m => s.modMem (fun k => { k with map := m })
    | none => s
  else
    let s := resetUnits (endConditions (loseRequests s true) t) t
    bootStart { s with mem := memKept s.mem } t

/-- A reset of cause 6, 7 or 8: it turns cold within 1 s of another, and three cold ones within 60 s make a boot loop (R395). -/
def resetFw (s : State) (cause fault : Nat) (t : Time) : State :=
  let cold := match s.rs.lastFw with | some a => decide (t < a + sec) | none => false
  let colds := if cold then (t :: s.rs.coldFw).filter (fun a => decide (t ≤ a + 60 * sec)) else s.rs.coldFw
  let s := { s with
    rs := { s.rs with lastFw := some t, coldFw := colds }
    pw := { s.pw with bootLoop := s.pw.bootLoop || decide (3 ≤ colds.length) } }
  raise (resetDevice s cold cause t) fault 0 t

/-! ## Dusk (R228 to R231, R234) -/

/-- Dusk may run: a valid source class, 0.80 V in the store, and REF (R228, R386). -/
def duskOk (s : State) : Bool := holdupValid s && decide (800 ≤ s.hold.ocv) && !s.pw.refLost

/-- Mask of the directory as last written. -/
def lastMask (s : State) : Nat :=
  if s.ring.nAs = 0 then 0 else match dirRead s with | some b => dirMask b | none => 0

/-- Steps 7 and 8 of a Dusk that began at D and commits at `c`: MEMC enters RETAIN with the mask, the Keeper stores its records, and the state stays
DUSK until the commit. -/
def commitDusk (s : State) (d c : Time) (cause uj mask : Nat) (wrote : Bool) : State :=
  let s := loseOutside s mask
  duskAdvance { s with
    mem := parked s.mem
    pw := { s.pw with st := .dusk, quietAt := min c (d + ms / 2) }
    rs := { s.rs with settleAt := none, req := none, dawnPorts := [] }
    hold := { s.hold with
      phase := .off, pulse := false, duskUs := (c - d) / us, duskUj := min 65535 uj, duskAt := s.dtime d, commitAt := s.dtime c
      duskCause := cause, result := if wrote then 0 else 1, buoyFrom := c, pasr := mask, keepBin := s.mem.bin } }

/-- The flush of Dusk, at once: every line and every write-back that waits is written, whole or merged, and the accesses activate their rows. A line
whose check unit cannot be merged is given up, and its check unit stays bad (R197, R198, R201, R230). -/
def duskFlush (s : State) (t : Time) : State :=
  let l := (s.mem.ckq ++ s.mem.ckd).filterMap (fun k => k.words.map (fun w => (k.block, w.length))) ++ s.mem.ecc.map (fun l => (l.block, l.words.length))
  let act (s : State) (b : Nat) : State := activate s 5 2 (ckBank s.mem b) (place s.mem.map (16 * b + 15)).2.1 t t
  l.foldl (fun s x =>
    let s := if x.2 < 15 then act s x.1 else s
    if x.2 < 15 ∧ checkFails s x.1 then s else act (s.modMem (fun m => clearErrs m (16 * x.1 + 15))) x.1)
    (s.modMem (fun m => { m with ecc := [], ckq := [], ckd := [] }))

/-- Dusk from D (R229, R230, R381). It writes in STANDBY and ACTIVE, and not where frame memory is frozen, unavailable or not up. The DUSK
notification leaves until the ports go to QUIET. DESIGN CHOICE: the commit comes at the latest instant, 10 ms after D. In SHUTDOWN it comes at D. -/
def runDusk (s : State) (d : Time) (vio vcore : Bool) (uj : Nat) : State :=
  let cause := b2n vio + 2 * b2n vcore
  let pl := leBytes 8 (s.dtime d) ++ [byte cause, 0] ++ leBytes 2 s.hold.ocv ++ zeros 4
  let s := notifyAll s 0x8004 pl d
  let s := s.modMem settleMem
  let running := decide (s.pw.st = .standby ∨ s.pw.st = .active) && decide (s.pw.bootTill ≤ d)
  let c := if s.pw.st = .shutdown then d else d + 10 * ms
  let s := stopAllAux (killArray s d) d
  let wrote := running && decide (s.mem.st = .run)
  let s := if wrote then duskFlush (ringDusk s d) d else loseRequests s true
  let s := stopAllViews s d
  let s := stopTimersAndPio s d
  let keep := if s.mem.st = .frozen then some (s.reg aMEMC_ERR_ADDR, s.reg aMEMC_ERR_INFO) else s.rs.memKeep
  commitDusk { s with rs := { s.rs with memKeep := keep } } d c cause uj (lastMask s) wrote

/-- The device is in DAWN at an instant: a sweep runs, or the directory check has not ended (R233). -/
def inDawn (s : State) (t : Time) : Bool :=
  decide (s.pw.st = .dawn) || (decide (s.pw.bootKind = .dawn) && s.pw.dawnFrom.isSome && decide (t < s.pw.dawnTill))

/-- A supply loss with hold-up starts a Dusk. In DAWN it is latched until the directory check has ended, which it does at once in a sweep; the Dusk
then writes nothing, with the Keeper's mask, and what Dawn itself wrote stands (R234). -/
def startDusk (s : State) (t : Time) (vio vcore : Bool) (uj : Nat) : State :=
  if inDawn s t then
    let d := if s.pw.st = .dawn then t else s.pw.dawnTill
    commitDusk (if s.mem.st = .run then s else loseRequests s true) d (d + 10 * ms) (b2n vio + 2 * b2n vcore) uj s.hold.pasr false
  else runDusk s t vio vcore uj

/-- VIO or VCORE fails at D (R228, R379). -/
def supplyFails (s : State) (d : Time) (vio vcore : Bool) (uj : Nat) : State :=
  if duskOk s then startDusk s d vio vcore uj else powerLost s d

/-! ## Dawn (R233, R235) -/

/-- Segments that the Keeper marks UNTRUSTED for an alarm latched in BUOY (R482). -/
def markUntrusted (s : State) : State :=
  if s.sec.buoyLatch.isEmpty then s
  else s.modRing (fun r => { r with segs := r.segs.map (fun g => if g.state = 0 then g else { g with flags := Nat.lor g.flags 32 }) })

/-- The directory check and the end of Dawn; the boot goes on from its step 3. The instant `t` is the end of the check. -/
def dawnEnd (s : State) (t : Time) : State :=
  let wrote := s.hold.result
  let (s, res, segs) :=
    if s.ring.nAs = 0 then (s, wrote, 0)
    else if s.hold.pasr = 0 ∨ !memUp s then
      (({ s with ring := { Ring.reset with
        nAs := s.ring.nAs, chunks := newChunks s.ring.nAs, stopped := true, recovered := true, lostFlag := true } } : State), 2, 0)
    else match ringRecover s t with
      | (s, some n) => (s, wrote, n)
      | (s, none) => (s, 2, 0)
  let s := markUntrusted s
  let s := { s with hold := { s.hold with result := res, recovered := segs } }
  let pl := leBytes 4 s.hold.buoyMs ++ [byte res, byte segs] ++ leBytes 2 s.hold.dawnOcv ++ leBytes 8 s.hold.duskAt ++ zeros 8
  let s := { s with pw := { s.pw with dawnTill := t } }
  let s := bootStart { s with rs := { s.rs with dawnPorts := allPorts, dawnNote := pl } } (t - 7 * ms / 2)
  if s.rs.porLatched then resetDevice { s with rs := { s.rs with porLatched := false } } true 2 t else s

/-- Dawn from SG: everything that lost power is at reset, DTIME resumes, the PLLs lock, and frame memory leaves RETAIN (R233 steps 1 to 3). Frame memory stays in INIT until its loopback check. -/
def runDawn (s : State) (sg : Time) (env : BootEnv) : State :=
  let buoy := sg - s.hold.buoyFrom
  let hold := { s.hold with buoyMs := min (2 ^ 32 - 1) (buoy / ms), dawnOcv := env.ocv, ocv := env.ocv }
  let s := recordCause s 11
  let s := s.modRing (fun r => { r with recs := r.recs.filter (fun x => !x.openNow) })
  let s := resetUnits { s with log := FaultLog.empty } sg
  let s := { s with
    clk := { s.clk with anchor := sg, base := (hold.commitAt + buoy / ns) % 2 ^ 64, slew := 0, synced := false }
    hold := hold
    sec := { s.sec with fired := 0, latchBuoy := false, fwVer := Config.romFwVer.toNat, fwSrc := 0, fwImage := [], fwSvn := 0, stepsTo := 0 }
    rs := { s.rs with coldAt := sg }
    pw := { s.pw with st := .dawn, bootKind := .dawn, env := env, bootFrom := sg, dawnFrom := some sg, dawnTill := sg }
    mem := wakeDies { memKept s.mem with
      bin := hold.keepBin, sweepBin := hold.keepBin, changeTo := hold.keepBin, target := 2, prior := .init
      tables := seedTables s (some (hold.keepBin, s.mem.tables.getD hold.keepBin DelayTable.blank)), rhStart := sg, polled := sg } sg }
  let s := (List.range 4).foldl (fun s n => bootPll s n (sg + 2 * ms)) s
  let s := s.modMem (fun m => { refreshAll m (sg + 3 * ms) with st := .init, tim := seedTiming s })
  if pllOf s 2 = .fail then dawnEnd (memUnavail s (sg + 3 * ms)) (sg + 27 * ms / 5) else s

end Sys2Proof.Machine
end

