-- ==== Sys2Proof/Machine/PowerCmds.lean ====
section
/-! DEFINITION. Events of supplies, clocks, resets, Dusk, Buoy, Dawn, the thermal shutdown's end, the delay sweep and OTP programming. -/

namespace Sys2Proof.Machine

/-- The control processor runs: from its boot on, not while REF is lost, and not before Dawn ends (R386, R396, R402). -/
def cpuRuns (s : State) : Bool :=
  decide (s.pw.st = .standby ∨ s.pw.st = .active ∨ s.pw.st = .shutdown ∨ (s.pw.st = .boot ∧ s.pw.bootStep ≠ 0)) && !s.pw.refLost &&
  !inDawn s s.clk.now

/-! ## Supplies (R376 to R380, R529) -/

/-- `POWER_ON` (R378, R381): the device leaves OFF, or the reset that the model starts in, with cause 1 after a loss of the Keeper and BROWNOUT otherwise. -/
def execPowerOn (t : Time) (env : BootEnv) (s : State) : Out :=
  event s t (fun s => decide (s.pw.st = .off ∨ (s.pw.st = .boot ∧ s.pw.bootStep = 0 ∧ !s.pw.refLost))) (fun s =>
    let cause := if s.pw.started then 3 else 1
    resetDevice { s with pw := { s.pw with env := env } } true cause t)

/-- `POR_N_PULSE` (R378, R396): shorter pulses are ignored, and one in DUSK, BUOY or DAWN is latched until Dawn's step 6. While REF is lost the device stays in
BOOT until REF returns (log entry 86). -/
def execPorNPulse (t : Time) (width : Time) (s : State) : Out :=
  event s t (fun s => decide (10 * us ≤ width) && !decide (s.pw.st = .off)) (fun s =>
    match s.pw.st with
    | .dusk | .buoy | .dawn => { s with rs := { s.rs with porLatched := true } }
    | _ =>
      if s.pw.refLost then
        let x := resetCold (recordCause s 2) t
        { x with pw := { x.pw with st := .boot, bootKind := .cold, refLost := true, refLostAt := s.pw.refLostAt } }
      else resetDevice s true 2 (if inDawn s t then s.pw.dawnTill else t))

/-- `VMID_FAIL` (R233, R380): VMID_LOW is kept by the Keeper, and the device waits for its rails with frame memory lost. In DUSK and BUOY the rails are
isolated. Before step 3 of Dawn it is a supply loss during Dawn. -/
def execVmidFail (t : Time) (s : State) : Out :=
  event s t (fun s => !decide (s.pw.st = .off ∨ s.pw.st = .dusk ∨ s.pw.st = .buoy)) (fun s =>
    if (match s.pw.dawnFrom with | some sg => inDawn s t && decide (t < sg + 3 * ms) | none => false) && duskOk s then
      startDusk s t false false 0
    else
    let s := raise s fVMID_LOW 0 t
    powerLost { s with rs := { s.rs with keepFaults := s.rs.keepFaults ++ [(fVMID_LOW, 0)] } } t)

/-- `KEEPER_LOSS` (R529). -/
def execKeeperLoss (t : Time) (s : State) : Out :=
  event s t (fun s => !decide (s.pw.st = .dusk ∨ s.pw.st = .buoy ∨ s.pw.st = .dawn)) (fun s => keeperClear (powerLost s t))

/-- `SUPPLY_FAIL` (R228, R465): programming stops at the end of the word in progress, and Dusk follows. -/
def execSupplyFail (t : Time) (vio vcore : Bool) (uj : Nat) (s : State) : Out :=
  event s t (fun s => (vio || vcore) && !decide (s.pw.st = .off ∨ s.pw.st = .dusk ∨ s.pw.st = .buoy) && s.otp.stopDusk.isNone) (fun s =>
    if duskOk s && !s.otp.jobs.isEmpty then { s with otp := { s.otp with stopDusk := some (t, vio, vcore, uj) } }
    else supplyFails s t vio vcore uj)

/-- `STORE_EXHAUSTED` (R232, R482). -/
def execStoreExhausted (t : Time) (s : State) : Out :=
  event s t (fun s => decide (s.pw.st = .buoy)) (fun s =>
    keeperClear (powerLost { s with rs := { s.rs with ringLost := decide (s.ring.nAs ≠ 0) } } t))

/-- `SUPPLY_RETURN` (R231, R233): a return during Dusk takes effect at its commit. -/
def execSupplyReturn (t : Time) (env : BootEnv) (held : Time) (s : State) : Out :=
  event s t (fun s => decide ((s.pw.st = .dusk ∨ s.pw.st = .buoy) ∧ held + ms ≤ t)) (fun s =>
    runDawn (s.at (max t s.hold.buoyFrom)) (max t s.hold.buoyFrom) env)

/-- `BIN_CHANGE` (R207 steps 4 and 5). After a warm reset the same check is step 8 of the boot (R401), and at Dawn step 4, 3.4 ms after SG (R233);
both are made from INIT, and Dawn goes on after its own. -/
def execBinChange (t : Time) (ok : Bool) (s : State) : Out :=
  event s t (fun s =>
      (decide (s.mem.st = .change ∧ s.mem.flushed ∧ s.mem.dies = [] ∧ s.mem.ckd = []) || decide (s.mem.st = .init ∧ s.mem.initTill = none)) &&
      decide (pllOf s 2 = .locked) && (decide (s.pw.st ≠ .dawn) || decide (s.pw.bootFrom + 17 * ms / 5 ≤ t)))
    (fun s =>
      let s := changeDone s ok t
      if s.pw.st = .dawn ∧ s.mem.st ≠ .train then dawnEnd s (t + 2 * ms) else s)

/-- `SWEEP_COMPLETE` (R203 to R205): in DAWN the directory check follows (R233). -/
def execSweepComplete (t : Time) (results : List LaneWin) (s : State) : Out :=
  event s t (fun s => decide (s.mem.st = .train)) (fun s =>
    let s := sweepDone s results t
    if s.pw.st = .dawn ∧ s.mem.st ≠ .train then dawnEnd s (t + 2 * ms) else s)

/-! ## Resets (R366, R386, R402, R414) -/

/-- `RESET_BEGIN`: the requested reset begins (R366), with cause 4 or 5 of R393. -/
def execResetBegin (t : Time) (s : State) : Out :=
  event s t (fun s => cpuRuns s && (match s.rs.req with
      | some r => (match r.due with | some d => decide (d ≤ t) | none => false)
      | none => false))
    (fun s => match s.rs.req with
      | some r => resetDevice s r.cold (if r.cold then 5 else 4) t
      | none => s)

/-- `WATCHDOG_EXPIRY` (R402): the firmware has run, and not served it, for at least `PERIOD`. -/
def execWatchdogExpiry (t : Time) (s : State) : Out :=
  event s t (fun s => cpuRuns s && decide (s.clk.upSince + s.fld aPCLK_WDT 31 16 * ms ≤ t)) (fun s => resetFw s 6 fWDT_RESET t)

/-- `LOCKSTEP_MISMATCH` (R402). -/
def execLockstepMismatch (t : Time) (s : State) : Out := event s t cpuRuns (fun s => resetFw s 7 fLOCKSTEP_RESET t)

/-- `SRAM_UE` (R402). -/
def execSramUe (t : Time) (s : State) : Out := event s t cpuRuns (fun s => resetFw s 8 fSRAM_UE_RESET t)

/-- `SHUTDOWN_EXIT` (R414). -/
def execShutdownExit (t : Time) (s : State) : Out :=
  event s t (fun s => decide (s.pw.st = .shutdown) &&
      (match s.th.shutAt, s.th.coolAt with
       | some a, some b => decide (a + sec ≤ t) && decide (b + sec ≤ t)
       | _, _ => false))
    (fun s => resetDevice s true 10 t)

/-! ## REF and LFXTAL (R21, R385, R386) -/

/-- `REF_LOST` (R386): PLLs unlock, every domain but KEEP stops, and CLKMON fires. A supply failure that waits for an OTP word leads to OFF then. -/
def execRefLost (t : Time) (s : State) : Out :=
  event s t (fun s => !s.pw.refLost &&
      decide (s.pw.st = .boot ∨ s.pw.st = .standby ∨ s.pw.st = .active ∨ s.pw.st = .shutdown ∨ s.pw.st = .dawn)) (fun s =>
    if s.otp.stopDusk.isSome then powerLost { s with otp := { s.otp with stopDusk := none } } t else
    let s := (killArray s t).modSeq (fun q => { q with relock := false })
    let s := stopTimersAndPio (stopAllAux (stopAllViews s t) t) t
    let s := allPorts.foldl (fun s p => quietPort s p t) s
    let s := s.modMem (fun m => { m with st := .off, queue := [], dies := [], held := [], ecc := [] })
    let s := { s with
      pw := { s.pw with refLost := true, refLostAt := t, plls := s.pw.plls.map (fun p => { p with st := .off }) }
      rs := { s.rs with settleAt := none } }
    fireAlarm s 3 t)

/-- `REF_RETURN` (R386): REF has been valid for 1 ms. -/
def execRefReturn (t : Time) (khz : Nat) (s : State) : Out :=
  event s t (fun s => s.pw.refLost && decide (s.pw.refLostAt + ms ≤ t)) (fun s =>
    resetDevice { s with pw := { s.pw with env := { s.pw.env with refKhz := khz } } } true 9 t)

/-- `LFXTAL_LOSS` (R21). -/
def execLfxtalLoss (t : Time) (s : State) : Out :=
  event s t (fun s => s.pw.lfxtalOk && !decide (s.pw.st = .off))
    (fun s => { s with pw := { s.pw with lfxtalOk := false, keepRc := true, env := { s.pw.env with lfxtal := false } } })

/-- `LFXTAL_VALID` (R385): a boot that waits measures REF and goes on; otherwise the check is repeated at ±0.1 %. -/
def execLfxtalValid (t : Time) (khz : Nat) (s : State) : Out :=
  event s t (fun s => s.pw.keepRc && !decide (s.pw.st = .off)) (fun s =>
    let s := { s with pw := { s.pw with lfxtalOk := true, keepRc := false, env := { s.pw.env with lfxtal := true } } }
    match s.pw.lfWaitFrom with
    | some a =>
      let s := { s with pw := { s.pw with lfWaitFrom := none } }
      bootEnd (applyRef s (refCheck s khz true) khz t) (max (a + 5 * ms) (t + 3 * ms / 2))
    | none =>
      if s.pw.refUnknown || s.pw.refKhz = 0 then s
      else
        let s := { s with pw := { s.pw with refMeas := khz } }
        if refAgrees s.pw.refKhz khz 1 then unstand s fREF_FREQ 0 t else stand s fREF_FREQ 0 t)

/-- `LFXTAL_WAIT_TIMEOUT` (R385). -/
def execLfxtalWaitTimeout (t : Time) (s : State) : Out :=
  event s t (fun s => match s.pw.lfWaitFrom with | some a => decide (a + 2 * sec ≤ t) | none => false) (fun s =>
    let s := { s with pw := { s.pw with lfWaitFrom := none } }
    bootEnd (applyRef s none s.pw.refMeas t) (t + 3 * ms / 2))

/-! ## PLLs (R389, R391) -/

/-- What an unlocked PLL does to the units it feeds while it relocks. -/
def pllDown (s : State) (n : Nat) (t : Time) : State :=
  match n with
  | 0 => (stopArrayNow s t).modSeq (fun q => { q with relock := q.relock || (s.seq.running && !s.seq.stopping) })
  | 2 => s.modMem (fun m =>
      match m.st with
      | .run | .frozen => { m with st := .change, prior := m.st, changeTo := m.bin, changeAt := t, flushed := true }
      | .train => { m with st := .change, changeTo := m.sweepBin, changeAt := t, flushed := true }
      | _ => m)
  | 3 => allPorts.foldl (fun s p => match (s.port p).tr.st with | .quiet | .detect => s | _ => failPort s p 8 t) s
  | _ => s

/-- What a PLL in FAIL does to the units it feeds. -/
def pllFailed (s : State) (n : Nat) (t : Time) : State :=
  match n with
  | 0 => (stopArrayNow s t).modSeq (fun q => { q with relock := false })
  | 2 => (match s.mem.st with | .off | .unavail | .retain => s | _ => memUnavail s t)
  | 3 => allPorts.foldl (fun s p => quietPort s p t) s
  | _ => s

def ifFailed (s : State) (n : Nat) (t : Time) : State := if pllOf s n = .fail then pllFailed s n t else s

/-- `PLL_LOCK` (R389, R391): after a relock of PLLA the array starts again. -/
def execPllLock (t : Time) (n : Fin 4) (s : State) : Out :=
  event s t (fun s => decide (pllOf s n.val = .acquire)) (fun s =>
    let s := pllLocked s n.val t
    if n.val = 0 ∧ s.seq.relock ∧ (!s.seq.running || s.seq.stopping) ∧ s.pw.st = .active then
      startArrayAt (if s.seq.running then cutArray s t else s) t
    else s)

/-- `PLL_LOCK_TIMEOUT` (R388, R389). -/
def execPllLockTimeout (t : Time) (n : Fin 4) (s : State) : Out :=
  event s t (fun s => decide (pllOf s n.val = .acquire) && decide ((s.pll n.val).since + (s.pll n.val).tmo ≤ t))
    (fun s => ifFailed (pllAttemptFailed s n.val t) n.val t)

/-- `PLL_UNLOCK` (R391). -/
def execPllUnlock (t : Time) (n : Fin 4) (s : State) : Out :=
  event s t (fun s => decide (pllOf s n.val = .locked)) (fun s =>
    let s := (raise s fPLL_UNLOCK n.val t).bump (aPCLK_PLL_STAT n.val) 15 8 1
    ifFailed (pllStart (pllDown s n.val t) n.val t) n.val t)

/-! ## OTP programming (R465, R466) -/

/-- `OTP_WORD_PROGRAMMED` (R465): a supply failure that waited stops programming, and Dusk follows. -/
def execOtpWordProgrammed (t : Time) (norm strict : BitVec 39) (s : State) : Out :=
  event s t (fun s => !s.otp.jobs.isEmpty && !s.pw.refLost && !decide (s.pw.st = .off ∨ s.pw.st = .dusk ∨ s.pw.st = .buoy)) (fun s =>
    let s := wordDone s norm.toNat strict.toNat t
    match s.otp.stopDusk with
    | some (d, vio, vcore, uj) =>
      let s := { s with otp := { s.otp with stopDusk := none, progStatus := if s.otp.jobs.isEmpty then s.otp.progStatus else 3 } }
      supplyFails s d vio vcore uj
    | none => s)

end Sys2Proof.Machine
end

