-- ==== Sys2Proof/Machine/ViewCmds.lean ====
section
/-! DEFINITION. View commands and the pipeline's events (R124 to R158). -/

namespace Sys2Proof.Machine

/-- A view's owner, or with `orSafety` a SAFETY host (R124). A FREE view has no owner. -/
def needOwner (s : State) (c : Call) (v : Nat) (orSafety : Bool) : Option Reject :=
  match c.src with
  | .sideband => some ⟨.denied, 0⟩
  | .port p => need (decide ((s.view v).st = .free) || decide ((s.view v).owner = p) || (orSafety && decide (portRole s p = .safety))) .denied

def callPort (c : Call) : Option PortIx := match c.src with | .port p => some p | .sideband => none

/-- The view that `CREATE_VIEW` names: 0xFF takes the lowest free one (R155). -/
def newView (s : State) (n : Nat) : Option Nat :=
  if n = 0xFF then (List.range 16).find? (fun v => decide ((s.view v).st = .free)) else some n

def viewLen (c : Call) : Option Reject := need (decide (c.payload.length = 48 ∨ c.payload.length = 424)) .badLength

/-- `CREATE_VIEW` (R124, R127, R155). -/
def execCreateView (c : Call) (s : State) : Out :=
  let n := u8 c.payload 0
  command s c 0x0300 .fast (fun s =>
      let v := newView s n
      [viewLen c, need (callPort c).isSome .denied, argZero c 2, argOk (decide (n ≤ 15 ∨ n = 0xFF)) 0,
       need (match v with | some v => decide (16 ≤ v) || decide ((s.view v).st = .free) | none => true) .badState,
       need v.isSome .noResource] ++ viewChecks s (callPort c) (v.getD 16) c.payload)
    (fun s =>
      let v := (newView s n).getD 0
      let p := parseView c.payload
      let s := s.modView v (fun _ => { View.reset with
        st := .created, owner := (callPort c).getD 0, p := p, paramId := u16 c.arg 0 })
      okWith s c 0x0300 .fast (viewAnswer s v p))

/-- What may not change while a view runs (R127). -/
def hardSame (a b : ViewP) : Bool :=
  decide (a.source = b.source ∧ a.vc = b.vc ∧ a.format = b.format ∧ a.order = b.order ∧ a.decim = b.decim ∧ a.phase = b.phase ∧
    a.vs = b.vs ∧ a.x = b.x ∧ a.y = b.y ∧ a.width = b.width ∧ a.height = b.height ∧ a.scx = b.scx ∧ a.scy = b.scy)

/-- A view number that names a view that is not FREE (R156). -/
def viewNamed (s : State) (v : Nat) : Option Reject := argOk (decide (v ≤ 15) && decide ((s.view v).st ≠ .free)) 0

/-- An open frame of a view that takes soft fields of this stamp: its frame start lies after it, and no part of it has been made (R15, R127). -/
def takesSoft (stamp : Time) (v : Nat) (f : VFrame) : Bool :=
  decide (f.view.val = v ∧ stamp < f.fsAt) && !f.started && decide (f.jobs = [])

/-- The reference histogram's first bin of an array frame (R116). -/
def hbaseOf (s : State) (f : VFrame) : Nat :=
  if f.p.source ≠ 0 then 0 else
  match (s.seq.cur.toList ++ s.seq.prev.toList).find? (fun x => x.num = f.frame) with
  | some x => bits x.cfg.ctl 11 8
  | none => 0

/-- Soft fields reach a frame that was open when the command ran (R15, R127). -/
def softFrame (s : State) (v : Nat) (x : SoftP) (f : VFrame) : State :=
  let (curve, src) := frameCurve s x.p f.ped (hbaseOf s f) f.fsAt
  let s := match src with | some n => s.setReg (aPIPE_VTMSRC v) n | none => s
  let s := s.modVf v f.frame (fun f => { f with p := x.p, paramId := x.id, curve := curve })
  let swap (l : List Nat) : List Nat := l.filter (· ≠ v) ++ (if bit x.p.flags 0 then [v] else [])
  if f.p.source = 0 then s.modFrame f.frame (fun g => { g with takers := swap g.takers })
  else s.modAux (f.p.source - 1) (fun a => { a with
    stat := a.stat.map (fun r => if r.vc = f.p.vc ∧ r.frame = f.frame then { r with takers := swap r.takers } else r) })

/-- An accepted `MODIFY_VIEW`: soft fields from the first frame whose start follows the stamp, all fields at once on a view that is not started
(R127). -/
def modifyView (s : State) (v : Nat) (x : SoftP) : State :=
  let open_ := s.pipe.frames.filter (takesSoft x.stamp v)
  if open_ = [] ∧ (s.view v).started then s.modView v (fun w => { w with soft := w.soft ++ [x] })
  else open_.foldl (fun s f => softFrame s v x f) (s.modView v (fun w => { w with p := x.p, paramId := x.id, soft := [] }))

/-- An accepted `SET_VIEW_AUTH`: it applies from the first frame whose FS follows the stamp, as soft fields do (R477). -/
def tagView (s : State) (v : Nat) (stamp : Time) (tk : Option (List Byte)) : State :=
  let open_ := s.pipe.frames.filter (takesSoft stamp v)
  if open_ = [] then s.modView v (fun w => { w with tagPend := some (stamp, tk) })
  else
    let s := s.modView v (fun w => { w with tags := tk, tagPend := none })
    let now := tagKeyNow s (s.view v)
    open_.foldl (fun s f => s.modVf v f.frame (fun f => { f with tag := now.map (fun _ => []), tk := now.getD [] })) s

/-- `MODIFY_VIEW` (R127, R155). -/
def execModifyView (c : Call) (s : State) : Out :=
  let v := u8 c.payload 0
  let p := parseView c.payload
  command s c 0x0301 .fast (fun s =>
      [viewLen c, needOwner s c v false, argZero c 2, viewNamed s v] ++ viewChecks s (callPort c) v c.payload ++
      [need (!(s.view v).started || hardSame p (s.view v).p) .badState])
    (fun s =>
      let s := modifyView s v ⟨c.stamp, u16 c.arg 0, p⟩
      okWith s c 0x0301 .fast (viewAnswer s v p))

/-- `START_VIEW` (R126, R156, R382). -/
def execStartView (c : Call) (s : State) : Out :=
  let v := u8 c.payload 0
  command s c 0x0303 .fast (fun s =>
      [lenIs c 4, needOwner s c v false, argZero c, viewNamed s v, reserved c.payload 1 3, needActive s c] ++ startChecks s v c.start)
    (fun s =>
      let s := if s.pw.st = .active then beginView s v c.start else s
      okWith s c 0x0303 .fast (leBytes 4 (s.view v).first))

/-- A stop is ordered: it takes effect at the end of the frame or of the stripe (R139). -/
def orderStop (s : State) (v how : Nat) (call del : Bool) (t : Time) : State :=
  s.modView v (fun w => { w with
    stopHow := some (match w.stopHow with | some h => max h how | none => how), stopAt := some (w.stopAt.getD t)
    stopCall := w.stopCall || call, del := w.del || del })

/-- `STOP_VIEW` (R124, R139, R156). -/
def execStopView (c : Call) (s : State) : Out :=
  let v := u8 c.payload 0
  let how := u8 c.payload 1
  command s c 0x0304 .fast (fun s =>
      [lenIs c 4, needOwner s c v true, argZero c, argOk (decide (v ≤ 15)) 0, argOk (decide (how ≤ 1)) 1, reserved c.payload 2 2,
       need (decide ((s.view v).st = .running)) .badState])
    (fun s =>
      let s := orderStop s v how (decide (callPort c ≠ some (s.view v).owner)) false c.start
      okWith s c 0x0304 .fast [])

/-- `DELETE_VIEW` (R125, R156). -/
def execDeleteView (c : Call) (s : State) : Out :=
  let v := u8 c.payload 0
  command s c 0x0302 .fast (fun s => [lenIs c 4, needOwner s c v false, argZero c, viewNamed s v, reserved c.payload 1 3])
    (fun s =>
      let s := if (s.view v).started then orderStop s v 1 false true c.start else ringForget (s.modView v (fun _ => View.reset)) v c.start
      okWith s c 0x0302 .fast [])

/-- `VIEW_STOP_DONE` (R139). -/
def execViewStopDone (t : Time) (v : ViewIx) (s : State) : Out :=
  event s t (fun s => stopReady s v) (fun s => stopViewNow s v.val t)

/-- Section of a record: items, bytes of an item, largest count, offset in the record (R153, R157). -/
def statSection (src sec : Nat) : Nat × Nat × Nat × Nat :=
  match sec with
  | 0 => (1, 32, 1, 0)
  | 1 => (192, 16, 45, 32)
  | 2 => (if src = 0 then 192 else 0, 192, 3, 3104)
  | _ => (64, 64, 11, if src = 0 then 39968 else 3104)

/-- The record that `GET_STATS` names. -/
def statHeld (s : State) (src frame : Nat) : Option StatRec :=
  if frame = 0xFFFFFFFF then newestStats s src else s.arr.stats.find? (fun r => r.src = src && r.frame = frame)

/-- `GET_STATS` (R154, R157). -/
def execGetStats (c : Call) (s : State) : Out :=
  let p := c.payload
  let (items, size, most, off) := statSection (u8 p 0) (u8 p 1)
  let first := u16 p 2
  let count := u16 p 4
  command s c 0x0305 .fast (fun s =>
      [lenIs c 12, argZero c, argOk (decide (u8 p 0 ≤ 4)) 0, argOk (decide (u8 p 1 ≤ 3) && !(decide (u8 p 1 = 2) && decide (u8 p 0 ≠ 0))) 1,
       argOk (decide (first < items)) 2, argOk (decide (1 ≤ count ∧ count ≤ most ∧ first + count ≤ items)) 4, reserved p 6 2,
       need (statHeld s (u8 p 0) (u32 p 8)).isSome .badState])
    (fun s =>
      match statHeld s (u8 p 0) (u32 p 8) with
      | some r => okWith s c 0x0305 .fast (leBytes 4 r.frame ++ leBytes 2 r.id ++ [byte (u8 p 0), byte (u8 p 1)] ++ leBytes 2 first ++
          leBytes 2 count ++ zeros 4 ++ slice r.bytes (off + first * size) (count * size))
      | none => s)

/-- `FRAME_DROP_REPEAT` (R128, R169). -/
def execFrameDropRepeat (t : Time) (v : ViewIx) (s : State) : Out :=
  event s t (fun s =>
      let w := s.view v.val
      w.missing && decide (w.missReason ≠ 1) && (decide (0 < w.missCount) || sourceLate s w.p) &&
      (match w.missAt with | some a => decide (a + sec ≤ t) | none => false))
    (fun s =>
      let w := s.view v.val
      let n := lateMisses s w t
      let s := s.bump (aPIPE_VDROP v.val) 31 16 n
      reportMiss (s.modView v.val (fun w => { w with missCount := w.missCount + n })) v.val t)

/-! ## Jobs (R148 to R150) -/

/-- A job of a frame has been released. -/
def jobKnown (s : State) (f : VFrame) (b g k : Nat) : Bool :=
  let it (j : Job8) : Bool := decide (j.view = f.view ∧ j.frame = f.frame ∧ j.band = b ∧ j.group = g ∧ j.stripe = k)
  f.jobs.contains (b, g, k) || s.pipe.ready.any it || (match s.pipe.run with | some (j, _) => it j | none => false)

/-- The frame of a view whose job can be released: the oldest one that has the job and has not done it. None is released while its stream is LATE
(R169; DESIGN CHOICE, log entry 37). Jobs that read memory are released in
ascending order, so that rows leave in it (R137). -/
def releasable (s : State) (v : ViewIx) (b g k : Nat) : Option VFrame :=
  s.pipe.frames.find? (fun f => decide (f.view = v) && decide (k < stripeCount f) && !(groupRows f b g).isEmpty &&
    !sourceLate s f.p && (banded f == decide (b < 12)) && (banded f || decide (b = 12)) && !jobKnown s f b g k &&
    (decide (f.p.order = 0) || (List.range (g * stripeCount f + k)).all (fun n => jobKnown s f 12 (n / stripeCount f) (n % stripeCount f))) &&
    groupArrived s f b g k)

/-- Class and deadline of a job released at an instant (R150). -/
def jobClass (s : State) (f : VFrame) (t : Time) : Nat × Time :=
  if f.p.order = 1 then (3, f.late.getD t)
  else if f.p.source = 0 then (1, t)
  else (2, t + 16 * auxFrameIv s (f.p.source - 1) f.p.vc / max 1 (auxH s (f.p.source - 1) f.p.vc))

/-- The pipeline readers read the rows of a group of a RASTER frame from its store (R189). -/
def readStores (s : State) (f : VFrame) (band group : Nat) (t : Time) : State :=
  (groupRows f band group).foldl (fun s y =>
    if f.p.source = 0 then memLoad s 2 f.view.val (storeAddr s f y) (f.sw * 3) t
    else memLoad s 2 f.view.val (auxStoreAddr s (f.p.source - 1) f.p.vc f.store (f.sy + y)) (f.geomW * dtHeld (f.auxAct.getD 9 0)) t) s

/-- `PIPE_JOB_RELEASE` (R148). -/
def execPipeJobRelease (t : Time) (v : ViewIx) (band group stripe : Nat) (s : State) : Out :=
  event s t (fun s => (releasable s v band group stripe).isSome) (fun s =>
    match releasable s v band group stripe with
    | some f =>
      let (cls, dl) := jobClass s f t
      let s := if f.p.order = 1 ∧ stripe = 0 then readStores s f band group t else s
      s.modPipe (fun p => { p with ready := p.ready ++ [⟨v, f.frame, band, group, stripe, cls, dl⟩] })
    | none => s)

/-- The job that runs first: class, deadline, view number, then the earlier job: by frame as released, band, group and stripe (R135, R150). -/
def jobBefore (a b : Job8) : Bool :=
  decide (a.cls < b.cls) || (decide (a.cls = b.cls) && (decide (a.deadline < b.deadline) ||
    (decide (a.deadline = b.deadline) && (decide (a.view.val < b.view.val) ||
      (decide (a.view.val = b.view.val ∧ a.frame = b.frame) && (decide (a.band < b.band) || (decide (a.band = b.band) &&
        (decide (a.group < b.group) || (decide (a.group = b.group) && decide (a.stripe < b.stripe))))))))))

def nextJob : List Job8 → Option Job8
  | [] => none
  | j :: r => match nextJob r with
    | some k => some (if jobBefore k j then k else j)
    | none => some j

/-- Source pixels of a job. -/
def jobSize (f : VFrame) (j : Job8) : Nat :=
  min 512 (f.sw - 512 * j.stripe) * (groupRows f j.band j.group).length * f.s

/-- `PIPE_JOB_START` (R149, R150). -/
def execPipeJobStart (t : Time) (s : State) : Out :=
  event s t (fun s => s.pipe.run.isNone && !s.pipe.ready.isEmpty) (fun s =>
    match nextJob s.pipe.ready with
    | none => s
    | some j =>
      let n := match vframe s j.view.val j.frame with | some f => jobSize f j | none => 0
      s.modPipe (fun p => { p with ready := removeFirst (· = j) p.ready, run := some (j, t + divCeil (pixTime (jobPixels n)) 96) }))

/-- `PIPE_JOB_COMPLETE` (R135). -/
def execPipeJobComplete (t : Time) (s : State) : Out :=
  event s t (fun s => match s.pipe.run with | some (_, e) => decide (e ≤ t) | none => false) (fun s =>
    match s.pipe.run with
    | some (j, _) => jobDone (s.modPipe (fun p => { p with run := none })) j t
    | none => s)

/-- A stored frame of a view whose readback is due. -/
def readbackOf (s : State) (v : ViewIx) (t : Time) : Option VFrame :=
  s.pipe.frames.find? (fun f => decide (f.view = v ∧ f.p.order = 1) && f.readback.isNone &&
    (match f.srcEnd with | some e => decide (e + 50 * us ≤ t) | none => false))

/-- `RASTER_READBACK_START` (R137). -/
def execRasterReadbackStart (t : Time) (v : ViewIx) (s : State) : Out :=
  event s t (fun s => memUp s && (readbackOf s v t).isSome) (fun s =>
    match readbackOf s v t with
    | some f =>
      let rb := f.srcEnd.getD t + 50 * us
      s.modVf v.val f.frame (fun f => { f with readback := some rb, late := some (rb + 9 * f.interval / 10) })
    | none => s)

end Sys2Proof.Machine
end

