-- ==== Sys2Proof/Machine/SecCmds.lean ====
section
/-! DEFINITION. Commands and events of OTP and security, firmware loads and the self-tests' end (R464 to R490, R501). -/

namespace Sys2Proof.Machine

/-- Keys are shut: restrictive defaults or an alarm lock, and for a host slot a kill (R464, R473, R481). -/
def keyShut (s : State) (slot : Nat) : Bool :=
  s.sec.untrusted || s.sec.lockStands || (decide (slot ≤ 3) && killedNow s)

/-- Key and instance of a slot, or of the vendor key. -/
def keyOf (s : State) (slot : Nat) : Option (List Byte × Nat) :=
  if slot = 0xFF then s.sec.vendor.map (fun k => (k, 0))
  else if slot ≤ 3 then (slotInst s slot).map (fun x => (x.2.2, x.1))
  else none

/-! ## Authentication (R474, R475, R484) -/

/-- `AUTH_CHALLENGE` (R474, R484). -/
def execAuthChallenge (c : Call) (s : State) : Out :=
  let slot := u8 c.payload 0
  command s c 0x0900 .fast (fun s => [lenIs c 4, argZero c, need (!keyShut s slot) .locked,
      argOk (decide (slot ≤ 3 ∨ slot = 0xFF)) 0, reserved c.payload 1 3, need (keyOf s slot).isSome .badState])
    (fun s =>
      let p := srcIx c.src
      let nonce := leBytes 16 (Config.nonce s.sec.nonceNo).toNat
      let gen := match keyOf s slot with | some (_, g) => g | none => 0
      let s := { s with sec := { s.sec with
        nonceNo := s.sec.nonceNo + 1, nonces := modAt s.sec.nonces p.val (fun _ => some ⟨slot, nonce, c.start⟩) } }
      okWith s c 0x0900 .fast (nonce ++ s.sec.uid ++ [byte slot, byte gen, byte p.val] ++ zeros 5))

/-- A port's new role releases the leases it may not hold (R350, R474). -/
def dropBarred (s : State) (p : PortIx) (t : Time) : State :=
  if portRole s p = .viewer then
    (List.range 30).foldl (fun s b => if (s.lease b).holder = some p then dropLease s b 2 t else s) s
  else s

/-- `AUTH_RESPONSE` (R474, R475, R484). -/
def execAuthResponse (c : Call) (s : State) : Out :=
  let slot := u8 c.payload 0
  let p := srcIx c.src
  command s c 0x0901 .fast (fun s => [lenIs c 20, argZero c, need (!keyShut s slot) .locked,
      argOk (decide (slot ≤ 3)) 0, reserved c.payload 1 3,
      need ((liveNonce s p slot c.start).isSome && (keyOf s slot).isSome) .badState,
      need (match s.sec.failAt.getD p.val none with | some a => decide (a + 100 * ms ≤ c.start) | none => true) .busy])
    (fun s =>
      match liveNonce s p slot c.start, keyOf s slot with
      | some n, some (key, gen) =>
        let mac (d : Nat) := cmac key (authMsg s n.bytes p.val slot gen d)
        if mac 1 = slice c.payload 4 16 then
          let s := clearNonce s p
          let s := { s with sec := { s.sec with
            auth := modAt s.sec.auth p.val (fun _ => some (slot, gen)), authFails := 0
            failAt := modAt s.sec.failAt p.val (fun _ => none) } }
          let s := dropBarred s p c.start
          okWith s c 0x0901 .fast ([byte (portRole s p).code, byte slot, 0, 0] ++ mac 2)
        else respond (authFailed s p c.start) c 0x0901 .fast .authFailed 0 []
      | _, _ => s)

/-- `NONCE_EXPIRY` (R474). -/
def execNonceExpiry (t : Time) (p : PortIx) (s : State) : Out :=
  event s t (fun s => match s.sec.nonces.getD p.val none with | some n => decide (n.issued + sec ≤ t) | none => false)
    (fun s => clearNonce s p)

/-- `SET_VIEW_AUTH` (R477, R488). -/
def execSetViewAuth (c : Call) (s : State) : Out :=
  let v := u8 c.payload 0
  let slot := u8 c.payload 2
  let p := srcIx c.src
  command s c 0x0902 .fast (fun s => [lenIs c 4, argZero c, needOwner s c v false, need (!keyShut s 0) .locked,
      need (portAuth s p).isSome .authRequired, viewNamed s v, argOk (decide (u8 c.payload 1 ≤ 1)) 1,
      argOk (match portAuth s p with | some (k, _) => decide (k = slot) | none => true) 2, reserved c.payload 3 1])
    (fun s =>
      let tk := if u8 c.payload 1 = 0 then none else (keyOf s slot).map (fun x => tagKey s x.1 v slot x.2)
      okWith (tagView s v c.stamp tk) c 0x0902 .fast [])

/-! ## OTP commands (R465 to R472, R485 to R487) -/

/-- `OTP_READ` (R485): an accepted word, or a bad one that reads 0. -/
def otpShown (s : State) (a : Nat) : Option Nat :=
  if decide (0x0940 ≤ a ∧ a < 0x0A40) && regionFailed s 6 then none else otpWord s.otp.cells a

def execOtpRead (c : Call) (s : State) : Out :=
  let a := u16 c.payload 0
  let n := u16 c.payload 2
  command s c 0x0910 .fast (fun _ => [lenIs c 4, argZero c, need (!(decide (a < 0x0840) && decide (0x0200 < a + n))) .denied,
      argOk (decide (a ≤ 0x3FFF)) 0, argOk (decide (1 ≤ n ∧ n ≤ 144 ∧ a + n ≤ 0x4000)) 2])
    (fun s =>
      let l := (List.range n).map (fun k => otpShown s (a + k))
      let bad (k : Nat) : Bool := decide (k < n) && (l.getD k none).isNone
      okWith s c 0x0910 .fast (leBytes 2 a ++ leBytes 2 n ++ [byte (b2n (l.any (fun x => x.isNone))), 0, 0, 0] ++
        l.flatMap (fun x => leBytes 4 (x.getD 0)) ++
        (List.range (divCeil n 8)).map (fun i => byte (bitmap ((List.range 8).map (fun b => bad (8 * i + b)))))))

/-- Whether a caller is a port with at least a role, as the table of R470 asks. -/
def roleIs (s : State) (c : Call) (r : Role) : Bool :=
  match c.src with
  | .port p => decide (r.code ≤ (portRole s p).code)
  | .sideband => false

/-- Regions whose words the lifecycle lets a raw write reach (R470). In RETURN the DEFECT region stands for its RETURN list. -/
def rawRegion (l : Life) (r k : Nat) : Bool :=
  match l with
  | .blank => false
  | .manufacture => true
  | .provisioned | .field => decide (r = 6)
  | .ret => decide (r = 6) || (decide (r = 8) && decide (8159 ≤ k ∧ k < 8175))

/-- A body word of copy A, or an entry of the RETURN list in RETURN. -/
def rawWord (l : Life) (a : Nat) : Bool :=
  match regionOf a with
  | some (r, k, false) =>
    let (n, ci) := regionBody r
    decide (k < n ∨ k = ci) || (decide (r = 8 ∧ l = .ret) && decide (8159 ≤ k ∧ k < 8175))
  | _ => false

/-- The lifecycle bars a raw write of an address that lies in a region. -/
def rawDenied (l : Life) (a : Nat) : Bool := match regionOf a with | some (r, k, _) => !rawRegion l r k | none => decide (l = .blank)

/-- Blank in every copy it has. -/
def blankWord (s : State) (a : Nat) : Bool :=
  match regionOf a with
  | some (r, k, _) => let (x, _, y) := regionSpan r
    !programmed s.otp.cells (x + k) && (match y with | some b => !programmed s.otp.cells (b + k) | none => true)
  | none => !programmed s.otp.cells a

/-- R467 for one word. -/
def mayProgram (s : State) (a : Nat) : Bool :=
  match regionOf a with
  | some (r, k, _) =>
    let ci := (regionBody r).2
    let listWord := decide (r = 8 ∧ 8159 ≤ k ∧ k < 8175)
    blankWord s a && (listWord || (!regionLocked s.otp.cells r && (decide (k = ci) || blankWord s ((regionSpan r).1 + ci))))
  | none => false

/-- The conditions under which programming may start (R465). -/
def mayStart (s : State) : Option Reject := need (otpWindow s && s.otp.jobs.isEmpty) .badState

/-- Words of a payload from offset 8. -/
def payloadWords (c : Call) (n : Nat) : List Nat := (List.range n).map (fun k => u32 c.payload (8 + 4 * k))

/-- A programming command is accepted and its words are queued. -/
def startProgram (s : State) (c : Call) (op : Nat) (deadline : Time) (words : List (Nat × Nat)) : State :=
  pushJob (accept s c op (deadline) 0) ⟨.cmd c.src op c.tag, words, 0⟩

/-- The words of an instance, its CRC last. -/
def instanceWords (first : Nat) (body : List Nat) : List (Nat × Nat) := ((body ++ [wordsCrc body]).zipIdx).map (fun x => (first + x.2, x.1))

def wordsOf (b : List Byte) : List Nat := (List.range (b.length / 4)).map (fun k => u32 b (4 * k))

/-- The words that provision a key in a place (R458, R471). -/
def keyWords (slot i role : Nat) (key : List Byte) : List (Nat × Nat) :=
  bothCopies 3 (instanceWords (0x0200 + 288 + 128 * slot + 16 * i)
    ((0x4B000000 + slot * 65536 + i * 256 + role) :: (wordsOf (keyWrap kekBytes key) ++ [0, 0, 0, 0])))

/-- What the lifecycle and role allow of an `OTP_PROGRAM` (R464, R470). -/
def programAllowed (s : State) (c : Call) : Bool :=
  let l := s.sec.life
  !s.sec.untrusted && decide (l ≠ .blank) &&
  (match u8 c.payload 0 with
   | 0 => (List.range (u16 c.payload 6)).all (fun k => !rawDenied l (u16 c.payload 4 + k))
   | 1 => if u8 c.payload 3 = 1 then decide (l = .provisioned ∨ l = .field) else decide (l = .manufacture ∨ l = .provisioned)
   | 2 => (match l with
     | .manufacture => true
     | .provisioned => roleIs s c .primary
     | .field => roleIs s c .safety
     | _ => false)
   | 3 => decide (l = .manufacture)
   | _ => true)

/-- Payload length of an `OTP_PROGRAM` by its KIND. -/
def programLen (c : Call) : Bool :=
  let n := c.payload.length
  match u8 c.payload 0 with
  | 0 => decide (n = 8 + 4 * u16 c.payload 6) || (decide (8 ≤ n) && !decide (1 ≤ u16 c.payload 6 ∧ u16 c.payload 6 ≤ 180))
  | 1 => if u8 c.payload 3 = 1 then decide (n = 48) else decide (n = 40) || (decide (1 < u8 c.payload 3) && decide (8 ≤ n))
  | 2 => decide (n = 12)
  | 3 => decide (n = 40)
  | _ => decide (8 ≤ n)

/-- What each KIND asks of its fields and of the OTP (R458, R465 to R467, R472, R473, R481). -/
def programChecks (s : State) (c : Call) : List (Option Reject) :=
  let pl := c.payload
  let a := u16 pl 4
  let n := u16 pl 6
  let slot := u8 pl 1
  match u8 pl 0 with
  | 0 =>
    let ws := List.range n
    [argOk (decide (1 ≤ n ∧ n ≤ 180)) 6, argOk (ws.all (fun k => rawWord s.sec.life (a + k))) 4,
     argOk (ws.all (fun k => !(decide (0x2000 + 8159 ≤ a + k ∧ a + k < 0x2000 + 8175)) || decide (bits (u32 pl (8 + 4 * k)) 5 3 = 7))) 8,
     mayStart s, need (ws.all (fun k => mayProgram s (a + k))) .badState]
  | 1 =>
    [need (!killedNow s) .locked, argOk (decide (slot ≤ 3)) 1, argOk (decide (u8 pl 3 = 1 ∨ u8 pl 2 ≤ 2)) 2, argOk (decide (u8 pl 3 ≤ 1)) 3,
     mayStart s, need (s.sec.pufOk && !regionLocked s.otp.cells 3) .badState,
     need (!decide (u8 pl 3 = 1) || (slotInst s slot).isSome) .badState,
     need (decide (4 ≤ slot) || (freePlace 8 (fun i => groupUsed s 3 (288 + 128 * slot + 16 * i) 16)).isSome) .noResource]
  | 2 =>
    let v := u32 pl 8
    [argOk (decide (slot ≤ 1)) 1,
     argOk (if slot = 0 then decide (v < 2 ^ 17) && (List.range 7).all (fun b => decide (bits v (2 * b + 1) (2 * b) ≠ 3)) && decide (bits v 15 14 = 0)
       else decide (v ≤ 3 ∨ v = 0xF)) 8,
     mayStart s, need (!regionLocked s.otp.cells 2) .badState,
     need (decide (2 ≤ slot) || (freePlace 4 (fun i => groupUsed s 2 (16 + 16 * slot + 4 * i) 4)).isSome) .noResource]
  | 3 => [mayStart s, need (!enrolled s.otp.cells && !regionLocked s.otp.cells 3 && blankWord s (0x0200 + 287) &&
      (List.range 10).all (fun k => blankWord s (0x0200 + 256 + k))) .badState]
  | _ => [argOk false 0]

/-- The work of an accepted `OTP_PROGRAM`. -/
def runProgram (s : State) (c : Call) : State :=
  let pl := c.payload
  let slot := u8 pl 1
  match u8 pl 0 with
  | 0 =>
    let ws := (payloadWords c (u16 pl 6)).zipIdx.map (fun x => (u16 pl 4 + x.2, x.1))
    let r := match regionOf (u16 pl 4) with | some (r, _, _) => r | none => 8
    startProgram s c 0x0911 (100 * ms) (bothCopies r ws)
  | 1 =>
    let i := (freePlace 8 (fun i => groupUsed s 3 (288 + 128 * slot + 16 * i) 16)).getD 0
    if u8 pl 3 = 0 then startProgram s c 0x0911 (50 * ms) (keyWords slot i (u8 pl 2) (slice pl 8 32))
    else
      match slotInst s slot with
      | some (_, r, k) =>
        match keyUnwrap k (slice pl 8 40) with
        | some key => startProgram s c 0x0911 (50 * ms) (keyWords slot i r.code key)
        | none => otpComplete (accept s c 0x0911 (50 * ms) 0) c.src 0x0911 c.tag .authFailed 0 0xFFFF c.start
      | none => s
  | 2 =>
    let i := (freePlace 4 (fun i => groupUsed s 2 (16 + 16 * slot + 4 * i) 4)).getD 0
    startProgram s c 0x0911 (50 * ms) (bothCopies 2 (instanceWords (0x0080 + 16 + 16 * slot + 4 * i)
      [0x50000000 + 256 * slot + i, u32 pl 8, 0]))
  | _ =>
    let helper := (List.range 256).map (fun k => (0x0200 + k, (Config.helperWord k).toNat))
    let key := (wordsOf (keyWrap kekBytes (slice pl 8 32))).zipIdx.map (fun x => (0x0200 + 256 + x.2, x.1))
    startProgram s c 0x0911 (250 * ms) (bothCopies 3 (helper ++ key))

/-- `OTP_PROGRAM` (R465 to R472, R486). -/
def execOtpProgram (c : Call) (s : State) : Out :=
  command s c 0x0911 .slow (fun s => [need (programLen c) .badLength, argZero c, need (programAllowed s c) .denied,
      need (!s.sec.lockStands) .locked] ++ programChecks s c)
    (fun s => runProgram s c)

/-- A copy as it reads at the strict margin. -/
def strictWord (s : State) (a : Nat) : Option Nat := (otpDecode (cellAt s.otp.cells a).strict).map (fun x => x.1)

/-- The CRC word of a copy is programmed and matches its body at the strict margin (R468). -/
def strictCrcOk (s : State) (base r : Nat) : Bool :=
  let (n, ci) := regionBody r
  match (List.range n).mapM (fun k => strictWord s (base + k)), strictWord s (base + ci) with
  | some ws, some v => decide (v ≠ 0) && decide (v = wordsCrc ws)
  | _, _ => false

/-- Who may lock a region (R470). -/
def lockAllowed (s : State) (c : Call) (r : Nat) : Bool :=
  !s.sec.untrusted && (match s.sec.life with
    | .manufacture => true
    | .provisioned | .field => if r = 6 then roleIs s c .primary else roleIs s c .safety
    | _ => false)

/-- `OTP_LOCK_REGION` (R468, R487). -/
def execOtpLockRegion (c : Call) (s : State) : Out :=
  let r := u8 c.payload 0
  command s c 0x0912 .slow (fun s => [lenIs c 4, argZero c, need (lockAllowed s c r) .denied, need (!s.sec.lockStands) .locked,
      argOk (decide (r ≤ 8 ∧ r ≠ 1)) 0, reserved c.payload 1 3, mayStart s])
    (fun s =>
      let (a, _, b) := regionSpan r
      let ok := strictCrcOk s a r && (match b with | some b => strictCrcOk s b r | none => true)
      if regionLocked s.otp.cells r then complete (accept s c 0x0912 (50 * ms) r) c.src 0x0912 c.tag .ok [] c.start
      else if ok then startProgram s c 0x0912 (50 * ms) [(lockAddr r, 0x4C4B0000 + r)]
      else complete (accept s c 0x0912 (50 * ms) r) c.src 0x0912 c.tag .badState [] c.start)

/-! ## Lifecycle (R469, R475, R476, R487) -/

/-- The move to PROVISIONED. -/
def provisionReady (s : State) : Bool :=
  let crc (r : Nat) : Bool := decide (liveWord s r (regionBody r).2 ≠ 0)
  [0, 7, 8].all (regionLocked s.otp.cells) && [3, 2, 4, 5].all crc && enrolled s.otp.cells

/-- Who may make a move (R464, R469). -/
def moveAllowed (s : State) (c : Call) (target : Nat) : Bool :=
  !s.sec.untrusted && (match c.src with | .port _ => true | .sideband => false) &&
  (!(decide (target = 3) && decide (s.sec.life = .provisioned)) ||
    (roleIs s c .safety && (portAuth s (srcIx c.src)).isSome))

/-- A caller whose role is too low is refused as R348 says, any other as DENIED (R464, R469). -/
def moveRefusal (s : State) (c : Call) (target : Nat) : Option Reject :=
  if moveAllowed s c target then none
  else if !s.sec.untrusted && decide (c.src ≠ .sideband) then gainOrDeny s .safety
  else some ⟨.denied, 0⟩

def markWords (target : Nat) : List (Nat × Nat) := bothCopies 1 [(0x0040 + target, 0x4C430000 + target)]

/-- `LIFECYCLE` (R469, R475, R476, R487). -/
def execLifecycle (c : Call) (s : State) : Out :=
  let target := u8 c.payload 0
  let p := srcIx c.src
  command s c 0x0913 .slow (fun s =>
      let next := decide (target = s.sec.life.code + 1) && decide (target ≤ 4)
      [lenIs c 20, argZero c, moveRefusal s c target, need (!s.sec.lockStands) .locked, argOk next 0, reserved c.payload 1 3,
       (if target = 4 then none else reserved c.payload 4 16), mayStart s,
       need (!decide (target = 4) || ((liveNonce s p 0xFF c.start).isSome && s.sec.vendor.isSome)) .badState,
       need (decide (5 ≤ target) || blankWord s (0x0040 + target)) .badState])
    (fun s =>
      let done (s : State) (st : Status) : State := otpComplete s c.src 0x0913 c.tag st 0 0xFFFF c.start
      if target = 2 ∧ !provisionReady s then done (accept s c 0x0913 (50 * ms) target) .badState
      else if target = 4 then
        match liveNonce s p 0xFF c.start, s.sec.vendor with
        | some n, some key =>
          if cmac key (authMsg s n.bytes p.val 0xFF 0 3) = slice c.payload 4 16 then
            let s := accept (clearNonce s p) c 0x0913 (c.start + 50 * ms) target
            let s := { s with sec := { s.sec with authFails := 0 } }
            let kill := if s.sec.killed then [] else [(killAddr, 0)]
            let s := if s.sec.killed then allPorts.foldl (fun s p => endAuth s p c.start) s else s
            pushJob s ⟨.killReturn c.src c.tag, kill ++ markWords 4, 0⟩
          else done (authFailed (accept s c 0x0913 (50 * ms) target) p c.start) .authFailed
        | _, _ => s
      else startProgram s c 0x0913 (50 * ms) (markWords target))

/-- `ROLLBACK_STEP_WRITE` (R458, R466, R479): the next blank steps are programmed until the counter equals the SVN. -/
def execRollbackStepWrite (t : Time) (s : State) : Out :=
  event s t (fun s => decide (s.sec.rollback < s.sec.stepsTo) && otpWindow s && !s.otp.jobs.any (fun j => decide (j.what = .rollback))) (fun s =>
    let blank := ((List.range 64).map (· + 1)).filter (fun n => !programmed s.otp.cells (0x0840 + 1 + n))
    pushJob s ⟨.rollback, (blank.take (s.sec.stepsTo - s.sec.rollback)).map (fun n => (0x0840 + 1 + n, 0x53560000 + n)), 0⟩)

/-! ## Firmware (R403, R470, R479, R489) -/

/-- Who may load firmware. -/
def loadAllowed (s : State) (c : Call) : Bool :=
  !s.sec.untrusted && decide (s.sec.life ≠ .blank) &&
  (match c.src with
   | .sideband => allPorts.all (fun p => !s.portActive p)
   | .port _ => openLife s || roleIs s c .safety)

def loadLen (c : Call) : Bool :=
  let n := c.payload.length
  match u8 c.payload 0 with
  | 0 => decide (n = 136)
  | 1 => decide (24 ≤ n ∧ n ≤ 760 ∧ n % 16 = 8)
  | 2 | 3 => decide (n = 8)
  | _ => decide (8 ≤ n)

/-- The header fields that R479 bounds. -/
def headerOk (h : List Byte) : Bool :=
  decide (u32 h 0 = 0x46575431) && decide (u8 h 8 ≤ 64) && decide (u32 h 12 % 16 = 0) && decide (u32 h 12 ≤ 229376) &&
  (slice h 9 3).all (· = 0) && (slice h 20 44).all (· = 0)

/-- The load in progress, unless its 10 s have passed. -/
def loadNow (s : State) (t : Time) : Option FwLoad :=
  match s.sec.load with
  | some l => if t < l.last + 10 * sec then some l else none
  | none => none

def setLoad (s : State) (l : Option FwLoad) : State := { s with sec := { s.sec with load := l } }

/-- END of a load: bytes missing, a bad signature and a rolled-back image complete at once, and a good image goes to its handover. -/
def endLoad (s : State) (c : Call) (l : FwLoad) : State :=
  let s := setLoad (accept s c 0x0920 (50 * ms) 2) none
  let done (st : Status) : State := complete s c.src 0x0920 c.tag st [] c.start
  let body := imageBody l
  if !loadWhole l then done .badArg
  else if !imageSigned l.header body then done .authFailed
  else if u8 l.header 8 < s.sec.rollback then done .denied
  else { s with sec := { s.sec with handover := some ⟨c.src, c.tag, u32 l.header 4, u8 l.header 8, l.advance, c.start, l.header ++ body⟩ } }

/-- `FW_LOAD` (R403, R489). DESIGN CHOICE: R489 gives `FLAGS` bit 0 and marks bits 7:1 in no way; a set bit is refused as a reserved one
(log entry 76). -/
def execFwLoad (c : Call) (s : State) : Out :=
  let pl := c.payload
  let op := u8 pl 0
  command s c 0x0920 .slow (fun s =>
      let l := loadNow s c.start
      [need (loadLen c) .badLength, argZero c, need (loadAllowed s c) .denied, need (!s.sec.lockStands) .locked,
       argOk (decide (op ≤ 3)) 0, reservedBits pl 1 0xFE, reserved pl 2 2,
       argOk (decide (op ≠ 0) || headerOk (pl.drop 8)) 8,
       argOk (match l with | some l => decide (op ≠ 1 ∨ u32 pl 4 + (pl.length - 8) ≤ l.length) | none => true) 4,
       need (decide (s.pw.st = .standby ∨ s.pw.st = .active)) .badState,
       need (decide (op = 0) || l.isSome) .badState,
       need (match l with | some l => decide (l.src = c.src) | none => true) .busy])
    (fun s =>
      let ok (s : State) : State := complete (accept s c 0x0920 (50 * ms) op) c.src 0x0920 c.tag .ok [] c.start
      match op, loadNow s c.start with
      | 0, _ => ok (setLoad s (some ⟨c.src, slice pl 8 128, [], u32 pl 20, bit (u8 pl 1) 0, c.start⟩))
      | 1, some l => ok (setLoad s (some { l with have_ := l.have_ ++ [(u32 pl 4, pl.drop 8)], last := c.start }))
      | 2, some l => endLoad s c l
      | _, _ => ok (setLoad s none))

/-- `FW_LOAD_TIMEOUT` (R489). -/
def execFwLoadTimeout (t : Time) (s : State) : Out :=
  event s t (fun s => match s.sec.load with | some l => decide (l.last + 10 * sec ≤ t) | none => false) (fun s => setLoad s none)

/-- `FW_HANDOVER` (R403): only the control processor restarts. Deadlines of waiting firmware commands run from here, and the governor waits for
the next complete statistics. -/
def execFwHandover (t : Time) (s : State) : Out :=
  event s t (fun s => s.sec.handover.isSome) (fun s =>
    match s.sec.handover with
    | none => s
    | some h =>
      let sec := { s.sec with handover := none, fwVer := h.ver, fwSrc := 2, fwSvn := h.svn, fwImage := h.image, stepsTo := if h.advance then h.svn else 0 }
      let fwq := s.fwq.map (fun (j : Job) => { j with due := j.due.map (fun (d : Time) => t + (d - j.stamp)) })
      let s := { s with sec := sec, fwq := fwq }
      let s := s.modGov (fun v => { v with due := [] })
      complete s h.src 0x0920 h.tag .ok (leBytes 4 h.ver ++ [byte h.svn, 0, 0, 0]) t)

/-! ## Alarm sources (R480, R482) -/

/-- `ENC_N_ALARM`. -/
def execEncNAlarm (t : Time) (s : State) : Out := event s t (fun _ => true) (fun s => alarmEvent s 0 true t)

/-- `SHIELD_CHECK`. -/
def execShieldCheck (t : Time) (bad : Bool) (s : State) : Out := event s t (fun _ => bad) (fun s => alarmEvent s 1 true t)

/-- `VGLITCH`: the monitors of VCORE and VIO watch outside BUOY. -/
def execVglitch (t : Time) (s : State) : Out := event s t (fun _ => true) (fun s => alarmEvent s 2 false t)

/-! ## Self-tests (R500 to R502) -/

/-- `BIST_COMPLETE`. -/
def execBistComplete (t : Time) (read : BistRead) (s : State) : Out :=
  event s t (fun s => bistMatches s read) (fun s => finishBist s (bistFails read) t)

end Sys2Proof.Machine
end

