-- ==== Sys2Proof/Machine/RegRead.lean ====
section
/-! DEFINITION. What the registers read as, and READ_REG (R46 to R50, R93, R122, R158, R179, R215, R252, R289, R328, R355, R357, R375, R404,
R422, R453, R490, R503 to R505). A register that no function of this file derives shows its value of the register store. -/

namespace Sys2Proof.Machine

/-! ## SYS -/

def shownSys (s : State) (a : Nat) (t : Time) : Nat :=
  if a = aSYS_STATUS then
    s.pw.st.code + 8 * b2n (throttled s && decide (s.pw.st = .active)) + 16 * b2n (restricted s) + 32 * b2n s.sec.untrusted +
      64 * b2n s.pw.keepRc + 128 * b2n (safeClk s) + 256 * s.sec.life.code + 2048 * b2n s.clk.synced
  else if a = aSYS_SB then
    (0x10 + s.pw.devid) % 128 + 128 * b2n s.sb.i3c + 256 * (s.sb.dynAddr % 256) + 65536 * b2n s.sb.ibiEn
  else if aSYS_MBX 0 ≤ a ∧ a ≤ aSYS_MBX 3 then
    let m := (s.port (portIx ((a - aSYS_MBX 0) / 4))).mbx
    m.reqFree % 64 + 256 * (m.rspFree % 64) + 65536 * m.cmdLimit
  else if aSYS_LEASE 0 ≤ a ∧ a ≤ aSYS_LEASE 3 then
    let p := portIx ((a - aSYS_LEASE 0) / 4)
    leaseMap s p t + 2 ^ 30 * (portRole s p).code
  else s.reg a

/-! ## ARRAY -/

/-- Enables of the frame being read; those of the active set while none is read. -/
def enNow (s : State) : List Bool := match s.seq.cur with | some f => f.en | none => enOf s s.arr.active

/-- A tile stands by: neither the active set nor a frame in progress has it enabled. It leaves standby at the ELP that enables it, within the 15 µs of
R42. -/
def standby (s : State) (i : Nat) : Bool :=
  !(enOf s s.arr.active).getD i false && !(liveFrames s).any (fun f => f.endAt.isNone && f.en.getD i false)

def geomWord (g : Settings) : Nat := g.rowFirst + 65536 * g.rowCount + 2 ^ 28 * b2n g.bin + 2 ^ 29 * b2n g.res10
def seqCtlWord (g : Settings) : Nat := g.mode + 16 * g.dcg + 256 * g.trig + 2048 * g.trigTmr + 65536 * g.tail
def offsWord (g : Settings) : Nat := g.d1 + 1024 * g.d2 + 2 ^ 20 * g.d3
def sliceWord (g : Settings) (j : Nat) : Nat := if j = 0 then g.w0 + 2 ^ 24 * g.n0 else g.w1 + 2 ^ 24 * g.n1

/-- Per-tile registers of the ARRAY block at offset `o` (R47, R48). -/
def shownArrayTile (s : State) (i o a : Nat) : Nat :=
  let t : TileIx := Fin.ofNat 192 i
  let st := s.arr.staged.tile t
  let ac := s.arr.active.tile t
  let on := (enNow s).getD i false
  let pair (l : List Nat) (k : Nat) : Nat := l.getD (2 * k) 0 + 65536 * l.getD (2 * k + 1) 0
  if o = 0 then b2n st.en
  else if o = 4 then s.reg a / 4 % 4 * 4 + b2n on + 2 * b2n (standby s i) + 128 * b2n (s.sec.killedTiles.contains t)
  else if 0x10 ≤ o ∧ o < 0x20 then st.ticks.getD ((o - 0x10) / 4) 0
  else if 0x20 ≤ o ∧ o < 0x30 then ac.ticks.getD ((o - 0x20) / 4) 0
  else if 0x30 ≤ o ∧ o < 0x38 then pair st.ag ((o - 0x30) / 4)
  else if 0x38 ≤ o ∧ o < 0x40 then pair ac.ag ((o - 0x38) / 4)
  else if o = 0x3FC then
    i + 256 * (i / 16) + 4096 * (i % 16) + 2 ^ 16 * b2n (decide (i < 16)) + 2 ^ 17 * b2n (decide (176 ≤ i)) +
      2 ^ 18 * b2n (decide (i % 16 = 0)) + 2 ^ 19 * b2n (decide (i % 16 = 15))
  else s.reg a

/-- Array-wide registers (R46, R50, R93). DESIGN CHOICE (log entry 21): RESYNC and SPAN are those of the
frame whose rows were read last since the array started, and 0 before one. -/
def shownArrayWide (s : State) (a : Nat) (t : Time) : Nat :=
  let g := s.arr.staged
  let c := s.arr.active
  let tr (x : Settings) : Nat := treadFor s x (t + 1)
  if a = aARRAY_GEOM then geomWord g
  else if a = aARRAY_GEOM_ACT then geomWord c
  else if aARRAY_EN_ACT 0 ≤ a ∧ a ≤ aARRAY_EN_ACT 5 then bitmap (((enNow s).drop (32 * ((a - aARRAY_EN_ACT 0) / 4))).take 32)
  else if a = aARRAY_PMIN then spanNs (pminOf c (tr c))
  else if a = aARRAY_PMIN_STG then spanNs (pminOf g (tr g))
  else if a = aARRAY_PMIN_SRC then pminSrc c (tr c) + 16 * pminSrc g (tr g)
  else if a = aARRAY_SEQ_CTL then seqCtlWord g
  else if a = aARRAY_SEQ_CTL_ACT then seqCtlWord c
  else if a = aARRAY_PERIOD then g.period
  else if a = aARRAY_PERIOD_ACT then c.period
  else if a = aARRAY_OFFS then offsWord g
  else if a = aARRAY_OFFS_ACT then offsWord c
  else if a = aARRAY_SLICE 0 then sliceWord g 0
  else if a = aARRAY_SLICE 1 then sliceWord g 1
  else if a = aARRAY_LFSR then g.seed + 65536 * s.seq.lfsr
  else if a = aARRAY_SEQ_STAT then
    8 * b2n (pllSafe s 0) + 16 * b2n s.seq.running + 32 * b2n s.seq.armed +
      (match s.seq.cur with
       | some f => 64 * b2n (f.endAt.isNone && decide (f.set.N ≤ f.next) && drainNow s f t) + 128 * b2n f.resync
       | none => 0)
  else if a = aARRAY_FRAME then s.seq.frame
  else if a = aARRAY_COMMIT then actId s + 65536 * (pendSet s).getD 0
  else if a = aARRAY_COMMIT_FRAME then (commitTarget s t).1
  else if a = aARRAY_STG_STAT then
    let bad := stagedFailing s t
    bad.headD 0 + 16 * b2n bad.isEmpty + 256 * b2n (pendSet s).isSome
  else if aARRAY_ELIM 0 ≤ a ∧ a ≤ aARRAY_ELIM 3 then elim g (tr g) ((a - aARRAY_ELIM 0) / 4)
  else if a = aARRAY_SPAN then (match s.seq.cur with | some f => spanNs f.tread | none => 0)
  else if a = aARRAY_GOV_STAT then s.arr.gov.frac + 256 * b2n s.arr.gov.clamped
  else if a = aARRAY_GOV_SRC then s.arr.gov.src
  else s.reg a

def shownArray (s : State) (a : Nat) (t : Time) : Nat :=
  if a < aARRAY_GEOM then shownArrayTile s ((a - 0x01000000) / 0x400) (a % 0x400) a else shownArrayWide s a t

/-! ## TENG -/

def winWord (g : Settings) : Nat := window g % 4096 + 65536 * (localSlots g % 256) + 2 ^ 24 * (spillMask g % 256)

/-- Per-tile registers of the TENG block (R122). -/
def shownTengTile (s : State) (i o a : Nat) : Nat :=
  let t : TileIx := Fin.ofNat 192 i
  let pair (l : List Nat) (k : Nat) : Nat := l.getD (2 * k) 0 + 65536 * l.getD (2 * k + 1) 0
  let norm : List (Nat × Nat) := s.arr.norm.getD i []
  let n := countIf (fun w => decide (defectTile w = i)) s.sec.defects
  let ddc := s.reg (aTENG_TDDC_CNT i)
  if o = 0 then
    s.reg a / 8 % 2 * 8 + s.reg a / 2 % 2 * 2 + 4 * b2n (decide (64 < n)) + b2n (decide (ddc % 65536 = 65535 ∨ ddc / 65536 = 65535))
  else if 0x10 ≤ o ∧ o < 0x18 then pair (s.arr.staged.tile t).dg ((o - 0x10) / 4)
  else if 0x18 ≤ o ∧ o < 0x20 then pair (s.arr.active.tile t).dg ((o - 0x18) / 4)
  else if o = 0x20 then
    unsigned 16 ((s.eng i).offH.getD 0) + 65536 * unsigned 16 ((s.eng i).offL.getD 0)
  else if o = 0x28 then s.arr.engAct.dark.getD i 0
  else if 0x30 ≤ o ∧ o < 0x40 then (norm.getD ((o - 0x30) / 4) (0, 0)).1
  else if o = 0x40 then sumL ((List.range 4).map (fun j => (norm.getD j (0, 0)).2 % 64 * 256 ^ j))
  else if o = 0x64 then min 64 n
  else s.reg a

def shownTeng (s : State) (a : Nat) : Nat :=
  if a < 0x02030000 then shownTengTile s ((a - 0x02000000) / 0x400) (a % 0x400) a
  else if a = aTENG_WIN then winWord s.arr.active
  else if a = aTENG_WIN_STG then winWord s.arr.staged
  else if a = aTENG_TPAT then s.reg a % 8 + 256 * (match s.seq.cur with | some f => f.cfg.pat % 8 | none => 0)
  else s.reg a

/-! ## PIPE and AUX -/

def ViewSt.code : ViewSt → Nat | .free => 0 | .created => 1 | .running => 2 | .paused => 3

def shownPipe (s : State) (a : Nat) : Nat :=
  if a = aPIPE_STAT then ctxFree s + 256 * (lmemFree s / 1024) + 2 ^ 24 * min 255 (admitLoad s)
  else if aPIPE_VSTAT 0 ≤ a ∧ a < aPIPE_VSTAT 16 ∧ a % 0x20 = 0 then
    let w := s.view ((a - aPIPE_VSTAT 0) / 0x20)
    if w.st = .free then 0
    else w.st.code + 16 * w.owner.val + 64 * (w.p.order % 2) + 256 * (w.ctx % 4) + 2 ^ 24 * (w.p.format % 256)
  else s.reg a

def shownAux (s : State) (a : Nat) : Nat :=
  let n := (a - 0x04000000) / 0x10000
  let o := a % 0x10000
  let i := s.auxIn n
  let c := s.auxVc n ((o - 0x100) / 0x20)
  if o = 0x20 then i.st.code + 16 * (i.losLane % 16) + 256 * bitmap (i.vcs.map AuxVc.late)
  else if 0x100 ≤ o ∧ o % 0x20 = 0x0C then c.count
  else if 0x100 ≤ o ∧ o % 0x20 = 0x10 then 256 * (c.lastFlags % 256) + 65536 * (c.lastLines % 65536)
  else s.reg a

/-! ## MEMC -/

/-- Words of a bank-queue entry, in order of arrival (R215, R503). -/
def queueEntry (s : State) (q e : Nat) (t : Time) : Nat × Nat :=
  match ((memEntries s.mem).filter (fun x => decide (x.q = q)))[e]? with
  | none => (0, 0)
  | some x =>
    let part := match x.op with | .write m _ => decide (m ≠ fullMask) | .read => false
    (min (2 ^ 18 - 1) ((t - x.at_) / us) + 2 ^ 18 * (x.inst % 256) + 2 ^ 26 * x.cls + 2 ^ 29 * b2n part + 2 ^ 30 * b2n x.op.isWrite + 2 ^ 31,
     x.d % 2 ^ 28)

/-- The delay table that `MEMC_DLY_SEL` shows: that in use from the delay registers themselves. -/
def shownTable (s : State) : List Delay :=
  (s.mem.tables.getD (s.fld aMEMC_DLY_SEL 1 0) DelayTable.blank).codes

/-- Index in a delay table of a delay register: lanes 0 to 11 of a sub-channel, then CA and CS. Lanes 12 to 15 are not listed. -/
def delayIx (a : Nat) : Nat × Nat :=
  let o := a - aMEMC_DLY_DQ 0 0
  let l := o % 0x100 / 4
  (o / 0x100, if l = 16 then 12 else l)

def shownMemc (s : State) (a : Nat) (t : Time) : Nat :=
  let m := s.mem
  if a = aMEMC_CTL then s.reg a % 16 + 16 * m.map + 64 * s.fld a 7 6
  else if a = aMEMC_STAT then
    m.st.code + 16 * m.bin + 256 * b2n (decide (m.st = .train)) + 512 * b2n (decide (0 < dirtyLines m)) +
      1024 * (if m.refmul = 1 then 0 else if m.refmul = 2 then 1 else 2) + 4096 * m.cap + 2 ^ 16 * bitmap (m.tables.map (fun d => d.valid))
  else if a = aMEMC_TRN then s.reg a % 256 + 65536 * unsigned 8 (wholeC m.lastT)
  else if aMEMC_TOK 0 ≤ a ∧ a ≤ aMEMC_TOK 5 then
    let c := (a - aMEMC_TOK 0) / 4
    tokensOf m c t + 65536 * quota c
  else if a = aMEMC_QDATA0 then (queueEntry s (s.fld aMEMC_QSEL 15 8) (s.fld aMEMC_QSEL 3 0) t).1
  else if a = aMEMC_QDATA1 then (queueEntry s (s.fld aMEMC_QSEL 15 8) (s.fld aMEMC_QSEL 3 0) t).2
  else if aMEMC_DLY_DQ 0 0 ≤ a then
    let x := delayIx a
    let d := (shownTable s).getD (13 * x.1 + x.2) (0, 0)
    d.2 % 128 + 256 * (d.1 % 128)
  else s.reg a

/-! ## LINK -/

def linkMapWord (q : Port) : Nat :=
  sumL ((List.range 4).map (fun k => q.phy.map.getD k k * 4 ^ k)) + 256 * bitmap q.phy.inv + 4096 * b2n q.phy.upInv

/-- Logical lane that drives a physical lane. -/
def logicalOf (q : Port) (l : Nat) : Nat := ((List.range 4).find? (fun k => decide (q.phy.map.getD k k = l))).getD l

def shownLink (s : State) (a : Nat) : Nat :=
  let p := portIx ((a - 0x06000000) / 0x10000)
  let o := a % 0x10000
  let q := s.port p
  if o = 0xF004 then
    256 * (q.tr.fails % 256) + 2 ^ 16 * q.tr.fall + 2 ^ 18 * dnCap s p + 2 ^ 20 * b2n (decide (q.tr.pass = 1)) + 2 ^ 21 * b2n q.phy.lol +
      2 ^ 22 * b2n q.phy.los + 2 ^ 23 * b2n q.tr.preUp + 2 ^ 24 * b2n q.tr.preDn + 2 ^ 25 * q.tr.upRate + 2 ^ 26 * q.tr.dnRate +
      2 ^ 28 * q.tr.st.code
  else if o = 0xF008 then linkMapWord q
  else if o = 0xF00C then s.reg a % 65536 + 2 ^ 24 * (q.tr.reason % 16) + 2 ^ 28 * (q.tr.failState % 16)
  else if o = 0xF014 then s.reg a % 2 ^ 31 + 2 ^ 31 * b2n q.test.run
  else if o = 0xF018 then s.reg a % 2 ^ 31 + 2 ^ 31 * b2n q.phy.chkSync
  else if o = 0xF040 then unsigned 64 q.lt.theta % 2 ^ 32
  else if o = 0xF044 then unsigned 64 q.lt.theta / 2 ^ 32
  else if o = 0xF048 then min (2 ^ 31 - 1) q.lt.rtt.toNat + 2 ^ 31 * b2n q.lt.valid
  else if 0xF050 ≤ o ∧ o < 0xF090 then
    let v := (o - 0xF050) / 4
    2 ^ 16 * (credit q.cr v % 8192) + 256 * ((q.cr.allow.getD v 64 / 64 - 1) % 64)
  else if o = 0x5000 then
    q.phy.ctle % 16 + 256 * (q.phy.eye % 256) + 65536 * (q.phy.phase % 256) + 2 ^ 24 * (maxL q.phy.delay % 64)
  else if o = 0x5004 then
    unsigned 7 (q.phy.dfe.getD 0 0) + 256 * unsigned 6 (q.phy.dfe.getD 1 0) + 65536 * unsigned 6 (q.phy.dfe.getD 2 0) +
      2 ^ 24 * unsigned 6 (q.phy.dfe.getD 3 0)
  else if o = 0x5008 then unsigned 6 (q.phy.dfe.getD 4 0)
  else if o = 0x6000 then unsigned 16 q.phy.freqPpm
  else if o < 0x4000 ∧ o % 0x1000 = 0 then
    let k := logicalOf q (o / 0x1000)
    let pre := q.phy.ffePre.getD k 0
    let post := q.phy.ffePost.getD k 0
    unsigned 8 (-(pre : Int)) + 256 * unsigned 8 (-(post : Int)) + 65536 * (32 - pre - post) + 2 ^ 24 * b2n (q.phy.ffeLimit.getD k false) +
      2 ^ 28 * (q.phy.ffePreset.getD k 0 % 16)
  else s.reg a

/-! ## PCLK -/

def PllSt.code : PllSt → Nat | .off => 0 | .safe => 1 | .band => 2 | .acquire => 3 | .locked => 4 | .fail => 5

/-- Domains that are clocked (R382, R386, R404). DEDUCED from the units that run. -/
def clockedDomains (s : State) : List Bool :=
  let up := !s.pw.refLost && decide (s.pw.st = .standby ∨ s.pw.st = .active)
  let act := up && decide (s.pw.st = .active)
  let mem := up && !decide (s.mem.st = .off ∨ s.mem.st = .unavail ∨ s.mem.st = .retain)
  [act, act, act, up, mem, mem] ++ allPorts.map (fun p => up && !decide ((s.port p).tr.st = .quiet)) ++
    (List.range 4).map (fun n => act && !decide ((s.auxIn n).st = .off))

/-- PLL that feeds a domain, none for the byte clocks of the aux inputs. -/
def domainPll (k : Nat) : Option Nat := if k < 2 then some 0 else if k < 4 then some 1 else if k < 6 then some 2 else if k < 10 then some 3 else none

/-- The last step of R401 completed: step 8 once frame memory has left the sweep or check of the boot; Dawn's boot and one with REF unknown skip it. -/
def bootStepNow (s : State) : Nat :=
  let waits := decide (s.mem.st = .init ∨ s.mem.st = .off ∨ s.pw.bootKind = .dawn) || (decide (s.mem.st = .train ∨ s.mem.st = .change) && decide (s.mem.prior = .init))
  if s.pw.st = .boot then min 6 s.pw.bootStep else if s.pw.bootStep = 7 && !waits then 8 else s.pw.bootStep

def shownPll (s : State) (n o a : Nat) : Nat :=
  let p := s.pll n
  if o = 0 then p.tries % 4 + s.reg a / 256 % 256 * 256 + 2 ^ 25 * (p.entry % 16) + 2 ^ 29 * p.st.code
  else if o = 4 then pllKhz s n / 1000
  else s.reg a

def shownPclk (s : State) (a : Nat) : Nat :=
  let w := s.pw
  if a = aPCLK_STAT then
    2 * b2n w.vcoreGood + 4 * b2n w.vmidGood + 8 * b2n w.vioGood + 16 * w.refSrc + 64 * b2n w.lfxtalOk + 128 * b2n w.refUnknown +
      256 * bitmap (w.plls.map (fun p => decide (p.st = .locked))) + 4096 * bitmap (w.plls.map (fun p => decide (p.st = .fail)))
  else if a = aPCLK_REF then w.refMeas % 65536 + 65536 * (w.refKhz % 65536)
  else if a = aPCLK_RST_CAUSE then w.cause % 256 + 256 * (w.prevCause % 256)
  else if a = aPCLK_STRAP then
    sumL ((List.range 4).map (fun k => w.strapLevels.getD k 0 * 4 ^ k)) + 256 * w.devid + 65536 * w.profStrap + 2 ^ 20 * w.profEff +
      2 ^ 24 * bitmap w.strapOpen
  else if a = aPCLK_BOOT then
    bootStepNow s + 16 * s.sec.fwSrc + 64 * b2n w.ovr + 128 * b2n w.bootLoop + 65536 * (w.bootTime % 65536)
  else if a = aPCLK_GATE then
    let run := clockedDomains s
    let safe := run.zipIdx.map (fun x => x.1 && (if 6 ≤ x.2 ∧ x.2 < 10 then linkSafe s (Fin.ofNat 4 (x.2 - 6))
      else match domainPll x.2 with | some n => pllSafe s n | none => false))
    bitmap run + 65536 * bitmap safe
  else if aPCLK_PLL_STAT 0 ≤ a ∧ a < aPCLK_PLL_STAT 4 then shownPll s ((a - aPCLK_PLL_STAT 0) / 0x20) (a % 0x20) a
  else if a = aPLL_BAND_TBL then
    let e := (s.pll (s.fld aPLL_BAND_SEL 5 4)).bands.getD (s.fld aPLL_BAND_SEL 3 0) (0, 0, 0)
    e.2.2 % 64 + 64 * (e.1 % 8192) + 2 ^ 19 * (e.2.1 % 8192)
  else s.reg a

/-! ## THERM -/

def shownTherm (s : State) (a : Nat) (t : Time) : Nat :=
  let h := s.th
  if a = aTHERM_STAT then
    bitmap (h.sensors.map Sensor.failed) + 2 ^ 16 * (hottest s).1 + 2 ^ 25 * b2n s.sec.untrusted + 2 ^ 26 * b2n h.squall +
      2 ^ 27 * b2n h.fast + 2 ^ 28 * h.step + 2 ^ 30 * thermLevel s
  else if a = aTHERM_MAX then unsigned 16 (hottest s).2 + 65536 * unsigned 16 (topRate s)
  else if a = aTHERM_GRACE then graceMs s t
  else if a = aTHERM_LOG then logUsed s % 64 + 256 * min 255 h.dropped
  else if aTHERM_TS 0 ≤ a ∧ a ≤ aTHERM_TS 15 then
    let x := h.sensors.getD ((a - aTHERM_TS 0) / 4) Sensor.reset
    shownTemp x + 2 ^ 31 * b2n x.failed
  else if aTHERM_BAND 0 ≤ a ∧ a ≤ aTHERM_BAND 11 then h.band.getD ((a - aTHERM_BAND 0) / 4) 0x100
  else s.reg a

/-! ## TMR and PIO -/

/-- Registers of a timer channel, but for those whose read acts (R431, R432). -/
def shownTmr (s : State) (a : Nat) : Nat :=
  let n := (a - 0x09000000) / 0x100
  let o := a % 0x100
  let c := s.tmr n
  if o = 0 then s.reg a % 32 + s.reg a / 64 % 2 ^ 18 * 64 + 32 * b2n c.out + 2 ^ 30 * b2n c.down + 2 ^ 31 * b2n c.run
  else if o = 0x28 then
    c.edges % 256 + 2 ^ 28 * b2n (c.shPer.isSome || c.shM0.isSome || c.shM1.isSome) + 2 ^ 29 * b2n c.rdRun + 2 ^ 30 * b2n c.overcap +
      2 ^ 31 * b2n c.fresh
  else if o = 0x38 then c.capCopy / 2 ^ 32
  else s.reg a

def PeSt.code : PeSt → Nat | .stopped => 0 | .running => 1 | .stalled => 2 | .halted => 3

/-- Levels of 32 pins: driven pins at their level, the others as the board holds them, a free value. -/
def pinLevels (s : State) (k : Nat) (board : Nat) : Nat :=
  bitmap ((List.range 32).map (fun j => (pinDriven s (32 * k + j)).getD (bit board j)))

def shownPio (s : State) (a : Nat) : Nat :=
  if a < aPIO_PINCFG 0 then
    let e := (a - 0x0A000000) / 0x1000
    let o := a % 0x1000
    let p := s.pe e
    if o = 0x800 then
      s.reg a % 2 + 256 * p.stack.length + 1024 * p.tc + 2 ^ 16 * p.rc + 2 ^ 22 * (p.pc % 64) + 2 ^ 28 * p.fault + 2 ^ 30 * p.st.code
    else if o = 0x818 then p.buf.length % 512 + 2 ^ 16 * p.rxq.length + 2 ^ 24 * p.txq.length
    else if o = 0x820 then p.keepW0.toNat
    else if o = 0x824 then p.keepW1.toNat
    else if o = 0x828 then p.keepTx.toNat
    else if o = 0x82C then p.keepRx.toNat
    else s.reg a
  else if a = aPIO_OVR 0 then s.pio.ovr % 2 ^ 32
  else if a = aPIO_OVR 1 then s.pio.ovr / 2 ^ 32
  else s.reg a

/-! ## OTPC, HOLD and DIAG -/

def shownOtpc (s : State) (a : Nat) : Nat :=
  if a = aOTPC_STAT then
    s.sec.life.code + 16 * s.sec.lcNext.code + 1024 * b2n s.sec.untrusted + 2048 * b2n s.sec.pufOk + 4096 * b2n (killedNow s) +
      8192 * b2n s.sec.lockStands + 16384 * b2n (!s.otp.jobs.isEmpty) + 32768 * b2n (openLife s)
  else if a = aOTPC_READCNT then
    min 255 s.otp.badLog + 256 * min 255 s.otp.incomplete + 65536 * min 255 s.otp.readCorr + 2 ^ 24 * min 255 s.otp.readSubst
  else if a = aOTPC_LIMITS then
    sumL ((List.range 4).map (fun k => keyUsed s k * 16 ^ k)) + 2 ^ 16 * polUsed s 0 + 2 ^ 19 * polUsed s 1 + 2 ^ 22 * (s.sec.rollback % 128)
  else if a = aOTPC_ALARM then s.sec.alarmPol % 2 ^ 17
  else if a = aOTPC_ALARM_LATCH then s.sec.fired % 128 + 256 * (s.sec.authFails % 32) + 2 ^ 31 * b2n s.sec.latchBuoy
  else if a = aOTPC_PROG then s.otp.lastAddr % 2 ^ 14 + 2 ^ 28 * s.otp.progStatus
  else if aOTPC_REG 0 ≤ a ∧ a ≤ aOTPC_REG 8 then
    match s.otp.regions[(a - aOTPC_REG 0) / 4]? with
    | some g => b2n g.locked + 2 * b2n g.crcProg + 4 * b2n g.crcOk + 64 * b2n g.copyB + 128 * b2n g.failed + 256 * min 255 (OtpRegion.subst g)
    | none => 0
  else s.reg a

def shownHold (s : State) (a : Nat) : Nat :=
  let h := s.hold
  if a = aHOLD_NTC then unsigned 16 h.temp + 65536 * s.fld a 31 16
  else if a = aHOLD_STAT then
    h.phase.code + 16 * h.srcClass + 256 * (h.faults.headD 0 % 16) + 4096 * b2n h.ready + 8192 * b2n (decide (h.zone = 3)) +
      16384 * b2n (decide (0 < h.steps)) + 32768 * b2n (decide (h.zone = 1))
  else if a = aHOLD_VOLT then h.ocv % 65536 + 65536 * (if h.phase = .off then 0 else effTarget s)
  else if a = aHOLD_CUR then h.iIn % 65536 + 65536 * ilimEff s
  else if a = aHOLD_HEALTH then h.esr % 65536 + 65536 * (capEst h % 65536)
  else if a = aHOLD_Q then h.q % 2 ^ 32
  else if a = aHOLD_BUOY then min (2 ^ 32 - 1) h.buoyMs
  else if a = aHOLD_SRC_R then h.srcR % 65536
  else if a = aHOLD_DUSK then min 65535 h.duskUj + 65536 * min 65535 h.duskUs
  else s.reg a

def shownDiag (s : State) (a : Nat) (t : Time) : Nat :=
  if a = aDIAG_STAT then
    b2n (alarmLow s) + 256 * countIf FaultEntry.holds s.log.entries + 65536 * countIf FaultEntry.stands s.log.entries
  else if a = aDIAG_BIST then s.reg a % 2 ^ 27 / 8 * 8 + 2 ^ 31 * b2n (decide (s.diag.run ≠ 0))
  else if aDIAG_MEMQ 0 ≤ a then
    let k := (a - aDIAG_MEMQ 0) / 8
    let w := queueEntry s (k / 12) (k % 12) t
    if a % 8 = 0 then w.1 else w.2
  else s.reg a

/-! ## One read -/

/-- What a listed register shows, where its read has no effect of its own. -/
def shown (s : State) (a : Nat) (t : Time) : Nat :=
  match blockOf a with
  | some .sys => shownSys s a t
  | some .array => shownArray s a t
  | some .teng => shownTeng s a
  | some .pipe => shownPipe s a
  | some .aux => shownAux s a
  | some .memc => shownMemc s a t
  | some .link => shownLink s a
  | some .pclk => shownPclk s a
  | some .therm => shownTherm s a t
  | some .tmr => shownTmr s a
  | some .pio => shownPio s a
  | some .otpc => shownOtpc s a
  | some .hold => shownHold s a
  | some .diag => shownDiag s a t
  | some .sec | none => 0

/-- A read of a listed register: its value, and the state after what the read itself does. `WDT.REMAIN` and the levels of pins that the
device does not drive are free values. -/
def readOne (s : State) (a : Nat) (t : Time) : Nat × State :=
  if a = aPCLK_WDT then
    let per := s.fld a 31 16
    let (v, s) := drawFree s
    (v.toNat % (per + 1) + 65536 * per, s)
  else if a = aPIO_IN 0 ∨ a = aPIO_IN 1 then
    let (v, s) := drawFree s
    (pinLevels s ((a - aPIO_IN 0) / 4) v.toNat, s)
  else if a = aPCLK_SRAM then
    let (v, s) := drawFree s
    let s := s.bump aPCLK_SRAM 15 0 v.toNat
    (shown s a t, s)
  else if blockOf a = some .tmr ∧ a % 0x100 = 0x2C then readCount s ((a - 0x09000000) / 0x100) false
  else if blockOf a = some .tmr ∧ a % 0x100 = 0x30 then readCount s ((a - 0x09000000) / 0x100) true
  else if blockOf a = some .tmr ∧ a % 0x100 = 0x34 then readCapLo s ((a - 0x09000000) / 0x100) t
  else (shown s a t, s)

/-- The RC fields of a register clear to their reset values (R9). -/
def clearRc (s : State) (a : Nat) (r : RegDef) : State :=
  if blockOf a = some .tmr then s.modTmr ((a - 0x09000000) / 0x100) (fun c => { c with overcap := false, rdRun := false })
  else if a = aPIO_OVR 0 then { s with pio := { s.pio with ovr := s.pio.ovr / 2 ^ 32 * 2 ^ 32 } }
  else if a = aPIO_OVR 1 then { s with pio := { s.pio with ovr := s.pio.ovr % 2 ^ 32 } }
  else r.flds.foldl (fun s f => if f.acc = .rc then s.setFld a f.hi f.lo f.reset else s) s

/-! ## Leases of R357 -/

def isSafety (s : State) (src : Src) : Bool := match src with | .port p => decide (portRole s p = .safety) | .sideband => false

/-- A caller holds the lease that bits `mask` of a register need, for a write of RWL fields or a clearing read. The blocks without a lease need the
SAFETY role. -/
def regLease (s : State) (c : Call) (a mask : Nat) : Bool :=
  let has (b : Nat) : Bool := holds s c.src b c.stamp
  let n := a % 0x1000000
  match blockOf a with
  | some .array | some .teng | some .memc => has lARRAY
  | some .pipe =>
    if a = aPIPE_CTL then
      (!bit mask 0 || has lARRAY) && (List.range 4).all (fun k => !bit mask (k + 1) || has (lAX k))
    else if aPIPE_LSC_X0 0 0 ≤ a then has (lAX ((a - aPIPE_LSC_X0 0 0) / 0x1000))
    else has lARRAY
  | some .aux => has (lAX (n / 0x10000))
  | some .tmr => has (lTMR (n / 0x100))
  | some .pio =>
    if a < aPIO_PINCFG 0 then has (lPE (n / 0x1000))
    else if a < aPIO_IN 0 then has (lPE ((a - aPIO_PINCFG 0) % 0x40 / 8))
    else (List.range 4).all (fun k => has (lPE (4 * ((a - aPIO_IN 0) / 4 % 2) + k)))
  | some .hold | some .therm => has lARRAY || isSafety s c.src
  | some .link => decide (c.src = .port (portIx (n / 0x10000))) || isSafety s c.src
  | some .sys | some .pclk | some .otpc | some .diag | some .sec | none => isSafety s c.src

/-- A read without PEEK clears the RC fields of a register (R355). -/
def clears (s : State) (c : Call) (a : Nat) : Bool :=
  if s.sec.life = .provisioned ∨ s.sec.life = .field then isSafety s c.src || regLease s c a (2 ^ 32 - 1) else true

/-! ## READ_REG -/

/-- Read consecutive addresses: the values, whether an RC field was left uncleared, and the state after. -/
def readRun (c : Call) (peek : Bool) : List Nat → State → List Nat × Bool × State
  | [], s => ([], false, s)
  | a :: r, s =>
    match regAt a with
    | none =>
      let x := readRun c peek r s
      (0 :: x.1, x.2.1, x.2.2)
    | some d =>
      let rc := d.flds.any (fun f => decide (f.acc = .rc))
      let clr := rc && !peek && clears s c a
      let y := readOne s a c.start
      let x := readRun c peek r (if clr then clearRc y.2 a d else y.2)
      (y.1 :: x.1, x.2.1 || (rc && !clr), x.2.2)

/-- `READ_REG` (R355). -/
def execReadReg (c : Call) (s : State) : Out :=
  let pl := c.payload
  let n := u8 pl 4
  let as_ := (List.range (min n 11)).map (fun k => u32 pl 0 + 4 * k)
  let sec := as_.any (fun a => decide (blockOf a = some .sec))
  commandWith s c 0x0010 .fast (fun _ => [lenIs c 8, need (!sec) .denied, argZero c,
      argOk (decide (u32 pl 0 % 4 = 0) && as_.all (fun a => (blockOf a).isSome)) 0, argOk (decide (1 ≤ n ∧ n ≤ 11)) 4,
      reservedBits pl 5 0xFE, reserved pl 6 2])
    (fun r => if r.status = .denied ∧ c.src ≠ .sideband then slice pl 0 4 ++ zeros 4 ++ zeros (4 * as_.length) else [])
    (fun s =>
      let x := readRun c (bit (u8 pl 5) 0) as_ s
      okWith x.2.2 c 0x0010 .fast (slice pl 0 4 ++ [byte (b2n x.2.1), 0, 0, 0] ++ x.1.flatMap (leBytes 4)))

end Sys2Proof.Machine
end

