-- ==== Sys2Proof/Machine/RegWrite.lean ====
section
/-! DEFINITION. WRITE_REG: its checks, the ranges of every writable register, and what each write does (R37, R39, R41, R48, R50, R79, R93,
R121, R122, R158, R176, R177, R179, R206, R215, R249, R252, R289, R328, R356, R357, R392, R404, R408, R422, R427, R441, R453, R500 to R502,
R505). -/

namespace Sys2Proof.Machine

/-- Bits of a register that a write can change. -/
def writable (r : RegDef) : Nat := fldsMask (fun f => decide (f.acc = .rw ∨ f.acc = .rwl ∨ f.acc = .wo)) r.flds

/-- The register's value once a write has changed the bits that its mask names (R356). -/
def merged (s : State) (a : Nat) (r : RegDef) (value mask : Nat) (t : Time) : Nat :=
  let w := writable r
  let m := Nat.land mask w
  Nat.lor (Nat.land (shown s a t) (w - m)) (Nat.land value m)

/-! ## Ranges -/

/-- A range is broken: `BAD_ARG`. -/
def inRange (ok : Bool) : Option Reject := need ok .badArg

/-- A staged exposure or gain field of a tile that the governor holds is touched (R79). -/
def ungoverned (s : State) (i : Nat) : Option Reject := need (!governed s i) .badState

/-- Ranges of the staged set (R37, R39, R41, R48, R93, R122). -/
def arrayRange (s : State) (a v : Nat) : List (Option Reject) :=
  if a < aARRAY_GEOM then
    let i := (a - 0x01000000) / 0x400
    let o := a % 0x400
    if o = 0 then
      let en := s.arr.staged.tiles.map TileSet.en
      [inRange (v % 2 = 1 || allTiles.any (fun t => decide (t.val ≠ i) && en.getD t.val false && !s.sec.killedTiles.contains t))]
    else if 0x10 ≤ o ∧ o < 0x20 then [inRange (decide (1 ≤ v)), ungoverned s i]
    else if 0x30 ≤ o ∧ o < 0x38 then
      [inRange (decide (16 ≤ bits v 8 0 ∧ bits v 8 0 ≤ 256 ∧ 16 ≤ bits v 24 16 ∧ bits v 24 16 ≤ 256)), ungoverned s i]
    else []
  else if a = aARRAY_GEOM then (windowOk (bit v 28) (bits v 8 0) (bits v 25 16) 0).map (fun r => inRange r.isNone)
  else if a = aARRAY_SEQ_CTL then [inRange (decide (1 ≤ bits v 2 0 ∧ bits v 2 0 ≤ 5 ∧ bits v 10 8 ≤ 3))]
  else if a = aARRAY_PERIOD then [inRange (decide (41667 ≤ v))]
  else if a = aARRAY_SLICE 0 ∨ a = aARRAY_SLICE 1 then
    let n := bits v 27 24
    let w := bits v 17 0
    [inRange (decide (1 ≤ n ∧ n ≤ 8 ∧ w ≤ 160000) && (decide (n ≤ 1) || decide (2 ≤ w)))]
  else if a = aARRAY_LFSR then [inRange (decide (v % 65536 ≠ 0))]
  else []

/-- Ranges of the tile engines (R121, R122). -/
def tengRange (s : State) (a v : Nat) : List (Option Reject) :=
  if a < 0x02030000 then
    let i := (a - 0x02000000) / 0x400
    let o := a % 0x400
    if 0x10 ≤ o ∧ o < 0x18 then [inRange (decide (1024 ≤ bits v 13 0 ∧ 1024 ≤ bits v 29 16)), ungoverned s i]
    else if o = 0x2C then [inRange (decide (0x800 ≤ v ∧ v ≤ 0x4000))]
    else []
  else if a = aTENG_CTL then [inRange (decide (4 ≤ bits v 11 8 ∧ bits v 11 8 ≤ 8))]
  else if a = aTENG_REF then [inRange (decide (1 ≤ v))]
  else if a = aTENG_DCG_KNEE then [inRange (decide (4 ≤ bits v 3 0 ∧ bits v 3 0 ≤ 11 ∧ bits v 27 16 + 2 ^ bits v 3 0 ≤ 4078))]
  else if a = aTENG_MRG_KNEE_L then [inRange (decide (4 ≤ bits v 4 0 ∧ bits v 4 0 ≤ 16 ∧ bits v 24 8 + 2 ^ bits v 4 0 ≤ 4078))]
  else if a = aTENG_MRG_KNEE_D then [inRange (decide (4 ≤ bits v 4 0 ∧ bits v 4 0 ≤ 16 ∧ bits v 24 8 + 2 ^ bits v 4 0 ≤ 81900))]
  else if a = aTENG_TPAT then [inRange (decide (v % 8 ≤ 4))]
  else []

/-- A grid register of a bank in use is not written (R158). DEDUCED: a bank is in use while its bit names it, and while frames still read it. -/
def pipeRange (s : State) (a : Nat) : List (Option Reject) :=
  if a < aPIPE_LSC_A 0 0 then []
  else if a < aPIPE_LSC_X0 0 0 then
    let b := (a - aPIPE_LSC_A 0 0) / 0x2000
    [need (!(decide (s.fld aPIPE_CTL 0 0 = b) || (s.seq.running && decide (s.arr.lscAct = b)) ||
      s.pipe.frames.any (fun f => decide (f.p.source = 0 ∧ f.lsc = b)))) .badState]
  else
    let n := (a - aPIPE_LSC_X0 0 0) / 0x1000
    let b := a % 0x1000 / 0x800
    [need (!(decide (bits (s.reg aPIPE_CTL) (n + 1) (n + 1) = b) || (decide ((s.auxIn n).st ≠ .off) && decide ((s.auxIn n).bank = b)) ||
      s.pipe.frames.any (fun f => decide (f.p.source = n + 1 ∧ f.lsc = b)))) .badState]

/-- The registers of a stream as R176 allows them: a disabled stream's fields may be 0. -/
def streamOk (cfg geom time : Nat) : Bool :=
  let dt := bits cfg 7 0
  let by_ := bits cfg 9 8
  let rng (x lo hi : Nat) (even : Bool) : Bool :=
    (decide (lo ≤ x ∧ x ≤ hi) && (!even || decide (x % 2 = 0))) || (decide (dt = 0) && decide (x = 0))
  (decide (dt = 0) || dtKnown dt) && (dtRaw dt || decide (dt = 0) || decide (by_ = 0)) && rng (bits geom 15 0) 16 8192 true &&
    rng (bits geom 31 16) 2 8192 true && rng (bits time 15 0) 100 65535 false && rng (bits time 31 16) 10 65535 false

/-- Ranges of an aux input, and its hard fields while a view uses it (R176, R177, R179). -/
def auxRange (s : State) (a v : Nat) : List (Option Reject) :=
  let n := (a - 0x04000000) / 0x10000
  let o := a % 0x10000
  let k := (o - 0x100) / 0x20
  let g (x : Nat) : Nat := if x = a then v else s.reg x
  let ctl := g (aAUX_CTL n)
  let ok :=
    if o = 0 then decide (bits ctl 2 1 ≤ 2 ∧ 80 ≤ bits ctl 28 16 ∧ bits ctl 28 16 ≤ 4500) && mapOk (bits (g (aAUX_LANE n)) 7 0) (2 ^ bits ctl 2 1)
    else if o = 4 then mapOk (bits v 7 0) (2 ^ bits ctl 2 1)
    else if 0x100 ≤ o then streamOk (g (aAUX_VC_CFG n k)) (g (aAUX_VC_GEOM n k)) (g (aAUX_VC_TIME n k))
    else true
  [inRange ok, need (!(auxHardChange s n [(a, v)] && auxInUse s n)) .badState]

/-- Ranges of the memory controller, which answers with `BAD_STATE` (R215). -/
def memcRange (s : State) (a v : Nat) : List (Option Reject) :=
  let ok :=
    if a = aMEMC_CTL then decide (bits v 7 6 ≠ 3)
    else if a = aMEMC_BIN then decide (bits v 1 0 ≠ 3)
    else if a = aMEMC_ARB then decide (1 ≤ bits v 11 0 ∧ 2 ≤ bits v 23 16 ∧ bits v 23 16 ≤ 64 ∧ 1 ≤ bits v 31 24 ∧ bits v 31 24 < bits v 23 16)
    else if a = aMEMC_PD then decide (16 ≤ v)
    else if a = aMEMC_RH then decide (500 ≤ v ∧ v ≤ 8000)
    else if a = aMEMC_TRN then decide (5 ≤ bits v 7 0 ∧ bits v 7 0 ≤ 100)
    else if a = aMEMC_QSEL then decide (bits v 3 0 ≤ 11)
    else if a = aMEMC_DLY_SEL then decide (bits v 1 0 ≠ 3)
    else if aMEMC_DLY_DQ 0 0 ≤ a then !(decide (s.fld aMEMC_DLY_SEL 1 0 = s.mem.bin) && decide (s.mem.st = .run))
    else true
  [need ok .badState]

/-- Ranges of a port's registers (R284, R288, R289, R328). -/
def linkRange (a v : Nat) : List (Option Reject) :=
  let o := a % 0x10000
  if o = 0xF014 then [inRange (decide (10 ≤ bits v 23 19 ∧ bits v 23 19 ≤ 30 ∧ bits v 18 17 ≤ 2))]
  else if o = 0xF034 then [inRange (decide (2 ≤ v))]
  else if o = 0xF038 then [inRange (decide (100 ≤ v ∧ v ≤ 60000))]
  else []

/-- Ranges of the clock registers (R404). -/
def pclkRange (a v : Nat) : List (Option Reject) :=
  if a = aPCLK_WDT then [inRange (decide (10 ≤ bits v 31 16 ∧ bits v 31 16 ≤ 1000))]
  else if aPCLK_PLL_LOCK 0 ≤ a ∧ a ≤ aPCLK_PLL_LOCK 3 then
    [inRange (decide (64 ≤ bits v 28 16 ∧ bits v 28 16 ≤ 4096 ∧ 1 ≤ bits v 15 8 ∧ 1 ≤ bits v 6 0 ∧ bits v 6 0 ≤ 64))]
  else []

/-- Ranges of the thermal settings (R408, R422), through the payload that would set them. -/
def thermRange (s : State) (a v : Nat) : List (Option Reject) :=
  let t0 := if a = aTHERM_THR0 then v else s.reg aTHERM_THR0
  let t1 := if a = aTHERM_THR1 then v else s.reg aTHERM_THR1
  (thermArgs (leBytes 4 t0 ++ [byte (bits t1 3 0), byte (bits t1 15 8)] ++ leBytes 2 (bits t1 31 16) ++ zeros 4)).map (fun r => inRange r.isNone)

/-- Ranges of a timer channel, and the fields that a running one keeps (R445, R453). -/
def tmrRange (s : State) (a v : Nat) : List (Option Reject) :=
  let n := (a - 0x09000000) / 0x100
  let o := a % 0x100
  let still (mask : Nat) : Option Reject :=
    need (!(s.tmr n).run || decide (Nat.lor v mask = Nat.lor (s.reg a) mask)) .badState
  if o = 0 then [inRange (decide (bits v 17 15 ≤ 5 ∧ bits v 19 18 ≤ 2)), still tmrSoftCtl]
  else if o = 4 then [inRange (decide (1 ≤ bits v 31 16)), still 0]
  else if o = 8 then [inRange (decide (1 ≤ v ∨ 1 ≤ s.reg (aTMR_PER_HI n)))]
  else if o = 0xC then [inRange (decide (1 ≤ v ∨ 1 ≤ s.reg (aTMR_PER_LO n)))]
  else if o = 0x20 then [inRange (actOk v)]
  else if o = 0x24 then [inRange (decide ((bits v 31 24 < 64 ∨ bits v 31 24 = 0xFF) ∧ 1 ≤ bits v 11 8 ∧ bits v 1 0 ≤ 2))]
  else []

/-- `CFG` and `ARG` bytes of the four pins of a register pair. -/
def pinPairs (cfg arg : Nat) : List (Nat × Nat) := (List.range 4).map (fun j => (bits cfg (8 * j + 7) (8 * j), bits arg (8 * j + 7) (8 * j)))

/-- Ranges of an engine and of the pins, and what changes only while STOPPED (R441, R442, R453). -/
def pioRange (s : State) (a v : Nat) : List (Option Reject) :=
  if a < aPIO_PINCFG 0 then
    let e := (a - 0x0A000000) / 0x1000
    let o := a % 0x1000
    let stop : Option Reject := need (peStopped s e) .badState
    if o < 0x100 then [stop]
    else if o = 0x804 then [inRange (decide (1 ≤ bits v 31 16)), stop]
    else if o = 0x808 then [inRange (decide (v ≤ 32)), stop]
    else if o = 0x80C ∨ o = 0x810 then [stop]
    else if o = 0x814 then [inRange (decide (1 ≤ bits v 31 16 ∧ 1 ≤ bits v 8 0 ∧ bits v 8 0 ≤ 256))]
    else []
  else
    let k := (a - aPIO_PINCFG 0) / 4 % 16
    let cfg := if a = aPIO_PINCFG k then v else s.reg (aPIO_PINCFG k)
    let arg := if a = aPIO_PINARG k then v else s.reg (aPIO_PINARG k)
    [inRange ((pinPairs cfg arg).all (fun x => decide (bits x.1 5 4 ≠ 3) && pinArgOk x.1 x.2))]

/-- Ranges of the hold-up settings (R242, R249, R252). -/
def holdRange (s : State) (a v : Nat) : List (Option Reject) :=
  if a = aHOLD_CTL then
    [inRange (decide (bits v 10 8 ≤ 6 ∧ bits v 14 12 ≤ 6)), need (!(bit v 0 && !huEn s && decide (s.hold.srcClass = 0))) .badState]
  else if a = aHOLD_CFG then [inRange (decide (1200 ≤ bits v 15 0 ∧ bits v 15 0 ≤ 1750 ∧ 10 ≤ bits v 31 16 ∧ bits v 31 16 ≤ 500))]
  else if a = aHOLD_ILIM then [inRange (holdIlimOk s (bits v 15 0) && decide (10 ≤ bits v 31 16 ∧ bits v 31 16 ≤ 2000))]
  else if a = aHOLD_NTC then [inRange (decide (2000 ≤ bits v 31 16 ∧ bits v 31 16 ≤ 5000))]
  else []

/-- A `START` of a self-test (R500 to R502, R505). DESIGN CHOICE: the converter test does not start while the array runs. -/
def diagRange (s : State) (a v : Nat) : List (Option Reject) :=
  if a = aDIAG_BIST ∧ bits v 2 0 ≠ 0 then
    let k := bits v 2 0
    [inRange (decide (k = 1 ∨ k = 2 ∨ k = 4)), need (decide (s.diag.run = 0)) .badState,
     need (match k with
       | 1 => !arrayRunning s
       | 2 => memBistOk s
       | _ => linkBistOk (s.setFld aDIAG_BIST 21 20 (bits v 21 20))) .badState]
  else []

/-- What is wrong with a register taking a value. -/
def regRange (s : State) (a v : Nat) : List (Option Reject) :=
  match blockOf a with
  | some .array => arrayRange s a v
  | some .teng => tengRange s a v
  | some .pipe => pipeRange s a
  | some .aux => auxRange s a v
  | some .memc => memcRange s a v
  | some .link => linkRange a v
  | some .pclk => pclkRange a v
  | some .therm => thermRange s a v
  | some .tmr => tmrRange s a v
  | some .pio => pioRange s a v
  | some .hold => holdRange s a v
  | some .diag => diagRange s a v
  | some .sys | some .otpc | some .sec | none => []

/-! ## One write -/

def modTile (g : Settings) (i : Nat) (f : TileSet → TileSet) : Settings := { g with tiles := modAt g.tiles i f }
def putPair (l : List Nat) (k lo hi : Nat) : List Nat := modAt (modAt l (2 * k) (fun _ => lo)) (2 * k + 1) (fun _ => hi)

/-- A write to a staged field changes the staged set (R48, R73). -/
def arrayWrite (g : Settings) (a v : Nat) : Settings :=
  if a < aARRAY_GEOM then
    let i := (a - 0x01000000) / 0x400
    let o := a % 0x400
    if o = 0 then modTile g i (fun x => { x with en := bit v 0 })
    else if o < 0x20 then modTile g i (fun x => { x with ticks := modAt x.ticks ((o - 0x10) / 4) (fun _ => v) })
    else modTile g i (fun x => { x with ag := putPair x.ag ((o - 0x30) / 4) (bits v 8 0) (bits v 24 16) })
  else if a = aARRAY_GEOM then { g with rowFirst := bits v 8 0, rowCount := bits v 25 16, bin := bit v 28, res10 := bit v 29 }
  else if a = aARRAY_SEQ_CTL then
    { g with mode := bits v 2 0, dcg := bits v 7 4, trig := bits v 10 8, trigTmr := bits v 14 11, tail := bits v 16 16 }
  else if a = aARRAY_PERIOD then { g with period := v }
  else if a = aARRAY_OFFS then { g with d1 := bits v 9 0, d2 := bits v 19 10, d3 := bits v 29 20 }
  else if a = aARRAY_SLICE 0 then { g with n0 := bits v 27 24, w0 := bits v 17 0 }
  else if a = aARRAY_SLICE 1 then { g with n1 := bits v 27 24, w1 := bits v 17 0 }
  else if a = aARRAY_LFSR then { g with seed := v % 65536 }
  else g

/-- A configuration register of the tile engines or the lens-shading bank: it waits for the first ELP after the stamp (R122, R158). -/
def engWrite (s : State) (a v : Nat) (stamp : Time) : State :=
  let s := s.setReg a v
  if s.seq.latched.any (takesWrite stamp) || s.seq.cur.any (takesWrite stamp) then
    let (cfg, lsc) := applyEng s.arr.engAct s.arr.lscAct a v
    let s := s.modSeq (fun q => { q with latched := q.latched.map (lateWrite stamp a v), cur := q.cur.map (lateWrite stamp a v) })
    let norm := match s.seq.latched.orElse (fun _ => s.seq.cur) with | some f => f.norm | none => s.arr.norm
    let s := ((s.seq.latched.toList ++ s.seq.cur.toList).filter (takesWrite stamp)).foldl reconfigure s
    { s with arr := { s.arr with
        engAct := cfg, lscAct := lsc, norm := norm, undo := s.arr.undo.map (fun u => { u with engPend := u.engPend ++ [(stamp, a, v)] }) } }
  else { s with arr := { s.arr with engPend := s.arr.engPend ++ [(stamp, a, v)] } }

def tengWrite (s : State) (a v : Nat) (stamp : Time) : State :=
  let o := a % 0x400
  if a < 0x02030000 ∧ o < 0x20 then
    stage s (fun g => modTile g ((a - 0x02000000) / 0x400) (fun x => { x with dg := putPair x.dg ((o - 0x10) / 4) (bits v 13 0) (bits v 29 16) }))
  else engWrite s a v stamp

/-- An open frame of an aux stream whose Frame Start the stamp precedes and that has no line yet (R15, R158, R177). -/
def auxTakes (stamp : Time) (c : AuxVc) : Bool := c.openAt.any (fun o => decide (stamp < o)) && decide (c.lines = 0)

/-- A lens-shading bank of an aux input, from the first Frame Start that follows the stamp (R15, R158). -/
def auxBankWrite (s : State) (n : Nat) (stamp : Time) (b : Nat) : State :=
  let vs := (List.range 4).filter (fun v => auxTakes stamp (s.auxVc n v))
  if vs = [] then s.modAux n (fun x => { x with bankPend := some (stamp, b) })
  else (s.modAux n (fun x => { x with bank := b, bankPend := none })).modPipe (fun q => { q with
    frames := q.frames.map (fun f => if f.p.source = n + 1 ∧ vs.contains f.p.vc ∧ stamp < f.fsAt then { f with lsc := b } else f) })

def pipeWrite (s : State) (a v : Nat) (stamp : Time) : State :=
  if a = aPIPE_CTL then
    let old := s.reg a
    let s := if old % 2 = v % 2 then s.setReg a v else engWrite s a v stamp
    (List.range 4).foldl (fun s n =>
      if bits old (n + 1) (n + 1) = bits v (n + 1) (n + 1) then s
      else auxBankWrite s n stamp (bits v (n + 1) (n + 1))) s
  else s.setReg a v

def delayWrite (s : State) (a v : Nat) : State :=
  let x := delayIx a
  let put (l : List Delay) : List Delay := modAt l (13 * x.1 + x.2) (fun _ => (bits v 14 8, bits v 6 0))
  let b := s.fld aMEMC_DLY_SEL 1 0
  s.modMem (fun m => { m with
    tables := modAt m.tables b (fun d => { d with codes := put d.codes })
    dly := if b = m.bin then put m.dly else m.dly })

def memcWrite (s : State) (a v : Nat) (t : Time) : State :=
  if a = aMEMC_BIN then writeTarget s v t
  else if aMEMC_DLY_DQ 0 0 ≤ a then delayWrite s a v
  else if a = aMEMC_CTL then (s.setFld a 7 6 (bits v 7 6)).setFld a 1 0 (bits v 1 0)
  else s.setReg a v

def linkWrite (s : State) (a v : Nat) (t : Time) : State :=
  let p := portIx ((a - 0x06000000) / 0x10000)
  let was := s.reg a
  let s := s.setReg a v
  if a % 0x10000 = 0xF000 ∧ was % 2 ≠ v % 2 then (if v % 2 = 1 then enablePort s p t else quietPort s p t) else s

/-- A write to the registers of a PLL makes it lock anew, in whatever state but OFF; PLLA not while the array runs (R392, R404). -/
def pllRelock (s : State) (n : Nat) (t : Time) : State :=
  if pllOf s n = .off ∨ (n = 0 ∧ s.seq.running) then s
  else ifFailed (pllStart (if pllOf s n = .locked then pllDown s n t else s) n t) n t

def pclkWrite (s : State) (a v : Nat) (t : Time) : State :=
  if a = aPLL_BAND_TBL then
    let n := s.fld aPLL_BAND_SEL 5 4
    let k := s.fld aPLL_BAND_SEL 3 0
    let s := s.modPll n (fun p => { p with
      bands := modAt (p.bands ++ List.replicate (16 - p.bands.length) (0, 0, 0)) k (fun _ => (bits v 18 6, bits v 31 19, bits v 5 0)) })
    pllRelock s n t
  else if aPCLK_PLL_LOCK 0 ≤ a ∧ a ≤ aPCLK_PLL_LOCK 3 then pllRelock (s.setReg a v) ((a - aPCLK_PLL_LOCK 0) / 0x20) t
  else if a = aPCLK_WDT then s.setFld a 31 16 (bits v 31 16)
  else s.setReg a v

/-- A 48-bit value of a channel is written low word first; the high word moves the pair. On a stopped channel each write takes effect (R427). -/
def tmrRegWrite (s : State) (a v : Nat) : State :=
  let n := (a - 0x09000000) / 0x100
  let o := a % 0x100
  let s := s.setReg a v
  if 8 ≤ o ∧ o < 0x20 then
    let lo := a - o + o / 8 * 8
    if o % 8 = 4 || !(s.tmr n).run then tmrWrite s n (o / 8 - 1) (s.reg lo + 2 ^ 32 * s.reg (lo + 4)) else s
  else s

def pioWrite (s : State) (a v : Nat) : State :=
  if a < aPIO_PINCFG 0 then
    let e := (a - 0x0A000000) / 0x1000
    if a % 0x1000 = 0x808 then setDepth s e v
    else if a % 0x1000 = 0x800 then s.setFld a 0 0 (v % 2)
    else s.setReg a v
  else
    let k := (a - aPIO_PINCFG 0) / 4 % 16
    let cfg := if a = aPIO_PINCFG k then v else s.reg (aPIO_PINCFG k)
    let arg := if a = aPIO_PINARG k then v else s.reg (aPIO_PINARG k)
    (pinPairs cfg arg).zipIdx.foldl (fun s x => setPin s (4 * k + x.2) x.1.1 x.1.2) s

def holdWrite (s : State) (a v : Nat) (t : Time) : State :=
  let g (x : Nat) : Nat := if x = a then v else s.reg x
  holdApply s (g aHOLD_CTL) (g aHOLD_CFG) (g aHOLD_ILIM) (bits (g aHOLD_NTC) 31 16) t

def diagWrite (s : State) (a v : Nat) (t : Time) : State :=
  if a = aDIAG_BIST then
    let s := s.setFld a 21 20 (bits v 21 20)
    match bits v 2 0 with
    | 0 => s
    | 1 => startBist s 1 0 t
    | 2 => startBist s 2 0 t
    | _ => startBist s 3 (bits v 21 20) t
  else s

/-- A register takes a value. -/
def writeOne (s : State) (c : Call) (a v : Nat) : State :=
  match blockOf a with
  | some .array => stage s (fun g => arrayWrite g a v)
  | some .teng => tengWrite s a v c.stamp
  | some .pipe => pipeWrite s a v c.stamp
  | some .aux => auxApply s ((a - 0x04000000) / 0x10000) [(a, v)] c.stamp c.start
  | some .memc => memcWrite s a v c.start
  | some .link => linkWrite s a v c.start
  | some .pclk => pclkWrite s a v c.start
  | some .therm => s.setReg a v
  | some .tmr => tmrRegWrite s a v
  | some .pio => pioWrite s a v
  | some .hold => holdWrite s a v c.start
  | some .diag => diagWrite s a v c.start
  | some .sys | some .otpc | some .sec | none => s

/-! ## WRITE_REG (R356) -/

/-- A triple: address, value and mask. -/
def tripleAt (pl : List Byte) (k : Nat) : Nat × Nat × Nat := (u32 pl (12 * k), u32 pl (12 * k + 4), u32 pl (12 * k + 8))

/-- A write of a triple changes a register. -/
def writeTriple (s : State) (c : Call) (x : Nat × Nat × Nat) : State :=
  match regAt x.1 with
  | none => s
  | some r => if Nat.land x.2.2 (writable r) = 0 then s else writeOne s c x.1 (merged s x.1 r x.2.1 x.2.2 c.start)

/-- The checks of a triple (R356). A refusal names the payload offset of the triple, and BAD_ARG under check 6 that of
its `VALUE` (R334). -/
def tripleChecks (s : State) (c : Call) (k : Nat) (x : Nat × Nat × Nat) : List (Option Reject) :=
  let a := x.1
  let m := x.2.2
  let l : List (Option Reject) := match blockOf a with
    | none => [inRange false]
    | some .sec => [need false .denied]
    | some _ =>
      if a % 4 ≠ 0 then [inRange false]
      else match regAt a with
      | none => []
      | some r =>
        let rwl := Nat.land m (fldsMask (fun f => decide (f.acc = .rwl)) r.flds)
        let other := Nat.land m (fldsMask (fun f => decide (f.acc ≠ .rwl)) r.flds)
        let spare := Nat.land (Nat.land m x.2.1) (2 ^ 32 - 1 - fldsMask (fun _ => true) r.flds)
        [need (openLife s || decide (other = 0)) .denied, need (decide (rwl = 0) || regLease s c a rwl) .noLease, inRange (decide (spare = 0))] ++
          (if Nat.land m (writable r) = 0 then [] else regRange s a (merged s a r x.2.1 m c.start))
  let det := if (regAt a).isSome ∧ a % 4 = 0 then 12 * k + 4 else 12 * k
  l.map (fun o => o.map (fun r => ⟨r.status, if r.status = .badArg then det else 12 * k⟩))

/-- The checks of all triples, each in the state that the ones before it would leave. -/
def writeChecks (c : Call) : List (Nat × (Nat × Nat × Nat)) → State → List (Option Reject)
  | [], _ => []
  | (k, x) :: r, s => tripleChecks s c k x ++ writeChecks c r (writeTriple s c x)

/-- `WRITE_REG` (R356). -/
def execWriteReg (c : Call) (s : State) : Out :=
  let pl := c.payload
  let n := pl.length / 12
  let xs := (List.range (min n 4)).map (fun k => (k, tripleAt pl k))
  command s c 0x0011 .fast (fun s =>
      [need (decide (pl.length = 12 * n ∧ 1 ≤ n ∧ n ≤ 4)) .badLength, need (!s.sec.untrusted) .denied, argZero c] ++ writeChecks c xs s)
    (fun s => okWith (xs.foldl (fun s x => writeTriple s c x.2) s) c 0x0011 .fast [])

end Sys2Proof.Machine
end

