-- ==== Sys2Proof/Machine/RingCmds.lean ====
section
/-! DEFINITION. The commands of the event ring, and the sealing of a segment (R223 to R226, R244 to R248). -/

namespace Sys2Proof.Machine

/-- `CONFIG_RING` (R23, R188, R244). DEDUCED: an accepted one ends a stop of R235 and clears RING_LOST. -/
def execConfigRing (c : Call) (s : State) : Out :=
  let pl := c.payload
  let n := u8 pl 0
  let views := u16 pl 2
  command s c 0x0500 .fast (fun s => [lenIs c 16, needLease s c lRING, needLeaseOrSafety s c lARRAY, argZero c,
      argOk (decide (n ≤ 6)) 0, reservedBits pl 1 0xFC,
      argOk (decide (countIf (fun v => bit views v) (List.range 16) ≤ 8)) 2, argOk (decide (u32 pl 4 ≤ 60000)) 4,
      argOk (decide (u32 pl 8 ≤ 60000)) 8, reserved pl 12 4,
      need (memUp s && (decide (n = s.ring.nAs) || s.ring.segs.all (fun g => decide (g.state = 0)))) .badState,
      need (decide (n = s.ring.nAs) || s.mem.regions.all (fun r => decide (r.1 + r.2 ≤ (8 - n) * asMib))) .noResource])
    (fun s =>
      let s := if n = s.ring.nAs then s
        else
          let s := if n = 0 then s else fmForget s ((8 - n) * asMib * mib) (n * asMib * mib)
          s.modRing (fun r => { r with nAs := n, chunks := newChunks n, recs := [], pos := [], full := false, lostRecs := [] })
      let s := s.modRing (fun r => { r with
        flags := u8 pl 1, views := views, pre := u32 pl 4, post := u32 pl 8, stopped := false, memStop := false, lostFlag := false
        viewsAct := bitmap ((List.range 16).map (fun v => if (s.view v).started then bit r.viewsAct v else bit views v))
        acts := r.acts.zipIdx.map (fun a => if bit r.viewsAct a.2 && (s.view a.2).started then a.1 else (u32 pl 4, u32 pl 8)) })
      let s := (s.pipe.frames.filter (fun f => decide (c.stamp ≤ f.fsAt))).foldl (fun s f => ringFrameStart s f.view.val f.frame) s
      okWith (dirWrite s c.start) c 0x0500 .fast [])

/-- A stamp at or after the instant D of a supply failure with hold-up (R230). -/
def pastDusk (s : State) (stamp : Nat) : Bool :=
  (decide (s.pw.st = .dusk) && decide (s.hold.duskAt ≤ stamp)) ||
  (match s.otp.stopDusk with | some x => decide (s.dtime x.1 ≤ stamp) | none => false)

/-- `MARK_EVENT` (R223, R225, R226, R230, R245). -/
def execMarkEvent (c : Call) (s : State) : Out :=
  let pl := c.payload
  let code := u16 pl 0
  command s c 0x0501 .immediate (fun s => [lenIs c 4, notViewer s c, argZero c, argOk (decide (code ≤ 0xFFFE)) 0, reserved pl 2 2,
      need (!pastDusk s (s.dtime c.stamp)) .badState, needActive s c, need (decide (ringStateCode s = 1)) .badState])
    (fun s =>
      let d := s.dtime c.stamp
      let answer (s : State) (i flags : Nat) : State :=
        okWith s c 0x0501 .immediate ([byte i, byte flags] ++ leBytes 2 (segOf s.ring i).id ++ zeros 4 ++ leBytes 8 d)
      match extendable s d with
      | some i => answer (extendSegment s i code d) i 1
      | none =>
        match makeSlot s c.start with
        | (some i, dropped, s) =>
          answer (openSegment s i code 0 d (d + ringPost s.ring * 1000000) c.start) i (2 * b2n dropped)
        | (none, _, s) => respond s c 0x0501 .immediate .noResource 0 [])

/-- A frame of a ring view whose FS lies in a window has not yet left its output queue: it is in progress, or its FSTART waits in the queue of the
port (R219, R224). -/
def frameAwaited (s : State) (g : Segment) : Bool :=
  let views := Nat.lor g.views g.also
  let inW (d : Nat) : Bool := decide (g.start ≤ d ∧ d ≤ g.end_)
  s.pipe.frames.any (fun f => bit views f.view.val && inW f.fsD) ||
  s.ports.any (fun p => p.vq.any (fun k => match k.view with
    | some v => bit views v.val && decide (k.type = 1) && inW (u64 k.bytes 24)
    | none => false))

/-- `SEGMENT_SEAL` (R197, R224): END has passed, and every record of the window is sealed and its seal acknowledged. -/
def execSegmentSeal (t : Time) (slot : Fin 8) (s : State) : Out :=
  event s t (fun s =>
      let g := segOf s.ring slot.val
      decide (g.state = 1 ∧ g.end_ < s.dtime t) && memUp s && !frameAwaited s g && !s.ring.recs.any (fun r => (r.openNow || sealAwaited s r) && inWindow g r))
    (fun s => sealSegment s slot.val 0 t)

/-- `READ_RING` (R246, R342). -/
def execReadRing (c : Call) (s : State) : Out :=
  let pl := c.payload
  let p := srcIx c.src
  let slot := u8 pl 0
  command s c 0x0502 .bulk (fun s => [lenIs c 12, notViewer s c, argZero c, argOk (decide (slot < 8)) 0,
      argOk (decide (u8 pl 1 < 16)) 1, argOk (decide (1 ≤ u8 pl 2 ∧ u8 pl 2 ≤ 15)) 2, reserved pl 3 1,
      argOk (decide ((segOf s.ring slot).state ≠ 0)) 0, need (decide (s.mem.st = .run)) .badState,
      need (s.port p).bulk.isNone .busy])
    (fun s =>
      let all := (segRecs s slot (u8 pl 1)).zipIdx.drop (u32 pl 4)
      let l := if u32 pl 8 = 0 then all else all.take (u32 pl 8)
      let b : Bulk := { tag := c.tag, vs := u8 pl 2, index := 0, items := l.map (fun r => (r.2, r.1.chunk, r.1.off)), off := 0
                        ackRecords := 0, ackBytes := 0, live := [], last := none, seg := slot
                        due := (jobOf s.fwq c.src 0x0502 c.tag).bind Job.due }
      let s := s.modPort p (fun q => { q with bulk := some b })
      if l.isEmpty then bulkEnd s p .ok c.start else bulkRefill s p c.start)

/-- HORIZON (R247): ms that the unpinned chunks hold at the rate of the records in the ring. DESIGN CHOICE: all ones where no rate shows. -/
def ringHorizon (s : State) (free : Nat) : Nat :=
  let l := s.ring.recs.filter (fun r => !r.openNow)
  let fs := l.map (fun r => r.fsDtime)
  let hi := maxL fs
  let span := hi - minL 0 fs
  let bytes := sumL ((l.filter (fun r => decide (r.fsDtime < hi))).map (fun r => 64 + r.length))
  if bytes = 0 then 2 ^ 32 - 1 else min (2 ^ 32 - 1) (free * (chunkSize - 64) * span / bytes / 1000000)

/-- `RING_STATUS` (R247). -/
def execRingStatus (c : Call) (s : State) : Out :=
  command s c 0x0503 .fast (fun _ => [lenIs c 0, argZero c]) (fun s =>
    let r := s.ring
    let free := countIf (fun k : Chunk => decide (k.state ≠ 3 ∧ k.pin = 0)) r.chunks
    okWith s c 0x0503 .fast ([byte (ringStateCode s), byte r.nAs] ++ leBytes 2 r.views ++ leBytes 4 r.pre ++ leBytes 4 r.post ++
      leBytes 2 free ++ leBytes 2 (r.chunks.length - 1) ++ leBytes 4 (ringHorizon s free) ++ leBytes 4 r.lostEvents ++
      [byte (r.flags + 4 * b2n r.recovered + 8 * b2n r.lostFlag)] ++ zeros 7 ++ (List.range 8).flatMap (segBytes s)))

/-- `RELEASE_SEGMENT` (R248). -/
def execReleaseSegment (c : Call) (s : State) : Out :=
  let pl := c.payload
  let slot := u8 pl 0
  command s c 0x0506 .fast (fun s =>
      let g := segOf s.ring slot
      [lenIs c 4, needLeaseOrSafety s c lRING, argZero c, argOk (decide (slot < 8)) 0, reserved pl 1 1,
       argOk (decide (g.state ≠ 0 ∧ g.id = u16 pl 2)) 2, need (decide (g.state ≠ 1)) .badState, need (!segRead s slot) .busy])
    (fun s => okWith (releaseSlot s slot c.start) c 0x0506 .fast [])

end Sys2Proof.Machine
end

