-- ==== Sys2Proof/Machine/Dispatch.lean ====
section
/-! DEFINITION. What each command does: one arm per row of the table. -/

namespace Sys2Proof.Machine

def exec (i : Instr) (s : State) : Host.Outcome State Fault Refusal :=
  match i with
  | .hello c => Sys2Proof.Machine.execHello c s
  | .getInfo c => Sys2Proof.Machine.execGetInfo c s
  | .getStatus c => Sys2Proof.Machine.execGetStatus c s
  | .resetDevice c => Sys2Proof.Machine.execResetDevice c s
  | .resetBegin t => Sys2Proof.Machine.execResetBegin t s
  | .setPowerState c => Sys2Proof.Machine.execSetPowerState c s
  | .pumpsSettled t => Sys2Proof.Machine.execPumpsSettled t s
  | .getFaults c => Sys2Proof.Machine.execGetFaults c s
  | .clearFaults c => Sys2Proof.Machine.execClearFaults c s
  | .readReg c => Sys2Proof.Machine.execReadReg c s
  | .writeReg c => Sys2Proof.Machine.execWriteReg c s
  | .timeSync c => Sys2Proof.Machine.execTimeSync c s
  | .acquireLease c => Sys2Proof.Machine.execAcquireLease c s
  | .releaseLease c => Sys2Proof.Machine.execReleaseLease c s
  | .renewLease c => Sys2Proof.Machine.execRenewLease c s
  | .leaseExpiry t r => Sys2Proof.Machine.execLeaseExpiry t r s
  | .leaseLapse t p => Sys2Proof.Machine.execLeaseLapse t p s
  | .setArrayMode c => Sys2Proof.Machine.execSetArrayMode c s
  | .setFrameTiming c => Sys2Proof.Machine.execSetFrameTiming c s
  | .setTileExposure c => Sys2Proof.Machine.execSetTileExposure c s
  | .setTileGain c => Sys2Proof.Machine.execSetTileGain c s
  | .setGovernor c => Sys2Proof.Machine.execSetGovernor c s
  | .setSlicing c => Sys2Proof.Machine.execSetSlicing c s
  | .setTileEnable c => Sys2Proof.Machine.execSetTileEnable c s
  | .commitSettings c => Sys2Proof.Machine.execCommitSettings c s
  | .triggerFrame c => Sys2Proof.Machine.execTriggerFrame c s
  | .startArray c => Sys2Proof.Machine.execStartArray c s
  | .stopArray c => Sys2Proof.Machine.execStopArray c s
  | .triggerAt c => Sys2Proof.Machine.execTriggerAt c s
  | .triggerAtDue t => Sys2Proof.Machine.execTriggerAtDue t s
  | .frameStart t => Sys2Proof.Machine.execFrameStart t s
  | .overheadSlot t samples ramp => Sys2Proof.Machine.execOverheadSlot t samples ramp s
  | .rowSlot t samples => Sys2Proof.Machine.execRowSlot t samples s
  | .integrationStart t tile row exp => Sys2Proof.Machine.execIntegrationStart t tile row exp s
  | .integrationSlice t tile row exp => Sys2Proof.Machine.execIntegrationSlice t tile row exp s
  | .exposureLatchPoint t => Sys2Proof.Machine.execExposureLatchPoint t s
  | .arrayArm t => Sys2Proof.Machine.execArrayArm t s
  | .statsComplete t => Sys2Proof.Machine.execStatsComplete t s
  | .governorOutput t => Sys2Proof.Machine.execGovernorOutput t s
  | .mosaicLineTransfer t tile crcOk => Sys2Proof.Machine.execMosaicLineTransfer t tile crcOk s
  | .spillFetchComplete t tile kind row ok => Sys2Proof.Machine.execSpillFetchComplete t tile kind row ok s
  | .pipeJobRelease t v band group stripe => Sys2Proof.Machine.execPipeJobRelease t v band group stripe s
  | .pipeJobStart t => Sys2Proof.Machine.execPipeJobStart t s
  | .pipeJobComplete t => Sys2Proof.Machine.execPipeJobComplete t s
  | .rasterReadbackStart t v => Sys2Proof.Machine.execRasterReadbackStart t v s
  | .viewStopDone t v => Sys2Proof.Machine.execViewStopDone t v s
  | .createView c => Sys2Proof.Machine.execCreateView c s
  | .modifyView c => Sys2Proof.Machine.execModifyView c s
  | .deleteView c => Sys2Proof.Machine.execDeleteView c s
  | .startView c => Sys2Proof.Machine.execStartView c s
  | .stopView c => Sys2Proof.Machine.execStopView c s
  | .getStats c => Sys2Proof.Machine.execGetStats c s
  | .frameDropRepeat t v => Sys2Proof.Machine.execFrameDropRepeat t v s
  | .configAux c => Sys2Proof.Machine.execConfigAux c s
  | .auxStatus c => Sys2Proof.Machine.execAuxStatus c s
  | .skewCalibration t n lane initial => Sys2Proof.Machine.execSkewCalibration t n lane initial s
  | .auxFrameStart t n head ecc => Sys2Proof.Machine.execAuxFrameStart t n head ecc s
  | .auxFrameEnd t n head ecc => Sys2Proof.Machine.execAuxFrameEnd t n head ecc s
  | .auxLongPacket t n di wc ecc payload crc => Sys2Proof.Machine.execAuxLongPacket t n di wc ecc payload crc s
  | .auxLos t n lanes => Sys2Proof.Machine.execAuxLos t n lanes s
  | .auxLosRecover t n => Sys2Proof.Machine.execAuxLosRecover t n s
  | .auxLate t n vc => Sys2Proof.Machine.execAuxLate t n vc s
  | .auxStatsComplete t n => Sys2Proof.Machine.execAuxStatsComplete t n s
  | .memRequest t cls inst fma write => Sys2Proof.Machine.execMemRequest t cls inst fma write s
  | .memPick t sc => Sys2Proof.Machine.execMemPick t sc s
  | .entryAged t q => Sys2Proof.Machine.execEntryAged t q s
  | .memAccessComplete t q flips chk => Sys2Proof.Machine.execMemAccessComplete t q flips chk s
  | .refreshDue t q => Sys2Proof.Machine.execRefreshDue t q s
  | .refreshRatePoll t reports => Sys2Proof.Machine.execRefreshRatePoll t reports s
  | .powerDownEntry t sc rank => Sys2Proof.Machine.execPowerDownEntry t sc rank s
  | .eccLineIdle t sc block used => Sys2Proof.Machine.execEccLineIdle t sc block used s
  | .rowhammerWindow t => Sys2Proof.Machine.execRowhammerWindow t s
  | .sweepComplete t results => Sys2Proof.Machine.execSweepComplete t results s
  | .memcBinTargetWrite t target => Sys2Proof.Machine.execMemcBinTargetWrite t target s
  | .binChange t ok => Sys2Proof.Machine.execBinChange t ok s
  | .memStatus c => Sys2Proof.Machine.execMemStatus c s
  | .memRecover c => Sys2Proof.Machine.execMemRecover c s
  | .configRing c => Sys2Proof.Machine.execConfigRing c s
  | .markEvent c => Sys2Proof.Machine.execMarkEvent c s
  | .readRing c => Sys2Proof.Machine.execReadRing c s
  | .ringStatus c => Sys2Proof.Machine.execRingStatus c s
  | .releaseSegment c => Sys2Proof.Machine.execReleaseSegment c s
  | .segmentSeal t slot => Sys2Proof.Machine.execSegmentSeal t slot s
  | .supplyFail t vio vcore uj => Sys2Proof.Machine.execSupplyFail t vio vcore uj s
  | .storeExhausted t => Sys2Proof.Machine.execStoreExhausted t s
  | .supplyReturn t env held => Sys2Proof.Machine.execSupplyReturn t env held s
  | .configHoldup c => Sys2Proof.Machine.execConfigHoldup c s
  | .holdupStatus c => Sys2Proof.Machine.execHoldupStatus c s
  | .chargerVioSample t mv => Sys2Proof.Machine.execChargerVioSample t mv s
  | .chargerLimitDown t => Sys2Proof.Machine.execChargerLimitDown t s
  | .chargerLimitUp t => Sys2Proof.Machine.execChargerLimitUp t s
  | .chargerPulseEnd t ocv ohm => Sys2Proof.Machine.execChargerPulseEnd t ocv ohm s
  | .chargerOcvCheck t ocv => Sys2Proof.Machine.execChargerOcvCheck t ocv s
  | .ntcRead t ohm => Sys2Proof.Machine.execNtcRead t ohm s
  | .lanternPatternTick t pin => Sys2Proof.Machine.execLanternPatternTick t pin s
  | .linkStatus c => Sys2Proof.Machine.execLinkStatus c s
  | .setLinkRate c => Sys2Proof.Machine.execSetLinkRate c s
  | .linkTest c => Sys2Proof.Machine.execLinkTest c s
  | .linkTestEnd t r => Sys2Proof.Machine.execLinkTestEnd t r s
  | .rateChangeStart t p => Sys2Proof.Machine.execRateChangeStart t p s
  | .backoffEnd t p => Sys2Proof.Machine.execBackoffEnd t p s
  | .beaconBurst t p => Sys2Proof.Machine.execBeaconBurst t p s
  | .uclkValid t p => Sys2Proof.Machine.execUclkValid t p s
  | .trainingBlockRx t p block => Sys2Proof.Machine.execTrainingBlockRx t p block s
  | .trainingTimeout t p => Sys2Proof.Machine.execTrainingTimeout t p s
  | .ctleSettingStep t p height => Sys2Proof.Machine.execCtleSettingStep t p height s
  | .dfeAdapt t p err data => Sys2Proof.Machine.execDfeAdapt t p err data s
  | .phaseTrack t p later => Sys2Proof.Machine.execPhaseTrack t p later s
  | .prbsWindowEnd t p errors => Sys2Proof.Machine.execPrbsWindowEnd t p errors s
  | .rateIdleEnd t p => Sys2Proof.Machine.execRateIdleEnd t p s
  | .errorInjection t p => Sys2Proof.Machine.execErrorInjection t p s
  | .losOnset t p lol ppm => Sys2Proof.Machine.execLosOnset t p lol ppm s
  | .losClear t p ppm => Sys2Proof.Machine.execLosClear t p ppm s
  | .losFailure t p lol => Sys2Proof.Machine.execLosFailure t p lol s
  | .holdExpiry t p => Sys2Proof.Machine.execHoldExpiry t p s
  | .alignmentMarkerTx t p => Sys2Proof.Machine.execAlignmentMarkerTx t p s
  | .alignmentMarkerRx t p marker => Sys2Proof.Machine.execAlignmentMarkerRx t p marker s
  | .upstreamCodeword t p levels => Sys2Proof.Machine.execUpstreamCodeword t p levels s
  | .requestEntry t p entry => Sys2Proof.Machine.execRequestEntry t p entry s
  | .doorbell t p body => Sys2Proof.Machine.execDoorbell t p body s
  | .credit t p body => Sys2Proof.Machine.execCredit t p body s
  | .ack t p body => Sys2Proof.Machine.execAck t p body s
  | .upstreamTimeCell t p body => Sys2Proof.Machine.execUpstreamTimeCell t p body s
  | .trigCell t p body => Sys2Proof.Machine.execTrigCell t p body s
  | .trainCell t p body => Sys2Proof.Machine.execTrainCell t p body s
  | .downstreamCellSlot t p => Sys2Proof.Machine.execDownstreamCellSlot t p s
  | .rtoExpiry t p => Sys2Proof.Machine.execRtoExpiry t p s
  | .chainTimeout t p => Sys2Proof.Machine.execChainTimeout t p s
  | .responsePost t p => Sys2Proof.Machine.execResponsePost t p s
  | .completeDrop t p => Sys2Proof.Machine.execCompleteDrop t p s
  | .sbSubmit t request => Sys2Proof.Machine.execSbSubmit t request s
  | .sbDone t => Sys2Proof.Machine.execSbDone t s
  | .sbAbort t => Sys2Proof.Machine.execSbAbort t s
  | .enec t events => Sys2Proof.Machine.execEnec t events s
  | .disec t events => Sys2Proof.Machine.execDisec t events s
  | .rstdaa t => Sys2Proof.Machine.execRstdaa t s
  | .entdaa t addr => Sys2Proof.Machine.execEntdaa t addr s
  | .setdasa t static addr => Sys2Proof.Machine.execSetdasa t static addr s
  | .setnewda t addr => Sys2Proof.Machine.execSetnewda t addr s
  | .setmwl t len => Sys2Proof.Machine.execSetmwl t len s
  | .setmrl t len => Sys2Proof.Machine.execSetmrl t len s
  | .getmwl t => Sys2Proof.Machine.execGetmwl t s
  | .getmrl t => Sys2Proof.Machine.execGetmrl t s
  | .getpid t => Sys2Proof.Machine.execGetpid t s
  | .getbcr t => Sys2Proof.Machine.execGetbcr t s
  | .getdcr t => Sys2Proof.Machine.execGetdcr t s
  | .getstatus t => Sys2Proof.Machine.execGetstatus t s
  | .powerOn t env => Sys2Proof.Machine.execPowerOn t env s
  | .porNPulse t width => Sys2Proof.Machine.execPorNPulse t width s
  | .vmidFail t => Sys2Proof.Machine.execVmidFail t s
  | .keeperLoss t => Sys2Proof.Machine.execKeeperLoss t s
  | .refLost t => Sys2Proof.Machine.execRefLost t s
  | .refReturn t khz => Sys2Proof.Machine.execRefReturn t khz s
  | .lfxtalLoss t => Sys2Proof.Machine.execLfxtalLoss t s
  | .lfxtalValid t khz => Sys2Proof.Machine.execLfxtalValid t khz s
  | .pllLock t n => Sys2Proof.Machine.execPllLock t n s
  | .pllLockTimeout t n => Sys2Proof.Machine.execPllLockTimeout t n s
  | .pllUnlock t n => Sys2Proof.Machine.execPllUnlock t n s
  | .watchdogExpiry t => Sys2Proof.Machine.execWatchdogExpiry t s
  | .lockstepMismatch t => Sys2Proof.Machine.execLockstepMismatch t s
  | .sramUe t => Sys2Proof.Machine.execSramUe t s
  | .tsSample t reads => Sys2Proof.Machine.execTsSample t reads s
  | .levelHoldExpiry t => Sys2Proof.Machine.execLevelHoldExpiry t s
  | .squallClear t => Sys2Proof.Machine.execSquallClear t s
  | .sampleRateReturn t => Sys2Proof.Machine.execSampleRateReturn t s
  | .graceExpiry t => Sys2Proof.Machine.execGraceExpiry t s
  | .downTimerExpiry t => Sys2Proof.Machine.execDownTimerExpiry t s
  | .foghornRepeat t => Sys2Proof.Machine.execFoghornRepeat t s
  | .shutdownExit t => Sys2Proof.Machine.execShutdownExit t s
  | .thermalStatus c => Sys2Proof.Machine.execThermalStatus c s
  | .ackFoghorn c => Sys2Proof.Machine.execAckFoghorn c s
  | .setThermal c => Sys2Proof.Machine.execSetThermal c s
  | .configTimer c => Sys2Proof.Machine.execConfigTimer c s
  | .timerControl c => Sys2Proof.Machine.execTimerControl c s
  | .timerControlAt t => Sys2Proof.Machine.execTimerControlAt t s
  | .timerCapture c => Sys2Proof.Machine.execTimerCapture c s
  | .timerTick t n => Sys2Proof.Machine.execTimerTick t n s
  | .periodEvent t n => Sys2Proof.Machine.execPeriodEvent t n s
  | .matchEvent t n second => Sys2Proof.Machine.execMatchEvent t n second s
  | .zeroEvent t n => Sys2Proof.Machine.execZeroEvent t n s
  | .pinEdgeAccepted t n level => Sys2Proof.Machine.execPinEdgeAccepted t n level s
  | .captureEvent t n => Sys2Proof.Machine.execCaptureEvent t n s
  | .tmrCapLoRead t n => Sys2Proof.Machine.execTmrCapLoRead t n s
  | .tmrCountRead t n high => Sys2Proof.Machine.execTmrCountRead t n high s
  | .fsyncOutEnd t pin => Sys2Proof.Machine.execFsyncOutEnd t pin s
  | .pinTransitionOverrun t pin => Sys2Proof.Machine.execPinTransitionOverrun t pin s
  | .loadPio c => Sys2Proof.Machine.execLoadPio c s
  | .startPio c => Sys2Proof.Machine.execStartPio c s
  | .stopPio c => Sys2Proof.Machine.execStopPio c s
  | .pioQueue c => Sys2Proof.Machine.execPioQueue c s
  | .configPins c => Sys2Proof.Machine.execConfigPins c s
  | .drive t e => Sys2Proof.Machine.execDrive t e s
  | .xfer t e di => Sys2Proof.Machine.execXfer t e di s
  | .fetch t e => Sys2Proof.Machine.execFetch t e s
  | .store t e => Sys2Proof.Machine.execStore t e s
  | .copy t e pins => Sys2Proof.Machine.execCopy t e pins s
  | .imm t e => Sys2Proof.Machine.execImm t e s
  | .loopI t e => Sys2Proof.Machine.execLoop t e s
  | .waitI t e pins => Sys2Proof.Machine.execWait t e pins s
  | .br t e pins => Sys2Proof.Machine.execBr t e pins s
  | .flush t e => Sys2Proof.Machine.execFlush t e s
  | .endI t e => Sys2Proof.Machine.execEnd t e s
  | .pioIllegal t e => Sys2Proof.Machine.execPioIllegal t e s
  | .pioStallEnd t e pins edge => Sys2Proof.Machine.execPioStallEnd t e pins edge s
  | .waitTimeout t e => Sys2Proof.Machine.execWaitTimeout t e s
  | .rxqWordMove t e => Sys2Proof.Machine.execRxqWordMove t e s
  | .piodataPacket t e => Sys2Proof.Machine.execPiodataPacket t e s
  | .pktUsExpiry t e => Sys2Proof.Machine.execPktUsExpiry t e s
  | .authChallenge c => Sys2Proof.Machine.execAuthChallenge c s
  | .authResponse c => Sys2Proof.Machine.execAuthResponse c s
  | .nonceExpiry t p => Sys2Proof.Machine.execNonceExpiry t p s
  | .setViewAuth c => Sys2Proof.Machine.execSetViewAuth c s
  | .otpRead c => Sys2Proof.Machine.execOtpRead c s
  | .otpProgram c => Sys2Proof.Machine.execOtpProgram c s
  | .otpLockRegion c => Sys2Proof.Machine.execOtpLockRegion c s
  | .lifecycle c => Sys2Proof.Machine.execLifecycle c s
  | .fwLoad c => Sys2Proof.Machine.execFwLoad c s
  | .fwLoadTimeout t => Sys2Proof.Machine.execFwLoadTimeout t s
  | .fwHandover t => Sys2Proof.Machine.execFwHandover t s
  | .rollbackStepWrite t => Sys2Proof.Machine.execRollbackStepWrite t s
  | .encNAlarm t => Sys2Proof.Machine.execEncNAlarm t s
  | .shieldCheck t bad => Sys2Proof.Machine.execShieldCheck t bad s
  | .vglitch t => Sys2Proof.Machine.execVglitch t s
  | .faultRepeat t code inst => Sys2Proof.Machine.execFaultRepeat t code inst s
  | .converterSelfTest t => Sys2Proof.Machine.execConverterSelfTest t s
  | .memorySelfTest t => Sys2Proof.Machine.execMemorySelfTest t s
  | .linkSelfTest t => Sys2Proof.Machine.execLinkSelfTest t s
  | .bistComplete t read => Sys2Proof.Machine.execBistComplete t read s
  | .lfxtalWaitTimeout t => Sys2Proof.Machine.execLfxtalWaitTimeout t s
  | .dtimeSlewEnd t => Sys2Proof.Machine.execDtimeSlewEnd t s
  | .otpWordProgrammed t norm strict => Sys2Proof.Machine.execOtpWordProgrammed t norm strict s
  | .slowCommandTimeout t opcode => Sys2Proof.Machine.execSlowCommandTimeout t opcode s
  | .prbsSyncAcquired t p rx => Sys2Proof.Machine.execPrbsSyncAcquired t p rx s
  | .prbsSyncLoss t p rx => Sys2Proof.Machine.execPrbsSyncLoss t p rx s
  | .chargerRestStart t mean dq v1 iOut => Sys2Proof.Machine.execChargerRestStart t mean dq v1 iOut s
  | .chargeBudgetExceeded t dq => Sys2Proof.Machine.execChargeBudgetExceeded t dq s
  | .chargeTargetReached t mv => Sys2Proof.Machine.execChargeTargetReached t mv s

end Sys2Proof.Machine
end

