-- ==== Sys2Proof/WellFormed.lean ====
section
/-! DEFINITION. When a command is well formed: its operands have the lengths and the ranges that the spec gives the thing
they stand for. -/

namespace Sys2Proof

/-- A host command: four `ARG` bytes (R330), at most 16 entries of 48 payload bytes (R332), and a start no earlier than
its stamp (R340). -/
def wfCall (c : Call) : Bool :=
  c.arg.length == 4 && decide (c.payload.length ≤ 768) && decide (c.stamp ≤ c.start)

/-- What the board presents: four straps, each between 0 and VIO (R397), and four PLLs (R392). -/
def wfEnv (e : BootEnv) : Bool :=
  e.straps.length == 4 && e.straps.all (fun v => v ≤ 1000) && e.pllOk.length == 4

/-- Converter counts: at most one list for each tile, of pairs of 12-bit counts for at most 512 columns (R31, R32). -/
def wfSamples (l : List (TileIx × List (Nat × Nat))) : Bool :=
  decide (l.length ≤ 192) &&
  l.all (fun x => decide (x.2.length ≤ 512) && x.2.all (fun p => p.1 < 4096 && p.2 < 4096))

/-- The host command that an instruction carries, if it is one. -/
def Instr.call? : Instr → Option Call
  | .hello c | .getInfo c | .getStatus c | .resetDevice c | .setPowerState c | .getFaults c | .clearFaults c | .readReg c
  | .writeReg c | .timeSync c | .acquireLease c | .releaseLease c | .renewLease c | .setArrayMode c | .setFrameTiming c
  | .setTileExposure c | .setTileGain c | .setGovernor c | .setSlicing c | .setTileEnable c | .commitSettings c | .triggerFrame c
  | .startArray c | .stopArray c | .triggerAt c | .createView c | .modifyView c | .deleteView c | .startView c | .stopView c
  | .getStats c | .configAux c | .auxStatus c | .memStatus c | .memRecover c | .configRing c | .markEvent c | .readRing c
  | .ringStatus c | .releaseSegment c | .configHoldup c | .holdupStatus c | .linkStatus c | .setLinkRate c | .linkTest c
  | .thermalStatus c | .ackFoghorn c | .setThermal c | .configTimer c | .timerControl c | .timerCapture c | .loadPio c
  | .startPio c | .stopPio c | .pioQueue c | .configPins c | .authChallenge c | .authResponse c | .setViewAuth c | .otpRead c
  | .otpProgram c | .otpLockRegion c | .lifecycle c | .fwLoad c => some c
  | .resetBegin .. | .pumpsSettled .. | .leaseExpiry .. | .leaseLapse .. | .triggerAtDue .. | .frameStart .. | .overheadSlot ..
  | .rowSlot .. | .integrationStart .. | .integrationSlice .. | .exposureLatchPoint .. | .arrayArm .. | .statsComplete ..
  | .governorOutput .. | .mosaicLineTransfer .. | .spillFetchComplete .. | .pipeJobRelease .. | .pipeJobStart ..
  | .pipeJobComplete .. | .rasterReadbackStart .. | .viewStopDone .. | .frameDropRepeat .. | .skewCalibration ..
  | .auxFrameStart .. | .auxFrameEnd .. | .auxLongPacket .. | .auxLos .. | .auxLosRecover .. | .auxLate .. | .auxStatsComplete ..
  | .memRequest .. | .memPick .. | .entryAged .. | .memAccessComplete .. | .refreshDue .. | .refreshRatePoll ..
  | .powerDownEntry .. | .eccLineIdle .. | .rowhammerWindow .. | .sweepComplete .. | .memcBinTargetWrite .. | .binChange ..
  | .segmentSeal .. | .supplyFail .. | .storeExhausted .. | .supplyReturn .. | .chargerVioSample .. | .chargerLimitDown ..
  | .chargerLimitUp .. | .chargerPulseEnd .. | .chargerOcvCheck .. | .ntcRead .. | .lanternPatternTick .. | .linkTestEnd ..
  | .rateChangeStart .. | .backoffEnd .. | .beaconBurst .. | .uclkValid .. | .trainingBlockRx .. | .trainingTimeout ..
  | .ctleSettingStep .. | .dfeAdapt .. | .phaseTrack .. | .prbsWindowEnd .. | .rateIdleEnd .. | .errorInjection .. | .losOnset ..
  | .losClear .. | .losFailure .. | .holdExpiry .. | .alignmentMarkerTx .. | .alignmentMarkerRx .. | .upstreamCodeword ..
  | .requestEntry .. | .doorbell .. | .credit .. | .ack .. | .upstreamTimeCell .. | .trigCell .. | .trainCell ..
  | .downstreamCellSlot .. | .rtoExpiry .. | .chainTimeout .. | .responsePost .. | .completeDrop .. | .sbSubmit .. | .sbDone ..
  | .sbAbort .. | .enec .. | .disec .. | .rstdaa .. | .entdaa .. | .setdasa .. | .setnewda .. | .setmwl .. | .setmrl ..
  | .getmwl .. | .getmrl .. | .getpid .. | .getbcr .. | .getdcr .. | .getstatus .. | .powerOn .. | .porNPulse .. | .vmidFail ..
  | .keeperLoss .. | .refLost .. | .refReturn .. | .lfxtalLoss .. | .lfxtalValid .. | .pllLock .. | .pllLockTimeout ..
  | .pllUnlock .. | .watchdogExpiry .. | .lockstepMismatch .. | .sramUe .. | .tsSample .. | .levelHoldExpiry .. | .squallClear ..
  | .sampleRateReturn .. | .graceExpiry .. | .downTimerExpiry .. | .foghornRepeat .. | .shutdownExit .. | .timerControlAt ..
  | .timerTick .. | .periodEvent .. | .matchEvent .. | .zeroEvent .. | .pinEdgeAccepted .. | .captureEvent .. | .tmrCapLoRead ..
  | .tmrCountRead .. | .fsyncOutEnd .. | .pinTransitionOverrun .. | .drive .. | .xfer .. | .fetch .. | .store .. | .copy ..
  | .imm .. | .loopI .. | .waitI .. | .br .. | .flush .. | .endI .. | .pioIllegal .. | .pioStallEnd .. | .waitTimeout ..
  | .rxqWordMove .. | .piodataPacket .. | .pktUsExpiry .. | .nonceExpiry .. | .fwLoadTimeout .. | .fwHandover ..
  | .rollbackStepWrite .. | .encNAlarm .. | .shieldCheck .. | .vglitch .. | .faultRepeat .. | .converterSelfTest ..
  | .memorySelfTest .. | .linkSelfTest .. | .bistComplete .. | .lfxtalWaitTimeout .. | .dtimeSlewEnd .. | .otpWordProgrammed ..
  | .slowCommandTimeout .. | .prbsSyncAcquired .. | .prbsSyncLoss .. | .chargerRestStart .. | .chargeBudgetExceeded ..
  | .chargeTargetReached .. => none

/-- Well-formedness of a command. -/
def Instr.wf : Instr → Bool
  | .hello c | .getInfo c | .getStatus c | .resetDevice c | .setPowerState c | .getFaults c | .clearFaults c | .readReg c
  | .writeReg c | .timeSync c | .acquireLease c | .releaseLease c | .renewLease c | .setArrayMode c | .setFrameTiming c
  | .setTileExposure c | .setTileGain c | .setGovernor c | .setSlicing c | .setTileEnable c | .commitSettings c | .triggerFrame c
  | .startArray c | .stopArray c | .triggerAt c | .createView c | .modifyView c | .deleteView c | .startView c | .stopView c
  | .getStats c | .configAux c | .auxStatus c | .memStatus c | .memRecover c | .configRing c | .markEvent c | .readRing c
  | .ringStatus c | .releaseSegment c | .configHoldup c | .holdupStatus c | .linkStatus c | .setLinkRate c | .linkTest c
  | .thermalStatus c | .ackFoghorn c | .setThermal c | .configTimer c | .timerControl c | .timerCapture c | .loadPio c
  | .startPio c | .stopPio c | .pioQueue c | .configPins c | .authChallenge c | .authResponse c | .setViewAuth c | .otpRead c
  | .otpProgram c | .otpLockRegion c | .lifecycle c | .fwLoad c => wfCall c
  | .overheadSlot _ samples ramp => wfSamples samples && ramp.length ≤ 192
  | .rowSlot _ samples => wfSamples samples
  | .integrationStart _ _ row _ => row < 512
  | .integrationSlice _ _ row _ => row < 512
  | .spillFetchComplete _ _ _ row _ => row < 512
  | .pipeJobRelease _ _ band group stripe => band ≤ 12 && group < 512 && stripe < 32
  | .auxLongPacket _ _ _ _ _ payload _ => payload.length ≤ 65535
  | .memRequest _ _ _ fma write => fma < 0x3C0000000 && (match write with | some (_, b) => b.length == 64 | none => true)
  | .memAccessComplete _ _ flips chk => flips.all (fun f => f.1 < 68 && 0 < f.2 && f.2 < 256) &&
    chk.all (fun f => f.1 < 64 && 0 < f.2 && f.2 < 256)
  | .refreshRatePoll _ reports => reports.length == 16
  | .sweepComplete _ results => results.length == 104 && results.all (fun r => r.1.1 + r.1.2 ≤ 128 && r.2.1 + r.2.2 ≤ 128)
  | .supplyFail _ vio vcore _ => vio || vcore
  | .supplyReturn _ env _ => wfEnv env
  | .linkTestEnd _ r => r.errors ≤ r.bits && r.bits < 2 ^ 23
  | .powerOn _ env => wfEnv env
  | .trainingBlockRx _ _ block => block.length == 32
  | .dfeAdapt _ _ _ data => data.length == 5
  | .alignmentMarkerRx _ _ marker => marker.length == 16
  | .upstreamCodeword _ _ levels => levels.length == 1360
  | .requestEntry _ _ entry => entry.length == 64
  | .doorbell _ _ body => body.length == 8
  | .credit _ _ body => body.length == 56
  | .ack _ _ body => body.length == 8
  | .upstreamTimeCell _ _ body => body.length == 32
  | .trigCell _ _ body => body.length == 8
  | .trainCell _ _ body => body.length == 8
  | .sbSubmit _ request => request.length ≤ 1024
  | .bistComplete _ (.conv tiles) => tiles.all (fun x => x.2.length == 4 && x.2.all (fun l => l.length == 512 && l.all (fun v => decide (v < 4096))))
  | .bistComplete _ (.units fails) => fails.all (fun d => decide (d < 0x3C0000000 / 64))
  | .bistComplete _ (.lanes errors) => errors.length == 4
  | .tsSample _ reads => reads.length == 16 && reads.all (fun r => r.all (fun v => decide (-32768 ≤ v ∧ v ≤ 32767)))
  | .prbsSyncLoss _ _ rx => rx.length == 64
  | .prbsSyncAcquired _ _ rx => 64 < rx.length
  | .resetBegin .. | .pumpsSettled .. | .leaseExpiry .. | .leaseLapse .. | .triggerAtDue .. | .frameStart ..
  | .exposureLatchPoint .. | .arrayArm .. | .statsComplete .. | .governorOutput .. | .mosaicLineTransfer .. | .pipeJobStart ..
  | .pipeJobComplete .. | .rasterReadbackStart .. | .viewStopDone .. | .frameDropRepeat .. | .skewCalibration ..
  | .auxFrameStart .. | .auxFrameEnd .. | .auxLos .. | .auxLosRecover .. | .auxLate .. | .auxStatsComplete .. | .memPick ..
  | .entryAged .. | .refreshDue .. | .powerDownEntry .. | .eccLineIdle .. | .rowhammerWindow .. | .memcBinTargetWrite ..
  | .binChange .. | .segmentSeal .. | .storeExhausted .. | .chargerVioSample .. | .chargerLimitDown .. | .chargerLimitUp ..
  | .chargerPulseEnd .. | .chargerOcvCheck .. | .ntcRead .. | .lanternPatternTick .. | .rateChangeStart ..
  | .backoffEnd .. | .beaconBurst .. | .uclkValid .. | .trainingTimeout .. | .ctleSettingStep .. | .phaseTrack ..
  | .prbsWindowEnd .. | .rateIdleEnd .. | .errorInjection .. | .losOnset .. | .losClear .. | .losFailure .. | .holdExpiry ..
  | .alignmentMarkerTx .. | .downstreamCellSlot .. | .rtoExpiry .. | .chainTimeout .. | .responsePost .. | .completeDrop ..
  | .sbDone .. | .sbAbort .. | .enec .. | .disec .. | .rstdaa .. | .entdaa .. | .setdasa .. | .setnewda .. | .setmwl ..
  | .setmrl .. | .getmwl .. | .getmrl .. | .getpid .. | .getbcr .. | .getdcr .. | .getstatus .. | .porNPulse .. | .vmidFail ..
  | .keeperLoss .. | .refLost .. | .refReturn .. | .lfxtalLoss .. | .lfxtalValid .. | .pllLock .. | .pllLockTimeout ..
  | .pllUnlock .. | .watchdogExpiry .. | .lockstepMismatch .. | .sramUe .. | .levelHoldExpiry .. | .squallClear ..
  | .sampleRateReturn .. | .graceExpiry .. | .downTimerExpiry .. | .foghornRepeat .. | .shutdownExit .. | .timerControlAt ..
  | .timerTick .. | .periodEvent .. | .matchEvent .. | .zeroEvent .. | .pinEdgeAccepted .. | .captureEvent .. | .tmrCapLoRead ..
  | .tmrCountRead .. | .fsyncOutEnd .. | .pinTransitionOverrun .. | .drive .. | .xfer .. | .fetch .. | .store .. | .copy ..
  | .imm .. | .loopI .. | .waitI .. | .br .. | .flush .. | .endI .. | .pioIllegal .. | .pioStallEnd .. | .waitTimeout ..
  | .rxqWordMove .. | .piodataPacket .. | .pktUsExpiry .. | .nonceExpiry .. | .fwLoadTimeout .. | .fwHandover ..
  | .rollbackStepWrite .. | .encNAlarm .. | .shieldCheck .. | .vglitch .. | .faultRepeat .. | .converterSelfTest ..
  | .memorySelfTest .. | .linkSelfTest .. | .lfxtalWaitTimeout .. | .dtimeSlewEnd .. | .otpWordProgrammed ..
  | .slowCommandTimeout .. | .chargerRestStart .. | .chargeBudgetExceeded .. | .chargeTargetReached .. => true

/-- The instant that a command carries: its start where it is a host command (R340). -/
def Instr.time : Instr → Time
  | .hello c | .getInfo c | .getStatus c | .resetDevice c | .setPowerState c | .getFaults c | .clearFaults c | .readReg c
  | .writeReg c | .timeSync c | .acquireLease c | .releaseLease c | .renewLease c | .setArrayMode c | .setFrameTiming c
  | .setTileExposure c | .setTileGain c | .setGovernor c | .setSlicing c | .setTileEnable c | .commitSettings c | .triggerFrame c
  | .startArray c | .stopArray c | .triggerAt c | .createView c | .modifyView c | .deleteView c | .startView c | .stopView c
  | .getStats c | .configAux c | .auxStatus c | .memStatus c | .memRecover c | .configRing c | .markEvent c | .readRing c
  | .ringStatus c | .releaseSegment c | .configHoldup c | .holdupStatus c | .linkStatus c | .setLinkRate c | .linkTest c
  | .thermalStatus c | .ackFoghorn c | .setThermal c | .configTimer c | .timerControl c | .timerCapture c | .loadPio c
  | .startPio c | .stopPio c | .pioQueue c | .configPins c | .authChallenge c | .authResponse c | .setViewAuth c | .otpRead c
  | .otpProgram c | .otpLockRegion c | .lifecycle c | .fwLoad c => c.start
  | .resetBegin t .. | .pumpsSettled t .. | .leaseExpiry t .. | .leaseLapse t .. | .triggerAtDue t .. | .frameStart t ..
  | .overheadSlot t .. | .rowSlot t .. | .integrationStart t .. | .integrationSlice t .. | .exposureLatchPoint t ..
  | .arrayArm t .. | .statsComplete t .. | .governorOutput t .. | .mosaicLineTransfer t .. | .spillFetchComplete t ..
  | .pipeJobRelease t .. | .pipeJobStart t .. | .pipeJobComplete t .. | .rasterReadbackStart t .. | .viewStopDone t ..
  | .frameDropRepeat t .. | .skewCalibration t .. | .auxFrameStart t .. | .auxFrameEnd t .. | .auxLongPacket t .. | .auxLos t ..
  | .auxLosRecover t .. | .auxLate t .. | .auxStatsComplete t .. | .memRequest t .. | .memPick t .. | .entryAged t ..
  | .memAccessComplete t .. | .refreshDue t .. | .refreshRatePoll t .. | .powerDownEntry t .. | .eccLineIdle t ..
  | .rowhammerWindow t .. | .sweepComplete t .. | .memcBinTargetWrite t .. | .binChange t .. | .segmentSeal t ..
  | .supplyFail t .. | .storeExhausted t .. | .supplyReturn t .. | .chargerVioSample t .. | .chargerLimitDown t ..
  | .chargerLimitUp t .. | .chargerPulseEnd t .. | .chargerOcvCheck t .. | .ntcRead t .. | .lanternPatternTick t ..
  | .linkTestEnd t .. | .rateChangeStart t .. | .backoffEnd t .. | .beaconBurst t .. | .uclkValid t .. | .trainingBlockRx t ..
  | .trainingTimeout t .. | .ctleSettingStep t .. | .dfeAdapt t .. | .phaseTrack t .. | .prbsWindowEnd t .. | .rateIdleEnd t ..
  | .errorInjection t .. | .losOnset t .. | .losClear t .. | .losFailure t .. | .holdExpiry t .. | .alignmentMarkerTx t ..
  | .alignmentMarkerRx t .. | .upstreamCodeword t .. | .requestEntry t .. | .doorbell t .. | .credit t .. | .ack t ..
  | .upstreamTimeCell t .. | .trigCell t .. | .trainCell t .. | .downstreamCellSlot t .. | .rtoExpiry t .. | .chainTimeout t ..
  | .responsePost t .. | .completeDrop t .. | .sbSubmit t .. | .sbDone t .. | .sbAbort t .. | .enec t .. | .disec t ..
  | .rstdaa t .. | .entdaa t .. | .setdasa t .. | .setnewda t .. | .setmwl t .. | .setmrl t .. | .getmwl t .. | .getmrl t ..
  | .getpid t .. | .getbcr t .. | .getdcr t .. | .getstatus t .. | .powerOn t .. | .porNPulse t .. | .vmidFail t ..
  | .keeperLoss t .. | .refLost t .. | .refReturn t .. | .lfxtalLoss t .. | .lfxtalValid t .. | .pllLock t ..
  | .pllLockTimeout t .. | .pllUnlock t .. | .watchdogExpiry t .. | .lockstepMismatch t .. | .sramUe t .. | .tsSample t ..
  | .levelHoldExpiry t .. | .squallClear t .. | .sampleRateReturn t .. | .graceExpiry t .. | .downTimerExpiry t ..
  | .foghornRepeat t .. | .shutdownExit t .. | .timerControlAt t .. | .timerTick t .. | .periodEvent t .. | .matchEvent t ..
  | .zeroEvent t .. | .pinEdgeAccepted t .. | .captureEvent t .. | .tmrCapLoRead t .. | .tmrCountRead t .. | .fsyncOutEnd t ..
  | .pinTransitionOverrun t .. | .drive t .. | .xfer t .. | .fetch t .. | .store t .. | .copy t .. | .imm t .. | .loopI t ..
  | .waitI t .. | .br t .. | .flush t .. | .endI t .. | .pioIllegal t .. | .pioStallEnd t .. | .waitTimeout t ..
  | .rxqWordMove t .. | .piodataPacket t .. | .pktUsExpiry t .. | .nonceExpiry t .. | .fwLoadTimeout t .. | .fwHandover t ..
  | .rollbackStepWrite t .. | .encNAlarm t .. | .shieldCheck t .. | .vglitch t .. | .faultRepeat t .. | .converterSelfTest t ..
  | .memorySelfTest t .. | .linkSelfTest t .. | .bistComplete t .. | .lfxtalWaitTimeout t .. | .dtimeSlewEnd t ..
  | .otpWordProgrammed t .. | .slowCommandTimeout t .. | .prbsSyncAcquired t .. | .prbsSyncLoss t .. | .chargerRestStart t ..
  | .chargeBudgetExceeded t .. | .chargeTargetReached t .. => t

end Sys2Proof
end

