-- ==== Sys2Proof/Safety.lean ====
section
/-! DEFINITION. The terms in which statements are made: when a host command is served, what shape a state keeps, which parts of
the state a command may change, and what a statement says of the bytes of frame memory. -/

namespace Sys2Proof.Machine

/-! ## Commands that are served -/

/-- The device serves the sender of the call, no firmware handover holds commands back, no request handed over earlier waits to start first, the header of
its request breaks no rule, and the sideband takes the opcode (R330, R337, R340, R362, R381, R403). `u` is the state at the command's start. -/
def Served (u : State) (c : Call) (opcode : Nat) : Prop :=
  serves u c.src = true ∧ u.sec.handover = none ∧ inOrder u c opcode .fast = true ∧ jobBad u.fwq c opcode = none ∧
  (c.src = .sideband → sbOpcodes.contains opcode = true)

/-- A served call without an `ARG` byte that its command does not define (R330). -/
def Ready (u : State) (c : Call) (opcode : Nat) : Prop := Served u c opcode ∧ argZero c = none

/-- A SLOW command that no other SLOW command in progress blocks (R341). -/
def ReadySlow (u : State) (c : Call) (opcode : Nat) : Prop := Ready u c opcode ∧ slowBusy u c.src opcode = false

/-- The sender is a port that is no VIEWER and holds a lease at the command's stamp (R348, R349). -/
def HoldsLease (u : State) (c : Call) (p : PortIx) (b : Nat) : Prop :=
  c.src = .port p ∧ portRole u p ≠ .viewer ∧ holderAt u b c.stamp = some p

/-- The port is ACTIVE and entry `e`, which is no repeat after a return, finds a request slot, free or given back by a response of the same instant: `x` is the
entry's stamp, and `w` the state in which the entry has its slot and is remembered (R25, R318, R326, R329). -/
def EntryTaken (u w : State) (t x : Time) (p : PortIx) (e : List Byte) : Prop :=
  u.ports.length = 4 ∧ (u.port p).tr.st = .active ∧
  ((u.port p).mbx.dupLeft = 0 ∨ (u16 e 2, u32 e 12) ∉ (u.port p).mbx.oldRecent) ∧
  ∃ v, takeIn u p tCMD e t = (x, v) ∧ (0 < (u.port p).mbx.reqFree ∨ (u.port p).mbx.reqOwed < slotsDue v p t) ∧
    w = v.modMbx p (fun m => { m.claimReq with dupLeft := m.dupLeft - 1, recent := ((u16 e 2, u32 e 12) :: m.recent).take 32 })

/-- Responses and notes but for their deadlines, which a lack of slots lifts (R339). -/
def bareRsps (l : List Rsp) : List Rsp := l.map (fun r => { r with due := none })
def bareNotes (l : List Note) : List Note := l.map (fun n => { n with due := none })

/-- An OTP_PROGRAM whose length, caller, lifecycle and fields break no rule (R465 to R472, R486). -/
def ProgramReady (u : State) (c : Call) : Prop :=
  ReadySlow u c 0x0911 ∧ programLen c = true ∧ programAllowed u c = true ∧ u.sec.lockStands = false ∧ ∀ x ∈ programChecks u c, x = none

/-! ## Shape -/

/-- The register store is in its one form: addresses strictly rising, and no value that an unlisted address reads as. -/
def storeWf : List (Nat × Nat) → Bool
  | [] => true
  | [x] => decide (x.2 ≠ regReset x.1)
  | x :: y :: r => decide (x.1 < y.1) && decide (x.2 ≠ regReset x.1) && storeWf (y :: r)

/-- The state holds as many of each thing as the spec gives the device: four ports with sixteen streams and five DFE taps each, thirty leases, four aux
inputs of four virtual channels, four PLLs, sixteen views, sixteen timers, eight engines, 192 tiles in every settings set, eight ring segments, sixteen
sensors, and at most 64 log entries (R2, R4, R26, R264, R309, R349, R368, R392, R405). -/
def shapeWf (s : State) : Bool :=
  s.ports.length == 4 && s.ports.all (fun p => p.phy.dfe.length == 5 && p.cr.sent.length == 16) && s.leases.length == 30 &&
  s.aux.length == 4 && s.aux.all (fun a => a.vcs.length == 4) && s.pw.plls.length == 4 && s.pipe.views.length == 16 &&
  s.pio.tmr.length == 16 && s.pio.pe.length == 8 && s.arr.eng.length == 192 && s.arr.staged.tiles.length == 192 &&
  s.arr.active.tiles.length == 192 && (match s.arr.pend with | some c => c.set.tiles.length == 192 | none => true) &&
  s.ring.segs.length == 8 && s.sec.nonces.length == 4 && s.sec.auth.length == 4 && s.sec.failAt.length == 4 &&
  s.th.sensors.length == 16 && s.th.sensors.all (fun x => x.hotRun.length == 4) && decide (s.log.entries.length ≤ 64)

/-- The device boots with a cause and no port holds a lease; unless it waits for the crystal, step 7 of the boot is set and STANDBY follows with
it (R385, R393, R394, R401). -/
def Booted (s' : State) (cause : Nat) : Prop :=
  s'.pw.cause = cause ∧ s'.pw.st = .boot ∧ s'.leases = List.replicate 30 freeLease ∧
    (s'.pw.lfWaitFrom = none → s'.pw.bootStep = 7 ∧ ∀ t' : Time, s'.pw.bootTill ≤ t' → (s'.at t').pw.st = .standby)

/-! ## Frames -/

/-- The parts of the state, but for the queue of waiting commands. -/
inductive Part where
  | clk
  | free
  | regs
  | log
  | leases
  | leaseLog
  | lastArrayHolder
  | arrayLapsed
  | ports
  | sb
  | fwq
  | slow
  | misses
  | diag
  | pw
  | rs
  | otp
  | sec
  | arr
  | pipe
  | aux
  | mem
  | fm
  | ring
  | hold
  | th
  | pio
  deriving DecidableEq, Repr

/-- Every part. -/
def Part.all : List Part :=
  [.clk, .free, .regs, .log, .leases, .leaseLog, .lastArrayHolder, .arrayLapsed, .ports, .sb, .fwq, .slow, .misses, .diag, .pw,
   .rs, .otp, .sec, .arr, .pipe, .aux, .mem, .fm, .ring, .hold, .th, .pio]

/-- A part reads the same in two states. -/
def Part.same (a : Part) (s s' : State) : Prop :=
  match a with
  | .clk => s'.clk = s.clk
  | .free => s'.free = s.free
  | .regs => s'.regs = s.regs
  | .log => s'.log = s.log
  | .leases => s'.leases = s.leases
  | .leaseLog => s'.leaseLog = s.leaseLog
  | .lastArrayHolder => s'.lastArrayHolder = s.lastArrayHolder
  | .arrayLapsed => s'.arrayLapsed = s.arrayLapsed
  | .ports => s'.ports = s.ports
  | .sb => s'.sb = s.sb
  | .fwq => s'.fwq = s.fwq
  | .slow => s'.slow = s.slow
  | .misses => s'.misses = s.misses
  | .diag => s'.diag = s.diag
  | .pw => s'.pw = s.pw
  | .rs => s'.rs = s.rs
  | .otp => s'.otp = s.otp
  | .sec => s'.sec = s.sec
  | .arr => s'.arr = s.arr
  | .pipe => s'.pipe = s.pipe
  | .aux => s'.aux = s.aux
  | .mem => s'.mem = s.mem
  | .fm => s'.fm = s.fm
  | .ring => s'.ring = s.ring
  | .hold => s'.hold = s.hold
  | .th => s'.th = s.th
  | .pio => s'.pio = s.pio

/-- Only the parts listed differ, and the queue of waiting commands does not. -/
def Keeps (l : List Part) (s s' : State) : Prop :=
  s'.pending = s.pending ∧ ∀ a : Part, a ∉ l → a.same s s'

/-- The parts of the state that a command may change, whatever its outcome. `regs` stands for the registers that hardware or a
write changes, `ports` also for a port's mailbox, in which responses and notifications are queued. -/
def touches : Instr → List Part
  | .hello .. | .getInfo .. | .getStatus .. | .getFaults .. | .getStats .. | .auxStatus .. | .memStatus .. | .ringStatus ..
  | .holdupStatus .. | .linkStatus .. | .thermalStatus .. | .timerCapture .. | .otpRead .. =>
    [.clk, .ports, .sb, .fwq]
  | .resetDevice .. =>
    [.clk, .ports, .sb, .fwq, .rs]
  | .resetBegin .. | .sweepComplete .. | .binChange .. | .supplyReturn .. | .powerOn .. | .porNPulse .. | .refReturn ..
  | .watchdogExpiry .. | .lockstepMismatch .. | .sramUe .. | .shutdownExit .. =>
    Part.all
  | .setPowerState .. =>
    [.clk, .regs, .log, .ports, .sb, .fwq, .slow, .diag, .pw, .rs, .arr, .pipe, .aux, .mem, .fm, .ring]
  | .pumpsSettled .. =>
    [.clk, .regs, .log, .ports, .sb, .slow, .diag, .pw, .rs, .arr, .aux]
  | .clearFaults .. =>
    [.clk, .log, .ports, .sb, .fwq]
  | .readReg .. =>
    [.clk, .free, .regs, .ports, .sb, .fwq, .pio]
  | .writeReg .. =>
    [.clk, .free, .regs, .log, .ports, .sb, .fwq, .slow, .diag, .pw, .arr, .pipe, .aux, .mem, .fm, .ring, .hold, .pio]
  | .timeSync .. | .timerControl .. | .pioQueue .. =>
    [.clk, .ports, .sb, .fwq, .pio]
  | .acquireLease .. =>
    [.clk, .regs, .leases, .leaseLog, .lastArrayHolder, .arrayLapsed, .ports, .sb, .fwq, .arr]
  | .releaseLease .. | .renewLease .. =>
    [.clk, .regs, .leases, .leaseLog, .arrayLapsed, .ports, .sb, .fwq]
  | .leaseExpiry .. =>
    [.clk, .regs, .leases, .leaseLog, .arrayLapsed, .ports]
  | .leaseLapse .. =>
    [.clk, .regs, .leases, .leaseLog, .arrayLapsed, .ports, .sec, .pipe]
  | .setArrayMode .. | .setFrameTiming .. | .setTileExposure .. | .setTileGain .. | .setGovernor .. | .setSlicing ..
  | .setTileEnable .. | .startArray .. | .triggerAt .. =>
    [.clk, .ports, .sb, .fwq, .arr]
  | .commitSettings .. =>
    [.clk, .regs, .ports, .sb, .fwq, .arr, .pipe, .mem, .fm, .ring, .th]
  | .triggerFrame .. =>
    [.clk, .regs, .ports, .sb, .fwq, .arr]
  | .stopArray .. =>
    [.clk, .regs, .ports, .sb, .fwq, .arr, .pipe]
  | .triggerAtDue .. | .spillFetchComplete .. =>
    [.clk, .regs, .arr]
  | .frameStart .. =>
    [.clk, .regs, .ports, .arr, .pipe, .ring, .pio]
  | .overheadSlot .. =>
    [.clk, .regs, .log, .ports, .arr]
  | .rowSlot .. =>
    [.clk, .free, .regs, .log, .ports, .arr, .pipe, .mem, .fm]
  | .integrationStart .. | .integrationSlice .. | .arrayArm .. | .governorOutput .. =>
    [.clk, .arr]
  | .exposureLatchPoint .. =>
    [.clk, .regs, .ports, .arr, .pipe, .mem, .ring, .th]
  | .statsComplete .. =>
    [.clk, .regs, .ports, .arr, .th]
  | .mosaicLineTransfer .. =>
    [.clk, .regs, .log, .ports, .arr, .pipe, .mem, .fm]
  | .pipeJobRelease .. =>
    [.clk, .pipe, .mem]
  | .pipeJobStart .. | .rasterReadbackStart .. =>
    [.clk, .pipe]
  | .pipeJobComplete .. | .frameDropRepeat .. =>
    [.clk, .regs, .ports, .pipe]
  | .viewStopDone .. | .auxFrameStart .. =>
    [.clk, .regs, .ports, .pipe, .aux, .mem, .fm, .ring]
  | .createView .. | .stopView .. | .setViewAuth .. =>
    [.clk, .ports, .sb, .fwq, .pipe]
  | .modifyView .. =>
    [.clk, .regs, .ports, .sb, .fwq, .arr, .pipe, .aux]
  | .deleteView .. =>
    [.clk, .ports, .sb, .fwq, .pipe, .mem, .fm, .ring]
  | .startView .. =>
    [.clk, .ports, .sb, .fwq, .pipe, .aux, .mem, .fm]
  | .configAux .. =>
    [.clk, .regs, .log, .ports, .sb, .fwq, .pipe, .aux]
  | .skewCalibration .. =>
    [.clk, .aux]
  | .auxFrameEnd .. =>
    [.clk, .regs, .ports, .pipe, .aux, .mem, .fm]
  | .auxLongPacket .. =>
    [.clk, .free, .regs, .log, .ports, .pipe, .aux, .mem, .fm]
  | .auxLos .. =>
    [.clk, .regs, .log, .ports, .pipe, .aux, .mem, .fm]
  | .auxLosRecover .. =>
    [.clk, .regs, .log, .ports, .aux]
  | .auxLate .. =>
    [.clk, .regs, .ports, .pipe, .aux]
  | .auxStatsComplete .. =>
    [.clk, .ports, .arr, .aux]
  | .memRequest .. | .entryAged .. | .refreshDue .. | .refreshRatePoll .. | .powerDownEntry .. | .eccLineIdle ..
  | .rowhammerWindow .. =>
    [.clk, .mem]
  | .memPick .. =>
    [.clk, .regs, .log, .ports, .mem]
  | .memAccessComplete .. | .memcBinTargetWrite .. | .memRecover .. =>
    [.clk, .regs, .log, .ports, .sb, .fwq, .slow, .pw, .arr, .pipe, .aux, .mem, .fm, .ring]
  | .configRing .. | .markEvent .. | .releaseSegment .. =>
    [.clk, .ports, .sb, .fwq, .mem, .fm, .ring]
  | .readRing .. =>
    [.clk, .ports, .sb, .fwq, .mem]
  | .segmentSeal .. =>
    [.clk, .mem, .fm, .ring]
  | .supplyFail .. | .storeExhausted .. | .vmidFail .. | .keeperLoss .. | .otpWordProgrammed .. =>
    [.clk, .regs, .log, .leases, .leaseLog, .lastArrayHolder, .arrayLapsed, .ports, .sb, .fwq, .slow, .misses, .diag,
      .pw, .rs, .otp, .sec, .arr, .pipe, .aux, .mem, .fm, .ring, .hold, .th, .pio]
  | .configHoldup .. =>
    [.clk, .regs, .log, .ports, .sb, .fwq, .hold]
  | .chargerVioSample .. | .chargerLimitDown .. | .chargerLimitUp .. | .lanternPatternTick .. | .chargeTargetReached .. =>
    [.clk, .hold]
  | .chargerPulseEnd .. | .chargerOcvCheck .. | .ntcRead .. | .chargerRestStart .. | .chargeBudgetExceeded .. =>
    [.clk, .regs, .log, .ports, .hold]
  | .setLinkRate .. | .linkTest .. | .rateChangeStart .. | .losFailure .. | .trainCell .. =>
    [.clk, .free, .regs, .ports, .sb, .fwq, .slow, .pipe]
  | .linkTestEnd .. | .slowCommandTimeout .. =>
    [.clk, .regs, .ports, .sb, .slow]
  | .backoffEnd .. | .beaconBurst .. | .uclkValid .. | .ctleSettingStep .. | .dfeAdapt .. | .phaseTrack .. | .rateIdleEnd ..
  | .alignmentMarkerTx .. | .responsePost .. | .prbsSyncAcquired .. =>
    [.clk, .ports]
  | .trainingBlockRx .. =>
    [.clk, .free, .regs, .ports]
  | .trainingTimeout .. | .prbsWindowEnd .. | .errorInjection .. | .losOnset .. | .losClear .. | .doorbell .. | .credit ..
  | .upstreamTimeCell .. | .chainTimeout .. | .completeDrop .. | .prbsSyncLoss .. =>
    [.clk, .regs, .ports]
  | .holdExpiry .. =>
    [.clk, .ports, .pipe, .aux, .mem, .fm, .ring]
  | .alignmentMarkerRx .. =>
    [.clk, .free, .regs, .leases, .leaseLog, .arrayLapsed, .ports, .sb, .fwq, .slow, .rs, .sec, .pipe, .aux, .mem, .fm,
      .ring]
  | .upstreamCodeword .. | .ack .. =>
    [.clk, .regs, .log, .ports, .sb, .fwq, .rs, .mem]
  | .requestEntry .. =>
    [.clk, .regs, .ports, .fwq]
  | .trigCell .. =>
    [.clk, .regs, .ports, .arr]
  | .downstreamCellSlot .. =>
    [.clk, .free, .regs, .ports, .sb, .fwq, .slow, .misses, .rs, .pipe, .mem, .fm, .ring]
  | .rtoExpiry .. | .faultRepeat .. =>
    [.clk, .regs, .log, .ports]
  | .sbSubmit .. =>
    [.clk, .regs, .sb, .fwq]
  | .sbDone .. =>
    [.clk, .sb, .rs]
  | .sbAbort .. =>
    [.clk, .sb, .fwq]
  | .enec .. | .disec .. | .rstdaa .. | .entdaa .. | .setdasa .. | .setnewda .. | .setmwl .. | .setmrl .. | .getmwl ..
  | .getmrl .. | .getpid .. | .getbcr .. | .getdcr .. =>
    [.clk, .sb]
  | .getstatus .. =>
    [.clk, .free, .sb]
  | .refLost .. =>
    [.clk, .free, .regs, .log, .leases, .leaseLog, .lastArrayHolder, .arrayLapsed, .ports, .sb, .fwq, .slow, .misses,
      .diag, .pw, .rs, .otp, .sec, .arr, .pipe, .aux, .mem, .fm, .ring, .th, .pio]
  | .lfxtalLoss .. =>
    [.clk, .pw]
  | .lfxtalValid .. | .lfxtalWaitTimeout .. =>
    [.clk, .free, .regs, .log, .ports, .sb, .fwq, .slow, .diag, .pw, .rs, .otp, .sec, .arr, .pipe, .aux, .mem, .fm,
      .ring, .hold]
  | .pllLock .. =>
    [.clk, .regs, .ports, .pw, .arr, .pipe]
  | .pllLockTimeout .. | .pllUnlock .. =>
    [.clk, .free, .regs, .log, .ports, .sb, .fwq, .slow, .pw, .arr, .pipe, .aux, .mem, .fm, .ring]
  | .tsSample .. =>
    [.clk, .free, .regs, .log, .ports, .sb, .fwq, .slow, .pw, .rs, .otp, .sec, .arr, .pipe, .aux, .mem, .fm, .ring, .th,
      .pio]
  | .levelHoldExpiry .. | .foghornRepeat .. =>
    [.clk, .regs, .ports, .th]
  | .squallClear .. | .sampleRateReturn .. =>
    [.clk, .th]
  | .graceExpiry .. | .downTimerExpiry .. =>
    [.clk, .regs, .log, .ports, .sb, .fwq, .slow, .pw, .arr, .pipe, .aux, .mem, .fm, .ring, .th]
  | .ackFoghorn .. =>
    [.clk, .ports, .sb, .fwq, .th]
  | .setThermal .. =>
    [.clk, .regs, .ports, .sb, .fwq]
  | .configTimer .. | .loadPio .. | .startPio .. | .configPins .. =>
    [.clk, .regs, .ports, .sb, .fwq, .pio]
  | .timerControlAt .. | .timerTick .. | .periodEvent .. | .matchEvent .. | .zeroEvent .. | .pinEdgeAccepted ..
  | .tmrCapLoRead .. | .tmrCountRead .. | .fsyncOutEnd .. | .pinTransitionOverrun .. | .drive .. | .fetch .. | .copy .. | .imm ..
  | .loopI .. | .waitI .. | .br .. | .endI .. | .rxqWordMove .. =>
    [.clk, .pio]
  | .captureEvent .. =>
    [.clk, .regs, .arr, .pio]
  | .stopPio .. =>
    [.clk, .regs, .log, .ports, .sb, .fwq, .pio]
  | .xfer .. =>
    [.clk, .free, .pio]
  | .store .. | .pioStallEnd .. =>
    [.clk, .regs, .pio]
  | .flush .. | .piodataPacket .. | .pktUsExpiry .. =>
    [.clk, .regs, .ports, .pio]
  | .pioIllegal .. | .waitTimeout .. =>
    [.clk, .regs, .log, .ports, .pio]
  | .authChallenge .. =>
    [.clk, .ports, .sb, .fwq, .sec]
  | .authResponse .. =>
    [.clk, .regs, .log, .leases, .leaseLog, .arrayLapsed, .ports, .sb, .fwq, .otp, .sec, .pipe]
  | .nonceExpiry .. | .fwLoadTimeout .. =>
    [.clk, .sec]
  | .otpProgram .. | .lifecycle .. | .fwLoad .. =>
    [.clk, .regs, .log, .ports, .sb, .fwq, .slow, .otp, .sec, .pipe]
  | .otpLockRegion .. =>
    [.clk, .regs, .ports, .sb, .fwq, .slow, .otp]
  | .fwHandover .. =>
    [.clk, .regs, .ports, .sb, .fwq, .slow, .sec, .arr]
  | .rollbackStepWrite .. =>
    [.clk, .otp]
  | .encNAlarm .. | .shieldCheck .. | .vglitch .. =>
    [.clk, .regs, .log, .ports, .otp, .sec, .pipe]
  | .converterSelfTest .. | .memorySelfTest .. | .linkSelfTest .. =>
    [.clk, .diag]
  | .bistComplete .. =>
    [.clk, .regs, .log, .ports, .diag, .mem, .fm]
  | .dtimeSlewEnd .. =>
    [.clk]

/-- The families of commands, by the chapter of the spec that describes them. -/
inductive Family where
  /-- Identity, leases, time, the fault log, self-tests and registers. -/
  | control
  /-- Exposure, frame timing, tile engines and their settings. -/
  | array
  /-- Views and the pipeline. -/
  | view
  /-- Auxiliary camera inputs. -/
  | aux
  /-- Frame memory. -/
  | memory
  /-- Event retention and hold-up. -/
  | retention
  /-- The host link below the mailboxes. -/
  | link
  /-- Mailboxes and the sideband. -/
  | mailbox
  /-- Power, clocks, resets and boot. -/
  | power
  /-- Thermal management. -/
  | thermal
  /-- Timer channels and pins. -/
  | timer
  /-- PIO engines. -/
  | pio
  /-- One-time-programmable memory and security. -/
  | security
  deriving DecidableEq, Repr

/-- The family of a command. -/
def family : Instr → Family
  | .hello .. | .getInfo .. | .getStatus .. | .resetDevice .. | .setPowerState .. | .pumpsSettled .. | .getFaults ..
  | .clearFaults .. | .readReg .. | .writeReg .. | .timeSync .. | .acquireLease .. | .releaseLease .. | .renewLease ..
  | .leaseExpiry .. | .leaseLapse .. | .faultRepeat .. | .converterSelfTest .. | .memorySelfTest .. | .linkSelfTest ..
  | .dtimeSlewEnd .. | .slowCommandTimeout .. | .bistComplete .. => .control
  | .setArrayMode .. | .setFrameTiming .. | .setTileExposure .. | .setTileGain .. | .setGovernor .. | .setSlicing ..
  | .setTileEnable .. | .commitSettings .. | .triggerFrame .. | .startArray .. | .stopArray .. | .triggerAt .. | .triggerAtDue ..
  | .frameStart .. | .overheadSlot .. | .rowSlot .. | .integrationStart .. | .integrationSlice .. | .exposureLatchPoint ..
  | .arrayArm .. | .statsComplete .. | .governorOutput .. | .mosaicLineTransfer .. | .spillFetchComplete .. => .array
  | .pipeJobRelease .. | .pipeJobStart .. | .pipeJobComplete .. | .rasterReadbackStart .. | .viewStopDone .. | .createView ..
  | .modifyView .. | .deleteView .. | .startView .. | .stopView .. | .getStats .. | .frameDropRepeat .. => .view
  | .configAux .. | .auxStatus .. | .skewCalibration .. | .auxFrameStart .. | .auxFrameEnd .. | .auxLongPacket .. | .auxLos ..
  | .auxLosRecover .. | .auxLate .. | .auxStatsComplete .. => .aux
  | .memRequest .. | .memPick .. | .entryAged .. | .memAccessComplete .. | .refreshDue .. | .refreshRatePoll ..
  | .powerDownEntry .. | .eccLineIdle .. | .rowhammerWindow .. | .memcBinTargetWrite .. | .binChange .. | .memStatus ..
  | .memRecover .. => .memory
  | .configRing .. | .markEvent .. | .readRing .. | .ringStatus .. | .releaseSegment .. | .segmentSeal .. | .configHoldup ..
  | .holdupStatus .. | .chargerVioSample .. | .chargerLimitDown .. | .chargerLimitUp .. | .chargerPulseEnd ..
  | .chargerOcvCheck .. | .ntcRead .. | .lanternPatternTick .. | .chargerRestStart .. | .chargeBudgetExceeded ..
  | .chargeTargetReached .. => .retention
  | .linkStatus .. | .setLinkRate .. | .linkTest .. | .linkTestEnd .. | .rateChangeStart .. | .backoffEnd .. | .beaconBurst ..
  | .uclkValid .. | .trainingBlockRx .. | .trainingTimeout .. | .ctleSettingStep .. | .dfeAdapt .. | .phaseTrack ..
  | .prbsWindowEnd .. | .rateIdleEnd .. | .errorInjection .. | .losOnset .. | .losClear .. | .losFailure .. | .holdExpiry ..
  | .alignmentMarkerTx .. | .alignmentMarkerRx .. | .upstreamCodeword .. | .credit .. | .ack .. | .upstreamTimeCell ..
  | .trigCell .. | .trainCell .. | .downstreamCellSlot .. | .rtoExpiry .. | .prbsSyncAcquired .. | .prbsSyncLoss .. => .link
  | .requestEntry .. | .doorbell .. | .chainTimeout .. | .responsePost .. | .completeDrop .. | .sbSubmit .. | .sbDone ..
  | .sbAbort .. | .enec .. | .disec .. | .rstdaa .. | .entdaa .. | .setdasa .. | .setnewda .. | .setmwl .. | .setmrl ..
  | .getmwl .. | .getmrl .. | .getpid .. | .getbcr .. | .getdcr .. | .getstatus .. => .mailbox
  | .resetBegin .. | .sweepComplete .. | .supplyFail .. | .storeExhausted .. | .supplyReturn .. | .powerOn .. | .porNPulse ..
  | .vmidFail .. | .keeperLoss .. | .refLost .. | .refReturn .. | .lfxtalLoss .. | .lfxtalValid .. | .pllLock ..
  | .pllLockTimeout .. | .pllUnlock .. | .watchdogExpiry .. | .lockstepMismatch .. | .sramUe .. | .shutdownExit ..
  | .lfxtalWaitTimeout .. | .otpWordProgrammed .. => .power
  | .tsSample .. | .levelHoldExpiry .. | .squallClear .. | .sampleRateReturn .. | .graceExpiry .. | .downTimerExpiry ..
  | .foghornRepeat .. | .thermalStatus .. | .ackFoghorn .. | .setThermal .. => .thermal
  | .configTimer .. | .timerControl .. | .timerControlAt .. | .timerCapture .. | .timerTick .. | .periodEvent .. | .matchEvent ..
  | .zeroEvent .. | .pinEdgeAccepted .. | .captureEvent .. | .tmrCapLoRead .. | .tmrCountRead .. | .fsyncOutEnd ..
  | .pinTransitionOverrun .. => .timer
  | .loadPio .. | .startPio .. | .stopPio .. | .pioQueue .. | .configPins .. | .drive .. | .xfer .. | .fetch .. | .store ..
  | .copy .. | .imm .. | .loopI .. | .waitI .. | .br .. | .flush .. | .endI .. | .pioIllegal .. | .pioStallEnd ..
  | .waitTimeout .. | .rxqWordMove .. | .piodataPacket .. | .pktUsExpiry .. => .pio
  | .authChallenge .. | .authResponse .. | .nonceExpiry .. | .setViewAuth .. | .otpRead .. | .otpProgram .. | .otpLockRegion ..
  | .lifecycle .. | .fwLoad .. | .fwLoadTimeout .. | .fwHandover .. | .rollbackStepWrite .. | .encNAlarm .. | .shieldCheck ..
  | .vglitch .. => .security

/-! ## Memory -/

/-- Every byte of frame memory outside `[a, a + n)` reads as before. -/
def SameBytesOutside (s s' : State) (a n : Nat) : Prop :=
  ∀ x : Nat, x < a ∨ a + n ≤ x → fmByte s' x = fmByte s x

/-- Every byte of frame memory reads as before. -/
def SameBytes (s s' : State) : Prop := ∀ x : Nat, fmByte s' x = fmByte s x

end Sys2Proof.Machine
end

