-- ==== Sys2Proof/Certificates/Slice0/Obligations.lean ====
section
/-! DEFINITION. The statements for the provers, each named for what it states. In a statement, `u` is the state at the start of a host
command, or at the instant of an event. -/

open Sys2Proof Sys2Proof.Machine

/-! ## The queue of commands -/

/-- A step takes the command at the front of the queue and carries it out on the queue's rest. On an empty queue the block checks its books (the
model's choice, log entry 1): where every pool balances nothing changes, and a pool that does not raises BOOKS with its number (R24). -/
def Obligations.StepTakesFrontCommand : Prop :=
  (∀ (s : State) (i : Instr) (rest : List Instr), s.pending = i :: rest → step s = exec i { s with pending := rest }) ∧
  (∀ s : State, s.pending = [] → step s = .next (checkBooks s) ∧ (brokenPools s = [] → step s = .next s))

/-- Every command answers a next state in every state, but for a frame-memory request at an address above the 15 GiB that exist, which faults under
that name. -/
def Obligations.OnlyAbsentMemoryStops : Prop :=
  (∀ (i : Instr) (s : State), (∀ t cls inst fma w, i = .memRequest t cls inst fma w → fma < 0x3C0000000) → ∃ s', exec i s = .next s') ∧
  (∀ (s : State) t cls inst fma w, 0x3C0000000 ≤ fma → exec (.memRequest t cls inst fma w) s = .fault (.noSuchAddress fma))

/-- The model's clock never runs backward, and after a command it stands at or after the instant the command carries. No command touches the queue
of waiting commands: only a step takes from it. -/
def Obligations.TimeNeverRunsBackward : Prop :=
  (∀ (i : Instr) (s s' : State), exec i s = .next s' → s.clk.now ≤ s'.clk.now ∧ i.time ≤ s'.clk.now) ∧
  (∀ (i : Instr) (s s' : State), exec i s = .next s' → s'.pending = s.pending)

/-! ## Identity, status, resets (R363 to R366) -/

/-- HELLO, GET_INFO and GET_STATUS answer a port OK with their payloads, and HELLO stores `HOST_VER`. GET_INFO and GET_STATUS change nothing else;
HELLO nothing but its port. RESET_DEVICE of a SAFETY port, or of the sideband while no port is in ACTIVE, posts OK and notes the reset that begins
later (R362, R366); a port without the SAFETY role is refused outside MANUFACTURE and RETURN, and nothing but the answer changes. -/
def Obligations.IdentityAndResetCommandsAnswer : Prop :=
  (∀ (s u : State) (c : Call) (p : PortIx), u = s.at c.start → c.src = .port p → Ready u c 0x0001 → c.payload.length = 8 →
    reserved c.payload 2 6 = none → p.val < u.ports.length →
    ∃ pl, exec (.hello c) s = .next (okWith (u.modMbx p (fun m => { m with hostVer := u16 c.payload 0 })) c 0x0001 .fast pl) ∧
      pl.length = 32 ∧ u16 pl 0 = 0x0100 ∧ u8 pl 2 = p.val ∧ u8 pl 3 = (portRole u p).code ∧ u8 pl 6 = u.sec.life.code ∧
      u8 pl 8 = (u.port p).mbx.reqFree % 256 ∧ u8 pl 9 = (u.port p).mbx.rspFree % 256 ∧
      u64 pl 16 = u.dtime c.start ∧ u32 pl 24 = leaseMap u p c.stamp) ∧
  (∀ (s u : State) (c : Call), u = s.at c.start → Ready u c 0x0002 → c.payload = [] →
    ∃ pl, exec (.getInfo c) s = .next (okWith u c 0x0002 .fast pl) ∧ u16 pl 0 = 0x0192 ∧ u8 pl 2 = 0x10 ∧
      u8 pl 10 = u.pw.devid % 256 ∧ u8 pl 12 = u.sec.life.code ∧ u8 pl 14 = u.sec.killedTiles.length % 256 ∧
      pl.drop 16 = u.sec.uid ++ killedMask u.sec.killedTiles) ∧
  (∀ (s u : State) (c : Call), u = s.at c.start → u.ports.length = 4 → Ready u c 0x0003 → c.payload = [] →
    ∃ pl, exec (.getStatus c) s = .next (okWith u c 0x0003 .fast pl) ∧ u8 pl 0 = u.pw.st.code ∧ u8 pl 2 = memStateCode u ∧
      (∀ p : PortIx, u8 pl (4 + p.val) = (u.port p).tr.st.code) ∧ u32 pl 8 = frameNo u % 2 ^ 32 ∧ u64 pl 32 = u.dtime c.start) ∧
  (∀ (s u : State) (c : Call) (p : PortIx), u = s.at c.start → c.src = .port p → Ready u c 0x0004 → c.payload.length = 4 →
    (openLife u = true ∨ portRole u p = .safety) → u8 c.payload 0 ≤ 1 → reserved c.payload 1 3 = none →
    exec (.resetDevice c) s = .next { okWith u c 0x0004 .fast [] with
      rs := { u.rs with req := some ⟨decide (u8 c.payload 0 = 1), .port p, none⟩ } }) ∧
  (∀ (s u : State) (c : Call), u = s.at c.start → c.src = .sideband → Ready u c 0x0004 → c.payload.length = 4 →
    (openLife u = true ∨ ∀ p : PortIx, u.portActive p = false) → u8 c.payload 0 ≤ 1 → reserved c.payload 1 3 = none →
    exec (.resetDevice c) s = .next { okWith u c 0x0004 .fast [] with
      rs := { u.rs with req := some ⟨decide (u8 c.payload 0 = 1), .sideband, some (c.start + 10 * ms)⟩ } }) ∧
  (∀ (s u : State) (c : Call) (p : PortIx), u = s.at c.start → c.src = .port p → Ready u c 0x0004 → c.payload.length = 4 →
    openLife u = false → portRole u p ≠ .safety → u8 c.payload 0 ≤ 1 → reserved c.payload 1 3 = none →
    exec (.resetDevice c) s = .next (respond u c 0x0004 .fast (if couldGain u .safety then .authRequired else .denied) 0 []))

/-! ## Power states (R341, R367, R383) -/

/-- SET_POWER_STATE of a host with the ARRAY lease or the SAFETY role: to the present state it completes OK and changes nothing else; from ACTIVE to
STANDBY it stops the array, the views and the aux inputs and completes OK; from STANDBY to ACTIVE it starts the pumps, or completes with FAULT where
PLLA is in FAIL. PUMPS_SETTLED 0.5 ms later reaches ACTIVE, or STANDBY where PLLA is in FAIL by then; a SLOW command whose deadline has passed
completes with TIMEOUT (R341, R367, R383). -/
def Obligations.PowerStateCommandsComplete : Prop :=
  (∀ (s u : State) (c : Call), u = s.at c.start → ReadySlow u c 0x0005 → c.payload.length = 4 → reserved c.payload 1 3 = none →
    needLeaseOrSafety u c lARRAY = none → ((u8 c.payload 0 = 2 ∧ u.pw.st = .standby) ∨ (u8 c.payload 0 = 3 ∧ u.pw.st = .active)) →
    exec (.setPowerState c) s = .next (complete (accept u c 0x0005 (50 * ms) (u8 c.payload 0)) c.src 0x0005 c.tag .ok
      [byte (u8 c.payload 0), 0, 0, 0] c.start)) ∧
  (∀ (s u : State) (c : Call), u = s.at c.start → ReadySlow u c 0x0005 → c.payload.length = 4 → reserved c.payload 1 3 = none →
    needLeaseOrSafety u c lARRAY = none → u8 c.payload 0 = 2 → u.pw.st = .active →
    ∃ s', exec (.setPowerState c) s = .next (complete s' c.src 0x0005 c.tag .ok [2, 0, 0, 0] c.start) ∧ s'.pw.st = .standby ∧
      (s'.seq.running = false ∨ s'.seq.stopping = true) ∧ (∀ v : Nat, v < 16 → (s'.view v).started = false) ∧
      ∀ n : AuxIx, (s'.auxIn n.val).st = .off) ∧
  (∀ (s u : State) (c : Call), u = s.at c.start → ReadySlow u c 0x0005 → c.payload.length = 4 → reserved c.payload 1 3 = none →
    needLeaseOrSafety u c lARRAY = none → u8 c.payload 0 = 3 → u.pw.st = .standby → pllOf u 0 = .fail →
    exec (.setPowerState c) s =
      .next (complete (accept u c 0x0005 (50 * ms) 3) c.src 0x0005 c.tag .fault [2, 0, 0, 0] c.start)) ∧
  (∀ (s u : State) (c : Call), u = s.at c.start → ReadySlow u c 0x0005 → c.payload.length = 4 → reserved c.payload 1 3 = none →
    needLeaseOrSafety u c lARRAY = none → u8 c.payload 0 = 3 → u.pw.st = .standby → pllOf u 0 ≠ .fail →
    ∃ s', exec (.setPowerState c) s = .next s' ∧ s'.pw = { u.pw with seen := u.pw.seen ++ [⟨c.start, false, u.rs.settleAt.isSome⟩] } ∧
      s'.rs = { u.rs with settleAt := some (c.start + ms / 2) } ∧
      s'.slow = u.slow ++ [⟨c.src, 0x0005, c.tag, c.stamp + 50 * ms, 3, some (c.stamp + 50 * ms)⟩] ∧ s'.arr = u.arr ∧ s'.pipe = u.pipe) ∧
  (∀ (s u : State) (t d : Time), u = s.at t → u.pw.st = .standby → u.rs.settleAt = some d → d ≤ t →
    ∃ s', exec (.pumpsSettled t) s = .next s' ∧ s'.rs.settleAt = none ∧ s'.pw.st = (if pllOf u 0 = .fail then .standby else .active)) ∧
  (∀ (s u : State) (t : Time) (op : BitVec 16) (j : SlowJob), u = s.at t →
    u.slow.find? (fun j => decide (j.opcode = op.toNat) && decide (j.deadline ≤ t)) = some j →
    exec (.slowCommandTimeout t op) s = .next (complete u j.src j.opcode j.tag .timeout [] t))

/-! ## The fault log (R368, R369, R493, R496) -/

/-- GET_FAULTS returns the entries asked for, and changes nothing but for its answer (R368). CLEAR_FAULTS of a host with the ARRAY lease or the
SAFETY role removes every matching entry that no longer stands, but for one whose fault occurred in the PIO cycle of the command, gives every other
matching entry COUNT 1, keeps the entries that do not match, clears LOST when both fields are 0xFFFF, and answers OK with the number of entries
removed (R369, R493). FAULT_REPEAT reports an entry with further occurrences at most once per second: it sends EVENT 4 where a second has passed,
and then waits for a further occurrence; before that it changes nothing (R496). -/
def Obligations.FaultLogIsReadClearedRepeated : Prop :=
  (∀ (s u : State) (c : Call), u = s.at c.start → Ready u c 0x0006 → c.payload.length = 4 → u16 c.payload 0 ≤ 63 →
    1 ≤ u8 c.payload 2 → u8 c.payload 2 ≤ 47 → u8 c.payload 3 = 0 → u.log.entries.length ≤ 64 →
    ∃ pl, exec (.getFaults c) s = .next (okWith u c 0x0006 .fast pl) ∧ u16 pl 0 = u.log.entries.length ∧ u16 pl 2 = u16 c.payload 0 ∧
      u16 pl 6 = u.log.lost % 65536 ∧
      pl.drop 16 = ((u.log.entries.drop (u16 c.payload 0)).take (u8 c.payload 2)).flatMap faultBytes) ∧
  (∀ (s u : State) (c : Call), u = s.at c.start → Ready u c 0x0007 → c.payload.length = 4 → needLeaseOrSafety u c lARRAY = none →
    ∃ s' pl, exec (.clearFaults c) s = .next (okWith s' c 0x0007 .fast pl) ∧ u16 pl 0 = (u.log.entries.length - s'.log.entries.length) % 65536 ∧
      (∀ e ∈ s'.log.entries, clearMatch (u16 c.payload 0) (u16 c.payload 2) e = true →
        e.count = 1 ∧ (e.stands = true ∨ pioCycle e.lastAt = pioCycle c.start)) ∧
      (∀ e ∈ u.log.entries, clearMatch (u16 c.payload 0) (u16 c.payload 2) e = false → e ∈ s'.log.entries) ∧
      (∀ e ∈ u.log.entries, e.stands = true → ∃ e' ∈ s'.log.entries, e'.code = e.code ∧ e'.inst = e.inst ∧ e'.stands = true) ∧
      (u16 c.payload 0 = 0xFFFF → u16 c.payload 2 = 0xFFFF → s'.log.lost = 0) ∧
      (¬(u16 c.payload 0 = 0xFFFF ∧ u16 c.payload 2 = 0xFFFF) → s'.log.lost = u.log.lost)) ∧
  (∀ (s u : State) (t : Time) (code inst : BitVec 16) (i : Nat) (e : FaultEntry), u = s.at t →
    u.log.entries.findIdx? (fun e => decide (e.code = code.toNat) && decide (e.inst = inst.toNat) && e.repeated && decide (e.lastNote + sec ≤ t)) = some i →
    u.log.entries[i]? = some e →
    exec (.faultRepeat t code inst) s =
      .next (notifyFault { u with log := { u.log with entries := modAt u.log.entries i (fun e => { e with repeated := false, lastNote := t }) } }
        { e with repeated := false, lastNote := t } 4 t)) ∧
  (∀ (s u : State) (t : Time) (code inst : BitVec 16), u = s.at t →
    (∀ e ∈ u.log.entries, e.code = code.toNat → e.inst = inst.toNat → t < e.lastNote + sec) →
    exec (.faultRepeat t code inst) s = .next u)

/-! ## DTIME (R10, R370) -/

/-- TIME_SYNC of a host with the ARRAY lease or the SAFETY role: STEP adds θ of the named port to DTIME at the command's start and sets the
synchronised flag; SLEW leaves DTIME where it is and starts absorbing θ; DTIME_SLEW_END ends a slew whose θ has been absorbed, with DTIME unbroken
(R370). -/
def Obligations.TimeSyncStepsAndSlews : Prop :=
  (∀ (s u : State) (c : Call) (p : PortIx), u = s.at c.start → Ready u c 0x0020 → c.payload.length = 8 →
    reserved c.payload 2 6 = none → needLeaseOrSafety u c lARRAY = none → u8 c.payload 0 = p.val → u8 c.payload 1 = 0 →
    (u.port p).lt.valid = true → c.start ≤ (u.port p).lt.lastCell + 100 * ms →
    arrayRunning u = false → trigAtPending u = false → ringOpenSegment u = false →
    ∃ s' pl, exec (.timeSync c) s = .next (okWith s' c 0x0020 .fast pl) ∧ s'.clk.synced = true ∧ s'.clk.slew = 0 ∧
      s'.dtime c.start = unsigned 64 ((u.dtime c.start : Int) + (u.port p).lt.theta) ∧ Keeps [.clk] u s') ∧
  (∀ (s u : State) (c : Call) (p : PortIx), u = s.at c.start → Ready u c 0x0020 → c.payload.length = 8 →
    reserved c.payload 2 6 = none → needLeaseOrSafety u c lARRAY = none → u8 c.payload 0 = p.val → u8 c.payload 1 = 1 →
    (u.port p).lt.valid = true → c.start ≤ (u.port p).lt.lastCell + 100 * ms → (u.port p).lt.theta.natAbs ≤ 10000000 →
    ∃ s' pl, exec (.timeSync c) s = .next (okWith s' c 0x0020 .fast pl) ∧ s'.clk.synced = true ∧ s'.clk.slew = (u.port p).lt.theta ∧
      s'.dtime c.start = u.dtime c.start ∧ Keeps [.clk] u s') ∧
  (∀ (s u : State) (t : Time), u = s.at t → u.clk.slew ≠ 0 → slewLeft u.clk t = 0 →
    ∃ s', exec (.dtimeSlewEnd t) s = .next s' ∧ s'.clk.slew = 0 ∧ s'.dtime t = u.dtime t ∧ Keeps [.clk] u s')

/-! ## Leases (R349 to R353, R371 to R373) -/

/-- ACQUIRE_LEASE grants a lease that is free or the caller's own, and with PREEMPT a SAFETY host takes one from a host without that role;
RENEW_LEASE restarts the term of each lease that it names and the caller still holds, RELEASE_LEASE frees each; code 0xFF names all that the caller
holds. The other leases stay (R350, R351, R371 to R373). A command stamped before a change of holder sees the holder before it (R340, R353). A lease
whose term has run out becomes free at LEASE_EXPIRY, and every lease of a port that dropped 250 ms ago without a return at LEASE_LAPSE; the leases
of other ports stay (R351, R352). -/
def Obligations.LeasesAreGrantedAndEnd : Prop :=
  (∀ (s u : State) (c : Call) (p : PortIx) (b : Nat), u = s.at c.start → c.src = .port p → Ready u c 0x0100 → c.payload.length = 8 →
    portRole u p ≠ .viewer → leaseBit (u8 c.payload 0) = some b → reservedBits c.payload 1 0xFE = none → reserved c.payload 2 2 = none →
    termOk (u32 c.payload 4) = true → u.leases.length = 30 →
    (acquireHolder u b c.stamp = none ∨ acquireHolder u b c.stamp = some p ∨
      ∃ q : PortIx, acquireHolder u b c.stamp = some q ∧ portRole u p = .safety ∧ bit (u8 c.payload 1) 0 = true ∧ portRole u q ≠ .safety) →
    ∃ s' pl, exec (.acquireLease c) s = .next (okWith s' c 0x0100 .fast pl) ∧ (s'.lease b).holder = some p ∧
      (s'.lease b).expires = (if u32 c.payload 4 = 0 then none else some (c.start + u32 c.payload 4 * ms)) ∧
      ∀ b' : Nat, b' ≠ b → s'.lease b' = u.lease b') ∧
  (∀ (s u : State) (c : Call) (p : PortIx), u = s.at c.start → c.src = .port p → Ready u c 0x0102 → c.payload.length = 8 →
    reserved c.payload 1 3 = none → termOk (u32 c.payload 4) = true → u.leases.length = 30 → namedLeases u c (u8 c.payload 0) ≠ [] →
    (∀ b ∈ namedLeases u c (u8 c.payload 0), (u.lease b).holder = some p ∧ leaseEnd u b c.start = none) →
    ∃ s' pl, exec (.renewLease c) s = .next (okWith s' c 0x0102 .fast pl) ∧ u32 pl 0 = leaseBits (namedLeases u c (u8 c.payload 0)) ∧
      ∀ b : Nat, s'.lease b = if b ∈ namedLeases u c (u8 c.payload 0) then
        { u.lease b with expires := (termOf u (u32 c.payload 4) c.start).1, expDtime := (termOf u (u32 c.payload 4) c.start).2 } else u.lease b) ∧
  (∀ (s u : State) (c : Call) (p : PortIx), u = s.at c.start → c.src = .port p → Ready u c 0x0101 → c.payload.length = 4 →
    reserved c.payload 1 3 = none → u.leases.length = 30 → namedLeases u c (u8 c.payload 0) ≠ [] →
    (∀ b ∈ namedLeases u c (u8 c.payload 0), (u.lease b).holder = some p ∧ leaseEnd u b c.start = none) →
    ∃ s', exec (.releaseLease c) s = .next (okWith s' c 0x0101 .fast (leBytes 4 (leaseBits (namedLeases u c (u8 c.payload 0))))) ∧
      ∀ b : Nat, s'.lease b = if b ∈ namedLeases u c (u8 c.payload 0) then freeLease else u.lease b) ∧
  (∀ (u : State) (b : Nat) (p : PortIx) (term : Nat) (t stamp : Time), stamp < t → leaseEnd u b stamp = none → (u.lease b).holder ≠ some p →
    holderAt (grantLease u b p term t) b stamp = holderAt u b stamp) ∧
  (∀ (u : State) (b ev : Nat) (p : PortIx) (t stamp : Time), stamp < t → leaseEnd u b stamp = none → (u.lease b).holder = some p →
    holderAt (dropLease u b ev t) b stamp = holderAt u b stamp) ∧
  (∀ (s u : State) (t e : Time) (r : Fin 30), u = s.at t → u.leases.length = 30 → (u.lease r.val).holder.isSome = true →
    (u.lease r.val).expires = some e → e ≤ t → u.ports.length = 4 →
    (∀ (p : PortIx) (d : Time), (u.lease r.val).holder = some p → (u.port p).dropAt = some d → e ≤ d + 250 * ms) →
    ∃ s', exec (.leaseExpiry t r) s = .next s' ∧ s'.lease r.val = freeLease ∧ (∀ b : Nat, b ≠ r.val → s'.lease b = u.lease b) ∧
      ∀ p : PortIx, ∃ n : Note, (s'.port p).mbx.notes.getLast? = some n ∧ n.code = 0x8006 ∧ u8 n.payload 0 = leaseCode r.val ∧
        u8 n.payload 1 = 5) ∧
  (∀ (u : State) (b : Nat) (e stamp : Time), (u.lease b).expires = some e → e ≤ stamp → (∀ x ∈ u.leaseLog, x.b = b → x.at_ ≤ stamp) →
    holderAt u b stamp = none) ∧
  (∀ (s u : State) (c : Call) (p : PortIx), u = s.at c.start → c.src = .port p → Ready u c 0x0102 → c.payload.length = 8 →
    (leaseBit (u8 c.payload 0)).isSome = true → namedLeases u c (u8 c.payload 0) ≠ [] → reserved c.payload 1 3 = none → 0 < u32 c.payload 4 →
    (u32 c.payload 4 < 100 ∨ 60000 < u32 c.payload 4) →
    exec (.renewLease c) s = .next (respond u c 0x0102 .fast .badArg 4 [])) ∧
  (∀ (s u : State) (c : Call) (p : PortIx), u = s.at c.start → c.src = .port p → Ready u c 0x0100 → c.payload.length = 8 →
    portRole u p ≠ .viewer → (leaseBit (u8 c.payload 0)).isSome = true → reservedBits c.payload 1 0xFE = none →
    reserved c.payload 2 2 = none → 0 < u32 c.payload 4 → (u32 c.payload 4 < 100 ∨ 60000 < u32 c.payload 4) →
    acquireHolder u ((leaseBit (u8 c.payload 0)).getD 30) c.stamp = none →
    exec (.acquireLease c) s = .next (respond u c 0x0100 .fast .badArg 4 [])) ∧
  (∀ (s u : State) (t d : Time) (p : PortIx), u = s.at t → u.leases.length = 30 → (u.port p).dropAt = some d → d + 250 * ms ≤ t →
    ∃ s', exec (.leaseLapse t p) s = .next s' ∧
      ∀ b : Nat, b < 30 → ((u.lease b).holder = some p → s'.lease b = freeLease) ∧ ((u.lease b).holder ≠ some p → s'.lease b = u.lease b))

/-! ## Self-tests (R500 to R502, R505) -/

/-- Each self-test starts where none runs and its condition holds, changing nothing but the state of the test, and BIST_COMPLETE ends it with its
result in `DIAG_BIST` and the count of failures in `DIAG_BIST_FAIL`; the memory test leaves frame memory undefined, and failures of the memory and
link tests raise MEM_BIST and LINK_BIST. -/
def Obligations.SelfTestsStartAndEnd : Prop :=
  (∀ (s u : State) (t : Time), u = s.at t → u.diag.run = 0 → arrayRunning u = false →
    exec (.converterSelfTest t) s = .next { u with diag := ⟨1, 0, t⟩ }) ∧
  (∀ (s u : State) (t : Time), u = s.at t → u.diag.run = 0 → openLife u = true → memRunning u = true → noStores u = true → noSealed u = true →
    exec (.memorySelfTest t) s = .next { u with diag := ⟨2, 0, t⟩ }) ∧
  (∀ (s u : State) (t : Time), u = s.at t → u.diag.run = 0 → linkBistOk u = true →
    exec (.linkSelfTest t) s = .next { u with diag := ⟨3, u.fld aDIAG_BIST 21 20, t⟩ }) ∧
  (∀ (s u : State) (t : Time) (tiles : List (TileIx × List (List Nat))) (fails : List Nat), u = s.at t → u.diag.run = 1 → storeWf u.regs = true →
    tiles.map (fun x => x.1) = allTiles.filter (fun k => (enOf u u.arr.active).getD k.val false) →
    fails = tiles.flatMap (fun x => (badColumns x.2).map (fun c => 512 * x.1.val + c)) → fails.length < 2 ^ 32 →
    ∃ s', exec (.bistComplete t (.conv tiles)) s = .next s' ∧ s'.diag.run = 0 ∧
      s'.fld aDIAG_BIST 26 24 = (if fails = [] then 1 else 2) ∧ s'.reg aDIAG_BIST_FAIL = fails.length) ∧
  (∀ (s u : State) (t : Time) (fails : List Nat), u = s.at t → u.diag.run = 2 → fails.length < 2 ^ 32 → storeWf u.regs = true → u.mem.wait = [] →
    ∃ s', exec (.bistComplete t (.units fails)) s = .next s' ∧ s'.diag.run = 0 ∧
      s'.fld aDIAG_BIST 26 24 = (if fails = [] then 1 else 2) ∧ s'.reg aDIAG_BIST_FAIL = fails.length ∧ s'.fm = [] ∧
      (∀ a : Nat, a < fmSize → fmByte s' a = Config.freeByte (s'.mem.gen * 2 ^ 34 + a)) ∧
      (fails ≠ [] → u.log.entries.length < 64 → ∃ e ∈ s'.log.entries, e.code = fMEM_BIST)) ∧
  (∀ (s u : State) (t : Time) (errors : List Nat), u = s.at t → u.diag.run = 3 → errors.length = 4 → storeWf u.regs = true →
    ∃ s', exec (.bistComplete t (.lanes errors)) s = .next s' ∧ s'.diag.run = 0 ∧
      s'.fld aDIAG_BIST 26 24 = (if errors.all (fun n => decide (n = 0)) then 1 else 2) ∧
      s'.reg aDIAG_BIST_FAIL = (errors.filter (fun n => decide (0 < n))).length ∧
      (errors.any (fun n => decide (0 < n)) = true → u.log.entries.length < 64 →
        ∃ e ∈ s'.log.entries, e.code = fLINK_BIST ∧ e.inst = u.diag.runPort))

/-! ## Registers (R355, R356) -/

/-- READ_REG of up to 11 addresses of one or more blocks answers OK with their values, one after the other, and PEEKED; without PEEK a register
counter that the caller may clear reads its count and is 0 after. READ_REG of one listed register with PEEK returns its value and changes nothing
but for its answer; PEEKED tells whether the register has an RC field. A read that touches the SEC block is DENIED with a value of 0 (R355). Timer
counters, the watchdog's count, the count of corrected SRAM errors and pin levels, whose reads act or show a free value, are left to a statement of
their own. -/
def Obligations.ReadRegPeeks : Prop :=
  (∀ (s u : State) (c : Call) (a n f : Nat) (l : List Nat), u = s.at c.start → Ready u c 0x0010 →
    c.payload = leBytes 4 a ++ [byte n, byte f, 0, 0] → a + 44 ≤ 2 ^ 32 → a % 4 = 0 → 1 ≤ n → n ≤ 11 → f ≤ 1 →
    l = (List.range n).map (fun k => a + 4 * k) → (∀ x ∈ l, (blockOf x).isSome = true ∧ blockOf x ≠ some .sec) →
    exec (.readReg c) s = .next (okWith (readRun c (decide (f = 1)) l u).2.2 c 0x0010 .fast
      (leBytes 4 a ++ [byte (b2n (readRun c (decide (f = 1)) l u).2.1), 0, 0, 0] ++ (readRun c (decide (f = 1)) l u).1.flatMap (leBytes 4)))) ∧
  (∀ (s u : State) (c : Call), u = s.at c.start → Ready u c 0x0010 → c.payload = leBytes 4 aDIAG_MOSAIC_DROP ++ [1, 0, 0, 0] →
    clears u c aDIAG_MOSAIC_DROP = true → storeWf u.regs = true →
    ∃ s', exec (.readReg c) s = .next (okWith s' c 0x0010 .fast
        (leBytes 4 aDIAG_MOSAIC_DROP ++ [0, 0, 0, 0] ++ leBytes 4 (u.reg aDIAG_MOSAIC_DROP))) ∧
      s'.reg aDIAG_MOSAIC_DROP = 0 ∧ ∀ b : Nat, b ≠ aDIAG_MOSAIC_DROP → s'.reg b = u.reg b) ∧
  (∀ (s u : State) (c : Call) (a : Nat) (d : RegDef), u = s.at c.start → Ready u c 0x0010 →
    c.payload = leBytes 4 a ++ [1, 1, 0, 0] → a < 2 ^ 32 → a % 4 = 0 → regAt a = some d → (blockOf a).isSome = true → blockOf a ≠ some .sec →
    blockOf a ≠ some .tmr → a ≠ aPCLK_WDT → a ≠ aPCLK_SRAM → a ≠ aPIO_IN 0 → a ≠ aPIO_IN 1 →
    exec (.readReg c) s = .next (okWith u c 0x0010 .fast
      (leBytes 4 a ++ [byte (b2n (d.flds.any (fun f => decide (f.acc = .rc)))), 0, 0, 0] ++ leBytes 4 (shown u a c.start)))) ∧
  (∀ (s u : State) (c : Call) (a : Nat), u = s.at c.start → Served u c 0x0010 → c.payload = leBytes 4 a ++ [1, 1, 0, 0] → a < 2 ^ 32 →
    blockOf a = some .sec →
    exec (.readReg c) s = .next (respond u c 0x0010 .fast .denied 0 (leBytes 4 a ++ zeros 4 ++ zeros 4)))

/-- WRITE_REG of one to four triples that pass their checks writes each in turn and answers OK. A write of a THERM register makes it (old AND NOT
MASK) OR (VALUE AND MASK), where the mask covers writable bits and every check passes; when a triple fails, none is written (R356). -/
def Obligations.WriteRegMergesOrRefusesAsAWhole : Prop :=
  (∀ (s u : State) (c : Call) (n : Nat) (l : List (Nat × (Nat × Nat × Nat))), u = s.at c.start → Ready u c 0x0011 → 1 ≤ n → n ≤ 4 →
    c.payload.length = 12 * n → u.sec.untrusted = false → l = (List.range n).map (fun k => (k, tripleAt c.payload k)) →
    (∀ x ∈ writeChecks c l u, x = none) →
    exec (.writeReg c) s = .next (okWith (l.foldl (fun s x => writeTriple s c x.2) u) c 0x0011 .fast [])) ∧
  (∀ (s u : State) (c : Call) (a v m : Nat) (r : RegDef), u = s.at c.start → Ready u c 0x0011 →
    c.payload = leBytes 4 a ++ leBytes 4 v ++ leBytes 4 m → a < 2 ^ 32 → v < 2 ^ 32 → m < 2 ^ 32 → u.sec.untrusted = false →
    regAt a = some r → blockOf a = some .therm → m ≠ 0 → Nat.land m (writable r) = m → writable r < 2 ^ 32 → storeWf u.regs = true →
    (∀ x ∈ tripleChecks u c 0 (a, v, m), x = none) →
    ∃ s', exec (.writeReg c) s = .next s' ∧
      s'.reg a = Nat.lor (Nat.land (shown u a c.start) (writable r - m)) (Nat.land v m) ∧ ∀ b : Nat, b ≠ a → s'.reg b = u.reg b) ∧
  (∀ (s u : State) (c : Call) (r : Reject), u = s.at c.start → Ready u c 0x0011 → c.payload.length = 24 → u.sec.untrusted = false →
    judge (writeChecks c [(0, tripleAt c.payload 0), (1, tripleAt c.payload 1)] u) = some r →
    exec (.writeReg c) s = .next (respond u c 0x0011 .fast r.status r.detail [])) ∧
  (∀ (s u : State) (c : Call), u = s.at c.start → Ready u c 0x0011 → c.payload.length = 12 → u.sec.untrusted = true →
    blockOf (u32 c.payload 0) = some .therm →
    exec (.writeReg c) s = .next (respond u c 0x0011 .fast .denied 0 []))

/-! ## Resets (R366, R378, R393, R395, R402, R414) -/

/-- Each reset source boots the device with its cause code: no port holds a lease, and the boot reaches STANDBY with its step 7 unless it waits in
BOOT for the crystal. A cold one leaves frame memory without a stored byte (R393, R394). A POR_N pulse shorter than 10 µs is ignored; a longer one
in DUSK, BUOY or DAWN is latched and changes nothing else (R378, R396). While REF is lost, it leaves the device in BOOT with cause 2 until REF is
back (the model's choice, log entry 86). -/
def Obligations.ResetSourcesBootWithTheirCause : Prop :=
  (∀ (s u : State) (t : Time) (env : BootEnv), u = s.at t → (u.pw.st = .off ∨ (u.pw.st = .boot ∧ u.pw.bootStep = 0 ∧ u.pw.refLost = false)) →
    ∃ s', exec (.powerOn t env) s = .next s' ∧ Booted s' (if u.pw.started then 3 else 1) ∧ s'.fm = []) ∧
  (∀ (s u : State) (t w : Time), u = s.at t → 10 * us ≤ w → u.pw.st ≠ .off → u.pw.st ≠ .dusk → u.pw.st ≠ .buoy → u.pw.st ≠ .dawn →
    u.pw.refLost = false → ∃ s', exec (.porNPulse t w) s = .next s' ∧ Booted s' 2 ∧ s'.fm = []) ∧
  (∀ (s u : State) (t d : Time) (r : ResetReq), u = s.at t → cpuRuns u = true → u.rs.req = some r → r.due = some d → d ≤ t →
    ∃ s', exec (.resetBegin t) s = .next s' ∧ Booted s' (if r.cold then 5 else 4) ∧ (r.cold = true → s'.fm = [])) ∧
  (∀ (s u : State) (t : Time), u = s.at t → cpuRuns u = true → u.clk.upSince + u.fld aPCLK_WDT 31 16 * ms ≤ t →
    ∃ s', exec (.watchdogExpiry t) s = .next s' ∧ Booted s' 6) ∧
  (∀ (s u : State) (t : Time), u = s.at t → cpuRuns u = true → ∃ s', exec (.lockstepMismatch t) s = .next s' ∧ Booted s' 7) ∧
  (∀ (s u : State) (t : Time), u = s.at t → cpuRuns u = true → ∃ s', exec (.sramUe t) s = .next s' ∧ Booted s' 8) ∧
  (∀ (s u : State) (t : Time) (khz : Nat), u = s.at t → u.pw.refLost = true → u.pw.refLostAt + ms ≤ t →
    ∃ s', exec (.refReturn t khz) s = .next s' ∧ Booted s' 9 ∧ s'.fm = []) ∧
  (∀ (s u : State) (t a b : Time), u = s.at t → u.pw.st = .shutdown → u.th.shutAt = some a → u.th.coolAt = some b → a + sec ≤ t → b + sec ≤ t →
    ∃ s', exec (.shutdownExit t) s = .next s' ∧ Booted s' 10 ∧ s'.fm = []) ∧
  (∀ (s : State) (t w : Time), w < 10 * us → exec (.porNPulse t w) s = .next (s.at t)) ∧
  (∀ (s u : State) (t w : Time), u = s.at t → 10 * us ≤ w → (u.pw.st = .dusk ∨ u.pw.st = .buoy ∨ u.pw.st = .dawn) →
    exec (.porNPulse t w) s = .next { u with rs := { u.rs with porLatched := true } }) ∧
  (∀ (s u : State) (t w : Time), u = s.at t → 10 * us ≤ w → u.pw.st ≠ .off → u.pw.st ≠ .dusk → u.pw.st ≠ .buoy → u.pw.st ≠ .dawn → u.pw.refLost = true →
    ∃ s', exec (.porNPulse t w) s = .next s' ∧ s'.pw.st = .boot ∧ s'.pw.cause = 2 ∧ s'.pw.refLost = true ∧ s'.fm = [] ∧
      s'.leases = List.replicate 30 freeLease)

/-! ## Supplies (R228 to R233, R379, R380, R529) -/

/-- A supply failure begins a Dusk where Dusk may run: DUSK until its commit 10 ms after D, then BUOY; in SHUTDOWN the commit comes at D; in DAWN
nothing is written and the Keeper's mask stands. A word of OTP in progress ends first. Where Dusk may not run, it leads to OFF without frame-memory
contents. VMID_FAIL leads to OFF and is kept by the Keeper, but before step 3 of Dawn it is a supply loss; KEEPER_LOSS leads to OFF and clears what
the Keeper held; an exhausted store ends BUOY in OFF with the ring lost (R228, R230, R232 to R234, R379 to R381, R465, R529). SUPPLY_RETURN in BUOY,
or in DUSK at its commit, 1 ms or more after all supplies came back, begins Dawn with cause 11: DAWN waits for the loopback check of frame memory,
or, without PLLM, frame memory is unavailable and the boot goes on. Where the check (BIN_CHANGE, 3.4 ms after the supplies are good at the earliest)
succeeds, the boot goes on, and a reset pulse that was latched is carried out; where it fails, DAWN waits for the sweep of frame memory. A
SWEEP_COMPLETE in which every lane's window is wide enough stores the table; otherwise the next lower speed bin is swept, and below the lowest frame
memory is unavailable; in DAWN the boot goes on after it (R203 to R205, R231, R233, R393, R396). -/
def Obligations.SuppliesFailAndReturn : Prop :=
  (∀ (s u : State) (t : Time) (vio vcore : Bool) (uj : Nat), u = s.at t → s.clk.now ≤ t → (vio || vcore) = true → u.pw.st ≠ .off → u.pw.st ≠ .dusk →
    u.pw.st ≠ .buoy → u.pw.st ≠ .shutdown → inDawn u t = false → u.otp.stopDusk = none → u.otp.jobs = [] → duskOk u = true →
    ∃ s', exec (.supplyFail t vio vcore uj) s = .next s' ∧ s'.pw.st = .dusk ∧ s'.mem.st = .retain ∧
      s'.hold.duskCause = b2n vio + 2 * b2n vcore ∧ s'.hold.buoyFrom = t + 10 * ms ∧ s'.hold.duskUs = 10000 ∧
      ∀ t' : Time, t + 10 * ms ≤ t' → (s'.at t').pw.st = .buoy) ∧
  (∀ (s u : State) (t : Time) (vio vcore : Bool) (uj : Nat), u = s.at t → s.clk.now ≤ t → (vio || vcore) = true → u.pw.st = .shutdown →
    inDawn u t = false → u.otp.stopDusk = none → u.otp.jobs = [] → duskOk u = true →
    ∃ s', exec (.supplyFail t vio vcore uj) s = .next s' ∧ s'.pw.st = .buoy ∧ s'.mem.st = .retain ∧ s'.hold.buoyFrom = t) ∧
  (∀ (s u : State) (t : Time) (vio vcore : Bool) (uj : Nat), u = s.at t → s.clk.now ≤ t → (vio || vcore) = true → inDawn u t = true → u.pw.st ≠ .off →
    u.pw.st ≠ .dusk → u.pw.st ≠ .buoy → u.otp.stopDusk = none → u.otp.jobs = [] → duskOk u = true →
    ∃ s', exec (.supplyFail t vio vcore uj) s = .next s' ∧ s'.pw.st = .dusk ∧ s'.mem.st = .retain ∧ s'.hold.pasr = u.hold.pasr ∧ s'.hold.result = 1) ∧
  (∀ (s u : State) (t : Time) (vio vcore : Bool) (uj : Nat), u = s.at t → (vio || vcore) = true → u.pw.st ≠ .off → u.pw.st ≠ .dusk →
    u.pw.st ≠ .buoy → u.otp.stopDusk = none → u.otp.jobs ≠ [] → duskOk u = true →
    exec (.supplyFail t vio vcore uj) s = .next { u with otp := { u.otp with stopDusk := some (t, vio, vcore, uj) } }) ∧
  (∀ (s u : State) (t : Time) (vio vcore : Bool) (uj : Nat), u = s.at t → (vio || vcore) = true → u.pw.st ≠ .off → u.pw.st ≠ .dusk →
    u.pw.st ≠ .buoy → u.otp.stopDusk = none → duskOk u = false →
    ∃ s', exec (.supplyFail t vio vcore uj) s = .next s' ∧ s'.pw.st = .off ∧ s'.fm = []) ∧
  (∀ (s u : State) (t : Time), u = s.at t → u.pw.st ≠ .off → u.pw.st ≠ .dusk → u.pw.st ≠ .buoy → inDawn u t = false →
    ∃ s', exec (.vmidFail t) s = .next s' ∧ s'.pw.st = .off ∧ s'.fm = [] ∧ (fVMID_LOW, 0) ∈ s'.rs.keepFaults) ∧
  (∀ (s u : State) (t sg : Time), u = s.at t → s.clk.now ≤ t → u.pw.st ≠ .off → u.pw.st ≠ .dusk → u.pw.st ≠ .buoy → inDawn u t = true →
    u.pw.dawnFrom = some sg → t < sg + 3 * ms → duskOk u = true →
    ∃ s', exec (.vmidFail t) s = .next s' ∧ s'.pw.st = .dusk ∧ s'.mem.st = .retain ∧ s'.hold.pasr = u.hold.pasr) ∧
  (∀ (s u : State) (t : Time), u = s.at t → u.pw.st ≠ .dusk → u.pw.st ≠ .buoy → u.pw.st ≠ .dawn →
    ∃ s', exec (.keeperLoss t) s = .next s' ∧ s'.pw.st = .off ∧ s'.fm = [] ∧ s'.hold = Hold.reset ∧ s'.rs.keepFaults = [] ∧
      s'.pw.cause = 0 ∧ s'.sec.killLatch = false) ∧
  (∀ (s u : State) (t : Time), u = s.at t → u.pw.st = .buoy →
    ∃ s', exec (.storeExhausted t) s = .next s' ∧ s'.pw.st = .off ∧ s'.fm = [] ∧ s'.hold = Hold.reset ∧
      s'.rs.ringLost = decide (u.ring.nAs ≠ 0)) ∧
  (∀ (s u : State) (t : Time) (env : BootEnv) (held : Time), u = s.at t → (u.pw.st = .buoy ∨ u.pw.st = .dusk) → held + ms ≤ t →
    u.rs.porLatched = false →
    ∃ s', exec (.supplyReturn t env held) s = .next s' ∧ s'.pw.cause = 11 ∧
      ((s'.pw.st = .dawn ∧ s'.mem.st = .init) ∨ (s'.pw.st = .boot ∧ s'.mem.st = .unavail))) ∧
  (∀ (s u : State) (t : Time), u = s.at t → u.pw.st = .dawn → u.pw.bootKind = .dawn → u.mem.st = .init → u.mem.prior = .init → u.mem.initTill = none →
    pllOf u 2 = .locked → u.pw.bootFrom + 17 * ms / 5 ≤ t → (tableOf u.mem u.mem.changeTo).isSome = true → u.mem.changePend = false →
    u.mem.sweepPend = false → u.rs.porLatched = false →
    ∃ s', exec (.binChange t true) s = .next s' ∧ s'.pw.st = .boot ∧ s'.pw.cause = u.pw.cause ∧ s'.pw.dawnTill = t + 2 * ms) ∧
  (∀ (s u : State) (t : Time), u = s.at t → u.pw.st = .dawn → u.pw.bootKind = .dawn → u.mem.st = .init → u.mem.prior = .init → u.mem.initTill = none →
    pllOf u 2 = .locked → u.pw.bootFrom + 17 * ms / 5 ≤ t → (tableOf u.mem u.mem.changeTo).isSome = true → u.mem.changePend = false →
    u.mem.sweepPend = false → u.rs.porLatched = true →
    ∃ s', exec (.binChange t true) s = .next s' ∧ Booted s' 2 ∧ s'.fm = [] ∧ s'.rs.porLatched = false) ∧
  (∀ (s u : State) (t : Time), u = s.at t → u.pw.st = .dawn → u.mem.st = .init → u.mem.initTill = none → pllOf u 2 = .locked →
    u.pw.bootFrom + 17 * ms / 5 ≤ t →
    ∃ s', exec (.binChange t false) s = .next s' ∧ s'.pw = u.pw ∧ s'.mem.st = .train ∧ s'.mem.sweepBin = u.mem.changeTo) ∧
  (∀ (s u : State) (t : Time) (results : List LaneWin), u = s.at t → u.pw.st ≠ .dawn → u.mem.st = .train → results.length = 104 →
    (∀ r ∈ results, 16 ≤ laneWidth r) → u.mem.sweepBin < u.mem.tables.length →
    ∃ s', exec (.sweepComplete t results) s = .next s' ∧
      s'.mem.tables.getD u.mem.sweepBin DelayTable.blank = ⟨true, results.map (fun r => (centreOf r.1, centreOf r.2))⟩ ∧
      s'.mem.windowMin = minL 0 (results.map laneWidth)) ∧
  (∀ (s u : State) (t : Time) (results : List LaneWin), u = s.at t → u.mem.st = .train → (∃ r ∈ results, laneWidth r < 16) → 0 < u.mem.sweepBin →
    ∃ s', exec (.sweepComplete t results) s = .next s' ∧ s'.mem.st = .train ∧ s'.mem.sweepBin = u.mem.sweepBin - 1 ∧ s'.pw = u.pw) ∧
  (∀ (s u : State) (t : Time) (results : List LaneWin), u = s.at t → u.pw.st ≠ .dawn → u.mem.st = .train → (∃ r ∈ results, laneWidth r < 16) →
    u.mem.sweepBin = 0 → ∃ s', exec (.sweepComplete t results) s = .next s' ∧ s'.mem.st = .unavail) ∧
  (∀ (s u : State) (t : Time) (results : List LaneWin), u = s.at t → u.pw.st = .dawn → u.pw.bootKind = .dawn → u.mem.st = .train →
    results.length = 104 → (∀ r ∈ results, 16 ≤ laneWidth r) → u.rs.porLatched = false →
    u.mem.sweepPend = false → u.mem.changePend = false →
    ∃ s', exec (.sweepComplete t results) s = .next s' ∧ s'.pw.st = .boot ∧ s'.pw.cause = u.pw.cause)

/-! ## Clocks (R21, R385, R386, R389, R391) -/

/-- The loss of REF stops every PLL and frame memory; the loss of LFXTAL sets KEEP_RC alone and its return clears it, and takes a boot that waits
for it on to step 7; a boot whose wait for the crystal ends goes on with REF unknown and its PLLs off (R21, R385, R386). PLL_LOCK reaches LOCKED;
PLL_LOCK_TIMEOUT takes the next attempt or, at the third failure, FAIL; PLL_UNLOCK locks anew, and an unlocked PLLA stops the array as STOP_ARRAY
HOW 1 does (R388, R389, R391). -/
def Obligations.ClocksAreLostAndLock : Prop :=
  (∀ (s u : State) (t : Time), u = s.at t → u.pw.refLost = false →
    (u.pw.st = .boot ∨ u.pw.st = .standby ∨ u.pw.st = .active ∨ u.pw.st = .shutdown ∨ u.pw.st = .dawn) → u.otp.stopDusk = none →
    ∃ s', exec (.refLost t) s = .next s' ∧ s'.pw.refLost = true ∧ s'.pw.refLostAt = t ∧ s'.mem.st = .off ∧ s'.mem.queue = [] ∧
      ∀ p ∈ s'.pw.plls, p.st = .off) ∧
  (∀ (s u : State) (t : Time), u = s.at t → u.pw.lfxtalOk = true → u.pw.st ≠ .off →
    exec (.lfxtalLoss t) s =
      .next { u with pw := { u.pw with lfxtalOk := false, keepRc := true, env := { u.pw.env with lfxtal := false } } }) ∧
  (∀ (s u : State) (t : Time) (khz : Nat), u = s.at t → u.pw.keepRc = true → u.pw.st ≠ .off → u.pw.lfWaitFrom = none →
    ∃ s', exec (.lfxtalValid t khz) s = .next s' ∧ s'.pw.lfxtalOk = true ∧ s'.pw.keepRc = false ∧ s'.pw.st = u.pw.st) ∧
  (∀ (s u : State) (t a : Time) (khz : Nat), u = s.at t → u.pw.keepRc = true → u.pw.st ≠ .off → u.pw.lfWaitFrom = some a →
    ∃ s', exec (.lfxtalValid t khz) s = .next s' ∧ s'.pw.keepRc = false ∧ s'.pw.lfWaitFrom = none ∧ s'.pw.bootStep = 7 ∧
      s'.pw.bootTill = max (a + 5 * ms) (t + 3 * ms / 2)) ∧
  (∀ (s u : State) (t a : Time), u = s.at t → u.pw.lfWaitFrom = some a → a + 2 * sec ≤ t →
    ∃ s', exec (.lfxtalWaitTimeout t) s = .next s' ∧ s'.pw.lfWaitFrom = none ∧ s'.pw.bootStep = 7 ∧ s'.pw.refUnknown = true ∧
      ∀ p ∈ s'.pw.plls, p.st = .off) ∧
  (∀ (s u : State) (t : Time) (n : Fin 4), u = s.at t → u.pw.plls.length = 4 → pllOf u n.val = .acquire →
    ∃ s', exec (.pllLock t n) s = .next s' ∧ pllOf s' n.val = .locked ∧ ∀ k : Nat, k ≠ n.val → s'.pll k = u.pll k) ∧
  (∀ (s u : State) (t : Time) (n : Fin 4), u = s.at t → u.pw.plls.length = 4 → pllOf u n.val = .acquire →
    (u.pll n.val).since + (u.pll n.val).tmo ≤ t →
    ∃ s', exec (.pllLockTimeout t n) s = .next s' ∧ (s'.pll n.val).tries = (u.pll n.val).tries + 1 ∧
      (2 ≤ (u.pll n.val).tries → pllOf s' n.val = .fail) ∧
      ((u.pll n.val).tries < 2 → (pickBand (u.pll n.val).use (u.pll n.val).tried (pllKhz u n.val)).isSome = true → pllOf s' n.val = .band)) ∧
  (∀ (s u : State) (t : Time) (n : Fin 4), u = s.at t → u.pw.plls.length = 4 → pllOf u n.val = .locked →
    ∃ s', exec (.pllUnlock t n) s = .next s' ∧ (s'.pll n.val).tries = 0 ∧ (n = 0 → s'.seq.running = false ∨ s'.seq.stopping = true) ∧
      ((pickBand (u.pll n.val).bands [] (pllKhz (pllDown u n.val t) n.val)).isSome = true → pllOf s' n.val = .safe))

/-! ## Staging and settings (R68, R74, R79, R83 to R89) -/

/-- Each staging command of the holder of the ARRAY lease, with its fields in range, changes the staged set alone and answers OK (R83 to R85, R87,
R88). A staging command without the ARRAY lease is refused with NO_LEASE and changes nothing but for its answer (R344, R348). -/
def Obligations.StagingCommandsChangeTheStagedSet : Prop :=
  (∀ (s u : State) (c : Call) (p : PortIx), u = s.at c.start → Ready u c 0x0200 → HoldsLease u c p lARRAY → c.payload.length = 8 →
    1 ≤ u8 c.payload 0 → u8 c.payload 0 ≤ 5 → reservedBits c.payload 1 0xF0 = none → reservedBits c.payload 2 0xFC = none →
    u8 c.payload 3 = 0 → (∀ x ∈ windowOk (bit (u8 c.payload 2) 1) (u16 c.payload 4) (u16 c.payload 6) 4, x = none) →
    exec (.setArrayMode c) s = .next (okWith (stage u (fun g => { g with
      mode := u8 c.payload 0, dcg := u8 c.payload 1, res10 := bit (u8 c.payload 2) 0, bin := bit (u8 c.payload 2) 1
      rowFirst := u16 c.payload 4, rowCount := u16 c.payload 6 })) c 0x0200 .fast [])) ∧
  (∀ (s u : State) (c : Call) (p : PortIx), u = s.at c.start → Ready u c 0x0201 → HoldsLease u c p lARRAY → c.payload.length = 16 →
    u8 c.payload 0 ≤ 3 → u8 c.payload 1 ≤ 15 → u8 c.payload 2 ≤ 1 → u8 c.payload 3 = 0 → 41667 ≤ u32 c.payload 4 →
    u32 c.payload 4 ≤ 268435455 → u16 c.payload 8 ≤ 1023 → u16 c.payload 10 ≤ 1023 → u16 c.payload 12 ≤ 1023 → u16 c.payload 14 = 0 →
    exec (.setFrameTiming c) s = .next (okWith (stage u (fun g => { g with
      trig := u8 c.payload 0, trigTmr := u8 c.payload 1, tail := u8 c.payload 2, period := u32 c.payload 4, d1 := u16 c.payload 8
      d2 := u16 c.payload 10, d3 := u16 c.payload 12 })) c 0x0201 .fast [])) ∧
  (∀ (s u : State) (c : Call) (p : PortIx) (mask form first count : Nat) (vals : List Nat), u = s.at c.start → Ready u c 0x0202 →
    HoldsLease u c p lARRAY → c.payload = [byte mask, byte form, byte first, byte count] ++ vals.flatMap (leBytes 3) → 1 ≤ mask → mask < 16 →
    form ≤ 1 → (form = 1 → mask = 1 ∨ mask = 2 ∨ mask = 4 ∨ mask = 8) → vals.length = (if form = 0 then 1 else count) →
    (∀ v ∈ vals, 1 ≤ v ∧ v < 2 ^ 24) → 1 ≤ count → first + count ≤ 192 → (∀ k : Nat, k < count → governed u (first + k) = false) →
    u.arr.staged.tiles.length = 192 →
    ∃ s', exec (.setTileExposure c) s = .next (okWith s' c 0x0202 .fast []) ∧ Keeps [.arr] u s' ∧ s'.arr.active = u.arr.active ∧
      ∀ t : Nat, t < 192 → s'.arr.staged.tiles.getD t TileSet.reset =
        if first ≤ t ∧ t < first + count then
          (List.range 4).foldl (fun y j => if bit mask j then
            { y with ticks := modAt y.ticks j (fun _ => vals.getD (if form = 0 then 0 else t - first) 0) } else y)
            (u.arr.staged.tiles.getD t TileSet.reset)
        else u.arr.staged.tiles.getD t TileSet.reset) ∧
  (∀ (s u : State) (c : Call) (p : PortIx) (mask form first count : Nat) (vals : List Nat), u = s.at c.start → Ready u c 0x0203 →
    HoldsLease u c p lARRAY → c.payload = [byte mask, byte form, byte first, byte count] ++ vals.flatMap (leBytes 3) → 1 ≤ mask → mask < 16 →
    form ≤ 1 → (form = 1 → mask = 1 ∨ mask = 2 ∨ mask = 4 ∨ mask = 8) → vals.length = (if form = 0 then 1 else count) →
    (∀ v ∈ vals, v < 2 ^ 23 ∧ 16 ≤ bits v 8 0 ∧ bits v 8 0 ≤ 256 ∧ 1024 ≤ bits v 22 9) → 1 ≤ count → first + count ≤ 192 →
    (∀ k : Nat, k < count → governed u (first + k) = false) → u.arr.staged.tiles.length = 192 →
    ∃ s', exec (.setTileGain c) s = .next (okWith s' c 0x0203 .fast []) ∧ Keeps [.arr] u s' ∧ s'.arr.active = u.arr.active ∧
      ∀ t : Nat, t < 192 → s'.arr.staged.tiles.getD t TileSet.reset =
        if first ≤ t ∧ t < first + count then
          (List.range 4).foldl (fun y j => if bit mask j then
            { y with ag := modAt y.ag j (fun _ => bits (vals.getD (if form = 0 then 0 else t - first) 0) 8 0)
                     dg := modAt y.dg j (fun _ => bits (vals.getD (if form = 0 then 0 else t - first) 0) 22 9) } else y)
            (u.arr.staged.tiles.getD t TileSet.reset)
        else u.arr.staged.tiles.getD t TileSet.reset) ∧
  (∀ (s u : State) (c : Call) (p : PortIx), u = s.at c.start → Ready u c 0x0206 → HoldsLease u c p lARRAY → c.payload.length = 16 →
    1 ≤ u8 c.payload 0 → u8 c.payload 0 ≤ 8 → 1 ≤ u8 c.payload 1 → u8 c.payload 1 ≤ 8 → u16 c.payload 2 ≠ 0 →
    u32 c.payload 4 ≤ 160000 → (1 < u8 c.payload 0 → 2 ≤ u32 c.payload 4) → u32 c.payload 8 ≤ 160000 → (1 < u8 c.payload 1 → 2 ≤ u32 c.payload 8) → u32 c.payload 12 = 0 →
    exec (.setSlicing c) s = .next (okWith (stage u (fun g => { g with
      n0 := u8 c.payload 0, n1 := u8 c.payload 1, seed := u16 c.payload 2, w0 := u32 c.payload 4, w1 := u32 c.payload 8 }))
      c 0x0206 .fast [])) ∧
  (∀ (s u : State) (c : Call) (p : PortIx), u = s.at c.start → Ready u c 0x020A → HoldsLease u c p lARRAY → c.payload.length = 24 →
    (tileMask c.payload).any (fun t => !u.sec.killedTiles.contains t) = true →
    ∃ s', exec (.setTileEnable c) s = .next (okWith s' c 0x020A .fast []) ∧ Keeps [.arr] u s' ∧
      ∀ t : TileIx, t.val < u.arr.staged.tiles.length →
        (s'.arr.staged.tiles.getD t.val TileSet.reset).en = bit (u8 c.payload (t.val / 8)) (t.val % 8)) ∧
  (∀ (s u : State) (c : Call) (p : PortIx), u = s.at c.start → c.src = .port p → Ready u c 0x0200 → c.payload.length = 8 →
    portRole u p ≠ .viewer → holderAt u lARRAY c.stamp ≠ some p →
    exec (.setArrayMode c) s = .next (respond u c 0x0200 .fast .noLease 0 []))

/-- SET_GOVERNOR turns the governor on with its limits, or off: then what it has not applied is dropped, and its values in force become the staged
ones of its tiles, for the exposures that the mode uses. COMMIT_SETTINGS copies the staged set, with its settings ID and its stamp, into the pending
set where the staged set breaks no rule, and answers the frame that it is for; stamped before the latch point of a frame that has latched but not
started, it undoes that latch, and the frame latches anew with the settings that it then has (R15, R74, R75, R79, R86, R89). -/
def Obligations.GovernorAndCommit : Prop :=
  (∀ (s u : State) (c : Call) (p : PortIx), u = s.at c.start → Ready u c 0x0205 → HoldsLease u c p lARRAY → c.payload.length = 44 →
    u8 c.payload 0 ≤ 1 → u8 c.payload 1 = 0 → 256 ≤ u16 c.payload 2 → u16 c.payload 2 ≤ 65520 → 16 ≤ u8 c.payload 4 → u8 c.payload 4 ≤ 64 →
    16 ≤ u8 c.payload 5 → u8 c.payload 5 ≤ 32 → 1 ≤ u16 c.payload 6 → u16 c.payload 6 ≤ 4096 → 1 ≤ u16 c.payload 8 →
    u16 c.payload 8 ≤ 4096 → 1 ≤ u16 c.payload 10 → u16 c.payload 10 ≤ 4096 → 1 ≤ u32 c.payload 12 → u32 c.payload 12 ≤ 16777215 →
    16 ≤ u16 c.payload 16 → u16 c.payload 16 ≤ 256 → 1024 ≤ u16 c.payload 18 → u16 c.payload 18 ≤ 16383 →
    ∃ s', exec (.setGovernor c) s = .next (okWith s' c 0x0205 .fast []) ∧ Keeps [.arr] u s' ∧ s'.arr.active = u.arr.active ∧
      s'.arr.pend = u.arr.pend ∧
      (u8 c.payload 0 = 1 → s'.arr.gov.on = true ∧ s'.arr.gov.target = u16 c.payload 2 ∧ s'.arr.gov.nbr = u8 c.payload 4 ∧
        s'.arr.gov.chg = u8 c.payload 5 ∧ s'.arr.gov.ratios = [u16 c.payload 6, u16 c.payload 8, u16 c.payload 10] ∧
        s'.arr.gov.emax = u32 c.payload 12 ∧ s'.arr.gov.agmax = u16 c.payload 16 ∧ s'.arr.gov.dgmax = u16 c.payload 18 ∧
        s'.arr.gov.mask = tileMask (c.payload.drop 20) ∧ s'.arr.staged = u.arr.staged) ∧
      (u8 c.payload 0 = 0 → u.arr.gov.on = false → s' = u) ∧
      (u8 c.payload 0 = 0 → u.arr.gov.on = true → s'.arr.gov.on = false ∧ s'.arr.gov.out = [] ∧ s'.arr.gov.due = [] ∧
        s'.arr.gov.vals = [] ∧ ∀ t : TileIx, t.val < u.arr.staged.tiles.length →
          s'.arr.staged.tiles.getD t.val TileSet.reset =
            if t ∈ u.arr.gov.mask ∧ (∃ w ∈ u.arr.gov.vals, w.tile = t) then
              let y := u.arr.active.tiles.getD t.val (u.arr.staged.tiles.getD t.val TileSet.reset)
              let up (l m : List Nat) : List Nat := l.zipIdx.map (fun z => if z.2 ≤ u.arr.active.lastExp then m.getD z.2 z.1 else z.1)
              let g := u.arr.staged.tiles.getD t.val TileSet.reset
              { g with ticks := up g.ticks y.ticks, ag := up g.ag y.ag, dg := up g.dg y.dg }
            else u.arr.staged.tiles.getD t.val TileSet.reset)) ∧
  (∀ (s u : State) (c : Call) (p : PortIx), u = s.at c.start → Served u c 0x0204 → argZero c 2 = none → HoldsLease u c p lARRAY →
    c.payload = [] → stagedFailing u c.start = [] → (∀ f : Frame, u.seq.latched = some f → f.elp ≤ c.stamp) →
    ∃ s', exec (.commitSettings c) s = .next (okWith s' c 0x0204 .immediate (leBytes 4 (commitTarget s' c.start).1 ++
        leBytes 8 (match (commitTarget s' c.start).2 with | some x => s'.dtime x | none => 0))) ∧
      s'.arr.pend = some ⟨u16 c.arg 0, c.stamp, u.arr.staged⟩ ∧ s'.arr.staged = u.arr.staged ∧ s'.arr.active = u.arr.active) ∧
  (∀ (s u : State) (c : Call) (p : PortIx) (f : Frame) (n : Undo), u = s.at c.start → Served u c 0x0204 → argZero c 2 = none → HoldsLease u c p lARRAY →
    c.payload = [] → stagedFailing u c.start = [] → u.seq.latched = some f → c.stamp < f.elp → u.arr.undo = some n →
    ∃ s' s'' pl, exec (.commitSettings c) s = .next (okWith s'' c 0x0204 .immediate pl) ∧ pl.length = 12 ∧
      s'.arr.pend = some ⟨u16 c.arg 0, c.stamp, u.arr.staged⟩ ∧ s'.arr.active = n.active ∧ s'.seq.nextNum = f.num ∧ s'.seq.latched = none ∧
      (latchDue s' c.start = false → s'' = s') ∧
      (latchDue s' c.start = true → s''.arr.active = (plan s' c.start).set ∧ s''.seq.nextNum = (f.num + 1) % 2 ^ 32))

/-! ## Triggers, start and stop (R69 to R72, R89 to R92) -/

/-- TRIGGER_FRAME is taken where the array is armed for commands, answers BUSY where a trigger comes too early, and BAD_STATE where the array takes
no command triggers; TRIGGER_AT joins the pending requests where it names an instant at least 10 µs ahead and at least P_min after each other one;
the earliest pending request acts once its DTIME has come (R69, R71, R72, R89, R92). START_ARRAY starts a stopped array from the command's stamp: no
frame is latched or read, nothing is armed, and the frame numbers go on. STOP_ARRAY drops and counts the pending TRIGGER_AT requests; with HOW 1 it
halts the array at once, or at the end of the row slot in progress; with HOW 0 the array starts no further frame and halts when the frames that have
latched have ended. On a stopped array it does nothing (R90, R91). -/
def Obligations.TriggersStartsAndStops : Prop :=
  (∀ (s u : State) (c : Call) (p : PortIx), u = s.at c.start → Ready u c 0x0207 → HoldsLease u c p lARRAY → c.payload = [] →
    needActive u c = none →
    (trigRes u 1 c.stamp c.start = .accepted →
      exec (.triggerFrame c) s = .next (okWith (u.modSeq (fun q => { q with tg := some c.stamp, lastTg := some c.stamp, armed := false }))
        c 0x0207 .immediate (leBytes 4 u.seq.nextNum ++ leBytes 8 (u.dtime c.stamp)))) ∧
    (trigRes u 1 c.stamp c.start = .overrun →
      exec (.triggerFrame c) s = .next (respond (u.bump aARRAY_TRIG_CNT 15 0 1) c 0x0207 .immediate .busy 0 [])) ∧
    (trigRes u 1 c.stamp c.start = .ignored →
      exec (.triggerFrame c) s = .next (respond (u.bump aARRAY_TRIG_CNT 31 16 1) c 0x0207 .immediate .badState 0 []))) ∧
  (∀ (u : State) (src : Nat) (tg t : Time), trigRes u src tg t = .accepted ↔
    (trigSet u t).trig = src ∧ u.seq.armed = true ∧ ∀ l : Time, u.seq.lastTg = some l → l + trigMin u (trigSet u t) t ≤ tg) ∧
  (∀ (u : State) (src : Nat) (tg t : Time), trigRes u src tg t = .ignored ↔ (trigSet u t).trig ≠ src) ∧
  (∀ (s u : State) (c : Call) (p : PortIx), u = s.at c.start → Ready u c 0x020B → HoldsLease u c p lARRAY → c.payload.length = 8 →
    needActive u c = none → u.seq.running = true → u.seq.trigAt.length < 4 → u.dtime c.stamp + 10000 ≤ u64 c.payload 0 →
    (∀ x ∈ u.seq.trigAt, x + divCeil (pminT u (trigSet u c.start) c.start) ns ≤ u64 c.payload 0) →
    exec (.triggerAt c) s = .next (okWith (u.modSeq (fun q => { q with trigAt := q.trigAt ++ [u64 c.payload 0] })) c 0x020B .fast [])) ∧
  (∀ (s u : State) (t : Time) (d : Nat), u = s.at t → d ∈ u.seq.trigAt → (∀ x ∈ u.seq.trigAt, d ≤ x) → d ≤ u.dtime t →
    ∃ v s', v = u.modSeq (fun q => { q with trigAt := removeFirst (· = d) q.trigAt }) ∧ exec (.triggerAtDue t) s = .next s' ∧
      s'.seq.trigAt = removeFirst (· = d) u.seq.trigAt ∧
      (trigRes v 2 (t - (u.dtime t - d) * ns) t = .accepted → s'.regs = u.regs ∧
        s'.seq.tg = some (t - (u.dtime t - d) * ns) ∧ s'.seq.lastTg = some (t - (u.dtime t - d) * ns) ∧ s'.seq.armed = false) ∧
      (trigRes v 2 (t - (u.dtime t - d) * ns) t = .overrun → s' = v.bump aARRAY_TRIG_CNT 15 0 1) ∧
      (trigRes v 2 (t - (u.dtime t - d) * ns) t = .ignored → s' = v.bump aARRAY_TRIG_CNT 31 16 1)) ∧
  (∀ (s u : State) (c : Call) (p : PortIx), u = s.at c.start → Ready u c 0x0208 → HoldsLease u c p lARRAY → c.payload = [] →
    needActive u c = none → u.pw.st = .active → u.seq.running = false → pllOf u 0 ≠ .fail →
    ∃ s', exec (.startArray c) s = .next (okWith s' c 0x0208 .fast (leBytes 4 u.seq.nextNum)) ∧ Keeps [.arr] u s' ∧
      s'.seq.running = true ∧ s'.seq.stopping = false ∧ s'.seq.armed = false ∧ s'.seq.anchor = some c.stamp ∧ s'.seq.cur = none ∧
      s'.seq.latched = none ∧ s'.seq.begun = none ∧ s'.seq.ovh = 0 ∧ s'.seq.nextNum = u.seq.nextNum ∧ s'.seq.frame = u.seq.frame ∧
      s'.arr.active = u.arr.active ∧ s'.arr.pend = u.arr.pend ∧ s'.arr.staged = u.arr.staged) ∧
  (∀ (s u : State) (c : Call) (p : PortIx), u = s.at c.start → Ready u c 0x0208 → HoldsLease u c p lARRAY → c.payload = [] →
    needActive u c ≠ none →
    ∃ st : Status, exec (.startArray c) s = .next (respond u c 0x0208 .fast st 0 [])) ∧
  (∀ (s u : State) (c : Call) (p : PortIx), u = s.at c.start → Ready u c 0x0209 → HoldsLease u c p lARRAY → c.payload.length = 4 →
    u8 c.payload 0 ≤ 1 → reserved c.payload 1 3 = none →
    ∃ s', exec (.stopArray c) s = .next (okWith s' c 0x0209 .fast []) ∧ Keeps [.regs, .ports, .arr, .pipe] u s' ∧
      s'.arr.active = u.arr.active ∧ s'.arr.staged = u.arr.staged ∧ s'.arr.pend = u.arr.pend ∧
      (u.seq.running = false → s' = u) ∧
      (u.seq.running = true → s'.seq.trigAt = [] ∧ s'.seq.armed = false ∧ (s'.seq.running = false ∨ s'.seq.stopping = true)) ∧
      (u.seq.running = true → u8 c.payload 0 = 1 → slotBusy u c.start = true → s'.seq.cut = true ∧ s'.seq.cur = u.seq.cur) ∧
      (u.seq.running = true → u8 c.payload 0 = 1 → slotBusy u c.start = false → s'.seq.running = false ∧ s'.seq.cur = none))

/-! ## The sequencer (R52 to R68, R76, R78, R81, R109) -/

/-- At the exposure latch point the planned set becomes the active one, the frame takes the next number and its ID, and an accepted trigger is used
up; a frame whose FS came before that is the one being read from then on. At its FS a latched frame becomes the one being read; where the ELP is
still to come, FS counts the frame and starts its overhead slots (R52, R74 to R76). Each row slot reads one slot of the frame, and one in which the
array is to halt halts it; each overhead slot is one of its eight; integrations begin and take their slices one by one (R35, R53, R60, R67, R91). -/
def Obligations.FramesLatchStartAndAdvance : Prop :=
  (∀ (s u : State) (t : Time), u = s.at t → latchDue u t = true →
    ∃ s' f, exec (.exposureLatchPoint t) s = .next s' ∧ s'.arr.active = (plan u t).set ∧ s'.seq.nextNum = (u.seq.nextNum + 1) % 2 ^ 32 ∧
      s'.seq.tg = none ∧ s'.seq.actId = (plan u t).id ∧ s'.arr.staged = u.arr.staged ∧
      (if u.seq.begun.isSome then s'.seq.latched = none ∧ s'.seq.begun = none ∧ s'.seq.cur = some f
       else s'.seq.latched = some f ∧ s'.seq.cur = u.seq.cur) ∧
      f.num = u.seq.nextNum ∧ f.set = (plan u t).set ∧ f.fs = (plan u t).fs ∧ f.elp = (plan u t).elp) ∧
  (∀ (s u : State) (t : Time) (f : Frame), u = s.at t → frameDue u t = true → u.seq.latched = some f →
    ∃ s', exec (.frameStart t) s = .next s' ∧ s'.seq.frame = f.num ∧ s'.seq.latched = none ∧ s'.arr.active = u.arr.active ∧
      ∃ g : Frame, s'.seq.cur = some g ∧ g.num = f.num ∧ g.set = f.set ∧ g.fs = f.fs) ∧
  (∀ (s u : State) (t : Time), u = s.at t → frameDue u t = true → u.seq.latched = none →
    ∃ s', exec (.frameStart t) s = .next s' ∧ s'.seq.frame = u.seq.nextNum ∧ s'.seq.begun = some (plan u t).fs ∧ s'.seq.ovh = 0 ∧
      s'.seq.cur = u.seq.cur ∧ s'.arr.active = u.arr.active ∧ s'.seq.nextNum = u.seq.nextNum) ∧
  (∀ (s u : State) (t : Time), u = s.at t → armDue u t = true →
    exec (.arrayArm t) s = .next (u.modSeq (fun q => { q with armed := true }))) ∧
  (∀ (s u : State) (t : Time) (f : Frame) (samples : List (TileIx × List (Nat × Nat))), u = s.at t → u.seq.cur = some f →
    rowSlotDue u t = true →
    ∃ s', exec (.rowSlot t samples) s = .next s' ∧ s'.arr.active = u.arr.active ∧
      (u.seq.cut = true → s'.seq.running = false ∧ s'.seq.cur = none) ∧
      (u.seq.cut = false → u.seq.stopping = false → ∃ g : Frame, s'.seq.cur = some g ∧ g.num = f.num ∧ g.next = f.next + 1) ∧
      (u.seq.cut = false → s'.seq.running = false ∨ ∃ g : Frame, s'.seq.cur = some g ∧ g.num = f.num ∧ g.next = f.next + 1)) ∧
  (∀ (s u : State) (t : Time) (samples : List (TileIx × List (Nat × Nat))) (ramp : List (TileIx × Int)), u = s.at t → ovhDue u t = true →
    ∃ s', exec (.overheadSlot t samples ramp) s = .next s' ∧ s'.seq.ovh = u.seq.ovh + 1 ∧ s'.arr.active = u.arr.active) ∧
  (∀ (s u : State) (t : Time) (tile : TileIx) (row : Nat) (exp : Fin 4) (f : Frame), u = s.at t → integFrame u t tile row exp.val = some f →
    exec (.integrationStart t tile row exp) s =
      .next (u.modSeq (fun q => { q with integ := q.integ ++ [⟨f.num, tile, row, exp.val, 0⟩] }))) ∧
  (∀ (s u : State) (t : Time) (tile : TileIx) (row : Nat) (exp : Fin 4) (m : Integ), u = s.at t → sliceOf u t tile row exp.val = some m →
    exec (.integrationSlice t tile row exp) s =
      .next (u.modSeq (fun q => { q with integ := q.integ.map (fun n => if n = m then { n with slices := n.slices + 1 } else n) })))

/-- The line at the head of an output queue leaves it: a spilled line is written to its frame's spill region and counted, or dropped where frame
memory is not up; a radiance line that fails its CRC is counted and delivered as a lost one; any other goes to its consumers. A spilled row that
frame memory returns joins the engine's fetched rows, and one that it answers with a fault is lost (R11, R109, R111, R497). Bytes of frame memory
that a line store leaves alone: a transfer of a line to RASTER views changes nothing outside the line's place in each store, and that of a sample-
row nothing outside its place in the spill region, an aux line nothing outside its row of its stream's store, and COMMIT_SETTINGS nothing outside
the region it takes for the spill (R109, R172, R186, R188). -/
def Obligations.LinesLeaveTheEngines : Prop :=
  (∀ (s u v : State) (t : Time) (tile : TileIx) (ok : Bool) (l : Line) (rest : List Line), u = s.at t → (u.eng tile.val).outq = l :: rest →
    v = u.modEng tile.val (fun e => { e with outq := rest }) →
    ∃ s', exec (.mosaicLineTransfer t tile ok) s = .next s' ∧ (u.arr.eng.length = 192 → (s'.eng tile.val).outq = rest) ∧
      (∀ (q : Nat) (f : Frame), l.kind = .spill q → frameOf v l.frame = some f → memUp v = true →
        s' = memStore (v.bumpWrap aTENG_SPILL_ROWS 31 0 1) 0 tile.val (spillAddr f tile.val q l.row)
          (packGroups 2 12 l.codes.length l.codes) t) ∧
      (∀ q : Nat, l.kind = .spill q → (memUp v = false ∨ frameOf v l.frame = none) → s' = v) ∧
      (l.kind = .radiance → ok = true → s' = deliverLine v tile.val l.frame l.row none l.codes (b2n l.damaged) t) ∧
      (l.kind = .radiance → ok = false →
        s' = deliverLine (raise (v.bump aDIAG_LINE_CRC 31 0 1) fLINE_CRC tile.val t) tile.val l.frame l.row none [] 1 t) ∧
      (∀ q : Nat, l.kind = .samples q → s' = deliverLine v tile.val l.frame l.row (some q) l.codes (b2n l.damaged) t)) ∧
  (∀ (s u : State) (t : Time) (tile : TileIx) (kind : Fin 8) (row : Nat) (f : Frame), u = s.at t → u.arr.eng.length = 192 →
    u.mem.st = .run → fetchFrame u tile.val kind.val row = some f →
    memPending u.mem 0 tile.val (spillAddr f tile.val kind.val row) 768 = false →
    (∃ s', exec (.spillFetchComplete t tile kind row true) s = .next s' ∧ Keeps [.arr, .regs] u s' ∧
      (s'.eng tile.val).fetched = (u.eng tile.val).fetched ++
        [⟨f.num, row, kind.val, unpack12 (fmRead u (spillAddr f tile.val kind.val row) 768)⟩]) ∧
    exec (.spillFetchComplete t tile kind row false) s =
      .next ((u.modEng tile.val (fun e => { e with asked := e.asked.filter (fun x => decide (x ≠ (f.num, row, kind.val))) })).modEng tile.val
        (fun e => { e with lostRows := e.lostRows ++ [(f.num, row, kind.val)] }))) ∧
  (∀ (s u s' : State) (t : Time) (tile : TileIx) (ok : Bool) (l : Line) (rest : List Line) (x : Nat), u = s.at t → u.arr.eng.length = 192 →
    (u.eng tile.val).outq = l :: rest → (∀ q : Nat, l.kind ≠ .spill q) → exec (.mosaicLineTransfer t tile ok) s = .next s' →
    (∀ f ∈ u.pipe.frames, ∀ codes : List Nat, (codes = l.codes ∨ codes = []) → x < (rasterPart u f tile.val l.row codes).1 ∨
      (rasterPart u f tile.val l.row codes).1 + 3 * (rasterPart u f tile.val l.row codes).2.length ≤ x) →
    fmByte s' x = fmByte u x) ∧
  (∀ (s u s' : State) (t : Time) (tile : TileIx) (ok : Bool) (l : Line) (rest : List Line) (q : Nat) (f : Frame), u = s.at t →
    u.arr.eng.length = 192 → (u.eng tile.val).outq = l :: rest → l.kind = .spill q → frameOf u l.frame = some f →
    exec (.mosaicLineTransfer t tile ok) s = .next s' →
    SameBytesOutside u s' (spillAddr f tile.val q l.row) (packGroups 2 12 l.codes.length l.codes).length) ∧
  (∀ (s u s' : State) (t : Time) (n : AuxIx) (vc : Nat) (hdr : BitVec 32) (di : Byte) (wc : BitVec 16) (ecc : Byte) (payload : List Byte) (crc : BitVec 16), u = s.at t →
    u.aux.length = 4 → hdr = ecc ++ wc ++ di → vc = csiVc hdr → (u.auxIn n.val).vcs.length = 4 → storeWf u.regs = true → exec (.auxLongPacket t n di wc ecc payload crc) s = .next s' →
    SameBytesOutside u s' (auxStoreAddr u n.val vc (u.auxVc n.val vc).store (u.auxVc n.val vc).lines)
      (auxW u n.val vc * dtHeld (auxDt u n.val vc))) ∧
  (∀ (s u w s' : State) (c : Call) (b : Nat), u = s.at c.start → w = unlatch u c.stamp → exec (.commitSettings c) s = .next s' →
    findFree (match w.arr.spillPend with | some r => freeRegion w r | none => w) (spillMib w u.arr.staged) = some b →
    SameBytesOutside u s' (b * mib) (spillMib w u.arr.staged * mib))

/-- The statistics of an ended frame become the newest record of the array, and the governor's output falls due 0.5 ms later; at that instant the
governor takes it (R78, R81, R154). -/
def Obligations.StatisticsAndGovernorOutput : Prop :=
  (∀ (s u : State) (t e : Time) (f : Frame) (rest : List Frame), u = s.at t → u.seq.done = f :: rest → f.endAt = some e → e ≤ t →
    ∃ s', exec (.statsComplete t) s = .next s' ∧ s'.seq.done = rest ∧
      (∃ r : StatRec, s'.arr.stats.head? = some r ∧ r.src = 0 ∧ r.frame = f.num ∧ r.id = f.id) ∧
      (u.arr.gov.on = true → s'.arr.gov.due = u.arr.gov.due ++ [(f.num, e + 500 * us)]) ∧
      (u.arr.gov.on = false → s'.arr.gov = u.arr.gov)) ∧
  (∀ (s u : State) (t : Time) (d : Nat × Time) (rest : List (Nat × Time)), u = s.at t → u.arr.gov.on = true → u.arr.gov.due = d :: rest →
    d.2 ≤ t →
    ∃ s', exec (.governorOutput t) s = .next s' ∧ s'.arr.gov.due = rest ∧ Keeps [.arr] u s' ∧ s'.arr.active = u.arr.active ∧
      s'.arr.staged = u.arr.staged ∧ s'.seq = u.seq)

/-! ## Views (R124 to R128, R139, R155 to R157) -/

/-- CREATE_VIEW of a FREE view, or with 0xFF of the lowest free one, gives it to the caller with its parameters, in CREATED; MODIFY_VIEW replaces
the parameters of a view that is not started, or of a frame of it that starts after the stamp, and otherwise queues its soft fields for the next
frame start; DELETE_VIEW frees a view, or orders a running one to stop first (R124, R125, R127, R155, R156). A view command from a port that is not
the owner of the view is DENIED and changes nothing but for its answer (R124, R344). -/
def Obligations.ViewsAreCreatedModifiedDeleted : Prop :=
  (∀ (s u : State) (c : Call) (p : PortIx) (v : ViewIx), u = s.at c.start → Served u c 0x0300 → c.src = .port p → argZero c 2 = none →
    (c.payload.length = 48 ∨ c.payload.length = 424) → newView u (u8 c.payload 0) = some v.val → (u.view v.val).st = .free →
    (∀ x ∈ viewChecks u (some p) v.val c.payload, x = none) →
    ∃ s', s' = u.modView v.val (fun _ => { View.reset with
        st := .created, owner := p, p := parseView c.payload, paramId := u16 c.arg 0 }) ∧
      exec (.createView c) s = .next (okWith s' c 0x0300 .fast (viewAnswer s' v.val (parseView c.payload)))) ∧
  (∀ (s u : State) (c : Call) (p : PortIx) (v : ViewIx), u = s.at c.start → Served u c 0x0301 → c.src = .port p → argZero c 2 = none →
    (c.payload.length = 48 ∨ c.payload.length = 424) → u8 c.payload 0 = v.val → (u.view v.val).st ≠ .free → (u.view v.val).owner = p →
    (∀ x ∈ viewChecks u (some p) v.val c.payload, x = none) →
    ((u.view v.val).started = true → hardSame (parseView c.payload) (u.view v.val).p = true) → u.pipe.views.length = 16 →
    ∃ s' pl, exec (.modifyView c) s = .next (okWith s' c 0x0301 .fast pl) ∧ pl = viewAnswer s' v.val (parseView c.payload) ∧
      (∀ w : Nat, w ≠ v.val → s'.view w = u.view w) ∧
      (((u.view v.val).started = false ∨ ∃ f ∈ u.pipe.frames, takesSoft c.stamp v.val f = true) →
        s'.view v.val = { u.view v.val with p := parseView c.payload, paramId := u16 c.arg 0, soft := [] }) ∧
      ((u.view v.val).started = true → (∀ f ∈ u.pipe.frames, takesSoft c.stamp v.val f = false) → Keeps [.pipe] u s' ∧
        s'.view v.val = { u.view v.val with soft := (u.view v.val).soft ++ [⟨c.stamp, u16 c.arg 0, parseView c.payload⟩] })) ∧
  (∀ (s u : State) (c : Call) (p : PortIx) (v : ViewIx), u = s.at c.start → Ready u c 0x0302 → c.src = .port p →
    c.payload = [byte v.val, 0, 0, 0] → (u.view v.val).st ≠ .free → (u.view v.val).owner = p → u.pipe.views.length = 16 →
    ∃ s', exec (.deleteView c) s = .next (okWith s' c 0x0302 .fast []) ∧ (∀ w : Nat, w ≠ v.val → s'.view w = u.view w) ∧
      ((u.view v.val).started = false → s'.view v.val = View.reset) ∧
      ((u.view v.val).started = true → Keeps [.pipe] u s' ∧ (s'.view v.val).st = (u.view v.val).st ∧ (s'.view v.val).del = true ∧
        (s'.view v.val).stopHow = some (max ((u.view v.val).stopHow.getD 1) 1))) ∧
  (∀ (s u : State) (c : Call) (p : PortIx) (v : ViewIx), u = s.at c.start → Ready u c 0x0302 → c.src = .port p →
    c.payload = [byte v.val, 0, 0, 0] → (u.view v.val).st ≠ .free → (u.view v.val).owner ≠ p →
    exec (.deleteView c) s = .next (respond u c 0x0302 .fast .denied 0 []))

/-- START_VIEW of the owner runs a CREATED view that its checks admit; STOP_VIEW of the owner or of a SAFETY host orders a running view to stop, and
VIEW_STOP_DONE carries the stop out: the view is CREATED again with nothing claimed, or FREE where DELETE_VIEW waits (R125, R126, R139, R156).
GET_STATS returns the items asked for of a held record, and changes nothing but for its answer; FRAME_DROP_REPEAT reports frames still being missed
at most once per second (R128, R154, R157, R169). -/
def Obligations.ViewsStartStopAndReport : Prop :=
  (∀ (s u : State) (c : Call) (p : PortIx) (v : ViewIx), u = s.at c.start → Ready u c 0x0303 → c.src = .port p →
    c.payload = [byte v.val, 0, 0, 0] → (u.view v.val).st = .created → (u.view v.val).owner = p → needActive u c = none → u.pw.st = .active →
    (∀ x ∈ startChecks u v.val c.start, x = none) → u.pipe.views.length = 16 →
    ∃ s', exec (.startView c) s = .next (okWith s' c 0x0303 .fast (leBytes 4 (s'.view v.val).first)) ∧
      (s'.view v.val).st = .running ∧ (s'.view v.val).since = c.start ∧ (s'.view v.val).first = firstFrame u (u.view v.val).p ∧
      (s'.view v.val).ctx = viewCtx u (u.view v.val).p ∧ (s'.view v.val).lmem = viewLmem u (u.view v.val).p ∧
      (s'.view v.val).p = (u.view v.val).p ∧ ∀ w : Nat, w ≠ v.val → s'.view w = u.view w) ∧
  (∀ (s u : State) (c : Call) (p : PortIx) (v : ViewIx) (how : Nat), u = s.at c.start → Ready u c 0x0304 → c.src = .port p → how ≤ 1 →
    c.payload = [byte v.val, byte how, 0, 0] → (u.view v.val).st = .running → ((u.view v.val).owner = p ∨ portRole u p = .safety) →
    u.pipe.views.length = 16 →
    ∃ s', exec (.stopView c) s = .next (okWith s' c 0x0304 .fast []) ∧ Keeps [.pipe] u s' ∧
      (s'.view v.val).stopHow = some (max ((u.view v.val).stopHow.getD how) how) ∧
      (s'.view v.val).st = (u.view v.val).st ∧ ∀ w : Nat, w ≠ v.val → s'.view w = u.view w) ∧
  (∀ (s u : State) (t : Time) (v : ViewIx), u = s.at t → stopReady u v = true → u.pipe.views.length = 16 →
    ∃ s', exec (.viewStopDone t v) s = .next s' ∧ (∀ f ∈ s'.pipe.frames, f.view ≠ v) ∧
      ((u.view v.val).del = true → s'.view v.val = View.reset) ∧
      ((u.view v.val).del = false → (s'.view v.val).st = .created ∧ (s'.view v.val).ctx = 0 ∧ (s'.view v.val).lmem = 0 ∧
        (s'.view v.val).stopHow = none ∧ (s'.view v.val).region = none ∧ (s'.view v.val).owner = (u.view v.val).owner)) ∧
  (∀ (u : State) (v : ViewIx), (stopReady u v = true ↔
    ((u.view v.val).stopHow = some 0 ∧ ∀ f ∈ u.pipe.frames, f.view ≠ v) ∨
    (∃ h : Nat, h ≠ 0 ∧ (u.view v.val).stopHow = some h ∧ ∀ j e, u.pipe.run = some (j, e) → j.view ≠ v))) ∧
  (∀ (s u : State) (c : Call) (r : StatRec) (items size most off : Nat), u = s.at c.start → Ready u c 0x0305 → c.payload.length = 12 →
    u8 c.payload 0 ≤ 4 → u8 c.payload 1 ≤ 3 → (u8 c.payload 1 = 2 → u8 c.payload 0 = 0) →
    statSection (u8 c.payload 0) (u8 c.payload 1) = (items, size, most, off) → u16 c.payload 2 < items → 1 ≤ u16 c.payload 4 →
    u16 c.payload 4 ≤ most → u16 c.payload 2 + u16 c.payload 4 ≤ items → u16 c.payload 6 = 0 →
    statHeld u (u8 c.payload 0) (u32 c.payload 8) = some r →
    exec (.getStats c) s = .next (okWith u c 0x0305 .fast (leBytes 4 r.frame ++ leBytes 2 r.id ++
      [byte (u8 c.payload 0), byte (u8 c.payload 1)] ++ leBytes 2 (u16 c.payload 2) ++ leBytes 2 (u16 c.payload 4) ++ zeros 4 ++
      slice r.bytes (off + u16 c.payload 2 * size) (u16 c.payload 4 * size)))) ∧
  (∀ (s u : State) (t a : Time) (v : ViewIx), u = s.at t → u.pipe.views.length = 16 → (u.view v.val).missing = true →
    (u.view v.val).missReason ≠ 1 → (0 < (u.view v.val).missCount ∨ sourceLate u (u.view v.val).p = true) →
    (u.view v.val).missAt = some a → a + sec ≤ t →
    ∃ s', exec (.frameDropRepeat t v) s = .next s' ∧ (s'.view v.val).missCount = 0 ∧ (s'.view v.val).missAt = some t ∧
      (s'.view v.val).missing = true ∧ ∀ w : Nat, w ≠ v.val → s'.view w = u.view w) ∧
  (∀ (s u : State) (t a : Time) (v : ViewIx), u = s.at t → (u.view v.val).missAt = some a → t < a + sec →
    exec (.frameDropRepeat t v) s = .next u)

/-! ## The pipeline (R137, R148 to R150) -/

/-- A job whose rows have arrived joins the ready jobs; the one that R150 puts first runs, alone, until its end; a stored RASTER frame begins its
readback 50 µs after its source ended (R137, R148 to R150). -/
def Obligations.PipelineJobsRunOneByOne : Prop :=
  (∀ (s u : State) (t : Time) (v : ViewIx) (b g k : Nat) (f : VFrame), u = s.at t → releasable u v b g k = some f →
    exec (.pipeJobRelease t v b g k) s = .next ((if f.p.order = 1 ∧ k = 0 then readStores u f b g t else u).modPipe (fun p => { p with
      ready := p.ready ++ [⟨v, f.frame, b, g, k, (jobClass u f t).1, (jobClass u f t).2⟩] }))) ∧
  (∀ (s u : State) (t : Time) (j : Job8), u = s.at t → u.pipe.run = none → nextJob u.pipe.ready = some j →
    ∃ n : Nat, exec (.pipeJobStart t) s = .next (u.modPipe (fun p => { p with
        ready := removeFirst (· = j) p.ready, run := some (j, t + divCeil (pixTime (jobPixels n)) 96) })) ∧
      ∀ f : VFrame, vframe u j.view.val j.frame = some f → n = jobSize f j) ∧
  (∀ (s u : State) (t e : Time) (j : Job8), u = s.at t → u.pipe.run = some (j, e) → e ≤ t →
    ∃ s', exec (.pipeJobComplete t) s = .next s' ∧ s'.pipe.run = none ∧ s'.pipe.views.length = u.pipe.views.length ∧
      (vframe u j.view.val j.frame = none → s' = u.modPipe (fun p => { p with run := none })) ∧
      (∀ f : VFrame, vframe u j.view.val j.frame = some f → f.rows ≠ [] →
        groupDone { f with jobs := f.jobs ++ [(j.band, j.group, j.stripe)] } j.band j.group = false →
        ∃ f' : VFrame, vframe s' j.view.val j.frame = some f' ∧ f'.jobs = f.jobs ++ [(j.band, j.group, j.stripe)])) ∧
  (∀ (s u : State) (t e : Time) (v : ViewIx) (f : VFrame), u = s.at t → memUp u = true → readbackOf u v t = some f → f.srcEnd = some e →
    exec (.rasterReadbackStart t v) s = .next (u.modVf v.val f.frame (fun g => { g with
      readback := some (e + 50 * us), late := some (e + 50 * us + 9 * f.interval / 10) })))

/-! ## Auxiliary inputs (R160 to R178) -/

/-- A Frame Start whose header arrives sound, or with one bit in error that its ECC corrects, opens the next frame of its stream, each long packet
of the stream's data type counts one line of it, and the Frame End closes it; a corrected header is counted besides. A packet whose header cannot be
corrected, or that comes before calibration, is counted and discarded, and one that an input does not receive changes nothing (R160 to R162, R167,
R168). -/
def Obligations.AuxFramesOpenFillClose : Prop :=
  (∀ (s u : State) (t : Time) (n : AuxIx) (vc : Nat) (hdr : BitVec 32) (head : BitVec 24) (ecc : Byte), u = s.at t → hdr = ecc ++ head → vc = csiVc hdr →
    u.aux.length = 4 → (u.auxIn n.val).vcs.length = 4 → auxOn u n.val = true → (u.auxIn n.val).st = .run → vc < 4 → csiOk hdr ≠ 2 → csiDt hdr = 0 →
    auxDt u n.val vc ≠ 0 →
    ∃ s', exec (.auxFrameStart t n head ecc) s = .next s' ∧ (s'.auxVc n.val vc).openAt = some t ∧
      (s'.auxVc n.val vc).count = ((u.auxVc n.val vc).count + 1) % 2 ^ 32 ∧ (s'.auxVc n.val vc).lines = 0 ∧
      (s'.auxVc n.val vc).late = false) ∧
  (∀ (s u : State) (t : Time) (n : AuxIx) (vc : Nat) (hdr : BitVec 32) (di : Byte) (wc : BitVec 16) (ecc : Byte) (payload : List Byte) (crc : BitVec 16),
    u = s.at t → hdr = ecc ++ wc ++ di → vc = csiVc hdr → u.aux.length = 4 → (u.auxIn n.val).vcs.length = 4 → auxOn u n.val = true → (u.auxIn n.val).st = .run → vc < 4 →
    csiOk hdr ≠ 2 → dtKnown (csiDt hdr) = true → auxDt u n.val vc = csiDt hdr → (u.auxVc n.val vc).openAt.isSome = true →
    ∃ s', exec (.auxLongPacket t n di wc ecc payload crc) s = .next s' ∧
      (s'.auxVc n.val vc).lines = (u.auxVc n.val vc).lines + 1 ∧
      (s'.auxVc n.val vc).openAt = (u.auxVc n.val vc).openAt) ∧
  (∀ (s u : State) (t : Time) (n : AuxIx) (vc : Nat) (hdr : BitVec 32) (head : BitVec 24) (ecc : Byte), u = s.at t → hdr = ecc ++ head → vc = csiVc hdr →
    u.aux.length = 4 → (u.auxIn n.val).vcs.length = 4 → auxOn u n.val = true → (u.auxIn n.val).st = .run → vc < 4 → csiOk hdr ≠ 2 → csiDt hdr = 1 →
    (u.auxVc n.val vc).openAt.isSome = true →
    ∃ s', exec (.auxFrameEnd t n head ecc) s = .next s' ∧ (s'.auxVc n.val vc).openAt = none ∧
      (s'.auxVc n.val vc).lastLines = min 65535 (u.auxVc n.val vc).lines ∧
      (s'.auxVc n.val vc).count = (u.auxVc n.val vc).count) ∧
  (∀ (s u : State) (t : Time) (n : AuxIx) (hdr : BitVec 32) (head : BitVec 24) (di : Byte) (wc : BitVec 16) (ecc : Byte) (payload : List Byte)
    (crc : BitVec 16) (i : Instr), u = s.at t →
    (hdr = ecc ++ head ∧ (i = .auxFrameStart t n head ecc ∨ i = .auxFrameEnd t n head ecc)) ∨
      (hdr = ecc ++ wc ++ di ∧ i = .auxLongPacket t n di wc ecc payload crc) →
    (auxOn u n.val = false → exec i s = .next u) ∧
    (auxOn u n.val = true → (u.auxIn n.val).st = .los → exec i s = .next u) ∧
    (auxOn u n.val = true → (u.auxIn n.val).st = .skewWait → exec i s = .next (u.bump (aAUX_ERR n.val) 31 24 1)) ∧
    (auxOn u n.val = true → (u.auxIn n.val).st = .run → csiOk hdr = 2 →
      ∃ s', exec i s = .next s' ∧ s'.regs = (u.bump (aAUX_ERR n.val) 15 8 1).regs ∧ Keeps [.regs, .aux] u s'))

/-- The initial skew calibration of the last lane in use lets an input run; LOS closes its frames and holds it in LOS with the failing lanes until
it recovers; a stream without a Frame Start for its LATE time becomes LATE; the statistics of a closed frame become the newest record of the input
(R160, R165, R169, R174). CONFIG_AUX stores an input's configuration and lets it take effect, and AUX_STATUS shows the input (R176 to R178). -/
def Obligations.AuxInputsAndCommands : Prop :=
  (∀ (s u : State) (t : Time) (n : AuxIx) (lane : Fin 4), u = s.at t → u.aux.length = 4 → auxOn u n.val = true →
    (u.auxIn n.val).st = .skewWait →
    ∃ s', exec (.skewCalibration t n lane true) s = .next s' ∧ Keeps [.aux] u s' ∧
      (s'.auxIn n.val).skewed = lane.val :: (u.auxIn n.val).skewed ∧
      ((∀ k : Nat, k < auxLanes u n.val → k = lane.val ∨ k ∈ (u.auxIn n.val).skewed) → (s'.auxIn n.val).st = .run) ∧
      ((∃ k : Nat, k < auxLanes u n.val ∧ k ≠ lane.val ∧ k ∉ (u.auxIn n.val).skewed) → (s'.auxIn n.val).st = .skewWait) ∧
      ∀ m : Nat, m ≠ n.val → s'.auxIn m = u.auxIn m) ∧
  (∀ (s u : State) (t : Time) (n : AuxIx) (lane : Fin 4), u = s.at t → exec (.skewCalibration t n lane false) s = .next u) ∧
  (∀ (s u : State) (t : Time) (n : AuxIx) (lanes : BitVec 4), u = s.at t → u.aux.length = 4 → (u.auxIn n.val).vcs.length = 4 →
    auxOn u n.val = true → (u.auxIn n.val).st ≠ .los →
    ∃ s', exec (.auxLos t n lanes) s = .next s' ∧ (s'.auxIn n.val).st = .los ∧ (s'.auxIn n.val).losLane = lanes.toNat ∧
      ∀ v : Nat, v < 4 → (s'.auxVc n.val v).openAt = none) ∧
  (∀ (s u : State) (t : Time) (n : AuxIx), u = s.at t → u.aux.length = 4 → auxOn u n.val = true → (u.auxIn n.val).st = .los →
    ∃ s', exec (.auxLosRecover t n) s = .next s' ∧ (s'.auxIn n.val).losLane = 0 ∧
      ((auxRate u n.val ≤ 1500 ∨ ∀ k : Nat, k < auxLanes u n.val → k ∈ (u.auxIn n.val).skewed) → (s'.auxIn n.val).st = .run) ∧
      ∀ m : Nat, m ≠ n.val → s'.auxIn m = u.auxIn m) ∧
  (∀ (s u : State) (t f : Time) (n : AuxIx) (vc : Fin 4), u = s.at t → u.aux.length = 4 → (u.auxIn n.val).vcs.length = 4 → auxOn u n.val = true →
    auxDt u n.val vc.val ≠ 0 → (u.auxVc n.val vc.val).late = false → (u.auxVc n.val vc.val).lastFs = some f →
    f + (u.auxVc n.val vc.val).act.getD 8 0 * 100 * us < t →
    ∃ s', exec (.auxLate t n vc) s = .next s' ∧ (s'.auxVc n.val vc.val).late = true) ∧
  (∀ (s u : State) (t : Time) (n : AuxIx) (r : AuxStat) (ready : AuxStat → Bool), u = s.at t → u.aux.length = 4 →
    ready = (fun r => match r.endAt with | some e => decide (e ≤ t) | none => false) → (u.auxIn n.val).stat.find? ready = some r →
    ∃ s', exec (.auxStatsComplete t n) s = .next s' ∧ (s'.auxIn n.val).stat = removeFirst ready (u.auxIn n.val).stat ∧
      ∃ x : StatRec, s'.arr.stats.head? = some x ∧ x.src = n.val + 1 ∧ x.frame = r.frame) ∧
  (∀ (s u : State) (c : Call) (p : PortIx) (n : AuxIx), u = s.at c.start → Ready u c 0x0400 → HoldsLease u c p (lAX n.val) →
    c.payload.length = 80 → u8 c.payload 0 = n.val → reservedBits c.payload 1 0xE0 = none →
    (u8 c.payload 2 = 1 ∨ u8 c.payload 2 = 2 ∨ u8 c.payload 2 = 4) → mapOk (u8 c.payload 3) (u8 c.payload 2) = true → reservedBits c.payload 4 0xE0 = none → 80 ≤ u16 c.payload 6 → u16 c.payload 6 ≤ 4500 →
    (∀ x ∈ (List.range 4).flatMap (streamChecks c.payload), x = none) → (auxHardChange u n.val (auxRegs n.val c.payload) = true → auxInUse u n.val = false) →
    exec (.configAux c) s = .next (okWith (auxApply u n.val (auxRegs n.val c.payload) c.stamp c.start) c 0x0400 .fast [])) ∧
  (∀ (s u : State) (c : Call) (n : AuxIx), u = s.at c.start → Ready u c 0x0401 → c.payload = [byte n.val, 0, 0, 0] →
    ∃ pl, exec (.auxStatus c) s = .next (okWith u c 0x0401 .fast pl) ∧ pl.length = 48 ∧ u8 pl 0 = n.val ∧
      u8 pl 1 = (u.auxIn n.val).st.code ∧ ∀ v : Fin 4, u32 pl (16 + 8 * v.val) = (u.auxVc n.val v.val).count % 2 ^ 32)

/-! ## Frame memory (R184, R189 to R215) -/

/-- A request that may enter takes its token and the next cycle of its sub-channel: a write joins the queue of its bank with its data, ahead of the
reads of its unit that came in its cycle, a read joins the end of it, but for one whose newest queued write is full, which is answered from it. One
that may not enter waits at its requester; a frozen or unavailable controller answers with a fault (R26, R189 to R191, R199, R205). MEM_PICK moves a
waiting access of the check units that may issue, or else the entry that R192 chooses, from its queue to the dies; ENTRY_AGED marks entries that
have waited for the age limit; an idle rank without entries enters power-down; the rowhammer window restarts every 32 ms (R192, R195, R201, R202). -/
def Obligations.MemoryRequestsAreScheduled : Prop :=
  (∀ (s u : State) (t : Time) (cls : Fin 6) (inst : Byte) (fma : Nat) (mask : BitVec 64) (b : List Byte) (d q : Nat), u = s.at t → fma < fmSize →
    memRefuses u.mem = false → (u.mem.st = .run ∨ u.mem.st = .train ∨ u.mem.st = .change) → d = dramUnit (fma / 64) → q = queueOf u.mem.map d →
    (∀ e ∈ u.mem.wait, ¬(e.cls = cls.val ∧ e.inst = inst.toNat)) → mayEnter u.mem cls.val q t = true →
    ∃ s' e, exec (.memRequest t cls inst fma (some (mask, b))) s = .next s' ∧ Keeps [.mem] u s' ∧
      e = ⟨cls.val, inst.toNat, d, q, .write mask.toNat (slice b 0 64), t, arrivalAt u.mem (scOf q) t, false, false, false⟩ ∧
      (∃ a : Time, { e with at_ := a } ∈ s'.mem.queue) ∧ s'.mem.wait = u.mem.wait ∧ s'.mem.undef = u.mem.undef ∧
      ((∀ x ∈ u.mem.queue, x.d = d → x.op.isWrite = true) → s'.mem.queue = u.mem.queue ++ [e] ∧ s'.mem.replies = u.mem.replies)) ∧
  (∀ (s u : State) (t : Time) (cls : Fin 6) (inst : Byte) (fma : Nat) (d q : Nat), u = s.at t → fma < fmSize →
    memRefuses u.mem = false → (u.mem.st = .run ∨ u.mem.st = .train ∨ u.mem.st = .change) → d = dramUnit (fma / 64) → q = queueOf u.mem.map d →
    (∀ e ∈ u.mem.wait, ¬(e.cls = cls.val ∧ e.inst = inst.toNat)) → mayEnter u.mem cls.val q t = true →
    ∃ s', exec (.memRequest t cls inst fma none) s = .next s' ∧ Keeps [.mem] u s' ∧
      ((∀ w, newestWrite u.mem d = some w → w.op.isFull = false) → s'.mem.replies = u.mem.replies ∧ s'.mem.queue = u.mem.queue ++
        [⟨cls.val, inst.toNat, d, q, .read, t, arrivalAt u.mem (scOf q) t, false, false, false⟩]) ∧
      (∀ w, newestWrite u.mem d = some w → w.op.isFull = true → s'.mem.queue = u.mem.queue ∧
        s'.mem.replies = [⟨cls.val, inst.toNat, d, .data (writeData u w)⟩])) ∧
  (∀ (s u : State) (t : Time) (cls : Fin 6) (inst : Byte) (fma : Nat) (w : Option (BitVec 64 × List Byte)) (d q : Nat), u = s.at t → fma < fmSize →
    memRefuses u.mem = false → d = dramUnit (fma / 64) → q = queueOf u.mem.map d →
    ((u.mem.st ≠ .run ∧ u.mem.st ≠ .train ∧ u.mem.st ≠ .change) ∨ (∃ e ∈ u.mem.wait, e.cls = cls.val ∧ e.inst = inst.toNat) ∨
      mayEnter u.mem cls.val q t = false) →
    exec (.memRequest t cls inst fma w) s = .next (u.modMem (fun m => { m with
      wait := m.wait ++ [⟨cls.val, inst.toNat, d, q, requestOp w, t, t, false, false, false⟩] }))) ∧
  (∀ (s u : State) (t : Time) (cls : Fin 6) (inst : Byte) (fma : Nat) (w : Option (BitVec 64 × List Byte)), u = s.at t → fma < fmSize →
    memRefuses u.mem = true →
    exec (.memRequest t cls inst fma w) s = .next (u.modMem (fun m => { m with
      replies := [⟨cls.val, inst.toNat, dramUnit (fma / 64), .fault⟩] }))) ∧
  (∀ (s u : State) (t : Time) (sc : Fin 8) (e : MemEnt) (r : Bool), u = s.at t → u.mem.st = .run → ckPick u sc.val t = none → pickOf u sc.val t = some (e, r) →
    ∃ s', exec (.memPick t sc) s = .next s' ∧ s'.mem.queue = removeFirst (fun x => x = e) u.mem.queue ∧
      s'.mem.dies = u.mem.dies ++ [e] ∧ s'.mem.st = .run ∧ SameBytes u s') ∧
  (∀ (s u : State) (t : Time) (sc : Fin 8) (k : CkEnt), u = s.at t → ckPick u sc.val t = some k →
    ∃ s', exec (.memPick t sc) s = .next s' ∧ s'.mem.ckq = removeFirst (fun x => x = k) u.mem.ckq ∧
      s'.mem.ckd = u.mem.ckd ++ [{ k with at_ := t }] ∧ s'.mem.queue = u.mem.queue ∧ s'.mem.dies = u.mem.dies ∧ SameBytes u s') ∧
  (∀ (s u : State) (t : Time) (q : Fin 256) (e : MemEnt), u = s.at t → e ∈ u.mem.queue → e.q = q.val → e.aged = false → agedAt u e ≤ t →
    ∃ s', exec (.entryAged t q) s = .next s' ∧ Keeps [.mem] u s' ∧
      s'.mem.queue = u.mem.queue.map (fun x => if x.q = q.val ∧ x.aged = false ∧ agedAt u x ≤ t then { x with aged := true } else x)) ∧
  (∀ (s u : State) (t : Time) (sc : Fin 8) (rank : Fin 2), u = s.at t → u.fld aMEMC_CTL 0 0 = 1 → u.mem.st = .run →
    (rankOf u.mem sc.val rank.val).down = false → (∀ e ∈ u.mem.queue ++ u.mem.dies, ¬(scOf e.q = sc.val ∧ rankIx e.q = rank.val)) →
    (∀ k ∈ u.mem.ckq ++ u.mem.ckd, ¬(scOf k.q = sc.val ∧ rankIx k.q = rank.val)) →
    (rankOf u.mem sc.val rank.val).idleFrom + memcCycles u.mem.bin (u.fld aMEMC_PD 15 0) ≤ t →
    exec (.powerDownEntry t sc rank) s = .next (u.modMem (fun m => setRank m { rankOf m sc.val rank.val with down := true }))) ∧
  (∀ (s u : State) (t : Time), u = s.at t → u.mem.rhStart + 32 * ms ≤ t →
    exec (.rowhammerWindow t) s = .next (u.modMem (fun m => { m with
      banks := m.banks.map (fun b => { b with rows := [] }), throttles := [], bankThrottle := []
      rhStart := m.rhStart + 32 * ms, rhThresh := u.fld aMEMC_RH 12 0, hotRaised := [] })))

/-- MEM_ACCESS_COMPLETE takes a finished access from the dies. A write's enabled bytes are then stored at its unit, and no other byte of frame
memory changes; a read that finds its check word at hand and no error answers with the unit's bytes, and that of a partial write goes back to its
queue for its write; one that finds no check word at hand waits for its check unit. A check unit that is written is sound again; one read for a
merge is written next, or, where it fails its CRC, freezes the controller (R184, R193, R196 to R199). -/
def Obligations.MemoryAccessCompletes : Prop :=
  (∀ (s u : State) (t : Time) (q : Fin 256) (flips chk : List (Nat × Nat)) (e : MemEnt), u = s.at t → ckFirst u.mem q.val = none →
    dataFirst u.mem q.val = some e → u.mem.st = .run → u.mem.recover = none →
    ∃ s', exec (.memAccessComplete t q flips chk) s = .next s' ∧ s'.mem.dies = removeFirst (fun x => x = e) u.mem.dies ∧
      (∀ (mask : Nat) (b : List Byte), e.op = .write mask b → busWrite e = true → e.moved = false →
        SameBytesOutside u s' (unitOf e.d * 64) 64 ∧
        ∀ k : Nat, k < 64 → fmByte s' (unitOf e.d * 64 + k) = if bit mask k then b.getD k 0 else fmByte u (unitOf e.d * 64 + k)) ∧
      ((e.moved = true ∨ busWrite e = false) → SameBytes u s') ∧
      (busWrite e = false → eccHolds u.mem e.d = false → (e, flips.filter (fun x => decide (64 ≤ x.1))) ∈ s'.mem.await) ∧
      (flips = [] → eccHolds u.mem e.d = true → errsOf u.mem e.d = [] →
        (e.op.isWrite = true → busWrite e = false → { e with half := true } ∈ s'.mem.queue) ∧
        (e.op = .read → e.moved = false → u.mem.wait = [] →
          s'.mem.replies = [⟨e.cls, e.inst, e.d, .data (fmRead u (unitOf e.d * 64) 64)⟩]))) ∧
  (∀ (s u v : State) (t : Time) (q : Fin 256) (flips chk : List (Nat × Nat)) (k : CkEnt), u = s.at t → ckFirst u.mem q.val = some k → u.mem.st = .run →
    u.mem.recover = none → v = u.modMem (fun m => addErrs m (16 * k.block + 15) (chk.filter (fun x => decide (x.1 < 64)))) →
    ∃ s', exec (.memAccessComplete t q flips chk) s = .next s' ∧ s'.mem.ckd = removeFirst (fun x => x = k) u.mem.ckd ∧ SameBytes u s' ∧
      (ckWrites k = true → s'.mem.st = .run ∧ errsOf s'.mem (16 * k.block + 15) = []) ∧
      (ckWrites k = false → k.words.isSome = true → checkFails v k.block = false → s'.mem.st = .run ∧ { k with half := true } ∈ s'.mem.ckq) ∧
      (ckWrites k = false → k.words.isSome = true → checkFails v k.block = true → s'.mem.st = .frozen)) ∧
  (∀ (s u : State) (t : Time) (q : Fin 256) (flips chk : List (Nat × Nat)), u = s.at t → ckFirst u.mem q.val = none → dataFirst u.mem q.val = none →
    exec (.memAccessComplete t q flips chk) s = .next u)

/-- A bank owes a refresh when its interval has passed, at most 8, or counts it against one pulled in; a refresh that the bank takes is one owed, or
one of up to 8 pulled in. The dies' refresh multiplier is polled every 16 ms; an idle line of the check-word buffer leaves it for the queue of the
check units (R194, R197). A write of `MEMC_BIN.TARGET` sets the target; a bin change whose check passes goes back to the state before it with the
new bin and its delays, and one whose check fails is followed by a sweep; MEM_STATUS reads the controller; MEM_RECOVER ends a freeze once the lines
of the check-word buffer and the accesses in the dies are out, or starts a sweep where it asks for one; in RUN without one it is refused (R206,
R207, R211 to R214). -/
def Obligations.MemoryIsRefreshedAndManaged : Prop :=
  (∀ (s u : State) (t : Time) (q : Fin 256) (b v : Bank), u = s.at t → diesAwake u = true → b = bankOf u.mem q.val →
    v = (if refreshDue u q.val t = true then oweRefresh u.mem b else b) →
    (refreshDue u q.val t = true ∨ (refreshInto u b t = true ∧ (0 < b.owed ∨ b.ahead < 8))) →
    ∃ s', exec (.refreshDue t q) s = .next s' ∧ Keeps [.mem] u s' ∧
      bankOf s'.mem q.val = (if refreshInto u v t = true ∧ (0 < v.owed ∨ (refreshDue u q.val t = false ∧ v.ahead < 8)) then
        { v with owed := v.owed - 1, ahead := if v.owed = 0 then v.ahead + 1 else v.ahead, busyTill := t + u.mem.tim.rfc } else v)) ∧
  (∀ (m : Mem) (b : Bank), (oweRefresh m b).dueAt = b.dueAt + refreshIv m ∧ (oweRefresh m b).owed = (if b.ahead = 0 then min 8 (b.owed + 1) else b.owed) ∧
    (oweRefresh m b).ahead = b.ahead - 1) ∧
  (∀ (s u : State) (t : Time) (reports : List (Fin 3)), u = s.at t → diesAwake u = true → u.mem.polled + 16 * ms ≤ t →
    exec (.refreshRatePoll t reports) s = .next (u.modMem (fun m => { m with
      dieMul := maxL (1 :: reports.map (fun r => 2 ^ r.val)), polled := t
      refmul := max (maxL (1 :: reports.map (fun r => 2 ^ r.val))) (hotMul u) }))) ∧
  (∀ (s u : State) (t : Time) (sc : Fin 8) (block : Nat) (l : EccLine), u = s.at t → u.mem.st = .run → ckRoom u.mem sc.val = true →
    eccLine u.mem sc.val block = some l → l.used + 10 * us ≤ t →
    ∃ s', exec (.eccLineIdle t sc block l.used) s = .next s' ∧ Keeps [.mem] u s' ∧ s'.mem.st = .run ∧ s'.mem.ecc = removeFirst (fun x => x = l) u.mem.ecc ∧
      s'.mem.ckq = u.mem.ckq ++ [⟨l.block, ckBank u.mem l.block, some l.words, false, t⟩] ∧ s'.mem.queue = u.mem.queue ∧ SameBytes u s') ∧
  (∀ (s u : State) (t : Time) (target : BitVec 2), u = s.at t → target.toNat ≠ 3 → serves u .sideband = true → storeWf u.regs = true →
    ∃ s', exec (.memcBinTargetWrite t target) s = .next s' ∧ s'.mem.target = target.toNat ∧ s'.fld aMEMC_BIN 1 0 = target.toNat ∧
      s'.mem.bin = u.mem.bin) ∧
  (∀ (s u : State) (t : Time) (ok : Bool), u = s.at t → u.pw.st ≠ .dawn → ((u.mem.st = .change ∧ u.mem.flushed = true ∧ u.mem.dies = [] ∧ u.mem.ckd = []) ∨
      (u.mem.st = .init ∧ u.mem.initTill = none)) → pllOf u 2 = .locked →
    ∃ s', exec (.binChange t ok) s = .next s' ∧
      (u.mem.recover = none → u.mem.changePend = false → (u.mem.prior = .frozen → u.mem.changeTo ≤ u.mem.cap) → SameBytes u s') ∧
      (∀ d : List Delay, ok = true → tableOf u.mem u.mem.changeTo = some d → u.mem.prior = .frozen → u.mem.recover = none →
        u.mem.changeTo ≤ u.mem.cap → s'.mem.st = .frozen ∧ s'.mem.bin = u.mem.changeTo ∧ s'.mem.dly = d) ∧
      (∀ d : List Delay, ok = true → tableOf u.mem u.mem.changeTo = some d → u.mem.prior ≠ .frozen → u.mem.changePend = false →
        u.mem.sweepPend = false → s'.mem.st = .run ∧ s'.mem.bin = u.mem.changeTo ∧ s'.mem.dly = d) ∧
      ((ok = false ∨ tableOf u.mem u.mem.changeTo = none) → s'.mem.st = .train ∧ s'.mem.prior = u.mem.prior ∧
        s'.mem.sweepBin = u.mem.changeTo)) ∧
  (∀ (s u : State) (c : Call), u = s.at c.start → Ready u c 0x0504 → c.payload = [] →
    ∃ pl, exec (.memStatus c) s = .next (okWith u c 0x0504 .fast pl) ∧ pl.length = 48 ∧ u8 pl 0 = u.mem.st.code ∧ u8 pl 1 = u.mem.bin % 256 ∧
      u8 pl 2 = u.mem.map % 256 ∧ u32 pl 8 = u.reg aMEMC_ECC_CE % 2 ^ 32) ∧
  (∀ (s u v : State) (c : Call), u = s.at c.start → ReadySlow u c 0x0505 → needLeaseOrSafety u c lARRAY = none →
    c.payload.length = 4 → u8 c.payload 0 < 4 → reserved c.payload 1 3 = none → u.mem.recover = none → v = accept u c 0x0505 (50 * ms) (u8 c.payload 0) →
    (u.mem.st = .frozen → u.mem.ecc = [] → u.mem.ckd = [] → u.mem.dies = [] → (∀ k ∈ u.mem.ckq, k.words = none) →
      ∃ s', exec (.memRecover c) s = .next s' ∧ s'.mem.held = [] ∧
      (bit (u8 c.payload 0) 0 = false → u.mem.wait = [] → u.mem.changePend = false → u.mem.sweepPend = false → s'.mem.st = .run ∧ s'.mem.recover = none) ∧
      (bit (u8 c.payload 0) 0 = true → s'.mem.st = .train ∧ s'.mem.prior = .run ∧ s'.mem.sweepBin = u.mem.bin)) ∧
    (u.mem.st = .frozen → (u.mem.ecc ≠ [] ∨ u.mem.ckd ≠ [] ∨ u.mem.dies ≠ [] ∨ ∃ k ∈ u.mem.ckq, k.words.isSome = true) →
      ∃ s', exec (.memRecover c) s = .next s' ∧ s'.mem.st = .frozen ∧ s'.mem.recover = some (u8 c.payload 0) ∧ s'.slow = v.slow) ∧
    (u.mem.st = .run → bit (u8 c.payload 0) 0 = true → exec (.memRecover c) s = .next (startSweep v .run v.mem.bin)) ∧
    (u.mem.st = .unavail → bit (u8 c.payload 0) 0 = true →
      exec (.memRecover c) s = .next (startSweep (v.modMem (fun m => wakeDies m c.start)) .unavail (wantedBin v.mem))) ∧
    (u.mem.st = .run → bit (u8 c.payload 0) 0 = false → exec (.memRecover c) s = .next (respond u c 0x0505 .slow .badState 0 [])))

/-! ## The event ring (R223 to R226, R244 to R248) -/

/-- CONFIG_RING sets the ring's settings, and with another segment count a new, empty store; MARK_EVENT extends the open segment whose window still
runs, or opens a segment in a free slot, or is refused where there is none; SEGMENT_SEAL seals a segment whose window has passed and whose records
are complete; RELEASE_SEGMENT frees a sealed one (R223 to R225, R244, R245, R248). RING_STATUS reads the ring and changes nothing but for its
answer; READ_RING of no record ends at once with OK and nothing sent, and of some starts a bulk answer on the caller's port (R246, R247). -/
def Obligations.RingSegmentsAndReads : Prop :=
  (∀ (s u : State) (c : Call) (p : PortIx), u = s.at c.start → Ready u c 0x0500 → HoldsLease u c p lRING →
    needLeaseOrSafety u c lARRAY = none → c.payload.length = 16 → u8 c.payload 0 ≤ 6 →
    reservedBits c.payload 1 0xFC = none → countIf (fun v => bit (u16 c.payload 2) v) (List.range 16) ≤ 8 → u32 c.payload 4 ≤ 60000 →
    u32 c.payload 8 ≤ 60000 → reserved c.payload 12 4 = none → memUp u = true →
    (u8 c.payload 0 = u.ring.nAs ∨ ((∀ g ∈ u.ring.segs, g.state = 0) ∧ ∀ r ∈ u.mem.regions, r.1 + r.2 ≤ (8 - u8 c.payload 0) * asMib)) →
    ∃ s', exec (.configRing c) s = .next (okWith s' c 0x0500 .fast []) ∧ Keeps [.mem, .fm, .ring] u s' ∧ s'.ring.nAs = u8 c.payload 0 ∧
      s'.ring.flags = u8 c.payload 1 ∧ s'.ring.views = u16 c.payload 2 ∧ s'.ring.pre = u32 c.payload 4 ∧ s'.ring.post = u32 c.payload 8 ∧
      s'.ring.stopped = false ∧ s'.ring.lostFlag = false ∧ (∀ i : Nat, segOf s'.ring i = { segOf u.ring i with also := (segOf s'.ring i).also }) ∧ s'.ring.nextId = u.ring.nextId ∧
      (u8 c.payload 0 ≠ u.ring.nAs → s'.ring.chunks = newChunks (u8 c.payload 0) ∧ s'.ring.recs = []) ∧
      (u8 c.payload 0 = u.ring.nAs → s'.ring.chunks = u.ring.chunks ∧ s'.ring.recs = u.ring.recs)) ∧
  (∀ (s u : State) (c : Call) (p : PortIx), u = s.at c.start → Ready u c 0x0501 → c.src = .port p → portRole u p ≠ .viewer →
    c.payload.length = 4 → u16 c.payload 0 ≤ 0xFFFE → u16 c.payload 2 = 0 → pastDusk u (u.dtime c.stamp) = false → needActive u c = none →
    ringStateCode u = 1 → u.ring.segs.length = 8 →
    (∀ i : Nat, extendable u (u.dtime c.stamp) = some i → ∃ s' pl, exec (.markEvent c) s = .next (okWith s' c 0x0501 .immediate pl) ∧
      u8 pl 0 = i ∧ (segOf s'.ring i).events = min 255 ((segOf u.ring i).events + 1) ∧ (segOf s'.ring i).lastCode = u16 c.payload 0 ∧
      (segOf s'.ring i).end_ = max (segOf u.ring i).end_ (u.dtime c.stamp + ringPost u.ring * 1000000) ∧
      (segOf s'.ring i).id = (segOf u.ring i).id ∧ ∀ j : Nat, j ≠ i → segOf s'.ring j = segOf u.ring j) ∧
    (∀ (i : Nat) (dropped : Bool) (v : State), extendable u (u.dtime c.stamp) = none → makeSlot u c.start = (some i, dropped, v) →
      ∃ s' pl, exec (.markEvent c) s = .next (okWith s' c 0x0501 .immediate pl) ∧ u8 pl 0 = i ∧ (segOf s'.ring i).state = 1 ∧
        (segOf s'.ring i).id = u.ring.nextId ∧ (segOf s'.ring i).firstCode = u16 c.payload 0 ∧
        (segOf s'.ring i).firstEvent = u.dtime c.stamp ∧ (segOf s'.ring i).end_ = u.dtime c.stamp + ringPost u.ring * 1000000 ∧
        ∀ j : Nat, j ≠ i → segOf s'.ring j = segOf v.ring j) ∧
    (∀ (dropped : Bool) (v : State), extendable u (u.dtime c.stamp) = none → makeSlot u c.start = (none, dropped, v) →
      exec (.markEvent c) s = .next (respond v c 0x0501 .immediate .noResource 0 []))) ∧
  (∀ (s u : State) (t : Time) (slot : Fin 8), u = s.at t → u.ring.segs.length = 8 → (segOf u.ring slot.val).state = 1 →
    (segOf u.ring slot.val).end_ < u.dtime t → memUp u = true → frameAwaited u (segOf u.ring slot.val) = false →
    (∀ r ∈ u.ring.recs, inWindow (segOf u.ring slot.val) r = true → r.openNow = false ∧ sealAwaited u r = false) →
    ∃ s', exec (.segmentSeal t slot) s = .next s' ∧ (segOf s'.ring slot.val).state = 2 ∧
      ∀ j : Nat, j ≠ slot.val → segOf s'.ring j = segOf u.ring j) ∧
  (∀ (s u : State) (c : Call) (slot : Fin 8), u = s.at c.start → Ready u c 0x0506 → needLeaseOrSafety u c lRING = none →
    c.payload = [byte slot.val, 0] ++ leBytes 2 (segOf u.ring slot.val).id → (segOf u.ring slot.val).id < 2 ^ 16 →
    (segOf u.ring slot.val).state ≠ 0 → (segOf u.ring slot.val).state ≠ 1 → segRead u slot.val = false → u.ring.segs.length = 8 →
    ∃ s', exec (.releaseSegment c) s = .next (okWith s' c 0x0506 .fast []) ∧ segOf s'.ring slot.val = Segment.free ∧
      ∀ j : Nat, j ≠ slot.val → segOf s'.ring j = segOf u.ring j) ∧
  (∀ (s u : State) (c : Call), u = s.at c.start → Ready u c 0x0503 → c.payload = [] →
    ∃ pl, exec (.ringStatus c) s = .next (okWith u c 0x0503 .fast pl) ∧ u8 pl 0 = ringStateCode u ∧ u8 pl 1 = u.ring.nAs % 256 ∧
      u16 pl 2 = u.ring.views % 65536 ∧ u32 pl 4 = u.ring.pre % 2 ^ 32 ∧ u32 pl 8 = u.ring.post % 2 ^ 32) ∧
  (∀ (s u : State) (c : Call) (p : PortIx) (slot : Fin 8) (v : ViewIx), u = s.at c.start → Ready u c 0x0502 → c.src = .port p →
    portRole u p ≠ .viewer → c.payload.length = 12 → u8 c.payload 0 = slot.val → u8 c.payload 1 = v.val → 1 ≤ u8 c.payload 2 →
    u8 c.payload 2 ≤ 15 → u8 c.payload 3 = 0 → (segOf u.ring slot.val).state ≠ 0 → u.mem.st = .run → (u.port p).bulk = none →
    u.ports.length = 4 →
    ∃ s', exec (.readRing c) s = .next s' ∧ s'.ring = u.ring ∧
      (u32 c.payload 4 < (segRecs u slot.val v.val).length → ∃ b : Bulk, (s'.port p).bulk = some b ∧ b.tag = c.tag ∧ b.vs = u8 c.payload 2 ∧
        b.seg = slot.val) ∧
      ((segRecs u slot.val v.val).length ≤ u32 c.payload 4 → (s'.port p).bulk = none ∧
        ∃ r : Rsp, (s'.port p).mbx.wait.getLast? = some r ∧ r.opcode = 0x0502 ∧ r.tag = c.tag ∧ r.status = .ok))

/-! ## Hold-up (R237 to R243, R249, R250) -/

/-- System priority: VIO samples below 1.74 V let the input limit step down, and 10 ms at 1.76 V lets it step up, one step of four at a time (R237).
A pulse ends in a rest with its charge counted, a rest in a measurement; a full store is checked every 10 s and charged again below 97 %; more
charge than the budget is a fault; the target ends FAST (R238 to R241). -/
def Obligations.ChargerYieldsPulsesRests : Prop :=
  (∀ (s u : State) (t : Time) (mv : Nat), u = s.at t → powered u = true →
    exec (.chargerVioSample t mv) s = .next (u.modHold (fun h => { h with
      vioLow := decide (mv < 1740), downAt := if mv < 1740 ∧ h.vioLow = false then t else h.downAt
      vioHighSince := if 1760 ≤ mv then some (h.vioHighSince.getD t) else none }))) ∧
  (∀ (s u : State) (t : Time), u = s.at t → powered u = true → u.hold.vioLow = true → u.hold.steps < 4 → u.hold.downAt + 50 * us ≤ t →
    exec (.chargerLimitDown t) s = .next (u.modHold (fun h => { h with steps := h.steps + 1, downAt := t }))) ∧
  (∀ (s u : State) (t a : Time), u = s.at t → powered u = true → 0 < u.hold.steps → u.hold.vioHighSince = some a → a + 10 * ms ≤ t →
    exec (.chargerLimitUp t) s = .next (u.modHold (fun h => { h with steps := h.steps - 1, vioHighSince := some t }))) ∧
  (∀ (s u : State) (t : Time) (mean dq v1 iOut : Nat), u = s.at t → powered u = true → charging u.hold = true → u.hold.pulse = true →
    u.hold.pulseAt + 900 * ms ≤ t →
    ∃ s', exec (.chargerRestStart t mean dq v1 iOut) s = .next s' ∧ s'.hold.pulse = false ∧ s'.hold.pulseAt = t ∧
      s'.hold.q = u.hold.q + dq ∧ s'.hold.iIn = mean) ∧
  (∀ (s u : State) (t : Time) (ocv ohm : Nat), u = s.at t → powered u = true → charging u.hold = true → u.hold.pulse = false →
    u.hold.pulseAt + 100 * ms ≤ t →
    ∃ s', exec (.chargerPulseEnd t ocv ohm) s = .next s' ∧ s'.hold.ocv = ocv ∧ s'.hold.ntcAt = t) ∧
  (∀ (s u : State) (t : Time) (ocv : Nat), u = s.at t → powered u = true → u.hold.phase = .done → u.hold.pulseAt + 10 * sec ≤ t →
    ∃ s', exec (.chargerOcvCheck t ocv) s = .next s' ∧ s'.hold.ocv = ocv ∧ s'.hold.pulseAt = t ∧
      s'.hold.phase = if huTarget u + 50 < ocv then .fault else if 100 * ocv < 97 * effTarget u then .maintain else .done) ∧
  (∀ (s u : State) (t : Time) (dq : Nat), u = s.at t → powered u = true → charging u.hold = true → u.hold.pulse = true →
    budget u < u.hold.q + dq →
    ∃ s', exec (.chargeBudgetExceeded t dq) s = .next s' ∧ s'.hold.phase = .fault ∧ s'.hold.pulse = false ∧ s'.hold.q = u.hold.q + dq ∧
      1 ∈ s'.hold.faults) ∧
  (∀ (s u : State) (t : Time) (mv : Nat), u = s.at t → powered u = true → u.hold.phase = .fast → u.hold.pulse = true → effTarget u ≤ mv →
    exec (.chargeTargetReached t mv) s = .next (u.modHold (fun h => { h with phase := .taper, lowPulses := 0 })))

/-- NTC_READ takes the store temperature once per second while the charger does not charge; a lamp follows its pattern; CONFIG_HOLDUP lets its
settings take effect; HOLDUP_STATUS reads the charger (R239, R242, R249, R250). -/
def Obligations.HoldupSensingAndCommands : Prop :=
  (∀ (s u : State) (t : Time) (ohm : Nat), u = s.at t → powered u = true → charging u.hold = false → u.hold.ntcAt + sec ≤ t → storeWf u.regs = true →
    ∃ s', exec (.ntcRead t ohm) s = .next s' ∧ s'.hold.ntcAt = t ∧ s'.hold.ocv = u.hold.ocv ∧
      (200 ≤ ohm → ohm ≤ 1000000 → s'.hold.temp = ntcTemp ohm (u.fld aHOLD_NTC 31 16)) ∧
      ((ohm < 200 ∨ 1000000 < ohm) → s'.hold.temp = u.hold.temp ∧ 4 ∈ s'.hold.faults)) ∧
  (∀ (s u : State) (t : Time) (pin : Fin 2), u = s.at t →
    exec (.lanternPatternTick t pin) s =
      .next (u.modHold (fun h => { h with lampOn := modAt h.lampOn pin.val (fun _ => patternOn (lampPattern u pin.val) t) }))) ∧
  (∀ (s u : State) (c : Call), u = s.at c.start → Ready u c 0x0603 → needLeaseOrSafety u c lARRAY = none →
    c.payload.length = 16 → u8 c.payload 0 ≤ 3 → (bit (u8 c.payload 0) 0 = true → u.hold.srcClass ≠ 0) → u8 c.payload 1 = 0 → 1200 ≤ u16 c.payload 2 → u16 c.payload 2 ≤ 1750 →
    10 ≤ u16 c.payload 4 → u16 c.payload 4 ≤ 500 → holdIlimOk u (u16 c.payload 6) = true → 2000 ≤ u16 c.payload 8 →
    u16 c.payload 8 ≤ 5000 → u8 c.payload 10 ≤ 6 → u8 c.payload 11 ≤ 6 → 10 ≤ u16 c.payload 12 → u16 c.payload 12 ≤ 2000 →
    u16 c.payload 14 = 0 →
    exec (.configHoldup c) s = .next (okWith (holdApply u (u8 c.payload 0 + u8 c.payload 10 * 256 + u8 c.payload 11 * 4096)
      (u16 c.payload 2 + u16 c.payload 4 * 65536) (u16 c.payload 6 + u16 c.payload 12 * 65536) (u16 c.payload 8) c.start) c 0x0603 .fast [])) ∧
  (∀ (s u : State) (c : Call), u = s.at c.start → Ready u c 0x0602 → c.payload = [] →
    ∃ pl, exec (.holdupStatus c) s = .next (okWith u c 0x0602 .fast pl) ∧ pl.length = 32 ∧ u8 pl 0 = u.hold.phase.code ∧
      u8 pl 1 = u.hold.srcClass % 256 ∧ u16 pl 4 = u.hold.ocv % 65536 ∧ u32 pl 20 = u.hold.q % 2 ^ 32)

/-! ## Stenal Link ports (R253 to R289) -/

/-- A port in DETECT takes a new attempt when its back-off ends, sends a Beacon burst when one is due, and enters CLOCK with first-pass rates, the
upright map and no delays after a valid UCLK; an agreed change of rate restarts it in CLOCK at the new rates as a rate pass, and a wanted one takes
it out of ACTIVE without a drop (R268, R270, R277, R278, R280, R281). -/
def Obligations.PortsStartTraining : Prop :=
  (∀ (s u : State) (t : Time) (p : PortIx), u = s.at t → (u.port p).tr.st = .detect → (u.port p).tr.backoffOver = false →
    (u.port p).tr.backoffEnd ≤ t →
    exec (.backoffEnd t p) s = .next (u.modTr p (fun r => { r with backoffOver := true, nextBeacon := r.backoffEnd }))) ∧
  (∀ (s u : State) (t : Time) (p : PortIx), u = s.at t → u.ports.length = 4 → (u.port p).tr.st = .detect →
    (u.port p).tr.backoffOver = true → (u.port p).tr.nextBeacon ≤ t →
    ∃ s', exec (.beaconBurst t p) s = .next s' ∧ Keeps [.ports] u s' ∧ (s'.port p).tr.st = .detect ∧
      (s'.port p).tr.nextBeacon = t + max (100 * ms) (backoff (u.port p).tr.fails) ∧
      (s'.port p).tr.blkSeq = ((u.port p).tr.blkSeq + 625) % 256 ∧
      (s'.port p).tr.blocks = (List.range 4).map (fun k => trainBlockOf 0x01 k PortSt.detect.code (u.port p).tr.blkSeq
        ([byte (u.ctlFld p 5 4), byte (u.ctlFld p 8 8), byte (1 + 2 * u.ctlFld p 11 11), byte (b2n (decide (0 < (u.port p).tr.rxGood))), 0,
          byte u.pw.devid, byte p.val] ++ zeros 9)) ∧
      ∀ q : PortIx, q ≠ p → s'.port q = u.port q) ∧
  (∀ (s u : State) (t : Time) (p : PortIx), u = s.at t → u.ports.length = 4 → (u.port p).tr.st = .detect → (u.port p).tr.backoffOver = true →
    (u.port p).phy.los = false → (u.port p).phy.lol = false →
    ∃ s', exec (.uclkValid t p) s = .next s' ∧ (s'.port p).tr.st = .clock ∧ (s'.port p).tr.pass = 0 ∧ (s'.port p).tr.dnRate = 0 ∧
      (s'.port p).tr.upRate = 0 ∧ (s'.port p).phy.map = [0, 1, 2, 3] ∧ (s'.port p).phy.delay = [0, 0, 0, 0] ∧
      ∀ q : PortIx, q ≠ p → s'.port q = u.port q) ∧
  (∀ (s u : State) (t : Time) (p : PortIx), u = s.at t → u.ports.length = 4 → (u.port p).tr.st = .rate → (u.port p).tr.rateStep = .idle →
    (u.port p).tr.idleEnd ≤ t →
    ∃ s', exec (.rateIdleEnd t p) s = .next s' ∧ (s'.port p).tr.st = .clock ∧ (s'.port p).tr.pass = 1 ∧
      (s'.port p).tr.dnRate = (u.port p).tr.offDn ∧ (s'.port p).tr.upRate = (u.port p).tr.offUp ∧
      (s'.port p).phy.map = (u.port p).phy.map ∧ ∀ q : PortIx, q ≠ p → s'.port q = u.port q) ∧
  (∀ (s u : State) (t d : Time) (p : PortIx), u = s.at t → u.ports.length = 4 → (u.port p).tr.st = .active →
    1024 ≤ (u.port p).lt.cwSince → (u.port p).tr.changeAt = some d → d ≤ t →
    ∃ s', exec (.rateChangeStart t p) s = .next s' ∧ (s'.port p).tr.st = .rate ∧ (s'.port p).tr.away = true ∧
      (s'.port p).tr.changeAt = none ∧ (s'.port p).dropAt = (u.port p).dropAt ∧ s'.leases = u.leases)

/-- What a host training block does, to its port alone: an invalid one is counted and breaks the runs of good blocks; in DETECT a valid one does
nothing; ABORT fails the attempt; two good messages in a row take CLOCK to LANES or DESKEW, LANES to DESKEW, DESKEW to EQUALISE, EQUALISE to RATE,
and RATE to its count-down or to a change of rate 50 µs later (R272 to R280). -/
def Obligations.TrainingBlocksAdvanceThePort : Prop :=
  (∀ (s u : State) (t : Time) (p : PortIx) (b : List Byte), u = s.at t →
    ∃ s', exec (.trainingBlockRx t p b) s = .next s' ∧ Keeps [.free, .regs, .ports] u s' ∧ ∀ q : PortIx, q ≠ p → s'.port q = u.port q) ∧
  (∀ (s u : State) (t : Time) (p : PortIx) (b x : List Byte) (inv : Bool), u = s.at t → (u.port p).tr.st = .detect →
    readBlock b = some (x, inv) → exec (.trainingBlockRx t p b) s = .next u) ∧
  (∀ (s u : State) (t : Time) (p : PortIx) (b : List Byte), u = s.at t → (training (u.port p).tr.st = true ∨ (u.port p).tr.st = .detect) →
    readBlock b = none →
    exec (.trainingBlockRx t p b) s =
      .next ((u.bump (aLINK_CNT p.val) 7 0 1).modTr p (fun r => { r with good := 0, rxGood := 0 }))) ∧
  (∀ (s u : State) (t : Time) (p : PortIx) (b x : List Byte) (inv : Bool), u = s.at t → u.ports.length = 4 →
    training (u.port p).tr.st = true → readBlock b = some (x, inv) → u8 x 8 = 0x0F →
    ∃ s', exec (.trainingBlockRx t p b) s = .next s' ∧ (s'.port p).tr.st = .detect ∧ (s'.port p).tr.reason = 6 ∧
      (s'.port p).tr.failState = (u.port p).tr.st.code ∧ (s'.port p).tr.fails = min 255 ((u.port p).tr.fails + 1) ∧
      (s'.port p).tr.backoffOver = false ∧ (s'.port p).tr.backoffEnd = t + backoff (min 255 ((u.port p).tr.fails + 1))) ∧
  (∀ (s u : State) (t : Time) (p : PortIx) (b x : List Byte) (inv : Bool), u = s.at t → u.ports.length = 4 → (u.port p).tr.st = .clock →
    readBlock b = some (x, inv) → u8 x 8 = 1 → u8 x 10 = 2 → u8 x 15 = 1 → 7 ≤ (u.port p).tr.rxGood → 1 ≤ (u.port p).tr.good →
    ∃ s', exec (.trainingBlockRx t p b) s = .next s' ∧ (s'.port p).phy.upInv = inv ∧ (s'.port p).tr.hostDn = min 3 (u8 x 12) ∧
      (s'.port p).tr.st = if (u.port p).tr.pass = 0 then .lanes else .deskew) ∧
  (∀ (s u : State) (t : Time) (p : PortIx) (b x : List Byte) (inv : Bool), u = s.at t → u.ports.length = 4 → (u.port p).tr.st = .lanes →
    readBlock b = some (x, inv) → u8 x 8 = 3 → u8 x 10 = 3 → (∀ r : Nat, r < 4 → u8 x (12 + r) = r) → 1 ≤ (u.port p).tr.good →
    ∃ s', exec (.trainingBlockRx t p b) s = .next s' ∧ (s'.port p).tr.st = .deskew ∧ (s'.port p).phy.map = (u.port p).phy.map) ∧
  (∀ (s u : State) (t : Time) (p : PortIx) (b x : List Byte) (inv : Bool), u = s.at t → u.ports.length = 4 → (u.port p).tr.st = .deskew →
    readBlock b = some (x, inv) → u8 x 8 = 4 → u8 x 10 = 4 → (∀ r : Nat, r < 4 → u8 x (12 + r) = 0) →
    (u.port p).phy.delay = (List.range 4).map (fun r => u8 x (16 + r)) → 1 ≤ (u.port p).tr.good →
    ∃ s', exec (.trainingBlockRx t p b) s = .next s' ∧ (s'.port p).tr.st = .equalise ∧ (s'.port p).phy.delay = (u.port p).phy.delay ∧
      (s'.port p).phy.ffePreset = List.replicate 4 (ratePreset (u.port p).tr.dnRate) ∧ (s'.port p).phy.upOk = false) ∧
  (∀ (s u : State) (t : Time) (p : PortIx) (b x : List Byte) (inv : Bool), u = s.at t → u.ports.length = 4 → (u.port p).tr.st = .equalise →
    readBlock b = some (x, inv) → u8 x 8 = 5 → u8 x 10 = 5 → (u.port p).phy.reqSeen = true → (u.port p).phy.reqId = u8 x 16 →
    bit (u8 x 17) 0 = true → (u.port p).phy.upOk = true → 1 ≤ (u.port p).tr.good →
    ∃ s', exec (.trainingBlockRx t p b) s = .next s' ∧ (s'.port p).tr.st = .rate ∧ (s'.port p).tr.offDn = (offer u p).1 ∧
      (s'.port p).tr.offUp = (offer u p).2.1) ∧
  (∀ (s u : State) (t : Time) (p : PortIx) (b x : List Byte) (inv fin : Bool), u = s.at t → u.ports.length = 4 → (u.port p).tr.st = .rate →
    (u.port p).tr.rateStep = .offer → readBlock b = some (x, inv) → u8 x 8 = 6 → u8 x 10 = 6 → u8 x 12 = (u.port p).tr.offDn →
    u8 x 13 = (u.port p).tr.offUp → u8 x 15 = 1 → 1 ≤ (u.port p).tr.good →
    fin = decide ((u.port p).tr.offDn = (u.port p).tr.dnRate ∧ (u.port p).tr.offUp = (u.port p).tr.upRate) →
    u8 x 14 = b2n (u.port p).tr.offPreDn + 2 * b2n (u.port p).tr.offPreUp + 4 * b2n fin →
    ∃ s', exec (.trainingBlockRx t p b) s = .next s' ∧ (s'.port p).tr.st = .rate ∧
      (fin = true → (s'.port p).tr.rateStep = .go ∧ (s'.port p).lt.txSeq = 0 ∧ (s'.port p).lt.rxSeq = none) ∧
      (fin = false → (s'.port p).tr.rateStep = .idle ∧ (s'.port p).tr.idleEnd = t + 50 * us))

/-- How a port fails: a training state that lasts too long returns to DETECT with the next back-off; loss of signal or of lock for 10 µs, ABORT, or
the third bad marker in a row drop an ACTIVE port to DETECT, which leaves its leases for 250 ms, and fail the attempt of a training one; a shorter
loss is counted; and the views of a port whose hold timer has run out are freed (R261, R265 to R271, R302, R325, R352). -/
def Obligations.PortsFailAndDrop : Prop :=
  (∀ (s u : State) (t : Time) (p : PortIx), u = s.at t → u.ports.length = 4 → training (u.port p).tr.st = true →
    (u.port p).tr.entered + trainLimit (u.port p).tr.st ≤ t →
    ∃ s', exec (.trainingTimeout t p) s = .next s' ∧ (s'.port p).tr.st = .detect ∧
      (s'.port p).tr.reason = (if (u.port p).tr.st = .lanes ∧ ((u.port p).tr.lastLeads = [] ∨ ∃ x ∈ (u.port p).tr.lastLeads, 128 ≤ x) then 2 else 1) ∧
      (s'.port p).tr.fails = min 255 ((u.port p).tr.fails + 1) ∧
      (s'.port p).tr.backoffEnd = t + backoff (min 255 ((u.port p).tr.fails + 1))) ∧
  (∀ (s u : State) (t : Time) (p : PortIx) (ppm : Int), u = s.at t →
    exec (.losOnset t p false ppm) s = .next (u.modPhy p (fun y => if y.los then y else { y with los := true, losAt := t }))) ∧
  (∀ (s u : State) (t : Time) (p : PortIx) (ppm : Int), u = s.at t → u.ports.length = 4 → freqDue (u.port p).phy t = true →
    ∃ s', exec (.losOnset t p true ppm) s = .next s' ∧ (s'.port p).tr = (u.port p).tr ∧ (s'.port p).phy.freqPpm = ppm ∧
      (s'.port p).phy.freqAt = some t ∧ (s'.port p).phy.los = (u.port p).phy.los ∧
      (s'.port p).phy.lol = decide (1000 < ppm.natAbs) ∧
      ((u.port p).phy.lol = true → (s'.port p).phy.lolAt = (u.port p).phy.lolAt) ∧
      ((u.port p).phy.lol = false → 1000 < ppm.natAbs → (s'.port p).phy.lolAt = t)) ∧
  (∀ (s u : State) (t : Time) (p : PortIx) (ppm : Int), u = s.at t → freqDue (u.port p).phy t = false →
    exec (.losOnset t p true ppm) s = .next u) ∧
  (∀ (s u v : State) (t : Time) (p : PortIx), u = s.at t → (u.port p).phy.los = true → v = u.modPhy p (fun y => { y with los := false }) →
    exec (.losClear t p none) s = .next (if t ≤ (u.port p).phy.losAt + 10 * us ∧ clockToActive (v.port p).tr.st = true then
      v.bump (aLINK_CNT p.val) 31 16 1 else v)) ∧
  (∀ (s u v : State) (t : Time) (p : PortIx) (ppm : Int), u = s.at t → (u.port p).phy.lol = true → freqDue (u.port p).phy t = true →
    v = u.modPhy p (fun y => { y with freqPpm := ppm, freqAt := some t }) →
    (ppm.natAbs ≤ 1000 → exec (.losClear t p (some ppm)) s = .next (endLoss v p true t)) ∧
    (1000 < ppm.natAbs → ∃ s', exec (.losClear t p (some ppm)) s = .next s' ∧ Keeps [.ports] u s' ∧ (s'.port p).phy = (v.port p).phy)) ∧
  (∀ (s u : State) (t : Time) (p : PortIx) (lol : Bool), u = s.at t → u.ports.length = 4 →
    (if lol then (u.port p).phy.lol else (u.port p).phy.los) = true → clockToActive (u.port p).tr.st = true →
    lossAt (u.port p).phy lol + 10 * us ≤ t →
    ∃ s', exec (.losFailure t p lol) s = .next s' ∧ (s'.port p).tr.st = .detect ∧ (s'.port p).tr.reason = (if lol then 8 else 7) ∧
      s'.leases = u.leases ∧
      ((u.port p).tr.st = .active → (s'.port p).tr.fails = (u.port p).tr.fails ∧ (s'.port p).dropAt = some t) ∧
      ((u.port p).tr.st ≠ .active → (s'.port p).tr.fails = min 255 ((u.port p).tr.fails + 1))) ∧
  (∀ (s u v : State) (t e : Time) (p : PortIx) (body : List Byte), u = s.at t → u.ports.length = 4 → (u.port p).tr.st = .active →
    takeIn u p tTRAIN body t = (e, v) →
    (body.length = 8 → crc32Ok body = true → u8 body 0 = 0x0F → ∃ s', exec (.trainCell t p body) s = .next s' ∧ (s'.port p).tr.st = .detect ∧
      (s'.port p).tr.reason = 6 ∧ (s'.port p).dropAt = some e ∧ s'.leases = u.leases) ∧
    (body.length = 8 → crc32Ok body = true → u8 body 0 ≠ 0x0F → exec (.trainCell t p body) s = .next (proto v p)) ∧
    ((body.length ≠ 8 ∨ crc32Ok body = false) → exec (.trainCell t p body) s = .next (v.bump (aLINK_PKT_ERR p.val) 31 16 1))) ∧
  (∀ (s u : State) (t : Time) (p : PortIx) (m : List Byte), u = s.at t → u.ports.length = 4 → (u.port p).tr.st = .active →
    256 ≤ (u.port p).lt.cwUp → markerOk (u.port p) m = false → 2 ≤ (u.port p).lt.amBad →
    ∃ s', exec (.alignmentMarkerRx t p m) s = .next s' ∧ (s'.port p).tr.st = .detect ∧ (s'.port p).tr.reason = 9 ∧
      (s'.port p).dropAt = some t) ∧
  (∀ (s u : State) (t h : Time) (p : PortIx) (v : ViewIx), u = s.at t → u.ports.length = 4 → u.pipe.views.length = 16 →
    (u.port p).tr.st ≠ .active → (u.port p).holdEnd = some h → h ≤ t →
    ∃ s', exec (.holdExpiry t p) s = .next s' ∧ (s'.port p).holdEnd = none ∧
      ((u.view v.val).st = .paused → (u.view v.val).owner = p → (u.view v.val).del = false →
        (s'.view v.val).st = .created ∧ (s'.view v.val).owner = p) ∧
      ((u.view v.val).owner ≠ p → s'.view v.val = u.view v.val))

/-- The receiver's measures: the CTLE choice keeps the setting with the greatest height, the first of equals; adaptation moves each DFE tap by at
most one; the sampling phase moves by one step; and the PRBS checker synchronises, counts a window's errors, loses SYNC at 16 of 64, and in EQUALISE
accepts the upstream at up to 83 errors in 2²³ bits (R255, R264, R279, R283). -/
def Obligations.ReceiversMeasureAndAdapt : Prop :=
  (∀ (s u : State) (t : Time) (p : PortIx) (h : Nat), u = s.at t → u.ports.length = 4 → (u.port p).tr.st = .equalise →
    (u.port p).phy.ctleTry < 16 → (u.port p).phy.ctleAt + upSymbols (u.port p).tr.upRate 32768 ≤ t →
    ∃ s', exec (.ctleSettingStep t p h) s = .next s' ∧ (s'.port p).phy.ctleTry = (u.port p).phy.ctleTry + 1 ∧ (s'.port p).phy.ctleAt = t ∧
      (((u.port p).phy.ctleTry = 0 ∨ (u.port p).phy.ctleBest < min 255 h) →
        (s'.port p).phy.ctle = (u.port p).phy.ctleTry ∧ (s'.port p).phy.eye = min 255 h) ∧
      ((u.port p).phy.ctleTry ≠ 0 → min 255 h ≤ (u.port p).phy.ctleBest →
        (s'.port p).phy.ctle = (u.port p).phy.ctle ∧ (s'.port p).phy.eye = (u.port p).phy.eye)) ∧
  (∀ (s u : State) (t : Time) (p : PortIx) (err : Bool) (data : List Bool), u = s.at t → u.ports.length = 4 →
    (((u.port p).tr.st = .equalise ∧ 16 ≤ (u.port p).phy.ctleTry) ∨ (u.port p).tr.st = .rate ∨ (u.port p).tr.st = .active) →
    (u.port p).phy.los = false → (u.port p).phy.lol = false → u.ctlFld p 12 12 = 0 →
    ((u.port p).test.run = true → (u.port p).test.inj = 0) → (u.port p).phy.dfeAt + upSymbols (u.port p).tr.upRate 256 ≤ t →
    (u.port p).phy.dfe.length = 5 →
    (∀ k : Nat, k < 5 → -(if k = 0 then 64 else 32) ≤ (u.port p).phy.dfe.getD k 0 ∧ (u.port p).phy.dfe.getD k 0 < (if k = 0 then 64 else 32)) →
    ∃ s', exec (.dfeAdapt t p err data) s = .next s' ∧ (s'.port p).phy.dfe.length = 5 ∧ (s'.port p).tr = (u.port p).tr ∧
      (s'.port p).phy.dfeAt = t ∧
      ∀ k : Nat, k < 5 → ((s'.port p).phy.dfe.getD k 0 - (u.port p).phy.dfe.getD k 0).natAbs ≤ 1 ∧
        -(if k = 0 then 64 else 32) ≤ (s'.port p).phy.dfe.getD k 0 ∧ (s'.port p).phy.dfe.getD k 0 < (if k = 0 then 64 else 32)) ∧
  (∀ (s u : State) (t : Time) (p : PortIx) (later : Bool), u = s.at t → (u.port p).tr.st = .active →
    (u.port p).phy.phaseAt + upSymbols (u.port p).tr.upRate 1024 ≤ t →
    exec (.phaseTrack t p later) s = .next (u.modPhy p (fun y => { y with
      phase := (if later then y.phase + 1 else y.phase + 255) % 256, phaseAt := t }))) ∧
  (∀ (s u : State) (t : Time) (p : PortIx) (errors : Nat), u = s.at t → u.ports.length = 4 → checking (u.port p) = true →
    (u.port p).phy.chkSync = true → ((u.port p).tr.st = .test ∨ 16 ≤ (u.port p).phy.ctleTry) → (u.port p).phy.winAt + winSpan (u.port p) ≤ t →
    ∃ s', exec (.prbsWindowEnd t p errors) s = .next s' ∧ (s'.port p).tr = (u.port p).tr ∧
      (s'.port p).phy.chkBits = (u.port p).phy.chkBits + (2 ^ 23 - (u.port p).phy.winBits) ∧ (s'.port p).phy.winBits = 0 ∧
      (s'.port p).phy.winErrs = 0 ∧ (s'.port p).phy.winAt = t ∧
      ((u.port p).tr.st = .equalise → (s'.port p).phy.upOk = decide (errors ≤ 83) ∧ (s'.port p).test = (u.port p).test) ∧
      ((u.port p).tr.st = .test → (s'.port p).phy.upOk = (u.port p).phy.upOk ∧
        (s'.port p).test.errors = (u.port p).test.errors + (errors - (u.port p).phy.winErrs))) ∧
  (∀ (s u : State) (t : Time) (p : PortIx) (rx : List Bool) (n m e st : Nat), u = s.at t → u.ports.length = 4 → checking (u.port p) = true →
    (u.port p).phy.chkSync = false → prbsPoly (checkPat (u.port p)) = (n, m) →
    prbsCheck n m (prbsLoad (rx.take n)) ((rx.drop n).take 64) 0 = (e, st) →
    (e = 0 → n + 64 ≤ rx.length →
      exec (.prbsSyncAcquired t p rx) s = .next (u.modPhy p (fun y => { y with
        chkSync := true, chkState := st, winBits := 0, winErrs := 0, winAt := t }))) ∧
    ((e ≠ 0 ∨ rx.length < n + 64) → exec (.prbsSyncAcquired t p rx) s = .next u)) ∧
  (∀ (s u : State) (t : Time) (p : PortIx) (rx : List Bool) (n m e st : Nat), u = s.at t → u.ports.length = 4 → checking (u.port p) = true →
    (u.port p).phy.chkSync = true → prbsPoly (checkPat (u.port p)) = (n, m) → rx.length = 64 →
    prbsCheck n m (u.port p).phy.chkState rx 0 = (e, st) →
    ∃ s', exec (.prbsSyncLoss t p rx) s = .next s' ∧ (s'.port p).phy.chkSync = decide (e < 16) ∧
      (s'.port p).phy.chkBits = (u.port p).phy.chkBits + 64 ∧ (s'.port p).test.errors = (u.port p).test.errors + e ∧
      (s'.port p).test.syncLoss = (u.port p).test.syncLoss + if 16 ≤ e then 1 else 0)

/-- LINK_STATUS reads a port; SET_LINK_RATE stores the settings of the caller's port, or for SAFETY of any, and disables one; LINK_TEST without a
pattern, which only a port in ACTIVE takes, starts its injection at once and with one waits for its response to leave; each injection counts once
per selected lane; and the end of a test with a pattern trains the port again as a rate pass and completes the command (R268, R284, R286 to R288). -/
def Obligations.LinkCommandsAndTests : Prop :=
  (∀ (s u : State) (c : Call) (p : PortIx), u = s.at c.start → Ready u c 0x0800 → c.payload = [byte p.val, 0, 0, 0] →
    ∃ pl, exec (.linkStatus c) s = .next (okWith u c 0x0800 .fast pl) ∧ pl.length = 32 ∧ u8 pl 0 = p.val ∧
      u8 pl 1 = (u.port p).tr.st.code ∧ u8 pl 2 = (u.port p).tr.dnRate % 256 ∧ u8 pl 3 = (u.port p).tr.upRate % 256 ∧
      u8 pl 5 = (u.port p).tr.fails % 256 ∧ u32 pl 20 = u.fld (aLINK_CNT p.val) 31 16 ∧ u32 pl 24 = u.fld (aLINK_CNT p.val) 15 8) ∧
  (∀ (s u : State) (c : Call) (p q : PortIx) (dn up f : Nat), u = s.at c.start → u.ports.length = 4 → Ready u c 0x0802 → c.src = .port p →
    c.payload = [byte q.val, byte dn, byte up, byte f] → dn ≤ 3 → up ≤ 1 → f < 16 → (p = q → bit f 0 = true) →
    (p ≠ q → portRole u p = .safety) → storeWf u.regs = true →
    ∃ s', exec (.setLinkRate c) s = .next s' ∧ (s'.port q).tr.fails = 0 ∧ (s'.port q).tr.fall = 3 ∧ s'.ctlFld q 5 4 = dn ∧
      s'.ctlFld q 8 8 = up ∧ s'.ctlFld q 0 0 = b2n (bit f 0) ∧ s'.ctlFld q 10 10 = b2n (bit f 1) ∧ s'.ctlFld q 11 11 = b2n (bit f 2) ∧
      (bit f 0 = true → (u.port q).tr.st ≠ .quiet → (s'.port q).tr.st = (u.port q).tr.st) ∧
      (bit f 0 = false → (s'.port q).tr.st = .quiet)) ∧
  (∀ (s u : State) (c : Call) (p q : PortIx) (pat fl lanes inj k dur : Nat), u = s.at c.start → u.ports.length = 4 → ReadySlow u c 0x0801 →
    c.src = .port p → c.payload = [byte q.val, byte pat, byte fl, byte lanes, byte inj, byte k, 0, 0] ++ leBytes 4 dur →
    (p ≠ q → portRole u p = .safety) → pat ≤ 3 → fl ≤ 3 → (pat = 0 → fl = 0) → lanes < 16 →
    inj ≤ 2 → 10 ≤ k → k ≤ 30 → 1 ≤ dur → dur ≤ 60000 → (pat = 0 → (u.port q).tr.st = .active) → (u.port q).test.run = false →
    ∃ s', exec (.linkTest c) s = .next s' ∧ (s'.port q).test.pat = pat ∧ (s'.port q).test.inj = inj ∧ (s'.port q).test.lanes = lanes ∧
      (s'.port q).test.genDn = bit fl 0 ∧ (s'.port q).test.chkUp = bit fl 1 ∧ (s'.port q).test.injExp = k ∧
      (s'.port q).tr.st = (u.port q).tr.st ∧
      (s'.port q).test.run = decide (pat = 0) ∧ (s'.port q).test.endAt = (if pat = 0 then c.start else 0) + dur * ms ∧
      s'.slow = u.slow ++ [⟨.port p, 0x0801, c.tag, c.stamp + (50 * ms + dur * ms), q.val, some (c.stamp + (50 * ms + dur * ms))⟩]) ∧
  (∀ (s u : State) (t : Time) (p : PortIx), u = s.at t → u.ports.length = 4 → (u.port p).test.run = true → (u.port p).test.inj = 2 →
    ((u.port p).tr.st = .active ∨ (u.port p).tr.st = .test) →
    (u.port p).test.injAt + dnSymbols (u.port p) (2 ^ (u.port p).test.injExp) ≤ t →
    ∃ s', exec (.errorInjection t p) s = .next s' ∧
      (s'.port p).test.injAt = (u.port p).test.injAt + dnSymbols (u.port p) (2 ^ (u.port p).test.injExp) ∧ (s'.port p).tr = (u.port p).tr ∧ (s'.port p).test.injected =
      (u.port p).test.injected + countIf (fun k => bit (u.port p).test.lanes k) (List.range 4)) ∧
  (∀ (s u : State) (t : Time) (p q : PortIx) (bits errors : Nat), u = s.at t → u.ports.length = 4 → (u.port p).test.run = true →
    (u.port p).test.endAt ≤ t → (u.port p).test.src = .port q →
    ∃ s', exec (.linkTestEnd t ⟨p, bits, errors⟩) s = .next s' ∧ (s'.port p).test.run = false ∧
      ((u.port p).tr.st = .test → (s'.port p).tr.st = .clock ∧ (s'.port p).tr.pass = 1) ∧
      ((u.port p).tr.st ≠ .test → (s'.port p).tr.st = (u.port p).tr.st) ∧
      ∃ n : Note, (s'.port q).mbx.notes.getLast? = some n ∧ n.code = 0x8010 ∧ u16 n.payload 0 = 0x0801)

/-! ## Markers, time transfer, cells (R259 to R261, R290 to R323) -/

/-- Downstream markers are numbered and stamped with DTIME, upstream ones followed; the host's first marker after GO enters ACTIVE with fresh
credits, and a bad one is counted; a TIME cell that names markers on both sides gives θ and δ (R259 to R261, R280, R310, R320 to R322). What the
host's cells do: a codeword that cannot be decoded is counted and delivers nothing; an ACK frees the cells it names, a NAK whose value is not a cell
unsent or too old asks for every outstanding cell again; a CREDIT gives back what it counts, and the first with INIT sets the allowances; a TRIG
from the holder of the ARRAY lease triggers, from another is only counted; and a packet of a wrong length or CRC is counted (R293, R297, R302, R303,
R306, R307, R309, R310, R323). -/
def Obligations.MarkersAndCellsAct : Prop :=
  (∀ (s u : State) (t : Time) (p : PortIx), u = s.at t → u.ports.length = 4 → markerDue (u.port p) t = true →
    ∃ s', exec (.alignmentMarkerTx t p) s = .next s' ∧ Keeps [.ports] u s' ∧
      (s'.port p).lt.txSeq = ((u.port p).lt.txSeq + 1) % 2 ^ 24 ∧ (s'.port p).lt.cwSince = 0 ∧
      (s'.port p).lt.marks = (List.range 4).map (fun k => markerOf k (u.port p).lt.txSeq) ∧
      (s'.port p).lt.dn.head? = some ((u.port p).lt.txSeq, u.dtime t) ∧ (s'.port p).lt.dn.length ≤ 256 ∧
      ((u.port p).tr.st = .active → (u.port p).lt.txSeq % 32 = 0 → (s'.port p).lt.owed = some t) ∧
      ((u.port p).tr.st ≠ .active → (s'.port p).tr.preDn = (u.port p).tr.offPreDn)) ∧
  (∀ (s u : State) (t : Time) (p : PortIx) (m : List Byte), u = s.at t → u.ports.length = 4 → (u.port p).tr.st = .active →
    256 ≤ (u.port p).lt.cwUp → markerOk (u.port p) m = true →
    ∃ s', exec (.alignmentMarkerRx t p m) s = .next s' ∧ (s'.port p).lt.rxSeq = some (u24 m 9) ∧ (s'.port p).lt.amBad = 0 ∧
      (s'.port p).lt.up.head? = some (u24 m 9, u.dtime t) ∧ (s'.port p).rxY = 0 ∧ (s'.port p).tr = (u.port p).tr) ∧
  (∀ (s u : State) (t : Time) (p : PortIx) (m : List Byte), u = s.at t → u.ports.length = 4 → (u.port p).tr.st = .rate →
    (u.port p).tr.rateStep = .go → markerOk (u.port p) m = true →
    ∃ s', exec (.alignmentMarkerRx t p m) s = .next s' ∧ (s'.port p).tr.st = .active ∧ (s'.port p).tr.fails = 0 ∧
      (s'.port p).cr = Credits.reset ∧ (s'.port p).rel.txSeq = 0 ∧ (s'.port p).rel.rxSeq = 0 ∧ (s'.port p).dropAt = none) ∧
  (∀ (s u : State) (t : Time) (p : PortIx) (m : List Byte), u = s.at t → u.ports.length = 4 → markerUp (u.port p) = true →
    markerOk (u.port p) m = false → ((u.port p).lt.amBad < 2 ∨ (u.port p).tr.st ≠ .active) →
    exec (.alignmentMarkerRx t p m) s = .next ((u.bump (aLINK_CNT p.val) 15 8 1).modPort p (fun q => { q with
      rxY := 0, lt := { q.lt with amBad := q.lt.amBad + 1, cwUp := 0 } }))) ∧
  (∀ (s u v : State) (t e : Time) (p : PortIx) (body : List Byte), u = s.at t → u.ports.length = 4 → (u.port p).tr.st = .active →
    takeIn u p tTIME body t = (e, v) →
    (∀ dRx dTx : Nat, body.length = 32 → crc32Ok body = true → (u.port p).lt.up.lookup (u32 body 0) = some dRx →
      (u.port p).lt.dn.lookup (u32 body 12) = some dTx →
      ∃ s', exec (.upstreamTimeCell t p body) s = .next s' ∧ (s'.port p).lt.valid = true ∧ (s'.port p).lt.lastCell = e ∧
        (s'.port p).lt.theta = tdivI (diff64 (u64 body 16) dTx - diff64 dRx (u64 body 4)) 2 ∧
        (s'.port p).lt.rtt = diff64 (u64 body 16) dTx + diff64 dRx (u64 body 4)) ∧
    (body.length = 32 → crc32Ok body = true →
      ((u.port p).lt.up.lookup (u32 body 0) = none ∨ (u.port p).lt.dn.lookup (u32 body 12) = none) →
      exec (.upstreamTimeCell t p body) s = .next (proto v p)) ∧
    ((body.length ≠ 32 ∨ crc32Ok body = false) → exec (.upstreamTimeCell t p body) s = .next (v.bump (aLINK_PKT_ERR p.val) 31 16 1))) ∧
  (∀ (s u : State) (t : Time) (p : PortIx) (levels : List (Fin 4)) (ys vs : List Nat), u = s.at t → u.ports.length = 4 →
    (u.port p).tr.st = .active → levels.length = 1360 → (u.port p).lt.cwUp < 256 → ys = levels.map (fun y => if (u.port p).phy.upInv then 3 - y.val else y.val) →
    vs = (if (u.port p).tr.preUp then unprecode (u.port p).rxY ys else ys) → gf10.decode 16 (valuesCw vs) = none →
    ∃ s', exec (.upstreamCodeword t p levels) s = .next s' ∧ Keeps [.regs, .ports] u s' ∧
      (s'.port p).unc = ((u.port p).unc + 1) % 65536 ∧ (s'.port p).inbox = (u.port p).inbox ∧ (s'.port p).rel = (u.port p).rel) ∧
  (∀ (s u v : State) (t : Time) (p : PortIx) (levels : List (Fin 4)) (ys vs w : List Nat) (n : Nat), u = s.at t →
    (u.port p).tr.st = .active → levels.length = 1360 → (u.port p).lt.cwUp < 256 → ys = levels.map (fun y => if (u.port p).phy.upInv then 3 - y.val else y.val) →
    vs = (if (u.port p).tr.preUp then unprecode (u.port p).rxY ys else ys) → gf10.decode 16 (valuesCw vs) = some (w, n) →
    v = u.modPort p (fun q => { q with rxY := ys.getLastD 0, lt := { q.lt with cwUp := q.lt.cwUp + 1 } }) →
    exec (.upstreamCodeword t p levels) s =
      .next (rxCells (if n = 0 then v else (v.bump (aLINK_FEC_CORR p.val) 31 0 1).bump (aLINK_FEC_SYM p.val) 31 0 n) p
        (leBytes 320 (symVal (w.take 256))) t)) ∧
  (∀ (s u v : State) (t e : Time) (p : PortIx) (body : List Byte) (d : Nat), u = s.at t → u.ports.length = 4 → (u.port p).tr.st = .active →
    takeIn u p tACK body t = (e, v) → body.length = 8 → crc32Ok body = true → bit (u8 body 1) 0 = false →
    d = (u8 body 0 + 256 - (u.port p).rel.lastAck) % 256 →
    (1 ≤ d → d ≤ (u.port p).rel.out.length → ∃ s', exec (.ack t p body) s = .next s' ∧
      (s'.port p).rel.out = (u.port p).rel.out.drop d ∧ (s'.port p).rel.lastAck = u8 body 0 ∧ (s'.port p).rel.timeouts = 0) ∧
    ((d = 0 ∨ ((u.port p).rel.out.length < d ∧ 192 ≤ d)) → exec (.ack t p body) s = .next v) ∧
    (d ≠ 0 → (u.port p).rel.out.length < d → d < 192 → exec (.ack t p body) s = .next (proto v p))) ∧
  (∀ (s u v : State) (t e : Time) (p : PortIx) (body : List Byte), u = s.at t → u.ports.length = 4 → (u.port p).tr.st = .active →
    takeIn u p tACK body t = (e, v) → body.length = 8 → crc32Ok body = true → bit (u8 body 1) 0 = true →
    (ackOk (u.port p).rel (u8 body 0) = true → exec (.ack t p body) s = .next (takeNak (takeAck v p (u8 body 0) e) p (u8 body 0) e)) ∧
    (ackOk (u.port p).rel (u8 body 0) = false → exec (.ack t p body) s = .next (proto v p)) ∧
    (u8 body 0 = (u.port p).rel.lastAck → (u.port p).rel.goBack = none → ∃ s', exec (.ack t p body) s = .next s' ∧
      (s'.port p).rel.out = (u.port p).rel.out ∧ (s'.port p).rel.resend = (u.port p).rel.out.length ∧
      (s'.port p).rel.goBack = some (u8 body 0, e))) ∧
  (∀ (s u v : State) (t e : Time) (p : PortIx) (body : List Byte), u = s.at t → u.ports.length = 4 → (u.port p).tr.st = .active →
    takeIn u p tCREDIT body t = (e, v) → body.length = 56 → crc32Ok body = true →
    ((creditOk (u.port p).cr (creditCounts body) = true ∧ (bit (u8 body 0) 0 = true → (u.port p).cr.init = false →
        ∀ k : Nat, k < 16 → u8 body (34 + k) ≤ 63)) →
      ∃ s', exec (.credit t p body) s = .next s' ∧ (s'.port p).cr.freed = creditCounts body ∧ (s'.port p).cr.sent = (u.port p).cr.sent ∧
        (s'.port p).cr.init = ((u.port p).cr.init || bit (u8 body 0) 0) ∧
        (bit (u8 body 0) 0 = true → (u.port p).cr.init = false →
          ∀ k : Nat, k < 16 → (s'.port p).cr.allow.getD k 0 = 64 * (u8 body (34 + k) + 1)) ∧
        ((bit (u8 body 0) 0 = false ∨ (u.port p).cr.init = true) → (s'.port p).cr.allow = (u.port p).cr.allow)) ∧
    ((creditOk (u.port p).cr (creditCounts body) = false ∨ (bit (u8 body 0) 0 = true ∧ (u.port p).cr.init = false ∧
        ∃ k : Nat, k < 16 ∧ 63 < u8 body (34 + k))) → exec (.credit t p body) s = .next (proto v p))) ∧
  (∀ (s u v : State) (t e : Time) (p : PortIx) (body : List Byte), u = s.at t → (u.port p).tr.st = .active →
    takeIn u p tTRIG body t = (e, v) → body.length = 8 → crc32Ok body = true →
    (u8 body 0 = 0 → exec (.trigCell t p body) s = .next (if holderAt u lARRAY e = some p then cmdTrigger (v.bump (aLINK_TRIG p.val) 15 0 1) e
      else v.bump (aLINK_TRIG p.val) 31 16 1)) ∧
    (u8 body 0 ≠ 0 → exec (.trigCell t p body) s = .next (proto v p))) ∧
  (∀ (s u v : State) (t e : Time) (p : PortIx) (body : List Byte) (type n : Nat) (i : Instr), u = s.at t → (u.port p).tr.st = .active →
    (type = tACK ∧ n = 8 ∧ i = .ack t p body) ∨ (type = tCREDIT ∧ n = 56 ∧ i = .credit t p body) ∨
      (type = tTRIG ∧ n = 8 ∧ i = .trigCell t p body) →
    takeIn u p type body t = (e, v) → (body.length ≠ n ∨ crc32Ok body = false) →
    exec i s = .next (v.bump (aLINK_PKT_ERR p.val) 31 16 1))

/-- A downstream slot takes the first cell that is ready: an owed NAK or acknowledgement goes in a FILL cell, then a cell to be resent, then the
next cell of a reliable packet, which takes the next SEQ and a unit of its credit, then TIME, then the next stream's video, then a BEACON that is
due, then a FILL. A TIME cell does not part a packet of VS0 that has begun. Before ACTIVE only FILL leaves. A slot in which a resend is pending or
VS0 lacks credit excuses the port's late answers (R339). Credit that comes back at the same instant counts (R25). RTO_EXPIRY asks for every
outstanding cell again, and the sixteenth in a row raises LINK_STALL (R280, R299 to R303, R306, R309, R322). -/
def Obligations.DownstreamSlotsTakeTheFirstReady : Prop :=
  (∀ (s u : State) (t : Time) (p : PortIx), u = s.at t → cellSlot (u.port p) = true → (u.port p).tr.st ≠ .active →
    exec (.downstreamCellSlot t p) s = .next (emitCell u p (fillCell (u.port p) false))) ∧
  (∀ (s u w x : State) (t : Time) (p : PortIx) (rel : Bool), u = s.at t → u.ports.length = 4 → cellSlot (u.port p) = true →
    (u.port p).tr.st = .active → w = creditDue u p t →
    x = (if 0 < (w.port p).rel.resend ∨ ((w.port p).rel.msgq ≠ [] ∧ credit (w.port p).cr 0 = 0) then excusePort w p else w) → rel = (decide (0 < (w.port p).rel.resend) || relReady (w.port p)) →
    (((w.port p).rel.owedNak = true ∨ (w.port p).owedLimit = true ∨ ((w.port p).rel.owedAck.isSome = true ∧ rel = false)) →
      ∃ s', exec (.downstreamCellSlot t p) s = .next s' ∧ (s'.port p).lastCell = fillCell (w.port p) (w.port p).rel.owedNak ∧
        (s'.port p).rel.owedNak = false ∧ (s'.port p).owedLimit = false ∧ (s'.port p).rel.owedAck = none ∧
        (s'.port p).rel.out = (u.port p).rel.out ∧ SameBytes u s') ∧
    ((w.port p).rel.owedNak = false → (w.port p).owedLimit = false → ((w.port p).rel.owedAck = none ∨ rel = true) →
      (0 < (w.port p).rel.resend → exec (.downstreamCellSlot t p) s = .next (sendAgain x p)) ∧
      ((w.port p).rel.resend = 0 → relReady (w.port p) = true → exec (.downstreamCellSlot t p) s = .next (sendNew x p t)) ∧
      (rel = false → (w.port p).lt.owed.isSome = true → 0 < credit (w.port p).cr 0 →
        (∀ k : Pkt, headOf (w.port p) 0 = some k → k.done = 0) →
        ∃ s', exec (.downstreamCellSlot t p) s = .next s' ∧ (s'.port p).lt.owed = none ∧
          (s'.port p).lastCell = mkCell 7 0 true true (timePacket w p)) ∧
      (rel = false → ((w.port p).lt.owed = none ∨ credit (w.port p).cr 0 = 0 ∨ ∃ k : Pkt, headOf (w.port p) 0 = some k ∧ 0 < k.done) →
        (∀ v : Nat, nextStream (w.port p) = some v → exec (.downstreamCellSlot t p) s = .next (sendVideo x p v t)) ∧
        (nextStream (w.port p) = none →
          (∀ b : Time, (w.port p).beaconAt = some b → t < b + 10 * us →
            exec (.downstreamCellSlot t p) s = .next (emitCell x p (fillCell (w.port p) false))) ∧
          ((∀ b : Time, (w.port p).beaconAt = some b → b + 10 * us ≤ t) →
            ∃ s', exec (.downstreamCellSlot t p) s = .next s' ∧ (s'.port p).beaconAt = some t ∧
              (s'.port p).lastCell = beaconCell w p t (throttled w) ∧ SameBytes u s'))))) ∧
  (∀ (w : State) (p : PortIx) (x : RelCell) (l : List RelCell), w.ports.length = 4 →
    (w.port p).rel.out.drop ((w.port p).rel.out.length - (w.port p).rel.resend) = x :: l →
    (((sendAgain w p).port p).rel.resend = (w.port p).rel.resend - 1 ∧ ((sendAgain w p).port p).rel.out = (w.port p).rel.out ∧
      ((sendAgain w p).port p).lastCell = mkCell x.type x.vs x.sop x.eop ([byte x.seq, byte (w.port p).rel.rxAck] ++ x.data) ∧
      ((sendAgain w p).port p).cr = (w.port p).cr)) ∧
  (∀ (w : State) (t : Time) (p : PortIx) (k : RelPkt) (off : Nat), w.ports.length = 4 →
    (nextRel (w.port p) = some (k, some off) ∨ (nextRel (w.port p) = some (k, none) ∧ off = 0)) →
    off + 60 < k.bytes.length → k.vs < (w.port p).cr.sent.length →
    ∃ x : RelCell, ((sendNew w p t).port p).rel.txSeq = ((w.port p).rel.txSeq + 1) % 256 ∧
      ((sendNew w p t).port p).rel.cur = some (k, off + 60) ∧
      ((sendNew w p t).port p).rel.out = (w.port p).rel.out ++ [x] ∧ x.seq = (w.port p).rel.txSeq ∧ x.eop = false ∧
      x.sop = decide (off = 0) ∧ x.data = (k.bytes.drop off).take 60 ∧
      ((sendNew w p t).port p).cr.sent.getD k.vs 0 = ((w.port p).cr.sent.getD k.vs 0 + 1) % 65536 ∧ SameBytes w (sendNew w p t)) ∧
  (∀ (s u : State) (t : Time) (p : PortIx), u = s.at t → u.ports.length = 4 → (u.port p).tr.st = .active → (u.port p).rel.out ≠ [] →
    (u.port p).rel.progressAt + (u.port p).rel.rto * us ≤ t → u.log.entries.length < 64 →
    ∃ s', exec (.rtoExpiry t p) s = .next s' ∧ (s'.port p).rel.resend = (u.port p).rel.out.length ∧
      (s'.port p).rel.timeouts = (u.port p).rel.timeouts + 1 ∧ (s'.port p).rel.progressAt = t ∧
      (15 ≤ (u.port p).rel.timeouts → faultStands s' fLINK_STALL p.val = true))

/-! ## Mailboxes and the sideband (R329 to R345, R358 to R361) -/

/-- A request entry that finds a slot takes it: a sound request of one entry is handed on with its stamp and deadline, and so is a chain, whose
first entry opens it, whose next entries join it and whose last one hands on the joined payload; one with a bad CRC is answered BAD_ARG with the
CRC's offset; a repeat after a return is counted and gives its slot back; without a free slot, and none that a response of the same instant gives
back (R25), the link is asked for a NAK; a chain that waits 1 ms is answered TIMEOUT (R26, R326, R329 to R332, R337, R338). -/
def Obligations.RequestsAreHandedOn : Prop :=
  (∀ (s u w : State) (t x : Time) (p : PortIx) (e : List Byte), u = s.at t → EntryTaken u w t x p e →
    exec (.requestEntry t p e) s = .next (joinEntry (if entryCrcOk e then w else w.bump aSYS_MBX_ERR 31 24 1) p e x) ∧
    (w.port p).mbx.reqFree = (u.port p).mbx.reqFree - 1) ∧
  (∀ (s u w : State) (t x : Time) (p : PortIx) (e : List Byte) (k : Cls), u = s.at t → EntryTaken u w t x p e →
    (u.port p).mbx.chain = none → e.length = 64 →
    entryCrcOk e = true → u8 e 6 = 0 → u8 e 7 = 1 → u8 e 5 ≤ 48 → opClass (u16 e 0) = some k → u8 e 4 = k.code → u16 e 2 ≠ 0xFFFF →
    beyondLen e 0 = none →
    ∃ s', exec (.requestEntry t p e) s = .next s' ∧ (s'.port p).mbx.reqFree = (u.port p).mbx.reqFree - 1 ∧
      s'.fwq = u.fwq ++ [⟨.port p, u16 e 0, BitVec.ofNat 16 (u16 e 2), k, slice e 8 4, x, 1, slice e 16 (u8 e 5),
        some (requestDue u k x), none, k⟩]) ∧
  (∀ (s u w : State) (t x : Time) (p : PortIx) (e : List Byte) (n : Nat), u = s.at t → EntryTaken u w t x p e →
    (u.port p).mbx.chain = none → u8 e 6 = 0 → 2 ≤ n → n ≤ 16 → u8 e 7 = n → u8 e 5 = 48 →
    ∃ s', exec (.requestEntry t p e) s = .next s' ∧ s'.fwq = u.fwq ∧ (s'.port p).mbx.wait = (u.port p).mbx.wait ∧
      (s'.port p).mbx.chain = some ⟨slice e 0 12, 1, n, slice e 16 48, x, !entryCrcOk e, beyondLen e 0⟩) ∧
  (∀ (s u w : State) (t x : Time) (p : PortIx) (e : List Byte) (c : Chain), u = s.at t → EntryTaken u w t x p e →
    (u.port p).mbx.chain = some c → u8 e 6 = c.next → chainHdr e = chainHdr c.hdr → c.next + 1 ≠ c.count → u8 e 5 = 48 →
    c.hdr.length = 12 → c.beyond = none → entryCrcOk e = true →
    ∃ s', exec (.requestEntry t p e) s = .next s' ∧ s'.fwq = u.fwq ∧ (s'.port p).mbx.wait = (u.port p).mbx.wait ∧
      (s'.port p).mbx.chain = some { c with
        next := c.next + 1, payload := c.payload ++ slice e 16 48, last := x, beyond := beyondLen e c.payload.length }) ∧
  (∀ (s u w : State) (t x : Time) (p : PortIx) (e : List Byte) (c : Chain) (k : Cls), u = s.at t → EntryTaken u w t x p e →
    (u.port p).mbx.chain = some c → u8 e 6 = c.next → chainHdr e = chainHdr c.hdr → c.next + 1 = c.count → 1 ≤ u8 e 5 → u8 e 5 ≤ 48 →
    c.hdr.length = 12 → c.beyond = none → beyondLen e c.payload.length = none → c.crcBad = false → entryCrcOk e = true →
    opClass (u16 c.hdr 0) = some k → k ≠ .immediate → u8 c.hdr 4 = k.code → u16 c.hdr 2 ≠ 0xFFFF →
    shapeBad c.hdr = false →
    ∃ s', exec (.requestEntry t p e) s = .next s' ∧ (s'.port p).mbx.chain = none ∧
      s'.fwq = u.fwq ++ [⟨.port p, u16 c.hdr 0, BitVec.ofNat 16 (u16 c.hdr 2), k, slice c.hdr 8 4, x, c.count,
        c.payload ++ slice e 16 (u8 e 5), some (requestDue u k x), none, k⟩]) ∧
  (∀ (s u w : State) (t x : Time) (p : PortIx) (e : List Byte), u = s.at t → EntryTaken u w t x p e →
    (u.port p).mbx.chain = none → e.length = 64 →
    entryCrcOk e = false → u8 e 6 = 0 → u8 e 7 = 1 → u8 e 5 ≤ 48 →
    ∃ s', exec (.requestEntry t p e) s = .next s' ∧ s'.fwq = u.fwq ∧ (s'.port p).mbx.reqFree = (u.port p).mbx.reqFree - 1 ∧
      ∃ r : Rsp, bareRsps (s'.port p).mbx.wait = bareRsps ((u.port p).mbx.wait ++ [r]) ∧ r.opcode = u16 e 0 ∧ r.tag = BitVec.ofNat 16 (u16 e 2) ∧
        r.status = .badArg ∧ r.detail = 0x800C ∧ r.slots = 1) ∧
  (∀ (s u v : State) (t x : Time) (p : PortIx) (e : List Byte), u = s.at t → u.ports.length = 4 → (u.port p).tr.st = .active →
    takeIn u p tCMD e t = (x, v) → 0 < (u.port p).mbx.reqFree → (u.port p).mbx.reqOwed = 0 → 0 < (u.port p).mbx.dupLeft →
    (u16 e 2, u32 e 12) ∈ (u.port p).mbx.oldRecent →
    ∃ s', exec (.requestEntry t p e) s = .next s' ∧ s'.fwq = u.fwq ∧ (s'.port p).mbx.reqFree = (u.port p).mbx.reqFree ∧
      (s'.port p).mbx.cmdLimit = ((u.port p).mbx.cmdLimit + 1) % 65536 ∧ (s'.port p).owedLimit = true ∧
      s'.regs = (u.bump (aLINK_DUP p.val) 15 0 1).regs) ∧
  (∀ (s u v : State) (t x : Time) (p : PortIx) (e : List Byte), u = s.at t → (u.port p).tr.st = .active → takeIn u p tCMD e t = (x, v) →
    (v.port p).mbx.reqFree = 0 → slotsDue v p t ≤ (v.port p).mbx.reqOwed → exec (.requestEntry t p e) s = .next (v.modRel p (fun r => { r with owedNak := true }))) ∧
  (∀ (s u : State) (t : Time) (p : PortIx) (c : Chain), u = s.at t → u.ports.length = 4 → (u.port p).mbx.chain = some c → c.last + ms ≤ t →
    ∃ s', exec (.chainTimeout t p) s = .next s' ∧ (s'.port p).mbx.chain = none ∧ s'.fwq = u.fwq ∧
      ∃ r : Rsp, bareRsps (s'.port p).mbx.wait = bareRsps ((u.port p).mbx.wait ++ [r]) ∧ r.status = .timeout ∧ r.slots = c.next)

/-- RESPONSE_POST posts an IMMEDIATE response ahead of a notification and a notification ahead of other responses, where the response slots allow,
those that a doorbell of the same instant frees among them (R25), and frees the request's slots; a doorbell frees the entries it names, and one that
names too many or has another OP is ignored and counted; a COMPLETE queued for 1 s is dropped and the next notification carries LOST (R333 to R335,
R345). -/
def Obligations.ResponsesPostInOrder : Prop :=
  (∀ (s u v : State) (t : Time) (p : PortIx) (r : Rsp), u = s.at t → v = doorbellsDue u p t → u.ports.length = 4 →
    (v.port p).mbx.wait.find? (fun x => decide (x.cls = .immediate)) = some r → rspFits (v.port p).mbx.rspFree r = true →
    ∃ s', exec (.responsePost t p) s = .next s' ∧ (s'.port p).mbx.rspFree = (v.port p).mbx.rspFree - (rspEntries r).length ∧
      (s'.port p).mbx.reqFree = (v.port p).mbx.reqFree + (r.slots - (v.port p).mbx.reqOwed) ∧
      bareNotes (s'.port p).mbx.notes = bareNotes (v.port p).mbx.notes ∧
      (s'.port p).mbx.ring.map RingEntry.bytes = (v.port p).mbx.ring.map RingEntry.bytes ++ rspEntries r) ∧
  (∀ (s u v : State) (t : Time) (p : PortIx) (n : Note) (rest : List Note), u = s.at t → v = doorbellsDue u p t → u.ports.length = 4 →
    (u.port p).tr.st = .active → (∀ x ∈ (v.port p).mbx.wait, x.cls ≠ .immediate) → (v.port p).mbx.notes = n :: rest → 1 ≤ (v.port p).mbx.rspFree →
    ∃ s', exec (.responsePost t p) s = .next s' ∧ bareNotes (s'.port p).mbx.notes = bareNotes rest ∧
      bareRsps (s'.port p).mbx.wait = bareRsps (v.port p).mbx.wait ∧
      (s'.port p).mbx.lostFlag = false ∧ (s'.port p).mbx.rspFree = (v.port p).mbx.rspFree - 1 ∧
      (s'.port p).mbx.ring.map RingEntry.bytes = (v.port p).mbx.ring.map RingEntry.bytes ++ [noteEntry n (v.port p).mbx.lostFlag]) ∧
  (∀ (s u v : State) (t : Time) (p : PortIx) (r : Rsp) (rest : List Rsp), u = s.at t → v = doorbellsDue u p t →
    (∀ x ∈ (v.port p).mbx.wait, x.cls ≠ .immediate) → ((v.port p).mbx.notes = [] ∨ (u.port p).tr.st ≠ .active) →
    (v.port p).mbx.wait = r :: rest → rspFits (v.port p).mbx.rspFree r = false → exec (.responsePost t p) s = .next v) ∧
  (∀ (s u v : State) (t : Time) (p : PortIx) (r : Rsp) (rest : List Rsp), u = s.at t → v = doorbellsDue u p t → u.ports.length = 4 →
    (∀ x ∈ (v.port p).mbx.wait, x.cls ≠ .immediate) → ((v.port p).mbx.notes = [] ∨ (u.port p).tr.st ≠ .active) →
    (v.port p).mbx.wait = r :: rest → rspFits (v.port p).mbx.rspFree r = true →
    ∃ s', exec (.responsePost t p) s = .next s' ∧ bareRsps (s'.port p).mbx.wait = bareRsps rest ∧
      bareNotes (s'.port p).mbx.notes = bareNotes (v.port p).mbx.notes ∧
      (s'.port p).mbx.rspFree = (v.port p).mbx.rspFree - (rspEntries r).length ∧
      (s'.port p).mbx.reqFree = (v.port p).mbx.reqFree + (r.slots - (v.port p).mbx.reqOwed) ∧
      (s'.port p).mbx.ring.map RingEntry.bytes = (v.port p).mbx.ring.map RingEntry.bytes ++ rspEntries r) ∧
  (∀ (s u : State) (t : Time) (p : PortIx) (body : List Byte) (n : Nat), u = s.at t → u.ports.length = 4 → (u.port p).tr.st = .active →
    u8 body 0 = 1 → n = (u16 body 2 + 65536 - (u.port p).mbx.consumed) % 65536 →
    n ≤ ((u.port p).mbx.sentCount + 65536 - (u.port p).mbx.consumed) % 65536 →
    ∃ s', exec (.doorbell t p body) s = .next s' ∧ (s'.port p).mbx.ring = (u.port p).mbx.ring.drop n ∧
      (s'.port p).mbx.rspFree = (u.port p).mbx.rspFree + min n (u.port p).mbx.ring.length ∧ (s'.port p).mbx.consumed = u16 body 2) ∧
  (∀ (s u v : State) (t x : Time) (p : PortIx) (body : List Byte), u = s.at t → (u.port p).tr.st = .active →
    takeIn u p tDOORBELL body t = (x, v) →
    (u8 body 0 ≠ 1 ∨ ((u.port p).mbx.sentCount + 65536 - (u.port p).mbx.consumed) % 65536 <
      (u16 body 2 + 65536 - (u.port p).mbx.consumed) % 65536) →
    exec (.doorbell t p body) s = .next (proto v p)) ∧
  (∀ (s u : State) (t : Time) (p : PortIx) (n : Note) (before rest : List Note), u = s.at t → u.ports.length = 4 →
    (u.port p).mbx.notes = before ++ n :: rest → (∀ x ∈ before, x.code ≠ 0x8010 ∨ t < x.arose + sec) →
    n.code = 0x8010 → n.arose + sec ≤ t →
    ∃ s', exec (.completeDrop t p) s = .next s' ∧ (s'.port p).mbx.notes = before ++ rest ∧ (s'.port p).mbx.lostFlag = true)

/-- The sideband takes one command at a time: a SUBMIT hands a sound request on, one while it is busy only sets the error flag, DONE consumes the
response, ABORT clears the buffers and shows a COMPLETE that waits (log entry 85). SB_STAT shows the flags and the count of entries, SB_RSP the
response, and 0 beyond its end. On I3C the CCCs change the address, the lengths and the interrupt's enable, and the GET CCCs answer with them (R358
to R361). -/
def Obligations.SidebandServesOneCommand : Prop :=
  (∀ (s u : State) (t : Time) (bytes req e last : List Byte) (n : Nat) (k : Cls), u = s.at t → serves u .sideband = true →
    u.sb.busy = false → u.sb.ready = false → req = bytes.take 1024 ++ u.sb.req.drop (min 1024 bytes.length) →
    e = slice req 0 64 → n = u8 e 7 → 1 ≤ n → n ≤ 16 → (∀ j : Nat, j < n → entryCrcOk (slice req (64 * j) 64) = true) →
    sbChainOk req n = true → opClass (u16 e 0) = some k → u8 e 4 = k.code → u16 e 2 ≠ 0xFFFF →
    (n = 1 ∨ k ≠ .immediate) → last = slice req (64 * (n - 1)) 64 → beyondLen last (48 * (n - 1)) = none →
    ∃ s', exec (.sbSubmit t bytes) s = .next s' ∧ s'.sb.req = req ∧ s'.sb.busy = true ∧ s'.sb.err = false ∧ s'.sb.ready = false ∧
      s'.fwq = u.fwq ++ [⟨.sideband, u16 e 0, BitVec.ofNat 16 (u16 e 2), k, slice e 8 4, t, 0,
        (List.range n).flatMap (fun j => slice req (64 * j + 16) (u8 req (64 * j + 5))), none, none, k⟩]) ∧
  (∀ (s u : State) (t : Time) (bytes req e : List Byte) (n : Nat), u = s.at t → serves u .sideband = true →
    u.sb.busy = false → u.sb.ready = false → req = bytes.take 1024 ++ u.sb.req.drop (min 1024 bytes.length) →
    e = slice req 0 64 → n = u8 e 7 →
    (n = 0 ∨ 16 < n ∨ sbChainOk req n = false ∨ ∃ j : Nat, j < n ∧ entryCrcOk (slice req (64 * j) 64) = false) →
    ∃ s', exec (.sbSubmit t bytes) s = .next s' ∧ s'.sb.req = req ∧ s'.fwq = u.fwq ∧ s'.sb.err = false ∧ s'.sb.ready = true ∧
      s'.sb.entries = 1 ∧ s'.sb.shownAt = t) ∧
  (∀ (s u : State) (t : Time) (bytes : List Byte), u = s.at t → serves u .sideband = true → (u.sb.busy = true ∨ u.sb.ready = true) →
    ∃ s', exec (.sbSubmit t bytes) s = .next s' ∧ s'.sb.err = true ∧ s'.fwq = u.fwq ∧ s'.sb.rsp = u.sb.rsp) ∧
  (∀ (s u : State) (t : Time), u = s.at t → serves u .sideband = true → u.sb.ready = true →
    ∃ s', exec (.sbDone t) s = .next s' ∧ s'.sb.err = false ∧ (u.sb.cmdDone = true → s'.sb.busy = false) ∧
      (u.sb.cmdDone = false → s'.sb.busy = u.sb.busy) ∧ s'.sb.complete = none ∧ s'.fwq = u.fwq ∧
      (u.sb.complete = none → s'.sb.ready = false ∧ s'.sb.entries = 0) ∧
      (∀ x : List Byte, u.sb.complete = some x → s'.sb.ready = true ∧ s'.sb.entries = 1 ∧ s'.sb.rsp = x ∧ s'.sb.shownAt = t)) ∧
  (∀ (s u : State) (t : Time), u = s.at t → serves u .sideband = true → u.sb.ready = false →
    exec (.sbDone t) s = .next { u with sb := { u.sb with err := true } }) ∧
  (∀ (s u : State) (t : Time), u = s.at t → serves u .sideband = true →
    ∃ s', exec (.sbAbort t) s = .next s' ∧ s'.sb.req = zeros 1024 ∧ s'.sb.err = false ∧ s'.sb.complete = none ∧
      (u.sb.complete = none → s'.sb.rsp = zeros 1024 ∧ s'.sb.ready = false ∧ s'.sb.entries = 0) ∧
      (∀ x : List Byte, u.sb.complete = some x → s'.sb.rsp = x ∧ s'.sb.ready = true ∧ s'.sb.entries = 1) ∧
      (∀ j ∈ s'.fwq, j.src ≠ .sideband) ∧ s'.slow = u.slow) ∧
  (∀ (u : State) (n k : Nat), u.sb.entries ≤ 16 → (sbStat u).toNat = b2n u.sb.ready + 2 * b2n u.sb.busy + 4 * b2n u.sb.err + 8 * u.sb.entries ∧
    (sbRead u n).length = n ∧ (k < n → 1024 ≤ k → (sbRead u n).getD k 0 = 0) ∧ (k < n → k < 1024 → (sbRead u n).getD k 0 = u.sb.rsp.getD k 0)) ∧
  (∀ (s u : State) (t : Time) (ev : Byte), u = s.at t → serves u .sideband = true → u.sb.i3c = true → bit ev.toNat 0 = true →
    exec (.enec t ev) s = .next { u with sb := { u.sb with ibiEn := true } } ∧
    exec (.disec t ev) s = .next { u with sb := { u.sb with ibiEn := false } }) ∧
  (∀ (s u : State) (t : Time) (ev : Byte), u = s.at t → (u.sb.i3c = false ∨ bit ev.toNat 0 = false) →
    exec (.enec t ev) s = .next u ∧ exec (.disec t ev) s = .next u) ∧
  (∀ (s u : State) (t : Time), u = s.at t → serves u .sideband = true →
    exec (.rstdaa t) s = .next { u with sb := { u.sb with dynAddr := 0, i3c := false } }) ∧
  (∀ (s u : State) (t : Time) (addr st : BitVec 7), u = s.at t → serves u .sideband = true → u.sb.dynAddr = 0 →
    exec (.entdaa t addr) s = .next { u with sb := { u.sb with dynAddr := addr.toNat, i3c := true } } ∧
    exec (.setdasa t st addr) s =
      .next (if st.toNat = 0x10 + u.pw.devid then { u with sb := { u.sb with dynAddr := addr.toNat, i3c := true } } else u)) ∧
  (∀ (s u : State) (t : Time) (addr st : BitVec 7), u = s.at t → u.sb.dynAddr ≠ 0 →
    exec (.entdaa t addr) s = .next u ∧ exec (.setdasa t st addr) s = .next u) ∧
  (∀ (s u : State) (t : Time) (addr : BitVec 7) (len : BitVec 16), u = s.at t → u.sb.i3c = false →
    exec (.setnewda t addr) s = .next u ∧ exec (.setmwl t len) s = .next u ∧ exec (.setmrl t len) s = .next u ∧
    exec (.getmwl t) s = .next u ∧ exec (.getmrl t) s = .next u ∧ exec (.getpid t) s = .next u ∧ exec (.getbcr t) s = .next u ∧
    exec (.getdcr t) s = .next u ∧ exec (.getstatus t) s = .next u) ∧
  (∀ (s u : State) (t : Time) (addr : BitVec 7), u = s.at t → serves u .sideband = true → u.sb.i3c = true → u.sb.dynAddr ≠ 0 →
    exec (.setnewda t addr) s = .next { u with sb := { u.sb with dynAddr := addr.toNat } }) ∧
  (∀ (s u : State) (t : Time) (len : BitVec 16), u = s.at t → serves u .sideband = true → u.sb.i3c = true →
    exec (.setmwl t len) s = .next (if 65 ≤ len.toNat then { u with sb := { u.sb with mwl := min 1026 len.toNat } } else u) ∧
    exec (.setmrl t len) s = .next (if 65 ≤ len.toNat then { u with sb := { u.sb with mrl := min 1026 len.toNat } } else u)) ∧
  (∀ (s u : State) (t : Time), u = s.at t → serves u .sideband = true → u.sb.i3c = true →
    exec (.getmwl t) s = .next { u with sb := { u.sb with ccc := [byte (u.sb.mwl / 256), byte u.sb.mwl] } } ∧
    exec (.getbcr t) s = .next { u with sb := { u.sb with ccc := [0x06] } } ∧
    exec (.getdcr t) s = .next { u with sb := { u.sb with ccc := [0x00] } } ∧
    exec (.getpid t) s = .next { u with sb := { u.sb with ccc := u.sec.pid.reverse } } ∧
    (∃ s', exec (.getmrl t) s = .next s' ∧ s'.sb.ccc.take 2 = [byte (u.sb.mrl / 256), byte u.sb.mrl]) ∧
    (∃ s', exec (.getstatus t) s = .next s' ∧ s'.sb.ccc.length = 2 ∧ Keeps [.free, .sb] u s'))

/-! ## Thermal management (R405 to R421) -/

/-- A sample moves each sensor on by its reading and never lowers the level, and a second reading at or above a threshold enters its level; no
sample is taken before its period is over; the level falls to the first level whose hold has not yet lasted 1 s with every sensor below it, less
HYST; Squall clears and sampling slows 1 s after their conditions end (R406 to R409). When the grace timer expires at THROTTLE or above, or at WARN
with a Squall, the step rises by one, to at most 3, and the timer restarts; when the down timer expires the step falls by one; a FOGHORN goes again
each second to the ports that have not acknowledged it (R411 to R413). -/
def Obligations.SamplesAndTimersMoveTheLevels : Prop :=
  (∀ (s u : State) (t : Time) (reads : List (Option Int)), u = s.at t → sampling u = true →
    (∀ a : Time, u.th.sampledAt = some a → a + samplePeriod u ≤ t) → u.th.sensors.length = 16 →
    ∃ s', exec (.tsSample t reads) s = .next s' ∧ s'.th.sampledAt = some t ∧ u.th.level ≤ s'.th.level ∧
      (∀ n : Nat, n < 16 → s'.th.sensors.getD n Sensor.reset =
        sensorStep ([1, 2, 3, 4].map (thr8 u)) t (u.th.sensors.getD n Sensor.reset) (reads.getD n none)) ∧
      (∀ (n k : Nat) (v : Int), n < 16 → k < 4 → reads.getD n none = some v → -480 ≤ v → v ≤ 1280 →
        (u.th.sensors.getD n Sensor.reset).failed = false → (u.th.sensors.getD n Sensor.reset).hotRun.length = 4 →
        thr8 u (k + 1) ≤ v → 1 ≤ (u.th.sensors.getD n Sensor.reset).hotRun.getD k 0 → k + 1 ≤ s'.th.level)) ∧
  (∀ (s u : State) (t a : Time) (reads : List (Option Int)), u = s.at t → u.th.sampledAt = some a → t < a + samplePeriod u →
    exec (.tsSample t reads) s = .next u) ∧
  (∀ (s u : State) (t : Time), u = s.at t → sampling u = true → leftLevel u t u.th.level < u.th.level →
    ∃ s', exec (.levelHoldExpiry t) s = .next s' ∧ s'.th.level = leftLevel u t u.th.level ∧ s'.th.step = u.th.step ∧
      s'.th.fseq = u.th.fseq + 1) ∧
  (∀ (s u : State) (t a : Time), u = s.at t → sampling u = true → u.th.level = 1 → u.th.below.getD 0 none = some a →
    a + sec ≤ t →
    ∃ s', exec (.levelHoldExpiry t) s = .next s' ∧ s'.th.level = 0) ∧
  (∀ (s u : State) (t : Time), u = s.at t → sampling u = true → u.th.squall = true → u.th.squallAt + sec ≤ t →
    ∃ s', exec (.squallClear t) s = .next s' ∧ s'.th.squall = false ∧ s'.th.level = u.th.level ∧ Keeps [.th] u s') ∧
  (∀ (s u : State) (t : Time), u = s.at t → u.th.fast = true → u.pw.st ≠ .shutdown → u.th.fastAt + sec ≤ t →
    exec (.sampleRateReturn t) s = .next { u with th := { u.th with fast := false } }) ∧
  (∀ (s u : State) (t e : Time), u = s.at t → sampling u = true → u.th.grace = some e → e ≤ t →
    (2 ≤ u.th.level ∨ (u.th.squall = true ∧ 1 ≤ u.th.level)) →
    ∃ s', exec (.graceExpiry t) s = .next s' ∧ s'.th.step = min 3 (u.th.step + 1) ∧ s'.th.grace = some (t + graceLen u) ∧
      s'.th.level = u.th.level) ∧
  (∀ (s u : State) (t e : Time), u = s.at t → sampling u = true → u.th.grace = some e → e ≤ t →
    (u.th.level = 0 ∨ (u.th.level = 1 ∧ u.th.squall = false)) →
    ∃ s', exec (.graceExpiry t) s = .next s' ∧ s'.th.step = u.th.step ∧ s'.th.grace = none) ∧
  (∀ (s u : State) (t e : Time), u = s.at t → sampling u = true → u.th.down = some e → e ≤ t →
    ∃ s', exec (.downTimerExpiry t) s = .next s' ∧ s'.th.step = u.th.step - 1 ∧ s'.th.level = u.th.level) ∧
  (∀ (s u : State) (t : Time), u = s.at t → 2 ≤ u.th.level → u.th.fseq ≠ 0 → u.th.sentAt + sec ≤ t →
    ∃ s', exec (.foghornRepeat t) s = .next s' ∧ s'.th = { u.th with sentAt := t } ∧
      ((∀ p : PortIx, u.th.fseq ≤ u.th.acked.getD p.val 0) → s' = { u with th := { u.th with sentAt := t } })) ∧
  (∀ (s u : State) (t : Time) (p : PortIx), u = s.at t → u.ports.length = 4 → 2 ≤ u.th.level → u.th.fseq ≠ 0 → u.th.sentAt + sec ≤ t →
    u.th.acked.getD p.val 0 < u.th.fseq →
    ∃ s', exec (.foghornRepeat t) s = .next s' ∧
      ∃ n : Note, (s'.port p).mbx.notes.getLast? = some n ∧ n.code = 0x8001 ∧ n.payload = u.th.last)

/-- THERMAL_STATUS reads the sensors and the levels, ACK_FOGHORN stops the repeats of the latest FOGHORN to its caller, and SET_THERMAL stores
thresholds in their ranges, 2 °C apart at least, and refuses them at the first offset that breaks one (R408, R419 to R421). -/
def Obligations.ThermalCommandsAnswer : Prop :=
  (∀ (s u : State) (c : Call), u = s.at c.start → Ready u c 0x0600 → c.payload = [] →
    ∃ pl, exec (.thermalStatus c) s = .next (okWith u c 0x0600 .fast pl) ∧ pl.length = 48 ∧ u8 pl 0 = thermLevel u ∧
      u8 pl 1 = u.th.step % 256 ∧ ∀ n : Nat, n < 16 → u16 pl (16 + 2 * n) = shownTemp (u.th.sensors.getD n Sensor.reset) % 65536) ∧
  (∀ (s u : State) (c : Call) (p : PortIx) (f : Nat), u = s.at c.start → Ready u c 0x0601 → c.src = .port p →
    c.payload = leBytes 2 f ++ [0, 0] → f < 2 ^ 16 →
    (f ≠ 0 → f = fseqOf u.th.fseq → exec (.ackFoghorn c) s = .next (okWith { u with th := { u.th with
      acked := modAt u.th.acked p.val (fun _ => u.th.fseq) } } c 0x0601 .fast [])) ∧
    (f ≠ 0 → f ≠ fseqOf u.th.fseq → (f < u.th.fseq ∨ 65535 ≤ u.th.fseq) →
      exec (.ackFoghorn c) s = .next (okWith u c 0x0601 .fast [])) ∧
    ((f = 0 ∨ (u.th.fseq < f ∧ u.th.fseq < 65535)) →
      exec (.ackFoghorn c) s = .next (respond u c 0x0601 .fast .badArg 0 []))) ∧
  (∀ (s u s' : State) (t : Time) (p : PortIx), u = s.at t → u.ports.length = 4 → u.th.fseq ≤ u.th.acked.getD p.val 0 →
    exec (.foghornRepeat t) s = .next s' → s'.port p = u.port p) ∧
  (∀ (s u : State) (c : Call) (w th cr sh hy sq gr : Nat), u = s.at c.start → Ready u c 0x0604 →
    needLeaseOrSafety u c lARRAY = none → u.sec.untrusted = false →
    c.payload = [byte w, byte th, byte cr, byte sh, byte hy, byte sq] ++ leBytes 2 gr ++ zeros 4 → 85 ≤ w → w ≤ 110 → 95 ≤ th → th ≤ 118 →
    w + 2 ≤ th → 105 ≤ cr → cr ≤ 124 → th + 2 ≤ cr → 110 ≤ sh → sh ≤ 130 → cr + 2 ≤ sh → 1 ≤ hy → hy ≤ 10 → 10 ≤ sq → sq ≤ 80 →
    100 ≤ gr → gr ≤ 10000 → storeWf u.regs = true →
    ∃ s', exec (.setThermal c) s = .next (okWith s' c 0x0604 .fast []) ∧ thresholds s' = [w, th, cr, sh] ∧ squallThr s' = sq ∧
      graceLen s' = gr * ms ∧ hyst8 s' = 8 * hy) ∧
  (∀ (s u : State) (c : Call) (w th cr sh hy sq gr : Nat), u = s.at c.start → Ready u c 0x0604 →
    needLeaseOrSafety u c lARRAY = none → u.sec.untrusted = false →
    c.payload = [byte w, byte th, byte cr, byte sh, byte hy, byte sq] ++ leBytes 2 gr ++ zeros 4 → 85 ≤ w → w ≤ 110 → 95 ≤ th → th ≤ 118 →
    th < w + 2 →
    exec (.setThermal c) s = .next (respond u c 0x0604 .fast .badArg 1 [])) ∧
  (∀ (s u : State) (c : Call), u = s.at c.start → Ready u c 0x0604 → c.payload.length = 12 →
    u.sec.untrusted = true → exec (.setThermal c) s = .next (respond u c 0x0604 .fast .denied 0 []))

/-! ## Timers and pins (R423 to R432, R442 to R447, R453) -/

/-- CONFIG_TIMER stores a channel's settings: in a stopped channel its PERIOD and matches take effect and COUNT clears, in a running one, whose
source, prescaler and mode it may not change, they wait as shadows unless IMMEDIATE; TIMER_CONTROL starts, stops, resets or restarts the channels of
its mask at once, or at a DTIME, at which each of them acts (R426, R427, R445, R446). -/
def Obligations.TimerCommandsAct : Prop :=
  (∀ (s u : State) (c : Call) (p : PortIx) (n : TmrIx), u = s.at c.start → u.pio.tmr.length = 16 → Ready u c 0x0700 → HoldsLease u c p (lTMR n.val) →
    c.payload.length = 48 → u8 c.payload 0 = n.val → u8 c.payload 1 < 32 → u8 c.payload 2 ≤ 5 → u8 c.payload 3 < 16 → 1 ≤ u16 c.payload 4 →
    u8 c.payload 7 ≤ 2 → 1 ≤ u48 c.payload 8 → reserved c.payload 14 2 = none → reserved c.payload 22 2 = none → reserved c.payload 30 2 = none →
    actOk (u32 c.payload 32) = true → (actLinks (u32 c.payload 32) = true → HoldsLease u c p (lTMR (u8 c.payload 3))) →
    (u8 c.payload 36 < 64 ∨ u8 c.payload 36 = 0xFF) → bits (u8 c.payload 37) 3 0 ≤ 2 →
    1 ≤ bits (u8 c.payload 37) 7 4 → u8 c.payload 38 < 16 → reserved c.payload 39 1 = none → 1 ≤ u16 c.payload 40 → u16 c.payload 40 ≤ 256 →
    reserved c.payload 42 6 = none →
    ((u.tmr n.val).run = true → Nat.lor (tmrCtlOf c.payload) tmrSoftCtl = Nat.lor (u.reg (aTMR_CTL n.val)) tmrSoftCtl ∧
      tmrPreOf c.payload = u.reg (aTMR_PRE n.val)) → storeWf u.regs = true →
    ∃ s', exec (.configTimer c) s = .next (okWith s' c 0x0700 .fast []) ∧ (s'.tmr n.val).run = (u.tmr n.val).run ∧ (s'.tmr n.val).at_ = none ∧
      s'.reg (aTMR_CTL n.val) = tmrCtlOf c.payload ∧ s'.reg (aTMR_PRE n.val) = tmrPreOf c.payload ∧
      s'.reg (aTMR_ACT n.val) = u32 c.payload 32 ∧ s'.reg (aTMR_CAPCFG n.val) = tmrCapOf c.payload ∧
      ((u.tmr n.val).run = false ∨ bit (u8 c.payload 1) 2 = true → (s'.tmr n.val).per = u48 c.payload 8 ∧
        (s'.tmr n.val).m0 = u48 c.payload 16 ∧ (s'.tmr n.val).m1 = u48 c.payload 24) ∧
      ((u.tmr n.val).run = false → (s'.tmr n.val).count = 0 ∧ (s'.tmr n.val).out = bit (u8 c.payload 1) 4) ∧
      ((u.tmr n.val).run = true → bit (u8 c.payload 1) 2 = false → (s'.tmr n.val).shPer = some (u48 c.payload 8) ∧
        (s'.tmr n.val).shM0 = some (u48 c.payload 16) ∧ (s'.tmr n.val).shM1 = some (u48 c.payload 24) ∧
        (s'.tmr n.val).per = (u.tmr n.val).per ∧ (s'.tmr n.val).count = (u.tmr n.val).count) ∧
      ∀ m : Nat, m ≠ n.val → s'.tmr m = u.tmr m) ∧
  (∀ (s u : State) (c : Call) (m op : Nat) (any : List Byte), u = s.at c.start → u.pio.tmr.length = 16 → Ready u c 0x0702 →
    m < 2 ^ 16 → (∀ k : Nat, k < 16 → bit m k = true → ∃ p : PortIx, HoldsLease u c p (lTMR k)) → 1 ≤ op → op ≤ 4 → any.length = 8 →
    c.payload = leBytes 2 m ++ [byte op, 0] ++ any →
    ∃ s', exec (.timerControl c) s = .next (okWith s' c 0x0702 .fast (leBytes 8 (u.dtime c.start))) ∧
      ∀ k : Nat, k < 16 → s'.tmr k = if bit m k then (tmrControl (u.modTmr k (fun x => { x with at_ := none })) k op c.start).tmr k else u.tmr k) ∧
  (∀ (s u : State) (c : Call) (p : PortIx) (n : TmrIx), u = s.at c.start → u.pio.tmr.length = 16 → Ready u c 0x0702 → HoldsLease u c p (lTMR n.val) →
    c.payload = leBytes 2 (2 ^ n.val) ++ [1, 0] ++ zeros 8 → (u.tmr n.val).run = false → (u.tmr n.val).stopCyc ≠ some (pioCycle c.start) →
    ∃ s', exec (.timerControl c) s = .next (okWith s' c 0x0702 .fast (leBytes 8 (u.dtime c.start))) ∧ (s'.tmr n.val).run = true ∧
      (s'.tmr n.val).count = (u.tmr n.val).count ∧ ∀ m : Nat, m ≠ n.val → s'.tmr m = u.tmr m) ∧
  (∀ (s u : State) (c : Call) (p : PortIx) (n : TmrIx), u = s.at c.start → u.pio.tmr.length = 16 → Ready u c 0x0702 → HoldsLease u c p (lTMR n.val) →
    c.payload = leBytes 2 (2 ^ n.val) ++ [2, 0] ++ zeros 8 →
    ∃ s', exec (.timerControl c) s = .next (okWith s' c 0x0702 .fast (leBytes 8 (u.dtime c.start))) ∧ (s'.tmr n.val).run = false ∧
      (s'.tmr n.val).count = (u.tmr n.val).count ∧ ∀ m : Nat, m ≠ n.val → s'.tmr m = u.tmr m) ∧
  (∀ (s u : State) (c : Call) (m op d : Nat), u = s.at c.start → u.pio.tmr.length = 16 → Ready u c 0x0702 →
    m < 2 ^ 16 → (∀ k : Nat, k < 16 → bit m k = true → ∃ p : PortIx, HoldsLease u c p (lTMR k)) → 1 ≤ op → op ≤ 4 → d < 2 ^ 64 →
    20000 ≤ (d + 2 ^ 64 - u.dtime c.stamp) % 2 ^ 64 → (d + 2 ^ 64 - u.dtime c.stamp) % 2 ^ 64 ≤ 60000000000 →
    c.payload = leBytes 2 m ++ [byte op, 1] ++ leBytes 8 d →
    ∃ s' pl, exec (.timerControl c) s = .next (okWith s' c 0x0702 .fast pl) ∧ pl.length = 8 ∧
      ∀ k : Nat, k < 16 → s'.tmr k = if bit m k then { u.tmr k with at_ := some (d, op) } else u.tmr k) ∧
  (∀ (s u : State) (t : Time) (n : TmrIx) (x : Nat × Nat), u = s.at t → u.pio.tmr.length = 16 → (u.tmr n.val).at_ = some x → atDue u t x = true →
    ∃ s', exec (.timerControlAt t) s = .next s' ∧
      (s'.tmr n.val) = (tmrControl (u.modTmr n.val (fun c => { c with at_ := none })) n.val x.2 t).tmr n.val ∧
      (∀ m : Nat, m < 16 → (u.tmr m).at_ = none → s'.tmr m = u.tmr m) ∧
      ∀ (m : Nat) (y : Nat × Nat), m < 16 → (u.tmr m).at_ = some y → atDue u t y = false → s'.tmr m = u.tmr m)

/-- A tick counts up to PERIOD and wraps, or up and down; PERIOD, MATCH and ZERO events are taken one by one, let the shadows take effect, stop a
one-shot channel, and set the engines' latches; an accepted edge makes a capture due, which sets NEW, and OVERCAPTURE where NEW was set; CAP_LO
returns the held capture, or the one before where the capture falls in the cycle of the read; COUNT reads 0 and sets RD_RUNNING while the channel
runs; TIMER_CAPTURE reads any set of channels with DTIME and changes none; FSYNC_OUT falls at its time (R424, R425, R427 to R432, R442, R443, R447). -/
def Obligations.TimerEventsCountAndCapture : Prop :=
  (∀ (s u : State) (t : Time) (n : TmrIx), u = s.at t → u.pio.tmr.length = 16 → (u.tmr n.val).run = true → tmrClear (u.tmr n.val) = true →
    (tmrSrc u n.val ≤ 2 → (u.tmr n.val).last + tmrNeed u n.val ≤ srcIndex u (tmrSrc u n.val) t) →
    (3 ≤ tmrSrc u n.val → 0 < (u.tmr n.val).ticks) →
    ∃ s', exec (.timerTick t n) s = .next s' ∧ Keeps [.pio] u s' ∧ (s'.tmr n.val).run = true ∧
      (s'.tmr n.val).last = (if tmrSrc u n.val ≤ 2 then (u.tmr n.val).last + tmrNeed u n.val else (u.tmr n.val).last) ∧
      (s'.tmr n.val).ticks = (if tmrSrc u n.val ≤ 2 then (u.tmr n.val).ticks else (u.tmr n.val).ticks - 1) ∧
      (s'.tmr n.val).dueM0 = decide ((s'.tmr n.val).count = (u.tmr n.val).m0 ∧ (u.tmr n.val).m0 ≤ (u.tmr n.val).per) ∧
      (s'.tmr n.val).dueM1 = decide ((s'.tmr n.val).count = (u.tmr n.val).m1 ∧ (u.tmr n.val).m1 ≤ (u.tmr n.val).per) ∧
      (tmrMode u n.val = false → (s'.tmr n.val).dueZero = false ∧
        (s'.tmr n.val).count = (if (u.tmr n.val).per ≤ (u.tmr n.val).count then 0 else (u.tmr n.val).count + 1) ∧
        (s'.tmr n.val).duePer = decide ((u.tmr n.val).per ≤ (u.tmr n.val).count)) ∧
      (tmrMode u n.val = true → (u.tmr n.val).down = false → (u.tmr n.val).count + 1 < (u.tmr n.val).per →
        (s'.tmr n.val).count = (u.tmr n.val).count + 1 ∧ (s'.tmr n.val).down = false) ∧
      (tmrMode u n.val = true → (u.tmr n.val).down = false → (u.tmr n.val).per ≤ (u.tmr n.val).count + 1 →
        (s'.tmr n.val).count = (u.tmr n.val).per ∧ (s'.tmr n.val).down = true ∧ (s'.tmr n.val).duePer = true) ∧
      (tmrMode u n.val = true → (u.tmr n.val).down = true → 2 ≤ (u.tmr n.val).count →
        (s'.tmr n.val).count = (u.tmr n.val).count - 1 ∧ (s'.tmr n.val).down = true) ∧
      (tmrMode u n.val = true → (u.tmr n.val).down = true → (u.tmr n.val).count ≤ 1 →
        (s'.tmr n.val).count = 0 ∧ (s'.tmr n.val).down = false ∧ (s'.tmr n.val).dueZero = true) ∧
      ∀ m : Nat, m ≠ n.val → s'.tmr m = u.tmr m) ∧
  (∀ (s u : State) (t : Time) (n : TmrIx) (e : EngIx), u = s.at t → u.pio.tmr.length = 16 → u.pio.pe.length = 8 → (u.tmr n.val).duePer = true →
    (u.tmr n.val).dueCap = false → (u.tmr n.val).dueM0 = false → (u.tmr n.val).dueM1 = false →
    ∃ s', exec (.periodEvent t n) s = .next s' ∧ (s'.tmr n.val).duePer = false ∧ bit (s'.pe e.val).latch (4 * n.val + 2) = true ∧
      (tmrMode u n.val = true → (s'.tmr n.val).per = (u.tmr n.val).per ∧ (s'.tmr n.val).shPer = (u.tmr n.val).shPer) ∧
      (tmrMode u n.val = false → (s'.tmr n.val).per = (u.tmr n.val).shPer.getD (u.tmr n.val).per ∧ (s'.tmr n.val).shPer = none ∧
        (tmrOneShot u n.val = true → (s'.tmr n.val).count = 0 ∧
          ((u.fld (aTMR_ACT n.val) 19 17 ≠ 1 ∨ tmrLink u n.val ≠ n.val) → (s'.tmr n.val).run = false)))) ∧
  (∀ (s u : State) (t : Time) (n : TmrIx) (e : EngIx) (second : Bool) (a : Nat), u = s.at t → u.pio.tmr.length = 16 → u.pio.pe.length = 8 →
    (u.tmr n.val).dueCap = false → (second = false → (u.tmr n.val).dueM0 = true) → (second = true → (u.tmr n.val).dueM1 = true ∧ (u.tmr n.val).dueM0 = false) →
    a = (if second then u.fld (aTMR_ACT n.val) 14 10 else u.fld (aTMR_ACT n.val) 9 5) →
    ∃ s', exec (.matchEvent t n second) s = .next s' ∧ (s'.tmr n.val).dueM0 = false ∧ (second = true → (s'.tmr n.val).dueM1 = false) ∧
      bit (s'.pe e.val).latch (4 * n.val + b2n second) = true ∧
      (a < 4 → (s'.tmr n.val).count = (u.tmr n.val).count) ∧
      ((a / 4 ≠ 3 ∨ tmrLink u n.val ≠ n.val) → (s'.tmr n.val).out =
        match a % 4 with | 0 => (u.tmr n.val).out | 1 => true | 2 => false | _ => !(u.tmr n.val).out) ∧
      (tmrLink u n.val ≠ n.val → s'.tmr (tmrLink u n.val) = (tmrCommand u (tmrLink u n.val) (a / 4) t).tmr (tmrLink u n.val)) ∧
      ∀ m : Nat, m ≠ n.val → m ≠ tmrLink u n.val → s'.tmr m = u.tmr m) ∧
  (∀ (s u : State) (t : Time) (n : TmrIx), u = s.at t → u.pio.tmr.length = 16 → (u.tmr n.val).dueZero = true → (u.tmr n.val).dueCap = false →
    (u.tmr n.val).dueM0 = false → (u.tmr n.val).dueM1 = false →
    ∃ s', exec (.zeroEvent t n) s = .next s' ∧ (s'.tmr n.val).dueZero = false ∧
      (s'.tmr n.val).per = (u.tmr n.val).shPer.getD (u.tmr n.val).per ∧ (tmrOneShot u n.val = true →
        (u.fld (aTMR_ACT n.val) 24 22 ≠ 1 ∨ tmrLink u n.val ≠ n.val) → (s'.tmr n.val).run = false)) ∧
  (∀ (s u : State) (t : Time) (n : TmrIx) (level : Bool) (edge : Nat), u = s.at t → u.pio.tmr.length = 16 →
    u.fld (aTMR_CAPCFG n.val) 31 24 < 64 → (u.tmr n.val).level ≠ level → edge = u.fld (aTMR_CAPCFG n.val) 1 0 →
    ∃ s', exec (.pinEdgeAccepted t n level) s = .next s' ∧ (s'.tmr n.val).level = level ∧ (s'.tmr n.val).count = (u.tmr n.val).count ∧
      (((edge = 0 ∧ level = false) ∨ (edge = 1 ∧ level = true)) → s' = u.modTmr n.val (fun x => { x with level := level })) ∧
      (((edge = 0 ∧ level = true) ∨ (edge = 1 ∧ level = false) ∨ 2 ≤ edge) →
        (u.fld (aTMR_CAPCFG n.val) 23 16 ≤ (u.tmr n.val).edges →
          (s'.tmr n.val).dueCap = true ∧ (s'.tmr n.val).capVal = (u.tmr n.val).count ∧ (s'.tmr n.val).edges = 0) ∧
        ((u.tmr n.val).edges < u.fld (aTMR_CAPCFG n.val) 23 16 →
          (s'.tmr n.val).dueCap = (u.tmr n.val).dueCap ∧ (s'.tmr n.val).edges = (u.tmr n.val).edges + 1))) ∧
  (∀ (s u : State) (t : Time) (n : TmrIx) (e : EngIx), u = s.at t → u.pio.tmr.length = 16 → u.pio.pe.length = 8 → (u.tmr n.val).dueCap = true →
    ∃ s', exec (.captureEvent t n) s = .next s' ∧ (s'.tmr n.val).dueCap = false ∧ (s'.tmr n.val).fresh = true ∧
      ((u.tmr n.val).fresh = true → (s'.tmr n.val).overcap = true) ∧ bit (s'.pe e.val).latch (4 * n.val + 3) = true ∧
      ((u.fld (aTMR_ACT n.val) 4 2 ≠ 4 ∨ tmrLink u n.val ≠ n.val) → (s'.tmr n.val).cap = (u.tmr n.val).capVal ∧
        (s'.tmr n.val).overcap = ((u.tmr n.val).overcap || (u.tmr n.val).fresh))) ∧
  (∀ (s : State) (t : Time) (n : TmrIx) (v : Nat), s.pio.tmr.length = 16 → ((tmrCapture s n.val v t).tmr n.val).cap = v ∧
    ((tmrCapture s n.val v t).tmr n.val).fresh = true ∧ ((tmrCapture s n.val v t).tmr n.val).prevCap = (s.tmr n.val).cap ∧
    ((tmrCapture s n.val v t).tmr n.val).capCyc = some (pioCycle t) ∧
    ((tmrCapture s n.val v t).tmr n.val).overcap = ((s.tmr n.val).overcap || (s.tmr n.val).fresh)) ∧
  (∀ (s u : State) (t : Time) (n : TmrIx), u = s.at t → u.pio.tmr.length = 16 → (u.tmr n.val).capCyc ≠ some (pioCycle t) →
    ∃ s', exec (.tmrCapLoRead t n) s = .next s' ∧ s'.pio.readVal = (u.tmr n.val).cap % 2 ^ 32 ∧
      s'.tmr n.val = { u.tmr n.val with capCopy := (u.tmr n.val).cap, fresh := false }) ∧
  (∀ (s u : State) (t : Time) (n : TmrIx), u = s.at t → u.pio.tmr.length = 16 → (u.tmr n.val).capCyc = some (pioCycle t) →
    ∃ s', exec (.tmrCapLoRead t n) s = .next s' ∧ s'.pio.readVal = (u.tmr n.val).prevCap % 2 ^ 32 ∧
      s'.tmr n.val = { u.tmr n.val with capCopy := (u.tmr n.val).prevCap }) ∧
  (∀ (s u : State) (c : Call) (n : TmrIx), u = s.at c.start → Ready u c 0x0010 → c.payload = leBytes 4 (aTMR_CAP_HI n.val) ++ [1, 0, 0, 0] →
    exec (.readReg c) s = .next (okWith u c 0x0010 .fast (leBytes 4 (aTMR_CAP_HI n.val) ++ zeros 4 ++
      leBytes 4 ((u.tmr n.val).capCopy / 2 ^ 32)))) ∧
  (∀ (s u : State) (t : Time) (n : TmrIx) (high : Bool), u = s.at t → u.pio.tmr.length = 16 →
    ∃ s', exec (.tmrCountRead t n high) s = .next s' ∧
      ((u.tmr n.val).run = true → s'.pio.readVal = 0 ∧ s'.tmr n.val = { u.tmr n.val with rdRun := true }) ∧
      ((u.tmr n.val).run = false → s'.pio.readVal = (if high then (u.tmr n.val).count / 2 ^ 32 else (u.tmr n.val).count % 2 ^ 32) ∧
        s'.tmr n.val = u.tmr n.val)) ∧
  (∀ (s u : State) (c : Call) (n : TmrIx) (a : Nat), u = s.at c.start → u.pio.tmr.length = 16 → Ready u c 0x0010 →
    (a = aTMR_COUNT_LO n.val ∨ a = aTMR_COUNT_HI n.val) → c.payload = leBytes 4 a ++ [1, 0, 0, 0] →
    ((u.tmr n.val).run = true → exec (.readReg c) s = .next (okWith (u.modTmr n.val (fun x => { x with rdRun := true })) c 0x0010 .fast
      (leBytes 4 a ++ zeros 8))) ∧
    ((u.tmr n.val).run = false → exec (.readReg c) s = .next (okWith u c 0x0010 .fast (leBytes 4 a ++ zeros 4 ++
      leBytes 4 (if a = aTMR_COUNT_LO n.val then (u.tmr n.val).count % 2 ^ 32 else (u.tmr n.val).count / 2 ^ 32))))) ∧
  (∀ (s u : State) (c : Call) (m : Nat), u = s.at c.start → Ready u c 0x0701 → c.payload = leBytes 2 m ++ [0, 0] → m < 2 ^ 16 →
    exec (.timerCapture c) s = .next (okWith u c 0x0701 .fast (leBytes 8 (u.dtime c.start) ++
      ((List.range 16).filter (fun n => bit m n)).flatMap (fun n =>
        leBytes 6 (u.tmr n).count ++ [byte (b2n (u.tmr n).run + 2 * b2n (u.tmr n).down), 0])))) ∧
  (∀ r : Rsp, (rspEntries r).length = max 1 ((r.payload.length + 47) / 48)) ∧
  (∀ (s u : State) (t e : Time) (pin : Fin 64), u = s.at t → (pin.val, e) ∈ u.pio.fsync → e ≤ t →
    exec (.fsyncOutEnd t pin) s = .next { u with pio := { u.pio with
      fsync := u.pio.fsync.filter (fun x => !decide (x.1 = pin.val ∧ x.2 ≤ t)) } }) ∧
  (∀ (s u : State) (t : Time) (pin : Fin 64), u = s.at t →
    exec (.pinTransitionOverrun t pin) s = .next { u with pio := { u.pio with ovr := setBit u.pio.ovr pin.val true } })

/-! ## The PIO engines (R434 to R441, R448 to R452) -/

/-- The data instructions of a running engine whose tick has come: DRIVE changes the pins of its mask, XFER shifts bits out of TXR and into RXR,
FETCH and STORE move words and stall with BLOCK, COPY and IMM write a register. Each then goes on to the next instruction with the ticks it takes
and its HOLD (R434 to R439). -/
def Obligations.PioDataInstructions : Prop :=
  (∀ (s u : State) (t : Time) (e : EngIx) (w : Nat), u = s.at t → u.pio.pe.length = 8 → w = peWord u e.val → peRuns 0 e.val t u = true →
    ∃ s', exec (.drive t e) s = .next s' ∧
      (bit w 16 = false → (s'.pe e.val).dir = (u.pe e.val).dir ∧
        ∀ k : Nat, k < 8 → bit (s'.pe e.val).lvl k = if bit w (8 + k) then bit w k else bit (u.pe e.val).lvl k) ∧
      (bit w 16 = true → (s'.pe e.val).lvl = (u.pe e.val).lvl ∧
        ∀ k : Nat, k < 8 → bit (s'.pe e.val).dir k = if bit w (8 + k) then bit w k else bit (u.pe e.val).dir k) ∧
      (s'.pe e.val).pc = (peNext (u.pe e.val).pc (u.pe e.val).stack).1 ∧
      (s'.pe e.val).ticks = (u.pe e.val).ticks + 1 + bits w 27 24 ∧ ∀ x : Nat, x ≠ e.val → s'.pe x = u.pe x) ∧
  (∀ (s u : State) (t : Time) (e : EngIx) (di : BitVec 32) (w n : Nat), u = s.at t → u.pio.pe.length = 8 → w = peWord u e.val →
    peRuns 1 e.val t u = true → n = bits w 5 0 →
    ∃ (s' : State) (d : BitVec 32) (x : Pe), exec (.xfer t e di) s = .next s' ∧
      ((serPin u e.val 4).isSome = true ∨ bit w 9 = false → d = di) ∧
      x = xferBits (bit w 10) (bit w 8) (bit w 9) (serPin u e.val 0) (xferDi u e.val (bit w 8) d) n (u.pe e.val) ∧
      (s'.pe e.val).txr = x.txr ∧ (s'.pe e.val).tc = x.tc ∧ (s'.pe e.val).rxr = x.rxr ∧ (s'.pe e.val).rc = x.rc ∧
      (s'.pe e.val).lvl = (match serPin u e.val 8 with
        | some k => setBit x.lvl k (u.fld (aPIO_SER e.val) 16 16 = 1) | none => x.lvl) ∧
      (s'.pe e.val).st = .running ∧ (s'.pe e.val).pc = (peNext (u.pe e.val).pc (u.pe e.val).stack).1 ∧
      (s'.pe e.val).ticks = (u.pe e.val).ticks + 2 * (u.fld (aPIO_SER e.val) 15 12 + 1) * n + bits w 27 24) ∧
  (∀ (s u : State) (t : Time) (e : EngIx) (di : BitVec 32) (w n : Nat), u = s.at t → u.pio.pe.length = 8 → w = peWord u e.val →
    peRuns 1 e.val t u = true → n = bits w 5 0 → bit w 8 = true → bit w 9 = false → bit w 10 = false →
    ∃ s', exec (.xfer t e di) s = .next s' ∧ (s'.pe e.val).txr = (u.pe e.val).txr >>> n ∧ (s'.pe e.val).tc = (u.pe e.val).tc - n ∧
      (s'.pe e.val).rxr = (u.pe e.val).rxr ∧
      (s'.pe e.val).ticks = (u.pe e.val).ticks + 2 * (u.fld (aPIO_SER e.val) 15 12 + 1) * n + bits w 27 24) ∧
  (∀ (s u : State) (t : Time) (e : EngIx) (di : BitVec 32) (w n i : Nat), u = s.at t → u.pio.pe.length = 8 → w = peWord u e.val →
    peRuns 1 e.val t u = true → n = bits w 5 0 → bit w 8 = false → bit w 9 = true → bit w 10 = false → serPin u e.val 4 = some i →
    serPin u e.val 8 ≠ some i → pinDriven u (8 * e.val + i) = none → (u.pe e.val).rc = 0 →
    ∃ s', exec (.xfer t e di) s = .next s' ∧ (s'.pe e.val).rc = n ∧ (s'.pe e.val).txr = (u.pe e.val).txr ∧
      ∀ k : Nat, k < 32 → (s'.pe e.val).rxr.getLsbD k = if k < n then di.getLsbD k else (u.pe e.val).rxr.getLsbD k) ∧
  (∀ (s u : State) (t : Time) (e : EngIx) (x : BitVec 32) (r : List (BitVec 32)), u = s.at t → u.pio.pe.length = 8 → peRuns 2 e.val t u = true →
    (u.pe e.val).txq = x :: r →
    ∃ s', exec (.fetch t e) s = .next s' ∧ (s'.pe e.val).txr = x ∧ (s'.pe e.val).tc = 32 ∧ (s'.pe e.val).txq = r ∧
      (s'.pe e.val).st = .running) ∧
  (∀ (s u : State) (t : Time) (e : EngIx), u = s.at t → u.pio.pe.length = 8 → peRuns 2 e.val t u = true → (u.pe e.val).txq = [] →
    bit (peWord u e.val) 8 = true →
    exec (.fetch t e) s = .next (u.modPe e.val (fun p => { p with st := .stalled, waitFrom := some t }))) ∧
  (∀ (s u : State) (t : Time) (e : EngIx), u = s.at t → u.pio.pe.length = 8 → peRuns 2 e.val t u = true → (u.pe e.val).txq = [] →
    bit (peWord u e.val) 8 = false →
    ∃ s', exec (.fetch t e) s = .next s' ∧ (s'.pe e.val).txr = (u.pe e.val).txr ∧ (s'.pe e.val).tc = (u.pe e.val).tc ∧
      (s'.pe e.val).st = .running ∧ (s'.pe e.val).pc = (peNext (u.pe e.val).pc (u.pe e.val).stack).1) ∧
  (∀ (s u : State) (t : Time) (e : EngIx), u = s.at t → u.pio.pe.length = 8 → peRuns 3 e.val t u = true → rxFull u e.val = true →
    bit (peWord u e.val) 8 = true →
    exec (.store t e) s = .next (u.modPe e.val (fun p => { p with st := .stalled, waitFrom := some t }))) ∧
  (∀ (s u : State) (t : Time) (e : EngIx), u = s.at t → u.pio.pe.length = 8 → peRuns 3 e.val t u = true → rxFull u e.val = false →
    ∃ s', exec (.store t e) s = .next s' ∧ (s'.pe e.val).rxq = (u.pe e.val).rxq ++ [((u.pe e.val).rxr, t, u.dtime t)] ∧ (s'.pe e.val).rxr = 0 ∧
      (s'.pe e.val).rc = 0 ∧ (s'.pe e.val).ovf = (u.pe e.val).ovf) ∧
  (∀ (s u : State) (t : Time) (e : EngIx), u = s.at t → u.pio.pe.length = 8 → peRuns 3 e.val t u = true → rxFull u e.val = true →
    bit (peWord u e.val) 8 = false →
    ∃ s', exec (.store t e) s = .next s' ∧ (s'.pe e.val).rxq = (u.pe e.val).rxq ∧ (s'.pe e.val).ovf = true ∧ (s'.pe e.val).rxr = 0) ∧
  (∀ (s u : State) (t : Time) (e : EngIx) (pins : Byte) (w : Nat) (x v : BitVec 32), u = s.at t → u.pio.pe.length = 8 → w = peWord u e.val →
    peRuns 4 e.val t u = true → x = peSource (u.pe e.val) (pinsSeen u e.val pins) (bits w 7 4) →
    v = (match bits w 3 0 with | 0 => x | 1 => ~~~x | _ => byteSwap x) →
    ∃ s', exec (.copy t e pins) s = .next s' ∧ (s'.pe e.val).st = .running ∧
      (s'.pe e.val).pc = (peNext (u.pe e.val).pc (u.pe e.val).stack).1 ∧ (s'.pe e.val).ticks = (u.pe e.val).ticks + 1 + bits w 27 24 ∧
      (s'.pe e.val).txr = (if bits w 11 8 = 0 then v else (u.pe e.val).txr) ∧ (s'.pe e.val).tc = (if bits w 11 8 = 0 then 32 else (u.pe e.val).tc) ∧
      (s'.pe e.val).rxr = (if bits w 11 8 = 1 then v else (u.pe e.val).rxr) ∧ (s'.pe e.val).rc = (if bits w 11 8 = 1 then 32 else (u.pe e.val).rc) ∧
      (s'.pe e.val).w0 = (if bits w 11 8 = 2 then v else (u.pe e.val).w0) ∧ (s'.pe e.val).w1 = (if bits w 11 8 = 3 then v else (u.pe e.val).w1) ∧
      (s'.pe e.val).lvl = (if bits w 11 8 = 4 then v.toNat % 256 else (u.pe e.val).lvl)) ∧
  (∀ (s u : State) (t : Time) (e : EngIx) (w : Nat) (old new other : BitVec 32), u = s.at t → u.pio.pe.length = 8 → w = peWord u e.val →
    peRuns 5 e.val t u = true → old = (if bit w 16 then (u.pe e.val).w1 else (u.pe e.val).w0) →
    other = (if bit w 16 then (u.pe e.val).w0 else (u.pe e.val).w1) →
    new = (if bit w 17 then BitVec.ofNat 32 (bits w 15 0 * 65536 + old.toNat % 65536)
      else BitVec.ofNat 32 (old.toNat / 65536 * 65536 + bits w 15 0)) →
    ∃ s', exec (.imm t e) s = .next s' ∧ (s'.pe e.val).w0 = (if bit w 16 then other else new) ∧
      (s'.pe e.val).w1 = (if bit w 16 then new else other) ∧ (s'.pe e.val).txr = (u.pe e.val).txr ∧ (s'.pe e.val).rxr = (u.pe e.val).rxr ∧
      (s'.pe e.val).pc = (peNext (u.pe e.val).pc (u.pe e.val).stack).1)

/-- The control instructions of a running engine: LOOP pushes the loop stack, WAIT goes on or stalls, BR jumps where its condition holds, FLUSH
sends the packet buffer, END stops the engine with its working values kept, an illegal instruction halts it with its fault, a stall ends when its
condition comes, and a WAIT that lasts too long halts the engine (R435, R437 to R441). -/
def Obligations.PioControlInstructions : Prop :=
  (∀ (s u : State) (t : Time) (e : EngIx) (w : Nat), u = s.at t → u.pio.pe.length = 8 → w = peWord u e.val → peRuns 6 e.val t u = true →
    ∃ s', exec (.loopI t e) s = .next s' ∧ (s'.pe e.val).pc = (u.pe e.val).pc + 1 ∧
      (s'.pe e.val).stack = ⟨(u.pe e.val).pc + 1, bits w 21 16, bits w 15 0 + 1⟩ :: (u.pe e.val).stack ∧ (s'.pe e.val).stack.length ≤ 2) ∧
  (∀ (s u : State) (t : Time) (e : EngIx) (pins : Byte) (w : Nat) (holds : Bool), u = s.at t → u.pio.pe.length = 8 → w = peWord u e.val →
    peRuns 7 e.val t u = true → holds = (match bits w 11 8 with
      | 0 => (pinsSeen u e.val pins).getLsbD (bits w 2 0) | 1 => !(pinsSeen u e.val pins).getLsbD (bits w 2 0) | 5 => !(u.pe e.val).txq.isEmpty | 6 => !rxFull u e.val
      | _ => false) →
    ∃ s', exec (.waitI t e pins) s = .next s' ∧
      (bits w 11 8 = 4 → bit (s'.pe e.val).latch (peLatchBit (bits w 7 4) (bits w 13 12)) = false) ∧
      (bits w 11 8 ≠ 4 → (s'.pe e.val).latch = (u.pe e.val).latch) ∧
      (holds = true → (s'.pe e.val).st = .running ∧ (s'.pe e.val).pc = (peNext (u.pe e.val).pc (u.pe e.val).stack).1 ∧
        (s'.pe e.val).ticks = (u.pe e.val).ticks + 1 + bits w 27 24) ∧
      (holds = false → (s'.pe e.val).st = .stalled ∧ (s'.pe e.val).waitFrom = some t ∧
        (s'.pe e.val).pc = (u.pe e.val).pc)) ∧
  (∀ (s u : State) (t : Time) (e : EngIx) (pins : Byte) (w : Nat), u = s.at t → u.pio.pe.length = 8 → w = peWord u e.val →
    peRuns 8 e.val t u = true →
    ∃ s', exec (.br t e pins) s = .next s' ∧ (s'.pe e.val).ticks = (u.pe e.val).ticks + 1 + bits w 27 24 ∧
      (brHolds u e.val pins = true → (s'.pe e.val).pc = bits w 5 0 ∧ (s'.pe e.val).stack = pePop (bits w 5 0) (u.pe e.val).stack) ∧
      (brHolds u e.val pins = false → (s'.pe e.val).pc = (peNext (u.pe e.val).pc (u.pe e.val).stack).1) ∧
      (bits w 11 8 = 7 → bit (s'.pe e.val).latch (peLatchBit (bits w 19 16) (bits w 21 20)) = false)) ∧
  (∀ (s u : State) (t : Time) (e : EngIx), u = s.at t → u.pio.pe.length = 8 → u.ports.length = 4 → peRuns 9 e.val t u = true →
    ∃ s', exec (.flush t e) s = .next s' ∧ (s'.pe e.val).st = .running ∧ (s'.pe e.val).pc = (peNext (u.pe e.val).pc (u.pe e.val).stack).1 ∧
      ((u.pe e.val).buf = [] → s'.ports = u.ports ∧ s'.regs = u.regs ∧ (s'.pe e.val).pkts = (u.pe e.val).pkts) ∧
      ((u.pe e.val).buf ≠ [] → u.portActive (u.pe e.val).port = false → (s'.pe e.val).buf = [] ∧ (s'.pe e.val).ovf = true ∧
        (s'.pe e.val).pkts = ((u.pe e.val).pkts + 1) % 2 ^ 32 ∧ s'.ports = u.ports) ∧
      ((u.pe e.val).buf ≠ [] → u.portActive (u.pe e.val).port = true → pioRoom u e.val = true →
        (s'.pe e.val).buf = [] ∧ (s'.pe e.val).pkts = ((u.pe e.val).pkts + 1) % 2 ^ 32 ∧
        (s'.port (u.pe e.val).port).vq = (u.port (u.pe e.val).port).vq ++ [⟨8, 0, pioPacket u e.val, 0, none, 0⟩]) ∧
      ((u.pe e.val).buf ≠ [] → u.portActive (u.pe e.val).port = true → pioRoom u e.val = false →
        (s'.pe e.val).buf = (u.pe e.val).buf ∧ (s'.pe e.val).flush = true ∧ s'.ports = u.ports)) ∧
  (∀ (s u : State) (t : Time) (e : EngIx), u = s.at t → peRuns 10 e.val t u = true →
    exec (.endI t e) s = .next (u.modPe e.val (fun p => { p with
      st := .stopped, tc := 0, rc := 0, waitFrom := none, keepW0 := p.w0, keepW1 := p.w1, keepTx := p.txr, keepRx := p.rxr }))) ∧
  (∀ (s u : State) (t : Time) (e : EngIx), u = s.at t → u.pio.pe.length = 8 → peReady u e.val t = true → peIllegal u e.val = true →
    ∃ s', exec (.pioIllegal t e) s = .next s' ∧ (s'.pe e.val).st = .halted ∧ (s'.pe e.val).fault = 2 ∧ (s'.pe e.val).pc = (u.pe e.val).pc ∧
      (u.log.entries.length < 64 → ∃ f ∈ s'.log.entries, f.code = fPIO_ILLEGAL ∧ f.inst = e.val ∧ f.stands = true)) ∧
  (∀ (s u : State) (t : Time) (e : EngIx) (pins : Byte) (edge : Bool), u = s.at t → u.pio.pe.length = 8 →
    (u.pe e.val).st = .stalled → stallOver u e.val pins edge = true →
    ∃ s', exec (.pioStallEnd t e pins edge) s = .next s' ∧ (s'.pe e.val).st = .running ∧ (s'.pe e.val).waitFrom = none ∧
      (s'.pe e.val).pc = (peNext (u.pe e.val).pc (u.pe e.val).stack).1 ∧
      (s'.pe e.val).ticks = max (u.pe e.val).ticks (peTickAt u e.val t) + 1 + bits (peWord u e.val) 27 24 ∧
      (∀ (x : BitVec 32) (r : List (BitVec 32)), peOp (peWord u e.val) = 2 → (u.pe e.val).txq = x :: r →
        (s'.pe e.val).txr = x ∧ (s'.pe e.val).tc = 32 ∧ (s'.pe e.val).txq = r) ∧
      (peOp (peWord u e.val) = 3 → (s'.pe e.val).rxq = (u.pe e.val).rxq ++ [((u.pe e.val).rxr, t, u.dtime t)] ∧ (s'.pe e.val).rxr = 0 ∧
        (s'.pe e.val).rc = 0) ∧
      (peOp (peWord u e.val) = 7 → bits (peWord u e.val) 11 8 = 4 →
        bit (s'.pe e.val).latch (peLatchBit (bits (peWord u e.val) 7 4) (bits (peWord u e.val) 13 12)) = false)) ∧
  (∀ (s u : State) (t f : Time) (e : EngIx), u = s.at t → u.pio.pe.length = 8 → (u.pe e.val).st = .stalled → peOp (peWord u e.val) = 7 →
    0 < u.fld (aPIO_TMO e.val) 15 0 → (u.pe e.val).waitFrom = some f → f + u.fld (aPIO_TMO e.val) 15 0 * us ≤ t →
    ∃ s', exec (.waitTimeout t e) s = .next s' ∧ (s'.pe e.val).st = .halted ∧ (s'.pe e.val).fault = 1 ∧
      (u.log.entries.length < 64 → ∃ g ∈ s'.log.entries, g.code = fWAIT_TIMEOUT ∧ g.inst = e.val ∧ g.stands = true))

/-- LOAD_PIO writes instruction words and, asked to, the settings of a stopped engine, START_PIO starts engines with cleared registers, STOP_PIO
stops them, PIO_QUEUE fills TXQ as far as it has room, CONFIG_PINS sets any number of pins; words move from RXQ to the packet buffer, which leaves
when it is full or old enough, and is lost where its port is out of ACTIVE (R319, R438, R440, R441, R448 to R452). -/
def Obligations.PioCommandsAndPackets : Prop :=
  (∀ (s u : State) (c : Call) (p : PortIx) (e : EngIx) (a n : Nat) (flags : List Byte), u = s.at c.start → u.pio.pe.length = 8 →
    u.pio.initDir.length = 8 → u.pio.initVal.length = 8 → Ready u c 0x0710 →
    HoldsLease u c p (lPE e.val) → c.payload.length = 20 + 4 * n → c.payload.take 4 = [byte e.val, byte a, byte n] ++ flags →
    (flags = [0] ∨ flags = [1]) → a + n ≤ 64 → a < 64 → u16 c.payload 8 < 4096 → u8 c.payload 10 < 64 → u8 c.payload 11 = 0 →
    (flags = [1] → 1 ≤ u16 c.payload 4 ∧ u8 c.payload 7 ≤ 32 ∧ 1 ≤ u16 c.payload 16 ∧ u16 c.payload 16 ≤ 256 ∧ 1 ≤ u16 c.payload 18) →
    (u.pe e.val).st = .stopped → storeWf u.regs = true →
    ∃ s', exec (.loadPio c) s = .next (okWith s' c 0x0710 .fast []) ∧
      (∀ k : Nat, k < 64 → s'.reg (aPIO_IMEM e.val k) =
        if a ≤ k ∧ k < a + n then u32 c.payload (20 + 4 * (k - a)) else u.reg (aPIO_IMEM e.val k)) ∧
      (flags = [0] → s'.pio = u.pio ∧ peDepth s' e.val = peDepth u e.val) ∧
      (flags = [1] → peDepth s' e.val = u8 c.payload 7 ∧ s'.reg (aPIO_DIV e.val) = u16 c.payload 4 * 65536 + u8 c.payload 6 ∧
        s'.fld (aPIO_SER e.val) 11 0 = u16 c.payload 8 ∧ s'.fld (aPIO_SER e.val) 15 12 = u8 c.payload 10 % 16 ∧
        s'.reg (aPIO_TMO e.val) = u16 c.payload 14 ∧ s'.reg (aPIO_PKT e.val) = u16 c.payload 18 * 65536 + u16 c.payload 16 ∧
        s'.pio.initDir.getD e.val 0 = u8 c.payload 12 ∧ s'.pio.initVal.getD e.val 0 = u8 c.payload 13 ∧
        (u8 c.payload 7 ≠ peDepth u e.val → (s'.pe e.val).txq = [] ∧ (s'.pe e.val).rxq = []) ∧
        (u8 c.payload 7 = peDepth u e.val → s'.pe e.val = u.pe e.val))) ∧
  (∀ (s u : State) (c : Call) (p : PortIx) (m f : Nat) (pcs : List Byte), u = s.at c.start → u.pio.pe.length = 8 → Ready u c 0x0711 →
    c.src = .port p → m < 256 → f ≤ 1 → (∀ k : Nat, k < 8 → bit m k = true → HoldsLease u c p (lPE k) ∧ (u.pe k).st = .stopped) →
    c.payload = [byte m, byte f, 0, 0] ++ pcs → pcs.length = 8 → (∀ b ∈ pcs, b.toNat < 64) →
    ∃ s', exec (.startPio c) s = .next (okWith s' c 0x0711 .fast (leBytes 8 (u.dtime c.start))) ∧
      ∀ k : Nat, k < 8 → s'.pe k = if bit m k then { u.pe k with
        st := .running, fault := 0, pc := u8 pcs k, w0 := 0, w1 := 0, txr := 0, rxr := 0, tc := 0, rc := 0, stack := [], latch := 0
        dir := u.pio.initDir.getD k 0, lvl := u.pio.initVal.getD k 0, port := p, start := pioCycle c.start, ticks := 0, waitFrom := none }
      else u.pe k) ∧
  (∀ (s u : State) (c : Call) (m f : Nat), u = s.at c.start → u.pio.pe.length = 8 → Ready u c 0x0712 → m < 256 → f ≤ 1 →
    (∀ k : Nat, k < 8 → bit m k = true → ∃ p : PortIx, HoldsLease u c p (lPE k)) → c.payload = [byte m, byte f, 0, 0] →
    ∃ s' pl, exec (.stopPio c) s = .next (okWith s' c 0x0712 .fast pl) ∧ pl.length = 32 ∧
      (∀ k : Nat, k < 8 → bit m k = true → (s'.pe k).st = .stopped ∧ u8 pl (4 * k + 3) = (u.pe k).pc % 256 ∧
        (f = 0 → (s'.pe k).txq = (u.pe k).txq ∧ (s'.pe k).rxq = (u.pe k).rxq ∧ (s'.pe k).buf = (u.pe k).buf) ∧
        (f = 1 → (s'.pe k).txq = [] ∧ (s'.pe k).rxq = [] ∧ (s'.pe k).buf = [])) ∧
      ∀ k : Nat, k < 8 → bit m k = false → s'.pe k = u.pe k) ∧
  (∀ (s u : State) (c : Call) (p : PortIx) (e : EngIx) (f : Nat) (ws : List (BitVec 32)), u = s.at c.start → u.pio.pe.length = 8 →
    Ready u c 0x0713 → HoldsLease u c p (lPE e.val) → f ≤ 1 → 1 ≤ ws.length → ws.length ≤ 191 →
    c.payload = [byte e.val, byte f] ++ leBytes 2 ws.length ++ ws.flatMap (fun w => leBytes 4 w.toNat) → peDepth u e.val ≠ 0 →
    (f = 1 → ws.length ≤ peDepth u e.val - (u.pe e.val).txq.length) →
    ∃ s' pl, exec (.pioQueue c) s = .next (okWith s' c 0x0713 .fast pl) ∧
      (s'.pe e.val).txq = (u.pe e.val).txq ++ ws.take (peDepth u e.val - (u.pe e.val).txq.length) ∧
      u16 pl 0 = min ws.length (peDepth u e.val - (u.pe e.val).txq.length)) ∧
  (∀ (s u : State) (c : Call) (pins : List (Fin 64 × Byte × Byte)), u = s.at c.start → Ready u c 0x0714 → 1 ≤ pins.length →
    (pins.map (fun x => x.1)).Nodup → (∀ x ∈ pins, ∃ p : PortIx, HoldsLease u c p (lPE (x.1.val / 8))) →
    c.payload = [byte pins.length, 0, 0, 0] ++ pins.flatMap (fun x => [byte x.1.val, x.2.1, x.2.2, 0]) →
    (∀ x ∈ pins, bits x.2.1.toNat 5 4 ≠ 3 ∧ pinArgOk x.2.1.toNat x.2.2.toNat = true) →
    exec (.configPins c) s = .next (okWith (pins.foldl (fun v x => setPin v x.1.val x.2.1.toNat x.2.2.toNat) u) c 0x0714 .fast [])) ∧
  (∀ (s u : State) (t : Time) (e : EngIx) (x : BitVec 32 × Time × Nat) (r : List (BitVec 32 × Time × Nat)), u = s.at t → u.pio.pe.length = 8 →
    (u.pe e.val).rxq = x :: r → (u.pe e.val).buf.length < 256 → (u.pe e.val).movedAt ≠ some (pioCycle t) →
    ∃ s', exec (.rxqWordMove t e) s = .next s' ∧ (s'.pe e.val).rxq = r ∧ (s'.pe e.val).buf = (u.pe e.val).buf ++ [x.1] ∧
      (s'.pe e.val).bufAt = some ((u.pe e.val).bufAt.getD x.2.1) ∧
      (s'.pe e.val).bufD = (if (u.pe e.val).bufAt.isSome then (u.pe e.val).bufD else x.2.2)) ∧
  (∀ (s u : State) (t : Time) (e : EngIx), u = s.at t → u.pio.pe.length = 8 → u.ports.length = 4 → (u.pe e.val).buf ≠ [] →
    (u.fld (aPIO_PKT e.val) 8 0 ≤ (u.pe e.val).buf.length ∨ (u.pe e.val).flush = true) → pioCanLeave u e.val = true →
    ∃ s', exec (.piodataPacket t e) s = .next s' ∧ (s'.pe e.val).buf = [] ∧ (s'.pe e.val).flush = false ∧
      (s'.pe e.val).pkts = ((u.pe e.val).pkts + 1) % 2 ^ 32 ∧
      (u.portActive (u.pe e.val).port = true → (s'.pe e.val).ovf = false ∧
        (s'.port (u.pe e.val).port).vq = (u.port (u.pe e.val).port).vq ++ [⟨8, 0, pioPacket u e.val, 0, none, 0⟩]) ∧
      (u.portActive (u.pe e.val).port = false → (s'.pe e.val).ovf = true ∧ s'.ports = u.ports)) ∧
  (∀ (s u : State) (t b : Time) (e : EngIx), u = s.at t → u.pio.pe.length = 8 → u.ports.length = 4 → (u.pe e.val).buf ≠ [] →
    (u.pe e.val).bufAt = some b → b + u.fld (aPIO_PKT e.val) 31 16 * us ≤ t → pioCanLeave u e.val = true →
    ∃ s', exec (.pktUsExpiry t e) s = .next s' ∧ (s'.pe e.val).buf = [] ∧ (s'.pe e.val).pkts = ((u.pe e.val).pkts + 1) % 2 ^ 32 ∧
      (u.portActive (u.pe e.val).port = true → (s'.pe e.val).ovf = false ∧
        (s'.port (u.pe e.val).port).vq = (u.port (u.pe e.val).port).vq ++ [⟨8, 0, pioPacket u e.val, 0, none, 0⟩]) ∧
      (u.portActive (u.pe e.val).port = false → (s'.pe e.val).ovf = true ∧ s'.ports = u.ports))

/-! ## OTP and security (R454, R464 to R489) -/

/-- The OTP word code: the check bits of a word are the parities that its positions give, an encoded word decodes to its data, a word with any one
bit wrong is corrected, and one with any two bits wrong is refused (R454). -/
def Obligations.OtpWordCodeCorrectsOneBit : Prop :=
  dataPos = [3, 5, 6, 7] ++ (List.range 7).map (· + 9) ++ (List.range 15).map (· + 17) ++ (List.range 6).map (· + 33) ∧
  (∀ d : Nat, d < 2 ^ 32 → otpEncode d < 2 ^ 39 ∧ otpEncode d % 2 ^ 32 = d ∧ otpDecode (otpEncode d) = some (d, false)) ∧
  (∀ d j : Nat, d < 2 ^ 32 → j < 6 →
    bit (otpEncode d) (32 + j) = (dataPos.zipIdx.filter (fun x => bit x.1 j)).foldl (fun a x => xor a (bit d x.2)) false) ∧
  (∀ d : Nat, d < 2 ^ 32 → bit (otpEncode d) 38 = (List.range 38).foldl (fun a k => xor a (bit (otpEncode d) k)) false) ∧
  (∀ d p : Nat, d < 2 ^ 32 → p < 39 → otpDecode (Nat.xor (otpEncode d) (2 ^ p)) = some (d, true)) ∧
  (∀ d p q : Nat, d < 2 ^ 32 → p < q → q < 39 → otpDecode (Nat.xor (Nat.xor (otpEncode d) (2 ^ p)) (2 ^ q)) = none) ∧
  otpEncode 0 = 0 ∧ otpDecode 0 = some (0, false)

/-- AUTH_CHALLENGE issues a nonce for a slot or the vendor key, which expires after 1 s; AUTH_RESPONSE with the right CMAC authenticates the port
and with a wrong one counts a failure, and either uses the nonce up; SET_VIEW_AUTH sets a view's tag key from the command's stamp (R474, R477, R484,
R488). -/
def Obligations.AuthenticationUsesANonce : Prop :=
  (∀ (s u : State) (c : Call) (p : PortIx) (slot gen : Nat) (key : List Byte), u = s.at c.start → Ready u c 0x0900 → c.src = .port p →
    c.payload = [byte slot, 0, 0, 0] → (slot ≤ 3 ∨ slot = 0xFF) → keyShut u slot = false → keyOf u slot = some (key, gen) →
    u.sec.nonces.length = 4 →
    ∃ s' pl, exec (.authChallenge c) s = .next (okWith s' c 0x0900 .fast pl) ∧ Keeps [.sec] u s' ∧ s'.sec.nonceNo = u.sec.nonceNo + 1 ∧
      s'.sec.nonces.getD p.val none = some ⟨slot, leBytes 16 (Config.nonce u.sec.nonceNo).toNat, c.start⟩ ∧ s'.sec.auth = u.sec.auth ∧
      pl.take 16 = leBytes 16 (Config.nonce u.sec.nonceNo).toNat ∧ pl.drop 16 = u.sec.uid ++ [byte slot, byte gen, byte p.val] ++ zeros 5) ∧
  (∀ (s u : State) (c : Call) (p : PortIx) (slot gen : Nat) (key : List Byte) (n : Nonce), u = s.at c.start → Ready u c 0x0901 → c.src = .port p →
    c.payload = [byte slot, 0, 0, 0] ++ cmac key (authMsg u n.bytes p.val slot gen 1) → (cmac key (authMsg u n.bytes p.val slot gen 1)).length = 16 →
    slot ≤ 3 → keyShut u slot = false → keyOf u slot = some (key, gen) → liveNonce u p slot c.start = some n →
    (∀ a : Time, u.sec.failAt.getD p.val none = some a → a + 100 * ms ≤ c.start) → u.sec.nonces.length = 4 → u.sec.auth.length = 4 →
    ∃ s' pl, exec (.authResponse c) s = .next (okWith s' c 0x0901 .fast pl) ∧ s'.sec.auth.getD p.val none = some (slot, gen) ∧
      s'.sec.nonces.getD p.val none = none ∧ s'.sec.authFails = 0 ∧
      pl.drop 4 = cmac key (authMsg u n.bytes p.val slot gen 2)) ∧
  (∀ (s u : State) (c : Call) (p : PortIx) (slot gen : Nat) (key : List Byte) (n : Nonce), u = s.at c.start → Ready u c 0x0901 → c.src = .port p →
    c.payload.length = 20 → u8 c.payload 0 = slot → reserved c.payload 1 3 = none →
    cmac key (authMsg u n.bytes p.val slot gen 1) ≠ slice c.payload 4 16 → slot ≤ 3 → keyShut u slot = false →
    keyOf u slot = some (key, gen) → liveNonce u p slot c.start = some n →
    (∀ a : Time, u.sec.failAt.getD p.val none = some a → a + 100 * ms ≤ c.start) → u.sec.nonces.length = 4 →
    u.sec.failAt.length = 4 →
    ∃ s', exec (.authResponse c) s = .next (respond s' c 0x0901 .fast .authFailed 0 []) ∧
      s'.sec.nonces.getD p.val none = none ∧ s'.sec.failAt.getD p.val none = some c.start ∧
      s'.sec.authFails = (if 16 ≤ u.sec.authFails then 1 else u.sec.authFails + 1) ∧
      (u.sec.authFails ≠ 15 → Keeps [.sec] u s' ∧ s'.sec.auth = u.sec.auth) ∧
      (u.sec.authFails = 15 → bit s'.sec.fired 6 = true)) ∧
  (∀ (s u : State) (t : Time) (p : PortIx) (n : Nonce), u = s.at t → u.sec.nonces.getD p.val none = some n → n.issued + sec ≤ t →
    exec (.nonceExpiry t p) s = .next { u with sec := { u.sec with nonces := modAt u.sec.nonces p.val (fun _ => none) } }) ∧
  (∀ (s u : State) (c : Call) (p : PortIx) (v : ViewIx) (slot gen en : Nat) (key : List Byte) (tk : Option (List Byte)), u = s.at c.start →
    Ready u c 0x0902 → c.src = .port p → c.payload = [byte v.val, byte en, byte slot, 0] → en ≤ 1 → slot ≤ 3 → (u.view v.val).st ≠ .free →
    (u.view v.val).owner = p → keyShut u slot = false → portAuth u p = some (slot, gen) → keyOf u slot = some (key, gen) →
    tk = (if en = 1 then some (tagKey u key v.val slot gen) else none) →
    exec (.setViewAuth c) s = .next (okWith (tagView u v.val c.stamp tk) c 0x0902 .fast []) ∧
    (u.pipe.frames.filter (takesSoft c.stamp v.val) = [] →
      tagView u v.val c.stamp tk = u.modView v.val (fun w => { w with tagPend := some (c.stamp, tk) })))

/-- OTP_READ shows accepted words; OTP_PROGRAM of each kind, OTP_LOCK_REGION and LIFECYCLE queue their words where their conditions hold, a wrapped
key that does not unwrap and a wrong vendor CMAC complete with AUTH_FAILED, and a lock whose CRC does not match or that stands and a move that is
not ready complete without a change of the OTP; the rollback steps are queued from the blank ones (R464 to R473, R475, R476, R485 to R487). A word's
programming stores the bits that read at each margin, and `OTPC_PROG` shows its address; a supply failure that waited for the word then begins its
Dusk at its own D (R228, R459, R465). -/
def Obligations.OtpWordsAreQueuedAndStored : Prop :=
  (∀ (s u : State) (c : Call) (a n : Nat), u = s.at c.start → Ready u c 0x0910 → c.payload = leBytes 2 a ++ leBytes 2 n → 1 ≤ n → n ≤ 144 →
    a + n ≤ 0x4000 → (0x0840 ≤ a ∨ a + n ≤ 0x0200) →
    ∃ pl, exec (.otpRead c) s = .next (okWith u c 0x0910 .fast pl) ∧ u16 pl 0 = a ∧ u16 pl 2 = n ∧
      ∀ k : Nat, k < n → u32 pl (8 + 4 * k) = (otpShown u (a + k)).getD 0 % 2 ^ 32) ∧
  (∀ (s u : State) (c : Call) (a n : Nat), u = s.at c.start → Ready u c 0x0910 → c.payload = leBytes 2 a ++ leBytes 2 n → 1 ≤ n → n ≤ 144 →
    a < 0x0840 → 0x0200 < a + n → exec (.otpRead c) s = .next (respond u c 0x0910 .fast .denied 0 [])) ∧
  (∀ (s u : State) (c : Call) (a n r k : Nat), u = s.at c.start → ProgramReady u c → u8 c.payload 0 = 0 → a = u16 c.payload 4 →
    n = u16 c.payload 6 → regionOf a = some (r, k, false) →
    ∃ s', exec (.otpProgram c) s = .next s' ∧ s'.otp.cells = u.otp.cells ∧
      s'.otp.jobs = [⟨.cmd c.src 0x0911 c.tag, bothCopies r ((payloadWords c n).zipIdx.map (fun x => (a + x.2, x.1))), 0⟩] ∧
      s'.slow = u.slow ++ [⟨c.src, 0x0911, c.tag, c.stamp + 100 * ms, 0, some (c.stamp + 100 * ms)⟩]) ∧
  (∀ (s u : State) (c : Call) (slot i : Nat), u = s.at c.start → ProgramReady u c → u8 c.payload 0 = 1 → slot = u8 c.payload 1 →
    u8 c.payload 3 = 0 → freePlace 8 (fun i => groupUsed u 3 (288 + 128 * slot + 16 * i) 16) = some i →
    ∃ s', exec (.otpProgram c) s = .next s' ∧ s'.otp.cells = u.otp.cells ∧
      s'.otp.jobs = [⟨.cmd c.src 0x0911 c.tag, keyWords slot i (u8 c.payload 2) (slice c.payload 8 32), 0⟩] ∧
      s'.slow = u.slow ++ [⟨c.src, 0x0911, c.tag, c.stamp + 50 * ms, 0, some (c.stamp + 50 * ms)⟩]) ∧
  (∀ (s u : State) (c : Call) (slot i gen : Nat) (r : Role) (k : List Byte), u = s.at c.start → ProgramReady u c → u8 c.payload 0 = 1 →
    slot = u8 c.payload 1 → u8 c.payload 3 = 1 → freePlace 8 (fun i => groupUsed u 3 (288 + 128 * slot + 16 * i) 16) = some i →
    slotInst u slot = some (gen, r, k) →
    (∀ key : List Byte, keyUnwrap k (slice c.payload 8 40) = some key → ∃ s', exec (.otpProgram c) s = .next s' ∧ s'.otp.cells = u.otp.cells ∧
      s'.otp.jobs = [⟨.cmd c.src 0x0911 c.tag, keyWords slot i r.code key, 0⟩]) ∧
    (keyUnwrap k (slice c.payload 8 40) = none →
      ∃ s', exec (.otpProgram c) s = .next s' ∧ s'.otp = u.otp ∧ s'.slow = u.slow)) ∧
  (∀ (s u : State) (c : Call) (slot i : Nat), u = s.at c.start → ProgramReady u c → u8 c.payload 0 = 2 → slot = u8 c.payload 1 →
    freePlace 4 (fun i => groupUsed u 2 (16 + 16 * slot + 4 * i) 4) = some i →
    ∃ s', exec (.otpProgram c) s = .next s' ∧ s'.otp.cells = u.otp.cells ∧
      s'.otp.jobs = [⟨.cmd c.src 0x0911 c.tag, bothCopies 2 (instanceWords (0x0080 + 16 + 16 * slot + 4 * i)
        [0x50000000 + 256 * slot + i, u32 c.payload 8, 0]), 0⟩]) ∧
  (∀ (s u : State) (c : Call), u = s.at c.start → ProgramReady u c → u8 c.payload 0 = 3 →
    ∃ s' ws, exec (.otpProgram c) s = .next s' ∧ s'.otp.cells = u.otp.cells ∧ s'.otp.jobs = [⟨.cmd c.src 0x0911 c.tag, ws, 0⟩] ∧
      ws.length = 2 * 266 ∧ s'.slow = u.slow ++ [⟨c.src, 0x0911, c.tag, c.stamp + 250 * ms, 0, some (c.stamp + 250 * ms)⟩]) ∧
  (∀ (s u : State) (c : Call) (r : Nat) (good : Bool), u = s.at c.start → ReadySlow u c 0x0912 → c.payload = [byte r, 0, 0, 0] →
    r ≤ 8 → r ≠ 1 → lockAllowed u c r = true → u.sec.lockStands = false → mayStart u = none →
    good = (strictCrcOk u (regionSpan r).1 r && (match (regionSpan r).2.2 with | some b => strictCrcOk u b r | none => true)) →
    ∃ s', exec (.otpLockRegion c) s = .next s' ∧ s'.otp.cells = u.otp.cells ∧
      (regionLocked u.otp.cells r = false → good = true →
        s'.otp.jobs = [⟨.cmd c.src 0x0912 c.tag, [(lockAddr r, 0x4C4B0000 + r)], 0⟩] ∧
        s'.slow = u.slow ++ [⟨c.src, 0x0912, c.tag, c.stamp + 50 * ms, 0, some (c.stamp + 50 * ms)⟩]) ∧
      ((regionLocked u.otp.cells r = true ∨ good = false) → s'.otp = u.otp ∧ s'.slow = u.slow)) ∧
  (∀ (s u : State) (c : Call) (p : PortIx) (target : Nat), u = s.at c.start → ReadySlow u c 0x0913 → c.src = .port p →
    c.payload = byte target :: zeros 19 → target = u.sec.life.code + 1 → 1 ≤ target → target ≤ 3 → moveAllowed u c target = true →
    u.sec.lockStands = false → mayStart u = none → blankWord u (0x0040 + target) = true → (target = 2 → provisionReady u = true) →
    ∃ s', exec (.lifecycle c) s = .next s' ∧ s'.sec.life = u.sec.life ∧ s'.otp.cells = u.otp.cells ∧
      s'.otp.jobs = [⟨.cmd (.port p) 0x0913 c.tag, markWords target, 0⟩]) ∧
  (∀ (s u : State) (c : Call) (p : PortIx), u = s.at c.start → ReadySlow u c 0x0913 → c.src = .port p → c.payload = 2 :: zeros 19 →
    u.sec.life = .manufacture → moveAllowed u c 2 = true → u.sec.lockStands = false → mayStart u = none → blankWord u 0x0042 = true →
    provisionReady u = false →
    ∃ s', exec (.lifecycle c) s = .next s' ∧ s'.otp = u.otp ∧ s'.sec.life = u.sec.life ∧ s'.slow = u.slow) ∧
  (∀ (s u : State) (c : Call) (p : PortIx) (mac key : List Byte) (n : Nonce), u = s.at c.start → ReadySlow u c 0x0913 → c.src = .port p →
    c.payload = [4, 0, 0, 0] ++ mac → mac.length = 16 → u.sec.life = .field → moveAllowed u c 4 = true → u.sec.lockStands = false →
    mayStart u = none → blankWord u 0x0044 = true → liveNonce u p 0xFF c.start = some n → u.sec.vendor = some key → u.sec.nonces.length = 4 →
    ∃ s', exec (.lifecycle c) s = .next s' ∧ s'.sec.life = u.sec.life ∧ s'.otp.cells = u.otp.cells ∧ s'.sec.nonces.getD p.val none = none ∧
      (cmac key (authMsg u n.bytes p.val 0xFF 0 3) = mac → s'.sec.authFails = 0 ∧
        s'.otp.jobs = [⟨.killReturn (.port p) c.tag, (if u.sec.killed then [] else [(killAddr, 0)]) ++ markWords 4, 0⟩]) ∧
      (cmac key (authMsg u n.bytes p.val 0xFF 0 3) ≠ mac → u.sec.authFails ≠ 15 → s'.otp = u.otp ∧ s'.slow = u.slow ∧
        s'.sec.authFails = (if 16 ≤ u.sec.authFails then 1 else u.sec.authFails + 1))) ∧
  (∀ (s u : State) (t : Time), u = s.at t → u.sec.rollback < u.sec.stepsTo → otpWindow u = true →
    (∀ j ∈ u.otp.jobs, j.what ≠ .rollback) →
    ∃ s' ws, exec (.rollbackStepWrite t) s = .next s' ∧ ⟨.rollback, ws, 0⟩ ∈ s'.otp.jobs ∧ (∀ j ∈ u.otp.jobs, j ∈ s'.otp.jobs) ∧
      s'.otp.cells = u.otp.cells ∧ ws.length ≤ u.sec.stepsTo - u.sec.rollback ∧
      ∀ w ∈ ws, ∃ n : Nat, 1 ≤ n ∧ n ≤ 64 ∧ w = (0x0841 + n, 0x53560000 + n) ∧ programmed u.otp.cells (0x0841 + n) = false) ∧
  (∀ (s u : State) (t : Time) (norm strict : BitVec 39) (what : OtpWhat) (a d w : Nat) (ws : List (Nat × Nat)) (rest : List OtpJob),
    u = s.at t → u.otp.jobs = ⟨what, (a, d) :: ws, w⟩ :: rest → u.pw.refLost = false → u.otp.stopDusk = none →
    u.pw.st ≠ .off → u.pw.st ≠ .dusk → u.pw.st ≠ .buoy →
    ∃ s', exec (.otpWordProgrammed t norm strict) s = .next s' ∧ s'.otp.lastAddr = a ∧
      s'.otp.cells = putCell u.otp.cells a (Nat.lor norm.toNat strict.toNat) strict.toNat) ∧
  (∀ (s u : State) (t d : Time) (norm strict : BitVec 39) (vio vcore : Bool) (uj : Nat), u = s.at t → s.clk.now ≤ t → u.otp.jobs ≠ [] → u.pw.refLost = false →
    u.otp.stopDusk = some (d, vio, vcore, uj) → t < d + 10 * ms → (u.pw.st = .standby ∨ u.pw.st = .active) → inDawn u d = false →
    duskOk (wordDone u norm.toNat strict.toNat t) = true →
    ∃ s', exec (.otpWordProgrammed t norm strict) s = .next s' ∧ s'.otp.stopDusk = none ∧ s'.pw.st = .dusk ∧ s'.hold.buoyFrom = d + 10 * ms)

/-- FW_LOAD begins a load, takes its bytes, ends one with a good image in a handover and one that is not whole, not signed or rolled back without
effect, and aborts one; a load without a command for 10 s ends; the handover makes the image the running one. An alarm source acts by its policy,
only counts once it has fired, is latched in BUOY, and a sound mesh fires nothing (R403, R479 to R483, R489). -/
def Obligations.FirmwareAndAlarmsAct : Prop :=
  (∀ (s u : State) (c : Call) (f : Nat), u = s.at c.start → ReadySlow u c 0x0920 → c.payload.length = 136 → f ≤ 1 →
    c.payload.take 4 = [0, byte f, 0, 0] → headerOk (c.payload.drop 8) = true → loadAllowed u c = true → u.sec.lockStands = false →
    (u.pw.st = .standby ∨ u.pw.st = .active) → (∀ l : FwLoad, loadNow u c.start = some l → l.src = c.src) →
    ∃ s', exec (.fwLoad c) s = .next s' ∧ s'.sec.load = some ⟨c.src, slice c.payload 8 128, [], u32 c.payload 20, decide (f = 1), c.start⟩ ∧
      s'.sec.handover = none ∧ s'.slow = u.slow) ∧
  (∀ (s u : State) (c : Call) (l : FwLoad) (off : Nat) (data : List Byte), u = s.at c.start → ReadySlow u c 0x0920 →
    c.payload = [1, 0, 0, 0] ++ leBytes 4 off ++ data → 16 ≤ data.length → data.length ≤ 752 → data.length % 16 = 0 → off < 2 ^ 32 →
    off + data.length ≤ l.length → loadAllowed u c = true → u.sec.lockStands = false → (u.pw.st = .standby ∨ u.pw.st = .active) →
    loadNow u c.start = some l → l.src = c.src →
    ∃ s', exec (.fwLoad c) s = .next s' ∧ s'.sec.load = some { l with have_ := l.have_ ++ [(off, data)], last := c.start } ∧
      s'.sec.handover = none ∧ s'.slow = u.slow) ∧
  (∀ (s u : State) (c : Call) (l : FwLoad), u = s.at c.start → ReadySlow u c 0x0920 →
    c.payload = [2, 0, 0, 0, 0, 0, 0, 0] → loadAllowed u c = true → u.sec.lockStands = false → (u.pw.st = .standby ∨ u.pw.st = .active) →
    loadNow u c.start = some l → l.src = c.src →
    ∃ s', exec (.fwLoad c) s = .next s' ∧ s'.sec.load = none ∧ s'.sec.handover =
      (if loadWhole l = true ∧ imageSigned l.header (imageBody l) = true ∧ u.sec.rollback ≤ u8 l.header 8 then
        some ⟨c.src, c.tag, u32 l.header 4, u8 l.header 8, l.advance, c.start, l.header ++ imageBody l⟩ else none)) ∧
  (∀ (s u : State) (c : Call) (l : FwLoad), u = s.at c.start → ReadySlow u c 0x0920 →
    c.payload = [3, 0, 0, 0, 0, 0, 0, 0] → loadAllowed u c = true → u.sec.lockStands = false → (u.pw.st = .standby ∨ u.pw.st = .active) →
    loadNow u c.start = some l → l.src = c.src →
    ∃ s', exec (.fwLoad c) s = .next s' ∧ s'.sec.load = none ∧ s'.sec.handover = none ∧ s'.slow = u.slow) ∧
  (∀ (s u : State) (t : Time) (l : FwLoad), u = s.at t → u.sec.load = some l → l.last + 10 * sec ≤ t →
    exec (.fwLoadTimeout t) s = .next { u with sec := { u.sec with load := none } }) ∧
  (∀ (s u : State) (t : Time) (h : Handover), u = s.at t → u.sec.handover = some h →
    ∃ s', exec (.fwHandover t) s = .next s' ∧ s'.sec.handover = none ∧ s'.sec.fwVer = h.ver ∧ s'.sec.fwSvn = h.svn ∧ s'.sec.fwSrc = 2 ∧
      s'.sec.fwImage = h.image ∧ s'.sec.life = u.sec.life ∧ s'.sec.auth = u.sec.auth ∧ s'.arr.active = u.arr.active) ∧
  (∀ (s u : State) (t : Time) (b : Nat) (i : Instr), u = s.at t → (i, b) ∈ [(Instr.encNAlarm t, 0), (.shieldCheck t true, 1), (.vglitch t, 2)] →
    u.pw.st ≠ .off → u.pw.st ≠ .buoy → bit u.sec.fired b = false →
    ∃ s', exec i s = .next s' ∧ bit s'.sec.fired b = true ∧
      (alarmAction u b = 0 → s'.sec.lockStands = u.sec.lockStands ∧ s'.sec.auth = u.sec.auth) ∧
      (alarmAction u b ≠ 0 → s'.sec.lockStands = true ∧ ∀ p : PortIx, s'.sec.auth.getD p.val none = none) ∧
      (alarmAction u b = 2 → u.sec.killed = false → killJob ∈ s'.otp.jobs) ∧
      (u.log.entries.length < 64 → ∃ f ∈ s'.log.entries, f.code = fALARM ∧ f.inst = b)) ∧
  (∀ (s u : State) (t : Time) (b : Nat) (i : Instr), u = s.at t → (i, b) ∈ [(Instr.encNAlarm t, 0), (.shieldCheck t true, 1), (.vglitch t, 2)] →
    u.pw.st ≠ .off → u.pw.st ≠ .buoy → bit u.sec.fired b = true → ∃ s', exec i s = .next s' ∧ s'.sec = u.sec ∧ s'.otp = u.otp) ∧
  (∀ (s u : State) (t : Time), u = s.at t → exec (.shieldCheck t false) s = .next u) ∧
  (∀ (s u : State) (t : Time), u = s.at t → u.pw.st = .off →
    exec (.encNAlarm t) s = .next u ∧ exec (.shieldCheck t true) s = .next u ∧ exec (.vglitch t) s = .next u) ∧
  (∀ (s u : State) (t : Time) (b : Nat) (i : Instr), u = s.at t → (i, b) ∈ [(Instr.encNAlarm t, 0), (.shieldCheck t true, 1)] → u.pw.st = .buoy →
    ((∀ x ∈ u.sec.buoyLatch, x.1 ≠ b) →
      exec i s = .next { u with sec := { u.sec with buoyLatch := u.sec.buoyLatch ++ [(b, alarmAction u b)] } }) ∧
    ((∃ x ∈ u.sec.buoyLatch, x.1 = b) → exec i s = .next u) ∧
    exec (.vglitch t) s = .next u)

/-! ## Every step -/

/-- A step keeps frame memory in its canonical form: addresses strictly rising and inside the 15 GiB, no byte that an unlisted address reads as. -/
def Obligations.EveryStepKeepsMemoryCanonical : Prop :=
  ∀ s s' : State, Memory.wf s.fm = true → step s = .next s' → Memory.wf s'.fm = true

/-- A step keeps the register store in its one form: addresses strictly rising, no value that an unlisted address reads as. -/
def Obligations.EveryStepKeepsTheRegisterStore : Prop :=
  ∀ s s' : State, storeWf s.regs = true → step s = .next s' → storeWf s'.regs = true

/-- A step keeps the number of ports, leases, inputs, PLLs, views, timers, engines, tiles, ring segments and sensors, and the log within 64 entries. -/
def Obligations.EveryStepKeepsTheShape : Prop :=
  ∀ s s' : State, shapeWf s = true → step s = .next s' → shapeWf s' = true

/-- Right after reset the three invariants hold, no command waits, the device is in BOOT, its ports are in QUIET and its leases free, every register
reads its reset value, the fault log is empty, and no byte of frame memory is stored (R268, R349, R381, R396). -/
def Obligations.ResetStateIsTheBootState : Prop :=
  Memory.wf State.reset.fm = true ∧ storeWf State.reset.regs = true ∧ shapeWf State.reset = true ∧ State.reset.pending = [] ∧
  State.reset.pw.st = .boot ∧ (∀ p : PortIx, (State.reset.port p).tr.st = .quiet) ∧ (∀ b : Nat, (State.reset.lease b).holder = none) ∧
  (∀ a : Nat, State.reset.reg a = regReset a) ∧ State.reset.log.entries = [] ∧ State.reset.fm = []

/-- A control, power or mailbox command changes no part of the state but those that Safety's `touches` lists for it, beside what the passing of time
up to its instant does (`State.at`). -/
def Obligations.ControlCommandsKeepTheRest : Prop :=
  ∀ (i : Instr) (s s' : State), (family i = .control ∨ family i = .power ∨ family i = .mailbox) → exec i s = .next s' →
    Keeps (touches i) (s.at i.time) s'

/-- An array, view or aux command changes no part of the state but those that `touches` lists for it, beside what the passing of time up to its
instant does (`State.at`). -/
def Obligations.ImagingCommandsKeepTheRest : Prop :=
  ∀ (i : Instr) (s s' : State), (family i = .array ∨ family i = .view ∨ family i = .aux) → exec i s = .next s' →
    Keeps (touches i) (s.at i.time) s'

/-- A memory, retention or link command changes no part of the state but those that `touches` lists for it, beside what the passing of time up to
its instant does (`State.at`). -/
def Obligations.MemoryAndLinkCommandsKeepTheRest : Prop :=
  ∀ (i : Instr) (s s' : State), (family i = .memory ∨ family i = .retention ∨ family i = .link) → exec i s = .next s' →
    Keeps (touches i) (s.at i.time) s'

/-- A thermal, timer, PIO or security command changes no part of the state but those that `touches` lists for it, beside what the passing of time up
to its instant does (`State.at`). -/
def Obligations.ThermalTimerPioSecurityCommandsKeepTheRest : Prop :=
  ∀ (i : Instr) (s s' : State), (family i = .thermal ∨ family i = .timer ∨ family i = .pio ∨ family i = .security) → exec i s = .next s' →
    Keeps (touches i) (s.at i.time) s'
end

