-- ==== Sys2Proof/Laws/Lists.lean ====
section
/-! SUPPORT. Lemmas about the list helpers and the register store. -/

namespace Sys2Proof.Machine

@[simp] theorem modAt_length {α : Type} (l : List α) (i : Nat) (f : α → α) : (modAt l i f).length = l.length := by
  induction l generalizing i with
  | nil => rfl
  | cons a r ih => cases i with
    | zero => rfl
    | succ i => simp [modAt, ih]

theorem modAt_getD_self {α : Type} (l : List α) (i : Nat) (f : α → α) (d : α) (h : i < l.length) :
    (modAt l i f).getD i d = f (l.getD i d) := by
  induction l generalizing i with
  | nil => simp at h
  | cons a r ih => cases i with
    | zero => simp [modAt]
    | succ i =>
      have h' : i < r.length := by simpa using h
      simpa [modAt] using ih i h'

theorem modAt_getD_other {α : Type} (l : List α) (i j : Nat) (f : α → α) (d : α) (h : i ≠ j) :
    (modAt l i f).getD j d = l.getD j d := by
  induction l generalizing i j with
  | nil => rfl
  | cons a r ih => cases i with
    | zero => cases j with
      | zero => exact absurd rfl h
      | succ j => simp [modAt]
    | succ i => cases j with
      | zero => simp [modAt]
      | succ j => simpa [modAt] using ih i j (by omega)

/-- What a store reads after a write: the value put there, which may be the one an unlisted address reads as. -/
theorem storeGet_storePut_self (l : List (Nat × Nat)) (a v d : Nat) (h : l.Pairwise (fun x y => x.1 < y.1)) :
    (storeGet (storePut l a v d) a).getD d = v := by
  induction l with
  | nil => unfold storePut; split <;> simp_all [storeGet]
  | cons x r ih =>
    obtain ⟨k, w⟩ := x
    have hr := (List.pairwise_cons.mp h).2
    have hk := (List.pairwise_cons.mp h).1
    unfold storePut
    split
    · rename_i e
      subst e
      split
      · rename_i e2
        cases r with
        | nil => simp [storeGet, e2]
        | cons y r' =>
          have := hk y (by simp)
          simp only [storeGet]
          rw [if_neg (by simp at this; omega), if_pos (by simpa using this)]
          simp [e2]
      · simp [storeGet]
    · split
      · split <;> simp_all [storeGet]
      · simp only [storeGet]
        rw [if_neg (by omega), if_neg (by omega)]
        exact ih hr

/-- A write to a store leaves every other address as it reads. -/
theorem storeGet_storePut_other (l : List (Nat × Nat)) (a b v d : Nat) (h : l.Pairwise (fun x y => x.1 < y.1)) (hne : b ≠ a) :
    storeGet (storePut l a v d) b = storeGet l b := by
  induction l with
  | nil =>
    unfold storePut
    split
    · rfl
    · simp only [storeGet]; rw [if_neg (Ne.symm hne)]; split <;> rfl
  | cons x r ih =>
    obtain ⟨k, w⟩ := x
    have hr := (List.pairwise_cons.mp h).2
    have hk := (List.pairwise_cons.mp h).1
    have hlt : ∀ y ∈ r, k < y.1 := fun y hy => hk y hy
    have low : ∀ (m : List (Nat × Nat)), (∀ y ∈ m, k < y.1) → b < k → storeGet m b = none := by
      intro m hm hb
      cases m with
      | nil => rfl
      | cons y m' =>
        have := hm y (by simp)
        simp only [storeGet]; rw [if_neg (by omega), if_pos (by omega)]
    unfold storePut
    split
    · rename_i e
      subst e
      split
      · simp only [storeGet]
        rw [if_neg (Ne.symm hne)]
        split
        · rename_i hb; exact low r hlt hb
        · rfl
      · simp only [storeGet]
        rw [if_neg (Ne.symm hne), if_neg (Ne.symm hne)]
    · split
      · split
        · rfl
        · simp only [storeGet]
          rw [if_neg (Ne.symm hne)]
          split
          · rename_i hb; rw [if_neg (by omega), if_pos (by omega)]
          · rfl
      · simp only [storeGet]
        split
        · rfl
        · split
          · rfl
          · exact ih hr

end Sys2Proof.Machine
end

