-- ==== Sys2Proof/Laws/Memory.lean ====
section
/-! SUPPORT. Frame memory: its operations keep the canonical form, a read after a write gives the value written, and a write leaves every other byte
alone. -/

namespace Sys2Proof.Machine

/-! ## The canonical form -/

/-- The canonical form, said of the list as a whole. -/
theorem wf_iff (l : List Host.Cell) :
    Memory.wf l = true ↔ l.Pairwise (fun x y => x.1 < y.1) ∧ ∀ c ∈ l, c.1 < fmSize ∧ c.2 ≠ 0 := by
  induction l with
  | nil => simp [Memory.wf]
  | cons c r ih =>
    cases r with
    | nil => simp [Memory.wf]
    | cons d r =>
      simp only [Memory.wf, Bool.and_eq_true, decide_eq_true_eq, ih]
      constructor
      · rintro ⟨⟨⟨h1, h2⟩, h3⟩, hp, ha⟩
        refine ⟨List.pairwise_cons.2 ⟨fun x hx => ?_, hp⟩, ?_⟩
        · rcases List.mem_cons.1 hx with rfl | hx
          · exact h1
          · exact Nat.lt_trans h1 ((List.pairwise_cons.1 hp).1 x hx)
        · intro x hx
          rcases List.mem_cons.1 hx with rfl | hx
          · exact ⟨h2, h3⟩
          · exact ha x hx
      · rintro ⟨hp, ha⟩
        have hp' := List.pairwise_cons.1 hp
        exact ⟨⟨⟨hp'.1 d (List.mem_cons_self ..), (ha c (List.mem_cons_self ..)).1⟩, (ha c (List.mem_cons_self ..)).2⟩, hp'.2,
          fun x hx => ha x (List.mem_cons_of_mem _ hx)⟩

/-- The cells of bytes from an address on lie in their range, inside the memory, and hold no zero byte. -/
theorem mem_cellsOf {a : Nat} {bs : List Byte} {c : Host.Cell} (h : c ∈ cellsOf a bs) :
    a ≤ c.1 ∧ c.1 < a + bs.length ∧ c.1 < fmSize ∧ c.2 ≠ 0 := by
  induction bs generalizing a with
  | nil => cases h
  | cons b r ih =>
    rw [cellsOf] at h
    split at h
    · rename_i hb
      rcases List.mem_cons.1 h with rfl | h
      · exact ⟨Nat.le_refl _, by simp, hb.2, hb.1⟩
      · obtain ⟨h1, h2, h3⟩ := ih h
        exact ⟨by omega, by rw [List.length_cons]; omega, h3⟩
    · obtain ⟨h1, h2, h3⟩ := ih h
      exact ⟨by omega, by rw [List.length_cons]; omega, h3⟩

theorem pairwise_cellsOf (a : Nat) (bs : List Byte) : (cellsOf a bs).Pairwise (fun x y => x.1 < y.1) := by
  induction bs generalizing a with
  | nil => exact List.Pairwise.nil
  | cons b r ih =>
    rw [cellsOf]
    split
    · exact List.pairwise_cons.2 ⟨fun x hx => (mem_cellsOf hx).1, ih _⟩
    · exact ih _

theorem cellsOf_wf (a : Nat) (bs : List Byte) : Memory.wf (cellsOf a bs) = true :=
  (wf_iff _).2 ⟨pairwise_cellsOf a bs, fun _ h => (mem_cellsOf h).2.2⟩

/-- Replacing a range by cells in canonical form that lie in it keeps the canonical form. -/
theorem cellsPut_wf {l new : List Host.Cell} {a n : Nat} (hl : Memory.wf l = true) (hn : Memory.wf new = true)
    (hr : ∀ c ∈ new, a ≤ c.1 ∧ c.1 < a + n) : Memory.wf (cellsPut l a n new) = true := by
  rw [wf_iff] at hl hn ⊢
  obtain ⟨hp, ha⟩ := hl
  refine ⟨?_, ?_⟩
  · rw [cellsPut, List.pairwise_append, List.pairwise_append]
    refine ⟨⟨hp.filter _, hn.1, ?_⟩, hp.filter _, ?_⟩
    · intro x hx y hy
      have h1 := of_decide_eq_true (List.mem_filter.1 hx).2
      have h2 := hr y hy
      omega
    · intro x hx y hy
      have h2 := of_decide_eq_true (List.mem_filter.1 hy).2
      rcases List.mem_append.1 hx with hx | hx
      · have h1 := of_decide_eq_true (List.mem_filter.1 hx).2
        omega
      · have h1 := hr x hx
        omega
  · intro c hc
    rw [cellsPut, List.mem_append, List.mem_append] at hc
    rcases hc with (hc | hc) | hc
    · exact ha c (List.mem_filter.1 hc).1
    · exact hn.2 c hc
    · exact ha c (List.mem_filter.1 hc).1

/-- A store keeps the canonical form. -/
theorem fmWrite_wf {s : State} (a : Nat) (bs : List Byte) (h : Memory.wf s.fm = true) : Memory.wf (fmWrite s a bs).fm = true :=
  cellsPut_wf h (cellsOf_wf a bs) (fun _ hc => ⟨(mem_cellsOf hc).1, (mem_cellsOf hc).2.1⟩)

/-- A range whose contents become undefined keeps the canonical form. -/
theorem fmForget_wf {s : State} (a n : Nat) (h : Memory.wf s.fm = true) : Memory.wf (fmForget s a n).fm = true :=
  cellsPut_wf h rfl (fun _ hc => nomatch hc)

theorem takeRegion_wf {s : State} (b n : Nat) (h : Memory.wf s.fm = true) : Memory.wf (takeRegion s b n).fm = true :=
  fmForget_wf (b * mib) (n * mib) h

@[simp] theorem freeRegion_fm (s : State) (r : Nat × Nat) : (freeRegion s r).fm = s.fm := rfl

/-! ## Reading what was written -/

theorem cellGet_append (l r : List Host.Cell) (a : Nat) :
    cellGet (l ++ r) a = match cellGet l a with | some b => some b | none => cellGet r a := by
  induction l with
  | nil => rfl
  | cons c l ih =>
    simp only [List.cons_append, cellGet]
    split
    · rfl
    · exact ih

theorem cellGet_eq_none {l : List Host.Cell} {a : Nat} (h : ∀ c ∈ l, c.1 ≠ a) : cellGet l a = none := by
  induction l with
  | nil => rfl
  | cons c l ih =>
    simp only [cellGet]
    rw [if_neg (h c (List.mem_cons_self ..))]
    exact ih (fun x hx => h x (List.mem_cons_of_mem _ hx))

/-- A filter on addresses that keeps an address keeps its byte. -/
theorem cellGet_filter {l : List Host.Cell} {a : Nat} {p : Nat → Bool} (h : p a = true) : cellGet (l.filter (fun c => p c.1)) a = cellGet l a := by
  induction l with
  | nil => rfl
  | cons c l ih =>
    rw [List.filter_cons]
    split
    · simp only [cellGet, ih]
    · rename_i hc
      simp only [cellGet]
      rw [if_neg (fun e => hc (by rw [e]; exact h))]
      exact ih

theorem cellGet_filter_out {l : List Host.Cell} {a : Nat} {p : Nat → Bool} (h : p a = false) : cellGet (l.filter (fun c => p c.1)) a = none := by
  apply cellGet_eq_none
  intro c hc e
  rw [← e, (List.mem_filter.1 hc).2] at h
  cases h

/-- Outside the range the stored bytes stay. -/
theorem cellGet_cellsPut_outside {l new : List Host.Cell} {a n x : Nat} (hr : ∀ c ∈ new, a ≤ c.1 ∧ c.1 < a + n) (hx : x < a ∨ a + n ≤ x) :
    cellGet (cellsPut l a n new) x = cellGet l x := by
  have hnew : cellGet new x = none := cellGet_eq_none (fun c hc => by have := hr c hc; omega)
  rw [cellsPut, cellGet_append, cellGet_append, hnew]
  rcases hx with hx | hx
  · rw [cellGet_filter (p := fun k => decide (k < a)) (decide_eq_true hx),
      cellGet_filter_out (p := fun k => decide (a + n ≤ k)) (decide_eq_false (by omega))]
    cases cellGet l x <;> rfl
  · rw [cellGet_filter_out (p := fun k => decide (k < a)) (decide_eq_false (by omega)),
      cellGet_filter (p := fun k => decide (a + n ≤ k)) (decide_eq_true hx)]

/-- Inside the range stand the new bytes alone. -/
theorem cellGet_cellsPut_inside {l new : List Host.Cell} {a n x : Nat} (h1 : a ≤ x) (h2 : x < a + n) :
    cellGet (cellsPut l a n new) x = cellGet new x := by
  rw [cellsPut, cellGet_append, cellGet_append,
    cellGet_filter_out (p := fun k => decide (k < a)) (decide_eq_false (by omega)),
    cellGet_filter_out (p := fun k => decide (a + n ≤ k)) (decide_eq_false (by omega))]
  cases cellGet new x <;> rfl

/-- A byte that was stored: none where it is zero. -/
theorem cellGet_cellsOf {a : Nat} {bs : List Byte} {k : Nat} {b : Byte} (hk : bs[k]? = some b) (hm : a + k < fmSize) :
    cellGet (cellsOf a bs) (a + k) = if b = 0 then none else some b := by
  induction bs generalizing a k with
  | nil => cases hk
  | cons c r ih =>
    cases k with
    | zero =>
      have e : c = b := Option.some.inj hk
      subst e
      have hn : cellGet (cellsOf (a + 1) r) (a + 0) = none :=
        cellGet_eq_none (fun x hx => by have := (mem_cellsOf hx).1; omega)
      by_cases hc : c = 0
      · rw [cellsOf, if_neg (fun h => h.1 hc), if_pos hc]
        exact hn
      · rw [cellsOf, if_pos ⟨hc, by simpa using hm⟩, if_neg hc]
        simp [cellGet]
    | succ k =>
      have hk' : r[k]? = some b := hk
      have e : a + (k + 1) = a + 1 + k := by omega
      have := ih (a := a + 1) hk' (by omega)
      rw [cellsOf, e]
      split
      · simp only [cellGet]
        rw [if_neg (by omega)]
        exact this
      · exact this

/-- No range of undefined contents is left inside a range taken out. -/
theorem cutRange_inside {l : List (Nat × Nat × Nat)} {a b x : Nat} (h1 : a ≤ x) (h2 : x < b) :
    (cutRange l a b).find? (fun r => decide (r.1 ≤ x ∧ x < r.2.1)) = none := by
  rw [List.find?_eq_none]
  intro r hr
  rw [cutRange, List.mem_flatMap] at hr
  obtain ⟨q, -, hq⟩ := hr
  rw [List.mem_append] at hq
  have key : ¬ (r.1 ≤ x ∧ x < r.2.1) := by
    rcases hq with hq | hq <;> split at hq
    · rw [List.mem_singleton.1 hq]
      dsimp only
      omega
    · cases hq
    · rw [List.mem_singleton.1 hq]
      dsimp only
      omega
    · cases hq
  simp only [decide_eq_true_eq]
  exact key

theorem fmByte_of_cellGet {s : State} {a : Nat} {b : Byte} (h : cellGet s.fm a = some b) : fmByte s a = b := by
  rw [fmByte, h]

/-- A byte inside a store reads as stored. -/
theorem fmByte_fmWrite_inside {s : State} {a : Nat} {bs : List Byte} {k : Nat} {b : Byte} (hk : bs[k]? = some b) (hm : a + k < fmSize) :
    fmByte (fmWrite s a bs) (a + k) = b := by
  have hl : k < bs.length := by
    rcases Nat.lt_or_ge k bs.length with h | h
    · exact h
    · rw [List.getElem?_eq_none h] at hk
      cases hk
  have hc : cellGet (fmWrite s a bs).fm (a + k) = if b = 0 then none else some b := by
    show cellGet (cellsPut s.fm a bs.length (cellsOf a bs)) (a + k) = _
    rw [cellGet_cellsPut_inside (by omega) (by omega), cellGet_cellsOf hk hm]
  have hu : (fmWrite s a bs).mem.undef.find? (fun r => decide (r.1 ≤ a + k ∧ a + k < r.2.1)) = none :=
    cutRange_inside (l := s.mem.undef) (by omega) (by omega)
  rw [fmByte, hc, hu]
  split
  · rename_i h
    split at h
    · cases h
    · exact (Option.some.inj h).symm
  · rename_i h
    split at h
    · rename_i hb
      exact hb.symm
    · cases h

/-- The ranges that hold an address outside a range taken out are the same, with the same generation. -/
theorem cutRange_outside {l : List (Nat × Nat × Nat)} {a b x : Nat} (hx : x < a ∨ b ≤ x) :
    ((cutRange l a b).find? (fun r => decide (r.1 ≤ x ∧ x < r.2.1))).map (fun r => r.2.2) =
      (l.find? (fun r => decide (r.1 ≤ x ∧ x < r.2.1))).map (fun r => r.2.2) := by
  induction l with
  | nil => rfl
  | cons q l ih =>
    have e : cutRange (q :: l) a b = ((if q.1 < min q.2.1 a then [(q.1, min q.2.1 a, q.2.2)] else []) ++
        (if max q.1 b < q.2.1 then [(max q.1 b, q.2.1, q.2.2)] else [])) ++ cutRange l a b := rfl
    rw [e, List.find?_append]
    by_cases hq : q.1 ≤ x ∧ x < q.2.1
    · rw [List.find?_cons_of_pos (by simpa using hq)]
      by_cases hxa : x < a
      · have h1 : q.1 < min q.2.1 a := by omega
        rw [if_pos h1, List.find?_append, List.find?_cons_of_pos (by simp; omega)]
        rfl
      · have h1 : x ≥ b := by omega
        have h2 : max q.1 b < q.2.1 := by omega
        rw [if_pos h2]
        have : ((if q.1 < min q.2.1 a then [(q.1, min q.2.1 a, q.2.2)] else []) ++ [(max q.1 b, q.2.1, q.2.2)]).find?
            (fun r => decide (r.1 ≤ x ∧ x < r.2.1)) = some (max q.1 b, q.2.1, q.2.2) := by
          split
          · rw [List.singleton_append, List.find?_cons_of_neg (by simp; omega), List.find?_cons_of_pos (by simp; omega)]
          · rw [List.nil_append, List.find?_cons_of_pos (by simp; omega)]
        rw [this]
        rfl
    · rw [List.find?_cons_of_neg (by simpa using hq), ← ih]
      have : ((if q.1 < min q.2.1 a then [(q.1, min q.2.1 a, q.2.2)] else []) ++
          (if max q.1 b < q.2.1 then [(max q.1 b, q.2.1, q.2.2)] else [])).find? (fun r => decide (r.1 ≤ x ∧ x < r.2.1)) = none := by
        rw [List.find?_eq_none]
        intro r hr
        rw [List.mem_append] at hr
        simp only [decide_eq_true_eq]
        rcases hr with hr | hr <;> split at hr
        · rw [List.mem_singleton.1 hr]; dsimp only; omega
        · cases hr
        · rw [List.mem_singleton.1 hr]; dsimp only; omega
        · cases hr
      rw [this]
      rfl

/-- A byte outside a store reads as before. -/
theorem fmByte_fmWrite_outside {s : State} {a x : Nat} {bs : List Byte} (hx : x < a ∨ a + bs.length ≤ x) :
    fmByte (fmWrite s a bs) x = fmByte s x := by
  have hc : cellGet (fmWrite s a bs).fm x = cellGet s.fm x :=
    cellGet_cellsPut_outside (fun _ hc => ⟨(mem_cellsOf hc).1, (mem_cellsOf hc).2.1⟩) hx
  have hu := cutRange_outside (l := s.mem.undef) (a := a) (b := a + bs.length) hx
  rw [fmByte, fmByte, hc]
  have hu' : ((fmWrite s a bs).mem.undef.find? (fun r => decide (r.1 ≤ x ∧ x < r.2.1))).map (fun r => r.2.2) =
      (s.mem.undef.find? (fun r => decide (r.1 ≤ x ∧ x < r.2.1))).map (fun r => r.2.2) := hu
  cases cellGet s.fm x with
  | some b => rfl
  | none =>
    revert hu'
    cases (fmWrite s a bs).mem.undef.find? (fun r => decide (r.1 ≤ x ∧ x < r.2.1)) <;>
      cases s.mem.undef.find? (fun r => decide (r.1 ≤ x ∧ x < r.2.1)) <;> intro h
    · rfl
    · cases h
    · cases h
    · simp only [Option.map_some, Option.some.injEq] at h
      simp only [h]

/-- Forgetting a range leaves every byte outside it as it was. -/
theorem cellGet_fmForget_outside {s : State} {a n x : Nat} (hx : x < a ∨ a + n ≤ x) : cellGet (fmForget s a n).fm x = cellGet s.fm x :=
  cellGet_cellsPut_outside (fun _ hc => nomatch hc) hx

end Sys2Proof.Machine
end

