-- ==== Sys2Proof/Laws/State.lean ====
section
/-! SUPPORT. What each named update of the state does to each field of it, so that no proof unfolds a record update. -/

namespace Sys2Proof.Machine

variable (s : State)

/-! Time passes: the clock moves, and what falls due by itself has happened: steps of a lock, the end of BOOT and of the initialisation of the dies, and in
DUSK the quiet ports and BUOY (R204, R228 to R231, R381, R389). -/

@[simp] theorem bootAdvance_pending : (bootAdvance s).pending = s.pending := by
  unfold bootAdvance; dsimp only; split <;> split <;> rfl
@[simp] theorem bootAdvance_clk : (bootAdvance s).clk = s.clk := by
  unfold bootAdvance; dsimp only; split <;> split <;> rfl
@[simp] theorem bootAdvance_free : (bootAdvance s).free = s.free := by
  unfold bootAdvance; dsimp only; split <;> split <;> rfl
@[simp] theorem bootAdvance_regs : (bootAdvance s).regs = s.regs := by
  unfold bootAdvance; dsimp only; split <;> split <;> rfl
@[simp] theorem bootAdvance_log : (bootAdvance s).log = s.log := by
  unfold bootAdvance; dsimp only; split <;> split <;> rfl
@[simp] theorem bootAdvance_leases : (bootAdvance s).leases = s.leases := by
  unfold bootAdvance; dsimp only; split <;> split <;> rfl
@[simp] theorem bootAdvance_leaseLog : (bootAdvance s).leaseLog = s.leaseLog := by
  unfold bootAdvance; dsimp only; split <;> split <;> rfl
@[simp] theorem bootAdvance_lastArrayHolder : (bootAdvance s).lastArrayHolder = s.lastArrayHolder := by
  unfold bootAdvance; dsimp only; split <;> split <;> rfl
@[simp] theorem bootAdvance_arrayLapsed : (bootAdvance s).arrayLapsed = s.arrayLapsed := by
  unfold bootAdvance; dsimp only; split <;> split <;> rfl
@[simp] theorem bootAdvance_ports : (bootAdvance s).ports = s.ports := by
  unfold bootAdvance; dsimp only; split <;> split <;> rfl
@[simp] theorem bootAdvance_sb : (bootAdvance s).sb = s.sb := by
  unfold bootAdvance; dsimp only; split <;> split <;> rfl
@[simp] theorem bootAdvance_fwq : (bootAdvance s).fwq = s.fwq := by
  unfold bootAdvance; dsimp only; split <;> split <;> rfl
@[simp] theorem bootAdvance_slow : (bootAdvance s).slow = s.slow := by
  unfold bootAdvance; dsimp only; split <;> split <;> rfl
@[simp] theorem bootAdvance_misses : (bootAdvance s).misses = s.misses := by
  unfold bootAdvance; dsimp only; split <;> split <;> rfl
@[simp] theorem bootAdvance_diag : (bootAdvance s).diag = s.diag := by
  unfold bootAdvance; dsimp only; split <;> split <;> rfl
@[simp] theorem bootAdvance_rs : (bootAdvance s).rs = s.rs := by
  unfold bootAdvance; dsimp only; split <;> split <;> rfl
@[simp] theorem bootAdvance_otp : (bootAdvance s).otp = s.otp := by
  unfold bootAdvance; dsimp only; split <;> split <;> rfl
@[simp] theorem bootAdvance_sec : (bootAdvance s).sec = s.sec := by
  unfold bootAdvance; dsimp only; split <;> split <;> rfl
@[simp] theorem bootAdvance_arr : (bootAdvance s).arr = s.arr := by
  unfold bootAdvance; dsimp only; split <;> split <;> rfl
@[simp] theorem bootAdvance_pipe : (bootAdvance s).pipe = s.pipe := by
  unfold bootAdvance; dsimp only; split <;> split <;> rfl
@[simp] theorem bootAdvance_aux : (bootAdvance s).aux = s.aux := by
  unfold bootAdvance; dsimp only; split <;> split <;> rfl
@[simp] theorem bootAdvance_mem : (bootAdvance s).mem = s.mem := by
  unfold bootAdvance; dsimp only; split <;> split <;> rfl
@[simp] theorem bootAdvance_fm : (bootAdvance s).fm = s.fm := by
  unfold bootAdvance; dsimp only; split <;> split <;> rfl
@[simp] theorem bootAdvance_ring : (bootAdvance s).ring = s.ring := by
  unfold bootAdvance; dsimp only; split <;> split <;> rfl
@[simp] theorem bootAdvance_hold : (bootAdvance s).hold = s.hold := by
  unfold bootAdvance; dsimp only; split <;> split <;> rfl
@[simp] theorem bootAdvance_th : (bootAdvance s).th = s.th := by
  unfold bootAdvance; dsimp only; split <;> split <;> rfl
@[simp] theorem bootAdvance_pio : (bootAdvance s).pio = s.pio := by
  unfold bootAdvance; dsimp only; split <;> split <;> rfl

@[simp] theorem memAdvance_pending : (memAdvance s).pending = s.pending := by
  unfold memAdvance; split <;> [split; skip] <;> rfl
@[simp] theorem memAdvance_clk : (memAdvance s).clk = s.clk := by
  unfold memAdvance; split <;> [split; skip] <;> rfl
@[simp] theorem memAdvance_free : (memAdvance s).free = s.free := by
  unfold memAdvance; split <;> [split; skip] <;> rfl
@[simp] theorem memAdvance_regs : (memAdvance s).regs = s.regs := by
  unfold memAdvance; split <;> [split; skip] <;> rfl
@[simp] theorem memAdvance_log : (memAdvance s).log = s.log := by
  unfold memAdvance; split <;> [split; skip] <;> rfl
@[simp] theorem memAdvance_leases : (memAdvance s).leases = s.leases := by
  unfold memAdvance; split <;> [split; skip] <;> rfl
@[simp] theorem memAdvance_leaseLog : (memAdvance s).leaseLog = s.leaseLog := by
  unfold memAdvance; split <;> [split; skip] <;> rfl
@[simp] theorem memAdvance_lastArrayHolder : (memAdvance s).lastArrayHolder = s.lastArrayHolder := by
  unfold memAdvance; split <;> [split; skip] <;> rfl
@[simp] theorem memAdvance_arrayLapsed : (memAdvance s).arrayLapsed = s.arrayLapsed := by
  unfold memAdvance; split <;> [split; skip] <;> rfl
@[simp] theorem memAdvance_ports : (memAdvance s).ports = s.ports := by
  unfold memAdvance; split <;> [split; skip] <;> rfl
@[simp] theorem memAdvance_sb : (memAdvance s).sb = s.sb := by
  unfold memAdvance; split <;> [split; skip] <;> rfl
@[simp] theorem memAdvance_fwq : (memAdvance s).fwq = s.fwq := by
  unfold memAdvance; split <;> [split; skip] <;> rfl
@[simp] theorem memAdvance_slow : (memAdvance s).slow = s.slow := by
  unfold memAdvance; split <;> [split; skip] <;> rfl
@[simp] theorem memAdvance_misses : (memAdvance s).misses = s.misses := by
  unfold memAdvance; split <;> [split; skip] <;> rfl
@[simp] theorem memAdvance_diag : (memAdvance s).diag = s.diag := by
  unfold memAdvance; split <;> [split; skip] <;> rfl
@[simp] theorem memAdvance_pw : (memAdvance s).pw = s.pw := by
  unfold memAdvance; split <;> [split; skip] <;> rfl
@[simp] theorem memAdvance_rs : (memAdvance s).rs = s.rs := by
  unfold memAdvance; split <;> [split; skip] <;> rfl
@[simp] theorem memAdvance_otp : (memAdvance s).otp = s.otp := by
  unfold memAdvance; split <;> [split; skip] <;> rfl
@[simp] theorem memAdvance_sec : (memAdvance s).sec = s.sec := by
  unfold memAdvance; split <;> [split; skip] <;> rfl
@[simp] theorem memAdvance_arr : (memAdvance s).arr = s.arr := by
  unfold memAdvance; split <;> [split; skip] <;> rfl
@[simp] theorem memAdvance_pipe : (memAdvance s).pipe = s.pipe := by
  unfold memAdvance; split <;> [split; skip] <;> rfl
@[simp] theorem memAdvance_aux : (memAdvance s).aux = s.aux := by
  unfold memAdvance; split <;> [split; skip] <;> rfl
@[simp] theorem memAdvance_fm : (memAdvance s).fm = s.fm := by
  unfold memAdvance; split <;> [split; skip] <;> rfl
@[simp] theorem memAdvance_ring : (memAdvance s).ring = s.ring := by
  unfold memAdvance; split <;> [split; skip] <;> rfl
@[simp] theorem memAdvance_hold : (memAdvance s).hold = s.hold := by
  unfold memAdvance; split <;> [split; skip] <;> rfl
@[simp] theorem memAdvance_th : (memAdvance s).th = s.th := by
  unfold memAdvance; split <;> [split; skip] <;> rfl
@[simp] theorem memAdvance_pio : (memAdvance s).pio = s.pio := by
  unfold memAdvance; split <;> [split; skip] <;> rfl

@[simp] theorem duskAdvance_pending : (duskAdvance s).pending = s.pending := by
  unfold duskAdvance; dsimp only; split <;> [(split <;> split); skip] <;> rfl
@[simp] theorem duskAdvance_clk : (duskAdvance s).clk = s.clk := by
  unfold duskAdvance; dsimp only; split <;> [(split <;> split); skip] <;> rfl
@[simp] theorem duskAdvance_free : (duskAdvance s).free = s.free := by
  unfold duskAdvance; dsimp only; split <;> [(split <;> split); skip] <;> rfl
@[simp] theorem duskAdvance_regs : (duskAdvance s).regs = s.regs := by
  unfold duskAdvance; dsimp only; split <;> [(split <;> split); skip] <;> rfl
@[simp] theorem duskAdvance_log : (duskAdvance s).log = s.log := by
  unfold duskAdvance; dsimp only; split <;> [(split <;> split); skip] <;> rfl
@[simp] theorem duskAdvance_leases : (duskAdvance s).leases = s.leases := by
  unfold duskAdvance; dsimp only; split <;> [(split <;> split); skip] <;> rfl
@[simp] theorem duskAdvance_leaseLog : (duskAdvance s).leaseLog = s.leaseLog := by
  unfold duskAdvance; dsimp only; split <;> [(split <;> split); skip] <;> rfl
@[simp] theorem duskAdvance_lastArrayHolder : (duskAdvance s).lastArrayHolder = s.lastArrayHolder := by
  unfold duskAdvance; dsimp only; split <;> [(split <;> split); skip] <;> rfl
@[simp] theorem duskAdvance_arrayLapsed : (duskAdvance s).arrayLapsed = s.arrayLapsed := by
  unfold duskAdvance; dsimp only; split <;> [(split <;> split); skip] <;> rfl
@[simp] theorem duskAdvance_sb : (duskAdvance s).sb = s.sb := by
  unfold duskAdvance; dsimp only; split <;> [(split <;> split); skip] <;> rfl
@[simp] theorem duskAdvance_fwq : (duskAdvance s).fwq = s.fwq := by
  unfold duskAdvance; dsimp only; split <;> [(split <;> split); skip] <;> rfl
@[simp] theorem duskAdvance_slow : (duskAdvance s).slow = s.slow := by
  unfold duskAdvance; dsimp only; split <;> [(split <;> split); skip] <;> rfl
@[simp] theorem duskAdvance_misses : (duskAdvance s).misses = s.misses := by
  unfold duskAdvance; dsimp only; split <;> [(split <;> split); skip] <;> rfl
@[simp] theorem duskAdvance_diag : (duskAdvance s).diag = s.diag := by
  unfold duskAdvance; dsimp only; split <;> [(split <;> split); skip] <;> rfl
@[simp] theorem duskAdvance_rs : (duskAdvance s).rs = s.rs := by
  unfold duskAdvance; dsimp only; split <;> [(split <;> split); skip] <;> rfl
@[simp] theorem duskAdvance_otp : (duskAdvance s).otp = s.otp := by
  unfold duskAdvance; dsimp only; split <;> [(split <;> split); skip] <;> rfl
@[simp] theorem duskAdvance_sec : (duskAdvance s).sec = s.sec := by
  unfold duskAdvance; dsimp only; split <;> [(split <;> split); skip] <;> rfl
@[simp] theorem duskAdvance_arr : (duskAdvance s).arr = s.arr := by
  unfold duskAdvance; dsimp only; split <;> [(split <;> split); skip] <;> rfl
@[simp] theorem duskAdvance_pipe : (duskAdvance s).pipe = s.pipe := by
  unfold duskAdvance; dsimp only; split <;> [(split <;> split); skip] <;> rfl
@[simp] theorem duskAdvance_aux : (duskAdvance s).aux = s.aux := by
  unfold duskAdvance; dsimp only; split <;> [(split <;> split); skip] <;> rfl
@[simp] theorem duskAdvance_mem : (duskAdvance s).mem = s.mem := by
  unfold duskAdvance; dsimp only; split <;> [(split <;> split); skip] <;> rfl
@[simp] theorem duskAdvance_fm : (duskAdvance s).fm = s.fm := by
  unfold duskAdvance; dsimp only; split <;> [(split <;> split); skip] <;> rfl
@[simp] theorem duskAdvance_ring : (duskAdvance s).ring = s.ring := by
  unfold duskAdvance; dsimp only; split <;> [(split <;> split); skip] <;> rfl
@[simp] theorem duskAdvance_hold : (duskAdvance s).hold = s.hold := by
  unfold duskAdvance; dsimp only; split <;> [(split <;> split); skip] <;> rfl
@[simp] theorem duskAdvance_th : (duskAdvance s).th = s.th := by
  unfold duskAdvance; dsimp only; split <;> [(split <;> split); skip] <;> rfl
@[simp] theorem duskAdvance_pio : (duskAdvance s).pio = s.pio := by
  unfold duskAdvance; dsimp only; split <;> [(split <;> split); skip] <;> rfl

@[simp] theorem State.at_pending (t : Time) : (s.at t).pending = s.pending := by simp [State.at]
@[simp] theorem State.at_free (t : Time) : (s.at t).free = s.free := by simp [State.at]
@[simp] theorem State.at_regs (t : Time) : (s.at t).regs = s.regs := by simp [State.at]
@[simp] theorem State.at_log (t : Time) : (s.at t).log = s.log := by simp [State.at]
@[simp] theorem State.at_leases (t : Time) : (s.at t).leases = s.leases := by simp [State.at]
@[simp] theorem State.at_leaseLog (t : Time) : (s.at t).leaseLog = s.leaseLog := by simp [State.at]
@[simp] theorem State.at_lastArrayHolder (t : Time) : (s.at t).lastArrayHolder = s.lastArrayHolder := by simp [State.at]
@[simp] theorem State.at_arrayLapsed (t : Time) : (s.at t).arrayLapsed = s.arrayLapsed := by simp [State.at]
@[simp] theorem State.at_sb (t : Time) : (s.at t).sb = s.sb := by simp [State.at]
@[simp] theorem State.at_fwq (t : Time) : (s.at t).fwq = s.fwq := by simp [State.at]
@[simp] theorem State.at_slow (t : Time) : (s.at t).slow = s.slow := by simp [State.at]
@[simp] theorem State.at_misses (t : Time) : (s.at t).misses = s.misses := by simp [State.at]
@[simp] theorem State.at_diag (t : Time) : (s.at t).diag = s.diag := by simp [State.at]
@[simp] theorem State.at_rs (t : Time) : (s.at t).rs = s.rs := by simp [State.at]
@[simp] theorem State.at_otp (t : Time) : (s.at t).otp = s.otp := by simp [State.at]
@[simp] theorem State.at_sec (t : Time) : (s.at t).sec = s.sec := by simp [State.at]
@[simp] theorem State.at_arr (t : Time) : (s.at t).arr = s.arr := by simp [State.at]
@[simp] theorem State.at_pipe (t : Time) : (s.at t).pipe = s.pipe := by simp [State.at]
@[simp] theorem State.at_aux (t : Time) : (s.at t).aux = s.aux := by simp [State.at]
@[simp] theorem State.at_fm (t : Time) : (s.at t).fm = s.fm := by simp [State.at]
@[simp] theorem State.at_ring (t : Time) : (s.at t).ring = s.ring := by simp [State.at]
@[simp] theorem State.at_hold (t : Time) : (s.at t).hold = s.hold := by simp [State.at]
@[simp] theorem State.at_th (t : Time) : (s.at t).th = s.th := by simp [State.at]
@[simp] theorem State.at_pio (t : Time) : (s.at t).pio = s.pio := by simp [State.at]
@[simp] theorem State.at_clk (t : Time) : (s.at t).clk = { s.clk with now := max s.clk.now t } := by simp [State.at]

theorem bootAdvance_dusk (h : s.pw.st ≠ .dusk) : (bootAdvance s).pw.st ≠ .dusk := by
  unfold bootAdvance; dsimp only; split <;> split <;> simp_all
theorem duskAdvance_eq (h : s.pw.st ≠ .dusk) : duskAdvance s = s := by simp [duskAdvance, h]
theorem memAdvance_eq (h : s.mem.initTill = none) : memAdvance s = s := by simp [memAdvance, h]
theorem bootAdvance_eq (h : s.pw.st ≠ .boot) (hp : s.pw.plls.any (fun p => decide (p.st = .safe ∨ p.st = .band)) = false) :
    bootAdvance s = s := by simp only [bootAdvance, hp, h, false_and, if_false, Bool.false_eq_true]
@[simp] theorem State.at_ports (h : s.pw.st ≠ .dusk) (t : Time) : (s.at t).ports = s.ports := by
  rw [State.at, duskAdvance_eq _ (by rw [memAdvance_pw]; exact bootAdvance_dusk _ h)]; simp
@[simp] theorem State.at_mem (h : s.mem.initTill = none) (t : Time) : (s.at t).mem = s.mem := by
  rw [State.at, duskAdvance_mem, memAdvance_eq _ (by simpa using h)]; simp
/-- Outside BOOT and DUSK, with no PLL at the start of a lock and the dies initialised, only the clock moves. -/
theorem State.at_eq (hd : s.pw.st ≠ .dusk) (hb : s.pw.st ≠ .boot)
    (hp : s.pw.plls.any (fun p => decide (p.st = .safe ∨ p.st = .band)) = false) (hm : s.mem.initTill = none) (t : Time) :
    s.at t = { s with clk := { s.clk with now := max s.clk.now t } } := by
  rw [State.at, bootAdvance_eq { s with clk := { s.clk with now := max s.clk.now t } } hb hp, memAdvance_eq { s with clk := { s.clk with now := max s.clk.now t } } hm,
    duskAdvance_eq { s with clk := { s.clk with now := max s.clk.now t } } hd]

@[simp] theorem State.setReg_pending (a v : Nat) : (s.setReg a v).pending = s.pending := rfl
@[simp] theorem State.setReg_clk (a v : Nat) : (s.setReg a v).clk = s.clk := rfl
@[simp] theorem State.setReg_free (a v : Nat) : (s.setReg a v).free = s.free := rfl
@[simp] theorem State.setReg_regs (a v : Nat) : (s.setReg a v).regs = storePut s.regs a (v % 2 ^ 32) (regReset a) := rfl
@[simp] theorem State.setReg_log (a v : Nat) : (s.setReg a v).log = s.log := rfl
@[simp] theorem State.setReg_leases (a v : Nat) : (s.setReg a v).leases = s.leases := rfl
@[simp] theorem State.setReg_leaseLog (a v : Nat) : (s.setReg a v).leaseLog = s.leaseLog := rfl
@[simp] theorem State.setReg_lastArrayHolder (a v : Nat) : (s.setReg a v).lastArrayHolder = s.lastArrayHolder := rfl
@[simp] theorem State.setReg_arrayLapsed (a v : Nat) : (s.setReg a v).arrayLapsed = s.arrayLapsed := rfl
@[simp] theorem State.setReg_ports (a v : Nat) : (s.setReg a v).ports = s.ports := rfl
@[simp] theorem State.setReg_sb (a v : Nat) : (s.setReg a v).sb = s.sb := rfl
@[simp] theorem State.setReg_fwq (a v : Nat) : (s.setReg a v).fwq = s.fwq := rfl
@[simp] theorem State.setReg_slow (a v : Nat) : (s.setReg a v).slow = s.slow := rfl
@[simp] theorem State.setReg_misses (a v : Nat) : (s.setReg a v).misses = s.misses := rfl
@[simp] theorem State.setReg_diag (a v : Nat) : (s.setReg a v).diag = s.diag := rfl
@[simp] theorem State.setReg_pw (a v : Nat) : (s.setReg a v).pw = s.pw := rfl
@[simp] theorem State.setReg_rs (a v : Nat) : (s.setReg a v).rs = s.rs := rfl
@[simp] theorem State.setReg_otp (a v : Nat) : (s.setReg a v).otp = s.otp := rfl
@[simp] theorem State.setReg_sec (a v : Nat) : (s.setReg a v).sec = s.sec := rfl
@[simp] theorem State.setReg_arr (a v : Nat) : (s.setReg a v).arr = s.arr := rfl
@[simp] theorem State.setReg_pipe (a v : Nat) : (s.setReg a v).pipe = s.pipe := rfl
@[simp] theorem State.setReg_aux (a v : Nat) : (s.setReg a v).aux = s.aux := rfl
@[simp] theorem State.setReg_mem (a v : Nat) : (s.setReg a v).mem = s.mem := rfl
@[simp] theorem State.setReg_fm (a v : Nat) : (s.setReg a v).fm = s.fm := rfl
@[simp] theorem State.setReg_ring (a v : Nat) : (s.setReg a v).ring = s.ring := rfl
@[simp] theorem State.setReg_hold (a v : Nat) : (s.setReg a v).hold = s.hold := rfl
@[simp] theorem State.setReg_th (a v : Nat) : (s.setReg a v).th = s.th := rfl
@[simp] theorem State.setReg_pio (a v : Nat) : (s.setReg a v).pio = s.pio := rfl

@[simp] theorem State.modPort_pending (p : PortIx) (f : Port → Port) : (s.modPort p f).pending = s.pending := rfl
@[simp] theorem State.modPort_clk (p : PortIx) (f : Port → Port) : (s.modPort p f).clk = s.clk := rfl
@[simp] theorem State.modPort_free (p : PortIx) (f : Port → Port) : (s.modPort p f).free = s.free := rfl
@[simp] theorem State.modPort_regs (p : PortIx) (f : Port → Port) : (s.modPort p f).regs = s.regs := rfl
@[simp] theorem State.modPort_log (p : PortIx) (f : Port → Port) : (s.modPort p f).log = s.log := rfl
@[simp] theorem State.modPort_leases (p : PortIx) (f : Port → Port) : (s.modPort p f).leases = s.leases := rfl
@[simp] theorem State.modPort_leaseLog (p : PortIx) (f : Port → Port) : (s.modPort p f).leaseLog = s.leaseLog := rfl
@[simp] theorem State.modPort_lastArrayHolder (p : PortIx) (f : Port → Port) : (s.modPort p f).lastArrayHolder = s.lastArrayHolder := rfl
@[simp] theorem State.modPort_arrayLapsed (p : PortIx) (f : Port → Port) : (s.modPort p f).arrayLapsed = s.arrayLapsed := rfl
@[simp] theorem State.modPort_ports (p : PortIx) (f : Port → Port) : (s.modPort p f).ports = modAt s.ports p.val f := rfl
@[simp] theorem State.modPort_sb (p : PortIx) (f : Port → Port) : (s.modPort p f).sb = s.sb := rfl
@[simp] theorem State.modPort_fwq (p : PortIx) (f : Port → Port) : (s.modPort p f).fwq = s.fwq := rfl
@[simp] theorem State.modPort_slow (p : PortIx) (f : Port → Port) : (s.modPort p f).slow = s.slow := rfl
@[simp] theorem State.modPort_misses (p : PortIx) (f : Port → Port) : (s.modPort p f).misses = s.misses := rfl
@[simp] theorem State.modPort_diag (p : PortIx) (f : Port → Port) : (s.modPort p f).diag = s.diag := rfl
@[simp] theorem State.modPort_pw (p : PortIx) (f : Port → Port) : (s.modPort p f).pw = s.pw := rfl
@[simp] theorem State.modPort_rs (p : PortIx) (f : Port → Port) : (s.modPort p f).rs = s.rs := rfl
@[simp] theorem State.modPort_otp (p : PortIx) (f : Port → Port) : (s.modPort p f).otp = s.otp := rfl
@[simp] theorem State.modPort_sec (p : PortIx) (f : Port → Port) : (s.modPort p f).sec = s.sec := rfl
@[simp] theorem State.modPort_arr (p : PortIx) (f : Port → Port) : (s.modPort p f).arr = s.arr := rfl
@[simp] theorem State.modPort_pipe (p : PortIx) (f : Port → Port) : (s.modPort p f).pipe = s.pipe := rfl
@[simp] theorem State.modPort_aux (p : PortIx) (f : Port → Port) : (s.modPort p f).aux = s.aux := rfl
@[simp] theorem State.modPort_mem (p : PortIx) (f : Port → Port) : (s.modPort p f).mem = s.mem := rfl
@[simp] theorem State.modPort_fm (p : PortIx) (f : Port → Port) : (s.modPort p f).fm = s.fm := rfl
@[simp] theorem State.modPort_ring (p : PortIx) (f : Port → Port) : (s.modPort p f).ring = s.ring := rfl
@[simp] theorem State.modPort_hold (p : PortIx) (f : Port → Port) : (s.modPort p f).hold = s.hold := rfl
@[simp] theorem State.modPort_th (p : PortIx) (f : Port → Port) : (s.modPort p f).th = s.th := rfl
@[simp] theorem State.modPort_pio (p : PortIx) (f : Port → Port) : (s.modPort p f).pio = s.pio := rfl

@[simp] theorem State.modMem_pending (f : Mem → Mem) : (s.modMem f).pending = s.pending := rfl
@[simp] theorem State.modMem_clk (f : Mem → Mem) : (s.modMem f).clk = s.clk := rfl
@[simp] theorem State.modMem_free (f : Mem → Mem) : (s.modMem f).free = s.free := rfl
@[simp] theorem State.modMem_regs (f : Mem → Mem) : (s.modMem f).regs = s.regs := rfl
@[simp] theorem State.modMem_log (f : Mem → Mem) : (s.modMem f).log = s.log := rfl
@[simp] theorem State.modMem_leases (f : Mem → Mem) : (s.modMem f).leases = s.leases := rfl
@[simp] theorem State.modMem_leaseLog (f : Mem → Mem) : (s.modMem f).leaseLog = s.leaseLog := rfl
@[simp] theorem State.modMem_lastArrayHolder (f : Mem → Mem) : (s.modMem f).lastArrayHolder = s.lastArrayHolder := rfl
@[simp] theorem State.modMem_arrayLapsed (f : Mem → Mem) : (s.modMem f).arrayLapsed = s.arrayLapsed := rfl
@[simp] theorem State.modMem_ports (f : Mem → Mem) : (s.modMem f).ports = s.ports := rfl
@[simp] theorem State.modMem_sb (f : Mem → Mem) : (s.modMem f).sb = s.sb := rfl
@[simp] theorem State.modMem_fwq (f : Mem → Mem) : (s.modMem f).fwq = s.fwq := rfl
@[simp] theorem State.modMem_slow (f : Mem → Mem) : (s.modMem f).slow = s.slow := rfl
@[simp] theorem State.modMem_misses (f : Mem → Mem) : (s.modMem f).misses = s.misses := rfl
@[simp] theorem State.modMem_diag (f : Mem → Mem) : (s.modMem f).diag = s.diag := rfl
@[simp] theorem State.modMem_pw (f : Mem → Mem) : (s.modMem f).pw = s.pw := rfl
@[simp] theorem State.modMem_rs (f : Mem → Mem) : (s.modMem f).rs = s.rs := rfl
@[simp] theorem State.modMem_otp (f : Mem → Mem) : (s.modMem f).otp = s.otp := rfl
@[simp] theorem State.modMem_sec (f : Mem → Mem) : (s.modMem f).sec = s.sec := rfl
@[simp] theorem State.modMem_arr (f : Mem → Mem) : (s.modMem f).arr = s.arr := rfl
@[simp] theorem State.modMem_pipe (f : Mem → Mem) : (s.modMem f).pipe = s.pipe := rfl
@[simp] theorem State.modMem_aux (f : Mem → Mem) : (s.modMem f).aux = s.aux := rfl
@[simp] theorem State.modMem_mem (f : Mem → Mem) : (s.modMem f).mem = f s.mem := rfl
@[simp] theorem State.modMem_fm (f : Mem → Mem) : (s.modMem f).fm = s.fm := rfl
@[simp] theorem State.modMem_ring (f : Mem → Mem) : (s.modMem f).ring = s.ring := rfl
@[simp] theorem State.modMem_hold (f : Mem → Mem) : (s.modMem f).hold = s.hold := rfl
@[simp] theorem State.modMem_th (f : Mem → Mem) : (s.modMem f).th = s.th := rfl
@[simp] theorem State.modMem_pio (f : Mem → Mem) : (s.modMem f).pio = s.pio := rfl

@[simp] theorem State.modSeq_pending (f : Seq → Seq) : (s.modSeq f).pending = s.pending := rfl
@[simp] theorem State.modSeq_clk (f : Seq → Seq) : (s.modSeq f).clk = s.clk := rfl
@[simp] theorem State.modSeq_free (f : Seq → Seq) : (s.modSeq f).free = s.free := rfl
@[simp] theorem State.modSeq_regs (f : Seq → Seq) : (s.modSeq f).regs = s.regs := rfl
@[simp] theorem State.modSeq_log (f : Seq → Seq) : (s.modSeq f).log = s.log := rfl
@[simp] theorem State.modSeq_leases (f : Seq → Seq) : (s.modSeq f).leases = s.leases := rfl
@[simp] theorem State.modSeq_leaseLog (f : Seq → Seq) : (s.modSeq f).leaseLog = s.leaseLog := rfl
@[simp] theorem State.modSeq_lastArrayHolder (f : Seq → Seq) : (s.modSeq f).lastArrayHolder = s.lastArrayHolder := rfl
@[simp] theorem State.modSeq_arrayLapsed (f : Seq → Seq) : (s.modSeq f).arrayLapsed = s.arrayLapsed := rfl
@[simp] theorem State.modSeq_ports (f : Seq → Seq) : (s.modSeq f).ports = s.ports := rfl
@[simp] theorem State.modSeq_sb (f : Seq → Seq) : (s.modSeq f).sb = s.sb := rfl
@[simp] theorem State.modSeq_fwq (f : Seq → Seq) : (s.modSeq f).fwq = s.fwq := rfl
@[simp] theorem State.modSeq_slow (f : Seq → Seq) : (s.modSeq f).slow = s.slow := rfl
@[simp] theorem State.modSeq_misses (f : Seq → Seq) : (s.modSeq f).misses = s.misses := rfl
@[simp] theorem State.modSeq_diag (f : Seq → Seq) : (s.modSeq f).diag = s.diag := rfl
@[simp] theorem State.modSeq_pw (f : Seq → Seq) : (s.modSeq f).pw = s.pw := rfl
@[simp] theorem State.modSeq_rs (f : Seq → Seq) : (s.modSeq f).rs = s.rs := rfl
@[simp] theorem State.modSeq_otp (f : Seq → Seq) : (s.modSeq f).otp = s.otp := rfl
@[simp] theorem State.modSeq_sec (f : Seq → Seq) : (s.modSeq f).sec = s.sec := rfl
@[simp] theorem State.modSeq_arr (f : Seq → Seq) : (s.modSeq f).arr = { s.arr with seq := f s.arr.seq } := rfl
@[simp] theorem State.modSeq_pipe (f : Seq → Seq) : (s.modSeq f).pipe = s.pipe := rfl
@[simp] theorem State.modSeq_aux (f : Seq → Seq) : (s.modSeq f).aux = s.aux := rfl
@[simp] theorem State.modSeq_mem (f : Seq → Seq) : (s.modSeq f).mem = s.mem := rfl
@[simp] theorem State.modSeq_fm (f : Seq → Seq) : (s.modSeq f).fm = s.fm := rfl
@[simp] theorem State.modSeq_ring (f : Seq → Seq) : (s.modSeq f).ring = s.ring := rfl
@[simp] theorem State.modSeq_hold (f : Seq → Seq) : (s.modSeq f).hold = s.hold := rfl
@[simp] theorem State.modSeq_th (f : Seq → Seq) : (s.modSeq f).th = s.th := rfl
@[simp] theorem State.modSeq_pio (f : Seq → Seq) : (s.modSeq f).pio = s.pio := rfl

@[simp] theorem State.modGov_pending (f : Gov → Gov) : (s.modGov f).pending = s.pending := rfl
@[simp] theorem State.modGov_clk (f : Gov → Gov) : (s.modGov f).clk = s.clk := rfl
@[simp] theorem State.modGov_free (f : Gov → Gov) : (s.modGov f).free = s.free := rfl
@[simp] theorem State.modGov_regs (f : Gov → Gov) : (s.modGov f).regs = s.regs := rfl
@[simp] theorem State.modGov_log (f : Gov → Gov) : (s.modGov f).log = s.log := rfl
@[simp] theorem State.modGov_leases (f : Gov → Gov) : (s.modGov f).leases = s.leases := rfl
@[simp] theorem State.modGov_leaseLog (f : Gov → Gov) : (s.modGov f).leaseLog = s.leaseLog := rfl
@[simp] theorem State.modGov_lastArrayHolder (f : Gov → Gov) : (s.modGov f).lastArrayHolder = s.lastArrayHolder := rfl
@[simp] theorem State.modGov_arrayLapsed (f : Gov → Gov) : (s.modGov f).arrayLapsed = s.arrayLapsed := rfl
@[simp] theorem State.modGov_ports (f : Gov → Gov) : (s.modGov f).ports = s.ports := rfl
@[simp] theorem State.modGov_sb (f : Gov → Gov) : (s.modGov f).sb = s.sb := rfl
@[simp] theorem State.modGov_fwq (f : Gov → Gov) : (s.modGov f).fwq = s.fwq := rfl
@[simp] theorem State.modGov_slow (f : Gov → Gov) : (s.modGov f).slow = s.slow := rfl
@[simp] theorem State.modGov_misses (f : Gov → Gov) : (s.modGov f).misses = s.misses := rfl
@[simp] theorem State.modGov_diag (f : Gov → Gov) : (s.modGov f).diag = s.diag := rfl
@[simp] theorem State.modGov_pw (f : Gov → Gov) : (s.modGov f).pw = s.pw := rfl
@[simp] theorem State.modGov_rs (f : Gov → Gov) : (s.modGov f).rs = s.rs := rfl
@[simp] theorem State.modGov_otp (f : Gov → Gov) : (s.modGov f).otp = s.otp := rfl
@[simp] theorem State.modGov_sec (f : Gov → Gov) : (s.modGov f).sec = s.sec := rfl
@[simp] theorem State.modGov_arr (f : Gov → Gov) : (s.modGov f).arr = { s.arr with gov := f s.arr.gov } := rfl
@[simp] theorem State.modGov_pipe (f : Gov → Gov) : (s.modGov f).pipe = s.pipe := rfl
@[simp] theorem State.modGov_aux (f : Gov → Gov) : (s.modGov f).aux = s.aux := rfl
@[simp] theorem State.modGov_mem (f : Gov → Gov) : (s.modGov f).mem = s.mem := rfl
@[simp] theorem State.modGov_fm (f : Gov → Gov) : (s.modGov f).fm = s.fm := rfl
@[simp] theorem State.modGov_ring (f : Gov → Gov) : (s.modGov f).ring = s.ring := rfl
@[simp] theorem State.modGov_hold (f : Gov → Gov) : (s.modGov f).hold = s.hold := rfl
@[simp] theorem State.modGov_th (f : Gov → Gov) : (s.modGov f).th = s.th := rfl
@[simp] theorem State.modGov_pio (f : Gov → Gov) : (s.modGov f).pio = s.pio := rfl

@[simp] theorem State.modEng_pending (n : Nat) (f : Eng → Eng) : (s.modEng n f).pending = s.pending := rfl
@[simp] theorem State.modEng_clk (n : Nat) (f : Eng → Eng) : (s.modEng n f).clk = s.clk := rfl
@[simp] theorem State.modEng_free (n : Nat) (f : Eng → Eng) : (s.modEng n f).free = s.free := rfl
@[simp] theorem State.modEng_regs (n : Nat) (f : Eng → Eng) : (s.modEng n f).regs = s.regs := rfl
@[simp] theorem State.modEng_log (n : Nat) (f : Eng → Eng) : (s.modEng n f).log = s.log := rfl
@[simp] theorem State.modEng_leases (n : Nat) (f : Eng → Eng) : (s.modEng n f).leases = s.leases := rfl
@[simp] theorem State.modEng_leaseLog (n : Nat) (f : Eng → Eng) : (s.modEng n f).leaseLog = s.leaseLog := rfl
@[simp] theorem State.modEng_lastArrayHolder (n : Nat) (f : Eng → Eng) : (s.modEng n f).lastArrayHolder = s.lastArrayHolder := rfl
@[simp] theorem State.modEng_arrayLapsed (n : Nat) (f : Eng → Eng) : (s.modEng n f).arrayLapsed = s.arrayLapsed := rfl
@[simp] theorem State.modEng_ports (n : Nat) (f : Eng → Eng) : (s.modEng n f).ports = s.ports := rfl
@[simp] theorem State.modEng_sb (n : Nat) (f : Eng → Eng) : (s.modEng n f).sb = s.sb := rfl
@[simp] theorem State.modEng_fwq (n : Nat) (f : Eng → Eng) : (s.modEng n f).fwq = s.fwq := rfl
@[simp] theorem State.modEng_slow (n : Nat) (f : Eng → Eng) : (s.modEng n f).slow = s.slow := rfl
@[simp] theorem State.modEng_misses (n : Nat) (f : Eng → Eng) : (s.modEng n f).misses = s.misses := rfl
@[simp] theorem State.modEng_diag (n : Nat) (f : Eng → Eng) : (s.modEng n f).diag = s.diag := rfl
@[simp] theorem State.modEng_pw (n : Nat) (f : Eng → Eng) : (s.modEng n f).pw = s.pw := rfl
@[simp] theorem State.modEng_rs (n : Nat) (f : Eng → Eng) : (s.modEng n f).rs = s.rs := rfl
@[simp] theorem State.modEng_otp (n : Nat) (f : Eng → Eng) : (s.modEng n f).otp = s.otp := rfl
@[simp] theorem State.modEng_sec (n : Nat) (f : Eng → Eng) : (s.modEng n f).sec = s.sec := rfl
@[simp] theorem State.modEng_arr (n : Nat) (f : Eng → Eng) : (s.modEng n f).arr = { s.arr with eng := modAt s.arr.eng n f } := rfl
@[simp] theorem State.modEng_pipe (n : Nat) (f : Eng → Eng) : (s.modEng n f).pipe = s.pipe := rfl
@[simp] theorem State.modEng_aux (n : Nat) (f : Eng → Eng) : (s.modEng n f).aux = s.aux := rfl
@[simp] theorem State.modEng_mem (n : Nat) (f : Eng → Eng) : (s.modEng n f).mem = s.mem := rfl
@[simp] theorem State.modEng_fm (n : Nat) (f : Eng → Eng) : (s.modEng n f).fm = s.fm := rfl
@[simp] theorem State.modEng_ring (n : Nat) (f : Eng → Eng) : (s.modEng n f).ring = s.ring := rfl
@[simp] theorem State.modEng_hold (n : Nat) (f : Eng → Eng) : (s.modEng n f).hold = s.hold := rfl
@[simp] theorem State.modEng_th (n : Nat) (f : Eng → Eng) : (s.modEng n f).th = s.th := rfl
@[simp] theorem State.modEng_pio (n : Nat) (f : Eng → Eng) : (s.modEng n f).pio = s.pio := rfl

@[simp] theorem State.modAux_pending (n : Nat) (f : AuxIn → AuxIn) : (s.modAux n f).pending = s.pending := rfl
@[simp] theorem State.modAux_clk (n : Nat) (f : AuxIn → AuxIn) : (s.modAux n f).clk = s.clk := rfl
@[simp] theorem State.modAux_free (n : Nat) (f : AuxIn → AuxIn) : (s.modAux n f).free = s.free := rfl
@[simp] theorem State.modAux_regs (n : Nat) (f : AuxIn → AuxIn) : (s.modAux n f).regs = s.regs := rfl
@[simp] theorem State.modAux_log (n : Nat) (f : AuxIn → AuxIn) : (s.modAux n f).log = s.log := rfl
@[simp] theorem State.modAux_leases (n : Nat) (f : AuxIn → AuxIn) : (s.modAux n f).leases = s.leases := rfl
@[simp] theorem State.modAux_leaseLog (n : Nat) (f : AuxIn → AuxIn) : (s.modAux n f).leaseLog = s.leaseLog := rfl
@[simp] theorem State.modAux_lastArrayHolder (n : Nat) (f : AuxIn → AuxIn) : (s.modAux n f).lastArrayHolder = s.lastArrayHolder := rfl
@[simp] theorem State.modAux_arrayLapsed (n : Nat) (f : AuxIn → AuxIn) : (s.modAux n f).arrayLapsed = s.arrayLapsed := rfl
@[simp] theorem State.modAux_ports (n : Nat) (f : AuxIn → AuxIn) : (s.modAux n f).ports = s.ports := rfl
@[simp] theorem State.modAux_sb (n : Nat) (f : AuxIn → AuxIn) : (s.modAux n f).sb = s.sb := rfl
@[simp] theorem State.modAux_fwq (n : Nat) (f : AuxIn → AuxIn) : (s.modAux n f).fwq = s.fwq := rfl
@[simp] theorem State.modAux_slow (n : Nat) (f : AuxIn → AuxIn) : (s.modAux n f).slow = s.slow := rfl
@[simp] theorem State.modAux_misses (n : Nat) (f : AuxIn → AuxIn) : (s.modAux n f).misses = s.misses := rfl
@[simp] theorem State.modAux_diag (n : Nat) (f : AuxIn → AuxIn) : (s.modAux n f).diag = s.diag := rfl
@[simp] theorem State.modAux_pw (n : Nat) (f : AuxIn → AuxIn) : (s.modAux n f).pw = s.pw := rfl
@[simp] theorem State.modAux_rs (n : Nat) (f : AuxIn → AuxIn) : (s.modAux n f).rs = s.rs := rfl
@[simp] theorem State.modAux_otp (n : Nat) (f : AuxIn → AuxIn) : (s.modAux n f).otp = s.otp := rfl
@[simp] theorem State.modAux_sec (n : Nat) (f : AuxIn → AuxIn) : (s.modAux n f).sec = s.sec := rfl
@[simp] theorem State.modAux_arr (n : Nat) (f : AuxIn → AuxIn) : (s.modAux n f).arr = s.arr := rfl
@[simp] theorem State.modAux_pipe (n : Nat) (f : AuxIn → AuxIn) : (s.modAux n f).pipe = s.pipe := rfl
@[simp] theorem State.modAux_aux (n : Nat) (f : AuxIn → AuxIn) : (s.modAux n f).aux = modAt s.aux n f := rfl
@[simp] theorem State.modAux_mem (n : Nat) (f : AuxIn → AuxIn) : (s.modAux n f).mem = s.mem := rfl
@[simp] theorem State.modAux_fm (n : Nat) (f : AuxIn → AuxIn) : (s.modAux n f).fm = s.fm := rfl
@[simp] theorem State.modAux_ring (n : Nat) (f : AuxIn → AuxIn) : (s.modAux n f).ring = s.ring := rfl
@[simp] theorem State.modAux_hold (n : Nat) (f : AuxIn → AuxIn) : (s.modAux n f).hold = s.hold := rfl
@[simp] theorem State.modAux_th (n : Nat) (f : AuxIn → AuxIn) : (s.modAux n f).th = s.th := rfl
@[simp] theorem State.modAux_pio (n : Nat) (f : AuxIn → AuxIn) : (s.modAux n f).pio = s.pio := rfl

@[simp] theorem State.modHold_pending (f : Hold → Hold) : (s.modHold f).pending = s.pending := rfl
@[simp] theorem State.modHold_clk (f : Hold → Hold) : (s.modHold f).clk = s.clk := rfl
@[simp] theorem State.modHold_free (f : Hold → Hold) : (s.modHold f).free = s.free := rfl
@[simp] theorem State.modHold_regs (f : Hold → Hold) : (s.modHold f).regs = s.regs := rfl
@[simp] theorem State.modHold_log (f : Hold → Hold) : (s.modHold f).log = s.log := rfl
@[simp] theorem State.modHold_leases (f : Hold → Hold) : (s.modHold f).leases = s.leases := rfl
@[simp] theorem State.modHold_leaseLog (f : Hold → Hold) : (s.modHold f).leaseLog = s.leaseLog := rfl
@[simp] theorem State.modHold_lastArrayHolder (f : Hold → Hold) : (s.modHold f).lastArrayHolder = s.lastArrayHolder := rfl
@[simp] theorem State.modHold_arrayLapsed (f : Hold → Hold) : (s.modHold f).arrayLapsed = s.arrayLapsed := rfl
@[simp] theorem State.modHold_ports (f : Hold → Hold) : (s.modHold f).ports = s.ports := rfl
@[simp] theorem State.modHold_sb (f : Hold → Hold) : (s.modHold f).sb = s.sb := rfl
@[simp] theorem State.modHold_fwq (f : Hold → Hold) : (s.modHold f).fwq = s.fwq := rfl
@[simp] theorem State.modHold_slow (f : Hold → Hold) : (s.modHold f).slow = s.slow := rfl
@[simp] theorem State.modHold_misses (f : Hold → Hold) : (s.modHold f).misses = s.misses := rfl
@[simp] theorem State.modHold_diag (f : Hold → Hold) : (s.modHold f).diag = s.diag := rfl
@[simp] theorem State.modHold_pw (f : Hold → Hold) : (s.modHold f).pw = s.pw := rfl
@[simp] theorem State.modHold_rs (f : Hold → Hold) : (s.modHold f).rs = s.rs := rfl
@[simp] theorem State.modHold_otp (f : Hold → Hold) : (s.modHold f).otp = s.otp := rfl
@[simp] theorem State.modHold_sec (f : Hold → Hold) : (s.modHold f).sec = s.sec := rfl
@[simp] theorem State.modHold_arr (f : Hold → Hold) : (s.modHold f).arr = s.arr := rfl
@[simp] theorem State.modHold_pipe (f : Hold → Hold) : (s.modHold f).pipe = s.pipe := rfl
@[simp] theorem State.modHold_aux (f : Hold → Hold) : (s.modHold f).aux = s.aux := rfl
@[simp] theorem State.modHold_mem (f : Hold → Hold) : (s.modHold f).mem = s.mem := rfl
@[simp] theorem State.modHold_fm (f : Hold → Hold) : (s.modHold f).fm = s.fm := rfl
@[simp] theorem State.modHold_ring (f : Hold → Hold) : (s.modHold f).ring = s.ring := rfl
@[simp] theorem State.modHold_hold (f : Hold → Hold) : (s.modHold f).hold = f s.hold := rfl
@[simp] theorem State.modHold_th (f : Hold → Hold) : (s.modHold f).th = s.th := rfl
@[simp] theorem State.modHold_pio (f : Hold → Hold) : (s.modHold f).pio = s.pio := rfl

@[simp] theorem State.modPll_pending (n : Nat) (f : Pll → Pll) : (s.modPll n f).pending = s.pending := rfl
@[simp] theorem State.modPll_clk (n : Nat) (f : Pll → Pll) : (s.modPll n f).clk = s.clk := rfl
@[simp] theorem State.modPll_free (n : Nat) (f : Pll → Pll) : (s.modPll n f).free = s.free := rfl
@[simp] theorem State.modPll_regs (n : Nat) (f : Pll → Pll) : (s.modPll n f).regs = s.regs := rfl
@[simp] theorem State.modPll_log (n : Nat) (f : Pll → Pll) : (s.modPll n f).log = s.log := rfl
@[simp] theorem State.modPll_leases (n : Nat) (f : Pll → Pll) : (s.modPll n f).leases = s.leases := rfl
@[simp] theorem State.modPll_leaseLog (n : Nat) (f : Pll → Pll) : (s.modPll n f).leaseLog = s.leaseLog := rfl
@[simp] theorem State.modPll_lastArrayHolder (n : Nat) (f : Pll → Pll) : (s.modPll n f).lastArrayHolder = s.lastArrayHolder := rfl
@[simp] theorem State.modPll_arrayLapsed (n : Nat) (f : Pll → Pll) : (s.modPll n f).arrayLapsed = s.arrayLapsed := rfl
@[simp] theorem State.modPll_ports (n : Nat) (f : Pll → Pll) : (s.modPll n f).ports = s.ports := rfl
@[simp] theorem State.modPll_sb (n : Nat) (f : Pll → Pll) : (s.modPll n f).sb = s.sb := rfl
@[simp] theorem State.modPll_fwq (n : Nat) (f : Pll → Pll) : (s.modPll n f).fwq = s.fwq := rfl
@[simp] theorem State.modPll_slow (n : Nat) (f : Pll → Pll) : (s.modPll n f).slow = s.slow := rfl
@[simp] theorem State.modPll_misses (n : Nat) (f : Pll → Pll) : (s.modPll n f).misses = s.misses := rfl
@[simp] theorem State.modPll_diag (n : Nat) (f : Pll → Pll) : (s.modPll n f).diag = s.diag := rfl
@[simp] theorem State.modPll_pw (n : Nat) (f : Pll → Pll) : (s.modPll n f).pw = { s.pw with plls := modAt s.pw.plls n f } := rfl
@[simp] theorem State.modPll_rs (n : Nat) (f : Pll → Pll) : (s.modPll n f).rs = s.rs := rfl
@[simp] theorem State.modPll_otp (n : Nat) (f : Pll → Pll) : (s.modPll n f).otp = s.otp := rfl
@[simp] theorem State.modPll_sec (n : Nat) (f : Pll → Pll) : (s.modPll n f).sec = s.sec := rfl
@[simp] theorem State.modPll_arr (n : Nat) (f : Pll → Pll) : (s.modPll n f).arr = s.arr := rfl
@[simp] theorem State.modPll_pipe (n : Nat) (f : Pll → Pll) : (s.modPll n f).pipe = s.pipe := rfl
@[simp] theorem State.modPll_aux (n : Nat) (f : Pll → Pll) : (s.modPll n f).aux = s.aux := rfl
@[simp] theorem State.modPll_mem (n : Nat) (f : Pll → Pll) : (s.modPll n f).mem = s.mem := rfl
@[simp] theorem State.modPll_fm (n : Nat) (f : Pll → Pll) : (s.modPll n f).fm = s.fm := rfl
@[simp] theorem State.modPll_ring (n : Nat) (f : Pll → Pll) : (s.modPll n f).ring = s.ring := rfl
@[simp] theorem State.modPll_hold (n : Nat) (f : Pll → Pll) : (s.modPll n f).hold = s.hold := rfl
@[simp] theorem State.modPll_th (n : Nat) (f : Pll → Pll) : (s.modPll n f).th = s.th := rfl
@[simp] theorem State.modPll_pio (n : Nat) (f : Pll → Pll) : (s.modPll n f).pio = s.pio := rfl

@[simp] theorem State.modRing_pending (f : Ring → Ring) : (s.modRing f).pending = s.pending := rfl
@[simp] theorem State.modRing_clk (f : Ring → Ring) : (s.modRing f).clk = s.clk := rfl
@[simp] theorem State.modRing_free (f : Ring → Ring) : (s.modRing f).free = s.free := rfl
@[simp] theorem State.modRing_regs (f : Ring → Ring) : (s.modRing f).regs = s.regs := rfl
@[simp] theorem State.modRing_log (f : Ring → Ring) : (s.modRing f).log = s.log := rfl
@[simp] theorem State.modRing_leases (f : Ring → Ring) : (s.modRing f).leases = s.leases := rfl
@[simp] theorem State.modRing_leaseLog (f : Ring → Ring) : (s.modRing f).leaseLog = s.leaseLog := rfl
@[simp] theorem State.modRing_lastArrayHolder (f : Ring → Ring) : (s.modRing f).lastArrayHolder = s.lastArrayHolder := rfl
@[simp] theorem State.modRing_arrayLapsed (f : Ring → Ring) : (s.modRing f).arrayLapsed = s.arrayLapsed := rfl
@[simp] theorem State.modRing_ports (f : Ring → Ring) : (s.modRing f).ports = s.ports := rfl
@[simp] theorem State.modRing_sb (f : Ring → Ring) : (s.modRing f).sb = s.sb := rfl
@[simp] theorem State.modRing_fwq (f : Ring → Ring) : (s.modRing f).fwq = s.fwq := rfl
@[simp] theorem State.modRing_slow (f : Ring → Ring) : (s.modRing f).slow = s.slow := rfl
@[simp] theorem State.modRing_misses (f : Ring → Ring) : (s.modRing f).misses = s.misses := rfl
@[simp] theorem State.modRing_diag (f : Ring → Ring) : (s.modRing f).diag = s.diag := rfl
@[simp] theorem State.modRing_pw (f : Ring → Ring) : (s.modRing f).pw = s.pw := rfl
@[simp] theorem State.modRing_rs (f : Ring → Ring) : (s.modRing f).rs = s.rs := rfl
@[simp] theorem State.modRing_otp (f : Ring → Ring) : (s.modRing f).otp = s.otp := rfl
@[simp] theorem State.modRing_sec (f : Ring → Ring) : (s.modRing f).sec = s.sec := rfl
@[simp] theorem State.modRing_arr (f : Ring → Ring) : (s.modRing f).arr = s.arr := rfl
@[simp] theorem State.modRing_pipe (f : Ring → Ring) : (s.modRing f).pipe = s.pipe := rfl
@[simp] theorem State.modRing_aux (f : Ring → Ring) : (s.modRing f).aux = s.aux := rfl
@[simp] theorem State.modRing_mem (f : Ring → Ring) : (s.modRing f).mem = s.mem := rfl
@[simp] theorem State.modRing_fm (f : Ring → Ring) : (s.modRing f).fm = s.fm := rfl
@[simp] theorem State.modRing_ring (f : Ring → Ring) : (s.modRing f).ring = f s.ring := rfl
@[simp] theorem State.modRing_hold (f : Ring → Ring) : (s.modRing f).hold = s.hold := rfl
@[simp] theorem State.modRing_th (f : Ring → Ring) : (s.modRing f).th = s.th := rfl
@[simp] theorem State.modRing_pio (f : Ring → Ring) : (s.modRing f).pio = s.pio := rfl

@[simp] theorem State.modTherm_pending (f : Therm → Therm) : (s.modTherm f).pending = s.pending := rfl
@[simp] theorem State.modTherm_clk (f : Therm → Therm) : (s.modTherm f).clk = s.clk := rfl
@[simp] theorem State.modTherm_free (f : Therm → Therm) : (s.modTherm f).free = s.free := rfl
@[simp] theorem State.modTherm_regs (f : Therm → Therm) : (s.modTherm f).regs = s.regs := rfl
@[simp] theorem State.modTherm_log (f : Therm → Therm) : (s.modTherm f).log = s.log := rfl
@[simp] theorem State.modTherm_leases (f : Therm → Therm) : (s.modTherm f).leases = s.leases := rfl
@[simp] theorem State.modTherm_leaseLog (f : Therm → Therm) : (s.modTherm f).leaseLog = s.leaseLog := rfl
@[simp] theorem State.modTherm_lastArrayHolder (f : Therm → Therm) : (s.modTherm f).lastArrayHolder = s.lastArrayHolder := rfl
@[simp] theorem State.modTherm_arrayLapsed (f : Therm → Therm) : (s.modTherm f).arrayLapsed = s.arrayLapsed := rfl
@[simp] theorem State.modTherm_ports (f : Therm → Therm) : (s.modTherm f).ports = s.ports := rfl
@[simp] theorem State.modTherm_sb (f : Therm → Therm) : (s.modTherm f).sb = s.sb := rfl
@[simp] theorem State.modTherm_fwq (f : Therm → Therm) : (s.modTherm f).fwq = s.fwq := rfl
@[simp] theorem State.modTherm_slow (f : Therm → Therm) : (s.modTherm f).slow = s.slow := rfl
@[simp] theorem State.modTherm_misses (f : Therm → Therm) : (s.modTherm f).misses = s.misses := rfl
@[simp] theorem State.modTherm_diag (f : Therm → Therm) : (s.modTherm f).diag = s.diag := rfl
@[simp] theorem State.modTherm_pw (f : Therm → Therm) : (s.modTherm f).pw = s.pw := rfl
@[simp] theorem State.modTherm_rs (f : Therm → Therm) : (s.modTherm f).rs = s.rs := rfl
@[simp] theorem State.modTherm_otp (f : Therm → Therm) : (s.modTherm f).otp = s.otp := rfl
@[simp] theorem State.modTherm_sec (f : Therm → Therm) : (s.modTherm f).sec = s.sec := rfl
@[simp] theorem State.modTherm_arr (f : Therm → Therm) : (s.modTherm f).arr = s.arr := rfl
@[simp] theorem State.modTherm_pipe (f : Therm → Therm) : (s.modTherm f).pipe = s.pipe := rfl
@[simp] theorem State.modTherm_aux (f : Therm → Therm) : (s.modTherm f).aux = s.aux := rfl
@[simp] theorem State.modTherm_mem (f : Therm → Therm) : (s.modTherm f).mem = s.mem := rfl
@[simp] theorem State.modTherm_fm (f : Therm → Therm) : (s.modTherm f).fm = s.fm := rfl
@[simp] theorem State.modTherm_ring (f : Therm → Therm) : (s.modTherm f).ring = s.ring := rfl
@[simp] theorem State.modTherm_hold (f : Therm → Therm) : (s.modTherm f).hold = s.hold := rfl
@[simp] theorem State.modTherm_th (f : Therm → Therm) : (s.modTherm f).th = f s.th := rfl
@[simp] theorem State.modTherm_pio (f : Therm → Therm) : (s.modTherm f).pio = s.pio := rfl

@[simp] theorem State.modTmr_pending (n : Nat) (f : Tmr → Tmr) : (s.modTmr n f).pending = s.pending := rfl
@[simp] theorem State.modTmr_clk (n : Nat) (f : Tmr → Tmr) : (s.modTmr n f).clk = s.clk := rfl
@[simp] theorem State.modTmr_free (n : Nat) (f : Tmr → Tmr) : (s.modTmr n f).free = s.free := rfl
@[simp] theorem State.modTmr_regs (n : Nat) (f : Tmr → Tmr) : (s.modTmr n f).regs = s.regs := rfl
@[simp] theorem State.modTmr_log (n : Nat) (f : Tmr → Tmr) : (s.modTmr n f).log = s.log := rfl
@[simp] theorem State.modTmr_leases (n : Nat) (f : Tmr → Tmr) : (s.modTmr n f).leases = s.leases := rfl
@[simp] theorem State.modTmr_leaseLog (n : Nat) (f : Tmr → Tmr) : (s.modTmr n f).leaseLog = s.leaseLog := rfl
@[simp] theorem State.modTmr_lastArrayHolder (n : Nat) (f : Tmr → Tmr) : (s.modTmr n f).lastArrayHolder = s.lastArrayHolder := rfl
@[simp] theorem State.modTmr_arrayLapsed (n : Nat) (f : Tmr → Tmr) : (s.modTmr n f).arrayLapsed = s.arrayLapsed := rfl
@[simp] theorem State.modTmr_ports (n : Nat) (f : Tmr → Tmr) : (s.modTmr n f).ports = s.ports := rfl
@[simp] theorem State.modTmr_sb (n : Nat) (f : Tmr → Tmr) : (s.modTmr n f).sb = s.sb := rfl
@[simp] theorem State.modTmr_fwq (n : Nat) (f : Tmr → Tmr) : (s.modTmr n f).fwq = s.fwq := rfl
@[simp] theorem State.modTmr_slow (n : Nat) (f : Tmr → Tmr) : (s.modTmr n f).slow = s.slow := rfl
@[simp] theorem State.modTmr_misses (n : Nat) (f : Tmr → Tmr) : (s.modTmr n f).misses = s.misses := rfl
@[simp] theorem State.modTmr_diag (n : Nat) (f : Tmr → Tmr) : (s.modTmr n f).diag = s.diag := rfl
@[simp] theorem State.modTmr_pw (n : Nat) (f : Tmr → Tmr) : (s.modTmr n f).pw = s.pw := rfl
@[simp] theorem State.modTmr_rs (n : Nat) (f : Tmr → Tmr) : (s.modTmr n f).rs = s.rs := rfl
@[simp] theorem State.modTmr_otp (n : Nat) (f : Tmr → Tmr) : (s.modTmr n f).otp = s.otp := rfl
@[simp] theorem State.modTmr_sec (n : Nat) (f : Tmr → Tmr) : (s.modTmr n f).sec = s.sec := rfl
@[simp] theorem State.modTmr_arr (n : Nat) (f : Tmr → Tmr) : (s.modTmr n f).arr = s.arr := rfl
@[simp] theorem State.modTmr_pipe (n : Nat) (f : Tmr → Tmr) : (s.modTmr n f).pipe = s.pipe := rfl
@[simp] theorem State.modTmr_aux (n : Nat) (f : Tmr → Tmr) : (s.modTmr n f).aux = s.aux := rfl
@[simp] theorem State.modTmr_mem (n : Nat) (f : Tmr → Tmr) : (s.modTmr n f).mem = s.mem := rfl
@[simp] theorem State.modTmr_fm (n : Nat) (f : Tmr → Tmr) : (s.modTmr n f).fm = s.fm := rfl
@[simp] theorem State.modTmr_ring (n : Nat) (f : Tmr → Tmr) : (s.modTmr n f).ring = s.ring := rfl
@[simp] theorem State.modTmr_hold (n : Nat) (f : Tmr → Tmr) : (s.modTmr n f).hold = s.hold := rfl
@[simp] theorem State.modTmr_th (n : Nat) (f : Tmr → Tmr) : (s.modTmr n f).th = s.th := rfl
@[simp] theorem State.modTmr_pio (n : Nat) (f : Tmr → Tmr) : (s.modTmr n f).pio = { s.pio with tmr := modAt s.pio.tmr n f } := rfl

@[simp] theorem State.modPe_pending (n : Nat) (f : Pe → Pe) : (s.modPe n f).pending = s.pending := rfl
@[simp] theorem State.modPe_clk (n : Nat) (f : Pe → Pe) : (s.modPe n f).clk = s.clk := rfl
@[simp] theorem State.modPe_free (n : Nat) (f : Pe → Pe) : (s.modPe n f).free = s.free := rfl
@[simp] theorem State.modPe_regs (n : Nat) (f : Pe → Pe) : (s.modPe n f).regs = s.regs := rfl
@[simp] theorem State.modPe_log (n : Nat) (f : Pe → Pe) : (s.modPe n f).log = s.log := rfl
@[simp] theorem State.modPe_leases (n : Nat) (f : Pe → Pe) : (s.modPe n f).leases = s.leases := rfl
@[simp] theorem State.modPe_leaseLog (n : Nat) (f : Pe → Pe) : (s.modPe n f).leaseLog = s.leaseLog := rfl
@[simp] theorem State.modPe_lastArrayHolder (n : Nat) (f : Pe → Pe) : (s.modPe n f).lastArrayHolder = s.lastArrayHolder := rfl
@[simp] theorem State.modPe_arrayLapsed (n : Nat) (f : Pe → Pe) : (s.modPe n f).arrayLapsed = s.arrayLapsed := rfl
@[simp] theorem State.modPe_ports (n : Nat) (f : Pe → Pe) : (s.modPe n f).ports = s.ports := rfl
@[simp] theorem State.modPe_sb (n : Nat) (f : Pe → Pe) : (s.modPe n f).sb = s.sb := rfl
@[simp] theorem State.modPe_fwq (n : Nat) (f : Pe → Pe) : (s.modPe n f).fwq = s.fwq := rfl
@[simp] theorem State.modPe_slow (n : Nat) (f : Pe → Pe) : (s.modPe n f).slow = s.slow := rfl
@[simp] theorem State.modPe_misses (n : Nat) (f : Pe → Pe) : (s.modPe n f).misses = s.misses := rfl
@[simp] theorem State.modPe_diag (n : Nat) (f : Pe → Pe) : (s.modPe n f).diag = s.diag := rfl
@[simp] theorem State.modPe_pw (n : Nat) (f : Pe → Pe) : (s.modPe n f).pw = s.pw := rfl
@[simp] theorem State.modPe_rs (n : Nat) (f : Pe → Pe) : (s.modPe n f).rs = s.rs := rfl
@[simp] theorem State.modPe_otp (n : Nat) (f : Pe → Pe) : (s.modPe n f).otp = s.otp := rfl
@[simp] theorem State.modPe_sec (n : Nat) (f : Pe → Pe) : (s.modPe n f).sec = s.sec := rfl
@[simp] theorem State.modPe_arr (n : Nat) (f : Pe → Pe) : (s.modPe n f).arr = s.arr := rfl
@[simp] theorem State.modPe_pipe (n : Nat) (f : Pe → Pe) : (s.modPe n f).pipe = s.pipe := rfl
@[simp] theorem State.modPe_aux (n : Nat) (f : Pe → Pe) : (s.modPe n f).aux = s.aux := rfl
@[simp] theorem State.modPe_mem (n : Nat) (f : Pe → Pe) : (s.modPe n f).mem = s.mem := rfl
@[simp] theorem State.modPe_fm (n : Nat) (f : Pe → Pe) : (s.modPe n f).fm = s.fm := rfl
@[simp] theorem State.modPe_ring (n : Nat) (f : Pe → Pe) : (s.modPe n f).ring = s.ring := rfl
@[simp] theorem State.modPe_hold (n : Nat) (f : Pe → Pe) : (s.modPe n f).hold = s.hold := rfl
@[simp] theorem State.modPe_th (n : Nat) (f : Pe → Pe) : (s.modPe n f).th = s.th := rfl
@[simp] theorem State.modPe_pio (n : Nat) (f : Pe → Pe) : (s.modPe n f).pio = { s.pio with pe := modAt s.pio.pe n f } := rfl

@[simp] theorem State.modPipe_pending (f : Pipe → Pipe) : (s.modPipe f).pending = s.pending := rfl
@[simp] theorem State.modPipe_clk (f : Pipe → Pipe) : (s.modPipe f).clk = s.clk := rfl
@[simp] theorem State.modPipe_free (f : Pipe → Pipe) : (s.modPipe f).free = s.free := rfl
@[simp] theorem State.modPipe_regs (f : Pipe → Pipe) : (s.modPipe f).regs = s.regs := rfl
@[simp] theorem State.modPipe_log (f : Pipe → Pipe) : (s.modPipe f).log = s.log := rfl
@[simp] theorem State.modPipe_leases (f : Pipe → Pipe) : (s.modPipe f).leases = s.leases := rfl
@[simp] theorem State.modPipe_leaseLog (f : Pipe → Pipe) : (s.modPipe f).leaseLog = s.leaseLog := rfl
@[simp] theorem State.modPipe_lastArrayHolder (f : Pipe → Pipe) : (s.modPipe f).lastArrayHolder = s.lastArrayHolder := rfl
@[simp] theorem State.modPipe_arrayLapsed (f : Pipe → Pipe) : (s.modPipe f).arrayLapsed = s.arrayLapsed := rfl
@[simp] theorem State.modPipe_ports (f : Pipe → Pipe) : (s.modPipe f).ports = s.ports := rfl
@[simp] theorem State.modPipe_sb (f : Pipe → Pipe) : (s.modPipe f).sb = s.sb := rfl
@[simp] theorem State.modPipe_fwq (f : Pipe → Pipe) : (s.modPipe f).fwq = s.fwq := rfl
@[simp] theorem State.modPipe_slow (f : Pipe → Pipe) : (s.modPipe f).slow = s.slow := rfl
@[simp] theorem State.modPipe_misses (f : Pipe → Pipe) : (s.modPipe f).misses = s.misses := rfl
@[simp] theorem State.modPipe_diag (f : Pipe → Pipe) : (s.modPipe f).diag = s.diag := rfl
@[simp] theorem State.modPipe_pw (f : Pipe → Pipe) : (s.modPipe f).pw = s.pw := rfl
@[simp] theorem State.modPipe_rs (f : Pipe → Pipe) : (s.modPipe f).rs = s.rs := rfl
@[simp] theorem State.modPipe_otp (f : Pipe → Pipe) : (s.modPipe f).otp = s.otp := rfl
@[simp] theorem State.modPipe_sec (f : Pipe → Pipe) : (s.modPipe f).sec = s.sec := rfl
@[simp] theorem State.modPipe_arr (f : Pipe → Pipe) : (s.modPipe f).arr = s.arr := rfl
@[simp] theorem State.modPipe_pipe (f : Pipe → Pipe) : (s.modPipe f).pipe = f s.pipe := rfl
@[simp] theorem State.modPipe_aux (f : Pipe → Pipe) : (s.modPipe f).aux = s.aux := rfl
@[simp] theorem State.modPipe_mem (f : Pipe → Pipe) : (s.modPipe f).mem = s.mem := rfl
@[simp] theorem State.modPipe_fm (f : Pipe → Pipe) : (s.modPipe f).fm = s.fm := rfl
@[simp] theorem State.modPipe_ring (f : Pipe → Pipe) : (s.modPipe f).ring = s.ring := rfl
@[simp] theorem State.modPipe_hold (f : Pipe → Pipe) : (s.modPipe f).hold = s.hold := rfl
@[simp] theorem State.modPipe_th (f : Pipe → Pipe) : (s.modPipe f).th = s.th := rfl
@[simp] theorem State.modPipe_pio (f : Pipe → Pipe) : (s.modPipe f).pio = s.pio := rfl

@[simp] theorem State.modView_pending (n : Nat) (f : View → View) : (s.modView n f).pending = s.pending := rfl
@[simp] theorem State.modView_clk (n : Nat) (f : View → View) : (s.modView n f).clk = s.clk := rfl
@[simp] theorem State.modView_free (n : Nat) (f : View → View) : (s.modView n f).free = s.free := rfl
@[simp] theorem State.modView_regs (n : Nat) (f : View → View) : (s.modView n f).regs = s.regs := rfl
@[simp] theorem State.modView_log (n : Nat) (f : View → View) : (s.modView n f).log = s.log := rfl
@[simp] theorem State.modView_leases (n : Nat) (f : View → View) : (s.modView n f).leases = s.leases := rfl
@[simp] theorem State.modView_leaseLog (n : Nat) (f : View → View) : (s.modView n f).leaseLog = s.leaseLog := rfl
@[simp] theorem State.modView_lastArrayHolder (n : Nat) (f : View → View) : (s.modView n f).lastArrayHolder = s.lastArrayHolder := rfl
@[simp] theorem State.modView_arrayLapsed (n : Nat) (f : View → View) : (s.modView n f).arrayLapsed = s.arrayLapsed := rfl
@[simp] theorem State.modView_ports (n : Nat) (f : View → View) : (s.modView n f).ports = s.ports := rfl
@[simp] theorem State.modView_sb (n : Nat) (f : View → View) : (s.modView n f).sb = s.sb := rfl
@[simp] theorem State.modView_fwq (n : Nat) (f : View → View) : (s.modView n f).fwq = s.fwq := rfl
@[simp] theorem State.modView_slow (n : Nat) (f : View → View) : (s.modView n f).slow = s.slow := rfl
@[simp] theorem State.modView_misses (n : Nat) (f : View → View) : (s.modView n f).misses = s.misses := rfl
@[simp] theorem State.modView_diag (n : Nat) (f : View → View) : (s.modView n f).diag = s.diag := rfl
@[simp] theorem State.modView_pw (n : Nat) (f : View → View) : (s.modView n f).pw = s.pw := rfl
@[simp] theorem State.modView_rs (n : Nat) (f : View → View) : (s.modView n f).rs = s.rs := rfl
@[simp] theorem State.modView_otp (n : Nat) (f : View → View) : (s.modView n f).otp = s.otp := rfl
@[simp] theorem State.modView_sec (n : Nat) (f : View → View) : (s.modView n f).sec = s.sec := rfl
@[simp] theorem State.modView_arr (n : Nat) (f : View → View) : (s.modView n f).arr = s.arr := rfl
@[simp] theorem State.modView_pipe (n : Nat) (f : View → View) : (s.modView n f).pipe = { s.pipe with views := modAt s.pipe.views n f } := rfl
@[simp] theorem State.modView_aux (n : Nat) (f : View → View) : (s.modView n f).aux = s.aux := rfl
@[simp] theorem State.modView_mem (n : Nat) (f : View → View) : (s.modView n f).mem = s.mem := rfl
@[simp] theorem State.modView_fm (n : Nat) (f : View → View) : (s.modView n f).fm = s.fm := rfl
@[simp] theorem State.modView_ring (n : Nat) (f : View → View) : (s.modView n f).ring = s.ring := rfl
@[simp] theorem State.modView_hold (n : Nat) (f : View → View) : (s.modView n f).hold = s.hold := rfl
@[simp] theorem State.modView_th (n : Nat) (f : View → View) : (s.modView n f).th = s.th := rfl
@[simp] theorem State.modView_pio (n : Nat) (f : View → View) : (s.modView n f).pio = s.pio := rfl

@[simp] theorem State.setFld_pending (a hi lo v : Nat) : (s.setFld a hi lo v).pending = s.pending := rfl
@[simp] theorem State.setFld_clk (a hi lo v : Nat) : (s.setFld a hi lo v).clk = s.clk := rfl
@[simp] theorem State.setFld_free (a hi lo v : Nat) : (s.setFld a hi lo v).free = s.free := rfl
@[simp] theorem State.setFld_log (a hi lo v : Nat) : (s.setFld a hi lo v).log = s.log := rfl
@[simp] theorem State.setFld_leases (a hi lo v : Nat) : (s.setFld a hi lo v).leases = s.leases := rfl
@[simp] theorem State.setFld_leaseLog (a hi lo v : Nat) : (s.setFld a hi lo v).leaseLog = s.leaseLog := rfl
@[simp] theorem State.setFld_lastArrayHolder (a hi lo v : Nat) : (s.setFld a hi lo v).lastArrayHolder = s.lastArrayHolder := rfl
@[simp] theorem State.setFld_arrayLapsed (a hi lo v : Nat) : (s.setFld a hi lo v).arrayLapsed = s.arrayLapsed := rfl
@[simp] theorem State.setFld_ports (a hi lo v : Nat) : (s.setFld a hi lo v).ports = s.ports := rfl
@[simp] theorem State.setFld_sb (a hi lo v : Nat) : (s.setFld a hi lo v).sb = s.sb := rfl
@[simp] theorem State.setFld_fwq (a hi lo v : Nat) : (s.setFld a hi lo v).fwq = s.fwq := rfl
@[simp] theorem State.setFld_slow (a hi lo v : Nat) : (s.setFld a hi lo v).slow = s.slow := rfl
@[simp] theorem State.setFld_misses (a hi lo v : Nat) : (s.setFld a hi lo v).misses = s.misses := rfl
@[simp] theorem State.setFld_diag (a hi lo v : Nat) : (s.setFld a hi lo v).diag = s.diag := rfl
@[simp] theorem State.setFld_pw (a hi lo v : Nat) : (s.setFld a hi lo v).pw = s.pw := rfl
@[simp] theorem State.setFld_rs (a hi lo v : Nat) : (s.setFld a hi lo v).rs = s.rs := rfl
@[simp] theorem State.setFld_otp (a hi lo v : Nat) : (s.setFld a hi lo v).otp = s.otp := rfl
@[simp] theorem State.setFld_sec (a hi lo v : Nat) : (s.setFld a hi lo v).sec = s.sec := rfl
@[simp] theorem State.setFld_arr (a hi lo v : Nat) : (s.setFld a hi lo v).arr = s.arr := rfl
@[simp] theorem State.setFld_pipe (a hi lo v : Nat) : (s.setFld a hi lo v).pipe = s.pipe := rfl
@[simp] theorem State.setFld_aux (a hi lo v : Nat) : (s.setFld a hi lo v).aux = s.aux := rfl
@[simp] theorem State.setFld_mem (a hi lo v : Nat) : (s.setFld a hi lo v).mem = s.mem := rfl
@[simp] theorem State.setFld_fm (a hi lo v : Nat) : (s.setFld a hi lo v).fm = s.fm := rfl
@[simp] theorem State.setFld_ring (a hi lo v : Nat) : (s.setFld a hi lo v).ring = s.ring := rfl
@[simp] theorem State.setFld_hold (a hi lo v : Nat) : (s.setFld a hi lo v).hold = s.hold := rfl
@[simp] theorem State.setFld_th (a hi lo v : Nat) : (s.setFld a hi lo v).th = s.th := rfl
@[simp] theorem State.setFld_pio (a hi lo v : Nat) : (s.setFld a hi lo v).pio = s.pio := rfl

@[simp] theorem State.bump_pending (a hi lo n : Nat) : (s.bump a hi lo n).pending = s.pending := rfl
@[simp] theorem State.bump_clk (a hi lo n : Nat) : (s.bump a hi lo n).clk = s.clk := rfl
@[simp] theorem State.bump_free (a hi lo n : Nat) : (s.bump a hi lo n).free = s.free := rfl
@[simp] theorem State.bump_log (a hi lo n : Nat) : (s.bump a hi lo n).log = s.log := rfl
@[simp] theorem State.bump_leases (a hi lo n : Nat) : (s.bump a hi lo n).leases = s.leases := rfl
@[simp] theorem State.bump_leaseLog (a hi lo n : Nat) : (s.bump a hi lo n).leaseLog = s.leaseLog := rfl
@[simp] theorem State.bump_lastArrayHolder (a hi lo n : Nat) : (s.bump a hi lo n).lastArrayHolder = s.lastArrayHolder := rfl
@[simp] theorem State.bump_arrayLapsed (a hi lo n : Nat) : (s.bump a hi lo n).arrayLapsed = s.arrayLapsed := rfl
@[simp] theorem State.bump_ports (a hi lo n : Nat) : (s.bump a hi lo n).ports = s.ports := rfl
@[simp] theorem State.bump_sb (a hi lo n : Nat) : (s.bump a hi lo n).sb = s.sb := rfl
@[simp] theorem State.bump_fwq (a hi lo n : Nat) : (s.bump a hi lo n).fwq = s.fwq := rfl
@[simp] theorem State.bump_slow (a hi lo n : Nat) : (s.bump a hi lo n).slow = s.slow := rfl
@[simp] theorem State.bump_misses (a hi lo n : Nat) : (s.bump a hi lo n).misses = s.misses := rfl
@[simp] theorem State.bump_diag (a hi lo n : Nat) : (s.bump a hi lo n).diag = s.diag := rfl
@[simp] theorem State.bump_pw (a hi lo n : Nat) : (s.bump a hi lo n).pw = s.pw := rfl
@[simp] theorem State.bump_rs (a hi lo n : Nat) : (s.bump a hi lo n).rs = s.rs := rfl
@[simp] theorem State.bump_otp (a hi lo n : Nat) : (s.bump a hi lo n).otp = s.otp := rfl
@[simp] theorem State.bump_sec (a hi lo n : Nat) : (s.bump a hi lo n).sec = s.sec := rfl
@[simp] theorem State.bump_arr (a hi lo n : Nat) : (s.bump a hi lo n).arr = s.arr := rfl
@[simp] theorem State.bump_pipe (a hi lo n : Nat) : (s.bump a hi lo n).pipe = s.pipe := rfl
@[simp] theorem State.bump_aux (a hi lo n : Nat) : (s.bump a hi lo n).aux = s.aux := rfl
@[simp] theorem State.bump_mem (a hi lo n : Nat) : (s.bump a hi lo n).mem = s.mem := rfl
@[simp] theorem State.bump_fm (a hi lo n : Nat) : (s.bump a hi lo n).fm = s.fm := rfl
@[simp] theorem State.bump_ring (a hi lo n : Nat) : (s.bump a hi lo n).ring = s.ring := rfl
@[simp] theorem State.bump_hold (a hi lo n : Nat) : (s.bump a hi lo n).hold = s.hold := rfl
@[simp] theorem State.bump_th (a hi lo n : Nat) : (s.bump a hi lo n).th = s.th := rfl
@[simp] theorem State.bump_pio (a hi lo n : Nat) : (s.bump a hi lo n).pio = s.pio := rfl

@[simp] theorem State.bumpWrap_pending (a hi lo n : Nat) : (s.bumpWrap a hi lo n).pending = s.pending := rfl
@[simp] theorem State.bumpWrap_clk (a hi lo n : Nat) : (s.bumpWrap a hi lo n).clk = s.clk := rfl
@[simp] theorem State.bumpWrap_free (a hi lo n : Nat) : (s.bumpWrap a hi lo n).free = s.free := rfl
@[simp] theorem State.bumpWrap_log (a hi lo n : Nat) : (s.bumpWrap a hi lo n).log = s.log := rfl
@[simp] theorem State.bumpWrap_leases (a hi lo n : Nat) : (s.bumpWrap a hi lo n).leases = s.leases := rfl
@[simp] theorem State.bumpWrap_leaseLog (a hi lo n : Nat) : (s.bumpWrap a hi lo n).leaseLog = s.leaseLog := rfl
@[simp] theorem State.bumpWrap_lastArrayHolder (a hi lo n : Nat) : (s.bumpWrap a hi lo n).lastArrayHolder = s.lastArrayHolder := rfl
@[simp] theorem State.bumpWrap_arrayLapsed (a hi lo n : Nat) : (s.bumpWrap a hi lo n).arrayLapsed = s.arrayLapsed := rfl
@[simp] theorem State.bumpWrap_ports (a hi lo n : Nat) : (s.bumpWrap a hi lo n).ports = s.ports := rfl
@[simp] theorem State.bumpWrap_sb (a hi lo n : Nat) : (s.bumpWrap a hi lo n).sb = s.sb := rfl
@[simp] theorem State.bumpWrap_fwq (a hi lo n : Nat) : (s.bumpWrap a hi lo n).fwq = s.fwq := rfl
@[simp] theorem State.bumpWrap_slow (a hi lo n : Nat) : (s.bumpWrap a hi lo n).slow = s.slow := rfl
@[simp] theorem State.bumpWrap_misses (a hi lo n : Nat) : (s.bumpWrap a hi lo n).misses = s.misses := rfl
@[simp] theorem State.bumpWrap_diag (a hi lo n : Nat) : (s.bumpWrap a hi lo n).diag = s.diag := rfl
@[simp] theorem State.bumpWrap_pw (a hi lo n : Nat) : (s.bumpWrap a hi lo n).pw = s.pw := rfl
@[simp] theorem State.bumpWrap_rs (a hi lo n : Nat) : (s.bumpWrap a hi lo n).rs = s.rs := rfl
@[simp] theorem State.bumpWrap_otp (a hi lo n : Nat) : (s.bumpWrap a hi lo n).otp = s.otp := rfl
@[simp] theorem State.bumpWrap_sec (a hi lo n : Nat) : (s.bumpWrap a hi lo n).sec = s.sec := rfl
@[simp] theorem State.bumpWrap_arr (a hi lo n : Nat) : (s.bumpWrap a hi lo n).arr = s.arr := rfl
@[simp] theorem State.bumpWrap_pipe (a hi lo n : Nat) : (s.bumpWrap a hi lo n).pipe = s.pipe := rfl
@[simp] theorem State.bumpWrap_aux (a hi lo n : Nat) : (s.bumpWrap a hi lo n).aux = s.aux := rfl
@[simp] theorem State.bumpWrap_mem (a hi lo n : Nat) : (s.bumpWrap a hi lo n).mem = s.mem := rfl
@[simp] theorem State.bumpWrap_fm (a hi lo n : Nat) : (s.bumpWrap a hi lo n).fm = s.fm := rfl
@[simp] theorem State.bumpWrap_ring (a hi lo n : Nat) : (s.bumpWrap a hi lo n).ring = s.ring := rfl
@[simp] theorem State.bumpWrap_hold (a hi lo n : Nat) : (s.bumpWrap a hi lo n).hold = s.hold := rfl
@[simp] theorem State.bumpWrap_th (a hi lo n : Nat) : (s.bumpWrap a hi lo n).th = s.th := rfl
@[simp] theorem State.bumpWrap_pio (a hi lo n : Nat) : (s.bumpWrap a hi lo n).pio = s.pio := rfl

@[simp] theorem State.modMbx_pending (p : PortIx) (f : Mbx → Mbx) : (s.modMbx p f).pending = s.pending := rfl
@[simp] theorem State.modMbx_clk (p : PortIx) (f : Mbx → Mbx) : (s.modMbx p f).clk = s.clk := rfl
@[simp] theorem State.modMbx_free (p : PortIx) (f : Mbx → Mbx) : (s.modMbx p f).free = s.free := rfl
@[simp] theorem State.modMbx_regs (p : PortIx) (f : Mbx → Mbx) : (s.modMbx p f).regs = s.regs := rfl
@[simp] theorem State.modMbx_log (p : PortIx) (f : Mbx → Mbx) : (s.modMbx p f).log = s.log := rfl
@[simp] theorem State.modMbx_leases (p : PortIx) (f : Mbx → Mbx) : (s.modMbx p f).leases = s.leases := rfl
@[simp] theorem State.modMbx_leaseLog (p : PortIx) (f : Mbx → Mbx) : (s.modMbx p f).leaseLog = s.leaseLog := rfl
@[simp] theorem State.modMbx_lastArrayHolder (p : PortIx) (f : Mbx → Mbx) : (s.modMbx p f).lastArrayHolder = s.lastArrayHolder := rfl
@[simp] theorem State.modMbx_arrayLapsed (p : PortIx) (f : Mbx → Mbx) : (s.modMbx p f).arrayLapsed = s.arrayLapsed := rfl
@[simp] theorem State.modMbx_sb (p : PortIx) (f : Mbx → Mbx) : (s.modMbx p f).sb = s.sb := rfl
@[simp] theorem State.modMbx_fwq (p : PortIx) (f : Mbx → Mbx) : (s.modMbx p f).fwq = s.fwq := rfl
@[simp] theorem State.modMbx_slow (p : PortIx) (f : Mbx → Mbx) : (s.modMbx p f).slow = s.slow := rfl
@[simp] theorem State.modMbx_misses (p : PortIx) (f : Mbx → Mbx) : (s.modMbx p f).misses = s.misses := rfl
@[simp] theorem State.modMbx_diag (p : PortIx) (f : Mbx → Mbx) : (s.modMbx p f).diag = s.diag := rfl
@[simp] theorem State.modMbx_pw (p : PortIx) (f : Mbx → Mbx) : (s.modMbx p f).pw = s.pw := rfl
@[simp] theorem State.modMbx_rs (p : PortIx) (f : Mbx → Mbx) : (s.modMbx p f).rs = s.rs := rfl
@[simp] theorem State.modMbx_otp (p : PortIx) (f : Mbx → Mbx) : (s.modMbx p f).otp = s.otp := rfl
@[simp] theorem State.modMbx_sec (p : PortIx) (f : Mbx → Mbx) : (s.modMbx p f).sec = s.sec := rfl
@[simp] theorem State.modMbx_arr (p : PortIx) (f : Mbx → Mbx) : (s.modMbx p f).arr = s.arr := rfl
@[simp] theorem State.modMbx_pipe (p : PortIx) (f : Mbx → Mbx) : (s.modMbx p f).pipe = s.pipe := rfl
@[simp] theorem State.modMbx_aux (p : PortIx) (f : Mbx → Mbx) : (s.modMbx p f).aux = s.aux := rfl
@[simp] theorem State.modMbx_mem (p : PortIx) (f : Mbx → Mbx) : (s.modMbx p f).mem = s.mem := rfl
@[simp] theorem State.modMbx_fm (p : PortIx) (f : Mbx → Mbx) : (s.modMbx p f).fm = s.fm := rfl
@[simp] theorem State.modMbx_ring (p : PortIx) (f : Mbx → Mbx) : (s.modMbx p f).ring = s.ring := rfl
@[simp] theorem State.modMbx_hold (p : PortIx) (f : Mbx → Mbx) : (s.modMbx p f).hold = s.hold := rfl
@[simp] theorem State.modMbx_th (p : PortIx) (f : Mbx → Mbx) : (s.modMbx p f).th = s.th := rfl
@[simp] theorem State.modMbx_pio (p : PortIx) (f : Mbx → Mbx) : (s.modMbx p f).pio = s.pio := rfl

@[simp] theorem State.modTr_pending (p : PortIx) (f : Train → Train) : (s.modTr p f).pending = s.pending := rfl
@[simp] theorem State.modTr_clk (p : PortIx) (f : Train → Train) : (s.modTr p f).clk = s.clk := rfl
@[simp] theorem State.modTr_free (p : PortIx) (f : Train → Train) : (s.modTr p f).free = s.free := rfl
@[simp] theorem State.modTr_regs (p : PortIx) (f : Train → Train) : (s.modTr p f).regs = s.regs := rfl
@[simp] theorem State.modTr_log (p : PortIx) (f : Train → Train) : (s.modTr p f).log = s.log := rfl
@[simp] theorem State.modTr_leases (p : PortIx) (f : Train → Train) : (s.modTr p f).leases = s.leases := rfl
@[simp] theorem State.modTr_leaseLog (p : PortIx) (f : Train → Train) : (s.modTr p f).leaseLog = s.leaseLog := rfl
@[simp] theorem State.modTr_lastArrayHolder (p : PortIx) (f : Train → Train) : (s.modTr p f).lastArrayHolder = s.lastArrayHolder := rfl
@[simp] theorem State.modTr_arrayLapsed (p : PortIx) (f : Train → Train) : (s.modTr p f).arrayLapsed = s.arrayLapsed := rfl
@[simp] theorem State.modTr_sb (p : PortIx) (f : Train → Train) : (s.modTr p f).sb = s.sb := rfl
@[simp] theorem State.modTr_fwq (p : PortIx) (f : Train → Train) : (s.modTr p f).fwq = s.fwq := rfl
@[simp] theorem State.modTr_slow (p : PortIx) (f : Train → Train) : (s.modTr p f).slow = s.slow := rfl
@[simp] theorem State.modTr_misses (p : PortIx) (f : Train → Train) : (s.modTr p f).misses = s.misses := rfl
@[simp] theorem State.modTr_diag (p : PortIx) (f : Train → Train) : (s.modTr p f).diag = s.diag := rfl
@[simp] theorem State.modTr_pw (p : PortIx) (f : Train → Train) : (s.modTr p f).pw = s.pw := rfl
@[simp] theorem State.modTr_rs (p : PortIx) (f : Train → Train) : (s.modTr p f).rs = s.rs := rfl
@[simp] theorem State.modTr_otp (p : PortIx) (f : Train → Train) : (s.modTr p f).otp = s.otp := rfl
@[simp] theorem State.modTr_sec (p : PortIx) (f : Train → Train) : (s.modTr p f).sec = s.sec := rfl
@[simp] theorem State.modTr_arr (p : PortIx) (f : Train → Train) : (s.modTr p f).arr = s.arr := rfl
@[simp] theorem State.modTr_pipe (p : PortIx) (f : Train → Train) : (s.modTr p f).pipe = s.pipe := rfl
@[simp] theorem State.modTr_aux (p : PortIx) (f : Train → Train) : (s.modTr p f).aux = s.aux := rfl
@[simp] theorem State.modTr_mem (p : PortIx) (f : Train → Train) : (s.modTr p f).mem = s.mem := rfl
@[simp] theorem State.modTr_fm (p : PortIx) (f : Train → Train) : (s.modTr p f).fm = s.fm := rfl
@[simp] theorem State.modTr_ring (p : PortIx) (f : Train → Train) : (s.modTr p f).ring = s.ring := rfl
@[simp] theorem State.modTr_hold (p : PortIx) (f : Train → Train) : (s.modTr p f).hold = s.hold := rfl
@[simp] theorem State.modTr_th (p : PortIx) (f : Train → Train) : (s.modTr p f).th = s.th := rfl
@[simp] theorem State.modTr_pio (p : PortIx) (f : Train → Train) : (s.modTr p f).pio = s.pio := rfl

@[simp] theorem State.modPhy_pending (p : PortIx) (f : Phy → Phy) : (s.modPhy p f).pending = s.pending := rfl
@[simp] theorem State.modPhy_clk (p : PortIx) (f : Phy → Phy) : (s.modPhy p f).clk = s.clk := rfl
@[simp] theorem State.modPhy_free (p : PortIx) (f : Phy → Phy) : (s.modPhy p f).free = s.free := rfl
@[simp] theorem State.modPhy_regs (p : PortIx) (f : Phy → Phy) : (s.modPhy p f).regs = s.regs := rfl
@[simp] theorem State.modPhy_log (p : PortIx) (f : Phy → Phy) : (s.modPhy p f).log = s.log := rfl
@[simp] theorem State.modPhy_leases (p : PortIx) (f : Phy → Phy) : (s.modPhy p f).leases = s.leases := rfl
@[simp] theorem State.modPhy_leaseLog (p : PortIx) (f : Phy → Phy) : (s.modPhy p f).leaseLog = s.leaseLog := rfl
@[simp] theorem State.modPhy_lastArrayHolder (p : PortIx) (f : Phy → Phy) : (s.modPhy p f).lastArrayHolder = s.lastArrayHolder := rfl
@[simp] theorem State.modPhy_arrayLapsed (p : PortIx) (f : Phy → Phy) : (s.modPhy p f).arrayLapsed = s.arrayLapsed := rfl
@[simp] theorem State.modPhy_sb (p : PortIx) (f : Phy → Phy) : (s.modPhy p f).sb = s.sb := rfl
@[simp] theorem State.modPhy_fwq (p : PortIx) (f : Phy → Phy) : (s.modPhy p f).fwq = s.fwq := rfl
@[simp] theorem State.modPhy_slow (p : PortIx) (f : Phy → Phy) : (s.modPhy p f).slow = s.slow := rfl
@[simp] theorem State.modPhy_misses (p : PortIx) (f : Phy → Phy) : (s.modPhy p f).misses = s.misses := rfl
@[simp] theorem State.modPhy_diag (p : PortIx) (f : Phy → Phy) : (s.modPhy p f).diag = s.diag := rfl
@[simp] theorem State.modPhy_pw (p : PortIx) (f : Phy → Phy) : (s.modPhy p f).pw = s.pw := rfl
@[simp] theorem State.modPhy_rs (p : PortIx) (f : Phy → Phy) : (s.modPhy p f).rs = s.rs := rfl
@[simp] theorem State.modPhy_otp (p : PortIx) (f : Phy → Phy) : (s.modPhy p f).otp = s.otp := rfl
@[simp] theorem State.modPhy_sec (p : PortIx) (f : Phy → Phy) : (s.modPhy p f).sec = s.sec := rfl
@[simp] theorem State.modPhy_arr (p : PortIx) (f : Phy → Phy) : (s.modPhy p f).arr = s.arr := rfl
@[simp] theorem State.modPhy_pipe (p : PortIx) (f : Phy → Phy) : (s.modPhy p f).pipe = s.pipe := rfl
@[simp] theorem State.modPhy_aux (p : PortIx) (f : Phy → Phy) : (s.modPhy p f).aux = s.aux := rfl
@[simp] theorem State.modPhy_mem (p : PortIx) (f : Phy → Phy) : (s.modPhy p f).mem = s.mem := rfl
@[simp] theorem State.modPhy_fm (p : PortIx) (f : Phy → Phy) : (s.modPhy p f).fm = s.fm := rfl
@[simp] theorem State.modPhy_ring (p : PortIx) (f : Phy → Phy) : (s.modPhy p f).ring = s.ring := rfl
@[simp] theorem State.modPhy_hold (p : PortIx) (f : Phy → Phy) : (s.modPhy p f).hold = s.hold := rfl
@[simp] theorem State.modPhy_th (p : PortIx) (f : Phy → Phy) : (s.modPhy p f).th = s.th := rfl
@[simp] theorem State.modPhy_pio (p : PortIx) (f : Phy → Phy) : (s.modPhy p f).pio = s.pio := rfl

@[simp] theorem State.modRel_pending (p : PortIx) (f : Rel → Rel) : (s.modRel p f).pending = s.pending := rfl
@[simp] theorem State.modRel_clk (p : PortIx) (f : Rel → Rel) : (s.modRel p f).clk = s.clk := rfl
@[simp] theorem State.modRel_free (p : PortIx) (f : Rel → Rel) : (s.modRel p f).free = s.free := rfl
@[simp] theorem State.modRel_regs (p : PortIx) (f : Rel → Rel) : (s.modRel p f).regs = s.regs := rfl
@[simp] theorem State.modRel_log (p : PortIx) (f : Rel → Rel) : (s.modRel p f).log = s.log := rfl
@[simp] theorem State.modRel_leases (p : PortIx) (f : Rel → Rel) : (s.modRel p f).leases = s.leases := rfl
@[simp] theorem State.modRel_leaseLog (p : PortIx) (f : Rel → Rel) : (s.modRel p f).leaseLog = s.leaseLog := rfl
@[simp] theorem State.modRel_lastArrayHolder (p : PortIx) (f : Rel → Rel) : (s.modRel p f).lastArrayHolder = s.lastArrayHolder := rfl
@[simp] theorem State.modRel_arrayLapsed (p : PortIx) (f : Rel → Rel) : (s.modRel p f).arrayLapsed = s.arrayLapsed := rfl
@[simp] theorem State.modRel_sb (p : PortIx) (f : Rel → Rel) : (s.modRel p f).sb = s.sb := rfl
@[simp] theorem State.modRel_fwq (p : PortIx) (f : Rel → Rel) : (s.modRel p f).fwq = s.fwq := rfl
@[simp] theorem State.modRel_slow (p : PortIx) (f : Rel → Rel) : (s.modRel p f).slow = s.slow := rfl
@[simp] theorem State.modRel_misses (p : PortIx) (f : Rel → Rel) : (s.modRel p f).misses = s.misses := rfl
@[simp] theorem State.modRel_diag (p : PortIx) (f : Rel → Rel) : (s.modRel p f).diag = s.diag := rfl
@[simp] theorem State.modRel_pw (p : PortIx) (f : Rel → Rel) : (s.modRel p f).pw = s.pw := rfl
@[simp] theorem State.modRel_rs (p : PortIx) (f : Rel → Rel) : (s.modRel p f).rs = s.rs := rfl
@[simp] theorem State.modRel_otp (p : PortIx) (f : Rel → Rel) : (s.modRel p f).otp = s.otp := rfl
@[simp] theorem State.modRel_sec (p : PortIx) (f : Rel → Rel) : (s.modRel p f).sec = s.sec := rfl
@[simp] theorem State.modRel_arr (p : PortIx) (f : Rel → Rel) : (s.modRel p f).arr = s.arr := rfl
@[simp] theorem State.modRel_pipe (p : PortIx) (f : Rel → Rel) : (s.modRel p f).pipe = s.pipe := rfl
@[simp] theorem State.modRel_aux (p : PortIx) (f : Rel → Rel) : (s.modRel p f).aux = s.aux := rfl
@[simp] theorem State.modRel_mem (p : PortIx) (f : Rel → Rel) : (s.modRel p f).mem = s.mem := rfl
@[simp] theorem State.modRel_fm (p : PortIx) (f : Rel → Rel) : (s.modRel p f).fm = s.fm := rfl
@[simp] theorem State.modRel_ring (p : PortIx) (f : Rel → Rel) : (s.modRel p f).ring = s.ring := rfl
@[simp] theorem State.modRel_hold (p : PortIx) (f : Rel → Rel) : (s.modRel p f).hold = s.hold := rfl
@[simp] theorem State.modRel_th (p : PortIx) (f : Rel → Rel) : (s.modRel p f).th = s.th := rfl
@[simp] theorem State.modRel_pio (p : PortIx) (f : Rel → Rel) : (s.modRel p f).pio = s.pio := rfl

end Sys2Proof.Machine
end

