-- ==== Sys2Proof/Laws/Ops.lean ====
section
/-! SUPPORT. One lemma for each shared operation that says what it can do: a host command acts, is refused or is not served; an event
takes place or lets time pass. -/

namespace Sys2Proof.Machine

/-! ## Events -/

theorem event_due {s : State} {t : Time} {due : State → Bool} {act : State → State} (h : due (s.at t) = true) :
    event s t due act = .next (act (s.at t)) := by simp [event, h]

theorem event_not_due {s : State} {t : Time} {due : State → Bool} {act : State → State} (h : due (s.at t) = false) :
    event s t due act = .next (s.at t) := by simp [event, h]

/-- Everything an event can do. -/
theorem event_cases {s s' : State} {t : Time} {due : State → Bool} {act : State → State} (h : event s t due act = .next s') :
    (due (s.at t) = true ∧ s' = act (s.at t)) ∨ (due (s.at t) = false ∧ s' = s.at t) := by
  cases hd : due (s.at t) with
  | true => rw [event_due hd] at h; cases h; exact .inl ⟨rfl, rfl⟩
  | false => rw [event_not_due hd] at h; cases h; exact .inr ⟨rfl, rfl⟩

theorem event_answers (s : State) (t : Time) (due : State → Bool) (act : State → State) : ∃ s', event s t due act = .next s' := by
  cases hd : due (s.at t) with
  | true => exact ⟨_, event_due hd⟩
  | false => exact ⟨_, event_not_due hd⟩

/-! ## Refusals -/

/-- A list of conditions that all hold refuses nothing. -/
theorem judge_none {l : List (Option Reject)} (h : ∀ x ∈ l, x = none) : judge l = none := by
  induction l with
  | nil => rfl
  | cons a r ih =>
    have ha := h a (by simp)
    subst ha
    exact ih (fun x hx => h x (by simp [hx]))

@[simp] theorem judge_nil : judge [] = none := rfl
@[simp] theorem judge_cons_none (r : List (Option Reject)) : judge (none :: r) = judge r := rfl

theorem need_true {b : Bool} {st : Status} {d : Nat} (h : b = true) : need b st d = none := by simp [need, h]
@[simp] theorem need_eq_none (b : Bool) (st : Status) (d : Nat) : need b st d = none ↔ b = true := by
  cases b <;> simp [need]
@[simp] theorem argOk_eq_none (b : Bool) (o : Nat) : argOk b o = none ↔ b = true := need_eq_none b _ o

/-! ## Host commands -/

/-- An IMMEDIATE command starts in any order, and one that starts in order as a firmware command does so in its class (R340). -/
theorem inOrder_of_fast {u : State} {c : Call} {op : Nat} (cls : Cls) (h : inOrder u c op .fast = true) : inOrder u c op cls = true := by
  cases cls <;> simp_all [inOrder]

/-- A served command may start. -/
theorem Served.startsNow {u : State} {c : Call} {op : Nat} (cls : Cls) (h : Served u c op) : startsNow u c op cls = true := by
  obtain ⟨h1, h2, h3, -, -⟩ := h
  simp only [Machine.startsNow, h1, h2, inOrder_of_fast cls h3, Option.isNone_none, Bool.or_true, Bool.true_or, Bool.and_true]

/-- A command that may start and whose conditions all hold acts. -/
theorem commandWith_acts {s : State} {c : Call} {op : Nat} {cls : Cls} {checks : State → List (Option Reject)} {pl : Reject → List Byte}
    {act : State → State} (h : Served (s.at c.start) c op) (hc : ∀ x ∈ checks (s.at c.start), x = none)
    (hs : cls = .slow → slowBusy (s.at c.start) c.src op = false) :
    commandWith s c op cls checks pl act = .next (act (s.at c.start)) := by
  have hst := h.startsNow cls
  obtain ⟨-, -, -, h3, h4⟩ := h
  have hj : judge (refusals (s.at c.start) c op cls (checks (s.at c.start))) = none := by
    apply judge_none
    intro x hx
    simp only [refusals, List.cons_append, List.mem_cons, List.mem_append, List.not_mem_nil, or_false, List.nil_append] at hx
    rcases hx with hx | hx | hx | hx
    · subst hx
      refine need_true ?_
      by_cases hsrc : c.src = .sideband
      · rw [h4 hsrc, Bool.or_true]
      · simp [hsrc]
    · rw [hx, h3]
    · exact hc x hx
    · subst hx
      refine need_true ?_
      by_cases hcl : cls = .slow
      · simp [hs hcl]
      · simp [hcl]
  simp only [commandWith, hst, hj, if_true]

/-- A served command whose conditions all hold acts. -/
theorem command_acts {s : State} {c : Call} {op : Nat} {cls : Cls} {checks : State → List (Option Reject)} {act : State → State}
    (h : Served (s.at c.start) c op) (hc : ∀ x ∈ checks (s.at c.start), x = none)
    (hs : cls = .slow → slowBusy (s.at c.start) c.src op = false) :
    command s c op cls checks act = .next (act (s.at c.start)) := commandWith_acts h hc hs

/-- A command that may start and that some condition refuses changes nothing but for its answer: the first refusal of R344. -/
theorem command_refused {s : State} {c : Call} {op : Nat} {cls : Cls} {checks : State → List (Option Reject)} {act : State → State}
    {r : Reject} (h : startsNow (s.at c.start) c op cls = true)
    (hj : judge (refusals (s.at c.start) c op cls (checks (s.at c.start))) = some r) :
    command s c op cls checks act = .next (respond (s.at c.start) c op cls r.status r.detail []) := by
  simp only [command, commandWith, h, hj, if_true]

/-- Everything a command can do: act, answer with a refusal, or wait. -/
theorem commandWith_cases {s s' : State} {c : Call} {op : Nat} {cls : Cls} {checks : State → List (Option Reject)}
    {pl : Reject → List Byte} {act : State → State} (h : commandWith s c op cls checks pl act = .next s') :
    s' = act (s.at c.start) ∨ (∃ r : Reject, s' = respond (s.at c.start) c op cls r.status r.detail (pl r)) ∨ s' = s.at c.start := by
  simp only [commandWith] at h
  split at h
  · split at h
    · rename_i r _
      cases h
      exact .inr (.inl ⟨r, rfl⟩)
    · cases h
      exact .inl rfl
  · cases h
    exact .inr (.inr rfl)

theorem command_cases {s s' : State} {c : Call} {op : Nat} {cls : Cls} {checks : State → List (Option Reject)} {act : State → State}
    (h : command s c op cls checks act = .next s') :
    s' = act (s.at c.start) ∨ (∃ r : Reject, s' = respond (s.at c.start) c op cls r.status r.detail []) ∨ s' = s.at c.start :=
  commandWith_cases h

theorem commandWith_answers (s : State) (c : Call) (op : Nat) (cls : Cls) (checks : State → List (Option Reject))
    (pl : Reject → List Byte) (act : State → State) : ∃ s', commandWith s c op cls checks pl act = .next s' := by
  simp only [commandWith]
  split
  · split <;> exact ⟨_, rfl⟩
  · exact ⟨_, rfl⟩

theorem command_answers (s : State) (c : Call) (op : Nat) (cls : Cls) (checks : State → List (Option Reject)) (act : State → State) :
    ∃ s', command s c op cls checks act = .next s' := commandWith_answers s c op cls checks _ act

/-! ## Answers -/

@[simp] theorem respond_regs (s : State) (c : Call) (op : Nat) (cls : Cls) (st : Status) (d : Nat) (pl : List Byte) :
    (respond s c op cls st d pl).regs = s.regs := by
  unfold respond; cases c.src <;> rfl

/-- An answer to a port joins the end of its waiting responses; where its slots are not free, it is no longer judged by its deadline (R339). -/
theorem respond_port_wait (s : State) (c : Call) (op : Nat) (cls : Cls) (st : Status) (d : Nat) (pl : List Byte) (p : PortIx)
    (h : c.src = .port p) (hp : s.ports.length = 4) :
    (respond s c op cls st d pl).port p =
      { s.port p with mbx := (s.port p).mbx.queueRsp ⟨op, c.tag, ((jobOf s.fwq c.src op c.tag).map Job.rcls).getD cls, st, d, pl,
        ((jobOf s.fwq c.src op c.tag).map Job.slots).getD 0, (jobOf s.fwq c.src op c.tag).bind Job.due⟩ } := by
  have hl : p.val < s.ports.length := by omega
  simp only [respond, h, State.port, State.modMbx, State.modPort]
  rw [modAt_getD_self _ _ _ _ hl]

/-! ## Leases (R340, R349 to R353) -/

/-- With no later change noted, a command sees the present holder. -/
theorem holderAt_now {s : State} {b : Nat} {stamp : Time} (h : ∀ e ∈ s.leaseLog, e.b = b → e.at_ ≤ stamp) :
    holderAt s b stamp = holderNow s b stamp := by
  have : s.leaseLog.find? (fun e => decide (e.b = b) && decide (stamp < e.at_)) = none := by
    rw [List.find?_eq_none]
    intro e he hx
    simp only [Bool.and_eq_true, decide_eq_true_eq] at hx
    exact absurd (h e he hx.1) (Nat.not_le.mpr hx.2)
  simp only [holderAt, this]

end Sys2Proof.Machine
end

