-- ==== Sys2Proof/Laws/PerInstr.lean ====
section
/-! SUPPORT. Statements made per command: a family's `Statement` about a command as syntax, and one lemma for each constructor. -/

namespace Sys2Proof.Laws

theorem wfCall_stamp {c : Call} (h : wfCall c = true) : c.stamp ≤ c.start := by
  simp only [wfCall, Bool.and_eq_true, decide_eq_true_eq] at h
  exact h.2

namespace Timed

/-- A well-formed host command carries an instant at or after its stamp (R340), and every other command carries its own instant alone. -/
def Statement (i : Instr) : Prop := i.wf = true → ∀ c, i.call? = some c → i.time = c.start ∧ c.stamp ≤ i.time

theorem of_call {i : Instr} {c : Call} (hw : i.wf = wfCall c) (hc : i.call? = some c) (ht : i.time = c.start) : Statement i := by
  intro h d hd
  have e : c = d := Option.some.inj (hc.symm.trans hd)
  subst e
  exact ⟨ht, ht ▸ wfCall_stamp (hw ▸ h)⟩

theorem of_event {i : Instr} (hc : i.call? = none) : Statement i := fun _ _ hd => nomatch hc.symm.trans hd

theorem hello (c : Call) : Statement (.hello c) := of_call rfl rfl rfl
theorem getInfo (c : Call) : Statement (.getInfo c) := of_call rfl rfl rfl
theorem getStatus (c : Call) : Statement (.getStatus c) := of_call rfl rfl rfl
theorem resetDevice (c : Call) : Statement (.resetDevice c) := of_call rfl rfl rfl
theorem resetBegin (t : Time) : Statement (.resetBegin t) := of_event rfl
theorem setPowerState (c : Call) : Statement (.setPowerState c) := of_call rfl rfl rfl
theorem pumpsSettled (t : Time) : Statement (.pumpsSettled t) := of_event rfl
theorem getFaults (c : Call) : Statement (.getFaults c) := of_call rfl rfl rfl
theorem clearFaults (c : Call) : Statement (.clearFaults c) := of_call rfl rfl rfl
theorem readReg (c : Call) : Statement (.readReg c) := of_call rfl rfl rfl
theorem writeReg (c : Call) : Statement (.writeReg c) := of_call rfl rfl rfl
theorem timeSync (c : Call) : Statement (.timeSync c) := of_call rfl rfl rfl
theorem acquireLease (c : Call) : Statement (.acquireLease c) := of_call rfl rfl rfl
theorem releaseLease (c : Call) : Statement (.releaseLease c) := of_call rfl rfl rfl
theorem renewLease (c : Call) : Statement (.renewLease c) := of_call rfl rfl rfl
theorem leaseExpiry (t : Time) (r : Fin 30) : Statement (.leaseExpiry t r) := of_event rfl
theorem leaseLapse (t : Time) (p : PortIx) : Statement (.leaseLapse t p) := of_event rfl
theorem setArrayMode (c : Call) : Statement (.setArrayMode c) := of_call rfl rfl rfl
theorem setFrameTiming (c : Call) : Statement (.setFrameTiming c) := of_call rfl rfl rfl
theorem setTileExposure (c : Call) : Statement (.setTileExposure c) := of_call rfl rfl rfl
theorem setTileGain (c : Call) : Statement (.setTileGain c) := of_call rfl rfl rfl
theorem setGovernor (c : Call) : Statement (.setGovernor c) := of_call rfl rfl rfl
theorem setSlicing (c : Call) : Statement (.setSlicing c) := of_call rfl rfl rfl
theorem setTileEnable (c : Call) : Statement (.setTileEnable c) := of_call rfl rfl rfl
theorem commitSettings (c : Call) : Statement (.commitSettings c) := of_call rfl rfl rfl
theorem triggerFrame (c : Call) : Statement (.triggerFrame c) := of_call rfl rfl rfl
theorem startArray (c : Call) : Statement (.startArray c) := of_call rfl rfl rfl
theorem stopArray (c : Call) : Statement (.stopArray c) := of_call rfl rfl rfl
theorem triggerAt (c : Call) : Statement (.triggerAt c) := of_call rfl rfl rfl
theorem triggerAtDue (t : Time) : Statement (.triggerAtDue t) := of_event rfl
theorem frameStart (t : Time) : Statement (.frameStart t) := of_event rfl
theorem overheadSlot (t : Time) (samples : List (TileIx × List (Nat × Nat))) (ramp : List (TileIx × Int)) : Statement (.overheadSlot t samples ramp) := of_event rfl
theorem rowSlot (t : Time) (samples : List (TileIx × List (Nat × Nat))) : Statement (.rowSlot t samples) := of_event rfl
theorem integrationStart (t : Time) (tile : TileIx) (row : Nat) (exp : Fin 4) : Statement (.integrationStart t tile row exp) := of_event rfl
theorem integrationSlice (t : Time) (tile : TileIx) (row : Nat) (exp : Fin 4) : Statement (.integrationSlice t tile row exp) := of_event rfl
theorem exposureLatchPoint (t : Time) : Statement (.exposureLatchPoint t) := of_event rfl
theorem arrayArm (t : Time) : Statement (.arrayArm t) := of_event rfl
theorem statsComplete (t : Time) : Statement (.statsComplete t) := of_event rfl
theorem governorOutput (t : Time) : Statement (.governorOutput t) := of_event rfl
theorem mosaicLineTransfer (t : Time) (tile : TileIx) (crcOk : Bool) : Statement (.mosaicLineTransfer t tile crcOk) := of_event rfl
theorem spillFetchComplete (t : Time) (tile : TileIx) (kind : Fin 8) (row : Nat) (ok : Bool) : Statement (.spillFetchComplete t tile kind row ok) := of_event rfl
theorem pipeJobRelease (t : Time) (v : ViewIx) (band group stripe : Nat) : Statement (.pipeJobRelease t v band group stripe) := of_event rfl
theorem pipeJobStart (t : Time) : Statement (.pipeJobStart t) := of_event rfl
theorem pipeJobComplete (t : Time) : Statement (.pipeJobComplete t) := of_event rfl
theorem rasterReadbackStart (t : Time) (v : ViewIx) : Statement (.rasterReadbackStart t v) := of_event rfl
theorem viewStopDone (t : Time) (v : ViewIx) : Statement (.viewStopDone t v) := of_event rfl
theorem createView (c : Call) : Statement (.createView c) := of_call rfl rfl rfl
theorem modifyView (c : Call) : Statement (.modifyView c) := of_call rfl rfl rfl
theorem deleteView (c : Call) : Statement (.deleteView c) := of_call rfl rfl rfl
theorem startView (c : Call) : Statement (.startView c) := of_call rfl rfl rfl
theorem stopView (c : Call) : Statement (.stopView c) := of_call rfl rfl rfl
theorem getStats (c : Call) : Statement (.getStats c) := of_call rfl rfl rfl
theorem frameDropRepeat (t : Time) (v : ViewIx) : Statement (.frameDropRepeat t v) := of_event rfl
theorem configAux (c : Call) : Statement (.configAux c) := of_call rfl rfl rfl
theorem auxStatus (c : Call) : Statement (.auxStatus c) := of_call rfl rfl rfl
theorem skewCalibration (t : Time) (n : AuxIx) (lane : Fin 4) (initial : Bool) : Statement (.skewCalibration t n lane initial) := of_event rfl
theorem auxFrameStart (t : Time) (n : AuxIx) (head : BitVec 24) (ecc : Byte) : Statement (.auxFrameStart t n head ecc) := of_event rfl
theorem auxFrameEnd (t : Time) (n : AuxIx) (head : BitVec 24) (ecc : Byte) : Statement (.auxFrameEnd t n head ecc) := of_event rfl
theorem auxLongPacket (t : Time) (n : AuxIx) (di : Byte) (wc : BitVec 16) (ecc : Byte) (payload : List Byte) (crc : BitVec 16) :
    Statement (.auxLongPacket t n di wc ecc payload crc) := of_event rfl
theorem auxLos (t : Time) (n : AuxIx) (lanes : BitVec 4) : Statement (.auxLos t n lanes) := of_event rfl
theorem auxLosRecover (t : Time) (n : AuxIx) : Statement (.auxLosRecover t n) := of_event rfl
theorem auxLate (t : Time) (n : AuxIx) (vc : Fin 4) : Statement (.auxLate t n vc) := of_event rfl
theorem auxStatsComplete (t : Time) (n : AuxIx) : Statement (.auxStatsComplete t n) := of_event rfl
theorem memRequest (t : Time) (cls : Fin 6) (inst : Byte) (fma : Nat) (write : Option (BitVec 64 × List Byte)) : Statement (.memRequest t cls inst fma write) := of_event rfl
theorem memPick (t : Time) (sc : Fin 8) : Statement (.memPick t sc) := of_event rfl
theorem entryAged (t : Time) (q : Fin 256) : Statement (.entryAged t q) := of_event rfl
theorem memAccessComplete (t : Time) (q : Fin 256) (flips chk : List (Nat × Nat)) : Statement (.memAccessComplete t q flips chk) := of_event rfl
theorem refreshDue (t : Time) (q : Fin 256) : Statement (.refreshDue t q) := of_event rfl
theorem refreshRatePoll (t : Time) (reports : List (Fin 3)) : Statement (.refreshRatePoll t reports) := of_event rfl
theorem powerDownEntry (t : Time) (sc : Fin 8) (rank : Fin 2) : Statement (.powerDownEntry t sc rank) := of_event rfl
theorem eccLineIdle (t : Time) (sc : Fin 8) (block : Nat) (used : Time) : Statement (.eccLineIdle t sc block used) := of_event rfl
theorem rowhammerWindow (t : Time) : Statement (.rowhammerWindow t) := of_event rfl
theorem sweepComplete (t : Time) (results : List ((Nat × Nat) × (Nat × Nat))) : Statement (.sweepComplete t results) := of_event rfl
theorem memcBinTargetWrite (t : Time) (target : BitVec 2) : Statement (.memcBinTargetWrite t target) := of_event rfl
theorem binChange (t : Time) (ok : Bool) : Statement (.binChange t ok) := of_event rfl
theorem memStatus (c : Call) : Statement (.memStatus c) := of_call rfl rfl rfl
theorem memRecover (c : Call) : Statement (.memRecover c) := of_call rfl rfl rfl
theorem configRing (c : Call) : Statement (.configRing c) := of_call rfl rfl rfl
theorem markEvent (c : Call) : Statement (.markEvent c) := of_call rfl rfl rfl
theorem readRing (c : Call) : Statement (.readRing c) := of_call rfl rfl rfl
theorem ringStatus (c : Call) : Statement (.ringStatus c) := of_call rfl rfl rfl
theorem releaseSegment (c : Call) : Statement (.releaseSegment c) := of_call rfl rfl rfl
theorem segmentSeal (t : Time) (slot : Fin 8) : Statement (.segmentSeal t slot) := of_event rfl
theorem supplyFail (t : Time) (vio vcore : Bool) (uj : Nat) : Statement (.supplyFail t vio vcore uj) := of_event rfl
theorem storeExhausted (t : Time) : Statement (.storeExhausted t) := of_event rfl
theorem supplyReturn (t : Time) (env : BootEnv) (held : Time) : Statement (.supplyReturn t env held) := of_event rfl
theorem configHoldup (c : Call) : Statement (.configHoldup c) := of_call rfl rfl rfl
theorem holdupStatus (c : Call) : Statement (.holdupStatus c) := of_call rfl rfl rfl
theorem chargerVioSample (t : Time) (mv : Nat) : Statement (.chargerVioSample t mv) := of_event rfl
theorem chargerLimitDown (t : Time) : Statement (.chargerLimitDown t) := of_event rfl
theorem chargerLimitUp (t : Time) : Statement (.chargerLimitUp t) := of_event rfl
theorem chargerPulseEnd (t : Time) (ocv ohm : Nat) : Statement (.chargerPulseEnd t ocv ohm) := of_event rfl
theorem chargerOcvCheck (t : Time) (ocv : Nat) : Statement (.chargerOcvCheck t ocv) := of_event rfl
theorem ntcRead (t : Time) (ohm : Nat) : Statement (.ntcRead t ohm) := of_event rfl
theorem lanternPatternTick (t : Time) (pin : Fin 2) : Statement (.lanternPatternTick t pin) := of_event rfl
theorem linkStatus (c : Call) : Statement (.linkStatus c) := of_call rfl rfl rfl
theorem setLinkRate (c : Call) : Statement (.setLinkRate c) := of_call rfl rfl rfl
theorem linkTest (c : Call) : Statement (.linkTest c) := of_call rfl rfl rfl
theorem linkTestEnd (t : Time) (r : TestEnd) : Statement (.linkTestEnd t r) := of_event rfl
theorem rateChangeStart (t : Time) (p : PortIx) : Statement (.rateChangeStart t p) := of_event rfl
theorem backoffEnd (t : Time) (p : PortIx) : Statement (.backoffEnd t p) := of_event rfl
theorem beaconBurst (t : Time) (p : PortIx) : Statement (.beaconBurst t p) := of_event rfl
theorem uclkValid (t : Time) (p : PortIx) : Statement (.uclkValid t p) := of_event rfl
theorem trainingBlockRx (t : Time) (p : PortIx) (block : List Byte) : Statement (.trainingBlockRx t p block) := of_event rfl
theorem trainingTimeout (t : Time) (p : PortIx) : Statement (.trainingTimeout t p) := of_event rfl
theorem ctleSettingStep (t : Time) (p : PortIx) (height : Nat) : Statement (.ctleSettingStep t p height) := of_event rfl
theorem dfeAdapt (t : Time) (p : PortIx) (err : Bool) (data : List Bool) : Statement (.dfeAdapt t p err data) := of_event rfl
theorem phaseTrack (t : Time) (p : PortIx) (later : Bool) : Statement (.phaseTrack t p later) := of_event rfl
theorem prbsWindowEnd (t : Time) (p : PortIx) (errors : Nat) : Statement (.prbsWindowEnd t p errors) := of_event rfl
theorem rateIdleEnd (t : Time) (p : PortIx) : Statement (.rateIdleEnd t p) := of_event rfl
theorem errorInjection (t : Time) (p : PortIx) : Statement (.errorInjection t p) := of_event rfl
theorem losOnset (t : Time) (p : PortIx) (lol : Bool) (ppm : Int) : Statement (.losOnset t p lol ppm) := of_event rfl
theorem losClear (t : Time) (p : PortIx) (ppm : Option Int) : Statement (.losClear t p ppm) := of_event rfl
theorem losFailure (t : Time) (p : PortIx) (lol : Bool) : Statement (.losFailure t p lol) := of_event rfl
theorem holdExpiry (t : Time) (p : PortIx) : Statement (.holdExpiry t p) := of_event rfl
theorem alignmentMarkerTx (t : Time) (p : PortIx) : Statement (.alignmentMarkerTx t p) := of_event rfl
theorem alignmentMarkerRx (t : Time) (p : PortIx) (marker : List Byte) : Statement (.alignmentMarkerRx t p marker) := of_event rfl
theorem upstreamCodeword (t : Time) (p : PortIx) (levels : List (Fin 4)) : Statement (.upstreamCodeword t p levels) := of_event rfl
theorem requestEntry (t : Time) (p : PortIx) (entry : List Byte) : Statement (.requestEntry t p entry) := of_event rfl
theorem doorbell (t : Time) (p : PortIx) (body : List Byte) : Statement (.doorbell t p body) := of_event rfl
theorem credit (t : Time) (p : PortIx) (body : List Byte) : Statement (.credit t p body) := of_event rfl
theorem ack (t : Time) (p : PortIx) (body : List Byte) : Statement (.ack t p body) := of_event rfl
theorem upstreamTimeCell (t : Time) (p : PortIx) (body : List Byte) : Statement (.upstreamTimeCell t p body) := of_event rfl
theorem trigCell (t : Time) (p : PortIx) (body : List Byte) : Statement (.trigCell t p body) := of_event rfl
theorem trainCell (t : Time) (p : PortIx) (body : List Byte) : Statement (.trainCell t p body) := of_event rfl
theorem downstreamCellSlot (t : Time) (p : PortIx) : Statement (.downstreamCellSlot t p) := of_event rfl
theorem rtoExpiry (t : Time) (p : PortIx) : Statement (.rtoExpiry t p) := of_event rfl
theorem chainTimeout (t : Time) (p : PortIx) : Statement (.chainTimeout t p) := of_event rfl
theorem responsePost (t : Time) (p : PortIx) : Statement (.responsePost t p) := of_event rfl
theorem completeDrop (t : Time) (p : PortIx) : Statement (.completeDrop t p) := of_event rfl
theorem sbSubmit (t : Time) (request : List Byte) : Statement (.sbSubmit t request) := of_event rfl
theorem sbDone (t : Time) : Statement (.sbDone t) := of_event rfl
theorem sbAbort (t : Time) : Statement (.sbAbort t) := of_event rfl
theorem enec (t : Time) (events : Byte) : Statement (.enec t events) := of_event rfl
theorem disec (t : Time) (events : Byte) : Statement (.disec t events) := of_event rfl
theorem rstdaa (t : Time) : Statement (.rstdaa t) := of_event rfl
theorem entdaa (t : Time) (addr : BitVec 7) : Statement (.entdaa t addr) := of_event rfl
theorem setdasa (t : Time) (static addr : BitVec 7) : Statement (.setdasa t static addr) := of_event rfl
theorem setnewda (t : Time) (addr : BitVec 7) : Statement (.setnewda t addr) := of_event rfl
theorem setmwl (t : Time) (len : BitVec 16) : Statement (.setmwl t len) := of_event rfl
theorem setmrl (t : Time) (len : BitVec 16) : Statement (.setmrl t len) := of_event rfl
theorem getmwl (t : Time) : Statement (.getmwl t) := of_event rfl
theorem getmrl (t : Time) : Statement (.getmrl t) := of_event rfl
theorem getpid (t : Time) : Statement (.getpid t) := of_event rfl
theorem getbcr (t : Time) : Statement (.getbcr t) := of_event rfl
theorem getdcr (t : Time) : Statement (.getdcr t) := of_event rfl
theorem getstatus (t : Time) : Statement (.getstatus t) := of_event rfl
theorem powerOn (t : Time) (env : BootEnv) : Statement (.powerOn t env) := of_event rfl
theorem porNPulse (t : Time) (width : Time) : Statement (.porNPulse t width) := of_event rfl
theorem vmidFail (t : Time) : Statement (.vmidFail t) := of_event rfl
theorem keeperLoss (t : Time) : Statement (.keeperLoss t) := of_event rfl
theorem refLost (t : Time) : Statement (.refLost t) := of_event rfl
theorem refReturn (t : Time) (khz : Nat) : Statement (.refReturn t khz) := of_event rfl
theorem lfxtalLoss (t : Time) : Statement (.lfxtalLoss t) := of_event rfl
theorem lfxtalValid (t : Time) (khz : Nat) : Statement (.lfxtalValid t khz) := of_event rfl
theorem pllLock (t : Time) (n : Fin 4) : Statement (.pllLock t n) := of_event rfl
theorem pllLockTimeout (t : Time) (n : Fin 4) : Statement (.pllLockTimeout t n) := of_event rfl
theorem pllUnlock (t : Time) (n : Fin 4) : Statement (.pllUnlock t n) := of_event rfl
theorem watchdogExpiry (t : Time) : Statement (.watchdogExpiry t) := of_event rfl
theorem lockstepMismatch (t : Time) : Statement (.lockstepMismatch t) := of_event rfl
theorem sramUe (t : Time) : Statement (.sramUe t) := of_event rfl
theorem tsSample (t : Time) (reads : List (Option Int)) : Statement (.tsSample t reads) := of_event rfl
theorem levelHoldExpiry (t : Time) : Statement (.levelHoldExpiry t) := of_event rfl
theorem squallClear (t : Time) : Statement (.squallClear t) := of_event rfl
theorem sampleRateReturn (t : Time) : Statement (.sampleRateReturn t) := of_event rfl
theorem graceExpiry (t : Time) : Statement (.graceExpiry t) := of_event rfl
theorem downTimerExpiry (t : Time) : Statement (.downTimerExpiry t) := of_event rfl
theorem foghornRepeat (t : Time) : Statement (.foghornRepeat t) := of_event rfl
theorem shutdownExit (t : Time) : Statement (.shutdownExit t) := of_event rfl
theorem thermalStatus (c : Call) : Statement (.thermalStatus c) := of_call rfl rfl rfl
theorem ackFoghorn (c : Call) : Statement (.ackFoghorn c) := of_call rfl rfl rfl
theorem setThermal (c : Call) : Statement (.setThermal c) := of_call rfl rfl rfl
theorem configTimer (c : Call) : Statement (.configTimer c) := of_call rfl rfl rfl
theorem timerControl (c : Call) : Statement (.timerControl c) := of_call rfl rfl rfl
theorem timerControlAt (t : Time) : Statement (.timerControlAt t) := of_event rfl
theorem timerCapture (c : Call) : Statement (.timerCapture c) := of_call rfl rfl rfl
theorem timerTick (t : Time) (n : TmrIx) : Statement (.timerTick t n) := of_event rfl
theorem periodEvent (t : Time) (n : TmrIx) : Statement (.periodEvent t n) := of_event rfl
theorem matchEvent (t : Time) (n : TmrIx) (second : Bool) : Statement (.matchEvent t n second) := of_event rfl
theorem zeroEvent (t : Time) (n : TmrIx) : Statement (.zeroEvent t n) := of_event rfl
theorem pinEdgeAccepted (t : Time) (n : TmrIx) (level : Bool) : Statement (.pinEdgeAccepted t n level) := of_event rfl
theorem captureEvent (t : Time) (n : TmrIx) : Statement (.captureEvent t n) := of_event rfl
theorem tmrCapLoRead (t : Time) (n : TmrIx) : Statement (.tmrCapLoRead t n) := of_event rfl
theorem tmrCountRead (t : Time) (n : TmrIx) (high : Bool) : Statement (.tmrCountRead t n high) := of_event rfl
theorem fsyncOutEnd (t : Time) (pin : Fin 64) : Statement (.fsyncOutEnd t pin) := of_event rfl
theorem pinTransitionOverrun (t : Time) (pin : Fin 64) : Statement (.pinTransitionOverrun t pin) := of_event rfl
theorem loadPio (c : Call) : Statement (.loadPio c) := of_call rfl rfl rfl
theorem startPio (c : Call) : Statement (.startPio c) := of_call rfl rfl rfl
theorem stopPio (c : Call) : Statement (.stopPio c) := of_call rfl rfl rfl
theorem pioQueue (c : Call) : Statement (.pioQueue c) := of_call rfl rfl rfl
theorem configPins (c : Call) : Statement (.configPins c) := of_call rfl rfl rfl
theorem drive (t : Time) (e : EngIx) : Statement (.drive t e) := of_event rfl
theorem xfer (t : Time) (e : EngIx) (di : BitVec 32) : Statement (.xfer t e di) := of_event rfl
theorem fetch (t : Time) (e : EngIx) : Statement (.fetch t e) := of_event rfl
theorem store (t : Time) (e : EngIx) : Statement (.store t e) := of_event rfl
theorem copy (t : Time) (e : EngIx) (pins : Byte) : Statement (.copy t e pins) := of_event rfl
theorem imm (t : Time) (e : EngIx) : Statement (.imm t e) := of_event rfl
theorem loopI (t : Time) (e : EngIx) : Statement (.loopI t e) := of_event rfl
theorem waitI (t : Time) (e : EngIx) (pins : Byte) : Statement (.waitI t e pins) := of_event rfl
theorem br (t : Time) (e : EngIx) (pins : Byte) : Statement (.br t e pins) := of_event rfl
theorem flush (t : Time) (e : EngIx) : Statement (.flush t e) := of_event rfl
theorem endI (t : Time) (e : EngIx) : Statement (.endI t e) := of_event rfl
theorem pioIllegal (t : Time) (e : EngIx) : Statement (.pioIllegal t e) := of_event rfl
theorem pioStallEnd (t : Time) (e : EngIx) (pins : Byte) (edge : Bool) : Statement (.pioStallEnd t e pins edge) := of_event rfl
theorem waitTimeout (t : Time) (e : EngIx) : Statement (.waitTimeout t e) := of_event rfl
theorem rxqWordMove (t : Time) (e : EngIx) : Statement (.rxqWordMove t e) := of_event rfl
theorem piodataPacket (t : Time) (e : EngIx) : Statement (.piodataPacket t e) := of_event rfl
theorem pktUsExpiry (t : Time) (e : EngIx) : Statement (.pktUsExpiry t e) := of_event rfl
theorem authChallenge (c : Call) : Statement (.authChallenge c) := of_call rfl rfl rfl
theorem authResponse (c : Call) : Statement (.authResponse c) := of_call rfl rfl rfl
theorem nonceExpiry (t : Time) (p : PortIx) : Statement (.nonceExpiry t p) := of_event rfl
theorem setViewAuth (c : Call) : Statement (.setViewAuth c) := of_call rfl rfl rfl
theorem otpRead (c : Call) : Statement (.otpRead c) := of_call rfl rfl rfl
theorem otpProgram (c : Call) : Statement (.otpProgram c) := of_call rfl rfl rfl
theorem otpLockRegion (c : Call) : Statement (.otpLockRegion c) := of_call rfl rfl rfl
theorem lifecycle (c : Call) : Statement (.lifecycle c) := of_call rfl rfl rfl
theorem fwLoad (c : Call) : Statement (.fwLoad c) := of_call rfl rfl rfl
theorem fwLoadTimeout (t : Time) : Statement (.fwLoadTimeout t) := of_event rfl
theorem fwHandover (t : Time) : Statement (.fwHandover t) := of_event rfl
theorem rollbackStepWrite (t : Time) : Statement (.rollbackStepWrite t) := of_event rfl
theorem encNAlarm (t : Time) : Statement (.encNAlarm t) := of_event rfl
theorem shieldCheck (t : Time) (bad : Bool) : Statement (.shieldCheck t bad) := of_event rfl
theorem vglitch (t : Time) : Statement (.vglitch t) := of_event rfl
theorem faultRepeat (t : Time) (code inst : BitVec 16) : Statement (.faultRepeat t code inst) := of_event rfl
theorem converterSelfTest (t : Time) : Statement (.converterSelfTest t) := of_event rfl
theorem memorySelfTest (t : Time) : Statement (.memorySelfTest t) := of_event rfl
theorem linkSelfTest (t : Time) : Statement (.linkSelfTest t) := of_event rfl
theorem bistComplete (t : Time) (read : BistRead) : Statement (.bistComplete t read) := of_event rfl
theorem lfxtalWaitTimeout (t : Time) : Statement (.lfxtalWaitTimeout t) := of_event rfl
theorem dtimeSlewEnd (t : Time) : Statement (.dtimeSlewEnd t) := of_event rfl
theorem otpWordProgrammed (t : Time) (norm strict : BitVec 39) : Statement (.otpWordProgrammed t norm strict) := of_event rfl
theorem slowCommandTimeout (t : Time) (opcode : BitVec 16) : Statement (.slowCommandTimeout t opcode) := of_event rfl
theorem prbsSyncAcquired (t : Time) (p : PortIx) (rx : List Bool) : Statement (.prbsSyncAcquired t p rx) := of_event rfl
theorem prbsSyncLoss (t : Time) (p : PortIx) (rx : List Bool) : Statement (.prbsSyncLoss t p rx) := of_event rfl
theorem chargerRestStart (t : Time) (mean dq v1 iOut : Nat) : Statement (.chargerRestStart t mean dq v1 iOut) := of_event rfl
theorem chargeBudgetExceeded (t : Time) (dq : Nat) : Statement (.chargeBudgetExceeded t dq) := of_event rfl
theorem chargeTargetReached (t : Time) (mv : Nat) : Statement (.chargeTargetReached t mv) := of_event rfl

end Timed

end Sys2Proof.Laws
end

