-- ==== Sys2Proof/Tests/Slice0.lean ====
section
/-! SUPPORT. The model's own tests: ill-formed commands are refused, reset keeps the invariants, and for every statement a concrete state and
operands that meet all hypotheses of each of its clauses together. -/

namespace Sys2Proof.Machine

set_option Elab.async false

/-! ## Well-formedness -/

/-- A well-formed call, and surroundings of the board at boot that are well formed. -/
def okCall : Call := ⟨.port 0, 7, [0, 0, 0, 0], 5, 5, []⟩
def okEnv : BootEnv := ⟨[0, 0, 0, 1000], 25000, true, [true, true, true, true], true, 100, 1400, 200⟩

theorem test_wf_call : (Instr.getInfo okCall).wf = true ∧ (Instr.getInfo { okCall with arg := [0, 0, 0] }).wf = false ∧
    (Instr.getInfo { okCall with payload := List.replicate 769 0 }).wf = false ∧ (Instr.getInfo { okCall with stamp := 6 }).wf = false := by decide +kernel

theorem test_wf_env : (Instr.powerOn 0 okEnv).wf = true ∧ (Instr.powerOn 0 { okEnv with straps := [0, 0, 0] }).wf = false ∧
    (Instr.powerOn 0 { okEnv with straps := [0, 0, 0, 1001] }).wf = false ∧ (Instr.supplyReturn 0 { okEnv with pllOk := [] } 0).wf = false := by
  decide +kernel

theorem test_wf_samples : (Instr.rowSlot 0 [(0, [(4095, 0)])]).wf = true ∧ (Instr.rowSlot 0 [(0, [(4096, 0)])]).wf = false ∧
    (Instr.rowSlot 0 [(0, [(0, 4096)])]).wf = false ∧ (Instr.rowSlot 0 [(0, List.replicate 513 (0, 0))]).wf = false ∧
    (Instr.rowSlot 0 (List.replicate 193 (0, []))).wf = false ∧ (Instr.overheadSlot 0 [] (List.replicate 193 (0, 0))).wf = false := by decide +kernel

theorem test_wf_rows : (Instr.integrationStart 0 0 512 0).wf = false ∧ (Instr.integrationSlice 0 0 512 0).wf = false ∧
    (Instr.spillFetchComplete 0 0 0 512 true).wf = false ∧ (Instr.pipeJobRelease 0 0 13 0 0).wf = false ∧
    (Instr.pipeJobRelease 0 0 0 512 0).wf = false ∧ (Instr.pipeJobRelease 0 0 0 0 32).wf = false := by decide +kernel

theorem test_wf_memory : (Instr.memRequest 0 0 0 0x3C0000000 none).wf = false ∧ (Instr.memRequest 0 0 0 0 (some (1, []))).wf = false ∧
    (Instr.memAccessComplete 0 0 [(68, 1)] []).wf = false ∧ (Instr.memAccessComplete 0 0 [(0, 0)] []).wf = false ∧
    (Instr.memAccessComplete 0 0 [(0, 256)] []).wf = false ∧ (Instr.memAccessComplete 0 0 [] [(64, 1)]).wf = false ∧
    (Instr.refreshRatePoll 0 []).wf = false ∧ (Instr.sweepComplete 0 []).wf = false ∧
    (Instr.sweepComplete 0 (List.replicate 104 ((129, 0), (0, 0)))).wf = false ∧ (Instr.sweepComplete 0 (List.replicate 104 ((0, 0), (100, 29)))).wf = false := by
  decide +kernel

theorem test_wf_link : (Instr.trainingBlockRx 0 0 []).wf = false ∧ (Instr.dfeAdapt 0 0 true []).wf = false ∧
    (Instr.alignmentMarkerRx 0 0 []).wf = false ∧ (Instr.upstreamCodeword 0 0 []).wf = false ∧ (Instr.requestEntry 0 0 []).wf = false ∧
    (Instr.doorbell 0 0 []).wf = false ∧ (Instr.credit 0 0 []).wf = false ∧ (Instr.ack 0 0 []).wf = false ∧
    (Instr.upstreamTimeCell 0 0 []).wf = false ∧ (Instr.trigCell 0 0 []).wf = false ∧ (Instr.trainCell 0 0 []).wf = false ∧
    (Instr.prbsSyncLoss 0 0 []).wf = false ∧ (Instr.prbsSyncAcquired 0 0 (List.replicate 64 true)).wf = false := by decide +kernel

theorem test_wf_rest : (Instr.auxLongPacket 0 0 0 0 0 (List.replicate 65536 0) 0).wf = false ∧
    (Instr.sbSubmit 0 (List.replicate 1025 0)).wf = false ∧ (Instr.tsSample 0 []).wf = false ∧
    (Instr.tsSample 0 (List.replicate 16 (some 32768))).wf = false ∧ (Instr.linkTestEnd 0 ⟨0, 5, 6⟩).wf = false ∧ (Instr.supplyFail 0 false false 0).wf = false := by
  decide +kernel


/-! ## States for the witnesses -/

/-- A T192 in ACTIVE with its four ports in ACTIVE, every role SAFETY, HP0 holding every lease, and frame memory running. -/
def wit : State := { State.reset with
  leases := List.replicate 30 ⟨some 0, none, 0⟩
  ports := List.replicate 4 { Port.reset with tr := { Train.reset with st := .active } }
  pw := { Power.reset with st := .active, plls := List.replicate 4 { Pll.reset with st := .locked } }
  sec := { Sec.reset with life := .provisioned, unauth := [.safety, .safety, .safety, .safety] }
  mem := { Mem.reset with st := .run, undef := [] } }

/-- A host command of HP0 at time 0. -/
def wCall (payload : List Byte) : Call := ⟨.port 0, 7, [0, 0, 0, 0], 0, 0, payload⟩

/-- `wit` with every port in a state that `f` makes. -/
def witPort (f : Port → Port) : State := { wit with ports := wit.ports.map f }

/-- A frame with the settings of reset that starts at time 0. -/
def wFrame : Frame :=
  { num := 1, id := 0, set := Settings.reset, en := List.replicate 192 true, elp := 0, fs := 0, fsD := 0, is0 := 0, tread := 0, per := 0, draws0 := []
    draws1 := [], resync := false, cfg := EngCfg.reset, spillAt := 0, spillRow := 0, lsc := 0, norm := [], next := 0
    endAt := none, spill := 0, stats := [], chan := [], lost := [], spillRaised := [], hold := [], rampBad := [], takers := [], cal := [], temps := [] }

/-- `wit` with its sequencer as `f` makes it. -/
def witSeq (f : Seq → Seq) : State := { wit with arr := { wit.arr with seq := f { wit.seq with running := true } } }

/-- `wit` with view 0 as given. -/
def witView (v : View) : State := { wit with pipe := { wit.pipe with views := v :: wit.pipe.views.drop 1 } }

/-- A LIVE RAW view of the array's first sixteen columns and two rows, on stream 1. -/
def wViewPl : List Byte :=
  [0, 0, 0, 1, 0, 1, 0, 1, 0, 0, 0, 0, 16, 0, 2, 0, 0, 1, 0, 1] ++ zeros 28

/-- View 0 as CREATE_VIEW with `wViewPl` leaves it. -/
def wView : View := { View.reset with st := .created, p := parseView wViewPl }

/-- A frame of that view in progress. -/
def wVf : VFrame :=
  { view := 0, frame := 1, setId := 0, p := parseView wViewPl, paramId := 0, binned := false, sx := 0, sy := 0, sw := 16, sh := 2, ow := 16
    oh := 2, fsAt := 0, fsD := 0, spanNs := 0, fflags := 0, s := 1, ped := 0, started := true, jobs := [], rows := [(0, 0), (1, 0)], queued := 0
    lost := 0, lor := 0, srcEnd := none, endD := 0, store := 0, readback := none, late := none, curve := [], lineFlags := [], tag := none
    tk := [], en := List.replicate 192 true, rowLo := 0, rowHi := 512, lsc := 0, interval := 0, dropNoted := false, auxAct := []
    geomW := 0, geomH := 0 }

/-- `wit` with a pipeline as `f` makes it. -/
def witPipe (f : Pipe → Pipe) : State := { wit with pipe := f wit.pipe }

/-- `wit` with aux input 0 running as `f` makes it, 16 pixels by 2 lines of RAW8 on virtual channel 0, without lines of the host's. -/
def witAux (f : AuxIn → AuxIn) : State := { wit with
  regs := [(aAUX_VC_CFG 0 0, 0x2A), (aAUX_VC_GEOM 0 0, 16 + 2 * 65536)]
  aux := f { AuxIn.reset with st := .run } :: wit.aux.drop 1 }

/-- A read of the first unit of frame memory, and `wit` with the controller as `f` makes it. -/
def wEnt : MemEnt := ⟨2, 0, 0, queueOf 2 0, .read, 0, 0, false, false, false⟩
def witMem (f : Mem → Mem) : State := { wit with mem := f wit.mem }

/-- `wit` with a ring of one segment of storage and its first segment slot as given. -/
def witRing (g : Segment) : State := { wit with ring := { wit.ring with nAs := 1, pre := 10, post := 5, segs := g :: wit.ring.segs.drop 1 } }

/-- A sealed ring record of view 0. -/
def wRec : RingRec := ⟨0, 1, 0, 0, 5, 2, 0, 64, 1, 1, 0, 0, [], [(2, 0, 64)], false⟩

/-- `wit` with the charger as `f` makes it, for a shared source, a target of 1.4 V and 10 F. -/
def witHold (f : Hold → Hold) : State := { wit with
  regs := [(aHOLD_CTL, 1), (aHOLD_CFG, 1400 + 100 * 65536)], hold := f { wit.hold with srcClass := 1 } }

/-- A training block, a marker and a mailbox entry, each with its CRC. -/
def wBlk (msg st : Nat) (body : List Byte) : List Byte :=
  tsync ++ [byte msg, 0, byte st, 0] ++ body ++ zeros (18 - body.length) ++
    leBytes 2 (crc16 ([byte msg, 0, byte st, 0] ++ body ++ zeros (18 - body.length)))
def wMark (seq : Nat) : List Byte := amSync ++ ([0] ++ leBytes 3 seq ++ zeros 2) ++ leBytes 2 (crc16 ([0] ++ leBytes 3 seq ++ zeros 2))
def wPart (op cls len i n : Nat) : List Byte :=
  leBytes 2 op ++ leBytes 2 7 ++ [byte cls, byte len, byte i, byte n] ++ zeros 4 ++
    leBytes 4 (crc32c (leBytes 2 op ++ leBytes 2 7 ++ [byte cls, byte len, byte i, byte n] ++ zeros 56)) ++ zeros 48
def wEntry (op cls len : Nat) : List Byte := wPart op cls len 0 1

/-- `wit` with every port training in the state given. -/
def witTr (st : PortSt) (f : Port → Port) : State := witPort (fun q => f { q with tr := { q.tr with st := st } })

/-- `wit` with the sideband, thermal management, timer 0 and engine 0 as `f` makes them, engine 0 with `w` at address 0. -/
def witSb (f : Sideband → Sideband) : State := { wit with sb := f wit.sb }
def witTh (f : Therm → Therm) : State := { wit with th := f wit.th }
def witTmr (f : Tmr → Tmr) : State := { wit with pio := { wit.pio with tmr := f Tmr.reset :: wit.pio.tmr.drop 1 } }
def witPe (w : Nat) (f : Pe → Pe) : State := { wit with
  regs := [(aPIO_IMEM 0 0, w)], pio := { wit.pio with pe := f { Pe.reset with st := .running } :: wit.pio.pe.drop 1 } }

/-- `wit` with a SAFETY key in slot 0, and security as `f` makes it; an OTP word that reads the same at both margins. -/
def witSec (f : Sec → Sec) : State := { wit with sec := f { wit.sec with slots := ⟨1, some (0, .safety, zeros 32)⟩ :: wit.sec.slots.drop 1 } }
def wCell (a d : Nat) : OtpCell := ⟨a, otpEncode d, otpEncode d⟩

/-- A load of an empty image. -/
def wHdr : List Byte := leBytes 4 0x46575431 ++ zeros 124
def wLoad : FwLoad := ⟨.port 0, wHdr, [], 0, false, 0⟩

theorem getD_replicate_self {α : Type} (x : α) (n k : Nat) : (List.replicate n x).getD k x = x := by
  rw [List.getD_eq_getElem?_getD, List.getElem?_replicate]
  split <;> rfl

/-- A line of a RASTER view's frame that waits in engine 0; an aux frame of region 1 in progress; a set to be committed that spills. -/
def witRaster : State := { { wit with arr := { wit.arr with
    eng := List.replicate 192 { Eng.reset with outq := [⟨1, 0, .radiance, [5, 6], false⟩] }
    seq := { wit.seq with running := true, cur := some { wFrame with spill := 1 } } } } with
  pipe := { wit.pipe with frames := [{ wVf with p := { wVf.p with order := 1 } }] } }
def witStore : State :=
  witAux (fun a => { a with vcs := a.vcs.map (fun v => { v with openAt := some 0, storeOk := true }), region := [some (1, 1), none, none, none] })
def witCommit : State := { wit with fm := [(1000, 4)], arr := { wit.arr with staged := { Settings.reset with mode := 5 } } }

/-- A spilled row that waits in every engine while frame 1 is read; a record of an aux frame that has closed. -/
def witSpill : State := { wit with arr := { wit.arr with
  eng := List.replicate 192 { Eng.reset with outq := [⟨1, 0, .spill 0, [5, 6], false⟩], asked := [(1, 0, 0)] }
  seq := { wit.seq with running := true, cur := some { wFrame with spill := 1 } } } }
def wAuxStat : AuxStat := ⟨0, 1, 0, some 0, [], [], []⟩

theorem witRasterOut : ∀ f ∈ (witRaster.at 0).pipe.frames, ∀ codes : List Nat, (codes = [5, 6] ∨ codes = []) →
    48 < (rasterPart (witRaster.at 0) f 0 0 codes).1 ∨
      (rasterPart (witRaster.at 0) f 0 0 codes).1 + 3 * (rasterPart (witRaster.at 0) f 0 0 codes).2.length ≤ 48 := by
  intro f hf codes hc
  have e : f = { wVf with p := { wVf.p with order := 1 } } := List.mem_singleton.mp hf
  subst e
  rcases hc with rfl | rfl <;> decide +kernel

/-- A frame latched for an exposure latch point at 10 ns, with what that latch replaced. -/
def wUndo : Undo :=
  { active := Settings.reset, pend := none, engPend := [], engAct := EngCfg.reset, lscAct := 0, norm := [], spillBase := none, spillPend := none, gone := []
    gov := wit.arr.gov, anchor := none, relock := false, lfsr := 0, tg := none, armed := false, trigAt := [], ignored := 0, actId := 0, alpha0 := []
    elpT := [] }
def witUndo : State := { wit with arr := { wit.arr with
  undo := some wUndo, seq := { wit.arr.seq with running := true, nextNum := 2, latched := some { wFrame with elp := 10 } } } }

/-- `wit` with every lease at the end of its term at time 0; none of its ports has dropped. -/
def witExp : State := { wit with leases := List.replicate 30 ⟨some 0, some 0, 0⟩ }
theorem witExp_up : ∀ p : PortIx, ((witExp.at 0).port p).dropAt = none := by decide +kernel

/-- The ECC of the header of a long packet of 16 bytes of RAW8 on virtual channel 0. -/
def wEcc : Byte := byte (csiEcc (0x2A + 16 * 256))

/-! ## What the statements assume, decided -/

/-- `Served`, as a test. -/
def servedB (u : State) (c : Call) (opcode : Nat) : Bool :=
  decide (serves u c.src = true ∧ u.sec.handover = none ∧ inOrder u c opcode .fast = true ∧ jobBad u.fwq c opcode = none ∧
    (c.src = .sideband → sbOpcodes.contains opcode = true))

theorem served_of {u : State} {c : Call} {k : Nat} (h : servedB u c k = true) : Served u c k :=
  @of_decide_eq_true (serves u c.src = true ∧ u.sec.handover = none ∧ inOrder u c k .fast = true ∧ jobBad u.fwq c k = none ∧
    (c.src = .sideband → sbOpcodes.contains k = true)) _ h

theorem ready_of {u : State} {c : Call} {k : Nat} (h : (servedB u c k && decide (argZero c = none)) = true) : Ready u c k := by
  rw [Bool.and_eq_true] at h
  exact ⟨served_of h.1, of_decide_eq_true h.2⟩

theorem readySlow_of {u : State} {c : Call} {k : Nat}
    (h : (servedB u c k && decide (argZero c = none) && decide (slowBusy u c.src k = false)) = true) : ReadySlow u c k := by
  rw [Bool.and_eq_true] at h
  exact ⟨ready_of h.1, of_decide_eq_true h.2⟩

theorem holds_of {u : State} {c : Call} {p : PortIx} {b : Nat}
    (h : decide (c.src = .port p ∧ portRole u p ≠ .viewer ∧ holderAt u b c.stamp = some p) = true) : HoldsLease u c p b :=
  @of_decide_eq_true (c.src = .port p ∧ portRole u p ≠ .viewer ∧ holderAt u b c.stamp = some p) _ h

theorem programReady_of {u : State} {c : Call}
    (h : ((servedB u c 0x0911 && decide (argZero c = none) && decide (slowBusy u c.src 0x0911 = false)) &&
      decide (programLen c = true ∧ programAllowed u c = true ∧ u.sec.lockStands = false ∧ ∀ x ∈ programChecks u c, x = none)) = true) :
    ProgramReady u c := by
  rw [Bool.and_eq_true] at h
  exact ⟨readySlow_of h.1, of_decide_eq_true h.2⟩

theorem entryTaken_of {u : State} {t : Time} {p : PortIx} {e : List Byte}
    (h : decide (u.ports.length = 4 ∧ (u.port p).tr.st = .active ∧
      ((u.port p).mbx.dupLeft = 0 ∨ (u16 e 2, u32 e 12) ∉ (u.port p).mbx.oldRecent) ∧
      (0 < (u.port p).mbx.reqFree ∨ (u.port p).mbx.reqOwed < slotsDue (takeIn u p tCMD e t).2 p t)) = true) :
    EntryTaken u ((takeIn u p tCMD e t).2.modMbx p (fun m => { m.claimReq with
      dupLeft := m.dupLeft - 1, recent := ((u16 e 2, u32 e 12) :: m.recent).take 32 }))
      t (takeIn u p tCMD e t).1 p e := by
  obtain ⟨a, b, c, d⟩ := of_decide_eq_true h
  exact ⟨a, b, c, _, Prod.mk.eta.symm, d, rfl⟩

/-- The step answers a next state. -/
def isNext : Host.Outcome State Fault Refusal → Bool
  | .next _ => true
  | .fault _ => false
  | .refused _ => false

theorem next_of {o : Host.Outcome State Fault Refusal} (h : isNext o = true) : ∃ s', o = .next s' := by
  cases o with
  | next s' => exact ⟨s', rfl⟩
  | fault _ => cases h
  | refused _ => cases h

/-! ## Every clause's hypotheses are met somewhere -/

theorem test_StepTakesFrontCommand :
    (∃ (s : State) (i : Instr) (rest : List Instr), s.pending = i :: rest) ∧
    (∃ (s : State), s.pending = []) :=
  ⟨⟨{ wit with pending := [.pumpsSettled 0] }, .pumpsSettled 0, [], by decide +kernel⟩,
   ⟨wit, by decide +kernel⟩⟩

theorem test_OnlyAbsentMemoryStops :
    (∃ (i : Instr), (∀ t cls inst fma w, i = .memRequest t cls inst fma w → fma < 0x3C0000000)) ∧
    (∃ (fma : Nat), 0x3C0000000 ≤ fma) :=
  ⟨⟨.pumpsSettled 0, (fun _ _ _ _ _ h => nomatch h)⟩,
   ⟨0x3C0000000, by decide +kernel⟩⟩

theorem test_TimeNeverRunsBackward :
    (∃ (i : Instr) (s : State) (s' : State), exec i s = .next s') ∧
    (∃ (i : Instr) (s : State) (s' : State), exec i s = .next s') :=
  ⟨Exists.elim (next_of (o := exec (.pumpsSettled 0) wit) (by decide +kernel)) (fun s2 h2 => ⟨.pumpsSettled 0, wit, s2, h2⟩),
   Exists.elim (next_of (o := exec (.pumpsSettled 0) wit) (by decide +kernel)) (fun s2 h2 => ⟨.pumpsSettled 0, wit, s2, h2⟩)⟩

theorem test_IdentityAndResetCommandsAnswer :
    (∃ (s : State) (u : State) (c : Call) (p : PortIx), u = s.at c.start ∧ Ready u c 0x0001 ∧ c.src = .port p ∧ c.payload.length = 8 ∧
      reserved c.payload 2 6 = none ∧ p.val < u.ports.length) ∧
    (∃ (s : State) (u : State) (c : Call), u = s.at c.start ∧ Ready u c 0x0002 ∧ c.payload = []) ∧
    (∃ (s : State) (u : State) (c : Call), u = s.at c.start ∧ Ready u c 0x0003 ∧ u.ports.length = 4 ∧ c.payload = []) ∧
    (∃ (s : State) (u : State) (c : Call) (p : PortIx), u = s.at c.start ∧ Ready u c 0x0004 ∧ c.src = .port p ∧ c.payload.length = 4 ∧
      (openLife u = true ∨ portRole u p = .safety) ∧ u8 c.payload 0 ≤ 1 ∧ reserved c.payload 1 3 = none) ∧
    (∃ (s : State) (u : State) (c : Call), u = s.at c.start ∧ Ready u c 0x0004 ∧ c.src = .sideband ∧ c.payload.length = 4 ∧ (openLife u =
      true ∨ ∀ p : PortIx, u.portActive p = false) ∧ u8 c.payload 0 ≤ 1 ∧ reserved c.payload 1 3 = none) ∧
    (∃ (s : State) (u : State) (c : Call) (p : PortIx), u = s.at c.start ∧ Ready u c 0x0004 ∧ c.src = .port p ∧ c.payload.length = 4 ∧
      openLife u = false ∧ portRole u p ≠ .safety ∧ u8 c.payload 0 ≤ 1 ∧ reserved c.payload 1 3 = none) :=
  ⟨⟨wit, _, wCall (zeros 8), 0, rfl, ready_of (by decide +kernel), by decide +kernel⟩,
   ⟨wit, _, wCall [], rfl, ready_of (by decide +kernel), by decide +kernel⟩,
   ⟨wit, _, wCall [], rfl, ready_of (by decide +kernel), by decide +kernel⟩,
   ⟨wit, _, wCall ([1, 0, 0, 0]), 0, rfl, ready_of (by decide +kernel), by decide +kernel⟩,
   ⟨{ wit with sec := { wit.sec with life := .manufacture } }, _, { wCall ([0, 0, 0, 0]) with src := .sideband }, rfl, ready_of
     (by decide +kernel), by decide +kernel⟩,
   ⟨{ wit with sec := { wit.sec with unauth := [.primary, .primary, .primary, .primary] } }, _, wCall ([1, 0, 0, 0]), 0, rfl, ready_of
     (by decide +kernel), by decide +kernel⟩⟩

theorem test_PowerStateCommandsComplete :
    (∃ (s : State) (u : State) (c : Call), u = s.at c.start ∧ ReadySlow u c 0x0005 ∧ c.payload.length = 4 ∧ reserved c.payload 1 3 = none
      ∧ needLeaseOrSafety u c lARRAY = none ∧ ((u8 c.payload 0 = 2 ∧ u.pw.st = .standby) ∨ (u8 c.payload 0 = 3 ∧ u.pw.st = .active))) ∧
    (∃ (s : State) (u : State) (c : Call), u = s.at c.start ∧ ReadySlow u c 0x0005 ∧ c.payload.length = 4 ∧ reserved c.payload 1 3 = none
      ∧ needLeaseOrSafety u c lARRAY = none ∧ u8 c.payload 0 = 2 ∧ u.pw.st = .active) ∧
    (∃ (s : State) (u : State) (c : Call), u = s.at c.start ∧ ReadySlow u c 0x0005 ∧ c.payload.length = 4 ∧ reserved c.payload 1 3 = none
      ∧ needLeaseOrSafety u c lARRAY = none ∧ u8 c.payload 0 = 3 ∧ u.pw.st = .standby ∧ pllOf u 0 = .fail) ∧
    (∃ (s : State) (u : State) (c : Call), u = s.at c.start ∧ ReadySlow u c 0x0005 ∧ c.payload.length = 4 ∧ reserved c.payload 1 3 = none
      ∧ needLeaseOrSafety u c lARRAY = none ∧ u8 c.payload 0 = 3 ∧ u.pw.st = .standby ∧ pllOf u 0 ≠ .fail) ∧
    (∃ (s : State) (u : State) (t : Time) (d : Time), u = s.at t ∧ u.pw.st = .standby ∧ u.rs.settleAt = some d ∧ d ≤ t) ∧
    (∃ (s : State) (u : State) (t : Time) (op : BitVec 16) (j : SlowJob), u = s.at t ∧ u.slow.find? (fun j => decide (j.opcode =
      op.toNat) && decide (j.deadline ≤ t)) = some j) :=
  ⟨⟨{ wit with pw := { wit.pw with st := .standby } }, _, wCall ([2, 0, 0, 0]), rfl, readySlow_of (by decide +kernel), by decide +kernel⟩,
   ⟨wit, _, wCall ([2, 0, 0, 0]), rfl, readySlow_of (by decide +kernel), by decide +kernel⟩,
   ⟨{ wit with pw := { wit.pw with st := .standby, plls := List.replicate 4 { Pll.reset with st := .fail } } }, _, wCall ([3, 0, 0, 0]),
     rfl, readySlow_of (by decide +kernel), by decide +kernel⟩,
   ⟨{ wit with pw := { wit.pw with st := .standby } }, _, wCall ([3, 0, 0, 0]), rfl, readySlow_of (by decide +kernel), by decide +kernel⟩,
   ⟨{ wit with pw := { wit.pw with st := .standby }, rs := { wit.rs with settleAt := some 0 } }, _, 0, 0, rfl, by decide +kernel⟩,
   ⟨{ wit with slow := [⟨.port 0, 5, 7, 0, 3, none⟩] }, _, 0, 5, ⟨.port 0, 5, 7, 0, 3, none⟩, rfl, by decide +kernel⟩⟩

theorem test_FaultLogIsReadClearedRepeated :
    (∃ (s : State) (u : State) (c : Call), u = s.at c.start ∧ Ready u c 0x0006 ∧ c.payload.length = 4 ∧ u16 c.payload 0 ≤ 63 ∧ 1 ≤ u8
      c.payload 2 ∧ u8 c.payload 2 ≤ 47 ∧ u8 c.payload 3 = 0 ∧ u.log.entries.length ≤ 64) ∧
    (∃ (s : State) (u : State) (c : Call), u = s.at c.start ∧ Ready u c 0x0007 ∧ c.payload.length = 4 ∧ needLeaseOrSafety u c lARRAY =
      none) ∧
    (∃ (s : State) (u : State) (t : Time) (code : BitVec 16) (inst : BitVec 16) (i : Nat) (e : FaultEntry), u = s.at t ∧
      u.log.entries.findIdx? (fun e => decide (e.code = code.toNat) && decide (e.inst = inst.toNat) && e.repeated && decide (e.lastNote +
      sec ≤ t)) = some i ∧ u.log.entries[i]? = some e) ∧
    (∃ (s : State) (u : State) (t : Time) (code : BitVec 16) (inst : BitVec 16), u = s.at t ∧ (∀ e ∈ u.log.entries, e.code = code.toNat →
      e.inst = inst.toNat → t < e.lastNote + sec)) :=
  ⟨⟨{ wit with log := ⟨[⟨1, 0, 2, true, .standing, 0, 0, true, 0⟩, ⟨2, 3, 2, false, .latched, 0, 0, false, 0⟩], 1, false⟩ }, _, wCall
     ([0, 0, 47, 0]), rfl, ready_of (by decide +kernel), by decide +kernel⟩,
   ⟨{ wit with log := ⟨[⟨1, 0, 2, true, .standing, 0, 0, true, 0⟩, ⟨2, 3, 2, false, .latched, 0, 0, false, 0⟩], 1, false⟩ }, _, wCall
     ([0xFF, 0xFF, 0xFF, 0xFF]), rfl, ready_of (by decide +kernel), by decide +kernel⟩,
   ⟨{ wit with log := ⟨[⟨1, 0, 2, true, .standing, 0, 0, true, 0⟩], 1, false⟩ }, _, sec, 1, 0, 0, ⟨1, 0, 2, true, .standing, 0, 0, true,
     0⟩, rfl, by decide +kernel⟩,
   ⟨{ wit with log := ⟨[⟨1, 0, 2, true, .standing, 0, 0, true, 0⟩], 1, false⟩ }, _, sec - 1, 1, 0, rfl, by decide +kernel⟩⟩

theorem test_TimeSyncStepsAndSlews :
    (∃ (s : State) (u : State) (c : Call) (p : PortIx), u = s.at c.start ∧ Ready u c 0x0020 ∧ c.payload.length = 8 ∧ reserved c.payload 2
      6 = none ∧ needLeaseOrSafety u c lARRAY = none ∧ u8 c.payload 0 = p.val ∧ u8 c.payload 1 = 0 ∧ (u.port p).lt.valid = true ∧ c.start
      ≤ (u.port p).lt.lastCell + 100 * ms ∧ arrayRunning u = false ∧ trigAtPending u = false ∧ ringOpenSegment u = false) ∧
    (∃ (s : State) (u : State) (c : Call) (p : PortIx), u = s.at c.start ∧ Ready u c 0x0020 ∧ c.payload.length = 8 ∧ reserved c.payload 2
      6 = none ∧ needLeaseOrSafety u c lARRAY = none ∧ u8 c.payload 0 = p.val ∧ u8 c.payload 1 = 1 ∧ (u.port p).lt.valid = true ∧ c.start
      ≤ (u.port p).lt.lastCell + 100 * ms ∧ (u.port p).lt.theta.natAbs ≤ 10000000) ∧
    (∃ (s : State) (u : State) (t : Time), u = s.at t ∧ u.clk.slew ≠ 0 ∧ slewLeft u.clk t = 0) :=
  ⟨⟨witPort (fun q => { q with lt := { q.lt with valid := true, theta := -5 } }), _, wCall (zeros 8), 0, rfl, ready_of
     (by decide +kernel), by decide +kernel⟩,
   ⟨witPort (fun q => { q with lt := { q.lt with valid := true, theta := 10000000 } }), _, wCall ([0, 1, 0, 0, 0, 0, 0, 0]), 0, rfl,
     ready_of (by decide +kernel), by decide +kernel⟩,
   ⟨{ wit with clk := { wit.clk with slew := 5 } }, _, sec, rfl, by decide +kernel⟩⟩

theorem test_LeasesAreGrantedAndEnd :
    (∃ (s : State) (u : State) (c : Call) (p : PortIx) (b : Nat), u = s.at c.start ∧ Ready u c 0x0100 ∧ c.src = .port p ∧
      c.payload.length = 8 ∧ portRole u p ≠ .viewer ∧ leaseBit (u8 c.payload 0) = some b ∧ reservedBits c.payload 1 0xFE = none ∧
      reserved c.payload 2 2 = none ∧ termOk (u32 c.payload 4) = true ∧ u.leases.length = 30 ∧ (acquireHolder u b c.stamp = none ∨
      acquireHolder u b c.stamp = some p ∨ ∃ q : PortIx, acquireHolder u b c.stamp = some q ∧ portRole u p = .safety ∧ bit (u8 c.payload
      1) 0 = true ∧ portRole u q ≠ .safety)) ∧
    (∃ (s : State) (u : State) (c : Call) (p : PortIx), u = s.at c.start ∧ Ready u c 0x0102 ∧ c.src = .port p ∧ c.payload.length = 8 ∧
      reserved c.payload 1 3 = none ∧ termOk (u32 c.payload 4) = true ∧ u.leases.length = 30 ∧ namedLeases u c (u8 c.payload 0) ≠ [] ∧ (∀
      b ∈ namedLeases u c (u8 c.payload 0), (u.lease b).holder = some p ∧ leaseEnd u b c.start = none)) ∧
    (∃ (s : State) (u : State) (c : Call) (p : PortIx), u = s.at c.start ∧ Ready u c 0x0101 ∧ c.src = .port p ∧ c.payload.length = 4 ∧
      reserved c.payload 1 3 = none ∧ u.leases.length = 30 ∧ namedLeases u c (u8 c.payload 0) ≠ [] ∧ (∀ b ∈ namedLeases u c (u8 c.payload
      0), (u.lease b).holder = some p ∧ leaseEnd u b c.start = none)) ∧
    (∃ (u : State) (b : Nat) (p : PortIx) (t : Time) (stamp : Time), stamp < t ∧ leaseEnd u b stamp = none ∧ (u.lease b).holder ≠ some p) ∧
    (∃ (u : State) (b : Nat) (p : PortIx) (t : Time) (stamp : Time), stamp < t ∧ leaseEnd u b stamp = none ∧ (u.lease b).holder = some p) ∧
    (∃ (s : State) (u : State) (t : Time) (e : Time) (r : Fin 30), u = s.at t ∧ (∀ (p : PortIx) (d : Time), (u.lease r.val).holder = some
      p → (u.port p).dropAt = some d → e ≤ d + 250 * ms) ∧ u.leases.length = 30 ∧ (u.lease r.val).holder.isSome = true ∧ (u.lease
      r.val).expires = some e ∧ e ≤ t ∧ u.ports.length = 4) ∧
    (∃ (u : State) (b : Nat) (e : Time) (stamp : Time), (u.lease b).expires = some e ∧ e ≤ stamp ∧ (∀ x ∈ u.leaseLog, x.b = b → x.at_ ≤
      stamp)) ∧
    (∃ (s : State) (u : State) (c : Call) (p : PortIx), u = s.at c.start ∧ Ready u c 0x0102 ∧ c.src = .port p ∧ c.payload.length = 8 ∧
      (leaseBit (u8 c.payload 0)).isSome = true ∧ namedLeases u c (u8 c.payload 0) ≠ [] ∧ reserved c.payload 1 3 = none ∧ 0 < u32
      c.payload 4 ∧ (u32 c.payload 4 < 100 ∨ 60000 < u32 c.payload 4)) ∧
    (∃ (s : State) (u : State) (c : Call) (p : PortIx), u = s.at c.start ∧ Ready u c 0x0100 ∧ c.src = .port p ∧ c.payload.length = 8 ∧
      portRole u p ≠ .viewer ∧ (leaseBit (u8 c.payload 0)).isSome = true ∧ reservedBits c.payload 1 0xFE = none ∧ reserved c.payload 2 2
      = none ∧ 0 < u32 c.payload 4 ∧ (u32 c.payload 4 < 100 ∨ 60000 < u32 c.payload 4) ∧ acquireHolder u ((leaseBit (u8 c.payload
      0)).getD 30) c.stamp = none) ∧
    (∃ (s : State) (u : State) (t : Time) (d : Time) (p : PortIx), u = s.at t ∧ u.leases.length = 30 ∧ (u.port p).dropAt = some d ∧ d +
      250 * ms ≤ t) :=
  ⟨⟨{ wit with leases := List.replicate 30 freeLease }, _, wCall (zeros 4 ++ leBytes 4 100), 0, 0, rfl, ready_of (by decide +kernel),
     by decide +kernel⟩,
   ⟨wit, _, wCall (zeros 4 ++ leBytes 4 60000), 0, rfl, ready_of (by decide +kernel), by decide +kernel⟩,
   ⟨wit, _, wCall (zeros 4), 0, rfl, ready_of (by decide +kernel), by decide +kernel⟩,
   ⟨wit, 0, 1, 1, 0, by decide +kernel⟩,
   ⟨wit, 0, 0, 1, 0, by decide +kernel⟩,
   ⟨witExp, _, 0, 0, 0, rfl, (fun p _ _ h => nomatch (witExp_up p).symm.trans h), by decide +kernel⟩,
   ⟨witExp, 0, 0, 0, by decide +kernel⟩,
   ⟨wit, _, wCall (zeros 4 ++ leBytes 4 99), 0, rfl, ready_of (by decide +kernel), by decide +kernel⟩,
   ⟨{ wit with leases := List.replicate 30 freeLease }, _, wCall ([0x40, 0, 0, 0] ++ leBytes 4 60001), 0, rfl, ready_of
     (by decide +kernel), by decide +kernel⟩,
   ⟨witPort (fun q => { q with dropAt := some 0 }), _, 250 * ms, 0, 0, rfl, by decide +kernel⟩⟩

theorem test_SelfTestsStartAndEnd :
    (∃ (s : State) (u : State) (t : Time), u = s.at t ∧ u.diag.run = 0 ∧ arrayRunning u = false) ∧
    (∃ (s : State) (u : State) (t : Time), u = s.at t ∧ u.diag.run = 0 ∧ openLife u = true ∧ memRunning u = true ∧ noStores u = true ∧
      noSealed u = true) ∧
    (∃ (s : State) (u : State) (t : Time), u = s.at t ∧ u.diag.run = 0 ∧ linkBistOk u = true) ∧
    (∃ (s : State) (u : State) (t : Time) (tiles : List (TileIx × List (List Nat))) (fails : List Nat), u = s.at t ∧ u.diag.run = 1 ∧
      storeWf u.regs = true ∧ tiles.map (fun x => x.1) = allTiles.filter (fun k => (enOf u u.arr.active).getD k.val false) ∧ fails =
      tiles.flatMap (fun x => (badColumns x.2).map (fun c => 512 * x.1.val + c)) ∧ fails.length < 2 ^ 32) ∧
    (∃ (s : State) (u : State) (t : Time) (fails : List Nat), u = s.at t ∧ u.diag.run = 2 ∧ fails.length < 2 ^ 32 ∧ storeWf u.regs = true
      ∧ u.mem.wait = []) ∧
    (∃ (s : State) (u : State) (t : Time) (errors : List Nat), u = s.at t ∧ u.diag.run = 3 ∧ errors.length = 4 ∧ storeWf u.regs = true) :=
  ⟨⟨wit, _, 0, rfl, by decide +kernel⟩,
   ⟨{ wit with sec := { wit.sec with life := .manufacture } }, _, 0, rfl, by decide +kernel⟩,
   ⟨witPort (fun q => { q with tr := { q.tr with st := .quiet } }), _, 0, rfl, by decide +kernel⟩,
   ⟨{ wit with diag := ⟨1, 0, 0⟩, arr := { wit.arr with active := { wit.arr.active with tiles := List.replicate 191 { wit.arr.active.tile 0 with en := false } ++ [{ wit.arr.active.tile 0 with en := true }] } } },
     _, 0, [(191, [[256, 264, 273], [1024, 1024, 1024], [2048, 2048, 2048], [3840, 3840, 3840]])], [512 * 191 + 2], rfl,
     by decide +kernel⟩,
   ⟨{ wit with diag := ⟨2, 0, 0⟩ }, _, 0, [9], rfl, by decide +kernel⟩,
   ⟨{ wit with diag := ⟨3, 2, 0⟩ }, _, 0, [0, 0, 0, 4], rfl, by decide +kernel⟩⟩

theorem test_ReadRegPeeks :
    (∃ (s : State) (u : State) (c : Call) (a : Nat) (n : Nat) (f : Nat) (l : List Nat), u = s.at c.start ∧ Ready u c 0x0010 ∧ c.payload =
      leBytes 4 a ++ [byte n, byte f, 0, 0] ∧ a + 44 ≤ 2 ^ 32 ∧ a % 4 = 0 ∧ 1 ≤ n ∧ n ≤ 11 ∧ f ≤ 1 ∧ l = (List.range n).map (fun k => a +
      4 * k) ∧ (∀ x ∈ l, (blockOf x).isSome = true ∧ blockOf x ≠ some .sec)) ∧
    (∃ (s : State) (u : State) (c : Call), u = s.at c.start ∧ Ready u c 0x0010 ∧ c.payload = leBytes 4 aDIAG_MOSAIC_DROP ++ [1, 0, 0, 0]
      ∧ clears u c aDIAG_MOSAIC_DROP = true ∧ storeWf u.regs = true) ∧
    (∃ (s : State) (u : State) (c : Call) (a : Nat) (d : RegDef), u = s.at c.start ∧ Ready u c 0x0010 ∧ c.payload = leBytes 4 a ++ [1, 1,
      0, 0] ∧ a < 2 ^ 32 ∧ a % 4 = 0 ∧ regAt a = some d ∧ (blockOf a).isSome = true ∧ blockOf a ≠ some .sec ∧ blockOf a ≠ some .tmr ∧ a ≠
      aPCLK_WDT ∧ a ≠ aPCLK_SRAM ∧ a ≠ aPIO_IN 0 ∧ a ≠ aPIO_IN 1) ∧
    (∃ (s : State) (u : State) (c : Call) (a : Nat), u = s.at c.start ∧ Served u c 0x0010 ∧ c.payload = leBytes 4 a ++ [1, 1, 0, 0] ∧ a <
      2 ^ 32 ∧ blockOf a = some .sec) :=
  ⟨⟨wit, _, wCall (leBytes 4 0x08000004 ++ [1, 1, 0, 0]), 0x08000004, 1, 1, [0x08000004], rfl, ready_of (by decide +kernel),
     by decide +kernel⟩,
   ⟨{ wit with sec := { wit.sec with life := .manufacture } }, _, wCall (leBytes 4 aDIAG_MOSAIC_DROP ++ [1, 0, 0, 0]), rfl, ready_of
     (by decide +kernel), by decide +kernel⟩,
   ⟨wit, _, wCall (leBytes 4 0x08000004 ++ [1, 1, 0, 0]), 0x08000004,
     { name := "THERM_THR1", base := 0x08000004, s1 := 0x0, n1 := 1, s2 := 0x0, n2 := 1, flds := ((regAt 0x08000004).map RegDef.flds).getD [] },
     rfl, ready_of (by decide +kernel), by decide +kernel⟩,
   ⟨wit, _, wCall (leBytes 4 0x0F000000 ++ [1, 1, 0, 0]), 0x0F000000, rfl, served_of (by decide +kernel), by decide +kernel⟩⟩

theorem test_WriteRegMergesOrRefusesAsAWhole :
    (∃ (s : State) (u : State) (c : Call) (n : Nat) (l : List (Nat × (Nat × Nat × Nat))), u = s.at c.start ∧ Ready u c 0x0011 ∧ 1 ≤ n ∧ n
      ≤ 4 ∧ c.payload.length = 12 * n ∧ u.sec.untrusted = false ∧ l = (List.range n).map (fun k => (k, tripleAt c.payload k)) ∧ (∀ x ∈
      writeChecks c l u, x = none)) ∧
    (∃ (s : State) (u : State) (c : Call) (a : Nat) (v : Nat) (m : Nat) (r : RegDef), u = s.at c.start ∧ Ready u c 0x0011 ∧ c.payload =
      leBytes 4 a ++ leBytes 4 v ++ leBytes 4 m ∧ a < 2 ^ 32 ∧ v < 2 ^ 32 ∧ m < 2 ^ 32 ∧ u.sec.untrusted = false ∧ regAt a = some r ∧
      blockOf a = some .therm ∧ m ≠ 0 ∧ Nat.land m (writable r) = m ∧ writable r < 2 ^ 32 ∧ storeWf u.regs = true ∧ (∀ x ∈ tripleChecks u
      c 0 (a, v, m), x = none)) ∧
    (∃ (s : State) (u : State) (c : Call) (r : Reject), u = s.at c.start ∧ Ready u c 0x0011 ∧ c.payload.length = 24 ∧ u.sec.untrusted =
      false ∧ judge (writeChecks c [(0, tripleAt c.payload 0), (1, tripleAt c.payload 1)] u) = some r) ∧
    (∃ (s : State) (u : State) (c : Call), u = s.at c.start ∧ Ready u c 0x0011 ∧ c.payload.length = 12 ∧ u.sec.untrusted = true ∧ blockOf
      (u32 c.payload 0) = some .therm) :=
  ⟨⟨wit, _, wCall (leBytes 4 0x08000004 ++ leBytes 4 1 ++ leBytes 4 0xF), 1, [(0, (0x08000004, 1, 0xF))], rfl, ready_of
     (by decide +kernel), by decide +kernel⟩,
   ⟨wit, _, wCall (leBytes 4 0x08000004 ++ leBytes 4 1 ++ leBytes 4 0xF), 0x08000004, 1, 0xF,
     { name := "THERM_THR1", base := 0x08000004, s1 := 0x0, n1 := 1, s2 := 0x0, n2 := 1, flds := ((regAt 0x08000004).map RegDef.flds).getD [] },
     rfl, ready_of (by decide +kernel), by decide +kernel⟩,
   ⟨wit, _, wCall (leBytes 4 0xFFFFFFFF ++ zeros 20), ⟨.badArg, 0⟩, rfl, ready_of (by decide +kernel), by decide +kernel⟩,
   ⟨{ wit with sec := { wit.sec with untrusted := true } }, _, wCall (leBytes 4 0x08000004 ++ zeros 8), rfl, ready_of
     (by decide +kernel), by decide +kernel⟩⟩

theorem test_ResetSourcesBootWithTheirCause :
    (∃ (s : State) (u : State) (t : Time), u = s.at t ∧ (u.pw.st = .off ∨ (u.pw.st = .boot ∧ u.pw.bootStep = 0 ∧ u.pw.refLost = false))) ∧
    (∃ (s : State) (u : State) (t : Time) (w : Time), u = s.at t ∧ 10 * us ≤ w ∧ u.pw.st ≠ .off ∧ u.pw.st ≠ .dusk ∧ u.pw.st ≠ .buoy ∧
      u.pw.st ≠ .dawn ∧ u.pw.refLost = false) ∧
    (∃ (s : State) (u : State) (t : Time) (d : Time) (r : ResetReq), u = s.at t ∧ cpuRuns u = true ∧ u.rs.req = some r ∧ r.due = some d ∧
      d ≤ t) ∧
    (∃ (s : State) (u : State) (t : Time), u = s.at t ∧ cpuRuns u = true ∧ u.clk.upSince + u.fld aPCLK_WDT 31 16 * ms ≤ t) ∧
    (∃ (s : State) (u : State) (t : Time), u = s.at t ∧ cpuRuns u = true) ∧
    (∃ (s : State) (u : State) (t : Time), u = s.at t ∧ cpuRuns u = true) ∧
    (∃ (s : State) (u : State) (t : Time), u = s.at t ∧ u.pw.refLost = true ∧ u.pw.refLostAt + ms ≤ t) ∧
    (∃ (s : State) (u : State) (t : Time) (a : Time) (b : Time), u = s.at t ∧ u.pw.st = .shutdown ∧ u.th.shutAt = some a ∧ u.th.coolAt =
      some b ∧ a + sec ≤ t ∧ b + sec ≤ t) ∧
    (∃ (w : Time), w < 10 * us) ∧
    (∃ (s : State) (u : State) (t : Time) (w : Time), u = s.at t ∧ 10 * us ≤ w ∧ (u.pw.st = .dusk ∨ u.pw.st = .buoy ∨ u.pw.st = .dawn)) ∧
    (∃ (s : State) (u : State) (t : Time) (w : Time), u = s.at t ∧ 10 * us ≤ w ∧ u.pw.st ≠ .off ∧ u.pw.st ≠ .dusk ∧ u.pw.st ≠ .buoy ∧
      u.pw.st ≠ .dawn ∧ u.pw.refLost = true) :=
  ⟨⟨{ wit with pw := { wit.pw with st := .off } }, _, ms, rfl, by decide +kernel⟩,
   ⟨wit, _, 0, 10 * us, rfl, by decide +kernel⟩,
   ⟨{ wit with rs := { wit.rs with req := some ⟨true, .port 0, some 0⟩ } }, _, 0, 0, ⟨true, .port 0, some 0⟩, rfl, by decide +kernel⟩,
   ⟨wit, _, 100 * sec, rfl, by decide +kernel⟩,
   ⟨wit, _, 0, rfl, by decide +kernel⟩,
   ⟨wit, _, 0, rfl, by decide +kernel⟩,
   ⟨{ wit with pw := { wit.pw with refLost := true } }, _, ms, rfl, by decide +kernel⟩,
   ⟨{ wit with pw := { wit.pw with st := .shutdown }, th := { wit.th with shutAt := some 0, coolAt := some 0 } }, _, sec, 0, 0, rfl,
     by decide +kernel⟩,
   ⟨10 * us - 1, by decide +kernel⟩,
   ⟨{ wit with pw := { wit.pw with st := .buoy } }, _, 0, 10 * us, rfl, by decide +kernel⟩,
   ⟨{ wit with pw := { wit.pw with refLost := true } }, _, 0, 10 * us, rfl, by decide +kernel⟩⟩

theorem test_SuppliesFailAndReturn :
    (∃ (s : State) (u : State) (t : Time) (vio : Bool) (vcore : Bool), u = s.at t ∧ s.clk.now ≤ t ∧ (vio || vcore) = true ∧ u.pw.st ≠
      .off ∧ u.pw.st ≠ .dusk ∧ u.pw.st ≠ .buoy ∧ u.pw.st ≠ .shutdown ∧ inDawn u t = false ∧ u.otp.stopDusk = none ∧ u.otp.jobs = [] ∧
      duskOk u = true) ∧
    (∃ (s : State) (u : State) (t : Time) (vio : Bool) (vcore : Bool), u = s.at t ∧ s.clk.now ≤ t ∧ (vio || vcore) = true ∧ u.pw.st =
      .shutdown ∧ inDawn u t = false ∧ u.otp.stopDusk = none ∧ u.otp.jobs = [] ∧ duskOk u = true) ∧
    (∃ (s : State) (u : State) (t : Time) (vio : Bool) (vcore : Bool), u = s.at t ∧ s.clk.now ≤ t ∧ (vio || vcore) = true ∧ inDawn u t =
      true ∧ u.pw.st ≠ .off ∧ u.pw.st ≠ .dusk ∧ u.pw.st ≠ .buoy ∧ u.otp.stopDusk = none ∧ u.otp.jobs = [] ∧ duskOk u = true) ∧
    (∃ (s : State) (u : State) (t : Time) (vio : Bool) (vcore : Bool), u = s.at t ∧ (vio || vcore) = true ∧ u.pw.st ≠ .off ∧ u.pw.st ≠
      .dusk ∧ u.pw.st ≠ .buoy ∧ u.otp.stopDusk = none ∧ u.otp.jobs ≠ [] ∧ duskOk u = true) ∧
    (∃ (s : State) (u : State) (t : Time) (vio : Bool) (vcore : Bool), u = s.at t ∧ (vio || vcore) = true ∧ u.pw.st ≠ .off ∧ u.pw.st ≠
      .dusk ∧ u.pw.st ≠ .buoy ∧ u.otp.stopDusk = none ∧ duskOk u = false) ∧
    (∃ (s : State) (u : State) (t : Time), u = s.at t ∧ u.pw.st ≠ .off ∧ u.pw.st ≠ .dusk ∧ u.pw.st ≠ .buoy ∧ inDawn u t = false) ∧
    (∃ (s : State) (u : State) (t : Time) (sg : Time), u = s.at t ∧ s.clk.now ≤ t ∧ u.pw.st ≠ .off ∧ u.pw.st ≠ .dusk ∧ u.pw.st ≠ .buoy ∧
      inDawn u t = true ∧ u.pw.dawnFrom = some sg ∧ t < sg + 3 * ms ∧ duskOk u = true) ∧
    (∃ (s : State) (u : State) (t : Time), u = s.at t ∧ u.pw.st ≠ .dusk ∧ u.pw.st ≠ .buoy ∧ u.pw.st ≠ .dawn) ∧
    (∃ (s : State) (u : State) (t : Time), u = s.at t ∧ u.pw.st = .buoy) ∧
    (∃ (s : State) (u : State) (t : Time) (held : Time), u = s.at t ∧ (u.pw.st = .buoy ∨ u.pw.st = .dusk) ∧ held + ms ≤ t ∧
      u.rs.porLatched = false) ∧
    (∃ (s : State) (u : State) (t : Time), u = s.at t ∧ u.pw.st = .dawn ∧ u.pw.bootKind = .dawn ∧ u.mem.st = .init ∧ u.mem.prior = .init
      ∧ u.mem.initTill = none ∧ pllOf u 2 = .locked ∧ u.pw.bootFrom + 17 * ms / 5 ≤ t ∧ (tableOf u.mem u.mem.changeTo).isSome = true ∧
      u.mem.changePend = false ∧ u.mem.sweepPend = false ∧ u.rs.porLatched = false) ∧
    (∃ (s : State) (u : State) (t : Time), u = s.at t ∧ u.pw.st = .dawn ∧ u.pw.bootKind = .dawn ∧ u.mem.st = .init ∧ u.mem.prior = .init
      ∧ u.mem.initTill = none ∧ pllOf u 2 = .locked ∧ u.pw.bootFrom + 17 * ms / 5 ≤ t ∧ (tableOf u.mem u.mem.changeTo).isSome = true ∧
      u.mem.changePend = false ∧ u.mem.sweepPend = false ∧ u.rs.porLatched = true) ∧
    (∃ (s : State) (u : State) (t : Time), u = s.at t ∧ u.pw.st = .dawn ∧ u.mem.st = .init ∧ u.mem.initTill = none ∧ pllOf u 2 = .locked
      ∧ u.pw.bootFrom + 17 * ms / 5 ≤ t) ∧
    (∃ (s : State) (u : State) (t : Time) (results : List LaneWin), u = s.at t ∧ u.pw.st ≠ .dawn ∧ u.mem.st = .train ∧ results.length =
      104 ∧ (∀ r ∈ results, 16 ≤ laneWidth r) ∧ u.mem.sweepBin < u.mem.tables.length) ∧
    (∃ (s : State) (u : State) (t : Time) (results : List LaneWin), u = s.at t ∧ u.mem.st = .train ∧ (∃ r ∈ results, laneWidth r < 16) ∧
      0 < u.mem.sweepBin) ∧
    (∃ (s : State) (u : State) (t : Time) (results : List LaneWin), u = s.at t ∧ u.pw.st ≠ .dawn ∧ u.mem.st = .train ∧ (∃ r ∈ results,
      laneWidth r < 16) ∧ u.mem.sweepBin = 0) ∧
    (∃ (s : State) (u : State) (t : Time) (results : List LaneWin), u = s.at t ∧ u.pw.st = .dawn ∧ u.pw.bootKind = .dawn ∧ u.mem.st =
      .train ∧ results.length = 104 ∧ (∀ r ∈ results, 16 ≤ laneWidth r) ∧ u.rs.porLatched = false ∧ u.mem.sweepPend = false ∧
      u.mem.changePend = false) :=
  ⟨⟨{ wit with regs := [(aHOLD_CTL, 1), (aHOLD_CFG, 1400 + 100 * 65536)], hold := { wit.hold with ocv := 1400, srcClass := 1, caps := [200] }, pw := { wit.pw with st := .active } },
     _, 0, true, false, rfl, by decide +kernel⟩,
   ⟨{ wit with regs := [(aHOLD_CTL, 1), (aHOLD_CFG, 1400 + 100 * 65536)], hold := { wit.hold with ocv := 1400, srcClass := 1, caps := [200] }, pw := { wit.pw with st := .shutdown } },
     _, 0, true, false, rfl, by decide +kernel⟩,
   ⟨{ wit with regs := [(aHOLD_CTL, 1), (aHOLD_CFG, 1400 + 100 * 65536)], hold := { wit.hold with ocv := 1400, srcClass := 1, caps := [200] }, pw := { wit.pw with st := .dawn, bootKind := .dawn, dawnFrom := some 0, dawnTill := 5400 } },
     _, 0, true, false, rfl, by decide +kernel⟩,
   ⟨{ wit with regs := [(aHOLD_CTL, 1), (aHOLD_CFG, 1400 + 100 * 65536)], hold := { wit.hold with ocv := 1400, srcClass := 1, caps := [200] }, pw := { wit.pw with st := .standby }, otp := { wit.otp with jobs := [killJob] } },
     _, 0, true, false, rfl, by decide +kernel⟩,
   ⟨wit, _, 0, true, false, rfl, by decide +kernel⟩,
   ⟨wit, _, 0, rfl, by decide +kernel⟩,
   ⟨{ wit with regs := [(aHOLD_CTL, 1), (aHOLD_CFG, 1400 + 100 * 65536)], hold := { wit.hold with ocv := 1400, srcClass := 1, caps := [200] }, pw := { wit.pw with st := .dawn, bootKind := .dawn, dawnFrom := some 0, dawnTill := 5400 } },
     _, 0, 0, rfl, by decide +kernel⟩,
   ⟨wit, _, 0, rfl, by decide +kernel⟩,
   ⟨{ wit with pw := { wit.pw with st := .buoy } }, _, 0, rfl, by decide +kernel⟩,
   ⟨{ wit with pw := { wit.pw with st := .buoy } }, _, ms, 0, rfl, by decide +kernel⟩,
   ⟨{ wit with pw := { wit.pw with st := .dawn, bootKind := .dawn, dawnFrom := some 0, dawnTill := 5400 }, mem := { wit.mem with st := .init, prior := .init, tables := [⟨true, []⟩, ⟨true, []⟩, ⟨true, []⟩] } },
     _, 10 * ms, rfl, by decide +kernel⟩,
   ⟨{ wit with pw := { wit.pw with st := .dawn, bootKind := .dawn, dawnFrom := some 0, dawnTill := 5400 }, mem := { wit.mem with st := .init, prior := .init, tables := [⟨true, []⟩, ⟨true, []⟩, ⟨true, []⟩] }, rs := { wit.rs with porLatched := true } },
     _, 10 * ms, rfl, by decide +kernel⟩,
   ⟨{ wit with pw := { wit.pw with st := .dawn, bootKind := .dawn, dawnFrom := some 0, dawnTill := 5400 }, mem := { wit.mem with st := .init, prior := .init, tables := [⟨true, []⟩, ⟨true, []⟩, ⟨true, []⟩] } },
     _, 10 * ms, rfl, by decide +kernel⟩,
   ⟨{ wit with pw := { wit.pw with st := .standby }, mem := { wit.mem with st := .train, prior := .run } }, _, 0, List.replicate 104
     ((10, 16), (10, 16)), rfl, by decide +kernel⟩,
   ⟨{ wit with pw := { wit.pw with st := .standby }, mem := { wit.mem with st := .train, prior := .run, sweepBin := 1 } }, _, 0, [((10,
     15), (10, 16))], rfl, by decide +kernel⟩,
   ⟨{ wit with pw := { wit.pw with st := .standby }, mem := { wit.mem with st := .train, prior := .run, sweepBin := 0 } }, _, 0, [((10,
     15), (10, 16))], rfl, by decide +kernel⟩,
   ⟨{ wit with pw := { wit.pw with st := .dawn, bootKind := .dawn, dawnFrom := some 0, dawnTill := 5400 }, mem := { wit.mem with st := .train, prior := .run } },
     _, 0, List.replicate 104 ((10, 16), (10, 16)), rfl, by decide +kernel⟩⟩

theorem test_ClocksAreLostAndLock :
    (∃ (s : State) (u : State) (t : Time), u = s.at t ∧ u.pw.refLost = false ∧ (u.pw.st = .boot ∨ u.pw.st = .standby ∨ u.pw.st = .active
      ∨ u.pw.st = .shutdown ∨ u.pw.st = .dawn) ∧ u.otp.stopDusk = none) ∧
    (∃ (s : State) (u : State) (t : Time), u = s.at t ∧ u.pw.lfxtalOk = true ∧ u.pw.st ≠ .off) ∧
    (∃ (s : State) (u : State) (t : Time), u = s.at t ∧ u.pw.keepRc = true ∧ u.pw.st ≠ .off ∧ u.pw.lfWaitFrom = none) ∧
    (∃ (s : State) (u : State) (t : Time) (a : Time), u = s.at t ∧ u.pw.keepRc = true ∧ u.pw.st ≠ .off ∧ u.pw.lfWaitFrom = some a) ∧
    (∃ (s : State) (u : State) (t : Time) (a : Time), u = s.at t ∧ u.pw.lfWaitFrom = some a ∧ a + 2 * sec ≤ t) ∧
    (∃ (s : State) (u : State) (t : Time) (n : Fin 4), u = s.at t ∧ u.pw.plls.length = 4 ∧ pllOf u n.val = .acquire) ∧
    (∃ (s : State) (u : State) (t : Time) (n : Fin 4), u = s.at t ∧ u.pw.plls.length = 4 ∧ pllOf u n.val = .acquire ∧ (u.pll n.val).since
      + (u.pll n.val).tmo ≤ t) ∧
    (∃ (s : State) (u : State) (t : Time) (n : Fin 4), u = s.at t ∧ u.pw.plls.length = 4 ∧ pllOf u n.val = .locked) :=
  ⟨⟨wit, _, 0, rfl, by decide +kernel⟩,
   ⟨{ wit with pw := { wit.pw with st := .standby, lfxtalOk := true } }, _, 0, rfl, by decide +kernel⟩,
   ⟨{ wit with pw := { wit.pw with st := .standby, keepRc := true } }, _, 0, rfl, by decide +kernel⟩,
   ⟨{ wit with pw := { wit.pw with st := .boot, keepRc := true, lfWaitFrom := some 0 } }, _, 0, 0, rfl, by decide +kernel⟩,
   ⟨{ wit with pw := { wit.pw with st := .boot, lfWaitFrom := some 0 } }, _, 2 * sec, 0, rfl, by decide +kernel⟩,
   ⟨{ wit with pw := { wit.pw with plls := List.replicate 4 { Pll.reset with st := .acquire, tries := 0 } } }, _, 0, 1, rfl,
     by decide +kernel⟩,
   ⟨{ wit with pw := { wit.pw with plls := List.replicate 4 { Pll.reset with st := .acquire, tries := 2 } } }, _, sec, 3, rfl,
     by decide +kernel⟩,
   ⟨{ wit with pw := { wit.pw with plls := List.replicate 4 { Pll.reset with st := .locked, tries := 0 } } }, _, 0, 1, rfl,
     by decide +kernel⟩⟩

theorem test_StagingCommandsChangeTheStagedSet :
    (∃ (s : State) (u : State) (c : Call) (p : PortIx), u = s.at c.start ∧ Ready u c 0x0200 ∧ HoldsLease u c p lARRAY ∧ c.payload.length
      = 8 ∧ 1 ≤ u8 c.payload 0 ∧ u8 c.payload 0 ≤ 5 ∧ reservedBits c.payload 1 0xF0 = none ∧ reservedBits c.payload 2 0xFC = none ∧ u8
      c.payload 3 = 0 ∧ (∀ x ∈ windowOk (bit (u8 c.payload 2) 1) (u16 c.payload 4) (u16 c.payload 6) 4, x = none)) ∧
    (∃ (s : State) (u : State) (c : Call) (p : PortIx), u = s.at c.start ∧ Ready u c 0x0201 ∧ HoldsLease u c p lARRAY ∧ c.payload.length
      = 16 ∧ u8 c.payload 0 ≤ 3 ∧ u8 c.payload 1 ≤ 15 ∧ u8 c.payload 2 ≤ 1 ∧ u8 c.payload 3 = 0 ∧ 41667 ≤ u32 c.payload 4 ∧ u32 c.payload
      4 ≤ 268435455 ∧ u16 c.payload 8 ≤ 1023 ∧ u16 c.payload 10 ≤ 1023 ∧ u16 c.payload 12 ≤ 1023 ∧ u16 c.payload 14 = 0) ∧
    (∃ (s : State) (u : State) (c : Call) (p : PortIx) (mask : Nat) (form : Nat) (first : Nat) (count : Nat) (vals : List Nat), u = s.at
      c.start ∧ Ready u c 0x0202 ∧ HoldsLease u c p lARRAY ∧ c.payload = [byte mask, byte form, byte first, byte count] ++ vals.flatMap
      (leBytes 3) ∧ 1 ≤ mask ∧ mask < 16 ∧ form ≤ 1 ∧ (form = 1 → mask = 1 ∨ mask = 2 ∨ mask = 4 ∨ mask = 8) ∧ vals.length = (if form = 0
      then 1 else count) ∧ (∀ v ∈ vals, 1 ≤ v ∧ v < 2 ^ 24) ∧ 1 ≤ count ∧ first + count ≤ 192 ∧ (∀ k : Nat, k < count → governed u (first
      + k) = false) ∧ u.arr.staged.tiles.length = 192) ∧
    (∃ (s : State) (u : State) (c : Call) (p : PortIx) (mask : Nat) (form : Nat) (first : Nat) (count : Nat) (vals : List Nat), u = s.at
      c.start ∧ Ready u c 0x0203 ∧ HoldsLease u c p lARRAY ∧ c.payload = [byte mask, byte form, byte first, byte count] ++ vals.flatMap
      (leBytes 3) ∧ 1 ≤ mask ∧ mask < 16 ∧ form ≤ 1 ∧ (form = 1 → mask = 1 ∨ mask = 2 ∨ mask = 4 ∨ mask = 8) ∧ vals.length = (if form = 0
      then 1 else count) ∧ (∀ v ∈ vals, v < 2 ^ 23 ∧ 16 ≤ bits v 8 0 ∧ bits v 8 0 ≤ 256 ∧ 1024 ≤ bits v 22 9) ∧ 1 ≤ count ∧ first + count
      ≤ 192 ∧ (∀ k : Nat, k < count → governed u (first + k) = false) ∧ u.arr.staged.tiles.length = 192) ∧
    (∃ (s : State) (u : State) (c : Call) (p : PortIx), u = s.at c.start ∧ Ready u c 0x0206 ∧ HoldsLease u c p lARRAY ∧ c.payload.length
      = 16 ∧ 1 ≤ u8 c.payload 0 ∧ u8 c.payload 0 ≤ 8 ∧ 1 ≤ u8 c.payload 1 ∧ u8 c.payload 1 ≤ 8 ∧ u16 c.payload 2 ≠ 0 ∧ u32 c.payload 4 ≤
      160000 ∧ (1 < u8 c.payload 0 → 2 ≤ u32 c.payload 4) ∧ u32 c.payload 8 ≤ 160000 ∧ (1 < u8 c.payload 1 → 2 ≤ u32 c.payload 8) ∧ u32
      c.payload 12 = 0) ∧
    (∃ (s : State) (u : State) (c : Call) (p : PortIx), u = s.at c.start ∧ Ready u c 0x020A ∧ HoldsLease u c p lARRAY ∧ c.payload.length
      = 24 ∧ (tileMask c.payload).any (fun t => !u.sec.killedTiles.contains t) = true) ∧
    (∃ (s : State) (u : State) (c : Call) (p : PortIx), u = s.at c.start ∧ Ready u c 0x0200 ∧ c.src = .port p ∧ c.payload.length = 8 ∧
      portRole u p ≠ .viewer ∧ holderAt u lARRAY c.stamp ≠ some p) :=
  ⟨⟨wit, _, wCall ([5, 0, 0, 0, 0xFE, 1, 2, 0]), 0, rfl, ready_of (by decide +kernel), holds_of (by decide +kernel), by decide +kernel⟩,
   ⟨wit, _, wCall ([3, 15, 1, 0] ++ leBytes 4 41667 ++ leBytes 2 1023 ++ zeros 6), 0, rfl, ready_of (by decide +kernel), holds_of
     (by decide +kernel), by decide +kernel⟩,
   ⟨wit, _, wCall ([1, 0, 191, 1] ++ leBytes 3 0xFFFFFF), 0, 1, 0, 191, 1, [0xFFFFFF], rfl, ready_of (by decide +kernel), holds_of
     (by decide +kernel), by decide +kernel⟩,
   ⟨wit, _, wCall ([1, 1, 190, 2] ++ leBytes 3 0x080010 ++ leBytes 3 0x080020), 0, 1, 1, 190, 2, [0x080010, 0x080020], rfl, ready_of
     (by decide +kernel), holds_of (by decide +kernel), by decide +kernel⟩,
   ⟨wit, _, wCall ([8, 1, 1, 0] ++ leBytes 4 2 ++ leBytes 4 160000 ++ zeros 4), 0, rfl, ready_of (by decide +kernel), holds_of
     (by decide +kernel), by decide +kernel⟩,
   ⟨wit, _, wCall (1 :: zeros 23), 0, rfl, ready_of (by decide +kernel), holds_of (by decide +kernel), by decide +kernel⟩,
   ⟨{ wit with leases := List.replicate 30 freeLease }, _, wCall (zeros 8), 0, rfl, ready_of (by decide +kernel), by decide +kernel⟩⟩

theorem test_GovernorAndCommit :
    (∃ (s : State) (u : State) (c : Call) (p : PortIx), u = s.at c.start ∧ Ready u c 0x0205 ∧ HoldsLease u c p lARRAY ∧ c.payload.length
      = 44 ∧ u8 c.payload 0 ≤ 1 ∧ u8 c.payload 1 = 0 ∧ 256 ≤ u16 c.payload 2 ∧ u16 c.payload 2 ≤ 65520 ∧ 16 ≤ u8 c.payload 4 ∧ u8
      c.payload 4 ≤ 64 ∧ 16 ≤ u8 c.payload 5 ∧ u8 c.payload 5 ≤ 32 ∧ 1 ≤ u16 c.payload 6 ∧ u16 c.payload 6 ≤ 4096 ∧ 1 ≤ u16 c.payload 8 ∧
      u16 c.payload 8 ≤ 4096 ∧ 1 ≤ u16 c.payload 10 ∧ u16 c.payload 10 ≤ 4096 ∧ 1 ≤ u32 c.payload 12 ∧ u32 c.payload 12 ≤ 16777215 ∧ 16 ≤
      u16 c.payload 16 ∧ u16 c.payload 16 ≤ 256 ∧ 1024 ≤ u16 c.payload 18 ∧ u16 c.payload 18 ≤ 16383) ∧
    (∃ (s : State) (u : State) (c : Call) (p : PortIx), u = s.at c.start ∧ Served u c 0x0204 ∧ HoldsLease u c p lARRAY ∧ argZero c 2 =
      none ∧ c.payload = [] ∧ stagedFailing u c.start = [] ∧ (∀ f : Frame, u.seq.latched = some f → f.elp ≤ c.stamp)) ∧
    (∃ (s : State) (u : State) (c : Call) (p : PortIx) (f : Frame) (n : Undo), u = s.at c.start ∧ Served u c 0x0204 ∧ HoldsLease u c p
      lARRAY ∧ argZero c 2 = none ∧ c.payload = [] ∧ stagedFailing u c.start = [] ∧ u.seq.latched = some f ∧ c.stamp < f.elp ∧ u.arr.undo
      = some n) :=
  ⟨⟨wit, _, wCall ([1, 0] ++ leBytes 2 256 ++ [16, 32] ++ leBytes 2 1 ++ leBytes 2 1 ++ leBytes 2 1 ++ leBytes 4 16777215 ++ leBytes 2 16
     ++ leBytes 2 1024 ++ zeros 24), 0, rfl, ready_of (by decide +kernel), holds_of (by decide +kernel), by decide +kernel⟩,
   ⟨wit, _, wCall [], 0, rfl, served_of (by decide +kernel), holds_of (by decide +kernel), by decide +kernel⟩,
   ⟨witUndo, _, wCall [], 0, { wFrame with elp := 10 }, wUndo, rfl, served_of (by decide +kernel), holds_of (by decide +kernel),
     by decide +kernel⟩⟩

theorem test_TriggersStartsAndStops :
    (∃ (s : State) (u : State) (c : Call) (p : PortIx), u = s.at c.start ∧ Ready u c 0x0207 ∧ HoldsLease u c p lARRAY ∧ c.payload = [] ∧
      needActive u c = none) ∧
    (∃ (s : State) (u : State) (c : Call) (p : PortIx), u = s.at c.start ∧ Ready u c 0x020B ∧ HoldsLease u c p lARRAY ∧ c.payload.length
      = 8 ∧ needActive u c = none ∧ u.seq.running = true ∧ u.seq.trigAt.length < 4 ∧ u.dtime c.stamp + 10000 ≤ u64 c.payload 0 ∧ (∀ x ∈
      u.seq.trigAt, x + divCeil (pminT u (trigSet u c.start) c.start) ns ≤ u64 c.payload 0)) ∧
    (∃ (s : State) (u : State) (t : Time) (d : Nat), u = s.at t ∧ d ∈ u.seq.trigAt ∧ (∀ x ∈ u.seq.trigAt, d ≤ x) ∧ d ≤ u.dtime t) ∧
    (∃ (s : State) (u : State) (c : Call) (p : PortIx), u = s.at c.start ∧ Ready u c 0x0208 ∧ HoldsLease u c p lARRAY ∧ c.payload = [] ∧
      needActive u c = none ∧ u.pw.st = .active ∧ u.seq.running = false ∧ pllOf u 0 ≠ .fail) ∧
    (∃ (s : State) (u : State) (c : Call) (p : PortIx), u = s.at c.start ∧ Ready u c 0x0208 ∧ HoldsLease u c p lARRAY ∧ c.payload = [] ∧
      needActive u c ≠ none) ∧
    (∃ (s : State) (u : State) (c : Call) (p : PortIx), u = s.at c.start ∧ Ready u c 0x0209 ∧ HoldsLease u c p lARRAY ∧ c.payload.length
      = 4 ∧ u8 c.payload 0 ≤ 1 ∧ reserved c.payload 1 3 = none) :=
  ⟨⟨{ wit with arr := { wit.arr with active := { wit.arr.active with trig := 1 }, seq := { wit.seq with running := true, armed := true } } },
     _, wCall [], 0, rfl, ready_of (by decide +kernel), holds_of (by decide +kernel), by decide +kernel⟩,
   ⟨{ wit with arr := { wit.arr with active := { wit.arr.active with trig := 2 }, seq := { wit.seq with running := true, armed := true } } },
     _, wCall (leBytes 8 10000), 0, rfl, ready_of (by decide +kernel), holds_of (by decide +kernel), by decide +kernel⟩,
   ⟨{ wit with arr := { wit.arr with active := { wit.arr.active with trig := 2 }, seq := { wit.seq with running := true, armed := true, trigAt := [0] } } },
     _, 0, 0, rfl, by decide +kernel⟩,
   ⟨wit, _, wCall [], 0, rfl, ready_of (by decide +kernel), holds_of (by decide +kernel), by decide +kernel⟩,
   ⟨{ wit with pw := { wit.pw with st := .standby } }, _, wCall [], 0, rfl, ready_of (by decide +kernel), holds_of (by decide +kernel),
     by decide +kernel⟩,
   ⟨witSeq id, _, wCall ([1, 0, 0, 0]), 0, rfl, ready_of (by decide +kernel), holds_of (by decide +kernel), by decide +kernel⟩⟩

theorem test_FramesLatchStartAndAdvance :
    (∃ (s : State) (u : State) (t : Time), u = s.at t ∧ latchDue u t = true) ∧
    (∃ (s : State) (u : State) (t : Time) (f : Frame), u = s.at t ∧ frameDue u t = true ∧ u.seq.latched = some f) ∧
    (∃ (s : State) (u : State) (t : Time), u = s.at t ∧ frameDue u t = true ∧ u.seq.latched = none) ∧
    (∃ (s : State) (u : State) (t : Time), u = s.at t ∧ armDue u t = true) ∧
    (∃ (s : State) (u : State) (t : Time) (f : Frame), u = s.at t ∧ u.seq.cur = some f ∧ rowSlotDue u t = true) ∧
    (∃ (s : State) (u : State) (t : Time), u = s.at t ∧ ovhDue u t = true) ∧
    (∃ (s : State) (u : State) (t : Time) (tile : TileIx) (row : Nat) (exp : Fin 4) (f : Frame), u = s.at t ∧ integFrame u t tile row
      exp.val = some f) ∧
    (∃ (s : State) (u : State) (t : Time) (tile : TileIx) (row : Nat) (exp : Fin 4) (m : Integ), u = s.at t ∧ sliceOf u t tile row
      exp.val = some m) :=
  ⟨⟨witSeq (fun q => { q with anchor := some 0 }), _, sec, rfl, by decide +kernel⟩,
   ⟨witSeq (fun q => { q with latched := some wFrame }), _, 0, wFrame, rfl, by decide +kernel⟩,
   ⟨{ wit with arr := { wit.arr with active := { Settings.reset with tiles := Settings.reset.tiles.map (fun x => { x with ticks := [1, 1, 1, 1] }) }, seq := { wit.seq with running := true, anchor := some 0 } } },
     _, sec, rfl, by decide +kernel⟩,
   ⟨{ wit with arr := { wit.arr with active := { wit.arr.active with trig := 1 }, seq := { wit.seq with running := true, armed := false } } },
     _, 0, rfl, by decide +kernel⟩,
   ⟨witSeq (fun q => { q with cur := some wFrame }), _, sec, wFrame, rfl, by decide +kernel⟩,
   ⟨witSeq (fun q => { q with cur := some wFrame, ovh := 7 }), _, sec, rfl, by decide +kernel⟩,
   ⟨witSeq (fun q => { q with cur := some { wFrame with is0 := 1 } }), _, 0, 0, 0, 0, { wFrame with is0 := 1 }, rfl, by decide +kernel⟩,
   ⟨witSeq (fun q =>
     { q with cur := some { wFrame with set := { Settings.reset with n0 := 2, w0 := 10 } }, integ := [⟨1, 0, 0, 0, 0⟩] }), _, sec, 0, 0,
     0, ⟨1, 0, 0, 0, 0⟩, rfl, by decide +kernel⟩⟩

theorem test_LinesLeaveTheEngines :
    (∃ (s : State) (u : State) (v : State) (t : Time) (tile : TileIx) (l : Line) (rest : List Line), u = s.at t ∧ v = u.modEng tile.val
      (fun e => { e with outq := rest }) ∧ (u.eng tile.val).outq = l :: rest) ∧
    (∃ (s : State) (u : State) (t : Time) (tile : TileIx) (kind : Fin 8) (row : Nat) (f : Frame), u = s.at t ∧ u.arr.eng.length = 192 ∧
      u.mem.st = .run ∧ fetchFrame u tile.val kind.val row = some f ∧ memPending u.mem 0 tile.val (spillAddr f tile.val kind.val row) 768
      = false) ∧
    (∃ (s : State) (u : State) (s' : State) (t : Time) (tile : TileIx) (ok : Bool) (l : Line) (rest : List Line) (x : Nat), u = s.at t ∧
      (∀ q : Nat, l.kind ≠ .spill q) ∧ exec (.mosaicLineTransfer t tile ok) s = .next s' ∧ (∀ f ∈ u.pipe.frames, ∀ codes : List Nat,
      (codes = l.codes ∨ codes = []) → x < (rasterPart u f tile.val l.row codes).1 ∨ (rasterPart u f tile.val l.row codes).1 + 3 *
      (rasterPart u f tile.val l.row codes).2.length ≤ x) ∧ u.arr.eng.length = 192 ∧ (u.eng tile.val).outq = l :: rest) ∧
    (∃ (s : State) (u : State) (s' : State) (t : Time) (tile : TileIx) (ok : Bool) (l : Line) (rest : List Line) (q : Nat) (f : Frame), u
      = s.at t ∧ exec (.mosaicLineTransfer t tile ok) s = .next s' ∧ u.arr.eng.length = 192 ∧ (u.eng tile.val).outq = l :: rest ∧ l.kind
      = .spill q ∧ frameOf u l.frame = some f) ∧
    (∃ (s : State) (u : State) (s' : State) (t : Time) (n : AuxIx) (vc : Nat) (hdr : BitVec 32) (di : Byte) (wc : BitVec 16) (ecc : Byte)
      (payload : List Byte) (crc : BitVec 16), u = s.at t ∧ vc = csiVc hdr ∧ exec (.auxLongPacket t n di wc ecc payload crc) s = .next s'
      ∧ u.aux.length = 4 ∧ hdr = ecc ++ wc ++ di ∧ (u.auxIn n.val).vcs.length = 4 ∧ storeWf u.regs = true) ∧
    (∃ (s : State) (u : State) (w : State) (s' : State) (c : Call) (b : Nat), u = s.at c.start ∧ w = unlatch u c.stamp ∧ exec
      (.commitSettings c) s = .next s' ∧ findFree (match w.arr.spillPend with | some r => freeRegion w r | none => w) (spillMib w
      u.arr.staged) = some b) :=
  ⟨⟨witSpill, _, _, 0, 191, ⟨1, 0, .spill 0, [5, 6], false⟩, [], rfl, rfl, by decide +kernel⟩,
   ⟨witSpill, _, 0, 0, 0, 0, { wFrame with spill := 1 }, rfl, by decide +kernel⟩,
   Exists.elim (next_of (o := exec (.mosaicLineTransfer 0 0 true) witRaster) (by decide +kernel)) (fun s2 h2 => ⟨witRaster, _, s2, 0, 0,
     true, ⟨1, 0, .radiance, [5, 6], false⟩, [], 48, rfl, (fun _ h => nomatch h), h2, witRasterOut, by decide +kernel⟩),
   Exists.elim (next_of (o := exec (.mosaicLineTransfer 0 0 true) witSpill) (by decide +kernel)) (fun s2 h2 => ⟨witSpill, _, s2, 0, 0,
     true, ⟨1, 0, .spill 0, [5, 6], false⟩, [], 0, { wFrame with spill := 1 }, rfl, h2, by decide +kernel⟩),
   Exists.elim (next_of (o := exec (.auxLongPacket 0 0 0x2A 16 wEcc (List.replicate 16 5) 0) witStore) (by decide +kernel)) (fun s2 h2 =>
     ⟨witStore, _, s2, 0, 0, _, wEcc ++ 16#16 ++ 0x2A#8, 0x2A, 16, wEcc, List.replicate 16 5, 0, rfl, rfl, h2, by decide +kernel⟩),
   Exists.elim (next_of (o := exec (.commitSettings (wCall [])) witCommit) (by decide +kernel)) (fun s2 h2 => ⟨witCommit, _, _, s2, wCall
     [], 0, rfl, rfl, h2, by decide +kernel⟩)⟩

theorem test_StatisticsAndGovernorOutput :
    (∃ (s : State) (u : State) (t : Time) (e : Time) (f : Frame) (rest : List Frame), u = s.at t ∧ u.seq.done = f :: rest ∧ f.endAt =
      some e ∧ e ≤ t) ∧
    (∃ (s : State) (u : State) (t : Time) (d : Nat × Time) (rest : List (Nat × Time)), u = s.at t ∧ u.arr.gov.on = true ∧ u.arr.gov.due =
      d :: rest ∧ d.2 ≤ t) :=
  ⟨⟨witSeq (fun q => { q with done := [{ wFrame with endAt := some 0 }] }), _, 0, 0, { wFrame with endAt := some 0 }, [], rfl,
     by decide +kernel⟩,
   ⟨{ wit with arr := { wit.arr with gov := { wit.arr.gov with on := true, due := [(1, 0)] } } }, _, 0, (1, 0), [], rfl,
     by decide +kernel⟩⟩

theorem test_ViewsAreCreatedModifiedDeleted :
    (∃ (s : State) (u : State) (c : Call) (p : PortIx) (v : ViewIx), u = s.at c.start ∧ Served u c 0x0300 ∧ c.src = .port p ∧ argZero c 2
      = none ∧ (c.payload.length = 48 ∨ c.payload.length = 424) ∧ newView u (u8 c.payload 0) = some v.val ∧ (u.view v.val).st = .free ∧
      (∀ x ∈ viewChecks u (some p) v.val c.payload, x = none)) ∧
    (∃ (s : State) (u : State) (c : Call) (p : PortIx) (v : ViewIx), u = s.at c.start ∧ Served u c 0x0301 ∧ c.src = .port p ∧ argZero c 2
      = none ∧ (c.payload.length = 48 ∨ c.payload.length = 424) ∧ u8 c.payload 0 = v.val ∧ (u.view v.val).st ≠ .free ∧ (u.view
      v.val).owner = p ∧ (∀ x ∈ viewChecks u (some p) v.val c.payload, x = none) ∧ ((u.view v.val).started = true → hardSame (parseView
      c.payload) (u.view v.val).p = true) ∧ u.pipe.views.length = 16) ∧
    (∃ (s : State) (u : State) (c : Call) (p : PortIx) (v : ViewIx), u = s.at c.start ∧ Ready u c 0x0302 ∧ c.src = .port p ∧ c.payload =
      [byte v.val, 0, 0, 0] ∧ (u.view v.val).st ≠ .free ∧ (u.view v.val).owner = p ∧ u.pipe.views.length = 16) ∧
    (∃ (s : State) (u : State) (c : Call) (p : PortIx) (v : ViewIx), u = s.at c.start ∧ Ready u c 0x0302 ∧ c.src = .port p ∧ c.payload =
      [byte v.val, 0, 0, 0] ∧ (u.view v.val).st ≠ .free ∧ (u.view v.val).owner ≠ p) :=
  ⟨⟨wit, _, wCall (wViewPl), 0, 0, rfl, served_of (by decide +kernel), by decide +kernel⟩,
   ⟨witView wView, _, wCall (wViewPl), 0, 0, rfl, served_of (by decide +kernel), by decide +kernel⟩,
   ⟨witView wView, _, wCall ([0, 0, 0, 0]), 0, 0, rfl, ready_of (by decide +kernel), by decide +kernel⟩,
   ⟨witView { wView with owner := 1 }, _, wCall ([0, 0, 0, 0]), 0, 0, rfl, ready_of (by decide +kernel), by decide +kernel⟩⟩

theorem test_ViewsStartStopAndReport :
    (∃ (s : State) (u : State) (c : Call) (p : PortIx) (v : ViewIx), u = s.at c.start ∧ Ready u c 0x0303 ∧ c.src = .port p ∧ c.payload =
      [byte v.val, 0, 0, 0] ∧ (u.view v.val).st = .created ∧ (u.view v.val).owner = p ∧ needActive u c = none ∧ u.pw.st = .active ∧ (∀ x
      ∈ startChecks u v.val c.start, x = none) ∧ u.pipe.views.length = 16) ∧
    (∃ (s : State) (u : State) (c : Call) (p : PortIx) (v : ViewIx) (how : Nat), u = s.at c.start ∧ Ready u c 0x0304 ∧ c.src = .port p ∧
      how ≤ 1 ∧ c.payload = [byte v.val, byte how, 0, 0] ∧ (u.view v.val).st = .running ∧ ((u.view v.val).owner = p ∨ portRole u p =
      .safety) ∧ u.pipe.views.length = 16) ∧
    (∃ (s : State) (u : State) (t : Time) (v : ViewIx), u = s.at t ∧ stopReady u v = true ∧ u.pipe.views.length = 16) ∧
    (∃ (s : State) (u : State) (c : Call) (r : StatRec) (items : Nat) (size : Nat) (most : Nat) (off : Nat), u = s.at c.start ∧ Ready u c
      0x0305 ∧ c.payload.length = 12 ∧ u8 c.payload 0 ≤ 4 ∧ u8 c.payload 1 ≤ 3 ∧ (u8 c.payload 1 = 2 → u8 c.payload 0 = 0) ∧ statSection
      (u8 c.payload 0) (u8 c.payload 1) = (items, size, most, off) ∧ u16 c.payload 2 < items ∧ 1 ≤ u16 c.payload 4 ∧ u16 c.payload 4 ≤
      most ∧ u16 c.payload 2 + u16 c.payload 4 ≤ items ∧ u16 c.payload 6 = 0 ∧ statHeld u (u8 c.payload 0) (u32 c.payload 8) = some r) ∧
    (∃ (s : State) (u : State) (t : Time) (a : Time) (v : ViewIx), u = s.at t ∧ u.pipe.views.length = 16 ∧ (u.view v.val).missing = true
      ∧ (u.view v.val).missReason ≠ 1 ∧ (0 < (u.view v.val).missCount ∨ sourceLate u (u.view v.val).p = true) ∧ (u.view v.val).missAt =
      some a ∧ a + sec ≤ t) ∧
    (∃ (s : State) (u : State) (t : Time) (a : Time) (v : ViewIx), u = s.at t ∧ (u.view v.val).missAt = some a ∧ t < a + sec) :=
  ⟨⟨witView wView, _, wCall ([0, 0, 0, 0]), 0, 0, rfl, ready_of (by decide +kernel), by decide +kernel⟩,
   ⟨witView { wView with st := .running }, _, wCall ([0, 1, 0, 0]), 0, 0, 1, rfl, ready_of (by decide +kernel), by decide +kernel⟩,
   ⟨witView { wView with st := .running, stopHow := some 0 }, _, 0, 0, rfl, by decide +kernel⟩,
   ⟨{ wit with arr := { wit.arr with stats := [⟨0, 1, 0, [], [], [], 0⟩] } }, _, wCall ([0, 1, 0, 0, 45, 0, 0, 0, 1, 0, 0, 0]), ⟨0, 1, 0,
     [], [], [], 0⟩, 192, 16, 45, 32, rfl, ready_of (by decide +kernel), by decide +kernel⟩,
   ⟨witView { wView with st := .running, missing := true, missReason := 2, missCount := 1, missAt := some 0 }, _, sec, 0, 0, rfl,
     by decide +kernel⟩,
   ⟨witView { wView with st := .running, missing := true, missReason := 2, missCount := 1, missAt := some 0 }, _, sec - 1, 0, 0, rfl,
     by decide +kernel⟩⟩

theorem test_PipelineJobsRunOneByOne :
    (∃ (s : State) (u : State) (t : Time) (v : ViewIx) (b : Nat) (g : Nat) (k : Nat) (f : VFrame), u = s.at t ∧ releasable u v b g k =
      some f) ∧
    (∃ (s : State) (u : State) (t : Time) (j : Job8), u = s.at t ∧ u.pipe.run = none ∧ nextJob u.pipe.ready = some j) ∧
    (∃ (s : State) (u : State) (t : Time) (e : Time) (j : Job8), u = s.at t ∧ u.pipe.run = some (j, e) ∧ e ≤ t) ∧
    (∃ (s : State) (u : State) (t : Time) (e : Time) (v : ViewIx) (f : VFrame), u = s.at t ∧ memUp u = true ∧ readbackOf u v t = some f ∧
      f.srcEnd = some e) :=
  ⟨⟨witPipe (fun p =>
     { p with frames := [wVf], lines := (List.range 32).map (fun r => ⟨0, 0, 1, r, none, List.replicate 512 7, 0, 0⟩) }), _, 0, 0, 0, 0,
     0, wVf, rfl, by decide +kernel⟩,
   ⟨witPipe (fun p => { p with frames := [wVf], ready := [⟨0, 1, 0, 0, 0, 1, 0⟩] }), _, 0, ⟨0, 1, 0, 0, 0, 1, 0⟩, rfl, by decide +kernel⟩,
   ⟨witPipe (fun p => { p with frames := [{ wVf with sw := 1024 }], run := some (⟨0, 1, 0, 0, 0, 1, 0⟩, 0) }), _, 0, 0, ⟨0, 1, 0, 0, 0,
     1, 0⟩, rfl, by decide +kernel⟩,
   ⟨witPipe (fun p => { p with frames := [{ wVf with p := { wVf.p with order := 1 }, srcEnd := some 0 }] }), _, 50 * us, 0, 0,
     { wVf with p := { wVf.p with order := 1 }, srcEnd := some 0 }, rfl, by decide +kernel⟩⟩

theorem test_AuxFramesOpenFillClose :
    (∃ (s : State) (u : State) (t : Time) (n : AuxIx) (vc : Nat) (hdr : BitVec 32) (head : BitVec 24) (ecc : Byte), u = s.at t ∧ vc =
      csiVc hdr ∧ hdr = ecc ++ head ∧ u.aux.length = 4 ∧ (u.auxIn n.val).vcs.length = 4 ∧ auxOn u n.val = true ∧ (u.auxIn n.val).st =
      .run ∧ vc < 4 ∧ csiOk hdr ≠ 2 ∧ csiDt hdr = 0 ∧ auxDt u n.val vc ≠ 0) ∧
    (∃ (s : State) (u : State) (t : Time) (n : AuxIx) (vc : Nat) (hdr : BitVec 32) (di : Byte) (wc : BitVec 16) (ecc : Byte), u = s.at t
      ∧ vc = csiVc hdr ∧ hdr = ecc ++ wc ++ di ∧ u.aux.length = 4 ∧ (u.auxIn n.val).vcs.length = 4 ∧ auxOn u n.val = true ∧ (u.auxIn
      n.val).st = .run ∧ vc < 4 ∧ csiOk hdr ≠ 2 ∧ dtKnown (csiDt hdr) = true ∧ auxDt u n.val vc = csiDt hdr ∧ (u.auxVc n.val
      vc).openAt.isSome = true) ∧
    (∃ (s : State) (u : State) (t : Time) (n : AuxIx) (vc : Nat) (hdr : BitVec 32) (head : BitVec 24) (ecc : Byte), u = s.at t ∧ vc =
      csiVc hdr ∧ hdr = ecc ++ head ∧ u.aux.length = 4 ∧ (u.auxIn n.val).vcs.length = 4 ∧ auxOn u n.val = true ∧ (u.auxIn n.val).st =
      .run ∧ vc < 4 ∧ csiOk hdr ≠ 2 ∧ csiDt hdr = 1 ∧ (u.auxVc n.val vc).openAt.isSome = true) ∧
    (∃ (s : State) (u : State) (t : Time) (n : AuxIx) (hdr : BitVec 32) (head : BitVec 24) (di : Byte) (wc : BitVec 16) (ecc : Byte)
      (payload : List Byte) (crc : BitVec 16) (i : Instr), u = s.at t ∧ ((hdr = ecc ++ head ∧ (i = .auxFrameStart t n head ecc ∨ i =
      .auxFrameEnd t n head ecc)) ∨ (hdr = ecc ++ wc ++ di ∧ i = .auxLongPacket t n di wc ecc payload crc))) :=
  ⟨⟨witAux id, _, 0, 0, _, 0, 0, 0, rfl, rfl, by decide +kernel⟩,
   ⟨witAux (fun a => { a with vcs := a.vcs.map (fun v => { v with openAt := some 0 }) }), _, 0, 0, _, wEcc ++ 16#16 ++ 0x2A#8, 0x2A, 16,
     wEcc, rfl, rfl, by decide +kernel⟩,
   ⟨witAux (fun a => { a with vcs := a.vcs.map (fun v => { v with openAt := some 0 }) }), _, 0, 0, _, byte (csiEcc 1) ++ 1#24, 1, (byte
     (csiEcc 1)), rfl, rfl, by decide +kernel⟩,
   ⟨witAux (fun a => { a with vcs := a.vcs.map (fun v => { v with openAt := some 0 }) }), _, 0, 0, 2, 2, 0, 0, 0, zeros 16, 0,
     .auxFrameEnd 0 0 2 0, rfl, by decide +kernel⟩⟩

theorem test_AuxInputsAndCommands :
    (∃ (s : State) (u : State) (t : Time) (n : AuxIx), u = s.at t ∧ u.aux.length = 4 ∧ auxOn u n.val = true ∧ (u.auxIn n.val).st =
      .skewWait) ∧
    (∃ (s : State) (u : State) (t : Time), u = s.at t) ∧
    (∃ (s : State) (u : State) (t : Time) (n : AuxIx), u = s.at t ∧ u.aux.length = 4 ∧ (u.auxIn n.val).vcs.length = 4 ∧ auxOn u n.val =
      true ∧ (u.auxIn n.val).st ≠ .los) ∧
    (∃ (s : State) (u : State) (t : Time) (n : AuxIx), u = s.at t ∧ u.aux.length = 4 ∧ auxOn u n.val = true ∧ (u.auxIn n.val).st = .los) ∧
    (∃ (s : State) (u : State) (t : Time) (f : Time) (n : AuxIx) (vc : Fin 4), u = s.at t ∧ u.aux.length = 4 ∧ (u.auxIn n.val).vcs.length
      = 4 ∧ auxOn u n.val = true ∧ auxDt u n.val vc.val ≠ 0 ∧ (u.auxVc n.val vc.val).late = false ∧ (u.auxVc n.val vc.val).lastFs = some
      f ∧ f + (u.auxVc n.val vc.val).act.getD 8 0 * 100 * us < t) ∧
    (∃ (s : State) (u : State) (t : Time) (n : AuxIx) (r : AuxStat) (ready : AuxStat → Bool), u = s.at t ∧ ready = (fun r => match
      r.endAt with | some e => decide (e ≤ t) | none => false) ∧ u.aux.length = 4 ∧ (u.auxIn n.val).stat.find? ready = some r) ∧
    (∃ (s : State) (u : State) (c : Call) (p : PortIx) (n : AuxIx), u = s.at c.start ∧ Ready u c 0x0400 ∧ HoldsLease u c p (lAX n.val) ∧
      c.payload.length = 80 ∧ u8 c.payload 0 = n.val ∧ reservedBits c.payload 1 0xE0 = none ∧ (u8 c.payload 2 = 1 ∨ u8 c.payload 2 = 2 ∨
      u8 c.payload 2 = 4) ∧ mapOk (u8 c.payload 3) (u8 c.payload 2) = true ∧ reservedBits c.payload 4 0xE0 = none ∧ 80 ≤ u16 c.payload 6
      ∧ u16 c.payload 6 ≤ 4500 ∧ (∀ x ∈ (List.range 4).flatMap (streamChecks c.payload), x = none) ∧ (auxHardChange u n.val (auxRegs
      n.val c.payload) = true → auxInUse u n.val = false)) ∧
    (∃ (s : State) (u : State) (c : Call) (n : AuxIx), u = s.at c.start ∧ Ready u c 0x0401 ∧ c.payload = [byte n.val, 0, 0, 0]) :=
  ⟨⟨witAux (fun a => { a with st := .skewWait }), _, 0, 0, rfl, by decide +kernel⟩,
   ⟨wit, _, 0, rfl⟩,
   ⟨witAux (fun a => { a with vcs := a.vcs.map (fun v => { v with openAt := some 0 }) }), _, 0, 0, rfl, by decide +kernel⟩,
   ⟨witAux (fun a => { a with st := .los, losLane := 3 }), _, 0, 0, rfl, by decide +kernel⟩,
   ⟨witAux (fun a => { a with vcs := a.vcs.map (fun v => { v with lastFs := some 0 }) }), _, sec, 0, 0, 0, rfl, by decide +kernel⟩,
   ⟨witAux (fun a => { a with stat := [wAuxStat] }), _, sec, 0, wAuxStat, _, rfl, rfl, by decide +kernel⟩,
   ⟨wit, _, wCall ([3, 0, 4, 0xE4, 0, 0] ++ leBytes 2 4500 ++ zeros 72), 0, 3, rfl, ready_of (by decide +kernel), holds_of
     (by decide +kernel), by decide +kernel⟩,
   ⟨wit, _, wCall ([3, 0, 0, 0]), 3, rfl, ready_of (by decide +kernel), by decide +kernel⟩⟩

theorem test_MemoryRequestsAreScheduled :
    (∃ (s : State) (u : State) (t : Time) (cls : Fin 6) (inst : Byte) (fma : Nat) (d : Nat) (q : Nat), u = s.at t ∧ fma < fmSize ∧
      memRefuses u.mem = false ∧ (u.mem.st = .run ∨ u.mem.st = .train ∨ u.mem.st = .change) ∧ d = dramUnit (fma / 64) ∧ q = queueOf
      u.mem.map d ∧ (∀ e ∈ u.mem.wait, ¬(e.cls = cls.val ∧ e.inst = inst.toNat)) ∧ mayEnter u.mem cls.val q t = true) ∧
    (∃ (s : State) (u : State) (t : Time) (cls : Fin 6) (inst : Byte) (fma : Nat) (d : Nat) (q : Nat), u = s.at t ∧ fma < fmSize ∧
      memRefuses u.mem = false ∧ (u.mem.st = .run ∨ u.mem.st = .train ∨ u.mem.st = .change) ∧ d = dramUnit (fma / 64) ∧ q = queueOf
      u.mem.map d ∧ (∀ e ∈ u.mem.wait, ¬(e.cls = cls.val ∧ e.inst = inst.toNat)) ∧ mayEnter u.mem cls.val q t = true) ∧
    (∃ (s : State) (u : State) (t : Time) (cls : Fin 6) (inst : Byte) (fma : Nat) (d : Nat) (q : Nat), u = s.at t ∧ fma < fmSize ∧
      memRefuses u.mem = false ∧ d = dramUnit (fma / 64) ∧ q = queueOf u.mem.map d ∧ ((u.mem.st ≠ .run ∧ u.mem.st ≠ .train ∧ u.mem.st ≠
      .change) ∨ (∃ e ∈ u.mem.wait, e.cls = cls.val ∧ e.inst = inst.toNat) ∨ mayEnter u.mem cls.val q t = false)) ∧
    (∃ (s : State) (u : State) (t : Time) (fma : Nat), u = s.at t ∧ fma < fmSize ∧ memRefuses u.mem = true) ∧
    (∃ (s : State) (u : State) (t : Time) (sc : Fin 8) (e : MemEnt) (r : Bool), u = s.at t ∧ u.mem.st = .run ∧ ckPick u sc.val t = none ∧
      pickOf u sc.val t = some (e, r)) ∧
    (∃ (s : State) (u : State) (t : Time) (sc : Fin 8) (k : CkEnt), u = s.at t ∧ ckPick u sc.val t = some k) ∧
    (∃ (s : State) (u : State) (t : Time) (q : Fin 256) (e : MemEnt), u = s.at t ∧ e ∈ u.mem.queue ∧ e.q = q.val ∧ e.aged = false ∧
      agedAt u e ≤ t) ∧
    (∃ (s : State) (u : State) (t : Time) (sc : Fin 8) (rank : Fin 2), u = s.at t ∧ u.fld aMEMC_CTL 0 0 = 1 ∧ u.mem.st = .run ∧ (rankOf
      u.mem sc.val rank.val).down = false ∧ (∀ e ∈ u.mem.queue ++ u.mem.dies, ¬(scOf e.q = sc.val ∧ rankIx e.q = rank.val)) ∧ (∀ k ∈
      u.mem.ckq ++ u.mem.ckd, ¬(scOf k.q = sc.val ∧ rankIx k.q = rank.val)) ∧ (rankOf u.mem sc.val rank.val).idleFrom + memcCycles
      u.mem.bin (u.fld aMEMC_PD 15 0) ≤ t) ∧
    (∃ (s : State) (u : State) (t : Time), u = s.at t ∧ u.mem.rhStart + 32 * ms ≤ t) :=
  ⟨⟨wit, _, 0, 2, 1, 0, 0, queueOf 2 0, rfl, by decide +kernel⟩,
   ⟨witMem (fun m => { m with queue := [wEnt] }), _, 0, 5, 0, 64 * 15 - 1, 14, queueOf 2 14, rfl, by decide +kernel⟩,
   ⟨witMem (fun m => { m with queue := List.replicate 12 wEnt }), _, 0, 5, 0, 0, 0, queueOf 2 0, rfl, by decide +kernel⟩,
   ⟨witMem (fun m => { m with st := .frozen }), _, 0, 0x3BFFFFFFF, rfl, by decide +kernel⟩,
   ⟨witMem (fun m => { m with queue := [wEnt] }), _, sec, 0, wEnt, true, rfl, by decide +kernel⟩,
   ⟨witMem (fun m => { m with ckq := [⟨0, queueOf 2 15, none, false, 0⟩] }), _, sec, 0, ⟨0, queueOf 2 15, none, false, 0⟩, rfl,
     by decide +kernel⟩,
   ⟨witMem (fun m => { m with queue := [wEnt] }), _, sec, ⟨queueOf 2 0, by decide +kernel⟩, wEnt, rfl, by decide +kernel⟩,
   ⟨witMem (fun m => { m with st := .run }), _, sec, 7, 1, rfl, by decide +kernel⟩,
   ⟨wit, _, 32 * ms, rfl, by decide +kernel⟩⟩

theorem test_MemoryAccessCompletes :
    (∃ (s : State) (u : State) (t : Time) (q : Fin 256) (e : MemEnt), u = s.at t ∧ ckFirst u.mem q.val = none ∧ dataFirst u.mem q.val =
      some e ∧ u.mem.st = .run ∧ u.mem.recover = none) ∧
    (∃ (s : State) (u : State) (v : State) (t : Time) (q : Fin 256) (chk : List (Nat × Nat)) (k : CkEnt), u = s.at t ∧ v = u.modMem (fun
      m => addErrs m (16 * k.block + 15) (chk.filter (fun x => decide (x.1 < 64)))) ∧ ckFirst u.mem q.val = some k ∧ u.mem.st = .run ∧
      u.mem.recover = none) ∧
    (∃ (s : State) (u : State) (t : Time) (q : Fin 256), u = s.at t ∧ ckFirst u.mem q.val = none ∧ dataFirst u.mem q.val = none) :=
  ⟨⟨witMem (fun m => { m with dies := [wEnt] }), _, 0, ⟨queueOf 2 0, by decide +kernel⟩, wEnt, rfl, by decide +kernel⟩,
   ⟨witMem (fun m => { m with ckd := [⟨0, queueOf 2 15, none, false, 0⟩] }), _, _, 0, ⟨queueOf 2 15, by decide +kernel⟩, [(0, 1)], ⟨0,
     queueOf 2 15, none, false, 0⟩, rfl, rfl, by decide +kernel⟩,
   ⟨wit, _, 0, ⟨queueOf 2 0, by decide +kernel⟩, rfl, by decide +kernel⟩⟩

theorem test_MemoryIsRefreshedAndManaged :
    (∃ (s : State) (u : State) (t : Time) (q : Fin 256) (b : Bank) (v : Bank), u = s.at t ∧ v = (if refreshDue u q.val t = true then
      oweRefresh u.mem b else b) ∧ diesAwake u = true ∧ b = bankOf u.mem q.val ∧ (refreshDue u q.val t = true ∨ (refreshInto u b t = true
      ∧ (0 < b.owed ∨ b.ahead < 8)))) ∧
    (∃ (s : State) (u : State) (t : Time), u = s.at t ∧ diesAwake u = true ∧ u.mem.polled + 16 * ms ≤ t) ∧
    (∃ (s : State) (u : State) (t : Time) (sc : Fin 8) (block : Nat) (l : EccLine), u = s.at t ∧ u.mem.st = .run ∧ ckRoom u.mem sc.val =
      true ∧ eccLine u.mem sc.val block = some l ∧ l.used + 10 * us ≤ t) ∧
    (∃ (s : State) (u : State) (t : Time) (target : BitVec 2), u = s.at t ∧ target.toNat ≠ 3 ∧ serves u .sideband = true ∧ storeWf u.regs
      = true) ∧
    (∃ (s : State) (u : State) (t : Time), u = s.at t ∧ u.pw.st ≠ .dawn ∧ ((u.mem.st = .change ∧ u.mem.flushed = true ∧ u.mem.dies = [] ∧
      u.mem.ckd = []) ∨ (u.mem.st = .init ∧ u.mem.initTill = none)) ∧ pllOf u 2 = .locked) ∧
    (∃ (s : State) (u : State) (c : Call), u = s.at c.start ∧ Ready u c 0x0504 ∧ c.payload = []) ∧
    (∃ (s : State) (u : State) (v : State) (c : Call), u = s.at c.start ∧ ReadySlow u c 0x0505 ∧ v = accept u c 0x0505 (50 * ms) (u8
      c.payload 0) ∧ needLeaseOrSafety u c lARRAY = none ∧ c.payload.length = 4 ∧ u8 c.payload 0 < 4 ∧ reserved c.payload 1 3 = none ∧
      u.mem.recover = none) :=
  ⟨⟨witMem (fun m => { m with banks := [⟨5, none, 0, 8, 0, 0, []⟩] }), _, 7812, 5, ⟨5, none, 0, 8, 0, 0, []⟩, oweRefresh Mem.reset ⟨5,
     none, 0, 8, 0, 0, []⟩, rfl, rfl, by decide +kernel⟩,
   ⟨wit, _, 16 * ms, rfl, by decide +kernel⟩,
   ⟨witMem (fun m => { m with ecc := [⟨0, 3, [(0, 1)], 0⟩] }), _, 10 * us, 0, 3, ⟨0, 3, [(0, 1)], 0⟩, rfl, by decide +kernel⟩,
   ⟨witMem (fun m => { m with st := .off }), _, 0, 0, rfl, by decide +kernel⟩,
   ⟨witMem (fun m =>
     { m with st := .change, prior := .run, changeTo := 1, flushed := true, tables := [⟨false, []⟩, ⟨true, [(1, 2)]⟩, ⟨false, []⟩] }), _,
     0, rfl, by decide +kernel⟩,
   ⟨wit, _, wCall [], rfl, ready_of (by decide +kernel), by decide +kernel⟩,
   ⟨wit, _, _, wCall ([0, 0, 0, 0]), rfl, readySlow_of (by decide +kernel), rfl, by decide +kernel⟩⟩

theorem test_RingSegmentsAndReads :
    (∃ (s : State) (u : State) (c : Call) (p : PortIx), u = s.at c.start ∧ Ready u c 0x0500 ∧ HoldsLease u c p lRING ∧ needLeaseOrSafety
      u c lARRAY = none ∧ c.payload.length = 16 ∧ u8 c.payload 0 ≤ 6 ∧ reservedBits c.payload 1 0xFC = none ∧ countIf (fun v => bit (u16
      c.payload 2) v) (List.range 16) ≤ 8 ∧ u32 c.payload 4 ≤ 60000 ∧ u32 c.payload 8 ≤ 60000 ∧ reserved c.payload 12 4 = none ∧ memUp u
      = true ∧ (u8 c.payload 0 = u.ring.nAs ∨ ((∀ g ∈ u.ring.segs, g.state = 0) ∧ ∀ r ∈ u.mem.regions, r.1 + r.2 ≤ (8 - u8 c.payload 0) *
      asMib))) ∧
    (∃ (s : State) (u : State) (c : Call) (p : PortIx), u = s.at c.start ∧ Ready u c 0x0501 ∧ c.src = .port p ∧ portRole u p ≠ .viewer ∧
      c.payload.length = 4 ∧ u16 c.payload 0 ≤ 0xFFFE ∧ u16 c.payload 2 = 0 ∧ pastDusk u (u.dtime c.stamp) = false ∧ needActive u c =
      none ∧ ringStateCode u = 1 ∧ u.ring.segs.length = 8) ∧
    (∃ (s : State) (u : State) (t : Time) (slot : Fin 8), u = s.at t ∧ u.ring.segs.length = 8 ∧ (segOf u.ring slot.val).state = 1 ∧
      (segOf u.ring slot.val).end_ < u.dtime t ∧ memUp u = true ∧ frameAwaited u (segOf u.ring slot.val) = false ∧ (∀ r ∈ u.ring.recs,
      inWindow (segOf u.ring slot.val) r = true → r.openNow = false ∧ sealAwaited u r = false)) ∧
    (∃ (s : State) (u : State) (c : Call) (slot : Fin 8), u = s.at c.start ∧ Ready u c 0x0506 ∧ needLeaseOrSafety u c lRING = none ∧
      c.payload = [byte slot.val, 0] ++ leBytes 2 (segOf u.ring slot.val).id ∧ (segOf u.ring slot.val).id < 2 ^ 16 ∧ (segOf u.ring
      slot.val).state ≠ 0 ∧ (segOf u.ring slot.val).state ≠ 1 ∧ segRead u slot.val = false ∧ u.ring.segs.length = 8) ∧
    (∃ (s : State) (u : State) (c : Call), u = s.at c.start ∧ Ready u c 0x0503 ∧ c.payload = []) ∧
    (∃ (s : State) (u : State) (c : Call) (p : PortIx) (slot : Fin 8) (v : ViewIx), u = s.at c.start ∧ Ready u c 0x0502 ∧ c.src = .port p
      ∧ portRole u p ≠ .viewer ∧ c.payload.length = 12 ∧ u8 c.payload 0 = slot.val ∧ u8 c.payload 1 = v.val ∧ 1 ≤ u8 c.payload 2 ∧ u8
      c.payload 2 ≤ 15 ∧ u8 c.payload 3 = 0 ∧ (segOf u.ring slot.val).state ≠ 0 ∧ u.mem.st = .run ∧ (u.port p).bulk = none ∧
      u.ports.length = 4) :=
  ⟨⟨witRing Segment.free, _, wCall ([1, 3, 0xFF, 0] ++ leBytes 4 60000 ++ leBytes 4 60000 ++ zeros 4), 0, rfl, ready_of
     (by decide +kernel), holds_of (by decide +kernel), by decide +kernel⟩,
   ⟨witRing Segment.free, _, wCall ([0xFE, 0xFF, 0, 0]), 0, rfl, ready_of (by decide +kernel), by decide +kernel⟩,
   ⟨witRing ⟨1, 0, 4, 254, 1, 0, 0, 20, 30, 1, 1, 10, 10⟩, _, 21 * ns, 0, rfl, by decide +kernel⟩,
   ⟨witRing ⟨2, 0, 4, 1, 1, 0, 0, 20, 30, 1, 1, 10, 10⟩, _, wCall ([0, 0, 4, 0]), 0, rfl, ready_of (by decide +kernel),
     by decide +kernel⟩,
   ⟨witRing Segment.free, _, wCall [], rfl, ready_of (by decide +kernel), by decide +kernel⟩,
   ⟨{ witRing ⟨2, 0, 4, 1, 1, 0, 0, 20, 30, 1, 1, 10, 10⟩ with ring := { (witRing ⟨2, 0, 4, 1, 1, 0, 0, 20, 30, 1, 1, 10, 10⟩).ring with recs := [wRec] } },
     _, wCall ([0, 0, 1, 0] ++ zeros 8), 0, 0, 0, rfl, ready_of (by decide +kernel), by decide +kernel⟩⟩

theorem test_ChargerYieldsPulsesRests :
    (∃ (s : State) (u : State) (t : Time), u = s.at t ∧ powered u = true) ∧
    (∃ (s : State) (u : State) (t : Time), u = s.at t ∧ powered u = true ∧ u.hold.vioLow = true ∧ u.hold.steps < 4 ∧ u.hold.downAt + 50 *
      us ≤ t) ∧
    (∃ (s : State) (u : State) (t : Time) (a : Time), u = s.at t ∧ powered u = true ∧ 0 < u.hold.steps ∧ u.hold.vioHighSince = some a ∧ a
      + 10 * ms ≤ t) ∧
    (∃ (s : State) (u : State) (t : Time), u = s.at t ∧ powered u = true ∧ charging u.hold = true ∧ u.hold.pulse = true ∧ u.hold.pulseAt
      + 900 * ms ≤ t) ∧
    (∃ (s : State) (u : State) (t : Time), u = s.at t ∧ powered u = true ∧ charging u.hold = true ∧ u.hold.pulse = false ∧ u.hold.pulseAt
      + 100 * ms ≤ t) ∧
    (∃ (s : State) (u : State) (t : Time), u = s.at t ∧ powered u = true ∧ u.hold.phase = .done ∧ u.hold.pulseAt + 10 * sec ≤ t) ∧
    (∃ (s : State) (u : State) (t : Time) (dq : Nat), u = s.at t ∧ powered u = true ∧ charging u.hold = true ∧ u.hold.pulse = true ∧
      budget u < u.hold.q + dq) ∧
    (∃ (s : State) (u : State) (t : Time) (mv : Nat), u = s.at t ∧ powered u = true ∧ u.hold.phase = .fast ∧ u.hold.pulse = true ∧
      effTarget u ≤ mv) :=
  ⟨⟨wit, _, 0, rfl, by decide +kernel⟩,
   ⟨witHold (fun h => { h with vioLow := true, steps := 3 }), _, 50 * us, rfl, by decide +kernel⟩,
   ⟨witHold (fun h => { h with steps := 1, vioHighSince := some 0 }), _, 10 * ms, 0, rfl, by decide +kernel⟩,
   ⟨witHold (fun h => { h with phase := .fast, pulse := true }), _, 900 * ms, rfl, by decide +kernel⟩,
   ⟨witHold (fun h => { h with phase := .fast }), _, 100 * ms, rfl, by decide +kernel⟩,
   ⟨witHold (fun h => { h with phase := .done }), _, 10 * sec, rfl, by decide +kernel⟩,
   ⟨witHold (fun h => { h with phase := .fast, pulse := true }), _, 0, 21001, rfl, by decide +kernel⟩,
   ⟨witHold (fun h => { h with phase := .fast, pulse := true }), _, 0, 1400, rfl, by decide +kernel⟩⟩

theorem test_HoldupSensingAndCommands :
    (∃ (s : State) (u : State) (t : Time), u = s.at t ∧ powered u = true ∧ charging u.hold = false ∧ u.hold.ntcAt + sec ≤ t ∧ storeWf
      u.regs = true) ∧
    (∃ (s : State) (u : State) (t : Time), u = s.at t) ∧
    (∃ (s : State) (u : State) (c : Call), u = s.at c.start ∧ Ready u c 0x0603 ∧ needLeaseOrSafety u c lARRAY = none ∧ c.payload.length =
      16 ∧ u8 c.payload 0 ≤ 3 ∧ (bit (u8 c.payload 0) 0 = true → u.hold.srcClass ≠ 0) ∧ u8 c.payload 1 = 0 ∧ 1200 ≤ u16 c.payload 2 ∧ u16
      c.payload 2 ≤ 1750 ∧ 10 ≤ u16 c.payload 4 ∧ u16 c.payload 4 ≤ 500 ∧ holdIlimOk u (u16 c.payload 6) = true ∧ 2000 ≤ u16 c.payload 8
      ∧ u16 c.payload 8 ≤ 5000 ∧ u8 c.payload 10 ≤ 6 ∧ u8 c.payload 11 ≤ 6 ∧ 10 ≤ u16 c.payload 12 ∧ u16 c.payload 12 ≤ 2000 ∧ u16
      c.payload 14 = 0) ∧
    (∃ (s : State) (u : State) (c : Call), u = s.at c.start ∧ Ready u c 0x0602 ∧ c.payload = []) :=
  ⟨⟨wit, _, sec, rfl, by decide +kernel⟩,
   ⟨wit, _, 0, rfl⟩,
   ⟨wit, _, wCall ([0, 0] ++ leBytes 2 1750 ++ leBytes 2 10 ++ leBytes 2 0 ++ leBytes 2 5000 ++ [6, 6] ++ leBytes 2 2000 ++ zeros 2),
     rfl, ready_of (by decide +kernel), by decide +kernel⟩,
   ⟨wit, _, wCall [], rfl, ready_of (by decide +kernel), by decide +kernel⟩⟩

theorem test_PortsStartTraining :
    (∃ (s : State) (u : State) (t : Time) (p : PortIx), u = s.at t ∧ (u.port p).tr.st = .detect ∧ (u.port p).tr.backoffOver = false ∧
      (u.port p).tr.backoffEnd ≤ t) ∧
    (∃ (s : State) (u : State) (t : Time) (p : PortIx), u = s.at t ∧ u.ports.length = 4 ∧ (u.port p).tr.st = .detect ∧ (u.port
      p).tr.backoffOver = true ∧ (u.port p).tr.nextBeacon ≤ t) ∧
    (∃ (s : State) (u : State) (t : Time) (p : PortIx), u = s.at t ∧ u.ports.length = 4 ∧ (u.port p).tr.st = .detect ∧ (u.port
      p).tr.backoffOver = true ∧ (u.port p).phy.los = false ∧ (u.port p).phy.lol = false) ∧
    (∃ (s : State) (u : State) (t : Time) (p : PortIx), u = s.at t ∧ u.ports.length = 4 ∧ (u.port p).tr.st = .rate ∧ (u.port
      p).tr.rateStep = .idle ∧ (u.port p).tr.idleEnd ≤ t) ∧
    (∃ (s : State) (u : State) (t : Time) (d : Time) (p : PortIx), u = s.at t ∧ u.ports.length = 4 ∧ (u.port p).tr.st = .active ∧ 1024 ≤
      (u.port p).lt.cwSince ∧ (u.port p).tr.changeAt = some d ∧ d ≤ t) :=
  ⟨⟨witTr .detect (fun q => q), _, 0, 0, rfl, by decide +kernel⟩,
   ⟨witTr .detect (fun q => { q with tr := { q.tr with backoffOver := true } }), _, 0, 0, rfl, by decide +kernel⟩,
   ⟨witTr .detect (fun q => { q with tr := { q.tr with backoffOver := true } }), _, 0, 0, rfl, by decide +kernel⟩,
   ⟨witTr .rate (fun q => { q with tr := { q.tr with rateStep := .idle, offDn := 3, offUp := 1 } }), _, 0, 0, rfl, by decide +kernel⟩,
   ⟨witTr .active (fun q => { q with tr := { q.tr with changeAt := some 0 }, lt := { q.lt with cwSince := 1024 } }), _, 0, 0, 0, rfl,
     by decide +kernel⟩⟩

theorem test_TrainingBlocksAdvanceThePort :
    (∃ (s : State) (u : State) (t : Time), u = s.at t) ∧
    (∃ (s : State) (u : State) (t : Time) (p : PortIx) (b : List Byte) (x : List Byte) (inv : Bool), u = s.at t ∧ (u.port p).tr.st =
      .detect ∧ readBlock b = some (x, inv)) ∧
    (∃ (s : State) (u : State) (t : Time) (p : PortIx) (b : List Byte), u = s.at t ∧ (training (u.port p).tr.st = true ∨ (u.port p).tr.st
      = .detect) ∧ readBlock b = none) ∧
    (∃ (s : State) (u : State) (t : Time) (p : PortIx) (b : List Byte) (x : List Byte) (inv : Bool), u = s.at t ∧ u.ports.length = 4 ∧
      training (u.port p).tr.st = true ∧ readBlock b = some (x, inv) ∧ u8 x 8 = 0x0F) ∧
    (∃ (s : State) (u : State) (t : Time) (p : PortIx) (b : List Byte) (x : List Byte) (inv : Bool), u = s.at t ∧ u.ports.length = 4 ∧
      (u.port p).tr.st = .clock ∧ readBlock b = some (x, inv) ∧ u8 x 8 = 1 ∧ u8 x 10 = 2 ∧ u8 x 15 = 1 ∧ 7 ≤ (u.port p).tr.rxGood ∧ 1 ≤
      (u.port p).tr.good) ∧
    (∃ (s : State) (u : State) (t : Time) (p : PortIx) (b : List Byte) (x : List Byte) (inv : Bool), u = s.at t ∧ u.ports.length = 4 ∧
      (u.port p).tr.st = .lanes ∧ readBlock b = some (x, inv) ∧ u8 x 8 = 3 ∧ u8 x 10 = 3 ∧ (∀ r : Nat, r < 4 → u8 x (12 + r) = r) ∧ 1 ≤
      (u.port p).tr.good) ∧
    (∃ (s : State) (u : State) (t : Time) (p : PortIx) (b : List Byte) (x : List Byte) (inv : Bool), u = s.at t ∧ u.ports.length = 4 ∧
      (u.port p).tr.st = .deskew ∧ readBlock b = some (x, inv) ∧ u8 x 8 = 4 ∧ u8 x 10 = 4 ∧ (∀ r : Nat, r < 4 → u8 x (12 + r) = 0) ∧
      (u.port p).phy.delay = (List.range 4).map (fun r => u8 x (16 + r)) ∧ 1 ≤ (u.port p).tr.good) ∧
    (∃ (s : State) (u : State) (t : Time) (p : PortIx) (b : List Byte) (x : List Byte) (inv : Bool), u = s.at t ∧ u.ports.length = 4 ∧
      (u.port p).tr.st = .equalise ∧ readBlock b = some (x, inv) ∧ u8 x 8 = 5 ∧ u8 x 10 = 5 ∧ (u.port p).phy.reqSeen = true ∧ (u.port
      p).phy.reqId = u8 x 16 ∧ bit (u8 x 17) 0 = true ∧ (u.port p).phy.upOk = true ∧ 1 ≤ (u.port p).tr.good) ∧
    (∃ (s : State) (u : State) (t : Time) (p : PortIx) (b : List Byte) (x : List Byte) (inv : Bool) (fin : Bool), u = s.at t ∧ fin =
      decide ((u.port p).tr.offDn = (u.port p).tr.dnRate ∧ (u.port p).tr.offUp = (u.port p).tr.upRate) ∧ u.ports.length = 4 ∧ (u.port
      p).tr.st = .rate ∧ (u.port p).tr.rateStep = .offer ∧ readBlock b = some (x, inv) ∧ u8 x 8 = 6 ∧ u8 x 10 = 6 ∧ u8 x 12 = (u.port
      p).tr.offDn ∧ u8 x 13 = (u.port p).tr.offUp ∧ u8 x 15 = 1 ∧ 1 ≤ (u.port p).tr.good ∧ u8 x 14 = b2n (u.port p).tr.offPreDn + 2 * b2n
      (u.port p).tr.offPreUp + 4 * b2n fin) :=
  ⟨⟨witTr .clock (fun q => q), _, 0, rfl⟩,
   ⟨witTr .detect (fun q => q), _, 0, 0, wBlk 1 2 [], wBlk 1 2 [], false, rfl, by decide +kernel⟩,
   ⟨witTr .detect (fun q => q), _, 0, 0, zeros 32, rfl, by decide +kernel⟩,
   ⟨witTr .rate (fun q => { q with tr := { q.tr with fails := 255 } }), _, 0, 0, wBlk 0x0F 0 [], wBlk 0x0F 0 [], false, rfl,
     by decide +kernel⟩,
   ⟨witTr .clock (fun q => { q with tr := { q.tr with rxGood := 7, good := 1 } }), _, 0, 0, wBlk 1 2 [3, 1, 0, 1], wBlk 1 2 [3, 1, 0, 1],
     false, rfl, by decide +kernel⟩,
   ⟨witTr .lanes (fun q => { q with tr := { q.tr with good := 1 } }), _, 0, 0, wBlk 3 3 [0, 1, 2, 3], wBlk 3 3 [0, 1, 2, 3], false, rfl,
     by decide +kernel⟩,
   ⟨witTr .deskew (fun q => { q with tr := { q.tr with good := 1, dnRate := 3 }, phy := { q.phy with delay := [0, 1, 0, 7] } }), _, 0, 0,
     wBlk 4 4 [0, 0, 0, 0, 0, 1, 0, 7], wBlk 4 4 [0, 0, 0, 0, 0, 1, 0, 7], false, rfl, by decide +kernel⟩,
   ⟨witTr .equalise (fun q =>
     { q with tr := { q.tr with good := 1, hostDn := 3, hostUp := 1 }, phy := { q.phy with reqSeen := true, upOk := true } }), _, 0, 0,
     wBlk 5 5 [0, 0, 0, 0, 0, 1], wBlk 5 5 [0, 0, 0, 0, 0, 1], false, rfl, by decide +kernel⟩,
   ⟨witTr .rate (fun q => { q with tr := { q.tr with good := 1, offDn := 3, offUp := 1, offPreUp := true } }), _, 0, 0, wBlk 6 6 [3, 1,
     2, 1], wBlk 6 6 [3, 1, 2, 1], false, _, rfl, rfl, by decide +kernel⟩⟩

theorem test_PortsFailAndDrop :
    (∃ (s : State) (u : State) (t : Time) (p : PortIx), u = s.at t ∧ u.ports.length = 4 ∧ training (u.port p).tr.st = true ∧ (u.port
      p).tr.entered + trainLimit (u.port p).tr.st ≤ t) ∧
    (∃ (s : State) (u : State) (t : Time), u = s.at t) ∧
    (∃ (s : State) (u : State) (t : Time) (p : PortIx), u = s.at t ∧ u.ports.length = 4 ∧ freqDue (u.port p).phy t = true) ∧
    (∃ (s : State) (u : State) (t : Time) (p : PortIx), u = s.at t ∧ freqDue (u.port p).phy t = false) ∧
    (∃ (s : State) (u : State) (v : State) (t : Time) (p : PortIx), u = s.at t ∧ v = u.modPhy p (fun y => { y with los := false }) ∧
      (u.port p).phy.los = true) ∧
    (∃ (s : State) (u : State) (v : State) (t : Time) (p : PortIx) (ppm : Int), u = s.at t ∧ v = u.modPhy p (fun y =>
      { y with freqPpm := ppm, freqAt := some t }) ∧ (u.port p).phy.lol = true ∧ freqDue (u.port p).phy t = true) ∧
    (∃ (s : State) (u : State) (t : Time) (p : PortIx) (lol : Bool), u = s.at t ∧ u.ports.length = 4 ∧ (if lol then (u.port p).phy.lol
      else (u.port p).phy.los) = true ∧ clockToActive (u.port p).tr.st = true ∧ lossAt (u.port p).phy lol + 10 * us ≤ t) ∧
    (∃ (s : State) (u : State) (v : State) (t : Time) (e : Time) (p : PortIx) (body : List Byte), u = s.at t ∧ takeIn u p tTRAIN body t =
      (e, v) ∧ u.ports.length = 4 ∧ (u.port p).tr.st = .active) ∧
    (∃ (s : State) (u : State) (t : Time) (p : PortIx) (m : List Byte), u = s.at t ∧ u.ports.length = 4 ∧ (u.port p).tr.st = .active ∧
      256 ≤ (u.port p).lt.cwUp ∧ markerOk (u.port p) m = false ∧ 2 ≤ (u.port p).lt.amBad) ∧
    (∃ (s : State) (u : State) (t : Time) (h : Time) (p : PortIx), u = s.at t ∧ u.ports.length = 4 ∧ u.pipe.views.length = 16 ∧ (u.port
      p).tr.st ≠ .active ∧ (u.port p).holdEnd = some h ∧ h ≤ t) :=
  ⟨⟨witTr .rate (fun q => q), _, 2 * ms, 0, rfl, by decide +kernel⟩,
   ⟨wit, _, 0, rfl⟩,
   ⟨wit, _, 0, 0, rfl, by decide +kernel⟩,
   ⟨witTr .active (fun q => { q with phy := { q.phy with freqAt := some 0 } }), _, 2 * us - 1, 0, rfl, by decide +kernel⟩,
   ⟨witTr .active (fun q => { q with phy := { q.phy with los := true } }), _, _, 10 * us + 1, 0, rfl, rfl, by decide +kernel⟩,
   ⟨witTr .active (fun q => { q with phy := { q.phy with lol := true } }), _, _, 2 * us, 0, 1000, rfl, rfl, by decide +kernel⟩,
   ⟨witTr .active (fun q => { q with phy := { q.phy with los := true } }), _, 10 * us, 0, false, rfl, by decide +kernel⟩,
   ⟨wit, _, _, 0, _, 0, withCrc32 ([0x0F, 0, 0, 0]), rfl, Prod.mk.eta.symm, by decide +kernel⟩,
   ⟨witTr .active (fun q => { q with lt := { q.lt with amBad := 2, cwUp := 256 } }), _, 0, 0, zeros 16, rfl, by decide +kernel⟩,
   ⟨{ witTr .detect (fun q => { q with holdEnd := some 0 }) with pipe := { wit.pipe with views := { wView with st := .paused } :: wit.pipe.views.drop 1 } },
     _, 0, 0, 0, rfl, by decide +kernel⟩⟩

theorem test_ReceiversMeasureAndAdapt :
    (∃ (s : State) (u : State) (t : Time) (p : PortIx), u = s.at t ∧ u.ports.length = 4 ∧ (u.port p).tr.st = .equalise ∧ (u.port
      p).phy.ctleTry < 16 ∧ (u.port p).phy.ctleAt + upSymbols (u.port p).tr.upRate 32768 ≤ t) ∧
    (∃ (s : State) (u : State) (t : Time) (p : PortIx), u = s.at t ∧ u.ports.length = 4 ∧ (((u.port p).tr.st = .equalise ∧ 16 ≤ (u.port
      p).phy.ctleTry) ∨ (u.port p).tr.st = .rate ∨ (u.port p).tr.st = .active) ∧ (u.port p).phy.los = false ∧ (u.port p).phy.lol = false
      ∧ u.ctlFld p 12 12 = 0 ∧ ((u.port p).test.run = true → (u.port p).test.inj = 0) ∧ (u.port p).phy.dfeAt + upSymbols (u.port
      p).tr.upRate 256 ≤ t ∧ (u.port p).phy.dfe.length = 5 ∧ (∀ k : Nat, k < 5 → -(if k = 0 then 64 else 32) ≤ (u.port p).phy.dfe.getD k
      0 ∧ (u.port p).phy.dfe.getD k 0 < (if k = 0 then 64 else 32))) ∧
    (∃ (s : State) (u : State) (t : Time) (p : PortIx), u = s.at t ∧ (u.port p).tr.st = .active ∧ (u.port p).phy.phaseAt + upSymbols
      (u.port p).tr.upRate 1024 ≤ t) ∧
    (∃ (s : State) (u : State) (t : Time) (p : PortIx), u = s.at t ∧ u.ports.length = 4 ∧ checking (u.port p) = true ∧ (u.port
      p).phy.chkSync = true ∧ ((u.port p).tr.st = .test ∨ 16 ≤ (u.port p).phy.ctleTry) ∧ (u.port p).phy.winAt + winSpan (u.port p) ≤ t) ∧
    (∃ (s : State) (u : State) (t : Time) (p : PortIx) (rx : List Bool) (n : Nat) (m : Nat) (e : Nat) (st : Nat), u = s.at t ∧
      u.ports.length = 4 ∧ checking (u.port p) = true ∧ (u.port p).phy.chkSync = false ∧ prbsPoly (checkPat (u.port p)) = (n, m) ∧
      prbsCheck n m (prbsLoad (rx.take n)) ((rx.drop n).take 64) 0 = (e, st)) ∧
    (∃ (s : State) (u : State) (t : Time) (p : PortIx) (rx : List Bool) (n : Nat) (m : Nat) (e : Nat) (st : Nat), u = s.at t ∧
      u.ports.length = 4 ∧ checking (u.port p) = true ∧ (u.port p).phy.chkSync = true ∧ prbsPoly (checkPat (u.port p)) = (n, m) ∧
      rx.length = 64 ∧ prbsCheck n m (u.port p).phy.chkState rx 0 = (e, st)) :=
  ⟨⟨witTr .equalise (fun q => { q with phy := { q.phy with ctleTry := 15, ctleBest := 7, eye := 7 } }), _, 32768, 0, rfl,
     by decide +kernel⟩,
   ⟨wit, _, 256, 0, rfl, by decide +kernel⟩,
   ⟨wit, _, 1024, 0, rfl, by decide +kernel⟩,
   ⟨witTr .equalise (fun q => { q with phy := { q.phy with chkSync := true, winBits := 64, ctleTry := 16 } }), _, sec, 0, rfl,
     by decide +kernel⟩,
   ⟨witTr .test (fun q => { q with test := { q.test with run := true, pat := 1, chkUp := true } }), _, 0, 0, List.replicate 71 false, 7,
     6, 0, 0, rfl, by decide +kernel⟩,
   ⟨witTr .test (fun q =>
     { q with test := { q.test with run := true, pat := 1, chkUp := true }, phy := { q.phy with chkSync := true } }), _, 0, 0,
     List.replicate 16 true ++ List.replicate 48 false, 7, 6, 16, 0, rfl, by decide +kernel⟩⟩

theorem test_LinkCommandsAndTests :
    (∃ (s : State) (u : State) (c : Call) (p : PortIx), u = s.at c.start ∧ Ready u c 0x0800 ∧ c.payload = [byte p.val, 0, 0, 0]) ∧
    (∃ (s : State) (u : State) (c : Call) (p : PortIx) (q : PortIx) (dn : Nat) (up : Nat) (f : Nat), u = s.at c.start ∧ Ready u c 0x0802
      ∧ u.ports.length = 4 ∧ c.src = .port p ∧ c.payload = [byte q.val, byte dn, byte up, byte f] ∧ dn ≤ 3 ∧ up ≤ 1 ∧ f < 16 ∧ (p = q →
      bit f 0 = true) ∧ (p ≠ q → portRole u p = .safety) ∧ storeWf u.regs = true) ∧
    (∃ (s : State) (u : State) (c : Call) (p : PortIx) (q : PortIx) (pat : Nat) (fl : Nat) (lanes : Nat) (inj : Nat) (k : Nat) (dur :
      Nat), u = s.at c.start ∧ ReadySlow u c 0x0801 ∧ u.ports.length = 4 ∧ c.src = .port p ∧ c.payload = [byte q.val, byte pat, byte fl,
      byte lanes, byte inj, byte k, 0, 0] ++ leBytes 4 dur ∧ (p ≠ q → portRole u p = .safety) ∧ pat ≤ 3 ∧ fl ≤ 3 ∧ (pat = 0 → fl = 0) ∧
      lanes < 16 ∧ inj ≤ 2 ∧ 10 ≤ k ∧ k ≤ 30 ∧ 1 ≤ dur ∧ dur ≤ 60000 ∧ (pat = 0 → (u.port q).tr.st = .active) ∧ (u.port q).test.run =
      false) ∧
    (∃ (s : State) (u : State) (t : Time) (p : PortIx), u = s.at t ∧ u.ports.length = 4 ∧ (u.port p).test.run = true ∧ (u.port
      p).test.inj = 2 ∧ ((u.port p).tr.st = .active ∨ (u.port p).tr.st = .test) ∧ (u.port p).test.injAt + dnSymbols (u.port p) (2 ^
      (u.port p).test.injExp) ≤ t) ∧
    (∃ (s : State) (u : State) (t : Time) (p : PortIx) (q : PortIx), u = s.at t ∧ u.ports.length = 4 ∧ (u.port p).test.run = true ∧
      (u.port p).test.endAt ≤ t ∧ (u.port p).test.src = .port q) :=
  ⟨⟨wit, _, wCall ([0, 0, 0, 0]), 0, rfl, ready_of (by decide +kernel), by decide +kernel⟩,
   ⟨wit, _, wCall ([3, 0, 0, 0]), 0, 3, 0, 0, 0, rfl, ready_of (by decide +kernel), by decide +kernel⟩,
   ⟨wit, _, wCall ([0, 0, 0, 15, 2, 30, 0, 0] ++ leBytes 4 60000), 0, 0, 0, 0, 15, 2, 30, 60000, rfl, readySlow_of (by decide +kernel),
     by decide +kernel⟩,
   ⟨witTr .active (fun q => { q with test := { q.test with run := true, inj := 2, lanes := 5, injExp := 10 } }), _, 2 * us, 0, rfl,
     by decide +kernel⟩,
   ⟨witTr .test (fun q => { q with test := { q.test with run := true, src := .port 1 } }), _, 0, 0, 1, rfl, by decide +kernel⟩⟩

theorem test_MarkersAndCellsAct :
    (∃ (s : State) (u : State) (t : Time) (p : PortIx), u = s.at t ∧ u.ports.length = 4 ∧ markerDue (u.port p) t = true) ∧
    (∃ (s : State) (u : State) (t : Time) (p : PortIx) (m : List Byte), u = s.at t ∧ u.ports.length = 4 ∧ (u.port p).tr.st = .active ∧
      256 ≤ (u.port p).lt.cwUp ∧ markerOk (u.port p) m = true) ∧
    (∃ (s : State) (u : State) (t : Time) (p : PortIx) (m : List Byte), u = s.at t ∧ u.ports.length = 4 ∧ (u.port p).tr.st = .rate ∧
      (u.port p).tr.rateStep = .go ∧ markerOk (u.port p) m = true) ∧
    (∃ (s : State) (u : State) (t : Time) (p : PortIx) (m : List Byte), u = s.at t ∧ u.ports.length = 4 ∧ markerUp (u.port p) = true ∧
      markerOk (u.port p) m = false ∧ ((u.port p).lt.amBad < 2 ∨ (u.port p).tr.st ≠ .active)) ∧
    (∃ (s : State) (u : State) (v : State) (t : Time) (e : Time) (p : PortIx) (body : List Byte), u = s.at t ∧ takeIn u p tTIME body t =
      (e, v) ∧ u.ports.length = 4 ∧ (u.port p).tr.st = .active) ∧
    (∃ (s : State) (u : State) (t : Time) (p : PortIx) (levels : List (Fin 4)) (ys : List Nat) (vs : List Nat), u = s.at t ∧ ys =
      levels.map (fun y => if (u.port p).phy.upInv then 3 - y.val else y.val) ∧ vs = (if (u.port p).tr.preUp then unprecode (u.port
      p).rxY ys else ys) ∧ u.ports.length = 4 ∧ (u.port p).tr.st = .active ∧ levels.length = 1360 ∧ (u.port p).lt.cwUp < 256 ∧
      gf10.decode 16 (valuesCw vs) = none) ∧
    (∃ (s : State) (u : State) (v : State) (t : Time) (p : PortIx) (levels : List (Fin 4)) (ys : List Nat) (vs : List Nat) (w : List Nat)
      (n : Nat), u = s.at t ∧ ys = levels.map (fun y => if (u.port p).phy.upInv then 3 - y.val else y.val) ∧ vs = (if (u.port p).tr.preUp
      then unprecode (u.port p).rxY ys else ys) ∧ v = u.modPort p (fun q =>
      { q with rxY := ys.getLastD 0, lt := { q.lt with cwUp := q.lt.cwUp + 1 } }) ∧ (u.port p).tr.st = .active ∧ levels.length = 1360 ∧
      (u.port p).lt.cwUp < 256 ∧ gf10.decode 16 (valuesCw vs) = some (w, n)) ∧
    (∃ (s : State) (u : State) (v : State) (t : Time) (e : Time) (p : PortIx) (body : List Byte) (d : Nat), u = s.at t ∧ takeIn u p tACK
      body t = (e, v) ∧ u.ports.length = 4 ∧ (u.port p).tr.st = .active ∧ body.length = 8 ∧ crc32Ok body = true ∧ bit (u8 body 1) 0 =
      false ∧ d = (u8 body 0 + 256 - (u.port p).rel.lastAck) % 256) ∧
    (∃ (s : State) (u : State) (v : State) (t : Time) (e : Time) (p : PortIx) (body : List Byte), u = s.at t ∧ takeIn u p tACK body t =
      (e, v) ∧ u.ports.length = 4 ∧ (u.port p).tr.st = .active ∧ body.length = 8 ∧ crc32Ok body = true ∧ bit (u8 body 1) 0 = true) ∧
    (∃ (s : State) (u : State) (v : State) (t : Time) (e : Time) (p : PortIx) (body : List Byte), u = s.at t ∧ takeIn u p tCREDIT body t
      = (e, v) ∧ u.ports.length = 4 ∧ (u.port p).tr.st = .active ∧ body.length = 56 ∧ crc32Ok body = true) ∧
    (∃ (s : State) (u : State) (v : State) (t : Time) (e : Time) (p : PortIx) (body : List Byte), u = s.at t ∧ takeIn u p tTRIG body t =
      (e, v) ∧ (u.port p).tr.st = .active ∧ body.length = 8 ∧ crc32Ok body = true) ∧
    (∃ (s : State) (u : State) (v : State) (t : Time) (e : Time) (p : PortIx) (body : List Byte) (type : Nat) (n : Nat) (i : Instr), u =
      s.at t ∧ takeIn u p type body t = (e, v) ∧ (u.port p).tr.st = .active ∧ ((type = tACK ∧ n = 8 ∧ i = .ack t p body) ∨ (type =
      tCREDIT ∧ n = 56 ∧ i = .credit t p body) ∨ (type = tTRIG ∧ n = 8 ∧ i = .trigCell t p body)) ∧ (body.length ≠ n ∨ crc32Ok body =
      false)) :=
  ⟨⟨witTr .active (fun q => { q with lt := { q.lt with txSeq := 0xFFFFFF, cwSince := 1024 } }), _, 0, 0, rfl, by decide +kernel⟩,
   ⟨witTr .active (fun q => { q with lt := { q.lt with rxSeq := some 5, cwUp := 256 } }), _, 0, 0, wMark 6, rfl, by decide +kernel⟩,
   ⟨witTr .rate (fun q => { q with tr := { q.tr with rateStep := .go, fails := 3 } }), _, 0, 0, wMark 0, rfl, by decide +kernel⟩,
   ⟨witTr .active (fun q => { q with lt := { q.lt with amBad := 1, cwUp := 256 } }), _, 0, 0, zeros 16, rfl, by decide +kernel⟩,
   ⟨witTr .active (fun q => { q with lt := { q.lt with up := [(4, 100)], dn := [(8, 50)] } }), _, _, 0, _, 0, withCrc32 (leBytes 4 4 ++
     leBytes 8 90 ++ leBytes 4 8 ++ leBytes 8 61 ++ zeros 4), rfl, Prod.mk.eta.symm, by decide +kernel⟩,
   ⟨wit, _, 0, 0, 1 :: List.replicate 19 0 ++ 1 :: List.replicate 19 0 ++ List.replicate 1320 3, _, _, rfl, rfl, rfl, by decide +kernel⟩,
   ⟨wit, _, _, 0, 0, List.replicate 1360 0, _, _, List.replicate 272 0, 0, rfl, rfl, rfl, rfl, by decide +kernel⟩,
   ⟨witTr .active (fun q =>
     { q with rel := { q.rel with out := [⟨0, 1, 0, true, true, [], 9⟩, ⟨1, 1, 0, true, true, [], 9⟩], lastAck := 255 } }), _, _, 0, _,
     0, withCrc32 ([0, 0, 0, 0]), 1, rfl, Prod.mk.eta.symm, by decide +kernel⟩,
   ⟨witTr .active (fun q => { q with rel := { q.rel with out := [⟨0, 1, 0, true, true, [], 9⟩], lastAck := 255 } }), _, _, 0, _, 0,
     withCrc32 ([255, 1, 0, 0]), rfl, Prod.mk.eta.symm, by decide +kernel⟩,
   ⟨wit, _, _, 0, _, 0, withCrc32 (1 :: zeros 33 ++ List.replicate 16 63 ++ zeros 2), rfl, Prod.mk.eta.symm, by decide +kernel⟩,
   ⟨wit, _, _, 0, _, 0, withCrc32 (zeros 4), rfl, Prod.mk.eta.symm, by decide +kernel⟩,
   ⟨wit, _, _, 0, _, 0, zeros 8, 3, 8, .ack 0 0 (zeros 8), rfl, Prod.mk.eta.symm, by decide +kernel⟩⟩

theorem test_DownstreamSlotsTakeTheFirstReady :
    (∃ (s : State) (u : State) (t : Time) (p : PortIx), u = s.at t ∧ cellSlot (u.port p) = true ∧ (u.port p).tr.st ≠ .active) ∧
    (∃ (s : State) (u : State) (w : State) (x : State) (t : Time) (p : PortIx) (rel : Bool), u = s.at t ∧ w = creditDue u p t ∧ (x = (if
      0 < (w.port p).rel.resend ∨ ((w.port p).rel.msgq ≠ [] ∧ credit (w.port p).cr 0 = 0) then excusePort w p else w)) ∧ rel = (decide (0
      < (w.port p).rel.resend) || relReady (w.port p)) ∧ u.ports.length = 4 ∧ cellSlot (u.port p) = true ∧ (u.port p).tr.st = .active) ∧
    (∃ (w : State) (p : PortIx) (x : RelCell) (l : List RelCell), w.ports.length = 4 ∧ (w.port p).rel.out.drop ((w.port p).rel.out.length
      - (w.port p).rel.resend) = x :: l) ∧
    (∃ (w : State) (p : PortIx) (k : RelPkt) (off : Nat), w.ports.length = 4 ∧ (nextRel (w.port p) = some (k, some off) ∨ (nextRel
      (w.port p) = some (k, none) ∧ off = 0)) ∧ off + 60 < k.bytes.length ∧ k.vs < (w.port p).cr.sent.length) ∧
    (∃ (s : State) (u : State) (t : Time) (p : PortIx), u = s.at t ∧ u.ports.length = 4 ∧ (u.port p).tr.st = .active ∧ (u.port p).rel.out
      ≠ [] ∧ (u.port p).rel.progressAt + (u.port p).rel.rto * us ≤ t ∧ u.log.entries.length < 64) :=
  ⟨⟨witTr .rate (fun q => { q with tr := { q.tr with rateStep := .go } }), _, 0, 0, rfl, by decide +kernel⟩,
   ⟨witTr .active (fun q => { q with rel := { q.rel with owedNak := true, owedAck := some 0 } }), _, _, _, 0, 0, _, rfl, rfl, rfl, rfl,
     by decide +kernel⟩,
   ⟨witTr .active (fun q => { q with rel := { q.rel with resend := 1, out := [⟨0, 1, 0, true, true, [], 9⟩] } }), 0, ⟨0, 1, 0, true,
     true, [], 9⟩, [], by decide +kernel⟩,
   ⟨witTr .active (fun q => { q with rel := { q.rel with cur := some (⟨true, 0, List.replicate 200 1, 9⟩, 60), txSeq := 255 } }), 0,
     ⟨true, 0, List.replicate 200 1, 9⟩, 60, by decide +kernel⟩,
   ⟨{ witTr .active (fun q => { q with rel := { q.rel with out := [⟨0, 1, 0, true, true, [], 9⟩], timeouts := 15 } }) with log := ⟨[], 0, false⟩ },
     _, 8 * us, 0, rfl, by decide +kernel⟩⟩

theorem test_RequestsAreHandedOn :
    (∃ (s : State) (u : State) (w : State) (t : Time) (x : Time) (p : PortIx) (e : List Byte), u = s.at t ∧ EntryTaken u w t x p e) ∧
    (∃ (s : State) (u : State) (w : State) (t : Time) (x : Time) (p : PortIx) (e : List Byte) (k : Cls), u = s.at t ∧ EntryTaken u w t x
      p e ∧ (u.port p).mbx.chain = none ∧ e.length = 64 ∧ entryCrcOk e = true ∧ u8 e 6 = 0 ∧ u8 e 7 = 1 ∧ u8 e 5 ≤ 48 ∧ opClass (u16 e 0)
      = some k ∧ u8 e 4 = k.code ∧ u16 e 2 ≠ 0xFFFF ∧ beyondLen e 0 = none) ∧
    (∃ (s : State) (u : State) (w : State) (t : Time) (x : Time) (p : PortIx) (e : List Byte) (n : Nat), u = s.at t ∧ EntryTaken u w t x
      p e ∧ (u.port p).mbx.chain = none ∧ u8 e 6 = 0 ∧ 2 ≤ n ∧ n ≤ 16 ∧ u8 e 7 = n ∧ u8 e 5 = 48) ∧
    (∃ (s : State) (u : State) (w : State) (t : Time) (x : Time) (p : PortIx) (e : List Byte) (c : Chain), u = s.at t ∧ EntryTaken u w t
      x p e ∧ (u.port p).mbx.chain = some c ∧ u8 e 6 = c.next ∧ chainHdr e = chainHdr c.hdr ∧ c.next + 1 ≠ c.count ∧ u8 e 5 = 48 ∧
      c.hdr.length = 12 ∧ c.beyond = none ∧ entryCrcOk e = true) ∧
    (∃ (s : State) (u : State) (w : State) (t : Time) (x : Time) (p : PortIx) (e : List Byte) (c : Chain) (k : Cls), u = s.at t ∧
      EntryTaken u w t x p e ∧ (u.port p).mbx.chain = some c ∧ u8 e 6 = c.next ∧ chainHdr e = chainHdr c.hdr ∧ c.next + 1 = c.count ∧ 1 ≤
      u8 e 5 ∧ u8 e 5 ≤ 48 ∧ c.hdr.length = 12 ∧ c.beyond = none ∧ beyondLen e c.payload.length = none ∧ c.crcBad = false ∧ entryCrcOk e
      = true ∧ opClass (u16 c.hdr 0) = some k ∧ k ≠ .immediate ∧ u8 c.hdr 4 = k.code ∧ u16 c.hdr 2 ≠ 0xFFFF ∧ shapeBad c.hdr = false) ∧
    (∃ (s : State) (u : State) (w : State) (t : Time) (x : Time) (p : PortIx) (e : List Byte), u = s.at t ∧ EntryTaken u w t x p e ∧
      (u.port p).mbx.chain = none ∧ e.length = 64 ∧ entryCrcOk e = false ∧ u8 e 6 = 0 ∧ u8 e 7 = 1 ∧ u8 e 5 ≤ 48) ∧
    (∃ (s : State) (u : State) (v : State) (t : Time) (x : Time) (p : PortIx) (e : List Byte), u = s.at t ∧ takeIn u p tCMD e t = (x, v)
      ∧ u.ports.length = 4 ∧ (u.port p).tr.st = .active ∧ 0 < (u.port p).mbx.reqFree ∧ (u.port p).mbx.reqOwed = 0 ∧ 0 < (u.port
      p).mbx.dupLeft ∧ (u16 e 2, u32 e 12) ∈ (u.port p).mbx.oldRecent) ∧
    (∃ (s : State) (u : State) (v : State) (t : Time) (x : Time) (p : PortIx) (e : List Byte), u = s.at t ∧ takeIn u p tCMD e t = (x, v)
      ∧ (u.port p).tr.st = .active ∧ (v.port p).mbx.reqFree = 0 ∧ slotsDue v p t ≤ (v.port p).mbx.reqOwed) ∧
    (∃ (s : State) (u : State) (t : Time) (p : PortIx) (c : Chain), u = s.at t ∧ u.ports.length = 4 ∧ (u.port p).mbx.chain = some c ∧
      c.last + ms ≤ t) :=
  ⟨⟨wit, _, _, 0, _, 0, wEntry 0x0001 1 48, rfl, entryTaken_of (by decide +kernel)⟩,
   ⟨wit, _, _, 0, _, 0, wEntry 0x0001 1 48, .fast, rfl, entryTaken_of (by decide +kernel), by decide +kernel⟩,
   ⟨wit, _, _, 0, _, 0, wPart 0x0001 1 48 0 2, 2, rfl, entryTaken_of (by decide +kernel), by decide +kernel⟩,
   ⟨witTr .active (fun q =>
     { q with mbx := { q.mbx with chain := some ⟨slice (wPart 0x0001 1 48 0 3) 0 12, 1, 3, [], 0, false, none⟩ } }), _, _, 0, _, 0, wPart
     0x0001 1 48 1 3, ⟨slice (wPart 0x0001 1 48 0 3) 0 12, 1, 3, [], 0, false, none⟩, rfl, entryTaken_of (by decide +kernel),
     by decide +kernel⟩,
   ⟨witTr .active (fun q =>
     { q with mbx := { q.mbx with chain := some ⟨slice (wPart 0x0001 1 48 0 2) 0 12, 1, 2, [], 0, false, none⟩ } }), _, _, 0, _, 0, wPart
     0x0001 1 48 1 2, ⟨slice (wPart 0x0001 1 48 0 2) 0 12, 1, 2, [], 0, false, none⟩, .fast, rfl, entryTaken_of (by decide +kernel),
     by decide +kernel⟩,
   ⟨wit, _, _, 0, _, 0, (wEntry 0x0001 1 48).set 12 0, rfl, entryTaken_of (by decide +kernel), by decide +kernel⟩,
   ⟨witTr .active (fun q => { q with mbx := { q.mbx with dupLeft := 1, oldRecent := [(u16 (wEntry 1 1 0) 2, u32 (wEntry 1 1 0) 12)] } }),
     _, _, 0, _, 0, wEntry 1 1 0, rfl, Prod.mk.eta.symm, by decide +kernel⟩,
   ⟨witTr .active (fun q => { q with mbx := { q.mbx with reqFree := 0 } }), _, _, 0, _, 0, zeros 64, rfl, Prod.mk.eta.symm,
     by decide +kernel⟩,
   ⟨witTr .active (fun q => { q with mbx := { q.mbx with chain := some ⟨zeros 12, 1, 2, [], 0, false, none⟩ } }), _, ms, 0, ⟨zeros 12, 1,
     2, [], 0, false, none⟩, rfl, by decide +kernel⟩⟩

theorem test_ResponsesPostInOrder :
    (∃ (s : State) (u : State) (v : State) (t : Time) (p : PortIx) (r : Rsp), u = s.at t ∧ v = doorbellsDue u p t ∧ u.ports.length = 4 ∧
      (v.port p).mbx.wait.find? (fun x => decide (x.cls = .immediate)) = some r ∧ rspFits (v.port p).mbx.rspFree r = true) ∧
    (∃ (s : State) (u : State) (v : State) (t : Time) (p : PortIx) (n : Note) (rest : List Note), u = s.at t ∧ v = doorbellsDue u p t ∧
      u.ports.length = 4 ∧ (u.port p).tr.st = .active ∧ (∀ x ∈ (v.port p).mbx.wait, x.cls ≠ .immediate) ∧ (v.port p).mbx.notes = n ::
      rest ∧ 1 ≤ (v.port p).mbx.rspFree) ∧
    (∃ (s : State) (u : State) (v : State) (t : Time) (p : PortIx) (r : Rsp) (rest : List Rsp), u = s.at t ∧ v = doorbellsDue u p t ∧ (∀
      x ∈ (v.port p).mbx.wait, x.cls ≠ .immediate) ∧ ((v.port p).mbx.notes = [] ∨ (u.port p).tr.st ≠ .active) ∧ (v.port p).mbx.wait = r
      :: rest ∧ rspFits (v.port p).mbx.rspFree r = false) ∧
    (∃ (s : State) (u : State) (v : State) (t : Time) (p : PortIx) (r : Rsp) (rest : List Rsp), u = s.at t ∧ v = doorbellsDue u p t ∧
      u.ports.length = 4 ∧ (∀ x ∈ (v.port p).mbx.wait, x.cls ≠ .immediate) ∧ ((v.port p).mbx.notes = [] ∨ (u.port p).tr.st ≠ .active) ∧
      (v.port p).mbx.wait = r :: rest ∧ rspFits (v.port p).mbx.rspFree r = true) ∧
    (∃ (s : State) (u : State) (t : Time) (p : PortIx) (body : List Byte) (n : Nat), u = s.at t ∧ n = (u16 body 2 + 65536 - (u.port
      p).mbx.consumed) % 65536 ∧ u.ports.length = 4 ∧ (u.port p).tr.st = .active ∧ u8 body 0 = 1 ∧ n ≤ ((u.port p).mbx.sentCount + 65536
      - (u.port p).mbx.consumed) % 65536) ∧
    (∃ (s : State) (u : State) (v : State) (t : Time) (x : Time) (p : PortIx) (body : List Byte), u = s.at t ∧ takeIn u p tDOORBELL body
      t = (x, v) ∧ (u.port p).tr.st = .active ∧ (u8 body 0 ≠ 1 ∨ ((u.port p).mbx.sentCount + 65536 - (u.port p).mbx.consumed) % 65536 <
      (u16 body 2 + 65536 - (u.port p).mbx.consumed) % 65536)) ∧
    (∃ (s : State) (u : State) (t : Time) (p : PortIx) (n : Note) (before : List Note) (rest : List Note), u = s.at t ∧ u.ports.length =
      4 ∧ (u.port p).mbx.notes = before ++ n :: rest ∧ (∀ x ∈ before, x.code ≠ 0x8010 ∨ t < x.arose + sec) ∧ n.code = 0x8010 ∧ n.arose +
      sec ≤ t) :=
  ⟨⟨witTr .active (fun q =>
     { q with mbx := { q.mbx with wait := [⟨1, 7, .fast, .ok, 0, [], 1, none⟩, ⟨1, 7, .immediate, .ok, 0, [], 1, none⟩] } }), _, _, 0, 0,
     ⟨1, 7, .immediate, .ok, 0, [], 1, none⟩, rfl, rfl, by decide +kernel⟩,
   ⟨witTr .active (fun q => { q with mbx := { q.mbx with notes := [⟨0x8001, 0, 0, [1], none⟩], rspFree := 1 } }), _, _, 0, 0, ⟨0x8001, 0,
     0, [1], none⟩, [], rfl, rfl, by decide +kernel⟩,
   ⟨witTr .active (fun q => { q with mbx := { q.mbx with wait := [⟨1, 7, .fast, .ok, 0, [], 1, none⟩], rspFree := 2 } }), _, _, 0, 0, ⟨1,
     7, .fast, .ok, 0, [], 1, none⟩, [], rfl, rfl, by decide +kernel⟩,
   ⟨witTr .active (fun q => { q with mbx := { q.mbx with wait := [⟨1, 7, .fast, .ok, 0, [], 1, none⟩] } }), _, _, 0, 0, ⟨1, 7, .fast,
     .ok, 0, [], 1, none⟩, [], rfl, rfl, by decide +kernel⟩,
   ⟨witTr .active (fun q =>
     { q with mbx := { q.mbx with sentCount := 2, consumed := 65535, ring := List.replicate 3 ⟨0, [], true, true, none⟩ } }), _, 0, 0,
     [1, 0, 2, 0, 0, 0, 0, 0], _, rfl, rfl, by decide +kernel⟩,
   ⟨witTr .active (fun q => { q with mbx := { q.mbx with sentCount := 2 } }), _, _, 0, _, 0, [1, 0, 3, 0, 0, 0, 0, 0], rfl,
     Prod.mk.eta.symm, by decide +kernel⟩,
   ⟨witTr .active (fun q => { q with mbx := { q.mbx with notes := [⟨0x8010, 0, 0, [], none⟩] } }), _, sec, 0, ⟨0x8010, 0, 0, [], none⟩,
     [], [], rfl, by decide +kernel⟩⟩

theorem test_SidebandServesOneCommand :
    (∃ (s : State) (u : State) (t : Time) (bytes : List Byte) (req : List Byte) (e : List Byte) (last : List Byte) (n : Nat) (k : Cls), u
      = s.at t ∧ req = bytes.take 1024 ++ u.sb.req.drop (min 1024 bytes.length) ∧ e = slice req 0 64 ∧ n = u8 e 7 ∧ last = slice req (64
      * (n - 1)) 64 ∧ serves u .sideband = true ∧ u.sb.busy = false ∧ u.sb.ready = false ∧ 1 ≤ n ∧ n ≤ 16 ∧ (∀ j : Nat, j < n →
      entryCrcOk (slice req (64 * j) 64) = true) ∧ sbChainOk req n = true ∧ opClass (u16 e 0) = some k ∧ u8 e 4 = k.code ∧ u16 e 2 ≠
      0xFFFF ∧ (n = 1 ∨ k ≠ .immediate) ∧ beyondLen last (48 * (n - 1)) = none) ∧
    (∃ (s : State) (u : State) (t : Time) (bytes : List Byte) (req : List Byte) (e : List Byte) (n : Nat), u = s.at t ∧ req = bytes.take
      1024 ++ u.sb.req.drop (min 1024 bytes.length) ∧ e = slice req 0 64 ∧ n = u8 e 7 ∧ serves u .sideband = true ∧ u.sb.busy = false ∧
      u.sb.ready = false ∧ (n = 0 ∨ 16 < n ∨ sbChainOk req n = false ∨ ∃ j : Nat, j < n ∧ entryCrcOk (slice req (64 * j) 64) = false)) ∧
    (∃ (s : State) (u : State) (t : Time), u = s.at t ∧ serves u .sideband = true ∧ (u.sb.busy = true ∨ u.sb.ready = true)) ∧
    (∃ (s : State) (u : State) (t : Time), u = s.at t ∧ serves u .sideband = true ∧ u.sb.ready = true) ∧
    (∃ (s : State) (u : State) (t : Time), u = s.at t ∧ serves u .sideband = true ∧ u.sb.ready = false) ∧
    (∃ (s : State) (u : State) (t : Time), u = s.at t ∧ serves u .sideband = true) ∧
    (∃ (u : State), u.sb.entries ≤ 16) ∧
    (∃ (s : State) (u : State) (t : Time) (ev : Byte), u = s.at t ∧ serves u .sideband = true ∧ u.sb.i3c = true ∧ bit ev.toNat 0 = true) ∧
    (∃ (s : State) (u : State) (t : Time) (ev : Byte), u = s.at t ∧ (u.sb.i3c = false ∨ bit ev.toNat 0 = false)) ∧
    (∃ (s : State) (u : State) (t : Time), u = s.at t ∧ serves u .sideband = true) ∧
    (∃ (s : State) (u : State) (t : Time), u = s.at t ∧ serves u .sideband = true ∧ u.sb.dynAddr = 0) ∧
    (∃ (s : State) (u : State) (t : Time), u = s.at t ∧ u.sb.dynAddr ≠ 0) ∧
    (∃ (s : State) (u : State) (t : Time), u = s.at t ∧ u.sb.i3c = false) ∧
    (∃ (s : State) (u : State) (t : Time), u = s.at t ∧ serves u .sideband = true ∧ u.sb.i3c = true ∧ u.sb.dynAddr ≠ 0) ∧
    (∃ (s : State) (u : State) (t : Time), u = s.at t ∧ serves u .sideband = true ∧ u.sb.i3c = true) ∧
    (∃ (s : State) (u : State) (t : Time), u = s.at t ∧ serves u .sideband = true ∧ u.sb.i3c = true) :=
  ⟨⟨wit, _, 0, wEntry 0x0002 1 0, _, _, _, _, .fast, rfl, rfl, rfl, rfl, rfl, by decide +kernel⟩,
   ⟨wit, _, 0, zeros 64, _, _, _, rfl, rfl, rfl, rfl, by decide +kernel⟩,
   ⟨witSb (fun b => { b with busy := true }), _, 0, rfl, by decide +kernel⟩,
   ⟨witSb (fun b => { b with ready := true, busy := true, cmdDone := true }), _, 0, rfl, by decide +kernel⟩,
   ⟨wit, _, 0, rfl, by decide +kernel⟩,
   ⟨wit, _, 0, rfl, by decide +kernel⟩,
   ⟨wit, by decide +kernel⟩,
   ⟨witSb (fun b => { b with i3c := true, dynAddr := 9 }), _, 0, 1, rfl, by decide +kernel⟩,
   ⟨wit, _, 0, 1, rfl, by decide +kernel⟩,
   ⟨witSb (fun b => { b with i3c := true, dynAddr := 9 }), _, 0, rfl, by decide +kernel⟩,
   ⟨wit, _, 0, rfl, by decide +kernel⟩,
   ⟨witSb (fun b => { b with i3c := true, dynAddr := 9 }), _, 0, rfl, by decide +kernel⟩,
   ⟨wit, _, 0, rfl, by decide +kernel⟩,
   ⟨witSb (fun b => { b with i3c := true, dynAddr := 9 }), _, 0, rfl, by decide +kernel⟩,
   ⟨witSb (fun b => { b with i3c := true, dynAddr := 9 }), _, 0, rfl, by decide +kernel⟩,
   ⟨witSb (fun b => { b with i3c := true, dynAddr := 9 }), _, 0, rfl, by decide +kernel⟩⟩

theorem test_SamplesAndTimersMoveTheLevels :
    (∃ (s : State) (u : State) (t : Time), u = s.at t ∧ (∀ a : Time, u.th.sampledAt = some a → a + samplePeriod u ≤ t) ∧ sampling u =
      true ∧ u.th.sensors.length = 16) ∧
    (∃ (s : State) (u : State) (t : Time) (a : Time), u = s.at t ∧ u.th.sampledAt = some a ∧ t < a + samplePeriod u) ∧
    (∃ (s : State) (u : State) (t : Time), u = s.at t ∧ sampling u = true ∧ leftLevel u t u.th.level < u.th.level) ∧
    (∃ (s : State) (u : State) (t : Time) (a : Time), u = s.at t ∧ sampling u = true ∧ u.th.level = 1 ∧ u.th.below.getD 0 none = some a ∧
      a + sec ≤ t) ∧
    (∃ (s : State) (u : State) (t : Time), u = s.at t ∧ sampling u = true ∧ u.th.squall = true ∧ u.th.squallAt + sec ≤ t) ∧
    (∃ (s : State) (u : State) (t : Time), u = s.at t ∧ u.th.fast = true ∧ u.pw.st ≠ .shutdown ∧ u.th.fastAt + sec ≤ t) ∧
    (∃ (s : State) (u : State) (t : Time) (e : Time), u = s.at t ∧ sampling u = true ∧ u.th.grace = some e ∧ e ≤ t ∧ (2 ≤ u.th.level ∨
      (u.th.squall = true ∧ 1 ≤ u.th.level))) ∧
    (∃ (s : State) (u : State) (t : Time) (e : Time), u = s.at t ∧ sampling u = true ∧ u.th.grace = some e ∧ e ≤ t ∧ (u.th.level = 0 ∨
      (u.th.level = 1 ∧ u.th.squall = false))) ∧
    (∃ (s : State) (u : State) (t : Time) (e : Time), u = s.at t ∧ sampling u = true ∧ u.th.down = some e ∧ e ≤ t) ∧
    (∃ (s : State) (u : State) (t : Time), u = s.at t ∧ 2 ≤ u.th.level ∧ u.th.fseq ≠ 0 ∧ u.th.sentAt + sec ≤ t) ∧
    (∃ (s : State) (u : State) (t : Time) (p : PortIx), u = s.at t ∧ u.ports.length = 4 ∧ 2 ≤ u.th.level ∧ u.th.fseq ≠ 0 ∧ u.th.sentAt +
      sec ≤ t ∧ u.th.acked.getD p.val 0 < u.th.fseq) :=
  ⟨⟨witTh (fun h => { h with sensors := h.sensors.map (fun x => { x with hotRun := [1, 1, 1, 1] }) }), _, 0, rfl, (fun _ h => nomatch h),
     by decide +kernel⟩,
   ⟨witTh (fun h => { h with sampledAt := some 0 }), _, ms, 0, rfl, by decide +kernel⟩,
   ⟨witTh (fun h => { h with level := 1, below := [some 0, none, none, none] }), _, sec, rfl, by decide +kernel⟩,
   ⟨witTh (fun h => { h with level := 1, below := [some 0, none, none, none] }), _, sec, 0, rfl, by decide +kernel⟩,
   ⟨witTh (fun h => { h with squall := true }), _, sec, rfl, by decide +kernel⟩,
   ⟨witTh (fun h => { h with fast := true }), _, sec, rfl, by decide +kernel⟩,
   ⟨witTh (fun h => { h with grace := some 0, level := 2, step := 3 }), _, 0, 0, rfl, by decide +kernel⟩,
   ⟨witTh (fun h => { h with grace := some 0 }), _, 0, 0, rfl, by decide +kernel⟩,
   ⟨witTh (fun h => { h with down := some 0, step := 1 }), _, 0, 0, rfl, by decide +kernel⟩,
   ⟨witTh (fun h => { h with level := 2, fseq := 1, acked := [1, 1, 1, 1] }), _, sec, rfl, by decide +kernel⟩,
   ⟨witTh (fun h => { h with level := 2, fseq := 1, last := [3] }), _, sec, 3, rfl, by decide +kernel⟩⟩

theorem test_ThermalCommandsAnswer :
    (∃ (s : State) (u : State) (c : Call), u = s.at c.start ∧ Ready u c 0x0600 ∧ c.payload = []) ∧
    (∃ (s : State) (u : State) (c : Call) (p : PortIx) (f : Nat), u = s.at c.start ∧ Ready u c 0x0601 ∧ c.src = .port p ∧ c.payload =
      leBytes 2 f ++ [0, 0] ∧ f < 2 ^ 16) ∧
    (∃ (s : State) (u : State) (s' : State) (t : Time) (p : PortIx), u = s.at t ∧ exec (.foghornRepeat t) s = .next s' ∧ u.ports.length =
      4 ∧ u.th.fseq ≤ u.th.acked.getD p.val 0) ∧
    (∃ (s : State) (u : State) (c : Call) (w : Nat) (th : Nat) (cr : Nat) (sh : Nat) (hy : Nat) (sq : Nat) (gr : Nat), u = s.at c.start ∧
      Ready u c 0x0604 ∧ needLeaseOrSafety u c lARRAY = none ∧ u.sec.untrusted = false ∧ c.payload = [byte w, byte th, byte cr, byte sh,
      byte hy, byte sq] ++ leBytes 2 gr ++ zeros 4 ∧ 85 ≤ w ∧ w ≤ 110 ∧ 95 ≤ th ∧ th ≤ 118 ∧ w + 2 ≤ th ∧ 105 ≤ cr ∧ cr ≤ 124 ∧ th + 2 ≤
      cr ∧ 110 ≤ sh ∧ sh ≤ 130 ∧ cr + 2 ≤ sh ∧ 1 ≤ hy ∧ hy ≤ 10 ∧ 10 ≤ sq ∧ sq ≤ 80 ∧ 100 ≤ gr ∧ gr ≤ 10000 ∧ storeWf u.regs = true) ∧
    (∃ (s : State) (u : State) (c : Call) (w : Nat) (th : Nat) (cr : Nat) (sh : Nat) (hy : Nat) (sq : Nat) (gr : Nat), u = s.at c.start ∧
      Ready u c 0x0604 ∧ needLeaseOrSafety u c lARRAY = none ∧ u.sec.untrusted = false ∧ c.payload = [byte w, byte th, byte cr, byte sh,
      byte hy, byte sq] ++ leBytes 2 gr ++ zeros 4 ∧ 85 ≤ w ∧ w ≤ 110 ∧ 95 ≤ th ∧ th ≤ 118 ∧ th < w + 2) ∧
    (∃ (s : State) (u : State) (c : Call), u = s.at c.start ∧ Ready u c 0x0604 ∧ c.payload.length = 12 ∧ u.sec.untrusted = true) :=
  ⟨⟨wit, _, wCall [], rfl, ready_of (by decide +kernel), by decide +kernel⟩,
   ⟨witTh (fun h => { h with fseq := 65536 }), _, wCall ([1, 0, 0, 0]), 0, 1, rfl, ready_of (by decide +kernel), by decide +kernel⟩,
   Exists.elim (next_of (o := exec (.foghornRepeat 0) (witTh (fun h => { h with fseq := 3, acked := [3, 3, 3, 3] })))
     (by decide +kernel)) (fun s2 h2 => ⟨witTh (fun h => { h with fseq := 3, acked := [3, 3, 3, 3] }), _, s2, 0, 0, rfl, h2,
     by decide +kernel⟩),
   ⟨wit, _, wCall ([85, 95, 105, 110, 1, 10] ++ leBytes 2 100 ++ zeros 4), 85, 95, 105, 110, 1, 10, 100, rfl, ready_of
     (by decide +kernel), by decide +kernel⟩,
   ⟨wit, _, wCall ([98, 99, 105, 110, 1, 10] ++ leBytes 2 100 ++ zeros 4), 98, 99, 105, 110, 1, 10, 100, rfl, ready_of
     (by decide +kernel), by decide +kernel⟩,
   ⟨{ wit with sec := { wit.sec with untrusted := true } }, _, wCall (zeros 12), rfl, ready_of (by decide +kernel), by decide +kernel⟩⟩

theorem test_TimerCommandsAct :
    (∃ (s : State) (u : State) (c : Call) (p : PortIx) (n : TmrIx), u = s.at c.start ∧ Ready u c 0x0700 ∧ HoldsLease u c p (lTMR n.val) ∧
      (actLinks (u32 c.payload 32) = true → HoldsLease u c p (lTMR (u8 c.payload 3))) ∧ u.pio.tmr.length = 16 ∧ c.payload.length = 48 ∧
      u8 c.payload 0 = n.val ∧ u8 c.payload 1 < 32 ∧ u8 c.payload 2 ≤ 5 ∧ u8 c.payload 3 < 16 ∧ 1 ≤ u16 c.payload 4 ∧ u8 c.payload 7 ≤ 2
      ∧ 1 ≤ u48 c.payload 8 ∧ reserved c.payload 14 2 = none ∧ reserved c.payload 22 2 = none ∧ reserved c.payload 30 2 = none ∧ actOk
      (u32 c.payload 32) = true ∧ (u8 c.payload 36 < 64 ∨ u8 c.payload 36 = 0xFF) ∧ bits (u8 c.payload 37) 3 0 ≤ 2 ∧ 1 ≤ bits (u8
      c.payload 37) 7 4 ∧ u8 c.payload 38 < 16 ∧ reserved c.payload 39 1 = none ∧ 1 ≤ u16 c.payload 40 ∧ u16 c.payload 40 ≤ 256 ∧
      reserved c.payload 42 6 = none ∧ ((u.tmr n.val).run = true → Nat.lor (tmrCtlOf c.payload) tmrSoftCtl = Nat.lor (u.reg (aTMR_CTL
      n.val)) tmrSoftCtl ∧ tmrPreOf c.payload = u.reg (aTMR_PRE n.val)) ∧ storeWf u.regs = true) ∧
    (∃ (s : State) (u : State) (c : Call) (m : Nat) (op : Nat) (any : List Byte), u = s.at c.start ∧ Ready u c 0x0702 ∧ (∀ k : Nat, k <
      16 → bit m k = true → ∃ p : PortIx, HoldsLease u c p (lTMR k)) ∧ u.pio.tmr.length = 16 ∧ m < 2 ^ 16 ∧ 1 ≤ op ∧ op ≤ 4 ∧ any.length
      = 8 ∧ c.payload = leBytes 2 m ++ [byte op, 0] ++ any) ∧
    (∃ (s : State) (u : State) (c : Call) (p : PortIx) (n : TmrIx), u = s.at c.start ∧ Ready u c 0x0702 ∧ HoldsLease u c p (lTMR n.val) ∧
      u.pio.tmr.length = 16 ∧ c.payload = leBytes 2 (2 ^ n.val) ++ [1, 0] ++ zeros 8 ∧ (u.tmr n.val).run = false ∧ (u.tmr n.val).stopCyc
      ≠ some (pioCycle c.start)) ∧
    (∃ (s : State) (u : State) (c : Call) (p : PortIx) (n : TmrIx), u = s.at c.start ∧ Ready u c 0x0702 ∧ HoldsLease u c p (lTMR n.val) ∧
      u.pio.tmr.length = 16 ∧ c.payload = leBytes 2 (2 ^ n.val) ++ [2, 0] ++ zeros 8) ∧
    (∃ (s : State) (u : State) (c : Call) (m : Nat) (op : Nat) (d : Nat), u = s.at c.start ∧ Ready u c 0x0702 ∧ (∀ k : Nat, k < 16 → bit
      m k = true → ∃ p : PortIx, HoldsLease u c p (lTMR k)) ∧ u.pio.tmr.length = 16 ∧ m < 2 ^ 16 ∧ 1 ≤ op ∧ op ≤ 4 ∧ d < 2 ^ 64 ∧ 20000 ≤
      (d + 2 ^ 64 - u.dtime c.stamp) % 2 ^ 64 ∧ (d + 2 ^ 64 - u.dtime c.stamp) % 2 ^ 64 ≤ 60000000000 ∧ c.payload = leBytes 2 m ++ [byte
      op, 1] ++ leBytes 8 d) ∧
    (∃ (s : State) (u : State) (t : Time) (n : TmrIx) (x : Nat × Nat), u = s.at t ∧ u.pio.tmr.length = 16 ∧ (u.tmr n.val).at_ = some x ∧
      atDue u t x = true) :=
  ⟨⟨wit, _, wCall ([15, 31, 5, 15] ++ leBytes 2 1 ++ [0, 2] ++ leBytes 6 1 ++ zeros 2 ++ leBytes 6 (2 ^ 48 - 1) ++ zeros 10 ++ leBytes 4
     3 ++ [63, 0x12, 15, 0] ++ leBytes 2 256 ++ zeros 6), 0, 15, rfl, ready_of (by decide +kernel), holds_of (by decide +kernel),
     (by unfold HoldsLease; decide +kernel), by decide +kernel⟩,
   ⟨wit, _, wCall (leBytes 2 0x8000 ++ [3, 0] ++ zeros 8), 0x8000, 3, zeros 8, rfl, ready_of (by decide +kernel),
     (by unfold HoldsLease; decide +kernel), by decide +kernel⟩,
   ⟨wit, _, wCall (leBytes 2 1 ++ [1, 0] ++ zeros 8), 0, 0, rfl, ready_of (by decide +kernel), holds_of (by decide +kernel),
     by decide +kernel⟩,
   ⟨wit, _, wCall (leBytes 2 1 ++ [2, 0] ++ zeros 8), 0, 0, rfl, ready_of (by decide +kernel), holds_of (by decide +kernel),
     by decide +kernel⟩,
   ⟨wit, _, wCall (leBytes 2 1 ++ [4, 1] ++ leBytes 8 20000), 1, 4, 20000, rfl, ready_of (by decide +kernel),
     (by unfold HoldsLease; decide +kernel), by decide +kernel⟩,
   ⟨witTmr (fun c => { c with at_ := some (0, 1) }), _, 0, 0, (0, 1), rfl, by decide +kernel⟩⟩

theorem test_TimerEventsCountAndCapture :
    (∃ (s : State) (u : State) (t : Time) (n : TmrIx), u = s.at t ∧ u.pio.tmr.length = 16 ∧ (u.tmr n.val).run = true ∧ tmrClear (u.tmr
      n.val) = true ∧ (tmrSrc u n.val ≤ 2 → (u.tmr n.val).last + tmrNeed u n.val ≤ srcIndex u (tmrSrc u n.val) t) ∧ (3 ≤ tmrSrc u n.val →
      0 < (u.tmr n.val).ticks)) ∧
    (∃ (s : State) (u : State) (t : Time) (n : TmrIx), u = s.at t ∧ u.pio.tmr.length = 16 ∧ u.pio.pe.length = 8 ∧ (u.tmr n.val).duePer =
      true ∧ (u.tmr n.val).dueCap = false ∧ (u.tmr n.val).dueM0 = false ∧ (u.tmr n.val).dueM1 = false) ∧
    (∃ (s : State) (u : State) (t : Time) (n : TmrIx) (second : Bool) (a : Nat), u = s.at t ∧ a = (if second then u.fld (aTMR_ACT n.val)
      14 10 else u.fld (aTMR_ACT n.val) 9 5) ∧ u.pio.tmr.length = 16 ∧ u.pio.pe.length = 8 ∧ (u.tmr n.val).dueCap = false ∧ (second =
      false → (u.tmr n.val).dueM0 = true) ∧ (second = true → (u.tmr n.val).dueM1 = true ∧ (u.tmr n.val).dueM0 = false)) ∧
    (∃ (s : State) (u : State) (t : Time) (n : TmrIx), u = s.at t ∧ u.pio.tmr.length = 16 ∧ (u.tmr n.val).dueZero = true ∧ (u.tmr
      n.val).dueCap = false ∧ (u.tmr n.val).dueM0 = false ∧ (u.tmr n.val).dueM1 = false) ∧
    (∃ (s : State) (u : State) (t : Time) (n : TmrIx) (level : Bool) (edge : Nat), u = s.at t ∧ edge = u.fld (aTMR_CAPCFG n.val) 1 0 ∧
      u.pio.tmr.length = 16 ∧ u.fld (aTMR_CAPCFG n.val) 31 24 < 64 ∧ (u.tmr n.val).level ≠ level) ∧
    (∃ (s : State) (u : State) (t : Time) (n : TmrIx), u = s.at t ∧ u.pio.tmr.length = 16 ∧ u.pio.pe.length = 8 ∧ (u.tmr n.val).dueCap =
      true) ∧
    (∃ (s : State), s.pio.tmr.length = 16) ∧
    (∃ (s : State) (u : State) (t : Time) (n : TmrIx), u = s.at t ∧ u.pio.tmr.length = 16 ∧ (u.tmr n.val).capCyc ≠ some (pioCycle t)) ∧
    (∃ (s : State) (u : State) (t : Time) (n : TmrIx), u = s.at t ∧ u.pio.tmr.length = 16 ∧ (u.tmr n.val).capCyc = some (pioCycle t)) ∧
    (∃ (s : State) (u : State) (c : Call) (n : TmrIx), u = s.at c.start ∧ Ready u c 0x0010 ∧ c.payload = leBytes 4 (aTMR_CAP_HI n.val) ++
      [1, 0, 0, 0]) ∧
    (∃ (s : State) (u : State) (t : Time), u = s.at t ∧ u.pio.tmr.length = 16) ∧
    (∃ (s : State) (u : State) (c : Call) (n : TmrIx) (a : Nat), u = s.at c.start ∧ Ready u c 0x0010 ∧ u.pio.tmr.length = 16 ∧ (a =
      aTMR_COUNT_LO n.val ∨ a = aTMR_COUNT_HI n.val) ∧ c.payload = leBytes 4 a ++ [1, 0, 0, 0]) ∧
    (∃ (s : State) (u : State) (c : Call) (m : Nat), u = s.at c.start ∧ Ready u c 0x0701 ∧ c.payload = leBytes 2 m ++ [0, 0] ∧ m < 2 ^
      16) ∧
    (∃ (s : State) (u : State) (t : Time) (e : Time) (pin : Fin 64), u = s.at t ∧ (pin.val, e) ∈ u.pio.fsync ∧ e ≤ t) ∧
    (∃ (s : State) (u : State) (t : Time), u = s.at t) :=
  ⟨⟨witTmr (fun c => { c with run := true, per := 5, count := 5 }), _, 100, 0, rfl, by decide +kernel⟩,
   ⟨{ witTmr (fun c => { c with run := true, duePer := true, shPer := some 9, count := 3 }) with regs := [(aTMR_CTL 0, 2)] }, _, 0, 0,
     rfl, by decide +kernel⟩,
   ⟨{ witTmr (fun c => { c with dueM0 := true }) with regs := [(aTMR_ACT 0, 3 * 32)] }, _, 0, 0, false, _, rfl, rfl, by decide +kernel⟩,
   ⟨witTmr (fun c => { c with dueZero := true }), _, 0, 0, rfl, by decide +kernel⟩,
   ⟨{ witTmr (fun c => { c with edges := 1 }) with regs := [(aTMR_CAPCFG 0, 65536)] }, _, 0, 0, true, _, rfl, rfl, by decide +kernel⟩,
   ⟨witTmr (fun c => { c with dueCap := true, capVal := 7, fresh := true }), _, 0, 0, rfl, by decide +kernel⟩,
   ⟨witTmr (fun c => { c with fresh := true, cap := 5 }), by decide +kernel⟩,
   ⟨witTmr (fun c => { c with fresh := true, cap := 2 ^ 32 + 5 }), _, 0, 0, rfl, by decide +kernel⟩,
   ⟨witTmr (fun c => { c with fresh := true, prevCap := 4, capCyc := some 0 }), _, 0, 0, rfl, by decide +kernel⟩,
   ⟨witTmr (fun c => { c with capCopy := 2 ^ 40 }), _, wCall (leBytes 4 (aTMR_CAP_HI 0) ++ [1, 0, 0, 0]), 0, rfl, ready_of
     (by decide +kernel), by decide +kernel⟩,
   ⟨witTmr (fun c => { c with run := true, count := 9 }), _, 0, rfl, by decide +kernel⟩,
   ⟨witTmr (fun c => { c with count := 2 ^ 33 + 9 }), _, wCall (leBytes 4 (aTMR_COUNT_HI 0) ++ [1, 0, 0, 0]), 0, aTMR_COUNT_HI 0, rfl,
     ready_of (by decide +kernel), by decide +kernel⟩,
   ⟨witTmr (fun c => { c with run := true, count := 9 }), _, wCall ([255, 255, 0, 0]), 65535, rfl, ready_of (by decide +kernel),
     by decide +kernel⟩,
   ⟨{ wit with pio := { wit.pio with fsync := [(63, 0)] } }, _, 0, 0, 63, rfl, by decide +kernel⟩,
   ⟨wit, _, 0, rfl⟩⟩

theorem test_PioDataInstructions :
    (∃ (s : State) (u : State) (t : Time) (e : EngIx) (w : Nat), u = s.at t ∧ w = peWord u e.val ∧ u.pio.pe.length = 8 ∧ peRuns 0 e.val t
      u = true) ∧
    (∃ (s : State) (u : State) (t : Time) (e : EngIx) (w : Nat) (n : Nat), u = s.at t ∧ w = peWord u e.val ∧ n = bits w 5 0 ∧
      u.pio.pe.length = 8 ∧ peRuns 1 e.val t u = true) ∧
    (∃ (s : State) (u : State) (t : Time) (e : EngIx) (w : Nat) (n : Nat), u = s.at t ∧ w = peWord u e.val ∧ n = bits w 5 0 ∧
      u.pio.pe.length = 8 ∧ peRuns 1 e.val t u = true ∧ bit w 8 = true ∧ bit w 9 = false ∧ bit w 10 = false) ∧
    (∃ (s : State) (u : State) (t : Time) (e : EngIx) (w : Nat) (n : Nat) (i : Nat), u = s.at t ∧ w = peWord u e.val ∧ n = bits w 5 0 ∧
      u.pio.pe.length = 8 ∧ peRuns 1 e.val t u = true ∧ bit w 8 = false ∧ bit w 9 = true ∧ bit w 10 = false ∧ serPin u e.val 4 = some i ∧
      serPin u e.val 8 ≠ some i ∧ pinDriven u (8 * e.val + i) = none ∧ (u.pe e.val).rc = 0) ∧
    (∃ (s : State) (u : State) (t : Time) (e : EngIx) (x : BitVec 32) (r : List (BitVec 32)), u = s.at t ∧ u.pio.pe.length = 8 ∧ peRuns 2
      e.val t u = true ∧ (u.pe e.val).txq = x :: r) ∧
    (∃ (s : State) (u : State) (t : Time) (e : EngIx), u = s.at t ∧ u.pio.pe.length = 8 ∧ peRuns 2 e.val t u = true ∧ (u.pe e.val).txq =
      [] ∧ bit (peWord u e.val) 8 = true) ∧
    (∃ (s : State) (u : State) (t : Time) (e : EngIx), u = s.at t ∧ u.pio.pe.length = 8 ∧ peRuns 2 e.val t u = true ∧ (u.pe e.val).txq =
      [] ∧ bit (peWord u e.val) 8 = false) ∧
    (∃ (s : State) (u : State) (t : Time) (e : EngIx), u = s.at t ∧ u.pio.pe.length = 8 ∧ peRuns 3 e.val t u = true ∧ rxFull u e.val =
      true ∧ bit (peWord u e.val) 8 = true) ∧
    (∃ (s : State) (u : State) (t : Time) (e : EngIx), u = s.at t ∧ u.pio.pe.length = 8 ∧ peRuns 3 e.val t u = true ∧ rxFull u e.val =
      false) ∧
    (∃ (s : State) (u : State) (t : Time) (e : EngIx), u = s.at t ∧ u.pio.pe.length = 8 ∧ peRuns 3 e.val t u = true ∧ rxFull u e.val =
      true ∧ bit (peWord u e.val) 8 = false) ∧
    (∃ (s : State) (u : State) (t : Time) (e : EngIx) (pins : Byte) (w : Nat) (x : BitVec 32) (v : BitVec 32), u = s.at t ∧ w = peWord u
      e.val ∧ x = peSource (u.pe e.val) (pinsSeen u e.val pins) (bits w 7 4) ∧ v =
      (match bits w 3 0 with | 0 => x | 1 =>    x | _ => byteSwap x) ∧ u.pio.pe.length = 8 ∧ peRuns 4 e.val t u = true) ∧
    (∃ (s : State) (u : State) (t : Time) (e : EngIx) (w : Nat) (old : BitVec 32) (new : BitVec 32) (other : BitVec 32), u = s.at t ∧ w =
      peWord u e.val ∧ old = (if bit w 16 then (u.pe e.val).w1 else (u.pe e.val).w0) ∧ other = (if bit w 16 then (u.pe e.val).w0 else
      (u.pe e.val).w1) ∧ new = (if bit w 17 then BitVec.ofNat 32 (bits w 15 0 * 65536 + old.toNat % 65536) else BitVec.ofNat 32
      (old.toNat / 65536 * 65536 + bits w 15 0)) ∧ u.pio.pe.length = 8 ∧ peRuns 5 e.val t u = true) :=
  ⟨⟨witPe 0x0F00AA55 (fun p => p), _, 0, 0, _, rfl, rfl, by decide +kernel⟩,
   ⟨witPe 0x10000120 (fun p => { p with txr := 0xFFFFFFFF, tc := 32 }), _, 0, 0, _, _, rfl, rfl, rfl, by decide +kernel⟩,
   ⟨witPe 0x10000120 (fun p => { p with txr := 0xFFFFFFFF, tc := 32 }), _, 0, 0, _, _, rfl, rfl, rfl, by decide +kernel⟩,
   ⟨{ witPe 0 (fun p => p) with regs := [(aPIO_IMEM 0 0, 0x10000201), (aPIO_SER 0, 0x80)] }, _, 0, 0, _, _, 0, rfl, rfl, rfl,
     by decide +kernel⟩,
   ⟨witPe 0x20000000 (fun p => { p with txq := [5] }), _, 0, 0, 5, [], rfl, by decide +kernel⟩,
   ⟨witPe 0x20000100 (fun p => p), _, 0, 0, rfl, by decide +kernel⟩,
   ⟨witPe 0x20000000 (fun p => p), _, 0, 0, rfl, by decide +kernel⟩,
   ⟨witPe 0x30000100 (fun p => { p with rxq := List.replicate 32 (0, 0, 0) }), _, 0, 0, rfl, by decide +kernel⟩,
   ⟨witPe 0x30000000 (fun p => { p with rxr := 9 }), _, 0, 0, rfl, by decide +kernel⟩,
   ⟨witPe 0x30000000 (fun p => { p with rxq := List.replicate 32 (0, 0, 0) }), _, 0, 0, rfl, by decide +kernel⟩,
   ⟨witPe 0x40000232 (fun p => { p with w1 := 0x01020304, w0 := 1 }), _, 0, 0, 3, _, _, _, rfl, rfl, rfl, rfl, by decide +kernel⟩,
   ⟨witPe 0x5002FFFF (fun p => p), _, 0, 0, _, _, _, _, rfl, rfl, rfl, rfl, rfl, by decide +kernel⟩⟩

theorem test_PioControlInstructions :
    (∃ (s : State) (u : State) (t : Time) (e : EngIx) (w : Nat), u = s.at t ∧ w = peWord u e.val ∧ u.pio.pe.length = 8 ∧ peRuns 6 e.val t
      u = true) ∧
    (∃ (s : State) (u : State) (t : Time) (e : EngIx) (pins : Byte) (w : Nat) (holds : Bool), u = s.at t ∧ w = peWord u e.val ∧ holds =
      (match bits w 11 8 with | 0 => (pinsSeen u e.val pins).getLsbD (bits w 2 0) | 1 => !(pinsSeen u e.val pins).getLsbD (bits w 2 0) | 5 => !(u.pe e.val).txq.isEmpty | 6 => !rxFull u e.val | _ => false)
      ∧ u.pio.pe.length = 8 ∧ peRuns 7 e.val t u = true) ∧
    (∃ (s : State) (u : State) (t : Time) (e : EngIx) (w : Nat), u = s.at t ∧ w = peWord u e.val ∧ u.pio.pe.length = 8 ∧ peRuns 8 e.val t
      u = true) ∧
    (∃ (s : State) (u : State) (t : Time) (e : EngIx), u = s.at t ∧ u.pio.pe.length = 8 ∧ u.ports.length = 4 ∧ peRuns 9 e.val t u = true) ∧
    (∃ (s : State) (u : State) (t : Time) (e : EngIx), u = s.at t ∧ peRuns 10 e.val t u = true) ∧
    (∃ (s : State) (u : State) (t : Time) (e : EngIx), u = s.at t ∧ u.pio.pe.length = 8 ∧ peReady u e.val t = true ∧ peIllegal u e.val =
      true) ∧
    (∃ (s : State) (u : State) (t : Time) (e : EngIx) (pins : Byte) (edge : Bool), u = s.at t ∧ u.pio.pe.length = 8 ∧ (u.pe e.val).st =
      .stalled ∧ stallOver u e.val pins edge = true) ∧
    (∃ (s : State) (u : State) (t : Time) (f : Time) (e : EngIx), u = s.at t ∧ u.pio.pe.length = 8 ∧ (u.pe e.val).st = .stalled ∧ peOp
      (peWord u e.val) = 7 ∧ 0 < u.fld (aPIO_TMO e.val) 15 0 ∧ (u.pe e.val).waitFrom = some f ∧ f + u.fld (aPIO_TMO e.val) 15 0 * us ≤ t) :=
  ⟨⟨witPe 0x6001FFFF (fun p => p), _, 0, 0, _, rfl, rfl, by decide +kernel⟩,
   ⟨witPe 0x70000007 (fun p => p), _, 0, 0, 0x80, _, _, rfl, rfl, rfl, by decide +kernel⟩,
   ⟨witPe 0x8000003F (fun p => p), _, 0, 0, _, rfl, rfl, by decide +kernel⟩,
   ⟨witPe 0x90000000 (fun p => { p with buf := [1] }), _, 0, 0, rfl, by decide +kernel⟩,
   ⟨witPe 0xA0000000 (fun p => { p with w0 := 4, tc := 3 }), _, 0, 0, rfl, by decide +kernel⟩,
   ⟨witPe 0xB0000000 (fun p => p), _, 0, 0, rfl, by decide +kernel⟩,
   ⟨witPe 0x20000100 (fun p => { p with st := .stalled, txq := [5] }), _, 0, 0, 0, false, rfl, by decide +kernel⟩,
   ⟨{ witPe 0 (fun p => { p with st := .stalled, waitFrom := some 0 }) with regs := [(aPIO_IMEM 0 0, 0x70000000), (aPIO_TMO 0, 1)] }, _,
     us, 0, 0, rfl, by decide +kernel⟩⟩

theorem test_PioCommandsAndPackets :
    (∃ (s : State) (u : State) (c : Call) (p : PortIx) (e : EngIx) (a : Nat) (n : Nat) (flags : List Byte), u = s.at c.start ∧ Ready u c
      0x0710 ∧ HoldsLease u c p (lPE e.val) ∧ u.pio.pe.length = 8 ∧ u.pio.initDir.length = 8 ∧ u.pio.initVal.length = 8 ∧
      c.payload.length = 20 + 4 * n ∧ c.payload.take 4 = [byte e.val, byte a, byte n] ++ flags ∧ (flags = [0] ∨ flags = [1]) ∧ a + n ≤ 64
      ∧ a < 64 ∧ u16 c.payload 8 < 4096 ∧ u8 c.payload 10 < 64 ∧ u8 c.payload 11 = 0 ∧ (flags = [1] → 1 ≤ u16 c.payload 4 ∧ u8 c.payload
      7 ≤ 32 ∧ 1 ≤ u16 c.payload 16 ∧ u16 c.payload 16 ≤ 256 ∧ 1 ≤ u16 c.payload 18) ∧ (u.pe e.val).st = .stopped ∧ storeWf u.regs =
      true) ∧
    (∃ (s : State) (u : State) (c : Call) (p : PortIx) (m : Nat) (f : Nat) (pcs : List Byte), u = s.at c.start ∧ Ready u c 0x0711 ∧ (∀ k
      : Nat, k < 8 → bit m k = true → HoldsLease u c p (lPE k) ∧ (u.pe k).st = .stopped) ∧ u.pio.pe.length = 8 ∧ c.src = .port p ∧ m <
      256 ∧ f ≤ 1 ∧ c.payload = [byte m, byte f, 0, 0] ++ pcs ∧ pcs.length = 8 ∧ (∀ b ∈ pcs, b.toNat < 64)) ∧
    (∃ (s : State) (u : State) (c : Call) (m : Nat) (f : Nat), u = s.at c.start ∧ Ready u c 0x0712 ∧ (∀ k : Nat, k < 8 → bit m k = true →
      ∃ p : PortIx, HoldsLease u c p (lPE k)) ∧ u.pio.pe.length = 8 ∧ m < 256 ∧ f ≤ 1 ∧ c.payload = [byte m, byte f, 0, 0]) ∧
    (∃ (s : State) (u : State) (c : Call) (p : PortIx) (e : EngIx) (f : Nat) (ws : List (BitVec 32)), u = s.at c.start ∧ Ready u c 0x0713
      ∧ HoldsLease u c p (lPE e.val) ∧ u.pio.pe.length = 8 ∧ f ≤ 1 ∧ 1 ≤ ws.length ∧ ws.length ≤ 191 ∧ c.payload = [byte e.val, byte f]
      ++ leBytes 2 ws.length ++ ws.flatMap (fun w => leBytes 4 w.toNat) ∧ peDepth u e.val ≠ 0 ∧ (f = 1 → ws.length ≤ peDepth u e.val -
      (u.pe e.val).txq.length)) ∧
    (∃ (s : State) (u : State) (c : Call) (pins : List (Fin 64 × Byte × Byte)), u = s.at c.start ∧ Ready u c 0x0714 ∧ (∀ x ∈ pins, ∃ p :
      PortIx, HoldsLease u c p (lPE (x.1.val / 8))) ∧ (∀ x ∈ pins, bits x.2.1.toNat 5 4 ≠ 3 ∧ pinArgOk x.2.1.toNat x.2.2.toNat = true) ∧
      1 ≤ pins.length ∧ (pins.map (fun x => x.1)).Nodup ∧ c.payload = [byte pins.length, 0, 0, 0] ++ pins.flatMap (fun x => [byte
      x.1.val, x.2.1, x.2.2, 0])) ∧
    (∃ (s : State) (u : State) (t : Time) (e : EngIx) (x : BitVec 32 × Time × Nat) (r : List (BitVec 32 × Time × Nat)), u = s.at t ∧
      u.pio.pe.length = 8 ∧ (u.pe e.val).rxq = x :: r ∧ (u.pe e.val).buf.length < 256 ∧ (u.pe e.val).movedAt ≠ some (pioCycle t)) ∧
    (∃ (s : State) (u : State) (t : Time) (e : EngIx), u = s.at t ∧ u.pio.pe.length = 8 ∧ u.ports.length = 4 ∧ (u.pe e.val).buf ≠ [] ∧
      (u.fld (aPIO_PKT e.val) 8 0 ≤ (u.pe e.val).buf.length ∨ (u.pe e.val).flush = true) ∧ pioCanLeave u e.val = true) ∧
    (∃ (s : State) (u : State) (t : Time) (b : Time) (e : EngIx), u = s.at t ∧ u.pio.pe.length = 8 ∧ u.ports.length = 4 ∧ (u.pe
      e.val).buf ≠ [] ∧ (u.pe e.val).bufAt = some b ∧ b + u.fld (aPIO_PKT e.val) 31 16 * us ≤ t ∧ pioCanLeave u e.val = true) :=
  ⟨⟨wit, _, wCall ([7, 63, 1, 0] ++ zeros 16 ++ leBytes 4 (2 ^ 32 - 1)), 0, 7, 63, 1, [0], rfl, ready_of (by decide +kernel), holds_of
     (by decide +kernel), by decide +kernel⟩,
   ⟨wit, _, wCall ([0x81, 1, 0, 0] ++ List.replicate 8 63), 0, 0x81, 1, List.replicate 8 63, rfl, ready_of (by decide +kernel),
     (by unfold HoldsLease; decide +kernel), by decide +kernel⟩,
   ⟨witPe 0x70000000 (fun p => { p with w0 := 3, txq := [4] }), _, wCall ([1, 0, 0, 0]), 1, 0, rfl, ready_of (by decide +kernel),
     (by unfold HoldsLease; decide +kernel), by decide +kernel⟩,
   ⟨witPe 0 (fun p => p), _, wCall ([0, 1, 1, 0, 6, 0, 0, 0]), 0, 0, 1, [6], rfl, ready_of (by decide +kernel), holds_of
     (by decide +kernel), by decide +kernel⟩,
   ⟨wit, _, wCall ([1, 0, 0, 0, 63, 0xCD, 0, 0]), [(63, 0xCD, 0)], rfl, ready_of (by decide +kernel), (List.forall_mem_singleton.mpr ⟨0,
     holds_of (by decide +kernel)⟩), (List.forall_mem_singleton.mpr (by decide +kernel)), by decide +kernel⟩,
   ⟨witPe 0 (fun p => { p with rxq := [(5, 0, 0)] }), _, 0, 0, (5, 0, 0), [], rfl, by decide +kernel⟩,
   ⟨witPe 0 (fun p => { p with buf := List.replicate 256 1 }), _, 0, 0, rfl, by decide +kernel⟩,
   ⟨{ witPe 0 (fun p => { p with buf := [1], bufAt := some 0 }) with ports := List.replicate 4 Port.reset }, _, sec, 0, 0, rfl,
     by decide +kernel⟩⟩

theorem test_OtpWordCodeCorrectsOneBit :
    (∃ (d : Nat), d < 2 ^ 32) ∧
    (∃ (d : Nat) (j : Nat), d < 2 ^ 32 ∧ j < 6) ∧
    (∃ (d : Nat), d < 2 ^ 32) ∧
    (∃ (d : Nat) (p : Nat), d < 2 ^ 32 ∧ p < 39) ∧
    (∃ (d : Nat) (p : Nat) (q : Nat), d < 2 ^ 32 ∧ p < q ∧ q < 39) :=
  ⟨⟨0xFFFFFFFF, by decide +kernel⟩,
   ⟨0xFFFFFFFF, 5, by decide +kernel⟩,
   ⟨0xFFFFFFFF, by decide +kernel⟩,
   ⟨0xFFFFFFFF, 38, by decide +kernel⟩,
   ⟨0xFFFFFFFF, 0, 38, by decide +kernel⟩⟩

theorem test_AuthenticationUsesANonce :
    (∃ (s : State) (u : State) (c : Call) (p : PortIx) (slot : Nat) (gen : Nat) (key : List Byte), u = s.at c.start ∧ Ready u c 0x0900 ∧
      c.src = .port p ∧ c.payload = [byte slot, 0, 0, 0] ∧ (slot ≤ 3 ∨ slot = 0xFF) ∧ keyShut u slot = false ∧ keyOf u slot = some (key,
      gen) ∧ u.sec.nonces.length = 4) ∧
    (∃ (s : State) (u : State) (c : Call) (p : PortIx) (slot : Nat) (gen : Nat) (key : List Byte) (n : Nonce), u = s.at c.start ∧ Ready u
      c 0x0901 ∧ c.payload = [byte slot, 0, 0, 0] ++ cmac key (authMsg u n.bytes p.val slot gen 1) ∧ (∀ a : Time, u.sec.failAt.getD p.val
      none = some a → a + 100 * ms ≤ c.start) ∧ c.src = .port p ∧ (cmac key (authMsg u n.bytes p.val slot gen 1)).length = 16 ∧ slot ≤ 3
      ∧ keyShut u slot = false ∧ keyOf u slot = some (key, gen) ∧ liveNonce u p slot c.start = some n ∧ u.sec.nonces.length = 4 ∧
      u.sec.auth.length = 4) ∧
    (∃ (s : State) (u : State) (c : Call) (p : PortIx) (slot : Nat) (gen : Nat) (key : List Byte) (n : Nonce), u = s.at c.start ∧ Ready u
      c 0x0901 ∧ (∀ a : Time, u.sec.failAt.getD p.val none = some a → a + 100 * ms ≤ c.start) ∧ c.src = .port p ∧ c.payload.length = 20 ∧
      u8 c.payload 0 = slot ∧ reserved c.payload 1 3 = none ∧ cmac key (authMsg u n.bytes p.val slot gen 1) ≠ slice c.payload 4 16 ∧ slot
      ≤ 3 ∧ keyShut u slot = false ∧ keyOf u slot = some (key, gen) ∧ liveNonce u p slot c.start = some n ∧ u.sec.nonces.length = 4 ∧
      u.sec.failAt.length = 4) ∧
    (∃ (s : State) (u : State) (t : Time) (p : PortIx) (n : Nonce), u = s.at t ∧ u.sec.nonces.getD p.val none = some n ∧ n.issued + sec ≤
      t) ∧
    (∃ (s : State) (u : State) (c : Call) (p : PortIx) (v : ViewIx) (slot : Nat) (gen : Nat) (en : Nat) (key : List Byte) (tk : Option
      (List Byte)), u = s.at c.start ∧ Ready u c 0x0902 ∧ tk = (if en = 1 then some (tagKey u key v.val slot gen) else none) ∧ c.src =
      .port p ∧ c.payload = [byte v.val, byte en, byte slot, 0] ∧ en ≤ 1 ∧ slot ≤ 3 ∧ (u.view v.val).st ≠ .free ∧ (u.view v.val).owner =
      p ∧ keyShut u slot = false ∧ portAuth u p = some (slot, gen) ∧ keyOf u slot = some (key, gen)) :=
  ⟨⟨witSec id, _, wCall ([0, 0, 0, 0]), 0, 0, 0, zeros 32, rfl, ready_of (by decide +kernel), by decide +kernel⟩,
   ⟨witSec (fun h => { h with nonces := [some ⟨0, zeros 16, 0⟩, none, none, none] }), _, wCall ([0, 0, 0, 0] ++ cmac (zeros 32) (authMsg
     (witSec id) (zeros 16) 0 0 0 1)), 0, 0, 0, zeros 32, ⟨0, zeros 16, 0⟩, rfl, ready_of (by decide +kernel), rfl, (fun _ h => nomatch
     h), by decide +kernel⟩,
   ⟨witSec (fun h => { h with nonces := [some ⟨0, zeros 16, 0⟩, none, none, none], authFails := 14 }), _, wCall (zeros 20), 0, 0, 0,
     zeros 32, ⟨0, zeros 16, 0⟩, rfl, ready_of (by decide +kernel), (fun _ h => nomatch h), by decide +kernel⟩,
   ⟨witSec (fun h => { h with nonces := [some ⟨0, zeros 16, 0⟩, none, none, none] }), _, sec, 0, ⟨0, zeros 16, 0⟩, rfl,
     by decide +kernel⟩,
   ⟨{ witSec (fun h => { h with auth := [some (0, 0), none, none, none] }) with pipe := { wit.pipe with views := { wView with st := .running } :: wit.pipe.views.drop 1 } },
     _, wCall ([0, 1, 0, 0]), 0, 0, 0, 0, 1, zeros 32, _, rfl, ready_of (by decide +kernel), rfl, by decide +kernel⟩⟩

theorem test_OtpWordsAreQueuedAndStored :
    (∃ (s : State) (u : State) (c : Call) (a : Nat) (n : Nat), u = s.at c.start ∧ Ready u c 0x0910 ∧ c.payload = leBytes 2 a ++ leBytes 2
      n ∧ 1 ≤ n ∧ n ≤ 144 ∧ a + n ≤ 0x4000 ∧ (0x0840 ≤ a ∨ a + n ≤ 0x0200)) ∧
    (∃ (s : State) (u : State) (c : Call) (a : Nat) (n : Nat), u = s.at c.start ∧ Ready u c 0x0910 ∧ c.payload = leBytes 2 a ++ leBytes 2
      n ∧ 1 ≤ n ∧ n ≤ 144 ∧ a < 0x0840 ∧ 0x0200 < a + n) ∧
    (∃ (s : State) (u : State) (c : Call) (a : Nat) (n : Nat) (r : Nat) (k : Nat), u = s.at c.start ∧ ProgramReady u c ∧ a = u16
      c.payload 4 ∧ n = u16 c.payload 6 ∧ u8 c.payload 0 = 0 ∧ regionOf a = some (r, k, false)) ∧
    (∃ (s : State) (u : State) (c : Call) (slot : Nat) (i : Nat), u = s.at c.start ∧ ProgramReady u c ∧ slot = u8 c.payload 1 ∧ u8
      c.payload 0 = 1 ∧ u8 c.payload 3 = 0 ∧ freePlace 8 (fun i => groupUsed u 3 (288 + 128 * slot + 16 * i) 16) = some i) ∧
    (∃ (s : State) (u : State) (c : Call) (slot : Nat) (i : Nat) (gen : Nat) (r : Role) (k : List Byte), u = s.at c.start ∧ ProgramReady
      u c ∧ slot = u8 c.payload 1 ∧ u8 c.payload 0 = 1 ∧ u8 c.payload 3 = 1 ∧ freePlace 8 (fun i => groupUsed u 3 (288 + 128 * slot + 16
      * i) 16) = some i ∧ slotInst u slot = some (gen, r, k)) ∧
    (∃ (s : State) (u : State) (c : Call) (slot : Nat) (i : Nat), u = s.at c.start ∧ ProgramReady u c ∧ slot = u8 c.payload 1 ∧ u8
      c.payload 0 = 2 ∧ freePlace 4 (fun i => groupUsed u 2 (16 + 16 * slot + 4 * i) 4) = some i) ∧
    (∃ (s : State) (u : State) (c : Call), u = s.at c.start ∧ ProgramReady u c ∧ u8 c.payload 0 = 3) ∧
    (∃ (s : State) (u : State) (c : Call) (r : Nat) (good : Bool), u = s.at c.start ∧ ReadySlow u c 0x0912 ∧ good = (strictCrcOk u
      (regionSpan r).1 r && (match (regionSpan r).2.2 with | some b => strictCrcOk u b r | none => true)) ∧ c.payload = [byte r, 0, 0, 0]
      ∧ r ≤ 8 ∧ r ≠ 1 ∧ lockAllowed u c r = true ∧ u.sec.lockStands = false ∧ mayStart u = none) ∧
    (∃ (s : State) (u : State) (c : Call) (p : PortIx) (target : Nat), u = s.at c.start ∧ ReadySlow u c 0x0913 ∧ c.src = .port p ∧
      c.payload = byte target :: zeros 19 ∧ target = u.sec.life.code + 1 ∧ 1 ≤ target ∧ target ≤ 3 ∧ moveAllowed u c target = true ∧
      u.sec.lockStands = false ∧ mayStart u = none ∧ blankWord u (0x0040 + target) = true ∧ (target = 2 → provisionReady u = true)) ∧
    (∃ (s : State) (u : State) (c : Call) (p : PortIx), u = s.at c.start ∧ ReadySlow u c 0x0913 ∧ c.src = .port p ∧ c.payload = 2 ::
      zeros 19 ∧ u.sec.life = .manufacture ∧ moveAllowed u c 2 = true ∧ u.sec.lockStands = false ∧ mayStart u = none ∧ blankWord u 0x0042
      = true ∧ provisionReady u = false) ∧
    (∃ (s : State) (u : State) (c : Call) (p : PortIx) (mac : List Byte) (key : List Byte) (n : Nonce), u = s.at c.start ∧ ReadySlow u c
      0x0913 ∧ c.src = .port p ∧ c.payload = [4, 0, 0, 0] ++ mac ∧ mac.length = 16 ∧ u.sec.life = .field ∧ moveAllowed u c 4 = true ∧
      u.sec.lockStands = false ∧ mayStart u = none ∧ blankWord u 0x0044 = true ∧ liveNonce u p 0xFF c.start = some n ∧ u.sec.vendor =
      some key ∧ u.sec.nonces.length = 4) ∧
    (∃ (s : State) (u : State) (t : Time), u = s.at t ∧ u.sec.rollback < u.sec.stepsTo ∧ otpWindow u = true ∧ (∀ j ∈ u.otp.jobs, j.what ≠
      .rollback)) ∧
    (∃ (s : State) (u : State) (t : Time) (what : OtpWhat) (a : Nat) (d : Nat) (w : Nat) (ws : List (Nat × Nat)) (rest : List OtpJob), u
      = s.at t ∧ u.otp.jobs = ⟨what, (a, d) :: ws, w⟩ :: rest ∧ u.pw.refLost = false ∧ u.otp.stopDusk = none ∧ u.pw.st ≠ .off ∧ u.pw.st ≠
      .dusk ∧ u.pw.st ≠ .buoy) ∧
    (∃ (s : State) (u : State) (t : Time) (d : Time) (norm : BitVec 39) (strict : BitVec 39) (vio : Bool) (vcore : Bool) (uj : Nat), u =
      s.at t ∧ s.clk.now ≤ t ∧ u.otp.jobs ≠ [] ∧ u.pw.refLost = false ∧ u.otp.stopDusk = some (d, vio, vcore, uj) ∧ t < d + 10 * ms ∧
      (u.pw.st = .standby ∨ u.pw.st = .active) ∧ inDawn u d = false ∧ duskOk (wordDone u norm.toNat strict.toNat t) = true) :=
  ⟨⟨{ wit with otp := { wit.otp with cells := [wCell 0x0840 5] } }, _, wCall (leBytes 2 0x0840 ++ leBytes 2 144), 0x0840, 144, rfl,
     ready_of (by decide +kernel), by decide +kernel⟩,
   ⟨wit, _, wCall (leBytes 2 0x0200 ++ leBytes 2 1), 0x0200, 1, rfl, ready_of (by decide +kernel), by decide +kernel⟩,
   ⟨{ wit with sec := { wit.sec with life := .manufacture } }, _, wCall ([0, 0, 0, 0] ++ leBytes 2 0x0080 ++ leBytes 2 1 ++ leBytes 4 7),
     _, _, 2, 0, rfl, programReady_of (by decide +kernel), rfl, rfl, by decide +kernel⟩,
   ⟨{ wit with sec := { wit.sec with life := .manufacture, pufOk := true } }, _, wCall (1 :: zeros 39), _, 0, rfl, programReady_of
     (by decide +kernel), rfl, by decide +kernel⟩,
   ⟨witSec (fun h => { h with pufOk := true }), _, wCall ([1, 0, 0, 1] ++ zeros 44), _, 0, 0, .safety, zeros 32, rfl, programReady_of
     (by decide +kernel), rfl, by decide +kernel⟩,
   ⟨{ wit with sec := { wit.sec with life := .manufacture } }, _, wCall ([2, 0, 0, 0] ++ zeros 4 ++ leBytes 4 1), _, 0, rfl,
     programReady_of (by decide +kernel), rfl, by decide +kernel⟩,
   ⟨{ wit with sec := { wit.sec with life := .manufacture } }, _, wCall (3 :: zeros 39), rfl, programReady_of (by decide +kernel),
     by decide +kernel⟩,
   ⟨{ { wit with sec := { wit.sec with life := .manufacture } } with otp := { wit.otp with cells := [wCell 0x0840 5, wCell 0x0841 (wordsCrc [5])] } },
     _, wCall ([4, 0, 0, 0]), 4, _, rfl, readySlow_of (by decide +kernel), rfl, by decide +kernel⟩,
   ⟨{ wit with sec := { wit.sec with life := .blank } }, _, wCall (1 :: zeros 19), 0, 1, rfl, readySlow_of (by decide +kernel),
     by decide +kernel⟩,
   ⟨{ wit with sec := { wit.sec with life := .manufacture } }, _, wCall (2 :: zeros 19), 0, rfl, readySlow_of (by decide +kernel),
     by decide +kernel⟩,
   ⟨witSec (fun h => { h with life := .field, vendor := some (zeros 32), nonces := [some ⟨0xFF, zeros 16, 0⟩, none, none, none] }), _,
     wCall (4 :: zeros 19), 0, zeros 16, zeros 32, ⟨0xFF, zeros 16, 0⟩, rfl, readySlow_of (by decide +kernel), by decide +kernel⟩,
   ⟨witSec (fun h => { h with stepsTo := 3 }), _, 0, rfl, by decide +kernel⟩,
   ⟨{ wit with otp := { wit.otp with jobs := [⟨.rollback, [(0x0842, 0x53560001)], 0⟩] } }, _, 0, .rollback, 0x0842, 0x53560001, 0, [],
     [], rfl, by decide +kernel⟩,
   ⟨{ wit with otp := { wit.otp with jobs := [⟨.rollback, [(0x0842, 0x53560001)], 0⟩], stopDusk := some (0, true, false, 0) }, hold := { wit.hold with srcClass := 1, ocv := 800 } },
     _, ms, 0, 5, 1, true, false, 0, rfl, by decide +kernel⟩⟩

theorem test_FirmwareAndAlarmsAct :
    (∃ (s : State) (u : State) (c : Call) (f : Nat), u = s.at c.start ∧ ReadySlow u c 0x0920 ∧ (∀ l : FwLoad, loadNow u c.start = some l
      → l.src = c.src) ∧ c.payload.length = 136 ∧ f ≤ 1 ∧ c.payload.take 4 = [0, byte f, 0, 0] ∧ headerOk (c.payload.drop 8) = true ∧
      loadAllowed u c = true ∧ u.sec.lockStands = false ∧ (u.pw.st = .standby ∨ u.pw.st = .active)) ∧
    (∃ (s : State) (u : State) (c : Call) (l : FwLoad) (off : Nat) (data : List Byte), u = s.at c.start ∧ ReadySlow u c 0x0920 ∧
      c.payload = [1, 0, 0, 0] ++ leBytes 4 off ++ data ∧ 16 ≤ data.length ∧ data.length ≤ 752 ∧ data.length % 16 = 0 ∧ off < 2 ^ 32 ∧
      off + data.length ≤ l.length ∧ loadAllowed u c = true ∧ u.sec.lockStands = false ∧ (u.pw.st = .standby ∨ u.pw.st = .active) ∧
      loadNow u c.start = some l ∧ l.src = c.src) ∧
    (∃ (s : State) (u : State) (c : Call) (l : FwLoad), u = s.at c.start ∧ ReadySlow u c 0x0920 ∧ c.payload = [2, 0, 0, 0, 0, 0, 0, 0] ∧
      loadAllowed u c = true ∧ u.sec.lockStands = false ∧ (u.pw.st = .standby ∨ u.pw.st = .active) ∧ loadNow u c.start = some l ∧ l.src =
      c.src) ∧
    (∃ (s : State) (u : State) (c : Call) (l : FwLoad), u = s.at c.start ∧ ReadySlow u c 0x0920 ∧ c.payload = [3, 0, 0, 0, 0, 0, 0, 0] ∧
      loadAllowed u c = true ∧ u.sec.lockStands = false ∧ (u.pw.st = .standby ∨ u.pw.st = .active) ∧ loadNow u c.start = some l ∧ l.src =
      c.src) ∧
    (∃ (s : State) (u : State) (t : Time) (l : FwLoad), u = s.at t ∧ u.sec.load = some l ∧ l.last + 10 * sec ≤ t) ∧
    (∃ (s : State) (u : State) (t : Time) (h : Handover), u = s.at t ∧ u.sec.handover = some h) ∧
    (∃ (s : State) (u : State) (t : Time) (b : Nat) (i : Instr), u = s.at t ∧ (i, b) ∈ [(Instr.encNAlarm t, 0), (.shieldCheck t true, 1),
      (.vglitch t, 2)] ∧ u.pw.st ≠ .off ∧ u.pw.st ≠ .buoy ∧ bit u.sec.fired b = false) ∧
    (∃ (s : State) (u : State) (t : Time) (b : Nat) (i : Instr), u = s.at t ∧ (i, b) ∈ [(Instr.encNAlarm t, 0), (.shieldCheck t true, 1),
      (.vglitch t, 2)] ∧ u.pw.st ≠ .off ∧ u.pw.st ≠ .buoy ∧ bit u.sec.fired b = true) ∧
    (∃ (s : State) (u : State) (t : Time), u = s.at t) ∧
    (∃ (s : State) (u : State) (t : Time), u = s.at t ∧ u.pw.st = .off) ∧
    (∃ (s : State) (u : State) (t : Time) (b : Nat) (i : Instr), u = s.at t ∧ (i, b) ∈ [(Instr.encNAlarm t, 0), (.shieldCheck t true, 1)]
      ∧ u.pw.st = .buoy) :=
  ⟨⟨wit, _, wCall (zeros 8 ++ wHdr), 0, rfl, readySlow_of (by decide +kernel), (fun _ h => nomatch h), by decide +kernel⟩,
   ⟨witSec (fun h => { h with load := some ⟨.port 0, wHdr, [], 16, false, 0⟩ }), _, wCall (1 :: zeros 23), ⟨.port 0, wHdr, [], 16, false,
     0⟩, 0, zeros 16, rfl, readySlow_of (by decide +kernel), by decide +kernel⟩,
   ⟨witSec (fun h => { h with load := some wLoad }), _, wCall (2 :: zeros 7), wLoad, rfl, readySlow_of (by decide +kernel),
     by decide +kernel⟩,
   ⟨witSec (fun h => { h with load := some wLoad }), _, wCall (3 :: zeros 7), wLoad, rfl, readySlow_of (by decide +kernel),
     by decide +kernel⟩,
   ⟨witSec (fun h => { h with load := some wLoad }), _, 10 * sec, wLoad, rfl, by decide +kernel⟩,
   ⟨witSec (fun h => { h with handover := some ⟨.port 0, 7, 5, 1, false, 0, [3]⟩ }), _, 0, ⟨.port 0, 7, 5, 1, false, 0, [3]⟩, rfl,
     by decide +kernel⟩,
   ⟨witSec (fun h => { h with alarmPol := 4 }), _, 0, 0, .encNAlarm 0, rfl, List.mem_cons_self, by decide +kernel⟩,
   ⟨witSec (fun h => { h with fired := 1 }), _, 0, 0, .encNAlarm 0, rfl, List.mem_cons_self, by decide +kernel⟩,
   ⟨wit, _, 0, rfl⟩,
   ⟨{ wit with pw := { wit.pw with st := .off } }, _, 0, rfl, by decide +kernel⟩,
   ⟨{ wit with pw := { wit.pw with st := .buoy } }, _, 0, 0, .encNAlarm 0, rfl, List.mem_cons_self, by decide +kernel⟩⟩

theorem test_EveryStepKeepsMemoryCanonical :
    ∃ (s : State) (s' : State), step s = .next s' ∧ Memory.wf s.fm = true :=
  Exists.elim (next_of (o := step { wit with pending := [.pumpsSettled 0] }) (by decide +kernel)) (fun s2 h2 =>
    ⟨{ wit with pending := [.pumpsSettled 0] }, s2, h2, by decide +kernel⟩)

theorem test_EveryStepKeepsTheRegisterStore :
    ∃ (s : State) (s' : State), step s = .next s' ∧ storeWf s.regs = true :=
  Exists.elim (next_of (o := step { wit with pending := [.pumpsSettled 0] }) (by decide +kernel)) (fun s2 h2 =>
    ⟨{ wit with pending := [.pumpsSettled 0] }, s2, h2, by decide +kernel⟩)

theorem test_EveryStepKeepsTheShape :
    ∃ (s : State) (s' : State), step s = .next s' ∧ shapeWf s = true :=
  Exists.elim (next_of (o := step { wit with pending := [.pumpsSettled 0] }) (by decide +kernel)) (fun s2 h2 =>
    ⟨{ wit with pending := [.pumpsSettled 0] }, s2, h2, by decide +kernel⟩)

theorem test_ControlCommandsKeepTheRest :
    ∃ (i : Instr) (s : State) (s' : State), exec i s = .next s' ∧ (family i = .control ∨ family i = .power ∨ family i = .mailbox) :=
  Exists.elim (next_of (o := exec (.pumpsSettled 0) wit) (by decide +kernel)) (fun s2 h2 => ⟨.pumpsSettled 0, wit, s2, h2,
    by decide +kernel⟩)

theorem test_ImagingCommandsKeepTheRest :
    ∃ (i : Instr) (s : State) (s' : State), exec i s = .next s' ∧ (family i = .array ∨ family i = .view ∨ family i = .aux) :=
  Exists.elim (next_of (o := exec (.arrayArm 0) wit) (by decide +kernel)) (fun s2 h2 => ⟨.arrayArm 0, wit, s2, h2, by decide +kernel⟩)

theorem test_MemoryAndLinkCommandsKeepTheRest :
    ∃ (i : Instr) (s : State) (s' : State), exec i s = .next s' ∧ (family i = .memory ∨ family i = .retention ∨ family i = .link) :=
  Exists.elim (next_of (o := exec (.linkTestEnd 0 ⟨0, 0, 0⟩) wit) (by decide +kernel)) (fun s2 h2 => ⟨.linkTestEnd 0 ⟨0, 0, 0⟩, wit, s2,
    h2, by decide +kernel⟩)

theorem test_ThermalTimerPioSecurityCommandsKeepTheRest :
    ∃ (i : Instr) (s : State) (s' : State), exec i s = .next s' ∧ (family i = .thermal ∨ family i = .timer ∨ family i = .pio ∨ family i =
      .security) :=
  Exists.elim (next_of (o := exec (.foghornRepeat 0) wit) (by decide +kernel)) (fun s2 h2 => ⟨.foghornRepeat 0, wit, s2, h2,
    by decide +kernel⟩)

end Sys2Proof.Machine
end

section
/-! The refutation of O55. `shapeWf` counts the tiles of the staged, the active and the pending set, and says nothing of the sets that `Undo` keeps
while a frame is latched and not started. A COMMIT_SETTINGS stamped before that frame's ELP undoes the latch (R15, R75) and makes the kept set active
again, whatever it holds. -/

namespace Sys2Proof.Machine

/-- A step goes on, to a state of which `p` holds. -/
def goesOnTo (o : Out) (p : State → Bool) : Bool :=
  match o with
  | .next s => p s
  | _ => false

theorem exists_next_of_goesOnTo {o : Out} {p : State → Bool} (h : goesOnTo o p = true) : ∃ s, o = .next s ∧ p s = true := by
  cases o with
  | next s => exact ⟨s, rfl, h⟩
  | fault r => cases h
  | refused r => cases h

theorem active_tiles_length_of_shapeWf {s : State} (h : shapeWf s = true) : s.arr.active.tiles.length = 192 := by
  simp only [shapeWf, Bool.and_eq_true, beq_iff_eq] at h
  simp only [h]

/-- A frame with the settings of reset, latched for an ELP at 5 ns, that has not started. -/
def lateFrame : Frame :=
  { num := 0, id := 0, set := Settings.reset, en := List.replicate 192 true, elp := 10, fs := 10, fsD := 5, is0 := 10, tread := 0, per := 0
    draws0 := [], draws1 := [], resync := false, cfg := EngCfg.reset, spillAt := 0, spillRow := 0, lsc := 0, norm := [], next := 0, endAt := none
    spill := 0, stats := [], chan := [[], [], [], []], lost := [], spillRaised := [], hold := [], rampBad := [], takers := [], cal := []
    temps := [] }

/-- What the latch of `lateFrame` replaced: an active set without tiles, and nothing else out of the ordinary. -/
def untiledUndo : Undo :=
  { active := { Settings.reset with tiles := [] }, pend := none, engPend := [], engAct := EngCfg.reset, lscAct := 0, norm := [], spillBase := none
    spillPend := none, gone := [], gov := ArrayS.reset.gov, anchor := none, relock := false, lfsr := 0, tg := none, armed := false, trigAt := []
    ignored := 0, actId := 0, alpha0 := [], elpT := [] }

/-- A device in STANDBY and MANUFACTURE whose HP0 holds every lease, with `lateFrame` latched over `untiledUndo`. HP0's COMMIT_SETTINGS, stamped at 0
and so before the ELP, waits. -/
def untiledState : State := { State.reset with
  pending := [.commitSettings ⟨.port 0, 7, [0, 0, 0, 0], 0, 0, []⟩]
  leases := List.replicate 30 ⟨some 0, none, 0⟩
  pw := { Power.reset with st := .standby }
  sec := { Sec.reset with life := .manufacture }
  arr := { ArrayS.reset with undo := some untiledUndo, seq := { ArrayS.reset.seq with latched := some lateFrame } } }

theorem untiledState_shapeWf : shapeWf untiledState = true := by decide +kernel

/-- The commit takes effect and leaves the device with the active set that the latch had replaced. -/
theorem untiledState_step : goesOnTo (step untiledState) (fun s => decide (s.arr.active = untiledUndo.active)) = true := by decide +kernel

/-- Refutes O55: COMMIT_SETTINGS undoes the latch of `lateFrame` and makes the set of `untiledUndo` active, which has no tile where the device has
192. -/
theorem not_everyStepKeepsTheShape : ¬ Obligations.EveryStepKeepsTheShape := by
  unfold Obligations.EveryStepKeepsTheShape
  intro keeps
  obtain ⟨s', hstep, hactive⟩ := exists_next_of_goesOnTo untiledState_step
  have htiles : s'.arr.active.tiles.length = 192 := active_tiles_length_of_shapeWf (keeps _ s' untiledState_shapeWf hstep)
  rw [of_decide_eq_true hactive] at htiles
  exact absurd htiles (by decide)

end Sys2Proof.Machine
end

section
/-! The queue of commands: what a step does with a command at its front, and on an empty queue (R24). -/

namespace Sys2Proof.Machine

theorem step_of_front {s : State} {i : Instr} {rest : List Instr} (h : s.pending = i :: rest) :
    step s = exec i { s with pending := rest } := by
  rw [step, h]

theorem step_of_idle {s : State} (h : s.pending = []) : step s = .next (checkBooks s) := by
  rw [step, h]

/-- Balanced books raise nothing. -/
theorem checkBooks_of_balanced {s : State} (h : brokenPools s = []) : checkBooks s = s := by
  rw [checkBooks, h, List.foldl_nil]

/-- Settles O1, from what `step` does on either form of the queue. -/
theorem stepTakesFrontCommand : Obligations.StepTakesFrontCommand := by
  unfold Obligations.StepTakesFrontCommand
  refine ⟨fun s i rest h => step_of_front h, fun s h => ⟨step_of_idle h, fun hb => ?_⟩⟩
  rw [step_of_idle h, checkBooks_of_balanced hb]

end Sys2Proof.Machine
end

section
/-! What each operation of the model leaves alone. `Within L s s'` says that a state differs from another in the parts `L` at most, with the same
queue of commands and at the same instant. The rule of an operation is stated as a rewriting of `Within L s₀`, so that a chain of operations peels off
from the outside, one operation at a time. -/

namespace Sys2Proof.Machine

/-- The parts outside `L` and the queue of commands are the same, and so is the instant. -/
def Within (L : List Part) (s s' : State) : Prop := Keeps L s s' ∧ s'.clk.now = s.clk.now

theorem Part.same_refl (a : Part) (s : State) : a.same s s := by cases a <;> rfl

theorem Part.same_symm {a : Part} {s s' : State} (h : a.same s s') : a.same s' s := by cases a <;> exact Eq.symm h

theorem Part.same_trans {a : Part} {s s' s'' : State} (h : a.same s s') (h' : a.same s' s'') : a.same s s'' := by
  cases a <;> exact Eq.trans h' h

variable {L : List Part} {s₀ s : State}

@[simp] theorem within_self : Within L s s := ⟨⟨rfl, fun a _ => a.same_refl s⟩, rfl⟩

theorem Within.symm {s' : State} (h : Within L s s') : Within L s' s := by
  obtain ⟨⟨hp, hk⟩, hn⟩ := h
  exact ⟨⟨hp.symm, fun a ha => Part.same_symm (hk a ha)⟩, hn.symm⟩

theorem Within.trans {s' s'' : State} (h : Within L s s') (h' : Within L s' s'') : Within L s s'' := by
  obtain ⟨⟨hp, hk⟩, hn⟩ := h
  obtain ⟨⟨hp', hk'⟩, hn'⟩ := h'
  exact ⟨⟨hp'.trans hp, fun a ha => Part.same_trans (hk a ha) (hk' a ha)⟩, hn'.trans hn⟩

/-- An operation that stays within `L` may be left out of a chain. -/
theorem Within.iff {s' : State} (h : Within L s s') : Within L s₀ s' ↔ Within L s₀ s :=
  ⟨fun h' => h'.trans h.symm, fun h' => h'.trans h⟩

/-- An update of the record stays within `L` where each part that is not in `L` is the old one. -/
@[simp] theorem within_record {clk free regs log leases leaseLog lastArrayHolder arrayLapsed ports sb fwq slow misses diag pw rs otp sec arr pipe aux
      mem fm ring hold th pio}
    (hnow : clk.now = s.clk.now) (hclk : clk = s.clk ∨ .clk ∈ L) (hfree : free = s.free ∨ .free ∈ L) (hregs : regs = s.regs ∨ .regs ∈ L)
    (hlog : log = s.log ∨ .log ∈ L) (hleases : leases = s.leases ∨ .leases ∈ L) (hleaseLog : leaseLog = s.leaseLog ∨ .leaseLog ∈ L)
    (hlast : lastArrayHolder = s.lastArrayHolder ∨ .lastArrayHolder ∈ L) (hlapsed : arrayLapsed = s.arrayLapsed ∨ .arrayLapsed ∈ L)
    (hports : ports = s.ports ∨ .ports ∈ L) (hsb : sb = s.sb ∨ .sb ∈ L) (hfwq : fwq = s.fwq ∨ .fwq ∈ L) (hslow : slow = s.slow ∨ .slow ∈ L)
    (hmisses : misses = s.misses ∨ .misses ∈ L) (hdiag : diag = s.diag ∨ .diag ∈ L) (hpw : pw = s.pw ∨ .pw ∈ L) (hrs : rs = s.rs ∨ .rs ∈ L)
    (hotp : otp = s.otp ∨ .otp ∈ L) (hsec : sec = s.sec ∨ .sec ∈ L) (harr : arr = s.arr ∨ .arr ∈ L) (hpipe : pipe = s.pipe ∨ .pipe ∈ L)
    (haux : aux = s.aux ∨ .aux ∈ L) (hmem : mem = s.mem ∨ .mem ∈ L) (hfm : fm = s.fm ∨ .fm ∈ L) (hring : ring = s.ring ∨ .ring ∈ L)
    (hhold : hold = s.hold ∨ .hold ∈ L) (hth : th = s.th ∨ .th ∈ L) (hpio : pio = s.pio ∨ .pio ∈ L) :
    Within L s₀ ⟨s.pending, clk, free, regs, log, leases, leaseLog, lastArrayHolder, arrayLapsed, ports, sb, fwq, slow, misses, diag, pw, rs, otp,
        sec,
      arr, pipe, aux, mem, fm, ring, hold, th, pio⟩ ↔ Within L s₀ s := by
  refine Within.iff ⟨⟨rfl, fun a ha => ?_⟩, hnow⟩
  cases a with
  | clk => exact hclk.resolve_right ha
  | free => exact hfree.resolve_right ha
  | regs => exact hregs.resolve_right ha
  | log => exact hlog.resolve_right ha
  | leases => exact hleases.resolve_right ha
  | leaseLog => exact hleaseLog.resolve_right ha
  | lastArrayHolder => exact hlast.resolve_right ha
  | arrayLapsed => exact hlapsed.resolve_right ha
  | ports => exact hports.resolve_right ha
  | sb => exact hsb.resolve_right ha
  | fwq => exact hfwq.resolve_right ha
  | slow => exact hslow.resolve_right ha
  | misses => exact hmisses.resolve_right ha
  | diag => exact hdiag.resolve_right ha
  | pw => exact hpw.resolve_right ha
  | rs => exact hrs.resolve_right ha
  | otp => exact hotp.resolve_right ha
  | sec => exact hsec.resolve_right ha
  | arr => exact harr.resolve_right ha
  | pipe => exact hpipe.resolve_right ha
  | aux => exact haux.resolve_right ha
  | mem => exact hmem.resolve_right ha
  | fm => exact hfm.resolve_right ha
  | ring => exact hring.resolve_right ha
  | hold => exact hhold.resolve_right ha
  | th => exact hth.resolve_right ha
  | pio => exact hpio.resolve_right ha

@[simp] theorem within_ite {c : Prop} [Decidable c] {a b : State} :
    Within L s₀ (if c then a else b) ↔ if c then Within L s₀ a else Within L s₀ b := by
  split <;> rfl

/-- A fold whose step stays within `L` does so. -/
@[simp] theorem within_foldl {α : Type} {f : State → α → State} {l : List α} (hf : ∀ r x, Within L s₀ (f r x) ↔ Within L s₀ r) :
    Within L s₀ (l.foldl f s) ↔ Within L s₀ s := by
  induction l generalizing s with
  | nil => rfl
  | cons a l ih => rw [List.foldl_cons, ih, hf]

/-- Both branches stay within `L`. -/
theorem within_either {c : Prop} [Decidable c] {a b : State} (ha : Within L s₀ a ↔ Within L s₀ s) (hb : Within L s₀ b ↔ Within L s₀ s) :
    Within L s₀ (if c then a else b) ↔ Within L s₀ s := by
  split
  · exact ha
  · exact hb

@[simp] theorem duskAdvance_within (h : .ports ∈ L ∧ .pw ∈ L) : Within L s₀ (duskAdvance s) ↔ Within L s₀ s := by
  simp [duskAdvance, h]

@[simp] theorem memAdvance_within (h : .mem ∈ L) : Within L s₀ (memAdvance s) ↔ Within L s₀ s := by
  unfold memAdvance
  split <;> simp [h]

@[simp] theorem bootAdvance_within (h : .pw ∈ L) : Within L s₀ (bootAdvance s) ↔ Within L s₀ s := by
  simp [bootAdvance, h]

@[simp] theorem setDtime_within (h : .clk ∈ L) (t : Time) (d : Nat) (slew : Int) (synced : Bool) :
    Within L s₀ (setDtime s t d slew synced) ↔ Within L s₀ s := by
  simp [setDtime, h]

@[simp] theorem drawFree_within (h : .free ∈ L) : Within L s₀ (drawFree s).2 ↔ Within L s₀ s := by
  simp [drawFree, h]

@[simp] theorem State.setReg_within (h : .regs ∈ L) (a v : Nat) : Within L s₀ (State.setReg s a v) ↔ Within L s₀ s := by
  simp [State.setReg, h]

@[simp] theorem State.setFld_within (h : .regs ∈ L) (a hi lo v : Nat) : Within L s₀ (State.setFld s a hi lo v) ↔ Within L s₀ s := by
  simp [State.setFld, h]

@[simp] theorem State.bump_within (h : .regs ∈ L) (a hi lo n : Nat) : Within L s₀ (State.bump s a hi lo n) ↔ Within L s₀ s := by
  simp [State.bump, h]

@[simp] theorem State.bumpWrap_within (h : .regs ∈ L) (a hi lo n : Nat) : Within L s₀ (State.bumpWrap s a hi lo n) ↔ Within L s₀ s := by
  simp [State.bumpWrap, h]

@[simp] theorem State.modPort_within (h : .ports ∈ L) (p : PortIx) (f : Port → Port) : Within L s₀ (State.modPort s p f) ↔ Within L s₀ s := by
  simp [State.modPort, h]

@[simp] theorem State.modMbx_within (h : .ports ∈ L) (p : PortIx) (f : Mbx → Mbx) : Within L s₀ (State.modMbx s p f) ↔ Within L s₀ s := by
  simp [State.modMbx, h]

@[simp] theorem State.modTr_within (h : .ports ∈ L) (p : PortIx) (f : Train → Train) : Within L s₀ (State.modTr s p f) ↔ Within L s₀ s := by
  simp [State.modTr, h]

@[simp] theorem State.modPhy_within (h : .ports ∈ L) (p : PortIx) (f : Phy → Phy) : Within L s₀ (State.modPhy s p f) ↔ Within L s₀ s := by
  simp [State.modPhy, h]

@[simp] theorem State.modRel_within (h : .ports ∈ L) (p : PortIx) (f : Rel → Rel) : Within L s₀ (State.modRel s p f) ↔ Within L s₀ s := by
  simp [State.modRel, h]

@[simp] theorem notifyDue_within (h : .regs ∈ L ∧ .ports ∈ L) (p : PortIx) (code : Nat) (payload : List Byte) (t : Time) (due : Option Time) :
    Within L s₀ (notifyDue s p code payload t due) ↔ Within L s₀ s := by
  simp [notifyDue, h]

@[simp] theorem notify_within (h : .regs ∈ L ∧ .ports ∈ L) (p : PortIx) (code : Nat) (payload : List Byte) (t : Time) :
    Within L s₀ (notify s p code payload t) ↔ Within L s₀ s := by
  simp [notify, h]

@[simp] theorem notifyAll_within (h : .regs ∈ L ∧ .ports ∈ L) (code : Nat) (payload : List Byte) (t : Time) :
    Within L s₀ (notifyAll s code payload t) ↔ Within L s₀ s := by
  simp [notifyAll, h]

@[simp] theorem notifyFault_within (h : .regs ∈ L ∧ .ports ∈ L) (e : FaultEntry) (event : Nat) (t : Time) :
    Within L s₀ (notifyFault s e event t) ↔ Within L s₀ s := by
  simp [notifyFault, h]

@[simp] theorem logNew_within (h : .regs ∈ L ∧ .log ∈ L ∧ .ports ∈ L) (e : FaultEntry) (t : Time) :
    Within L s₀ (logNew s e t) ↔ Within L s₀ s := by
  simp [logNew, h]

@[simp] theorem occurCls_within (h : .regs ∈ L ∧ .log ∈ L ∧ .ports ∈ L) (code inst : Nat) (cls : AlarmCls) (stand : Bool) (t : Time) :
    Within L s₀ (occurCls s code inst cls stand t) ↔ Within L s₀ s := by
  unfold occurCls
  split <;> simp [h]

@[simp] theorem raise_within (h : .regs ∈ L ∧ .log ∈ L ∧ .ports ∈ L) (code inst : Nat) (t : Time) :
    Within L s₀ (raise s code inst t) ↔ Within L s₀ s := by
  simp [raise, h]

@[simp] theorem stand_within (h : .regs ∈ L ∧ .log ∈ L ∧ .ports ∈ L) (code inst : Nat) (t : Time) :
    Within L s₀ (stand s code inst t) ↔ Within L s₀ s := by
  unfold stand
  split <;> simp [h]

@[simp] theorem unstand_within (h : .regs ∈ L ∧ .log ∈ L ∧ .ports ∈ L) (code inst : Nat) (t : Time) :
    Within L s₀ (unstand s code inst t) ↔ Within L s₀ s := by
  unfold unstand
  split <;> simp [h]

@[simp] theorem raiseBooks_within (h : .regs ∈ L ∧ .log ∈ L ∧ .ports ∈ L) (quantity unit : Nat) (t : Time) :
    Within L s₀ (raiseBooks s quantity unit t) ↔ Within L s₀ s := by
  simp [raiseBooks, h]

@[simp] theorem notifyLease_within (h : .regs ∈ L ∧ .ports ∈ L) (b event : Nat) (holder prev : Option PortIx) (t : Time) :
    Within L s₀ (notifyLease s b event holder prev t) ↔ Within L s₀ s := by
  simp [notifyLease, h]

@[simp] theorem dropLease_within (h : .regs ∈ L ∧ .leases ∈ L ∧ .leaseLog ∈ L ∧ .arrayLapsed ∈ L ∧ .ports ∈ L) (b event : Nat) (t : Time) :
    Within L s₀ (dropLease s b event t) ↔ Within L s₀ s := by
  unfold dropLease
  split <;> simp [h]

@[simp] theorem sbShow_within (h : .sb ∈ L) (entries : List (List Byte)) (last : Bool) (t : Time) :
    Within L s₀ (sbShow s entries last t) ↔ Within L s₀ s := by
  simp [sbShow, h]

@[simp] theorem excusePort_within (h : .ports ∈ L ∧ .fwq ∈ L ∧ .slow ∈ L) (p : PortIx) : Within L s₀ (excusePort s p) ↔ Within L s₀ s := by
  simp [excusePort, h]

@[simp] theorem respond_within (h : .ports ∈ L ∧ .sb ∈ L ∧ .fwq ∈ L)
    (c : Call) (opcode : Nat) (cls : Cls) (st : Status) (detail : Nat) (payload : List Byte) :
    Within L s₀ (respond s c opcode cls st detail payload) ↔ Within L s₀ s := by
  unfold respond
  split <;> simp [h]

@[simp] theorem complete_within (h : .regs ∈ L ∧ .ports ∈ L ∧ .sb ∈ L ∧ .slow ∈ L)
    (src : Src) (opcode : Nat) (tag : BitVec 16) (st : Status) (result : List Byte) (t : Time) :
    Within L s₀ (complete s src opcode tag st result t) ↔ Within L s₀ s := by
  unfold complete
  split <;> simp [h]

@[simp] theorem okWith_within (h : .ports ∈ L ∧ .sb ∈ L ∧ .fwq ∈ L) (c : Call) (opcode : Nat) (cls : Cls) (payload : List Byte) :
    Within L s₀ (okWith s c opcode cls payload) ↔ Within L s₀ s := by
  simp [okWith, h]

@[simp] theorem accept_within (h : .ports ∈ L ∧ .sb ∈ L ∧ .fwq ∈ L ∧ .slow ∈ L) (c : Call) (opcode span data : Nat) :
    Within L s₀ (accept s c opcode span data) ↔ Within L s₀ s := by
  unfold accept
  split <;> simp [h]

@[simp] theorem State.modPll_within (h : .pw ∈ L) (n : Nat) (f : Pll → Pll) : Within L s₀ (State.modPll s n f) ↔ Within L s₀ s := by
  simp [State.modPll, h]

@[simp] theorem pllAttempt_within (h : .regs ∈ L ∧ .log ∈ L ∧ .ports ∈ L ∧ .pw ∈ L) (n : Nat) (st : PllSt) (t : Time) :
    Within L s₀ (pllAttempt s n st t) ↔ Within L s₀ s := by
  simp only [pllAttempt]
  split <;> simp [h]

@[simp] theorem pllStart_within (h : .regs ∈ L ∧ .log ∈ L ∧ .ports ∈ L ∧ .pw ∈ L) (n : Nat) (t : Time) :
    Within L s₀ (pllStart s n t) ↔ Within L s₀ s := by
  simp [pllStart, h]

@[simp] theorem pllLocked_within (h : .regs ∈ L ∧ .pw ∈ L) (n : Nat) (t : Time) : Within L s₀ (pllLocked s n t) ↔ Within L s₀ s := by
  simp [pllLocked, h]

@[simp] theorem pllAttemptFailed_within (h : .regs ∈ L ∧ .log ∈ L ∧ .ports ∈ L ∧ .pw ∈ L) (n : Nat) (t : Time) :
    Within L s₀ (pllAttemptFailed s n t) ↔ Within L s₀ s := by
  simp [pllAttemptFailed, h]

@[simp] theorem fmWrite_within (h : .mem ∈ L ∧ .fm ∈ L) (a : Nat) (bs : List Byte) : Within L s₀ (fmWrite s a bs) ↔ Within L s₀ s := by
  simp [fmWrite, h]

@[simp] theorem loseMemory_within (h : .mem ∈ L ∧ .fm ∈ L) : Within L s₀ (loseMemory s) ↔ Within L s₀ s := by
  simp [loseMemory, h]

@[simp] theorem fmForget_within (h : .mem ∈ L ∧ .fm ∈ L) (a n : Nat) : Within L s₀ (fmForget s a n) ↔ Within L s₀ s := by
  simp [fmForget, h]

@[simp] theorem takeRegion_within (h : .mem ∈ L ∧ .fm ∈ L) (b n : Nat) : Within L s₀ (takeRegion s b n) ↔ Within L s₀ s := by
  simp [takeRegion, h]

@[simp] theorem freeRegion_within (h : .mem ∈ L) (r : Nat × Nat) : Within L s₀ (freeRegion s r) ↔ Within L s₀ s := by
  simp [freeRegion, h]

@[simp] theorem State.modSeq_within (h : .arr ∈ L) (f : Seq → Seq) : Within L s₀ (State.modSeq s f) ↔ Within L s₀ s := by
  simp [State.modSeq, h]

@[simp] theorem State.modEng_within (h : .arr ∈ L) (t : Nat) (f : Eng → Eng) : Within L s₀ (State.modEng s t f) ↔ Within L s₀ s := by
  simp [State.modEng, h]

@[simp] theorem State.modGov_within (h : .arr ∈ L) (f : Gov → Gov) : Within L s₀ (State.modGov s f) ↔ Within L s₀ s := by
  simp [State.modGov, h]

@[simp] theorem latchFrame_within (h : .regs ∈ L ∧ .arr ∈ L ∧ .mem ∈ L ∧ .th ∈ L) (p : Plan) : Within L s₀ (latchFrame s p) ↔ Within L s₀ s := by
  simp [latchFrame, h]

@[simp] theorem unlatch_within (h : .regs ∈ L ∧ .arr ∈ L ∧ .mem ∈ L ∧ .th ∈ L) (stamp : Time) :
    Within L s₀ (unlatch s stamp) ↔ Within L s₀ s := by
  unfold unlatch
  split <;> simp [h]

@[simp] theorem resetStaged_within (h : .arr ∈ L) : Within L s₀ (resetStaged s) ↔ Within L s₀ s := by
  simp [resetStaged, h]

@[simp] theorem takeTrigger_within (h : .regs ∈ L ∧ .arr ∈ L) (src : Nat) (tg t : Time) :
    Within L s₀ (takeTrigger s src tg t) ↔ Within L s₀ s := by
  unfold takeTrigger
  split <;> simp [h]

@[simp] theorem pinTrigger_within (h : .regs ∈ L ∧ .arr ∈ L) (n : Nat) (t : Time) : Within L s₀ (pinTrigger s n t) ↔ Within L s₀ s := by
  simp [pinTrigger, h]

@[simp] theorem cmdTrigger_within (h : .regs ∈ L ∧ .arr ∈ L) (t : Time) : Within L s₀ (cmdTrigger s t) ↔ Within L s₀ s := by
  simp [cmdTrigger, h]

@[simp] theorem State.modMem_within (h : .mem ∈ L) (f : Mem → Mem) : Within L s₀ (State.modMem s f) ↔ Within L s₀ s := by
  simp [State.modMem, h]

@[simp] theorem memAnswer_within (h : .mem ∈ L) (l : List MemReply) : Within L s₀ (memAnswer s l) ↔ Within L s₀ s := by
  simp [memAnswer, h]

@[simp] theorem memReply_within (h : .mem ∈ L) (c i d : Nat) (a : MemAns) : Within L s₀ (memReply s c i d a) ↔ Within L s₀ s := by
  simp [memReply, h]

@[simp] theorem addThrottle_within (h : .regs ∈ L ∧ .log ∈ L ∧ .ports ∈ L ∧ .mem ∈ L) (c i q : Nat) (t : Time) :
    Within L s₀ (addThrottle s c i q t) ↔ Within L s₀ s := by
  simp [addThrottle, h]

@[simp] theorem activate_within (h : .regs ∈ L ∧ .log ∈ L ∧ .ports ∈ L ∧ .mem ∈ L) (c i q row : Nat) (at_ t : Time) :
    Within L s₀ (activate s c i q row at_ t) ↔ Within L s₀ s := by
  simp only [activate]
  split <;> simp [h]

@[simp] theorem settleMode_within (h : .mem ∈ L) (sc : Nat) : Within L s₀ (settleMode s sc) ↔ Within L s₀ s := by
  simp [settleMode, h]

@[simp] theorem enterRequest_within (h : .mem ∈ L) (t : Time) (c i d : Nat) (op : MemOp) (moved : Bool) :
    Within L s₀ (enterRequest s t c i d op moved) ↔ Within L s₀ s := by
  simp only [enterRequest]
  (repeat' split) <;> simp [h]

@[simp] theorem memArrive_within (h : .mem ∈ L) (t : Time) (c i d : Nat) (op : MemOp) (moved : Bool) :
    Within L s₀ (memArrive s t c i d op moved) ↔ Within L s₀ s := by
  simp [memArrive, h]

@[simp] theorem rewriteWaiting_within (h : .mem ∈ L ∧ .fm ∈ L) (old : State) : Within L s₀ (rewriteWaiting s old) ↔ Within L s₀ s := by
  refine within_foldl fun r e => ?_
  split <;> simp [h]

@[simp] theorem admitWaiting_within (h : .mem ∈ L) (t : Time) : Within L s₀ (admitWaiting s t) ↔ Within L s₀ s := by
  simp [admitWaiting, h]

@[simp] theorem memStore_within (h : .mem ∈ L ∧ .fm ∈ L) (c i a : Nat) (bs : List Byte) (t : Time) :
    Within L s₀ (memStore s c i a bs t) ↔ Within L s₀ s := by
  simp [memStore, h]

@[simp] theorem memLoad_within (h : .mem ∈ L) (c i a n : Nat) (t : Time) : Within L s₀ (memLoad s c i a n t) ↔ Within L s₀ s := by
  simp [memLoad, h]

@[simp] theorem loseRequests_within (h : .mem ∈ L ∧ .fm ∈ L) (all : Bool) : Within L s₀ (loseRequests s all) ↔ Within L s₀ s := by
  simp [loseRequests, h]

@[simp] theorem State.modRing_within (h : .ring ∈ L) (f : Ring → Ring) : Within L s₀ (State.modRing s f) ↔ Within L s₀ s := by
  simp [State.modRing, h]

@[simp] theorem modChunk_within (h : .ring ∈ L) (k : Nat) (f : Chunk → Chunk) : Within L s₀ (modChunk s k f) ↔ Within L s₀ s := by
  simp [modChunk, h]

@[simp] theorem modSeg_within (h : .ring ∈ L) (i : Nat) (f : Segment → Segment) : Within L s₀ (modSeg s i f) ↔ Within L s₀ s := by
  simp [modSeg, h]

@[simp] theorem pinChunks_within (h : .ring ∈ L) (slot : Nat) (ks : List Nat) : Within L s₀ (pinChunks s slot ks) ↔ Within L s₀ s := by
  simp [pinChunks, h]

@[simp] theorem dirWrite_within (h : .mem ∈ L ∧ .fm ∈ L ∧ .ring ∈ L) (t : Time) : Within L s₀ (dirWrite s t) ↔ Within L s₀ s := by
  simp [dirWrite, h]

@[simp] theorem sealSegment_within (h : .mem ∈ L ∧ .fm ∈ L ∧ .ring ∈ L) (i flags : Nat) (t : Time) :
    Within L s₀ (sealSegment s i flags t) ↔ Within L s₀ s := by
  simp [sealSegment, h]

@[simp] theorem releaseSlot_within (h : .mem ∈ L ∧ .fm ∈ L ∧ .ring ∈ L) (i : Nat) (t : Time) :
    Within L s₀ (releaseSlot s i t) ↔ Within L s₀ s := by
  simp [releaseSlot, h]

@[simp] theorem addLost_within (h : .ring ∈ L) (n : Nat) : Within L s₀ (addLost s n) ↔ Within L s₀ s := by
  simp [addLost, h]

@[simp] theorem setCont_within (h : .mem ∈ L ∧ .fm ∈ L) (v k n : Nat) (t : Time) : Within L s₀ (setCont s v k n t) ↔ Within L s₀ s := by
  simp [setCont, h]

@[simp] theorem setPos_within (h : .ring ∈ L) (v k off : Nat) : Within L s₀ (setPos s v k off) ↔ Within L s₀ s := by
  simp [setPos, h]

@[simp] theorem modOpen_within (h : .ring ∈ L) (v : Nat) (f : RingRec → RingRec) : Within L s₀ (modOpen s v f) ↔ Within L s₀ s := by
  simp [modOpen, h]

@[simp] theorem askSeal_within (h : .mem ∈ L) (r : RingRec) : Within L s₀ (askSeal s r) ↔ Within L s₀ s := by
  simp [askSeal, h]

@[simp] theorem closeRec_within (h : .mem ∈ L ∧ .fm ∈ L ∧ .ring ∈ L) (v flags : Nat) (t : Time) :
    Within L s₀ (closeRec s v flags t) ↔ Within L s₀ s := by
  unfold closeRec
  split <;> simp [h]

@[simp] theorem closeAll_within (h : .mem ∈ L ∧ .fm ∈ L ∧ .ring ∈ L) (flags : Nat) (t : Time) :
    Within L s₀ (closeAll s flags t) ↔ Within L s₀ s := by
  simp [closeAll, h]

@[simp] theorem cutSegments_within (h : .mem ∈ L ∧ .fm ∈ L ∧ .ring ∈ L) (flags : Nat) (t : Time) :
    Within L s₀ (cutSegments s flags t) ↔ Within L s₀ s := by
  simp [cutSegments, h]

@[simp] theorem ringFull_within (h : .mem ∈ L ∧ .fm ∈ L ∧ .ring ∈ L) (t : Time) : Within L s₀ (ringFull s t) ↔ Within L s₀ s := by
  simp [ringFull, h]

@[simp] theorem freeAChunk_within (h : .mem ∈ L ∧ .fm ∈ L ∧ .ring ∈ L) (n : Nat) (t : Time) :
    Within L s₀ (freeAChunk n s t) ↔ Within L s₀ s := by
  induction n generalizing s with
  | zero => simp [freeAChunk]
  | succ n ih =>
    rw [freeAChunk]
    split
    · rfl
    · split
      · simp [ih, h]
      · rfl

@[simp] theorem takeChunk_within (h : .mem ∈ L ∧ .fm ∈ L ∧ .ring ∈ L) (v : Nat) (t : Time) : Within L s₀ (takeChunk s v t) ↔ Within L s₀ s := by
  simp only [takeChunk]
  split <;> split <;> simp_all

@[simp] theorem appendRec_within (h : .mem ∈ L ∧ .fm ∈ L ∧ .ring ∈ L) (n v : Nat) (bs : List Byte) (t : Time) :
    Within L s₀ (appendRec n s v bs t) ↔ Within L s₀ s := by
  induction n generalizing s bs with
  | zero => simp [appendRec]
  | succ n ih =>
    rw [appendRec]
    split
    · rfl
    · split
      · rfl
      · split
        · rfl
        · split
          · rw [ih]
            split <;> simp [h]
          · simp [ih, h]

@[simp] theorem openRecord_within (h : .mem ∈ L ∧ .fm ∈ L ∧ .ring ∈ L) (v : Nat) (b : List Byte) (t : Time) :
    Within L s₀ (openRecord s v b t) ↔ Within L s₀ s := by
  simp only [openRecord]
  split <;> simp [h]

@[simp] theorem addLine_within (h : .mem ∈ L ∧ .fm ∈ L ∧ .ring ∈ L) (v : Nat) (b : List Byte) (t : Time) :
    Within L s₀ (addLine s v b t) ↔ Within L s₀ s := by
  unfold addLine
  refine within_either ?_ ?_ <;> simp [h]

@[simp] theorem loseRecord_within (h : .ring ∈ L) (v fs : Nat) : Within L s₀ (loseRecord s v fs) ↔ Within L s₀ s := by
  simp [loseRecord, h]

@[simp] theorem ringFrameStart_within (h : .ring ∈ L) (v frame : Nat) : Within L s₀ (ringFrameStart s v frame) ↔ Within L s₀ s := by
  simp [ringFrameStart, h]

@[simp] theorem packetLeft_within (h : .mem ∈ L ∧ .fm ∈ L ∧ .ring ∈ L) (p : PortIx) (k : Pkt) (t : Time) :
    Within L s₀ (packetLeft s p k t) ↔ Within L s₀ s := by
  simp only [packetLeft]
  (repeat' split) <;> simp [h]

@[simp] theorem ringForget_within (h : .mem ∈ L ∧ .fm ∈ L ∧ .ring ∈ L) (v : Nat) (t : Time) : Within L s₀ (ringForget s v t) ↔ Within L s₀ s := by
  simp [ringForget, h]

@[simp] theorem ringThaw_within (h : .mem ∈ L ∧ .fm ∈ L ∧ .ring ∈ L) (t : Time) : Within L s₀ (ringThaw s t) ↔ Within L s₀ s := by
  simp [ringThaw, h]

@[simp] theorem ringStop_within (h : .ring ∈ L) : Within L s₀ (ringStop s) ↔ Within L s₀ s := by
  simp [ringStop, h]

@[simp] theorem openSegment_within (h : .mem ∈ L ∧ .fm ∈ L ∧ .ring ∈ L) (i code flags d end_ : Nat) (t : Time) :
    Within L s₀ (openSegment s i code flags d end_ t) ↔ Within L s₀ s := by
  simp [openSegment, h]

@[simp] theorem extendSegment_within (h : .ring ∈ L) (i code d : Nat) : Within L s₀ (extendSegment s i code d) ↔ Within L s₀ s := by
  simp [extendSegment, h]

@[simp] theorem makeSlot_within (h : .mem ∈ L ∧ .fm ∈ L ∧ .ring ∈ L) (t : Time) : Within L s₀ (makeSlot s t).2.2 ↔ Within L s₀ s := by
  unfold makeSlot
  split
  · rfl
  · split
    · split <;> simp [h]
    · simp [h]

@[simp] theorem ringDusk_within (h : .mem ∈ L ∧ .fm ∈ L ∧ .ring ∈ L) (d : Time) : Within L s₀ (ringDusk s d) ↔ Within L s₀ s := by
  have hmade : Within L s₀ (makeSlot (cutSegments (closeAll s 2 d) 4 d) d).2.2 ↔ Within L s₀ s := by simp [h]
  unfold ringDusk
  refine within_either .rfl ((dirWrite_within h _).trans (within_either ?_ (by simp [h])))
  generalize makeSlot (cutSegments (closeAll s 2 d) 4 d) d = m at hmade ⊢
  obtain ⟨_ | i, b, u⟩ := m
  · exact hmade
  · simpa [h] using hmade

@[simp] theorem ringRecover_within (h : .mem ∈ L ∧ .fm ∈ L ∧ .ring ∈ L) (t : Time) : Within L s₀ (ringRecover s t).1 ↔ Within L s₀ s := by
  unfold ringRecover
  extract_lets loaded
  have hloaded : Within L s₀ loaded ↔ Within L s₀ s := by simp [loaded, h]
  clear_value loaded
  split
  · simp [hloaded, h]
  · extract_lets read bad dead n fix chunks keep old ring kept moved
    have hkept : Within L s₀ kept ↔ Within L s₀ s := by simp [kept, read, hloaded, h]
    clear_value kept moved
    refine within_either ?_ hkept
    simp [hkept, h]

@[simp] theorem bulkEnd_within (h : .ports ∈ L ∧ .sb ∈ L ∧ .fwq ∈ L) (p : PortIx) (st : Status) (t : Time) :
    Within L s₀ (bulkEnd s p st t) ↔ Within L s₀ s := by
  unfold bulkEnd
  split <;> simp [h]

@[simp] theorem bulkNext_within (h : .ports ∈ L ∧ .sb ∈ L ∧ .fwq ∈ L ∧ .mem ∈ L) (p : PortIx) (t : Time) :
    Within L s₀ (bulkNext s p t) ↔ Within L s₀ s := by
  simp only [bulkNext]
  (repeat' split) <;> simp [h]

@[simp] theorem bulkRefill_within (h : .ports ∈ L ∧ .sb ∈ L ∧ .fwq ∈ L ∧ .mem ∈ L) (p : PortIx) (t : Time) :
    Within L s₀ (bulkRefill s p t) ↔ Within L s₀ s := by
  simp [bulkRefill, h]

@[simp] theorem bulkAcked_within (h : .ports ∈ L ∧ .sb ∈ L ∧ .fwq ∈ L ∧ .mem ∈ L) (p : PortIx) (ident : Nat) (t : Time) :
    Within L s₀ (bulkAcked s p ident t) ↔ Within L s₀ s := by
  simp only [bulkAcked]
  (repeat' split) <;> simp [h]

@[simp] theorem abortBulk_within (h : .ports ∈ L ∧ .sb ∈ L ∧ .fwq ∈ L) (p : PortIx) (t : Time) :
    Within L s₀ (abortBulk s p t) ↔ Within L s₀ s := by
  simp [abortBulk, h]

@[simp] theorem State.modView_within (h : .pipe ∈ L) (v : Nat) (f : View → View) : Within L s₀ (State.modView s v f) ↔ Within L s₀ s := by
  simp [State.modView, h]

@[simp] theorem State.modPipe_within (h : .pipe ∈ L) (f : Pipe → Pipe) : Within L s₀ (State.modPipe s f) ↔ Within L s₀ s := by
  simp [State.modPipe, h]

@[simp] theorem State.modVf_within (h : .pipe ∈ L) (v frame : Nat) (g : VFrame → VFrame) :
    Within L s₀ (State.modVf s v frame g) ↔ Within L s₀ s := by
  simp [State.modVf, h]

@[simp] theorem queuePkt_within (h : .ports ∈ L) (v type frame : Nat) (body : List Byte) :
    Within L s₀ (queuePkt s v type frame body) ↔ Within L s₀ s := by
  simp [queuePkt, h]

@[simp] theorem notifyDrop_within (h : .regs ∈ L ∧ .ports ∈ L) (v reason first count : Nat) (t : Time) :
    Within L s₀ (notifyDrop s v reason first count t) ↔ Within L s₀ s := by
  simp [notifyDrop, h]

@[simp] theorem reportMiss_within (h : .regs ∈ L ∧ .ports ∈ L ∧ .pipe ∈ L) (v : Nat) (t : Time) :
    Within L s₀ (reportMiss s v t) ↔ Within L s₀ s := by
  simp [reportMiss, h]

@[simp] theorem missFrame_within (h : .regs ∈ L ∧ .ports ∈ L ∧ .pipe ∈ L) (v frame reason : Nat) (t : Time) :
    Within L s₀ (missFrame s v frame reason t) ↔ Within L s₀ s := by
  simp [missFrame, h]

@[simp] theorem queueLine_within (h : .regs ∈ L ∧ .ports ∈ L ∧ .pipe ∈ L) (f : VFrame) (oy q : Nat) (t : Time) :
    Within L s₀ (queueLine s f oy q t) ↔ Within L s₀ s := by
  simp [queueLine, h]

@[simp] theorem startVf_within (h : .regs ∈ L ∧ .ports ∈ L ∧ .pipe ∈ L) (f : VFrame) : Within L s₀ (startVf s f) ↔ Within L s₀ s := by
  simp [startVf, h]

@[simp] theorem removeVf_within (h : .pipe ∈ L) (v frame : Nat) : Within L s₀ (removeVf s v frame) ↔ Within L s₀ s := by
  simp [removeVf, h]

@[simp] theorem endVf_within (h : .regs ∈ L ∧ .ports ∈ L ∧ .pipe ∈ L) (f : VFrame) (extra : Nat) (t : Time) :
    Within L s₀ (endVf s f extra t) ↔ Within L s₀ s := by
  simp [endVf, h]

@[simp] theorem finishVf_within (h : .regs ∈ L ∧ .ports ∈ L ∧ .pipe ∈ L) (v frame : Nat) (t : Time) :
    Within L s₀ (finishVf s v frame t) ↔ Within L s₀ s := by
  simp only [finishVf]
  (repeat' split) <;> simp [h]

@[simp] theorem truncateVf_within (h : .regs ∈ L ∧ .ports ∈ L ∧ .pipe ∈ L) (f : VFrame) (extra : Nat) (t : Time) :
    Within L s₀ (truncateVf s f extra t) ↔ Within L s₀ s := by
  simp [truncateVf, h]

@[simp] theorem jobDone_within (h : .regs ∈ L ∧ .ports ∈ L ∧ .pipe ∈ L) (j : Job8) (t : Time) : Within L s₀ (jobDone s j t) ↔ Within L s₀ s := by
  unfold jobDone
  split
  · rfl
  · simp only
    split
    · simp [h]
    · refine (finishVf_within h ..).trans (within_either (Iff.trans (within_foldl fun r x => ?_) (by simp [h])) (by simp [h]))
      split <;> simp [h]

@[simp] theorem openVf_within (h : .regs ∈ L ∧ .pipe ∈ L ∧ .ring ∈ L) (v : Nat) (f : VFrame) (hbase : Nat) :
    Within L s₀ (openVf s v f hbase) ↔ Within L s₀ s := by
  simp only [openVf]
  split <;> simp [h]

@[simp] theorem reconfigure_within (h : .regs ∈ L ∧ .pipe ∈ L) (f : Frame) : Within L s₀ (reconfigure s f) ↔ Within L s₀ s := by
  refine within_foldl fun r x => ?_
  simp only
  split <;> simp [h]

@[simp] theorem openArrayFrame_within (h : .regs ∈ L ∧ .ports ∈ L ∧ .pipe ∈ L ∧ .ring ∈ L) (f : Frame) (t : Time) :
    Within L s₀ (openArrayFrame s f t) ↔ Within L s₀ s := by
  simp [openArrayFrame, h]

@[simp] theorem endSource_within (h : .regs ∈ L ∧ .ports ∈ L ∧ .pipe ∈ L) (src vc frame : Nat) (t : Time) :
    Within L s₀ (endSource s src vc frame t) ↔ Within L s₀ s := by
  simp [endSource, h]

@[simp] theorem truncateSource_within (h : .regs ∈ L ∧ .ports ∈ L ∧ .pipe ∈ L) (src vc frame extra : Nat) (t : Time) :
    Within L s₀ (truncateSource s src vc frame extra t) ↔ Within L s₀ s := by
  simp [truncateSource, h]

@[simp] theorem releaseAuxStore_within (h : .aux ∈ L ∧ .mem ∈ L) (n vc : Nat) : Within L s₀ (releaseAuxStore s n vc) ↔ Within L s₀ s := by
  unfold releaseAuxStore
  split <;> simp [h]

@[simp] theorem releaseView_within (h : .pipe ∈ L ∧ .aux ∈ L ∧ .mem ∈ L) (v : Nat) : Within L s₀ (releaseView s v) ↔ Within L s₀ s := by
  simp only [releaseView]
  (repeat' split) <;> simp [h]

@[simp] theorem freeDeleted_within (h : .pipe ∈ L ∧ .mem ∈ L ∧ .fm ∈ L ∧ .ring ∈ L) (v : Nat) (del : Bool) (t : Time) :
    Within L s₀ (freeDeleted s v del t) ↔ Within L s₀ s := by
  simp [freeDeleted, h]

@[simp] theorem stopViewNow_within (h : .regs ∈ L ∧ .ports ∈ L ∧ .pipe ∈ L ∧ .aux ∈ L ∧ .mem ∈ L ∧ .fm ∈ L ∧ .ring ∈ L) (v : Nat) (t : Time) :
    Within L s₀ (stopViewNow s v t) ↔ Within L s₀ s := by
  simp [stopViewNow, h]

@[simp] theorem pauseViews_within (h : .free ∈ L ∧ .regs ∈ L ∧ .ports ∈ L ∧ .pipe ∈ L) (p : PortIx) (t : Time) :
    Within L s₀ (pauseViews s p t) ↔ Within L s₀ s := by
  unfold pauseViews drawFree
  refine (within_foldl fun r v => within_either ?_ .rfl).trans (by simp [h])
  simp [h]

@[simp] theorem resumeViews_within (h : .regs ∈ L ∧ .ports ∈ L ∧ .pipe ∈ L) (p : PortIx) (t : Time) :
    Within L s₀ (resumeViews s p t) ↔ Within L s₀ s := by
  refine within_foldl fun r v => within_either ?_ .rfl
  simp only [↓State.modView_within, ↓reportMiss_within, ↓within_ite, ite_self, h, and_self]
  (repeat' split) <;> simp [h]

@[simp] theorem expireHold_within (h : .pipe ∈ L ∧ .aux ∈ L ∧ .mem ∈ L ∧ .fm ∈ L ∧ .ring ∈ L) (p : PortIx) (t : Time) :
    Within L s₀ (expireHold s p t) ↔ Within L s₀ s := by
  simp [expireHold, h]

@[simp] theorem stopAllViews_within (h : .regs ∈ L ∧ .ports ∈ L ∧ .pipe ∈ L ∧ .aux ∈ L ∧ .mem ∈ L ∧ .fm ∈ L ∧ .ring ∈ L) (t : Time) :
    Within L s₀ (stopAllViews s t) ↔ Within L s₀ s := by
  simp [stopAllViews, h]

@[simp] theorem dropRaster_within (h : .regs ∈ L ∧ .ports ∈ L ∧ .pipe ∈ L) (t : Time) : Within L s₀ (dropRaster s t) ↔ Within L s₀ s := by
  simp [dropRaster, h]

@[simp] theorem rasterToCreated_within (h : .regs ∈ L ∧ .ports ∈ L ∧ .pipe ∈ L ∧ .aux ∈ L ∧ .mem ∈ L ∧ .fm ∈ L ∧ .ring ∈ L) (t : Time) :
    Within L s₀ (rasterToCreated s t) ↔ Within L s₀ s := by
  refine within_foldl fun r v => within_either ?_ .rfl
  simp [h]

@[simp] theorem endAuth_within (h : .sec ∈ L ∧ .pipe ∈ L) (p : PortIx) (t : Time) : Within L s₀ (endAuth s p t) ↔ Within L s₀ s := by
  simp [endAuth, h]

@[simp] theorem beginView_within (h : .pipe ∈ L ∧ .aux ∈ L ∧ .mem ∈ L ∧ .fm ∈ L) (v : Nat) (t : Time) :
    Within L s₀ (beginView s v t) ↔ Within L s₀ s := by
  simp only [beginView]
  split <;> simp [h]

@[simp] theorem startProfileView_within (h : .pipe ∈ L ∧ .aux ∈ L ∧ .mem ∈ L ∧ .fm ∈ L) (p : PortIx) (t : Time) :
    Within L s₀ (startProfileView s p t) ↔ Within L s₀ s := by
  simp [startProfileView, h]

@[simp] theorem sendBlocks_within (h : .ports ∈ L) (p : PortIx) (t : Time) : Within L s₀ (sendBlocks s p t) ↔ Within L s₀ s := by
  simp [sendBlocks, h]

@[simp] theorem sendAbort_within (h : .ports ∈ L) (p : PortIx) (reason : Nat) (t : Time) :
    Within L s₀ (sendAbort s p reason t) ↔ Within L s₀ s := by
  simp [sendAbort, h]

@[simp] theorem enterTrain_within (h : .ports ∈ L) (p : PortIx) (st : PortSt) (t : Time) : Within L s₀ (enterTrain s p st t) ↔ Within L s₀ s := by
  unfold enterTrain
  split <;> simp [h]

@[simp] theorem notifyLink_within (h : .regs ∈ L ∧ .ports ∈ L) (q p : PortIx) (reason : Nat) (t : Time) :
    Within L s₀ (notifyLink s q p reason t) ↔ Within L s₀ s := by
  simp [notifyLink, h]

@[simp] theorem notifyLinkOthers_within (h : .regs ∈ L ∧ .ports ∈ L) (p : PortIx) (reason : Nat) (t : Time) :
    Within L s₀ (notifyLinkOthers s p reason t) ↔ Within L s₀ s := by
  simp [notifyLinkOthers, h]

@[simp] theorem leaveActive_within (h : .free ∈ L ∧ .regs ∈ L ∧ .ports ∈ L ∧ .sb ∈ L ∧ .fwq ∈ L ∧ .slow ∈ L ∧ .pipe ∈ L)
    (p : PortIx) (st : PortSt) (reason : Nat) (drop : Bool) (t : Time) :
    Within L s₀ (leaveActive s p st reason drop t) ↔ Within L s₀ s := by
  unfold leaveActive drawFree
  simp [h]

@[simp] theorem noteFail_within (h : .regs ∈ L ∧ .ports ∈ L) (p : PortIx) (reason : Nat) : Within L s₀ (noteFail s p reason) ↔ Within L s₀ s := by
  simp [noteFail, h]

@[simp] theorem dropPort_within (h : .free ∈ L ∧ .regs ∈ L ∧ .ports ∈ L ∧ .sb ∈ L ∧ .fwq ∈ L ∧ .slow ∈ L ∧ .pipe ∈ L)
    (p : PortIx) (reason : Nat) (t : Time) :
    Within L s₀ (dropPort s p reason t) ↔ Within L s₀ s := by
  simp [dropPort, h]

@[simp] theorem trainFail_within (h : .regs ∈ L ∧ .ports ∈ L) (p : PortIx) (reason : Nat) (t : Time) :
    Within L s₀ (trainFail s p reason t) ↔ Within L s₀ s := by
  simp [trainFail, h]

@[simp] theorem failPort_within (h : .free ∈ L ∧ .regs ∈ L ∧ .ports ∈ L ∧ .sb ∈ L ∧ .fwq ∈ L ∧ .slow ∈ L ∧ .pipe ∈ L)
    (p : PortIx) (reason : Nat) (t : Time) :
    Within L s₀ (failPort s p reason t) ↔ Within L s₀ s := by
  simp [failPort, h]

@[simp] theorem quietPort_within (h : .free ∈ L ∧ .regs ∈ L ∧ .ports ∈ L ∧ .sb ∈ L ∧ .fwq ∈ L ∧ .slow ∈ L ∧ .pipe ∈ L) (p : PortIx) (t : Time) :
    Within L s₀ (quietPort s p t) ↔ Within L s₀ s := by
  simp [quietPort, h]

@[simp] theorem enablePort_within (h : .ports ∈ L) (p : PortIx) (t : Time) : Within L s₀ (enablePort s p t) ↔ Within L s₀ s := by
  simp [enablePort, h]

@[simp] theorem lapsePort_within (h : .regs ∈ L ∧ .leases ∈ L ∧ .leaseLog ∈ L ∧ .arrayLapsed ∈ L ∧ .ports ∈ L ∧ .sec ∈ L ∧ .pipe ∈ L)
    (p : PortIx) (t : Time) :
    Within L s₀ (lapsePort s p t) ↔ Within L s₀ s := by
  simp only [lapsePort, ↓State.modPort_within, ↓endAuth_within, h, and_self]
  refine within_foldl fun r b => within_either ?_ .rfl
  split <;> simp [h]

@[simp] theorem enterActive_within (h : .regs ∈ L ∧ .leases ∈ L ∧ .leaseLog ∈ L ∧ .arrayLapsed ∈ L ∧ .ports ∈ L ∧ .rs ∈ L ∧ .sec ∈ L ∧ .pipe ∈ L ∧
    .aux ∈ L ∧ .mem ∈ L ∧ .fm ∈ L ∧ .ring ∈ L)
    (p : PortIx) (t : Time) :
    Within L s₀ (enterActive s p t) ↔ Within L s₀ s := by
  unfold enterActive
  simp [h]
  split <;> simp [h]

@[simp] theorem enterRate_within (h : .ports ∈ L) (p : PortIx) (t : Time) : Within L s₀ (enterRate s p t) ↔ Within L s₀ s := by
  simp [enterRate, h]

@[simp] theorem wantChange_within (h : .ports ∈ L) (p : PortIx) (due : Option Time) (by_ : Option (PortIx × BitVec 16)) :
    Within L s₀ (wantChange s p due by_) ↔ Within L s₀ s := by
  simp [wantChange, h]

@[simp] theorem changeDue_within (h : .ports ∈ L) (p : PortIx) (tag : Nat) (due : Time) :
    Within L s₀ (changeDue s p tag due) ↔ Within L s₀ s := by
  simp [changeDue, h]

@[simp] theorem msgAcked_within (h : .ports ∈ L ∧ .rs ∈ L) (p : PortIx) (e : RingEntry) (t : Time) :
    Within L s₀ (msgAcked s p e t) ↔ Within L s₀ s := by
  simp [msgAcked, h]

@[simp] theorem packetAcked_within (h : .ports ∈ L ∧ .sb ∈ L ∧ .fwq ∈ L ∧ .rs ∈ L ∧ .mem ∈ L) (p : PortIx) (ident : Nat) (t : Time) :
    Within L s₀ (packetAcked s p ident t) ↔ Within L s₀ s := by
  unfold packetAcked
  split <;> simp [h]

@[simp] theorem takeAck_within (h : .regs ∈ L ∧ .log ∈ L ∧ .ports ∈ L ∧ .sb ∈ L ∧ .fwq ∈ L ∧ .rs ∈ L ∧ .mem ∈ L)
    (p : PortIx) (ack : Nat) (t : Time) :
    Within L s₀ (takeAck s p ack t) ↔ Within L s₀ s := by
  simp [takeAck, h]

@[simp] theorem goBack_within (h : .ports ∈ L) (p : PortIx) (ack : Nat) (t : Time) : Within L s₀ (goBack s p ack t) ↔ Within L s₀ s := by
  simp [goBack, h]

@[simp] theorem takeNak_within (h : .regs ∈ L ∧ .ports ∈ L) (p : PortIx) (ack : Nat) (t : Time) :
    Within L s₀ (takeNak s p ack t) ↔ Within L s₀ s := by
  simp only [takeNak]
  split <;> simp [h]

@[simp] theorem proto_within (h : .regs ∈ L) (p : PortIx) : Within L s₀ (proto s p) ↔ Within L s₀ s := by
  simp [proto, h]

@[simp] theorem checkBooks_within (h : .regs ∈ L ∧ .log ∈ L ∧ .ports ∈ L) : Within L s₀ (checkBooks s) ↔ Within L s₀ s := by
  simp [checkBooks, h]

@[simp] theorem State.modTmr_within (h : .pio ∈ L) (n : Nat) (f : Tmr → Tmr) : Within L s₀ (State.modTmr s n f) ↔ Within L s₀ s := by
  simp [State.modTmr, h]

@[simp] theorem State.modPe_within (h : .pio ∈ L) (e : Nat) (f : Pe → Pe) : Within L s₀ (State.modPe s e f) ↔ Within L s₀ s := by
  simp [State.modPe, h]

@[simp] theorem tmrStart_within (h : .pio ∈ L) (n : Nat) (t : Time) : Within L s₀ (tmrStart s n t) ↔ Within L s₀ s := by
  simp [tmrStart, h]

@[simp] theorem tmrStop_within (h : .pio ∈ L) (n : Nat) (t : Time) : Within L s₀ (tmrStop s n t) ↔ Within L s₀ s := by
  simp [tmrStop, h]

@[simp] theorem tmrReset_within (h : .pio ∈ L) (n : Nat) (t : Time) : Within L s₀ (tmrReset s n t) ↔ Within L s₀ s := by
  simp [tmrReset, h]

@[simp] theorem tmrCapture_within (h : .pio ∈ L) (n v : Nat) (t : Time) : Within L s₀ (tmrCapture s n v t) ↔ Within L s₀ s := by
  simp [tmrCapture, h]

@[simp] theorem tmrCommand_within (h : .pio ∈ L) (n op : Nat) (t : Time) : Within L s₀ (tmrCommand s n op t) ↔ Within L s₀ s := by
  unfold tmrCommand
  split <;> simp [h]

@[simp] theorem tmrSourceEvent_within (h : .pio ∈ L) (n : Nat) : Within L s₀ (tmrSourceEvent s n) ↔ Within L s₀ s := by
  simp [tmrSourceEvent, h]

@[simp] theorem tmrChain_within (h : .pio ∈ L) (n : Nat) : Within L s₀ (tmrChain s n) ↔ Within L s₀ s := by
  simp [tmrChain, h]

@[simp] theorem latchAll_within (h : .pio ∈ L) (n ev : Nat) : Within L s₀ (latchAll s n ev) ↔ Within L s₀ s := by
  simp [latchAll, h]

@[simp] theorem tmrActions_within (h : .pio ∈ L) (n lo : Nat) (t : Time) : Within L s₀ (tmrActions s n lo t) ↔ Within L s₀ s := by
  simp [tmrActions, h]

@[simp] theorem tmrBoundary_within (h : .pio ∈ L) (n : Nat) : Within L s₀ (tmrBoundary s n) ↔ Within L s₀ s := by
  simp [tmrBoundary, h]

@[simp] theorem tmrPeriod_within (h : .pio ∈ L) (n : Nat) (t : Time) : Within L s₀ (tmrPeriod s n t) ↔ Within L s₀ s := by
  simp [tmrPeriod, h]

@[simp] theorem tmrImmediateNow_within (h : .pio ∈ L) (n : Nat) : Within L s₀ (tmrImmediateNow s n) ↔ Within L s₀ s := by
  simp [tmrImmediateNow, h]

@[simp] theorem tmrWrite_within (h : .pio ∈ L) (n which v : Nat) : Within L s₀ (tmrWrite s n which v) ↔ Within L s₀ s := by
  simp [tmrWrite, h]

@[simp] theorem tmrTick_within (h : .pio ∈ L) (n : Nat) : Within L s₀ (tmrTick s n) ↔ Within L s₀ s := by
  simp [tmrTick, h]

@[simp] theorem timersStep_within (h : .pio ∈ L) (old : State) (t : Time) : Within L s₀ (timersStep s old t) ↔ Within L s₀ s := by
  simp [timersStep, h]

@[simp] theorem timerFrameStart_within (h : .pio ∈ L) (t : Time) : Within L s₀ (timerFrameStart s t) ↔ Within L s₀ s := by
  simp [timerFrameStart, h]

@[simp] theorem peRelease_within (h : .regs ∈ L ∧ .log ∈ L ∧ .ports ∈ L) (e : Nat) (t : Time) :
    Within L s₀ (peRelease s e t) ↔ Within L s₀ s := by
  simp [peRelease, h]

@[simp] theorem stopTimersAndPio_within (h : .regs ∈ L ∧ .log ∈ L ∧ .ports ∈ L ∧ .pio ∈ L) (t : Time) :
    Within L s₀ (stopTimersAndPio s t) ↔ Within L s₀ s := by
  simp [stopTimersAndPio, h]

@[simp] theorem deliverLine_within (h : .pipe ∈ L ∧ .mem ∈ L ∧ .fm ∈ L)
    (t frame row : Nat) (kind : Option Nat) (codes : List Nat) (flags : Nat) (at_ : Time) :
    Within L s₀ (deliverLine s t frame row kind codes flags at_) ↔ Within L s₀ s := by
  simp [deliverLine, h]

@[simp] theorem State.modFrame_within (h : .arr ∈ L) (n : Nat) (g : Frame → Frame) : Within L s₀ (State.modFrame s n g) ↔ Within L s₀ s := by
  simp [State.modFrame, h]

@[simp] theorem State.modStat_within (h : .arr ∈ L) (n t : Nat) (g : TileStat → TileStat) :
    Within L s₀ (State.modStat s n t g) ↔ Within L s₀ s := by
  simp [State.modStat, h]

@[simp] theorem dropLine_within (h : .regs ∈ L ∧ .pipe ∈ L ∧ .mem ∈ L ∧ .fm ∈ L) (t : Nat) (l : Line) (at_ : Time) :
    Within L s₀ (dropLine s t l at_) ↔ Within L s₀ s := by
  unfold dropLine
  split <;> simp [h]

@[simp] theorem loseQueued_within (h : .regs ∈ L ∧ .arr ∈ L ∧ .pipe ∈ L ∧ .mem ∈ L ∧ .fm ∈ L) (at_ : Time) :
    Within L s₀ (loseQueued s at_) ↔ Within L s₀ s := by
  simp only [loseQueued]
  refine within_foldl fun r t => ?_
  simp [h]

@[simp] theorem emitLine_within (h : .regs ∈ L ∧ .log ∈ L ∧ .ports ∈ L ∧ .arr ∈ L ∧ .pipe ∈ L ∧ .mem ∈ L ∧ .fm ∈ L)
    (t : Nat) (l : Line) (at_ : Time) :
    Within L s₀ (emitLine s t l at_) ↔ Within L s₀ s := by
  simp [emitLine, h]

@[simp] theorem takeLine_within (h : .regs ∈ L ∧ .log ∈ L ∧ .ports ∈ L ∧ .arr ∈ L ∧ .pipe ∈ L ∧ .mem ∈ L ∧ .fm ∈ L)
    (t : Nat) (crcOk : Bool) (at_ : Time) :
    Within L s₀ (takeLine s t crcOk at_) ↔ Within L s₀ s := by
  simp only [takeLine]
  (repeat' split) <;> simp [h]

@[simp] theorem overheadTile_within (h : .arr ∈ L) (g : Settings) (k t : Nat) (counts : List (Nat × Nat)) :
    Within L s₀ (overheadTile s g k t counts) ↔ Within L s₀ s := by
  simp [overheadTile, h]

@[simp] theorem closeOverhead_within (h : .arr ∈ L) (g : Settings) (t : Nat) (err : Int) (alpha0 : Bool) :
    Within L s₀ (closeOverhead s g t err alpha0) ↔ Within L s₀ s := by
  simp [closeOverhead, h]

@[simp] theorem openOverhead_within (h : .arr ∈ L) : Within L s₀ (openOverhead s) ↔ Within L s₀ s := by
  simp [openOverhead, h]

@[simp] theorem overheadSlot_within (h : .regs ∈ L ∧ .log ∈ L ∧ .ports ∈ L ∧ .arr ∈ L)
    (samples : List (TileIx × List (Nat × Nat))) (ramp : List (TileIx × Int)) (t : Time) :
    Within L s₀ (overheadSlot s samples ramp t) ↔ Within L s₀ s := by
  simp only [overheadSlot]
  (repeat' split) <;> simp [h]

@[simp] theorem statLine_within (h : .arr ∈ L) (f : Frame) (t i : Nat) (codes : List Nat) :
    Within L s₀ (statLine s f t i codes) ↔ Within L s₀ s := by
  simp [statLine, h]

@[simp] theorem spillLost_within (h : .regs ∈ L ∧ .log ∈ L ∧ .ports ∈ L ∧ .arr ∈ L) (f : Frame) (t : Nat) (at_ : Time) :
    Within L s₀ (spillLost s f t at_) ↔ Within L s₀ s := by
  simp [spillLost, h]

@[simp] theorem slotTile_within (h : .regs ∈ L ∧ .log ∈ L ∧ .ports ∈ L ∧ .arr ∈ L ∧ .pipe ∈ L ∧ .mem ∈ L ∧ .fm ∈ L)
    (num t i q : Nat) (counts : List (Nat × Nat)) (at_ : Time) :
    Within L s₀ (slotTile s num t i q counts at_) ↔ Within L s₀ s := by
  unfold slotTile
  split <;> simp [h]

@[simp] theorem publishTile_within (h : .free ∈ L ∧ .regs ∈ L) (f : Frame) (x : TileStat) : Within L s₀ (publishTile s f x) ↔ Within L s₀ s := by
  unfold publishTile drawFree
  dsimp only
  simp [h]

@[simp] theorem endFrame_within (h : .free ∈ L ∧ .regs ∈ L ∧ .ports ∈ L ∧ .arr ∈ L ∧ .pipe ∈ L) (num : Nat) (at_ : Time) :
    Within L s₀ (endFrame s num at_) ↔ Within L s₀ s := by
  unfold endFrame
  split <;> simp [h]

@[simp] theorem haltArray_within (h : .arr ∈ L) : Within L s₀ (haltArray s) ↔ Within L s₀ s := by
  simp [haltArray, h]

@[simp] theorem dropTrigAt_within (h : .regs ∈ L ∧ .arr ∈ L) : Within L s₀ (dropTrigAt s) ↔ Within L s₀ s := by
  simp [dropTrigAt, h]

@[simp] theorem maybeHalt_within (h : .arr ∈ L) : Within L s₀ (maybeHalt s) ↔ Within L s₀ s := by
  simp [maybeHalt, h]

@[simp] theorem issueFetches_within (h : .arr ∈ L ∧ .mem ∈ L) (f : Frame) (t : Time) : Within L s₀ (issueFetches s f t) ↔ Within L s₀ s := by
  unfold issueFetches
  refine within_either .rfl (within_foldl fun r x => ?_)
  simp [h]

@[simp] theorem cutArray_within (h : .regs ∈ L ∧ .ports ∈ L ∧ .arr ∈ L ∧ .pipe ∈ L) (t : Time) : Within L s₀ (cutArray s t) ↔ Within L s₀ s := by
  simp [cutArray, h]

@[simp] theorem rowSlot_within (h : .free ∈ L ∧ .regs ∈ L ∧ .log ∈ L ∧ .ports ∈ L ∧ .arr ∈ L ∧ .pipe ∈ L ∧ .mem ∈ L ∧ .fm ∈ L)
    (samples : List (TileIx × List (Nat × Nat))) (t : Time) :
    Within L s₀ (rowSlot s samples t) ↔ Within L s₀ s := by
  simp only [rowSlot]
  (repeat' split) <;> simp [h]

@[simp] theorem numberFrame_within (h : .arr ∈ L ∧ .pio ∈ L) (n : Nat) (trig : Bool) (t : Time) :
    Within L s₀ (numberFrame s n trig t) ↔ Within L s₀ s := by
  simp [numberFrame, h]

@[simp] theorem enterFrame_within (h : .regs ∈ L ∧ .ports ∈ L ∧ .arr ∈ L ∧ .pipe ∈ L ∧ .ring ∈ L) (f : Frame) (t : Time) :
    Within L s₀ (enterFrame s f t) ↔ Within L s₀ s := by
  simp [enterFrame, h]

@[simp] theorem frameStart_within (h : .regs ∈ L ∧ .ports ∈ L ∧ .arr ∈ L ∧ .pipe ∈ L ∧ .ring ∈ L ∧ .pio ∈ L) (t : Time) :
    Within L s₀ (frameStart s t) ↔ Within L s₀ s := by
  unfold frameStart
  split <;> simp [h]

@[simp] theorem latchNext_within (h : .regs ∈ L ∧ .ports ∈ L ∧ .arr ∈ L ∧ .pipe ∈ L ∧ .mem ∈ L ∧ .ring ∈ L ∧ .th ∈ L) (t : Time) :
    Within L s₀ (latchNext s t) ↔ Within L s₀ s := by
  simp only [latchNext]
  split <;> simp [h]

@[simp] theorem startArrayAt_within (h : .arr ∈ L) (t : Time) : Within L s₀ (startArrayAt s t) ↔ Within L s₀ s := by
  simp [startArrayAt, h]

@[simp] theorem stopArrayNow_within (h : .regs ∈ L ∧ .ports ∈ L ∧ .arr ∈ L ∧ .pipe ∈ L) (t : Time) :
    Within L s₀ (stopArrayNow s t) ↔ Within L s₀ s := by
  simp [stopArrayNow, h]

@[simp] theorem killArray_within (h : .regs ∈ L ∧ .ports ∈ L ∧ .arr ∈ L ∧ .pipe ∈ L ∧ .mem ∈ L ∧ .fm ∈ L) (t : Time) :
    Within L s₀ (killArray s t) ↔ Within L s₀ s := by
  simp [killArray, h]

@[simp] theorem dropLate_within (h : .regs ∈ L ∧ .ports ∈ L ∧ .arr ∈ L ∧ .pipe ∈ L) (stamp t : Time) :
    Within L s₀ (dropLate s stamp t) ↔ Within L s₀ s := by
  simp only [dropLate]
  (repeat' split) <;> simp [h]

@[simp] theorem stopArrayAfter_within (h : .regs ∈ L ∧ .ports ∈ L ∧ .arr ∈ L ∧ .pipe ∈ L) (stamp t : Time) :
    Within L s₀ (stopArrayAfter s stamp t) ↔ Within L s₀ s := by
  simp [stopArrayAfter, h]

@[simp] theorem State.modAux_within (h : .aux ∈ L) (n : Nat) (f : AuxIn → AuxIn) : Within L s₀ (State.modAux s n f) ↔ Within L s₀ s := by
  simp [State.modAux, h]

@[simp] theorem State.modVc_within (h : .aux ∈ L) (n v : Nat) (f : AuxVc → AuxVc) : Within L s₀ (State.modVc s n v f) ↔ Within L s₀ s := by
  simp [State.modVc, h]

@[simp] theorem auxEnter_within (h : .aux ∈ L) (n : Nat) (t : Time) : Within L s₀ (auxEnter s n t) ↔ Within L s₀ s := by
  simp [auxEnter, h]

@[simp] theorem startAllAux_within (h : .aux ∈ L) (t : Time) : Within L s₀ (startAllAux s t) ↔ Within L s₀ s := by
  simp [startAllAux, h]

@[simp] theorem stopAllAux_within (h : .regs ∈ L ∧ .log ∈ L ∧ .ports ∈ L ∧ .aux ∈ L) (t : Time) :
    Within L s₀ (stopAllAux s t) ↔ Within L s₀ s := by
  simp [stopAllAux, h]

@[simp] theorem auxSoftIn_within (h : .pipe ∈ L ∧ .aux ∈ L) (n v : Nat) (stamp : Time) (soft : List Nat) :
    Within L s₀ (auxSoftIn s n v stamp soft) ↔ Within L s₀ s := by
  simp only [auxSoftIn]
  split <;> simp [h]

@[simp] theorem auxConfigured_within (h : .regs ∈ L ∧ .log ∈ L ∧ .ports ∈ L ∧ .pipe ∈ L ∧ .aux ∈ L)
    (n : Nat) (stamp : Time) (hard : Bool) (t : Time) :
    Within L s₀ (auxConfigured s n stamp hard t) ↔ Within L s₀ s := by
  simp [auxConfigured, h]

@[simp] theorem unpackLine_within (h : .free ∈ L) (dt : Nat) (b : List Byte) : Within L s₀ (unpackLine s dt b).2 ↔ Within L s₀ s := by
  simp only [unpackLine]
  split <;> simp [h]

@[simp] theorem auxDeliver_within (h : .pipe ∈ L ∧ .mem ∈ L ∧ .fm ∈ L) (n v row : Nat) (got : List Nat) (flags : Nat) (full : Bool) (t : Time) :
    Within L s₀ (auxDeliver s n v row got flags full t) ↔ Within L s₀ s := by
  simp [auxDeliver, h]

@[simp] theorem closeAuxFrame_within (h : .regs ∈ L ∧ .ports ∈ L ∧ .pipe ∈ L ∧ .aux ∈ L ∧ .mem ∈ L ∧ .fm ∈ L) (n v extra : Nat) (t : Time) :
    Within L s₀ (closeAuxFrame s n v extra t) ↔ Within L s₀ s := by
  simp [closeAuxFrame, h]

@[simp] theorem countLate_within (h : .regs ∈ L ∧ .pipe ∈ L) (n v : Nat) (t : Time) : Within L s₀ (countLate s n v t) ↔ Within L s₀ s := by
  simp [countLate, h]

@[simp] theorem openAuxFrame_within (h : .regs ∈ L ∧ .ports ∈ L ∧ .pipe ∈ L ∧ .aux ∈ L ∧ .mem ∈ L ∧ .fm ∈ L ∧ .ring ∈ L) (n v : Nat) (t : Time) :
    Within L s₀ (openAuxFrame s n v t) ↔ Within L s₀ s := by
  simp only [openAuxFrame]
  split <;> simp [h]

@[simp] theorem rxHello_within (h : .ports ∈ L) (p : PortIx) (b : List Byte) (t : Time) : Within L s₀ (rxHello s p b t) ↔ Within L s₀ s := by
  simp [rxHello, h]

@[simp] theorem clockBlock_within (h : .free ∈ L ∧ .ports ∈ L) (p : PortIx) (inverted : Bool) (t : Time) :
    Within L s₀ (clockBlock s p inverted t) ↔ Within L s₀ s := by
  simp [clockBlock, drawFree, h]

@[simp] theorem rxLanes_within (h : .ports ∈ L) (p : PortIx) (b : List Byte) (t : Time) : Within L s₀ (rxLanes s p b t) ↔ Within L s₀ s := by
  simp [rxLanes, h]

@[simp] theorem rxDeskew_within (h : .regs ∈ L ∧ .ports ∈ L) (p : PortIx) (b : List Byte) (t : Time) :
    Within L s₀ (rxDeskew s p b t) ↔ Within L s₀ s := by
  simp [rxDeskew, h]

@[simp] theorem rxEq_within (h : .ports ∈ L) (p : PortIx) (b : List Byte) (t : Time) : Within L s₀ (rxEq s p b t) ↔ Within L s₀ s := by
  simp [rxEq, h]

@[simp] theorem rxRate_within (h : .ports ∈ L) (p : PortIx) (b : List Byte) (t : Time) : Within L s₀ (rxRate s p b t) ↔ Within L s₀ s := by
  simp [rxRate, h]

@[simp] theorem actBlock_within (h : .regs ∈ L ∧ .ports ∈ L) (p : PortIx) (b : List Byte) (t : Time) :
    Within L s₀ (actBlock s p b t) ↔ Within L s₀ s := by
  unfold actBlock
  split <;> simp [h]

@[simp] theorem endLoss_within (h : .regs ∈ L ∧ .ports ∈ L) (p : PortIx) (lol : Bool) (t : Time) :
    Within L s₀ (endLoss s p lol t) ↔ Within L s₀ s := by
  simp [endLoss, h]

@[simp] theorem freqWindow_within (h : .regs ∈ L ∧ .ports ∈ L) (p : PortIx) (ppm : Int) (t : Time) :
    Within L s₀ (freqWindow s p ppm t) ↔ Within L s₀ s := by
  simp [freqWindow, h]

@[simp] theorem inject_within (h : .regs ∈ L ∧ .ports ∈ L) (p : PortIx) : Within L s₀ (inject s p) ↔ Within L s₀ s := by
  simp [inject, h]

@[simp] theorem beginTest_within (h : .free ∈ L ∧ .regs ∈ L ∧ .ports ∈ L ∧ .sb ∈ L ∧ .fwq ∈ L ∧ .slow ∈ L ∧ .pipe ∈ L) (p : PortIx) (t : Time) :
    Within L s₀ (beginTest s p t) ↔ Within L s₀ s := by
  simp [beginTest, h]

@[simp] theorem deliver_within (h : .ports ∈ L) (p : PortIx) (type : Nat) (body : List Byte) (stamp : Time) :
    Within L s₀ (deliver s p type body stamp) ↔ Within L s₀ s := by
  simp [deliver, h]

@[simp] theorem takeIn_within (h : .ports ∈ L) (p : PortIx) (type : Nat) (body : List Byte) (t : Time) :
    Within L s₀ (takeIn s p type body t).2 ↔ Within L s₀ s := by
  simp only [takeIn]
  split <;> simp [h]

@[simp] theorem refusePacket_within (h : .ports ∈ L) (p : PortIx) : Within L s₀ (refusePacket s p) ↔ Within L s₀ s := by
  simp [refusePacket, h]

@[simp] theorem postEntries_within (h : .ports ∈ L) (p : PortIx) (es : List (List Byte)) (due : Option Time) :
    Within L s₀ (postEntries s p es due) ↔ Within L s₀ s := by
  simp [postEntries, h]

@[simp] theorem postRsp_within (h : .ports ∈ L) (p : PortIx) (r : Rsp) (rest : List Rsp) : Within L s₀ (postRsp s p r rest) ↔ Within L s₀ s := by
  simp [postRsp, h]

@[simp] theorem postNext_within (h : .ports ∈ L) (p : PortIx) : Within L s₀ (postNext s p) ↔ Within L s₀ s := by
  simp only [postNext]
  split <;> simp [h]

@[simp] theorem postMany_within (h : .ports ∈ L) (n : Nat) (p : PortIx) : Within L s₀ (postMany n s p) ↔ Within L s₀ s := by
  induction n generalizing s with
  | zero => simp [postMany]
  | succ n ih => simp [postMany, ih, h]

@[simp] theorem doorbellsDue_within (h : .ports ∈ L) (p : PortIx) (t : Time) : Within L s₀ (doorbellsDue s p t) ↔ Within L s₀ s := by
  refine within_foldl fun r i => ?_
  split
  · simp [h]
  · rfl

@[simp] theorem takeCmd_within (h : .regs ∈ L ∧ .ports ∈ L) (p : PortIx) (pkt : List Byte) (seq : Nat) (t : Time) :
    Within L s₀ (takeCmd s p pkt seq t) ↔ Within L s₀ s := by
  simp [takeCmd, h]

@[simp] theorem rxReliable_within (h : .regs ∈ L ∧ .log ∈ L ∧ .ports ∈ L ∧ .sb ∈ L ∧ .fwq ∈ L ∧ .rs ∈ L ∧ .mem ∈ L)
    (p : PortIx) (sop eop : Bool) (pay : List Byte) (t : Time) :
    Within L s₀ (rxReliable s p sop eop pay t) ↔ Within L s₀ s := by
  simp [rxReliable, h]

@[simp] theorem rxCell_within (h : .regs ∈ L ∧ .log ∈ L ∧ .ports ∈ L ∧ .sb ∈ L ∧ .fwq ∈ L ∧ .rs ∈ L ∧ .mem ∈ L)
    (p : PortIx) (cell : List Byte) (t : Time) :
    Within L s₀ (rxCell s p cell t) ↔ Within L s₀ s := by
  simp only [rxCell]
  (repeat' split) <;> simp [h]

@[simp] theorem rxCells_within (h : .regs ∈ L ∧ .log ∈ L ∧ .ports ∈ L ∧ .sb ∈ L ∧ .fwq ∈ L ∧ .rs ∈ L ∧ .mem ∈ L)
    (p : PortIx) (bytes : List Byte) (t : Time) :
    Within L s₀ (rxCells s p bytes t) ↔ Within L s₀ s := by
  simp [rxCells, h]

@[simp] theorem creditDue_within (h : .ports ∈ L) (p : PortIx) (t : Time) : Within L s₀ (creditDue s p t) ↔ Within L s₀ s := by
  refine within_foldl fun r i => ?_
  split
  · simp [h]
  · rfl

@[simp] theorem emitCell_within (h : .ports ∈ L) (p : PortIx) (cell : List Byte) : Within L s₀ (emitCell s p cell) ↔ Within L s₀ s := by
  simp [emitCell, h]

@[simp] theorem takeCredit_within (h : .ports ∈ L) (p : PortIx) (v : Nat) : Within L s₀ (takeCredit s p v) ↔ Within L s₀ s := by
  simp [takeCredit, h]

@[simp] theorem judgeDue_within (h : .regs ∈ L ∧ .misses ∈ L) (due : Option Time) (imm : Bool) (t : Time) :
    Within L s₀ (judgeDue s due imm t) ↔ Within L s₀ s := by
  simp [judgeDue, h]

@[simp] theorem countMiss_within (h : .regs ∈ L ∧ .ports ∈ L ∧ .misses ∈ L) (p : PortIx) (k : RelPkt) (t : Time) :
    Within L s₀ (countMiss s p k t) ↔ Within L s₀ s := by
  simp only [countMiss]
  (repeat' split) <;> simp [h]

@[simp] theorem msgSent_within (h : .free ∈ L ∧ .regs ∈ L ∧ .ports ∈ L ∧ .sb ∈ L ∧ .fwq ∈ L ∧ .slow ∈ L ∧ .rs ∈ L ∧ .pipe ∈ L)
    (p : PortIx) (ident : Nat) (t : Time) :
    Within L s₀ (msgSent s p ident t) ↔ Within L s₀ s := by
  simp only [msgSent]
  (repeat' split) <;> simp [h]

@[simp] theorem sendAgain_within (h : .regs ∈ L ∧ .ports ∈ L) (p : PortIx) : Within L s₀ (sendAgain s p) ↔ Within L s₀ s := by
  simp only [sendAgain]
  split <;> simp [h]

@[simp] theorem sendNew_within (h : .free ∈ L ∧ .regs ∈ L ∧ .ports ∈ L ∧ .sb ∈ L ∧ .fwq ∈ L ∧ .slow ∈ L ∧ .misses ∈ L ∧ .rs ∈ L ∧ .pipe ∈ L ∧ .mem ∈
    L)
    (p : PortIx) (t : Time) :
    Within L s₀ (sendNew s p t) ↔ Within L s₀ s := by
  simp only [sendNew]
  split <;> simp [h]

@[simp] theorem sendVideo_within (h : .ports ∈ L ∧ .mem ∈ L ∧ .fm ∈ L ∧ .ring ∈ L) (p : PortIx) (v : Nat) (t : Time) :
    Within L s₀ (sendVideo s p v t) ↔ Within L s₀ s := by
  unfold sendVideo
  split <;> simp [h]

@[simp] theorem answerRaw_within (h : .ports ∈ L) (p : PortIx) (h' : List Byte) (r : Reject) (slots : Nat) (t : Time) :
    Within L s₀ (answerRaw s p h' r slots t) ↔ Within L s₀ s := by
  simp [answerRaw, h]

@[simp] theorem countClass_within (h : .regs ∈ L) (e : List Byte) : Within L s₀ (countClass s e) ↔ Within L s₀ s := by
  simp [countClass, h]

@[simp] theorem handOver_within (h : .regs ∈ L ∧ .fwq ∈ L) (src : Src) (e payload : List Byte) (slots : Nat) (beyond : Option Nat) (t : Time) :
    Within L s₀ (handOver s src e payload slots beyond t) ↔ Within L s₀ s := by
  simp [handOver, h]

@[simp] theorem dispatchRequest_within (h : .regs ∈ L ∧ .ports ∈ L ∧ .fwq ∈ L)
    (p : PortIx) (e payload : List Byte) (count : Nat) (bad : Bool) (beyond : Option Nat) (t : Time) :
    Within L s₀ (dispatchRequest s p e payload count bad beyond t) ↔ Within L s₀ s := by
  simp only [dispatchRequest]
  (repeat' split) <;> simp [h]

@[simp] theorem firstEntry_within (h : .regs ∈ L ∧ .ports ∈ L ∧ .fwq ∈ L) (p : PortIx) (e : List Byte) (t : Time) :
    Within L s₀ (firstEntry s p e t) ↔ Within L s₀ s := by
  simp [firstEntry, h]

@[simp] theorem closeChain_within (h : .regs ∈ L ∧ .ports ∈ L) (p : PortIx) (c : Chain) (r : Reject) (t : Time) :
    Within L s₀ (closeChain s p c r t) ↔ Within L s₀ s := by
  simp [closeChain, h]

@[simp] theorem joinEntry_within (h : .regs ∈ L ∧ .ports ∈ L ∧ .fwq ∈ L) (p : PortIx) (e : List Byte) (t : Time) :
    Within L s₀ (joinEntry s p e t) ↔ Within L s₀ s := by
  unfold joinEntry
  split <;> simp [h]

@[simp] theorem sbWrite_within (h : .sb ∈ L) (l : List Byte) : Within L s₀ (sbWrite s l) ↔ Within L s₀ s := by
  simp [sbWrite, h]

@[simp] theorem sbAnswer_within (h : .sb ∈ L) (e : List Byte) (r : Reject) (t : Time) : Within L s₀ (sbAnswer s e r t) ↔ Within L s₀ s := by
  simp [sbAnswer, h]

@[simp] theorem recordBist_within (h : .regs ∈ L ∧ .diag ∈ L) (fails : List Nat) : Within L s₀ (recordBist s fails) ↔ Within L s₀ s := by
  simp [recordBist, h]

@[simp] theorem finishConv_within (h : .regs ∈ L ∧ .log ∈ L ∧ .ports ∈ L ∧ .diag ∈ L) (fails : List Nat) (t : Time) :
    Within L s₀ (finishConv s fails t) ↔ Within L s₀ s := by
  simp [finishConv, h]

@[simp] theorem finishMemBist_within (h : .regs ∈ L ∧ .log ∈ L ∧ .ports ∈ L ∧ .diag ∈ L ∧ .mem ∈ L ∧ .fm ∈ L) (fails : List Nat) (t : Time) :
    Within L s₀ (finishMemBist s fails t) ↔ Within L s₀ s := by
  simp [finishMemBist, h]

@[simp] theorem finishLinkBist_within (h : .regs ∈ L ∧ .log ∈ L ∧ .ports ∈ L ∧ .diag ∈ L) (fails : List Nat) (t : Time) :
    Within L s₀ (finishLinkBist s fails t) ↔ Within L s₀ s := by
  simp [finishLinkBist, h]

@[simp] theorem finishBist_within (h : .regs ∈ L ∧ .log ∈ L ∧ .ports ∈ L ∧ .diag ∈ L ∧ .mem ∈ L ∧ .fm ∈ L) (fails : List Nat) (t : Time) :
    Within L s₀ (finishBist s fails t) ↔ Within L s₀ s := by
  unfold finishBist
  split <;> simp [h]

@[simp] theorem noteState_within (h : .pw ∈ L) (t : Time) : Within L s₀ (noteState s t) ↔ Within L s₀ s := by
  simp [noteState, h]

@[simp] theorem startPumps_within (h : .diag ∈ L ∧ .pw ∈ L ∧ .rs ∈ L) (t : Time) : Within L s₀ (startPumps s t) ↔ Within L s₀ s := by
  simp [startPumps, h]

@[simp] theorem goStandby_within (h : .regs ∈ L ∧ .log ∈ L ∧ .ports ∈ L ∧ .pw ∈ L ∧ .arr ∈ L ∧ .pipe ∈ L ∧ .aux ∈ L ∧ .mem ∈ L ∧ .fm ∈ L ∧ .ring ∈ L)
    (t : Time) :
    Within L s₀ (goStandby s t) ↔ Within L s₀ s := by
  simp [goStandby, h]

@[simp] theorem settleLease_within (h : .regs ∈ L ∧ .leases ∈ L ∧ .leaseLog ∈ L ∧ .arrayLapsed ∈ L ∧ .ports ∈ L) (b : Nat) (stamp : Time) :
    Within L s₀ (settleLease s b stamp) ↔ Within L s₀ s := by
  unfold settleLease
  split <;> simp [h]

@[simp] theorem grantLease_within (h : .leases ∈ L ∧ .leaseLog ∈ L ∧ .lastArrayHolder ∈ L ∧ .arrayLapsed ∈ L ∧ .arr ∈ L)
    (b : Nat) (p : PortIx) (term : Nat) (t : Time) :
    Within L s₀ (grantLease s b p term t) ↔ Within L s₀ s := by
  simp [grantLease, h]

@[simp] theorem startBist_within (h : .diag ∈ L) (kind port : Nat) (t : Time) : Within L s₀ (startBist s kind port t) ↔ Within L s₀ s := by
  simp [startBist, h]

@[simp] theorem stage_within (h : .arr ∈ L) (f : Settings → Settings) : Within L s₀ (stage s f) ↔ Within L s₀ s := by
  simp [stage, h]

@[simp] theorem governorOff_within (h : .arr ∈ L) : Within L s₀ (governorOff s) ↔ Within L s₀ s := by
  simp [governorOff, h]

@[simp] theorem reserveSpill_within (h : .arr ∈ L ∧ .mem ∈ L ∧ .fm ∈ L) (g : Settings) : Within L s₀ (reserveSpill s g) ↔ Within L s₀ s := by
  unfold reserveSpill
  cases s.arr.spillPend <;> refine within_either (by simp [h]) ?_ <;> split <;> simp [h]

@[simp] theorem keepStats_within (h : .arr ∈ L) (r : StatRec) : Within L s₀ (keepStats s r) ↔ Within L s₀ s := by
  simp [keepStats, h]

@[simp] theorem sendStats_within (h : .ports ∈ L) (views : List Nat) (r : StatRec) : Within L s₀ (sendStats s views r) ↔ Within L s₀ s := by
  simp [sendStats, h]

@[simp] theorem updateBorder_within (h : .th ∈ L) (f : Frame) : Within L s₀ (updateBorder s f) ↔ Within L s₀ s := by
  simp [updateBorder, h]

@[simp] theorem govOutput_within (h : .arr ∈ L) (n : Nat) (tg t : Time) : Within L s₀ (govOutput s n tg t) ↔ Within L s₀ s := by
  unfold govOutput
  split <;> simp [h]

@[simp] theorem auxPacket_within (h : .regs ∈ L ∧ .aux ∈ L) (n vc hdr : Nat) : Within L s₀ (auxPacket s n vc hdr).1 ↔ Within L s₀ s := by
  simp only [auxPacket]
  (repeat' split) <;> simp [h]

@[simp] theorem auxLine_within (h : .free ∈ L ∧ .regs ∈ L ∧ .log ∈ L ∧ .ports ∈ L ∧ .pipe ∈ L ∧ .aux ∈ L ∧ .mem ∈ L ∧ .fm ∈ L)
    (n v : Nat) (payload : List Byte) (crcOk : Bool) (t : Time) :
    Within L s₀ (auxLine s n v payload crcOk t) ↔ Within L s₀ s := by
  have hread : Within L s₀ (unpackLine (s.modVc n v (fun c => { c with lines := c.lines + 1 })) (auxDt s n v) payload).2 ↔
      Within L s₀ s := by simp [h]
  unfold auxLine
  refine within_either (by simp [h]) ?_
  generalize unpackLine (s.modVc n v (fun c => { c with lines := c.lines + 1 })) (auxDt s n v) payload = u at hread ⊢
  obtain ⟨l, r⟩ := u
  simpa [h] using hread

@[simp] theorem auxApply_within (h : .regs ∈ L ∧ .log ∈ L ∧ .ports ∈ L ∧ .pipe ∈ L ∧ .aux ∈ L) (n : Nat) (l : List (Nat × Nat)) (stamp t : Time) :
    Within L s₀ (auxApply s n l stamp t) ↔ Within L s₀ s := by
  simp [auxApply, h]

@[simp] theorem State.modHold_within (h : .hold ∈ L) (f : Hold → Hold) : Within L s₀ (State.modHold s f) ↔ Within L s₀ s := by
  simp [State.modHold, h]

@[simp] theorem holdFault_within (h : .regs ∈ L ∧ .log ∈ L ∧ .ports ∈ L ∧ .hold ∈ L) (k : Nat) (t : Time) :
    Within L s₀ (holdFault s k t) ↔ Within L s₀ s := by
  simp [holdFault, h]

@[simp] theorem holdClear_within (h : .regs ∈ L ∧ .log ∈ L ∧ .ports ∈ L ∧ .hold ∈ L) (k : Nat) (t : Time) :
    Within L s₀ (holdClear s k t) ↔ Within L s₀ s := by
  simp [holdClear, h]

@[simp] theorem holdFaultIf_within (h : .regs ∈ L ∧ .log ∈ L ∧ .ports ∈ L ∧ .hold ∈ L) (k : Nat) (bad : Bool) (t : Time) :
    Within L s₀ (holdFaultIf s k bad t) ↔ Within L s₀ s := by
  simp [holdFaultIf, h]

@[simp] theorem updateReady_within (h : .regs ∈ L ∧ .log ∈ L ∧ .ports ∈ L ∧ .hold ∈ L) (t : Time) :
    Within L s₀ (updateReady s t) ↔ Within L s₀ s := by
  simp [updateReady, h]

@[simp] theorem beginPulse_within (h : .hold ∈ L) (t : Time) : Within L s₀ (beginPulse s t) ↔ Within L s₀ s := by
  simp [beginPulse, h]

@[simp] theorem setPhase_within (h : .hold ∈ L) (p : ChgPhase) : Within L s₀ (setPhase s p) ↔ Within L s₀ s := by
  simp [setPhase, h]

@[simp] theorem chargeFault_within (h : .regs ∈ L ∧ .log ∈ L ∧ .ports ∈ L ∧ .hold ∈ L) (k : Nat) (t : Time) :
    Within L s₀ (chargeFault s k t) ↔ Within L s₀ s := by
  simp [chargeFault, h]

@[simp] theorem applySuspend_within (h : .hold ∈ L) (t : Time) : Within L s₀ (applySuspend s t) ↔ Within L s₀ s := by
  simp [applySuspend, h]

@[simp] theorem checkOvervolt_within (h : .regs ∈ L ∧ .log ∈ L ∧ .ports ∈ L ∧ .hold ∈ L) (t : Time) :
    Within L s₀ (checkOvervolt s t) ↔ Within L s₀ s := by
  simp [checkOvervolt, h]

@[simp] theorem startCharger_within (h : .regs ∈ L ∧ .log ∈ L ∧ .ports ∈ L ∧ .hold ∈ L) (t : Time) :
    Within L s₀ (startCharger s t) ↔ Within L s₀ s := by
  simp [startCharger, h]

@[simp] theorem enChanged_within (h : .regs ∈ L ∧ .log ∈ L ∧ .ports ∈ L ∧ .hold ∈ L) (was : Bool) (t : Time) :
    Within L s₀ (enChanged s was t) ↔ Within L s₀ s := by
  simp only [enChanged]
  (repeat' split) <;> simp [h]

@[simp] theorem readNtc_within (h : .regs ∈ L ∧ .log ∈ L ∧ .ports ∈ L ∧ .hold ∈ L) (ohm : Nat) (t : Time) :
    Within L s₀ (readNtc s ohm t) ↔ Within L s₀ s := by
  simp [readNtc, h]

@[simp] theorem holdBoot_within (h : .regs ∈ L ∧ .log ∈ L ∧ .ports ∈ L ∧ .hold ∈ L) (t : Time) : Within L s₀ (holdBoot s t) ↔ Within L s₀ s := by
  simp only [holdBoot]
  split <;> simp [h]

@[simp] theorem measureOcv_within (h : .regs ∈ L ∧ .log ∈ L ∧ .ports ∈ L ∧ .hold ∈ L) (ocv : Nat) (t : Time) :
    Within L s₀ (measureOcv s ocv t) ↔ Within L s₀ s := by
  simp [measureOcv, h]

@[simp] theorem phaseMove_within (h : .hold ∈ L) (t : Time) : Within L s₀ (phaseMove s t) ↔ Within L s₀ s := by
  simp only [phaseMove]
  split <;> simp [h]

@[simp] theorem holdApply_within (h : .regs ∈ L ∧ .log ∈ L ∧ .ports ∈ L ∧ .hold ∈ L) (ctl cfg ilim ntcB : Nat) (t : Time) :
    Within L s₀ (holdApply s ctl cfg ilim ntcB t) ↔ Within L s₀ s := by
  simp [holdApply, h]

@[simp] theorem issue_within (h : .regs ∈ L ∧ .log ∈ L ∧ .ports ∈ L ∧ .mem ∈ L) (e : MemEnt) (rotating : Bool) (t : Time) :
    Within L s₀ (issue s e rotating t) ↔ Within L s₀ s := by
  simp [issue, h]

@[simp] theorem ckIssue_within (h : .regs ∈ L ∧ .log ∈ L ∧ .ports ∈ L ∧ .mem ∈ L) (k : CkEnt) (t : Time) :
    Within L s₀ (ckIssue s k t) ↔ Within L s₀ s := by
  simp [ckIssue, h]

@[simp] theorem loseFetches_within (h : .arr ∈ L) : Within L s₀ (loseFetches s) ↔ Within L s₀ s := by
  simp [loseFetches, h]

@[simp] theorem freeze_within (h : .regs ∈ L ∧ .log ∈ L ∧ .ports ∈ L ∧ .arr ∈ L ∧ .pipe ∈ L ∧ .mem ∈ L)
    (check : Bool) (u syn c i : Nat) (rmw : Bool) (q : Nat) (t : Time) :
    Within L s₀ (freeze s check u syn c i rmw q t) ↔ Within L s₀ s := by
  simp [freeze, h]

@[simp] theorem sealAcks_within (h : .mem ∈ L) (t : Time) : Within L s₀ (sealAcks s t) ↔ Within L s₀ s := by
  simp only [sealAcks]
  simp [h, ↓within_ite, ↓within_foldl, ↓State.modMem_within]

@[simp] theorem startSweep_within (h : .mem ∈ L) (prior : MemSt) (b : Nat) : Within L s₀ (startSweep s prior b) ↔ Within L s₀ s := by
  simp [startSweep, h]

@[simp] theorem endRecover_within (h : .regs ∈ L ∧ .ports ∈ L ∧ .sb ∈ L ∧ .slow ∈ L) (ok : Bool) (t : Time) :
    Within L s₀ (endRecover s ok t) ↔ Within L s₀ s := by
  unfold endRecover
  split <;> simp [h]

@[simp] theorem failRequests_within (h : .mem ∈ L ∧ .fm ∈ L) (all : Bool) : Within L s₀ (failRequests s all) ↔ Within L s₀ s := by
  simp [failRequests, h]

@[simp] theorem memUnavail_within (h : .regs ∈ L ∧ .log ∈ L ∧ .ports ∈ L ∧ .sb ∈ L ∧ .fwq ∈ L ∧ .slow ∈ L ∧ .arr ∈ L ∧ .pipe ∈ L ∧ .aux ∈ L ∧ .mem ∈
    L ∧ .fm ∈ L ∧ .ring ∈ L)
    (t : Time) :
    Within L s₀ (memUnavail s t) ↔ Within L s₀ s := by
  simp [memUnavail, h]

@[simp] theorem relockPllm_within (h : .regs ∈ L ∧ .log ∈ L ∧ .ports ∈ L ∧ .sb ∈ L ∧ .fwq ∈ L ∧ .slow ∈ L ∧ .pw ∈ L ∧ .arr ∈ L ∧ .pipe ∈ L ∧ .aux ∈ L
    ∧ .mem ∈ L ∧ .fm ∈ L ∧ .ring ∈ L)
    (t : Time) :
    Within L s₀ (relockPllm s t) ↔ Within L s₀ s := by
  simp [relockPllm, h]

@[simp] theorem changeFlush_within (h : .regs ∈ L ∧ .log ∈ L ∧ .ports ∈ L ∧ .sb ∈ L ∧ .fwq ∈ L ∧ .slow ∈ L ∧ .pw ∈ L ∧ .arr ∈ L ∧ .pipe ∈ L ∧ .aux ∈
    L ∧ .mem ∈ L ∧ .fm ∈ L ∧ .ring ∈ L)
    (t : Time) :
    Within L s₀ (changeFlush s t) ↔ Within L s₀ s := by
  simp [changeFlush, h]

@[simp] theorem acceptChange_within (h : .regs ∈ L ∧ .log ∈ L ∧ .ports ∈ L ∧ .sb ∈ L ∧ .fwq ∈ L ∧ .slow ∈ L ∧ .pw ∈ L ∧ .arr ∈ L ∧ .pipe ∈ L ∧ .aux ∈
    L ∧ .mem ∈ L ∧ .fm ∈ L ∧ .ring ∈ L)
    (t : Time) :
    Within L s₀ (acceptChange s t) ↔ Within L s₀ s := by
  simp [acceptChange, h]

@[simp] theorem requestChange_within (h : .regs ∈ L ∧ .log ∈ L ∧ .ports ∈ L ∧ .sb ∈ L ∧ .fwq ∈ L ∧ .slow ∈ L ∧ .pw ∈ L ∧ .arr ∈ L ∧ .pipe ∈ L ∧ .aux
    ∈ L ∧ .mem ∈ L ∧ .fm ∈ L ∧ .ring ∈ L)
    (t : Time) :
    Within L s₀ (requestChange s t) ↔ Within L s₀ s := by
  simp only [requestChange]
  split <;> simp [h]

@[simp] theorem forceChange_within (h : .regs ∈ L ∧ .log ∈ L ∧ .ports ∈ L ∧ .sb ∈ L ∧ .fwq ∈ L ∧ .slow ∈ L ∧ .pw ∈ L ∧ .arr ∈ L ∧ .pipe ∈ L ∧ .aux ∈
    L ∧ .mem ∈ L ∧ .fm ∈ L ∧ .ring ∈ L)
    (t : Time) :
    Within L s₀ (forceChange s t) ↔ Within L s₀ s := by
  simp only [forceChange]
  (repeat' split) <;> simp [h]

@[simp] theorem setMemCap_within (h : .regs ∈ L ∧ .log ∈ L ∧ .ports ∈ L ∧ .sb ∈ L ∧ .fwq ∈ L ∧ .slow ∈ L ∧ .pw ∈ L ∧ .arr ∈ L ∧ .pipe ∈ L ∧ .aux ∈ L
    ∧ .mem ∈ L ∧ .fm ∈ L ∧ .ring ∈ L)
    (cap : Nat) (t : Time) :
    Within L s₀ (setMemCap s cap t) ↔ Within L s₀ s := by
  simp [setMemCap, h]

@[simp] theorem thawEnd_within (h : .regs ∈ L ∧ .log ∈ L ∧ .ports ∈ L ∧ .mem ∈ L ∧ .fm ∈ L ∧ .ring ∈ L) (t : Time) :
    Within L s₀ (thawEnd s t) ↔ Within L s₀ s := by
  simp [thawEnd, h]

@[simp] theorem memResume_within (h : .regs ∈ L ∧ .log ∈ L ∧ .ports ∈ L ∧ .sb ∈ L ∧ .fwq ∈ L ∧ .slow ∈ L ∧ .pw ∈ L ∧ .arr ∈ L ∧ .pipe ∈ L ∧ .aux ∈ L
    ∧ .mem ∈ L ∧ .fm ∈ L ∧ .ring ∈ L)
    (t : Time) :
    Within L s₀ (memResume s t) ↔ Within L s₀ s := by
  simp only [memResume]
  split <;> simp [h, ↓within_ite, ↓within_foldl, ↓State.modMem_within, ↓bulkRefill_within]

@[simp] theorem poisonUnit_within (h : .mem ∈ L ∧ .fm ∈ L) (t : Time) : Within L s₀ (poisonUnit s t) ↔ Within L s₀ s := by
  simp [poisonUnit, h]

@[simp] theorem recoverStep_within (h : .regs ∈ L ∧ .log ∈ L ∧ .ports ∈ L ∧ .sb ∈ L ∧ .fwq ∈ L ∧ .slow ∈ L ∧ .pw ∈ L ∧ .arr ∈ L ∧ .pipe ∈ L ∧ .aux ∈
    L ∧ .mem ∈ L ∧ .fm ∈ L ∧ .ring ∈ L)
    (t : Time) :
    Within L s₀ (recoverStep s t) ↔ Within L s₀ s := by
  unfold recoverStep
  split <;> simp [h]

@[simp] theorem memReturn_within (h : .regs ∈ L ∧ .log ∈ L ∧ .ports ∈ L ∧ .sb ∈ L ∧ .fwq ∈ L ∧ .slow ∈ L ∧ .pw ∈ L ∧ .arr ∈ L ∧ .pipe ∈ L ∧ .aux ∈ L
    ∧ .mem ∈ L ∧ .fm ∈ L ∧ .ring ∈ L)
    (t : Time) :
    Within L s₀ (memReturn s t) ↔ Within L s₀ s := by
  unfold memReturn
  split <;> simp [h, ↓within_ite, ↓State.modMem_within]

@[simp] theorem memDrift_within (h : .mem ∈ L) (t14 : Int) : Within L s₀ (memDrift s t14) ↔ Within L s₀ s := by
  simp only [memDrift]
  (repeat' split) <;> simp [h]

@[simp] theorem setRefmul_within (h : .mem ∈ L) : Within L s₀ (setRefmul s) ↔ Within L s₀ s := by
  simp [setRefmul, h]

@[simp] theorem corrected_within (h : .regs ∈ L ∧ .mem ∈ L) (e : MemEnt) (t : Time) : Within L s₀ (corrected s e t) ↔ Within L s₀ s := by
  simp [corrected, h]

@[simp] theorem finishEnt_within (h : .mem ∈ L) (e : MemEnt) (a : MemAns) : Within L s₀ (finishEnt s e a) ↔ Within L s₀ s := by
  simp [finishEnt, h]

@[simp] theorem writeDone_within (h : .mem ∈ L ∧ .fm ∈ L) (e : MemEnt) (mask : Nat) (b : List Byte) (t : Time) :
    Within L s₀ (writeDone s e mask b t) ↔ Within L s₀ s := by
  simp [writeDone, h]

@[simp] theorem putBack_within (h : .mem ∈ L) (e : MemEnt) (t : Time) : Within L s₀ (putBack s e t) ↔ Within L s₀ s := by
  simp [putBack, h]

@[simp] theorem finishRead_within (h : .regs ∈ L ∧ .log ∈ L ∧ .ports ∈ L ∧ .arr ∈ L ∧ .pipe ∈ L ∧ .mem ∈ L)
    (e : MemEnt) (far : List (Nat × Nat)) (t : Time) :
    Within L s₀ (finishRead s e far t) ↔ Within L s₀ s := by
  simp only [finishRead]
  (repeat' split) <;> simp [h]

@[simp] theorem readDone_within (h : .regs ∈ L ∧ .log ∈ L ∧ .ports ∈ L ∧ .arr ∈ L ∧ .pipe ∈ L ∧ .mem ∈ L)
    (e : MemEnt) (flips : List (Nat × Nat)) (t : Time) :
    Within L s₀ (readDone s e flips t) ↔ Within L s₀ s := by
  simp only [readDone]
  split <;> simp [h]

@[simp] theorem ckDone_within (h : .regs ∈ L ∧ .log ∈ L ∧ .ports ∈ L ∧ .arr ∈ L ∧ .pipe ∈ L ∧ .mem ∈ L)
    (k : CkEnt) (chk : List (Nat × Nat)) (t : Time) :
    Within L s₀ (ckDone s k chk t) ↔ Within L s₀ s := by
  simp only [ckDone]
  (repeat' split) <;> simp [h]

@[simp] theorem sweepDone_within (h : .regs ∈ L ∧ .log ∈ L ∧ .ports ∈ L ∧ .sb ∈ L ∧ .fwq ∈ L ∧ .slow ∈ L ∧ .pw ∈ L ∧ .arr ∈ L ∧ .pipe ∈ L ∧ .aux ∈ L
    ∧ .mem ∈ L ∧ .fm ∈ L ∧ .ring ∈ L)
    (results : List LaneWin) (t : Time) :
    Within L s₀ (sweepDone s results t) ↔ Within L s₀ s := by
  simp [sweepDone, h]

@[simp] theorem writeTarget_within (h : .regs ∈ L ∧ .log ∈ L ∧ .ports ∈ L ∧ .sb ∈ L ∧ .fwq ∈ L ∧ .slow ∈ L ∧ .pw ∈ L ∧ .arr ∈ L ∧ .pipe ∈ L ∧ .aux ∈
    L ∧ .mem ∈ L ∧ .fm ∈ L ∧ .ring ∈ L)
    (v : Nat) (t : Time) :
    Within L s₀ (writeTarget s v t) ↔ Within L s₀ s := by
  simp [writeTarget, h]

@[simp] theorem changeDone_within (h : .regs ∈ L ∧ .log ∈ L ∧ .ports ∈ L ∧ .sb ∈ L ∧ .fwq ∈ L ∧ .slow ∈ L ∧ .pw ∈ L ∧ .arr ∈ L ∧ .pipe ∈ L ∧ .aux ∈ L
    ∧ .mem ∈ L ∧ .fm ∈ L ∧ .ring ∈ L)
    (ok : Bool) (t : Time) :
    Within L s₀ (changeDone s ok t) ↔ Within L s₀ s := by
  simp only [changeDone]
  split <;> simp [h]

@[simp] theorem tmrControl_within (h : .pio ∈ L) (n op : Nat) (t : Time) : Within L s₀ (tmrControl s n op t) ↔ Within L s₀ s := by
  simp [tmrControl, h]

@[simp] theorem readCapLo_within (h : .pio ∈ L) (n : Nat) (t : Time) : Within L s₀ (readCapLo s n t).2 ↔ Within L s₀ s := by
  simp [readCapLo, h]

@[simp] theorem readCount_within (h : .pio ∈ L) (n : Nat) (high : Bool) : Within L s₀ (readCount s n high).2 ↔ Within L s₀ s := by
  simp only [readCount]
  split <;> simp [h]

@[simp] theorem peDone_within (h : .pio ∈ L) (e n : Nat) : Within L s₀ (peDone s e n) ↔ Within L s₀ s := by
  simp [peDone, h]

@[simp] theorem peHalt_within (h : .regs ∈ L ∧ .log ∈ L ∧ .ports ∈ L ∧ .pio ∈ L) (e fault : Nat) (t : Time) :
    Within L s₀ (peHalt s e fault t) ↔ Within L s₀ s := by
  simp [peHalt, h]

@[simp] theorem peStall_within (h : .pio ∈ L) (e : Nat) (t : Time) : Within L s₀ (peStall s e t) ↔ Within L s₀ s := by
  simp [peStall, h]

@[simp] theorem peFetch_within (h : .pio ∈ L) (e : Nat) : Within L s₀ (peFetch s e) ↔ Within L s₀ s := by
  simp [peFetch, h]

@[simp] theorem peStore_within (h : .regs ∈ L ∧ .pio ∈ L) (e : Nat) (t : Time) : Within L s₀ (peStore s e t) ↔ Within L s₀ s := by
  simp [peStore, h]

@[simp] theorem waitClear_within (h : .pio ∈ L) (e : Nat) : Within L s₀ (waitClear s e) ↔ Within L s₀ s := by
  simp [waitClear, h]

@[simp] theorem pioSend_within (h : .regs ∈ L ∧ .ports ∈ L ∧ .pio ∈ L) (e : Nat) : Within L s₀ (pioSend s e) ↔ Within L s₀ s := by
  simp [pioSend, h]

@[simp] theorem setDepth_within (h : .regs ∈ L ∧ .pio ∈ L) (e v : Nat) : Within L s₀ (setDepth s e v) ↔ Within L s₀ s := by
  simp [setDepth, h]

@[simp] theorem setPin_within (h : .regs ∈ L ∧ .pio ∈ L) (pin cfg arg : Nat) : Within L s₀ (setPin s pin cfg arg) ↔ Within L s₀ s := by
  simp [setPin, h]

@[simp] theorem otpSettings_within (h : .sec ∈ L) : Within L s₀ (otpSettings s) ↔ Within L s₀ s := by
  simp [otpSettings, h]

@[simp] theorem otpBoot_within (h : .regs ∈ L ∧ .log ∈ L ∧ .ports ∈ L ∧ .otp ∈ L ∧ .sec ∈ L) (cold kekOk : Bool) (t : Time) :
    Within L s₀ (otpBoot s cold kekOk t) ↔ Within L s₀ s := by
  simp [otpBoot, h]

@[simp] theorem pushJob_within (h : .otp ∈ L) (j : OtpJob) : Within L s₀ (pushJob s j) ↔ Within L s₀ s := by
  simp [pushJob, h]

@[simp] theorem notifyAlarm_within (h : .regs ∈ L ∧ .ports ∈ L) (b a flags dtime : Nat) (t : Time) :
    Within L s₀ (notifyAlarm s b a flags dtime t) ↔ Within L s₀ s := by
  simp [notifyAlarm, h]

@[simp] theorem actAlarm_within (h : .regs ∈ L ∧ .log ∈ L ∧ .ports ∈ L ∧ .otp ∈ L ∧ .sec ∈ L ∧ .pipe ∈ L) (b a flags : Nat) (t : Time) :
    Within L s₀ (actAlarm s b a flags t) ↔ Within L s₀ s := by
  simp [actAlarm, h]

@[simp] theorem fireAlarm_within (h : .regs ∈ L ∧ .log ∈ L ∧ .ports ∈ L ∧ .otp ∈ L ∧ .sec ∈ L ∧ .pipe ∈ L) (b : Nat) (t : Time) :
    Within L s₀ (fireAlarm s b t) ↔ Within L s₀ s := by
  simp [fireAlarm, h]

@[simp] theorem latchAlarm_within (h : .sec ∈ L) (b : Nat) : Within L s₀ (latchAlarm s b) ↔ Within L s₀ s := by
  simp [latchAlarm, h]

@[simp] theorem alarmEvent_within (h : .regs ∈ L ∧ .log ∈ L ∧ .ports ∈ L ∧ .otp ∈ L ∧ .sec ∈ L ∧ .pipe ∈ L) (b : Nat) (buoy : Bool) (t : Time) :
    Within L s₀ (alarmEvent s b buoy t) ↔ Within L s₀ s := by
  unfold alarmEvent
  split <;> simp [h]

@[simp] theorem otpComplete_within (h : .regs ∈ L ∧ .ports ∈ L ∧ .sb ∈ L ∧ .slow ∈ L)
    (src : Src) (op : Nat) (tag : BitVec 16) (st : Status) (written failAddr : Nat) (t : Time) :
    Within L s₀ (otpComplete s src op tag st written failAddr t) ↔ Within L s₀ s := by
  simp [otpComplete, h]

@[simp] theorem flushAlarms_within (h : .regs ∈ L ∧ .ports ∈ L ∧ .sec ∈ L) (t : Time) : Within L s₀ (flushAlarms s t) ↔ Within L s₀ s := by
  simp [flushAlarms, h]

@[simp] theorem keepLog_within (h : .th ∈ L) (e : Nat × Nat) : Within L s₀ (keepLog s e) ↔ Within L s₀ s := by
  simp [keepLog, h]

@[simp] theorem endJob_within (h : .regs ∈ L ∧ .ports ∈ L ∧ .sb ∈ L ∧ .slow ∈ L ∧ .otp ∈ L ∧ .sec ∈ L ∧ .th ∈ L)
    (j : OtpJob) (st : Status) (failAddr : Nat) (t : Time) :
    Within L s₀ (endJob s j st failAddr t) ↔ Within L s₀ s := by
  unfold endJob
  split <;> simp [h]

@[simp] theorem afterWord_within (h : .sec ∈ L ∧ .pipe ∈ L) (j : OtpJob) (a : Nat) (ok : Bool) (t : Time) :
    Within L s₀ (afterWord s j a ok t) ↔ Within L s₀ s := by
  simp only [afterWord]
  split <;> simp [h]

@[simp] theorem wordDone_within (h : .regs ∈ L ∧ .ports ∈ L ∧ .sb ∈ L ∧ .slow ∈ L ∧ .otp ∈ L ∧ .sec ∈ L ∧ .pipe ∈ L ∧ .th ∈ L)
    (norm strict : Nat) (t : Time) :
    Within L s₀ (wordDone s norm strict t) ↔ Within L s₀ s := by
  unfold wordDone
  split <;> simp [h]

@[simp] theorem dropJobs_within (h : .otp ∈ L ∧ .sec ∈ L) : Within L s₀ (dropJobs s) ↔ Within L s₀ s := by
  simp [dropJobs, h]

@[simp] theorem logShutdown_within (h : .otp ∈ L ∧ .th ∈ L) (e : Nat → Nat × Nat) : Within L s₀ (logShutdown s e) ↔ Within L s₀ s := by
  simp [logShutdown, h]

@[simp] theorem clearNonce_within (h : .sec ∈ L) (p : PortIx) : Within L s₀ (clearNonce s p) ↔ Within L s₀ s := by
  simp [clearNonce, h]

@[simp] theorem authFailed_within (h : .regs ∈ L ∧ .log ∈ L ∧ .ports ∈ L ∧ .otp ∈ L ∧ .sec ∈ L ∧ .pipe ∈ L) (p : PortIx) (t : Time) :
    Within L s₀ (authFailed s p t) ↔ Within L s₀ s := by
  simp [authFailed, h]

@[simp] theorem State.modTherm_within (h : .th ∈ L) (f : Therm → Therm) : Within L s₀ (State.modTherm s f) ↔ Within L s₀ s := by
  simp [State.modTherm, h]

@[simp] theorem foghorn_within (h : .regs ∈ L ∧ .ports ∈ L ∧ .th ∈ L) (cause : Nat) (t : Time) :
    Within L s₀ (foghorn s cause t) ↔ Within L s₀ s := by
  simp [foghorn, h]

@[simp] theorem downEval_within (h : .th ∈ L) (t : Time) : Within L s₀ (downEval s t) ↔ Within L s₀ s := by
  simp [downEval, h]

@[simp] theorem setStep_within (h : .regs ∈ L ∧ .log ∈ L ∧ .ports ∈ L ∧ .sb ∈ L ∧ .fwq ∈ L ∧ .slow ∈ L ∧ .pw ∈ L ∧ .arr ∈ L ∧ .pipe ∈ L ∧ .aux ∈ L ∧
    .mem ∈ L ∧ .fm ∈ L ∧ .ring ∈ L ∧ .th ∈ L)
    (n cause : Nat) (t : Time) :
    Within L s₀ (setStep s n cause t) ↔ Within L s₀ s := by
  simp [setStep, h]

@[simp] theorem startGrace_within (h : .th ∈ L) (t : Time) : Within L s₀ (startGrace s t) ↔ Within L s₀ s := by
  simp [startGrace, h]

@[simp] theorem takeReads_within (h : .regs ∈ L ∧ .log ∈ L ∧ .ports ∈ L ∧ .otp ∈ L ∧ .sec ∈ L ∧ .pipe ∈ L ∧ .th ∈ L)
    (reads : List (Option Int)) (t : Time) :
    Within L s₀ (takeReads s reads t) ↔ Within L s₀ s := by
  simp [takeReads, h]

@[simp] theorem thermShutdown_within (h : .free ∈ L ∧ .regs ∈ L ∧ .log ∈ L ∧ .ports ∈ L ∧ .sb ∈ L ∧ .fwq ∈ L ∧ .slow ∈ L ∧ .pw ∈ L ∧ .rs ∈ L ∧ .otp ∈
    L ∧ .arr ∈ L ∧ .pipe ∈ L ∧ .aux ∈ L ∧ .mem ∈ L ∧ .fm ∈ L ∧ .ring ∈ L ∧ .th ∈ L ∧ .pio ∈ L)
    (n : Nat) (t : Time) :
    Within L s₀ (thermShutdown s n t) ↔ Within L s₀ s := by
  simp [thermShutdown, h]

@[simp] theorem evalSample_within (h : .free ∈ L ∧ .regs ∈ L ∧ .log ∈ L ∧ .ports ∈ L ∧ .sb ∈ L ∧ .fwq ∈ L ∧ .slow ∈ L ∧ .pw ∈ L ∧ .rs ∈ L ∧ .otp ∈ L
    ∧ .arr ∈ L ∧ .pipe ∈ L ∧ .aux ∈ L ∧ .mem ∈ L ∧ .fm ∈ L ∧ .ring ∈ L ∧ .th ∈ L ∧ .pio ∈ L)
    (t : Time) :
    Within L s₀ (evalSample s t) ↔ Within L s₀ s := by
  simp only [evalSample]
  split <;> simp [h]

@[simp] theorem loseOutside_within (h : .mem ∈ L ∧ .fm ∈ L) (mask : Nat) : Within L s₀ (loseOutside s mask) ↔ Within L s₀ s := by
  simp [loseOutside, h]

@[simp] theorem endConditions_within (h : .regs ∈ L ∧ .log ∈ L ∧ .ports ∈ L) (t : Time) : Within L s₀ (endConditions s t) ↔ Within L s₀ s := by
  simp [endConditions, h]

@[simp] theorem resetUnits_within (h : .clk ∈ L ∧ .regs ∈ L ∧ .leases ∈ L ∧ .leaseLog ∈ L ∧ .lastArrayHolder ∈ L ∧ .arrayLapsed ∈ L ∧ .ports ∈ L ∧
    .sb ∈ L ∧ .fwq ∈ L ∧ .slow ∈ L ∧ .misses ∈ L ∧ .diag ∈ L ∧ .pw ∈ L ∧ .rs ∈ L ∧ .otp ∈ L ∧ .sec ∈ L ∧ .arr ∈ L ∧ .pipe ∈ L ∧ .aux ∈ L ∧ .mem ∈ L ∧
    .fm ∈ L ∧ .ring ∈ L ∧ .th ∈ L ∧ .pio ∈ L)
    (t : Time) :
    Within L s₀ (resetUnits s t) ↔ Within L s₀ s := by
  simp [resetUnits, h]

@[simp] theorem resetCold_within (h : .clk ∈ L ∧ .regs ∈ L ∧ .log ∈ L ∧ .leases ∈ L ∧ .leaseLog ∈ L ∧ .lastArrayHolder ∈ L ∧ .arrayLapsed ∈ L ∧
    .ports ∈ L ∧ .sb ∈ L ∧ .fwq ∈ L ∧ .slow ∈ L ∧ .misses ∈ L ∧ .diag ∈ L ∧ .pw ∈ L ∧ .rs ∈ L ∧ .otp ∈ L ∧ .sec ∈ L ∧ .arr ∈ L ∧ .pipe ∈ L ∧ .aux ∈ L
    ∧ .mem ∈ L ∧ .fm ∈ L ∧ .ring ∈ L ∧ .th ∈ L ∧ .pio ∈ L)
    (t : Time) :
    Within L s₀ (resetCold s t) ↔ Within L s₀ s := by
  simp [resetCold, h]

@[simp] theorem keeperClear_within (h : .regs ∈ L ∧ .pw ∈ L ∧ .rs ∈ L ∧ .sec ∈ L ∧ .hold ∈ L ∧ .th ∈ L) :
    Within L s₀ (keeperClear s) ↔ Within L s₀ s := by
  simp [keeperClear, h]

@[simp] theorem powerLost_within (h : .clk ∈ L ∧ .regs ∈ L ∧ .log ∈ L ∧ .leases ∈ L ∧ .leaseLog ∈ L ∧ .lastArrayHolder ∈ L ∧ .arrayLapsed ∈ L ∧
    .ports ∈ L ∧ .sb ∈ L ∧ .fwq ∈ L ∧ .slow ∈ L ∧ .misses ∈ L ∧ .diag ∈ L ∧ .pw ∈ L ∧ .rs ∈ L ∧ .otp ∈ L ∧ .sec ∈ L ∧ .arr ∈ L ∧ .pipe ∈ L ∧ .aux ∈ L
    ∧ .mem ∈ L ∧ .fm ∈ L ∧ .ring ∈ L ∧ .th ∈ L ∧ .pio ∈ L)
    (t : Time) :
    Within L s₀ (powerLost s t) ↔ Within L s₀ s := by
  simp [powerLost, h]

@[simp] theorem readStraps_within (h : .regs ∈ L ∧ .log ∈ L ∧ .ports ∈ L ∧ .pw ∈ L) (t : Time) :
    Within L s₀ (readStraps s t) ↔ Within L s₀ s := by
  simp [readStraps, h]

@[simp] theorem chooseProfile_within (h : .pw ∈ L) : Within L s₀ (chooseProfile s) ↔ Within L s₀ s := by
  simp [chooseProfile, h]

@[simp] theorem applyRef_within (h : .regs ∈ L ∧ .log ∈ L ∧ .ports ∈ L ∧ .pw ∈ L) (r : Option (Nat × Nat)) (meas : Nat) (t : Time) :
    Within L s₀ (applyRef s r meas t) ↔ Within L s₀ s := by
  simp [applyRef, h]

@[simp] theorem bootPll_within (h : .free ∈ L ∧ .regs ∈ L ∧ .log ∈ L ∧ .ports ∈ L ∧ .pw ∈ L) (n : Nat) (t : Time) :
    Within L s₀ (bootPll s n t) ↔ Within L s₀ s := by
  simp [bootPll, drawFree, h]

@[simp] theorem findRingLost_within (h : .rs ∈ L ∧ .ring ∈ L) : Within L s₀ (findRingLost s) ↔ Within L s₀ s := by
  simp [findRingLost, h]

@[simp] theorem bootMemory_within (h : .regs ∈ L ∧ .log ∈ L ∧ .ports ∈ L ∧ .sb ∈ L ∧ .fwq ∈ L ∧ .slow ∈ L ∧ .rs ∈ L ∧ .arr ∈ L ∧ .pipe ∈ L ∧ .aux ∈ L
    ∧ .mem ∈ L ∧ .fm ∈ L ∧ .ring ∈ L)
    (t : Time) :
    Within L s₀ (bootMemory s t) ↔ Within L s₀ s := by
  unfold bootMemory
  split <;> simp [h]

@[simp] theorem enableAt_within (h : .regs ∈ L ∧ .ports ∈ L) (p : PortIx) (t : Time) : Within L s₀ (enableAt s p t) ↔ Within L s₀ s := by
  simp [enableAt, h]

@[simp] theorem actProfile_within (h : .regs ∈ L ∧ .ports ∈ L ∧ .diag ∈ L ∧ .pw ∈ L ∧ .rs ∈ L ∧ .arr ∈ L ∧ .pipe ∈ L) (t : Time) :
    Within L s₀ (actProfile s t) ↔ Within L s₀ s := by
  simp [actProfile, h]

@[simp] theorem fromKeeper_within (h : .regs ∈ L ∧ .log ∈ L ∧ .ports ∈ L ∧ .rs ∈ L ∧ .sec ∈ L) (t : Time) :
    Within L s₀ (fromKeeper s t) ↔ Within L s₀ s := by
  have hraised : Within L s₀ (s.rs.keepFaults.foldl (fun s f => raise s f.1 f.2 t) s) ↔ Within L s₀ s := by simp [h]
  rw [← hraised]
  unfold fromKeeper
  generalize s.rs.keepFaults.foldl (fun s f => raise s f.1 f.2 t) s = r
  refine within_either (Iff.trans (within_foldl fun r x => by simp [h]) ?_) ?_
  all_goals
    simp [h]
    split <;> simp [h]

@[simp] theorem replayLatches_within (h : .regs ∈ L ∧ .log ∈ L ∧ .ports ∈ L ∧ .otp ∈ L ∧ .sec ∈ L ∧ .pipe ∈ L) (t : Time) :
    Within L s₀ (replayLatches s t) ↔ Within L s₀ s := by
  simp [replayLatches, h]

@[simp] theorem bootPlls_within (h : .free ∈ L ∧ .regs ∈ L ∧ .log ∈ L ∧ .ports ∈ L ∧ .sb ∈ L ∧ .fwq ∈ L ∧ .slow ∈ L ∧ .pw ∈ L ∧ .arr ∈ L ∧ .pipe ∈ L
    ∧ .aux ∈ L ∧ .mem ∈ L ∧ .fm ∈ L ∧ .ring ∈ L)
    (t : Time) :
    Within L s₀ (bootPlls s t) ↔ Within L s₀ s := by
  simp [bootPlls, h]

@[simp] theorem bootEnd_within (h : .free ∈ L ∧ .regs ∈ L ∧ .log ∈ L ∧ .ports ∈ L ∧ .sb ∈ L ∧ .fwq ∈ L ∧ .slow ∈ L ∧ .diag ∈ L ∧ .pw ∈ L ∧ .rs ∈ L ∧
    .otp ∈ L ∧ .sec ∈ L ∧ .arr ∈ L ∧ .pipe ∈ L ∧ .aux ∈ L ∧ .mem ∈ L ∧ .fm ∈ L ∧ .ring ∈ L ∧ .hold ∈ L)
    (t : Time) :
    Within L s₀ (bootEnd s t) ↔ Within L s₀ s := by
  simp [bootEnd, h]

@[simp] theorem bootStart_within (h : .free ∈ L ∧ .regs ∈ L ∧ .log ∈ L ∧ .ports ∈ L ∧ .sb ∈ L ∧ .fwq ∈ L ∧ .slow ∈ L ∧ .diag ∈ L ∧ .pw ∈ L ∧ .rs ∈ L
    ∧ .otp ∈ L ∧ .sec ∈ L ∧ .arr ∈ L ∧ .pipe ∈ L ∧ .aux ∈ L ∧ .mem ∈ L ∧ .fm ∈ L ∧ .ring ∈ L ∧ .hold ∈ L)
    (t : Time) :
    Within L s₀ (bootStart s t) ↔ Within L s₀ s := by
  simp [bootStart, h]

@[simp] theorem countReset_within (h : .regs ∈ L) (cause : Nat) : Within L s₀ (countReset s cause) ↔ Within L s₀ s := by
  unfold countReset
  split <;> simp [h]

@[simp] theorem recordCause_within (h : .regs ∈ L ∧ .pw ∈ L ∧ .rs ∈ L ∧ .sec ∈ L) (cause : Nat) :
    Within L s₀ (recordCause s cause) ↔ Within L s₀ s := by
  simp [recordCause, h]

@[simp] theorem resetDevice_within (h : .clk ∈ L ∧ .free ∈ L ∧ .regs ∈ L ∧ .log ∈ L ∧ .leases ∈ L ∧ .leaseLog ∈ L ∧ .lastArrayHolder ∈ L ∧
    .arrayLapsed ∈ L ∧ .ports ∈ L ∧ .sb ∈ L ∧ .fwq ∈ L ∧ .slow ∈ L ∧ .misses ∈ L ∧ .diag ∈ L ∧ .pw ∈ L ∧ .rs ∈ L ∧ .otp ∈ L ∧ .sec ∈ L ∧ .arr ∈ L ∧
    .pipe ∈ L ∧ .aux ∈ L ∧ .mem ∈ L ∧ .fm ∈ L ∧ .ring ∈ L ∧ .hold ∈ L ∧ .th ∈ L ∧ .pio ∈ L)
    (cold : Bool) (cause : Nat) (t : Time) :
    Within L s₀ (resetDevice s cold cause t) ↔ Within L s₀ s := by
  simp only [resetDevice]
  (repeat' split) <;> simp [h]

@[simp] theorem resetFw_within (h : .clk ∈ L ∧ .free ∈ L ∧ .regs ∈ L ∧ .log ∈ L ∧ .leases ∈ L ∧ .leaseLog ∈ L ∧ .lastArrayHolder ∈ L ∧ .arrayLapsed ∈
    L ∧ .ports ∈ L ∧ .sb ∈ L ∧ .fwq ∈ L ∧ .slow ∈ L ∧ .misses ∈ L ∧ .diag ∈ L ∧ .pw ∈ L ∧ .rs ∈ L ∧ .otp ∈ L ∧ .sec ∈ L ∧ .arr ∈ L ∧ .pipe ∈ L ∧ .aux
    ∈ L ∧ .mem ∈ L ∧ .fm ∈ L ∧ .ring ∈ L ∧ .hold ∈ L ∧ .th ∈ L ∧ .pio ∈ L)
    (cause fault : Nat) (t : Time) :
    Within L s₀ (resetFw s cause fault t) ↔ Within L s₀ s := by
  simp [resetFw, h]

@[simp] theorem commitDusk_within (h : .ports ∈ L ∧ .pw ∈ L ∧ .rs ∈ L ∧ .mem ∈ L ∧ .fm ∈ L ∧ .hold ∈ L)
    (d c : Time) (cause uj mask : Nat) (wrote : Bool) :
    Within L s₀ (commitDusk s d c cause uj mask wrote) ↔ Within L s₀ s := by
  simp [commitDusk, h]

@[simp] theorem duskFlush_within (h : .regs ∈ L ∧ .log ∈ L ∧ .ports ∈ L ∧ .mem ∈ L) (t : Time) : Within L s₀ (duskFlush s t) ↔ Within L s₀ s := by
  simp [duskFlush, h]

@[simp] theorem runDusk_within (h : .regs ∈ L ∧ .log ∈ L ∧ .ports ∈ L ∧ .pw ∈ L ∧ .rs ∈ L ∧ .arr ∈ L ∧ .pipe ∈ L ∧ .aux ∈ L ∧ .mem ∈ L ∧ .fm ∈ L ∧
    .ring ∈ L ∧ .hold ∈ L ∧ .pio ∈ L)
    (d : Time) (vio vcore : Bool) (uj : Nat) :
    Within L s₀ (runDusk s d vio vcore uj) ↔ Within L s₀ s := by
  simp [runDusk, h]

@[simp] theorem startDusk_within (h : .regs ∈ L ∧ .log ∈ L ∧ .ports ∈ L ∧ .pw ∈ L ∧ .rs ∈ L ∧ .arr ∈ L ∧ .pipe ∈ L ∧ .aux ∈ L ∧ .mem ∈ L ∧ .fm ∈ L ∧
    .ring ∈ L ∧ .hold ∈ L ∧ .pio ∈ L)
    (t : Time) (vio vcore : Bool) (uj : Nat) :
    Within L s₀ (startDusk s t vio vcore uj) ↔ Within L s₀ s := by
  simp [startDusk, h]

@[simp] theorem supplyFails_within (h : .clk ∈ L ∧ .regs ∈ L ∧ .log ∈ L ∧ .leases ∈ L ∧ .leaseLog ∈ L ∧ .lastArrayHolder ∈ L ∧ .arrayLapsed ∈ L ∧
    .ports ∈ L ∧ .sb ∈ L ∧ .fwq ∈ L ∧ .slow ∈ L ∧ .misses ∈ L ∧ .diag ∈ L ∧ .pw ∈ L ∧ .rs ∈ L ∧ .otp ∈ L ∧ .sec ∈ L ∧ .arr ∈ L ∧ .pipe ∈ L ∧ .aux ∈ L
    ∧ .mem ∈ L ∧ .fm ∈ L ∧ .ring ∈ L ∧ .hold ∈ L ∧ .th ∈ L ∧ .pio ∈ L)
    (d : Time) (vio vcore : Bool) (uj : Nat) :
    Within L s₀ (supplyFails s d vio vcore uj) ↔ Within L s₀ s := by
  simp [supplyFails, h]

@[simp] theorem markUntrusted_within (h : .ring ∈ L) : Within L s₀ (markUntrusted s) ↔ Within L s₀ s := by
  simp [markUntrusted, h]

@[simp] theorem dawnEnd_within (h : .clk ∈ L ∧ .free ∈ L ∧ .regs ∈ L ∧ .log ∈ L ∧ .leases ∈ L ∧ .leaseLog ∈ L ∧ .lastArrayHolder ∈ L ∧ .arrayLapsed ∈
    L ∧ .ports ∈ L ∧ .sb ∈ L ∧ .fwq ∈ L ∧ .slow ∈ L ∧ .misses ∈ L ∧ .diag ∈ L ∧ .pw ∈ L ∧ .rs ∈ L ∧ .otp ∈ L ∧ .sec ∈ L ∧ .arr ∈ L ∧ .pipe ∈ L ∧ .aux
    ∈ L ∧ .mem ∈ L ∧ .fm ∈ L ∧ .ring ∈ L ∧ .hold ∈ L ∧ .th ∈ L ∧ .pio ∈ L)
    (t : Time) :
    Within L s₀ (dawnEnd s t) ↔ Within L s₀ s := by
  have hr : Within L s₀ (ringRecover s t).1 ↔ Within L s₀ s := by simp [h]
  unfold dawnEnd
  generalize ringRecover s t = r at hr ⊢
  obtain ⟨r, _ | n⟩ := r
  all_goals
    simp [h]
    split_ifs <;> simp [h, hr]

@[simp] theorem runDawn_within (h : .clk ∈ L ∧ .free ∈ L ∧ .regs ∈ L ∧ .log ∈ L ∧ .leases ∈ L ∧ .leaseLog ∈ L ∧ .lastArrayHolder ∈ L ∧ .arrayLapsed ∈
    L ∧ .ports ∈ L ∧ .sb ∈ L ∧ .fwq ∈ L ∧ .slow ∈ L ∧ .misses ∈ L ∧ .diag ∈ L ∧ .pw ∈ L ∧ .rs ∈ L ∧ .otp ∈ L ∧ .sec ∈ L ∧ .arr ∈ L ∧ .pipe ∈ L ∧ .aux
    ∈ L ∧ .mem ∈ L ∧ .fm ∈ L ∧ .ring ∈ L ∧ .hold ∈ L ∧ .th ∈ L ∧ .pio ∈ L)
    (sg : Time) (env : BootEnv) :
    Within L s₀ (runDawn s sg env) ↔ Within L s₀ s := by
  simp [runDawn, h]

@[simp] theorem pllDown_within (h : .free ∈ L ∧ .regs ∈ L ∧ .ports ∈ L ∧ .sb ∈ L ∧ .fwq ∈ L ∧ .slow ∈ L ∧ .arr ∈ L ∧ .pipe ∈ L ∧ .mem ∈ L)
    (n : Nat) (t : Time) :
    Within L s₀ (pllDown s n t) ↔ Within L s₀ s := by
  unfold pllDown
  split
  · simp [h]
  · simp [h]
  · refine within_foldl fun r p => ?_
    split <;> simp [h]
  · rfl

@[simp] theorem pllFailed_within (h : .free ∈ L ∧ .regs ∈ L ∧ .log ∈ L ∧ .ports ∈ L ∧ .sb ∈ L ∧ .fwq ∈ L ∧ .slow ∈ L ∧ .arr ∈ L ∧ .pipe ∈ L ∧ .aux ∈
    L ∧ .mem ∈ L ∧ .fm ∈ L ∧ .ring ∈ L)
    (n : Nat) (t : Time) :
    Within L s₀ (pllFailed s n t) ↔ Within L s₀ s := by
  simp only [pllFailed]
  (repeat' split) <;> simp [h]

@[simp] theorem ifFailed_within (h : .free ∈ L ∧ .regs ∈ L ∧ .log ∈ L ∧ .ports ∈ L ∧ .sb ∈ L ∧ .fwq ∈ L ∧ .slow ∈ L ∧ .arr ∈ L ∧ .pipe ∈ L ∧ .aux ∈ L
    ∧ .mem ∈ L ∧ .fm ∈ L ∧ .ring ∈ L)
    (n : Nat) (t : Time) :
    Within L s₀ (ifFailed s n t) ↔ Within L s₀ s := by
  simp [ifFailed, h]

@[simp] theorem softFrame_within (h : .regs ∈ L ∧ .arr ∈ L ∧ .pipe ∈ L ∧ .aux ∈ L) (v : Nat) (x : SoftP) (f : VFrame) :
    Within L s₀ (softFrame s v x f) ↔ Within L s₀ s := by
  simp only [softFrame]
  (repeat' split) <;> simp [h]

@[simp] theorem modifyView_within (h : .regs ∈ L ∧ .arr ∈ L ∧ .pipe ∈ L ∧ .aux ∈ L) (v : Nat) (x : SoftP) :
    Within L s₀ (modifyView s v x) ↔ Within L s₀ s := by
  simp [modifyView, h]

@[simp] theorem tagView_within (h : .pipe ∈ L) (v : Nat) (stamp : Time) (tk : Option (List Byte)) :
    Within L s₀ (tagView s v stamp tk) ↔ Within L s₀ s := by
  simp [tagView, h]

@[simp] theorem orderStop_within (h : .pipe ∈ L) (v how : Nat) (call del : Bool) (t : Time) :
    Within L s₀ (orderStop s v how call del t) ↔ Within L s₀ s := by
  simp [orderStop, h]

@[simp] theorem readStores_within (h : .mem ∈ L) (f : VFrame) (band group : Nat) (t : Time) :
    Within L s₀ (readStores s f band group t) ↔ Within L s₀ s := by
  simp [readStores, h]

@[simp] theorem dropBarred_within (h : .regs ∈ L ∧ .leases ∈ L ∧ .leaseLog ∈ L ∧ .arrayLapsed ∈ L ∧ .ports ∈ L) (p : PortIx) (t : Time) :
    Within L s₀ (dropBarred s p t) ↔ Within L s₀ s := by
  simp [dropBarred, h]

@[simp] theorem startProgram_within (h : .ports ∈ L ∧ .sb ∈ L ∧ .fwq ∈ L ∧ .slow ∈ L ∧ .otp ∈ L)
    (c : Call) (op : Nat) (deadline : Time) (words : List (Nat × Nat)) :
    Within L s₀ (startProgram s c op deadline words) ↔ Within L s₀ s := by
  simp [startProgram, h]

@[simp] theorem runProgram_within (h : .regs ∈ L ∧ .ports ∈ L ∧ .sb ∈ L ∧ .fwq ∈ L ∧ .slow ∈ L ∧ .otp ∈ L) (c : Call) :
    Within L s₀ (runProgram s c) ↔ Within L s₀ s := by
  simp only [runProgram]
  (repeat' split) <;> simp [h]

@[simp] theorem setLoad_within (h : .sec ∈ L) (l : Option FwLoad) : Within L s₀ (setLoad s l) ↔ Within L s₀ s := by
  simp [setLoad, h]

@[simp] theorem endLoad_within (h : .regs ∈ L ∧ .ports ∈ L ∧ .sb ∈ L ∧ .fwq ∈ L ∧ .slow ∈ L ∧ .sec ∈ L) (c : Call) (l : FwLoad) :
    Within L s₀ (endLoad s c l) ↔ Within L s₀ s := by
  simp [endLoad, h]

@[simp] theorem readOne_within (h : .free ∈ L ∧ .regs ∈ L ∧ .pio ∈ L) (a : Nat) (t : Time) : Within L s₀ (readOne s a t).2 ↔ Within L s₀ s := by
  unfold readOne
  split_ifs <;> simp [drawFree, h]

@[simp] theorem clearRc_within (h : .regs ∈ L ∧ .pio ∈ L) (a : Nat) (r : RegDef) : Within L s₀ (clearRc s a r) ↔ Within L s₀ s := by
  simp [clearRc, h]

@[simp] theorem readRun_within (h : .free ∈ L ∧ .regs ∈ L ∧ .pio ∈ L) (c : Call) (peek : Bool) (l : List Nat) :
    Within L s₀ (readRun c peek l s).2.2 ↔ Within L s₀ s := by
  induction l generalizing s with
  | nil => simp [readRun]
  | cons a l ih =>
    rw [readRun]
    split
    · exact ih
    · simp [ih, h]

@[simp] theorem engWrite_within (h : .regs ∈ L ∧ .arr ∈ L ∧ .pipe ∈ L) (a v : Nat) (stamp : Time) :
    Within L s₀ (engWrite s a v stamp) ↔ Within L s₀ s := by
  simp [engWrite, h]

@[simp] theorem tengWrite_within (h : .regs ∈ L ∧ .arr ∈ L ∧ .pipe ∈ L) (a v : Nat) (stamp : Time) :
    Within L s₀ (tengWrite s a v stamp) ↔ Within L s₀ s := by
  simp [tengWrite, h]

@[simp] theorem auxBankWrite_within (h : .pipe ∈ L ∧ .aux ∈ L) (n : Nat) (stamp : Time) (b : Nat) :
    Within L s₀ (auxBankWrite s n stamp b) ↔ Within L s₀ s := by
  simp [auxBankWrite, h]

@[simp] theorem pipeWrite_within (h : .regs ∈ L ∧ .arr ∈ L ∧ .pipe ∈ L ∧ .aux ∈ L) (a v : Nat) (stamp : Time) :
    Within L s₀ (pipeWrite s a v stamp) ↔ Within L s₀ s := by
  simp [pipeWrite, h]

@[simp] theorem delayWrite_within (h : .mem ∈ L) (a v : Nat) : Within L s₀ (delayWrite s a v) ↔ Within L s₀ s := by
  simp [delayWrite, h]

@[simp] theorem memcWrite_within (h : .regs ∈ L ∧ .log ∈ L ∧ .ports ∈ L ∧ .sb ∈ L ∧ .fwq ∈ L ∧ .slow ∈ L ∧ .pw ∈ L ∧ .arr ∈ L ∧ .pipe ∈ L ∧ .aux ∈ L
    ∧ .mem ∈ L ∧ .fm ∈ L ∧ .ring ∈ L)
    (a v : Nat) (t : Time) :
    Within L s₀ (memcWrite s a v t) ↔ Within L s₀ s := by
  simp [memcWrite, h]

@[simp] theorem linkWrite_within (h : .free ∈ L ∧ .regs ∈ L ∧ .ports ∈ L ∧ .sb ∈ L ∧ .fwq ∈ L ∧ .slow ∈ L ∧ .pipe ∈ L) (a v : Nat) (t : Time) :
    Within L s₀ (linkWrite s a v t) ↔ Within L s₀ s := by
  simp [linkWrite, h]

@[simp] theorem pllRelock_within (h : .free ∈ L ∧ .regs ∈ L ∧ .log ∈ L ∧ .ports ∈ L ∧ .sb ∈ L ∧ .fwq ∈ L ∧ .slow ∈ L ∧ .pw ∈ L ∧ .arr ∈ L ∧ .pipe ∈ L
    ∧ .aux ∈ L ∧ .mem ∈ L ∧ .fm ∈ L ∧ .ring ∈ L)
    (n : Nat) (t : Time) :
    Within L s₀ (pllRelock s n t) ↔ Within L s₀ s := by
  simp [pllRelock, h]

@[simp] theorem pclkWrite_within (h : .free ∈ L ∧ .regs ∈ L ∧ .log ∈ L ∧ .ports ∈ L ∧ .sb ∈ L ∧ .fwq ∈ L ∧ .slow ∈ L ∧ .pw ∈ L ∧ .arr ∈ L ∧ .pipe ∈ L
    ∧ .aux ∈ L ∧ .mem ∈ L ∧ .fm ∈ L ∧ .ring ∈ L)
    (a v : Nat) (t : Time) :
    Within L s₀ (pclkWrite s a v t) ↔ Within L s₀ s := by
  simp [pclkWrite, h]

@[simp] theorem tmrRegWrite_within (h : .regs ∈ L ∧ .pio ∈ L) (a v : Nat) : Within L s₀ (tmrRegWrite s a v) ↔ Within L s₀ s := by
  simp [tmrRegWrite, h]

@[simp] theorem pioWrite_within (h : .regs ∈ L ∧ .pio ∈ L) (a v : Nat) : Within L s₀ (pioWrite s a v) ↔ Within L s₀ s := by
  simp [pioWrite, h]

@[simp] theorem holdWrite_within (h : .regs ∈ L ∧ .log ∈ L ∧ .ports ∈ L ∧ .hold ∈ L) (a v : Nat) (t : Time) :
    Within L s₀ (holdWrite s a v t) ↔ Within L s₀ s := by
  simp [holdWrite, h]

@[simp] theorem diagWrite_within (h : .regs ∈ L ∧ .diag ∈ L) (a v : Nat) (t : Time) : Within L s₀ (diagWrite s a v t) ↔ Within L s₀ s := by
  simp only [diagWrite]
  (repeat' split) <;> simp [h]

@[simp] theorem writeOne_within (h : .free ∈ L ∧ .regs ∈ L ∧ .log ∈ L ∧ .ports ∈ L ∧ .sb ∈ L ∧ .fwq ∈ L ∧ .slow ∈ L ∧ .diag ∈ L ∧ .pw ∈ L ∧ .arr ∈ L
    ∧ .pipe ∈ L ∧ .aux ∈ L ∧ .mem ∈ L ∧ .fm ∈ L ∧ .ring ∈ L ∧ .hold ∈ L ∧ .pio ∈ L)
    (c : Call) (a v : Nat) :
    Within L s₀ (writeOne s c a v) ↔ Within L s₀ s := by
  unfold writeOne
  split <;> simp [h]

@[simp] theorem writeTriple_within (h : .free ∈ L ∧ .regs ∈ L ∧ .log ∈ L ∧ .ports ∈ L ∧ .sb ∈ L ∧ .fwq ∈ L ∧ .slow ∈ L ∧ .diag ∈ L ∧ .pw ∈ L ∧ .arr ∈
    L ∧ .pipe ∈ L ∧ .aux ∈ L ∧ .mem ∈ L ∧ .fm ∈ L ∧ .ring ∈ L ∧ .hold ∈ L ∧ .pio ∈ L)
    (c : Call) (x : Nat × Nat × Nat) :
    Within L s₀ (writeTriple s c x) ↔ Within L s₀ s := by
  unfold writeTriple
  split <;> simp [h]

end Sys2Proof.Machine
end

section
/-! What each command leaves alone: from the state at its instant on, a command changes the parts listed at most. One rule for each command. -/

namespace Sys2Proof.Machine

variable {L : List Part} {s : State}

/-- Where an outcome goes on, it goes on to a state within `L` of `u`. -/
def OutWithin (L : List Part) (u : State) (o : Out) : Prop := ∀ s' : State, o = .next s' → Within L u s'

theorem outWithin_event {t : Time} {due : State → Bool} {act : State → State} (hact : ∀ u, Within L u (act u)) :
    OutWithin L (s.at t) (event s t due act) := by
  intro s' h
  rcases event_cases h with ⟨-, rfl⟩ | ⟨-, rfl⟩
  · exact hact _
  · exact within_self

/-- A command of a host acts, or only answers. -/
theorem outWithin_commandWith {c : Call} {op : Nat} {cls : Cls} {checks : State → List (Option Reject)} {pl : Reject → List Byte}
    {act : State → State} (h : .ports ∈ L ∧ .sb ∈ L ∧ .fwq ∈ L) (hact : ∀ u, Within L u (act u)) :
    OutWithin L (s.at c.start) (commandWith s c op cls checks pl act) := by
  intro s' hs
  rcases commandWith_cases hs with rfl | ⟨r, rfl⟩ | rfl
  · exact hact _
  · simp [h]
  · exact within_self

theorem outWithin_command {c : Call} {op : Nat} {cls : Cls} {checks : State → List (Option Reject)} {act : State → State}
    (h : .ports ∈ L ∧ .sb ∈ L ∧ .fwq ∈ L) (hact : ∀ u, Within L u (act u)) : OutWithin L (s.at c.start) (command s c op cls checks act) :=
  outWithin_commandWith h hact


theorem execTrainingBlockRx_within (h : .free ∈ L ∧ .regs ∈ L ∧ .ports ∈ L) (t : Time) (p : PortIx) (block : List Byte) :
    OutWithin L (s.at t) (execTrainingBlockRx t p block s) := by
  unfold execTrainingBlockRx
  refine outWithin_event fun u => ?_
  split <;> simp [h]

theorem execTrainingTimeout_within (h : .regs ∈ L ∧ .ports ∈ L) (t : Time) (p : PortIx) : OutWithin L (s.at t) (execTrainingTimeout t p s) := by
  unfold execTrainingTimeout
  exact outWithin_event fun u => by simp [h]

theorem execBackoffEnd_within (h : .ports ∈ L) (t : Time) (p : PortIx) : OutWithin L (s.at t) (execBackoffEnd t p s) := by
  unfold execBackoffEnd
  exact outWithin_event fun u => by simp [h]

theorem execBeaconBurst_within (h : .ports ∈ L) (t : Time) (p : PortIx) : OutWithin L (s.at t) (execBeaconBurst t p s) := by
  unfold execBeaconBurst
  exact outWithin_event fun u => by simp [h]

theorem execUclkValid_within (h : .ports ∈ L) (t : Time) (p : PortIx) : OutWithin L (s.at t) (execUclkValid t p s) := by
  unfold execUclkValid
  exact outWithin_event fun u => by simp [h]

theorem execRateIdleEnd_within (h : .ports ∈ L) (t : Time) (p : PortIx) : OutWithin L (s.at t) (execRateIdleEnd t p s) := by
  unfold execRateIdleEnd
  exact outWithin_event fun u => by simp [h]

theorem execRateChangeStart_within (h : .free ∈ L ∧ .regs ∈ L ∧ .ports ∈ L ∧ .sb ∈ L ∧ .fwq ∈ L ∧ .slow ∈ L ∧ .pipe ∈ L) (t : Time) (p : PortIx) :
    OutWithin L (s.at t) (execRateChangeStart t p s) := by
  unfold execRateChangeStart
  exact outWithin_event fun u => by simp [h]

theorem execCtleSettingStep_within (h : .ports ∈ L) (t : Time) (p : PortIx) (height : Nat) :
    OutWithin L (s.at t) (execCtleSettingStep t p height s) := by
  unfold execCtleSettingStep
  exact outWithin_event fun u => by simp [h]

theorem execDfeAdapt_within (h : .ports ∈ L) (t : Time) (p : PortIx) (err : Bool) (data : List Bool) :
    OutWithin L (s.at t) (execDfeAdapt t p err data s) := by
  unfold execDfeAdapt
  exact outWithin_event fun u => by simp [h]

theorem execPhaseTrack_within (h : .ports ∈ L) (t : Time) (p : PortIx) (later : Bool) : OutWithin L (s.at t) (execPhaseTrack t p later s) := by
  unfold execPhaseTrack
  exact outWithin_event fun u => by simp [h]

theorem execLosOnset_within (h : .regs ∈ L ∧ .ports ∈ L) (t : Time) (p : PortIx) (lol : Bool) (ppm : Int) :
    OutWithin L (s.at t) (execLosOnset t p lol ppm s) := by
  unfold execLosOnset
  exact outWithin_event fun u => by simp [h]

theorem execLosClear_within (h : .regs ∈ L ∧ .ports ∈ L) (t : Time) (p : PortIx) (ppm : Option Int) :
    OutWithin L (s.at t) (execLosClear t p ppm s) := by
  unfold execLosClear
  refine outWithin_event fun u => ?_
  split <;> simp [h]

theorem execLosFailure_within (h : .free ∈ L ∧ .regs ∈ L ∧ .ports ∈ L ∧ .sb ∈ L ∧ .fwq ∈ L ∧ .slow ∈ L ∧ .pipe ∈ L)
    (t : Time) (p : PortIx) (lol : Bool) :
    OutWithin L (s.at t) (execLosFailure t p lol s) := by
  unfold execLosFailure
  exact outWithin_event fun u => by simp [h]

theorem execLinkStatus_within (h : .ports ∈ L ∧ .sb ∈ L ∧ .fwq ∈ L) (c : Call) : OutWithin L (s.at c.start) (execLinkStatus c s) := by
  unfold execLinkStatus
  exact outWithin_command (by simp [h]) fun u => by simp [h]

theorem execSetLinkRate_within (h : .free ∈ L ∧ .regs ∈ L ∧ .ports ∈ L ∧ .sb ∈ L ∧ .fwq ∈ L ∧ .slow ∈ L ∧ .pipe ∈ L) (c : Call) :
    OutWithin L (s.at c.start) (execSetLinkRate c s) := by
  unfold execSetLinkRate
  exact outWithin_command (by simp [h]) fun u => by simp [h]

theorem execLinkTest_within (h : .free ∈ L ∧ .regs ∈ L ∧ .ports ∈ L ∧ .sb ∈ L ∧ .fwq ∈ L ∧ .slow ∈ L ∧ .pipe ∈ L) (c : Call) :
    OutWithin L (s.at c.start) (execLinkTest c s) := by
  unfold execLinkTest
  exact outWithin_command (by simp [h]) fun u => by simp [h]

theorem execLinkTestEnd_within (h : .regs ∈ L ∧ .ports ∈ L ∧ .sb ∈ L ∧ .slow ∈ L) (t : Time) (r : TestEnd) :
    OutWithin L (s.at t) (execLinkTestEnd t r s) := by
  unfold execLinkTestEnd
  exact outWithin_event fun u => by simp [h]

theorem execErrorInjection_within (h : .regs ∈ L ∧ .ports ∈ L) (t : Time) (p : PortIx) : OutWithin L (s.at t) (execErrorInjection t p s) := by
  unfold execErrorInjection
  exact outWithin_event fun u => by simp [h]

theorem execPrbsSyncAcquired_within (h : .ports ∈ L) (t : Time) (p : PortIx) (rx : List Bool) :
    OutWithin L (s.at t) (execPrbsSyncAcquired t p rx s) := by
  unfold execPrbsSyncAcquired
  exact outWithin_event fun u => by simp [h]

theorem execPrbsSyncLoss_within (h : .regs ∈ L ∧ .ports ∈ L) (t : Time) (p : PortIx) (rx : List Bool) :
    OutWithin L (s.at t) (execPrbsSyncLoss t p rx s) := by
  unfold execPrbsSyncLoss
  exact outWithin_event fun u => by simp [h]

theorem execPrbsWindowEnd_within (h : .regs ∈ L ∧ .ports ∈ L) (t : Time) (p : PortIx) (errors : Nat) :
    OutWithin L (s.at t) (execPrbsWindowEnd t p errors s) := by
  unfold execPrbsWindowEnd
  exact outWithin_event fun u => by simp [h]

theorem execHoldExpiry_within (h : .ports ∈ L ∧ .pipe ∈ L ∧ .aux ∈ L ∧ .mem ∈ L ∧ .fm ∈ L ∧ .ring ∈ L) (t : Time) (p : PortIx) :
    OutWithin L (s.at t) (execHoldExpiry t p s) := by
  unfold execHoldExpiry
  exact outWithin_event fun u => by simp [h]

theorem execAlignmentMarkerTx_within (h : .ports ∈ L) (t : Time) (p : PortIx) : OutWithin L (s.at t) (execAlignmentMarkerTx t p s) := by
  unfold execAlignmentMarkerTx
  exact outWithin_event fun u => by simp [h]

theorem execAlignmentMarkerRx_within (h : .free ∈ L ∧ .regs ∈ L ∧ .leases ∈ L ∧ .leaseLog ∈ L ∧ .arrayLapsed ∈ L ∧ .ports ∈ L ∧ .sb ∈ L ∧ .fwq ∈ L ∧
    .slow ∈ L ∧ .rs ∈ L ∧ .sec ∈ L ∧ .pipe ∈ L ∧ .aux ∈ L ∧ .mem ∈ L ∧ .fm ∈ L ∧ .ring ∈ L)
    (t : Time) (p : PortIx) (marker : List Byte) :
    OutWithin L (s.at t) (execAlignmentMarkerRx t p marker s) := by
  unfold execAlignmentMarkerRx
  exact outWithin_event fun u => by simp [h]

theorem execUpstreamCodeword_within (h : .regs ∈ L ∧ .log ∈ L ∧ .ports ∈ L ∧ .sb ∈ L ∧ .fwq ∈ L ∧ .rs ∈ L ∧ .mem ∈ L)
    (t : Time) (p : PortIx) (levels : List (Fin 4)) :
    OutWithin L (s.at t) (execUpstreamCodeword t p levels s) := by
  unfold execUpstreamCodeword
  refine outWithin_event fun u => ?_
  dsimp only
  (repeat' split) <;> simp [h]

theorem execAck_within (h : .regs ∈ L ∧ .log ∈ L ∧ .ports ∈ L ∧ .sb ∈ L ∧ .fwq ∈ L ∧ .rs ∈ L ∧ .mem ∈ L) (t : Time) (p : PortIx) (body : List Byte) :
    OutWithin L (s.at t) (execAck t p body s) := by
  unfold execAck
  exact outWithin_event fun u => by simp [h]

theorem execCredit_within (h : .regs ∈ L ∧ .ports ∈ L) (t : Time) (p : PortIx) (body : List Byte) : OutWithin L (s.at t) (execCredit t p body s) := by
  unfold execCredit
  exact outWithin_event fun u => by simp [h]

theorem execTrainCell_within (h : .free ∈ L ∧ .regs ∈ L ∧ .ports ∈ L ∧ .sb ∈ L ∧ .fwq ∈ L ∧ .slow ∈ L ∧ .pipe ∈ L)
    (t : Time) (p : PortIx) (body : List Byte) :
    OutWithin L (s.at t) (execTrainCell t p body s) := by
  unfold execTrainCell
  exact outWithin_event fun u => by simp [h]

theorem execUpstreamTimeCell_within (h : .regs ∈ L ∧ .ports ∈ L) (t : Time) (p : PortIx) (body : List Byte) :
    OutWithin L (s.at t) (execUpstreamTimeCell t p body s) := by
  unfold execUpstreamTimeCell
  refine outWithin_event fun u => ?_
  dsimp only
  (repeat' split) <;> simp [h]

theorem execTrigCell_within (h : .regs ∈ L ∧ .ports ∈ L ∧ .arr ∈ L) (t : Time) (p : PortIx) (body : List Byte) :
    OutWithin L (s.at t) (execTrigCell t p body s) := by
  unfold execTrigCell
  exact outWithin_event fun u => by simp [h]

theorem execDownstreamCellSlot_within (h : .free ∈ L ∧ .regs ∈ L ∧ .ports ∈ L ∧ .sb ∈ L ∧ .fwq ∈ L ∧ .slow ∈ L ∧ .misses ∈ L ∧ .rs ∈ L ∧ .pipe ∈ L ∧
    .mem ∈ L ∧ .fm ∈ L ∧ .ring ∈ L)
    (t : Time) (p : PortIx) :
    OutWithin L (s.at t) (execDownstreamCellSlot t p s) := by
  unfold execDownstreamCellSlot
  refine outWithin_event fun u => ?_
  dsimp only
  (repeat' split) <;> simp [h]

theorem execRtoExpiry_within (h : .regs ∈ L ∧ .log ∈ L ∧ .ports ∈ L) (t : Time) (p : PortIx) : OutWithin L (s.at t) (execRtoExpiry t p s) := by
  unfold execRtoExpiry
  exact outWithin_event fun u => by simp [h]

theorem execRequestEntry_within (h : .regs ∈ L ∧ .ports ∈ L ∧ .fwq ∈ L) (t : Time) (p : PortIx) (entry : List Byte) :
    OutWithin L (s.at t) (execRequestEntry t p entry s) := by
  unfold execRequestEntry
  exact outWithin_event fun u => by simp [h]

theorem execChainTimeout_within (h : .regs ∈ L ∧ .ports ∈ L) (t : Time) (p : PortIx) : OutWithin L (s.at t) (execChainTimeout t p s) := by
  unfold execChainTimeout
  refine outWithin_event fun u => ?_
  split <;> simp [h]

theorem execDoorbell_within (h : .regs ∈ L ∧ .ports ∈ L) (t : Time) (p : PortIx) (body : List Byte) :
    OutWithin L (s.at t) (execDoorbell t p body s) := by
  unfold execDoorbell
  exact outWithin_event fun u => by simp [h]

theorem execResponsePost_within (h : .ports ∈ L) (t : Time) (p : PortIx) : OutWithin L (s.at t) (execResponsePost t p s) := by
  unfold execResponsePost
  exact outWithin_event fun u => by simp [h]

theorem execCompleteDrop_within (h : .regs ∈ L ∧ .ports ∈ L) (t : Time) (p : PortIx) : OutWithin L (s.at t) (execCompleteDrop t p s) := by
  unfold execCompleteDrop
  exact outWithin_event fun u => by simp [h]

theorem execSbSubmit_within (h : .regs ∈ L ∧ .sb ∈ L ∧ .fwq ∈ L) (t : Time) (request : List Byte) :
    OutWithin L (s.at t) (execSbSubmit t request s) := by
  unfold execSbSubmit
  refine outWithin_event fun u => ?_
  dsimp only
  (repeat' split) <;> simp [h]

theorem execSbDone_within (h : .sb ∈ L ∧ .rs ∈ L) (t : Time) : OutWithin L (s.at t) (execSbDone t s) := by
  unfold execSbDone
  refine outWithin_event fun u => ?_
  dsimp only
  (repeat' split) <;> simp [h]

theorem execSbAbort_within (h : .sb ∈ L ∧ .fwq ∈ L) (t : Time) : OutWithin L (s.at t) (execSbAbort t s) := by
  unfold execSbAbort
  refine outWithin_event fun u => ?_
  dsimp only
  (repeat' split) <;> simp [h]

theorem execEnec_within (h : .sb ∈ L) (t : Time) (events : Byte) : OutWithin L (s.at t) (execEnec t events s) := by
  unfold execEnec
  exact outWithin_event fun u => by simp [h]

theorem execDisec_within (h : .sb ∈ L) (t : Time) (events : Byte) : OutWithin L (s.at t) (execDisec t events s) := by
  unfold execDisec
  exact outWithin_event fun u => by simp [h]

theorem execRstdaa_within (h : .sb ∈ L) (t : Time) : OutWithin L (s.at t) (execRstdaa t s) := by
  unfold execRstdaa
  exact outWithin_event fun u => by simp [h]

theorem execEntdaa_within (h : .sb ∈ L) (t : Time) (addr : BitVec 7) : OutWithin L (s.at t) (execEntdaa t addr s) := by
  unfold execEntdaa
  exact outWithin_event fun u => by simp [h]

theorem execSetdasa_within (h : .sb ∈ L) (t : Time) (static addr : BitVec 7) : OutWithin L (s.at t) (execSetdasa t static addr s) := by
  unfold execSetdasa
  exact outWithin_event fun u => by simp [h]

theorem execSetnewda_within (h : .sb ∈ L) (t : Time) (addr : BitVec 7) : OutWithin L (s.at t) (execSetnewda t addr s) := by
  unfold execSetnewda
  exact outWithin_event fun u => by simp [h]

theorem execSetmwl_within (h : .sb ∈ L) (t : Time) (len : BitVec 16) : OutWithin L (s.at t) (execSetmwl t len s) := by
  unfold execSetmwl
  exact outWithin_event fun u => by simp [h]

theorem execSetmrl_within (h : .sb ∈ L) (t : Time) (len : BitVec 16) : OutWithin L (s.at t) (execSetmrl t len s) := by
  unfold execSetmrl
  exact outWithin_event fun u => by simp [h]

theorem execGetmwl_within (h : .sb ∈ L) (t : Time) : OutWithin L (s.at t) (execGetmwl t s) := by
  unfold execGetmwl
  exact outWithin_event fun u => by simp [h]

theorem execGetmrl_within (h : .sb ∈ L) (t : Time) : OutWithin L (s.at t) (execGetmrl t s) := by
  unfold execGetmrl
  exact outWithin_event fun u => by simp [h]

theorem execGetpid_within (h : .sb ∈ L) (t : Time) : OutWithin L (s.at t) (execGetpid t s) := by
  unfold execGetpid
  exact outWithin_event fun u => by simp [h]

theorem execGetbcr_within (h : .sb ∈ L) (t : Time) : OutWithin L (s.at t) (execGetbcr t s) := by
  unfold execGetbcr
  exact outWithin_event fun u => by simp [h]

theorem execGetdcr_within (h : .sb ∈ L) (t : Time) : OutWithin L (s.at t) (execGetdcr t s) := by
  unfold execGetdcr
  exact outWithin_event fun u => by simp [h]

theorem execGetstatus_within (h : .free ∈ L ∧ .sb ∈ L) (t : Time) : OutWithin L (s.at t) (execGetstatus t s) := by
  unfold execGetstatus
  exact outWithin_event fun u => by simp [h]

theorem execHello_within (h : .ports ∈ L ∧ .sb ∈ L ∧ .fwq ∈ L) (c : Call) : OutWithin L (s.at c.start) (execHello c s) := by
  unfold execHello
  exact outWithin_command (by simp [h]) fun u => by simp [h]

theorem execGetInfo_within (h : .ports ∈ L ∧ .sb ∈ L ∧ .fwq ∈ L) (c : Call) : OutWithin L (s.at c.start) (execGetInfo c s) := by
  unfold execGetInfo
  exact outWithin_command (by simp [h]) fun u => by simp [h]

theorem execGetStatus_within (h : .ports ∈ L ∧ .sb ∈ L ∧ .fwq ∈ L) (c : Call) : OutWithin L (s.at c.start) (execGetStatus c s) := by
  unfold execGetStatus
  exact outWithin_command (by simp [h]) fun u => by simp [h]

theorem execResetDevice_within (h : .ports ∈ L ∧ .sb ∈ L ∧ .fwq ∈ L ∧ .rs ∈ L) (c : Call) : OutWithin L (s.at c.start) (execResetDevice c s) := by
  unfold execResetDevice
  exact outWithin_command (by simp [h]) fun u => by simp [h]

theorem execSetPowerState_within (h : .regs ∈ L ∧ .log ∈ L ∧ .ports ∈ L ∧ .sb ∈ L ∧ .fwq ∈ L ∧ .slow ∈ L ∧ .diag ∈ L ∧ .pw ∈ L ∧ .rs ∈ L ∧ .arr ∈ L ∧
    .pipe ∈ L ∧ .aux ∈ L ∧ .mem ∈ L ∧ .fm ∈ L ∧ .ring ∈ L)
    (c : Call) :
    OutWithin L (s.at c.start) (execSetPowerState c s) := by
  unfold execSetPowerState
  exact outWithin_command (by simp [h]) fun u => by simp [h]

theorem execPumpsSettled_within (h : .regs ∈ L ∧ .log ∈ L ∧ .ports ∈ L ∧ .sb ∈ L ∧ .slow ∈ L ∧ .diag ∈ L ∧ .pw ∈ L ∧ .rs ∈ L ∧ .arr ∈ L ∧ .aux ∈ L)
    (t : Time) :
    OutWithin L (s.at t) (execPumpsSettled t s) := by
  unfold execPumpsSettled
  refine outWithin_event fun u => ?_
  dsimp only
  (repeat' split) <;> simp [h]

theorem execSlowCommandTimeout_within (h : .regs ∈ L ∧ .ports ∈ L ∧ .sb ∈ L ∧ .slow ∈ L) (t : Time) (opcode : BitVec 16) :
    OutWithin L (s.at t) (execSlowCommandTimeout t opcode s) := by
  unfold execSlowCommandTimeout
  refine outWithin_event fun u => ?_
  split <;> simp [h]

theorem execGetFaults_within (h : .ports ∈ L ∧ .sb ∈ L ∧ .fwq ∈ L) (c : Call) : OutWithin L (s.at c.start) (execGetFaults c s) := by
  unfold execGetFaults
  exact outWithin_command (by simp [h]) fun u => by simp [h]

theorem execClearFaults_within (h : .log ∈ L ∧ .ports ∈ L ∧ .sb ∈ L ∧ .fwq ∈ L) (c : Call) : OutWithin L (s.at c.start) (execClearFaults c s) := by
  unfold execClearFaults
  exact outWithin_command (by simp [h]) fun u => by simp [h]

theorem execFaultRepeat_within (h : .regs ∈ L ∧ .log ∈ L ∧ .ports ∈ L) (t : Time) (code inst : BitVec 16) :
    OutWithin L (s.at t) (execFaultRepeat t code inst s) := by
  unfold execFaultRepeat
  refine outWithin_event fun u => ?_
  split <;> simp [h]

theorem execTimeSync_within (h : .clk ∈ L ∧ .ports ∈ L ∧ .sb ∈ L ∧ .fwq ∈ L ∧ .pio ∈ L) (c : Call) :
    OutWithin L (s.at c.start) (execTimeSync c s) := by
  unfold execTimeSync
  exact outWithin_command (by simp [h]) fun u => by simp [h]

theorem execDtimeSlewEnd_within (h : .clk ∈ L) (t : Time) : OutWithin L (s.at t) (execDtimeSlewEnd t s) := by
  unfold execDtimeSlewEnd
  exact outWithin_event fun u => by simp [h]

theorem execAcquireLease_within (h : .regs ∈ L ∧ .leases ∈ L ∧ .leaseLog ∈ L ∧ .lastArrayHolder ∈ L ∧ .arrayLapsed ∈ L ∧ .ports ∈ L ∧ .sb ∈ L ∧ .fwq
    ∈ L ∧ .arr ∈ L)
    (c : Call) :
    OutWithin L (s.at c.start) (execAcquireLease c s) := by
  unfold execAcquireLease
  refine outWithin_command (by simp [h]) fun u => ?_
  dsimp only
  (repeat' split) <;> simp [h]

theorem execReleaseLease_within (h : .regs ∈ L ∧ .leases ∈ L ∧ .leaseLog ∈ L ∧ .arrayLapsed ∈ L ∧ .ports ∈ L ∧ .sb ∈ L ∧ .fwq ∈ L) (c : Call) :
    OutWithin L (s.at c.start) (execReleaseLease c s) := by
  unfold execReleaseLease
  exact outWithin_command (by simp [h]) fun u => by simp [h]

theorem execRenewLease_within (h : .regs ∈ L ∧ .leases ∈ L ∧ .leaseLog ∈ L ∧ .arrayLapsed ∈ L ∧ .ports ∈ L ∧ .sb ∈ L ∧ .fwq ∈ L) (c : Call) :
    OutWithin L (s.at c.start) (execRenewLease c s) := by
  unfold execRenewLease
  exact outWithin_command (by simp [h]) fun u => by simp [h]

theorem execLeaseExpiry_within (h : .regs ∈ L ∧ .leases ∈ L ∧ .leaseLog ∈ L ∧ .arrayLapsed ∈ L ∧ .ports ∈ L) (t : Time) (r : Fin 30) :
    OutWithin L (s.at t) (execLeaseExpiry t r s) := by
  unfold execLeaseExpiry
  exact outWithin_event fun u => by simp [h]

theorem execLeaseLapse_within (h : .regs ∈ L ∧ .leases ∈ L ∧ .leaseLog ∈ L ∧ .arrayLapsed ∈ L ∧ .ports ∈ L ∧ .sec ∈ L ∧ .pipe ∈ L)
    (t : Time) (p : PortIx) :
    OutWithin L (s.at t) (execLeaseLapse t p s) := by
  unfold execLeaseLapse
  exact outWithin_event fun u => by simp [h]

theorem execConverterSelfTest_within (h : .diag ∈ L) (t : Time) : OutWithin L (s.at t) (execConverterSelfTest t s) := by
  unfold execConverterSelfTest
  exact outWithin_event fun u => by simp [h]

theorem execMemorySelfTest_within (h : .diag ∈ L) (t : Time) : OutWithin L (s.at t) (execMemorySelfTest t s) := by
  unfold execMemorySelfTest
  exact outWithin_event fun u => by simp [h]

theorem execLinkSelfTest_within (h : .diag ∈ L) (t : Time) : OutWithin L (s.at t) (execLinkSelfTest t s) := by
  unfold execLinkSelfTest
  exact outWithin_event fun u => by simp [h]

theorem execSetArrayMode_within (h : .ports ∈ L ∧ .sb ∈ L ∧ .fwq ∈ L ∧ .arr ∈ L) (c : Call) : OutWithin L (s.at c.start) (execSetArrayMode c s) := by
  unfold execSetArrayMode
  exact outWithin_command (by simp [h]) fun u => by simp [h]

theorem execSetFrameTiming_within (h : .ports ∈ L ∧ .sb ∈ L ∧ .fwq ∈ L ∧ .arr ∈ L) (c : Call) :
    OutWithin L (s.at c.start) (execSetFrameTiming c s) := by
  unfold execSetFrameTiming
  exact outWithin_command (by simp [h]) fun u => by simp [h]

theorem execSetTileExposure_within (h : .ports ∈ L ∧ .sb ∈ L ∧ .fwq ∈ L ∧ .arr ∈ L) (c : Call) :
    OutWithin L (s.at c.start) (execSetTileExposure c s) := by
  unfold execSetTileExposure
  exact outWithin_command (by simp [h]) fun u => by simp [h]

theorem execSetTileGain_within (h : .ports ∈ L ∧ .sb ∈ L ∧ .fwq ∈ L ∧ .arr ∈ L) (c : Call) : OutWithin L (s.at c.start) (execSetTileGain c s) := by
  unfold execSetTileGain
  exact outWithin_command (by simp [h]) fun u => by simp [h]

theorem execSetGovernor_within (h : .ports ∈ L ∧ .sb ∈ L ∧ .fwq ∈ L ∧ .arr ∈ L) (c : Call) : OutWithin L (s.at c.start) (execSetGovernor c s) := by
  unfold execSetGovernor
  exact outWithin_command (by simp [h]) fun u => by simp [h]

theorem execSetSlicing_within (h : .ports ∈ L ∧ .sb ∈ L ∧ .fwq ∈ L ∧ .arr ∈ L) (c : Call) : OutWithin L (s.at c.start) (execSetSlicing c s) := by
  unfold execSetSlicing
  exact outWithin_command (by simp [h]) fun u => by simp [h]

theorem execSetTileEnable_within (h : .ports ∈ L ∧ .sb ∈ L ∧ .fwq ∈ L ∧ .arr ∈ L) (c : Call) :
    OutWithin L (s.at c.start) (execSetTileEnable c s) := by
  unfold execSetTileEnable
  exact outWithin_command (by simp [h]) fun u => by simp [h]

theorem execCommitSettings_within (h : .regs ∈ L ∧ .ports ∈ L ∧ .sb ∈ L ∧ .fwq ∈ L ∧ .arr ∈ L ∧ .pipe ∈ L ∧ .mem ∈ L ∧ .fm ∈ L ∧ .ring ∈ L ∧ .th ∈ L)
    (c : Call) :
    OutWithin L (s.at c.start) (execCommitSettings c s) := by
  unfold execCommitSettings
  refine outWithin_command (by simp [h]) fun u => ?_
  have hr : Within L u (reserveSpill (unlatch u c.stamp) u.arr.staged) := by simp [h]
  obtain ⟨r, he⟩ : ∃ r, r = reserveSpill (unlatch u c.stamp) u.arr.staged := ⟨_, rfl⟩
  rw [← he] at hr ⊢
  simp [h, hr]

theorem execTriggerFrame_within (h : .regs ∈ L ∧ .ports ∈ L ∧ .sb ∈ L ∧ .fwq ∈ L ∧ .arr ∈ L) (c : Call) :
    OutWithin L (s.at c.start) (execTriggerFrame c s) := by
  unfold execTriggerFrame
  refine outWithin_command (by simp [h]) fun u => ?_
  split <;> simp [h]

theorem execTriggerAt_within (h : .ports ∈ L ∧ .sb ∈ L ∧ .fwq ∈ L ∧ .arr ∈ L) (c : Call) : OutWithin L (s.at c.start) (execTriggerAt c s) := by
  unfold execTriggerAt
  exact outWithin_command (by simp [h]) fun u => by simp [h]

theorem execTriggerAtDue_within (h : .regs ∈ L ∧ .arr ∈ L) (t : Time) : OutWithin L (s.at t) (execTriggerAtDue t s) := by
  unfold execTriggerAtDue
  refine outWithin_event fun u => ?_
  split <;> simp [h]

theorem execStartArray_within (h : .ports ∈ L ∧ .sb ∈ L ∧ .fwq ∈ L ∧ .arr ∈ L) (c : Call) : OutWithin L (s.at c.start) (execStartArray c s) := by
  unfold execStartArray
  exact outWithin_command (by simp [h]) fun u => by simp [h]

theorem execStopArray_within (h : .regs ∈ L ∧ .ports ∈ L ∧ .sb ∈ L ∧ .fwq ∈ L ∧ .arr ∈ L ∧ .pipe ∈ L) (c : Call) :
    OutWithin L (s.at c.start) (execStopArray c s) := by
  unfold execStopArray
  exact outWithin_command (by simp [h]) fun u => by simp [h]

theorem execExposureLatchPoint_within (h : .regs ∈ L ∧ .ports ∈ L ∧ .arr ∈ L ∧ .pipe ∈ L ∧ .mem ∈ L ∧ .ring ∈ L ∧ .th ∈ L) (t : Time) :
    OutWithin L (s.at t) (execExposureLatchPoint t s) := by
  unfold execExposureLatchPoint
  exact outWithin_event fun u => by simp [h]

theorem execFrameStart_within (h : .regs ∈ L ∧ .ports ∈ L ∧ .arr ∈ L ∧ .pipe ∈ L ∧ .ring ∈ L ∧ .pio ∈ L) (t : Time) :
    OutWithin L (s.at t) (execFrameStart t s) := by
  unfold execFrameStart
  exact outWithin_event fun u => by simp [h]

theorem execArrayArm_within (h : .arr ∈ L) (t : Time) : OutWithin L (s.at t) (execArrayArm t s) := by
  unfold execArrayArm
  exact outWithin_event fun u => by simp [h]

theorem execOverheadSlot_within (h : .regs ∈ L ∧ .log ∈ L ∧ .ports ∈ L ∧ .arr ∈ L)
    (t : Time) (samples : List (TileIx × List (Nat × Nat))) (ramp : List (TileIx × Int)) :
    OutWithin L (s.at t) (execOverheadSlot t samples ramp s) := by
  unfold execOverheadSlot
  exact outWithin_event fun u => by simp [h]

theorem execRowSlot_within (h : .free ∈ L ∧ .regs ∈ L ∧ .log ∈ L ∧ .ports ∈ L ∧ .arr ∈ L ∧ .pipe ∈ L ∧ .mem ∈ L ∧ .fm ∈ L)
    (t : Time) (samples : List (TileIx × List (Nat × Nat))) :
    OutWithin L (s.at t) (execRowSlot t samples s) := by
  unfold execRowSlot
  exact outWithin_event fun u => by simp [h]

theorem execIntegrationStart_within (h : .arr ∈ L) (t : Time) (tile : TileIx) (row : Nat) (exp : Fin 4) :
    OutWithin L (s.at t) (execIntegrationStart t tile row exp s) := by
  unfold execIntegrationStart
  refine outWithin_event fun u => ?_
  split <;> simp [h]

theorem execIntegrationSlice_within (h : .arr ∈ L) (t : Time) (tile : TileIx) (row : Nat) (exp : Fin 4) :
    OutWithin L (s.at t) (execIntegrationSlice t tile row exp s) := by
  unfold execIntegrationSlice
  refine outWithin_event fun u => ?_
  split <;> simp [h]

theorem execMosaicLineTransfer_within (h : .regs ∈ L ∧ .log ∈ L ∧ .ports ∈ L ∧ .arr ∈ L ∧ .pipe ∈ L ∧ .mem ∈ L ∧ .fm ∈ L)
    (t : Time) (tile : TileIx) (crcOk : Bool) :
    OutWithin L (s.at t) (execMosaicLineTransfer t tile crcOk s) := by
  unfold execMosaicLineTransfer
  exact outWithin_event fun u => by simp [h]

theorem execSpillFetchComplete_within (h : .regs ∈ L ∧ .arr ∈ L) (t : Time) (tile : TileIx) (kind : Fin 8) (row : Nat) (ok : Bool) :
    OutWithin L (s.at t) (execSpillFetchComplete t tile kind row ok s) := by
  unfold execSpillFetchComplete
  refine outWithin_event fun u => ?_
  split <;> simp [h]

theorem execStatsComplete_within (h : .regs ∈ L ∧ .ports ∈ L ∧ .arr ∈ L ∧ .th ∈ L) (t : Time) : OutWithin L (s.at t) (execStatsComplete t s) := by
  unfold execStatsComplete
  refine outWithin_event fun u => ?_
  split <;> simp [h]

theorem execGovernorOutput_within (h : .arr ∈ L) (t : Time) : OutWithin L (s.at t) (execGovernorOutput t s) := by
  unfold execGovernorOutput
  refine outWithin_event fun u => ?_
  dsimp only
  (repeat' split) <;> simp [h]

theorem execAuxFrameStart_within (h : .regs ∈ L ∧ .ports ∈ L ∧ .pipe ∈ L ∧ .aux ∈ L ∧ .mem ∈ L ∧ .fm ∈ L ∧ .ring ∈ L)
    (t : Time) (n : AuxIx) (head : BitVec 24) (ecc : Byte) :
    OutWithin L (s.at t) (execAuxFrameStart t n head ecc s) := by
  unfold execAuxFrameStart
  exact outWithin_event fun u => by simp [h]

theorem execAuxFrameEnd_within (h : .regs ∈ L ∧ .ports ∈ L ∧ .pipe ∈ L ∧ .aux ∈ L ∧ .mem ∈ L ∧ .fm ∈ L)
    (t : Time) (n : AuxIx) (head : BitVec 24) (ecc : Byte) :
    OutWithin L (s.at t) (execAuxFrameEnd t n head ecc s) := by
  unfold execAuxFrameEnd
  exact outWithin_event fun u => by simp [h]

theorem execAuxLongPacket_within (h : .free ∈ L ∧ .regs ∈ L ∧ .log ∈ L ∧ .ports ∈ L ∧ .pipe ∈ L ∧ .aux ∈ L ∧ .mem ∈ L ∧ .fm ∈ L)
    (t : Time) (n : AuxIx) (di : Byte) (wc : BitVec 16) (ecc : Byte) (payload : List Byte) (crc : BitVec 16) :
    OutWithin L (s.at t) (execAuxLongPacket t n di wc ecc payload crc s) := by
  unfold execAuxLongPacket
  exact outWithin_event fun u => by simp [h]

theorem execSkewCalibration_within (h : .aux ∈ L) (t : Time) (n : AuxIx) (lane : Fin 4) (initial : Bool) :
    OutWithin L (s.at t) (execSkewCalibration t n lane initial s) := by
  unfold execSkewCalibration
  exact outWithin_event fun u => by simp [h]

theorem execAuxLos_within (h : .regs ∈ L ∧ .log ∈ L ∧ .ports ∈ L ∧ .pipe ∈ L ∧ .aux ∈ L ∧ .mem ∈ L ∧ .fm ∈ L)
    (t : Time) (n : AuxIx) (lanes : BitVec 4) :
    OutWithin L (s.at t) (execAuxLos t n lanes s) := by
  unfold execAuxLos
  exact outWithin_event fun u => by simp [h]

theorem execAuxLosRecover_within (h : .regs ∈ L ∧ .log ∈ L ∧ .ports ∈ L ∧ .aux ∈ L) (t : Time) (n : AuxIx) :
    OutWithin L (s.at t) (execAuxLosRecover t n s) := by
  unfold execAuxLosRecover
  exact outWithin_event fun u => by simp [h]

theorem execAuxLate_within (h : .regs ∈ L ∧ .ports ∈ L ∧ .pipe ∈ L ∧ .aux ∈ L) (t : Time) (n : AuxIx) (vc : Fin 4) :
    OutWithin L (s.at t) (execAuxLate t n vc s) := by
  unfold execAuxLate
  exact outWithin_event fun u => by simp [h]

theorem execAuxStatsComplete_within (h : .ports ∈ L ∧ .arr ∈ L ∧ .aux ∈ L) (t : Time) (n : AuxIx) :
    OutWithin L (s.at t) (execAuxStatsComplete t n s) := by
  unfold execAuxStatsComplete
  refine outWithin_event fun u => ?_
  split <;> simp [h]

theorem execConfigAux_within (h : .regs ∈ L ∧ .log ∈ L ∧ .ports ∈ L ∧ .sb ∈ L ∧ .fwq ∈ L ∧ .pipe ∈ L ∧ .aux ∈ L) (c : Call) :
    OutWithin L (s.at c.start) (execConfigAux c s) := by
  unfold execConfigAux
  exact outWithin_command (by simp [h]) fun u => by simp [h]

theorem execAuxStatus_within (h : .ports ∈ L ∧ .sb ∈ L ∧ .fwq ∈ L) (c : Call) : OutWithin L (s.at c.start) (execAuxStatus c s) := by
  unfold execAuxStatus
  exact outWithin_command (by simp [h]) fun u => by simp [h]

theorem execChargerVioSample_within (h : .hold ∈ L) (t : Time) (mv : Nat) : OutWithin L (s.at t) (execChargerVioSample t mv s) := by
  unfold execChargerVioSample
  exact outWithin_event fun u => by simp [h]

theorem execChargerLimitDown_within (h : .hold ∈ L) (t : Time) : OutWithin L (s.at t) (execChargerLimitDown t s) := by
  unfold execChargerLimitDown
  exact outWithin_event fun u => by simp [h]

theorem execChargerLimitUp_within (h : .hold ∈ L) (t : Time) : OutWithin L (s.at t) (execChargerLimitUp t s) := by
  unfold execChargerLimitUp
  exact outWithin_event fun u => by simp [h]

theorem execChargerRestStart_within (h : .regs ∈ L ∧ .log ∈ L ∧ .ports ∈ L ∧ .hold ∈ L) (t : Time) (mean dq v1 iOut : Nat) :
    OutWithin L (s.at t) (execChargerRestStart t mean dq v1 iOut s) := by
  unfold execChargerRestStart
  exact outWithin_event fun u => by simp [h]

theorem execChargerPulseEnd_within (h : .regs ∈ L ∧ .log ∈ L ∧ .ports ∈ L ∧ .hold ∈ L) (t : Time) (ocv ohm : Nat) :
    OutWithin L (s.at t) (execChargerPulseEnd t ocv ohm s) := by
  unfold execChargerPulseEnd
  exact outWithin_event fun u => by simp [h]

theorem execChargerOcvCheck_within (h : .regs ∈ L ∧ .log ∈ L ∧ .ports ∈ L ∧ .hold ∈ L) (t : Time) (ocv : Nat) :
    OutWithin L (s.at t) (execChargerOcvCheck t ocv s) := by
  unfold execChargerOcvCheck
  refine outWithin_event fun u => ?_
  dsimp only
  (repeat' split) <;> simp [h]

theorem execChargeBudgetExceeded_within (h : .regs ∈ L ∧ .log ∈ L ∧ .ports ∈ L ∧ .hold ∈ L) (t : Time) (dq : Nat) :
    OutWithin L (s.at t) (execChargeBudgetExceeded t dq s) := by
  unfold execChargeBudgetExceeded
  exact outWithin_event fun u => by simp [h]

theorem execChargeTargetReached_within (h : .hold ∈ L) (t : Time) (mv : Nat) : OutWithin L (s.at t) (execChargeTargetReached t mv s) := by
  unfold execChargeTargetReached
  exact outWithin_event fun u => by simp [h]

theorem execNtcRead_within (h : .regs ∈ L ∧ .log ∈ L ∧ .ports ∈ L ∧ .hold ∈ L) (t : Time) (ohm : Nat) :
    OutWithin L (s.at t) (execNtcRead t ohm s) := by
  unfold execNtcRead
  exact outWithin_event fun u => by simp [h]

theorem execLanternPatternTick_within (h : .hold ∈ L) (t : Time) (pin : Fin 2) : OutWithin L (s.at t) (execLanternPatternTick t pin s) := by
  unfold execLanternPatternTick
  exact outWithin_event fun u => by simp [h]

theorem execConfigHoldup_within (h : .regs ∈ L ∧ .log ∈ L ∧ .ports ∈ L ∧ .sb ∈ L ∧ .fwq ∈ L ∧ .hold ∈ L) (c : Call) :
    OutWithin L (s.at c.start) (execConfigHoldup c s) := by
  unfold execConfigHoldup
  exact outWithin_command (by simp [h]) fun u => by simp [h]

theorem execHoldupStatus_within (h : .ports ∈ L ∧ .sb ∈ L ∧ .fwq ∈ L) (c : Call) : OutWithin L (s.at c.start) (execHoldupStatus c s) := by
  unfold execHoldupStatus
  exact outWithin_command (by simp [h]) fun u => by simp [h]

theorem execMemRequest_within (h : .mem ∈ L) (t : Time) (cls : Fin 6) (inst : Byte) (fma : Nat) (write : Option (BitVec 64 × List Byte)) :
    OutWithin L (s.at t) (execMemRequest t cls inst fma write s) := by
  intro s' hs
  simp only [execMemRequest] at hs
  (repeat' split at hs) <;> cases hs <;> simp [h]

theorem execMemPick_within (h : .regs ∈ L ∧ .log ∈ L ∧ .ports ∈ L ∧ .mem ∈ L) (t : Time) (sc : Fin 8) :
    OutWithin L (s.at t) (execMemPick t sc s) := by
  unfold execMemPick
  refine outWithin_event fun u => ?_
  split <;> simp [h]

theorem execEntryAged_within (h : .mem ∈ L) (t : Time) (q : Fin 256) : OutWithin L (s.at t) (execEntryAged t q s) := by
  unfold execEntryAged
  exact outWithin_event fun u => by simp [h]

theorem execMemAccessComplete_within (h : .regs ∈ L ∧ .log ∈ L ∧ .ports ∈ L ∧ .sb ∈ L ∧ .fwq ∈ L ∧ .slow ∈ L ∧ .pw ∈ L ∧ .arr ∈ L ∧ .pipe ∈ L ∧ .aux
    ∈ L ∧ .mem ∈ L ∧ .fm ∈ L ∧ .ring ∈ L)
    (t : Time) (q : Fin 256) (flips chk : List (Nat × Nat)) :
    OutWithin L (s.at t) (execMemAccessComplete t q flips chk s) := by
  unfold execMemAccessComplete
  refine outWithin_event fun u => ?_
  dsimp only
  (repeat' split) <;> simp [h]

theorem execRefreshDue_within (h : .mem ∈ L) (t : Time) (q : Fin 256) : OutWithin L (s.at t) (execRefreshDue t q s) := by
  unfold execRefreshDue
  exact outWithin_event fun u => by simp [h]

theorem execRefreshRatePoll_within (h : .mem ∈ L) (t : Time) (reports : List (Fin 3)) : OutWithin L (s.at t) (execRefreshRatePoll t reports s) := by
  unfold execRefreshRatePoll
  exact outWithin_event fun u => by simp [h]

theorem execPowerDownEntry_within (h : .mem ∈ L) (t : Time) (sc : Fin 8) (rank : Fin 2) : OutWithin L (s.at t) (execPowerDownEntry t sc rank s) := by
  unfold execPowerDownEntry
  exact outWithin_event fun u => by simp [h]

theorem execEccLineIdle_within (h : .mem ∈ L) (t : Time) (sc : Fin 8) (block : Nat) (used : Time) :
    OutWithin L (s.at t) (execEccLineIdle t sc block used s) := by
  unfold execEccLineIdle
  exact outWithin_event fun u => by simp [h]

theorem execRowhammerWindow_within (h : .mem ∈ L) (t : Time) : OutWithin L (s.at t) (execRowhammerWindow t s) := by
  unfold execRowhammerWindow
  exact outWithin_event fun u => by simp [h]

theorem execMemcBinTargetWrite_within (h : .regs ∈ L ∧ .log ∈ L ∧ .ports ∈ L ∧ .sb ∈ L ∧ .fwq ∈ L ∧ .slow ∈ L ∧ .pw ∈ L ∧ .arr ∈ L ∧ .pipe ∈ L ∧ .aux
    ∈ L ∧ .mem ∈ L ∧ .fm ∈ L ∧ .ring ∈ L)
    (t : Time) (target : BitVec 2) :
    OutWithin L (s.at t) (execMemcBinTargetWrite t target s) := by
  unfold execMemcBinTargetWrite
  exact outWithin_event fun u => by simp [h]

theorem execMemStatus_within (h : .ports ∈ L ∧ .sb ∈ L ∧ .fwq ∈ L) (c : Call) : OutWithin L (s.at c.start) (execMemStatus c s) := by
  unfold execMemStatus
  exact outWithin_command (by simp [h]) fun u => by simp [h]

theorem execMemRecover_within (h : .regs ∈ L ∧ .log ∈ L ∧ .ports ∈ L ∧ .sb ∈ L ∧ .fwq ∈ L ∧ .slow ∈ L ∧ .pw ∈ L ∧ .arr ∈ L ∧ .pipe ∈ L ∧ .aux ∈ L ∧
    .mem ∈ L ∧ .fm ∈ L ∧ .ring ∈ L)
    (c : Call) :
    OutWithin L (s.at c.start) (execMemRecover c s) := by
  unfold execMemRecover
  refine outWithin_command (by simp [h]) fun u => ?_
  dsimp only
  (repeat' split) <;> simp [h]

theorem execConfigTimer_within (h : .regs ∈ L ∧ .ports ∈ L ∧ .sb ∈ L ∧ .fwq ∈ L ∧ .pio ∈ L) (c : Call) :
    OutWithin L (s.at c.start) (execConfigTimer c s) := by
  unfold execConfigTimer
  exact outWithin_command (by simp [h]) fun u => by simp [h]

theorem execTimerControl_within (h : .ports ∈ L ∧ .sb ∈ L ∧ .fwq ∈ L ∧ .pio ∈ L) (c : Call) : OutWithin L (s.at c.start) (execTimerControl c s) := by
  unfold execTimerControl
  exact outWithin_command (by simp [h]) fun u => by simp [h]

theorem execTimerControlAt_within (h : .pio ∈ L) (t : Time) : OutWithin L (s.at t) (execTimerControlAt t s) := by
  unfold execTimerControlAt
  refine outWithin_event fun u => ?_
  have hstep : ∀ v n, Within L u (match (v.tmr n).at_ with
      | some x => if atDue v t x then tmrControl (v.modTmr n (fun c => { c with at_ := none })) n x.2 t else v
      | none => v) ↔ Within L u v := by
    intro v n
    split <;> simp [h]
  exact (within_foldl hstep).2 within_self

theorem execTimerCapture_within (h : .ports ∈ L ∧ .sb ∈ L ∧ .fwq ∈ L) (c : Call) : OutWithin L (s.at c.start) (execTimerCapture c s) := by
  unfold execTimerCapture
  exact outWithin_command (by simp [h]) fun u => by simp [h]

theorem execTimerTick_within (h : .pio ∈ L) (t : Time) (n : TmrIx) : OutWithin L (s.at t) (execTimerTick t n s) := by
  unfold execTimerTick
  exact outWithin_event fun u => by simp [h]

theorem execPeriodEvent_within (h : .pio ∈ L) (t : Time) (n : TmrIx) : OutWithin L (s.at t) (execPeriodEvent t n s) := by
  unfold execPeriodEvent
  exact outWithin_event fun u => by simp [h]

theorem execMatchEvent_within (h : .pio ∈ L) (t : Time) (n : TmrIx) (second : Bool) : OutWithin L (s.at t) (execMatchEvent t n second s) := by
  unfold execMatchEvent
  exact outWithin_event fun u => by simp [h]

theorem execZeroEvent_within (h : .pio ∈ L) (t : Time) (n : TmrIx) : OutWithin L (s.at t) (execZeroEvent t n s) := by
  unfold execZeroEvent
  exact outWithin_event fun u => by simp [h]

theorem execPinEdgeAccepted_within (h : .pio ∈ L) (t : Time) (n : TmrIx) (level : Bool) : OutWithin L (s.at t) (execPinEdgeAccepted t n level s) := by
  unfold execPinEdgeAccepted
  exact outWithin_event fun u => by simp [h]

theorem execCaptureEvent_within (h : .regs ∈ L ∧ .arr ∈ L ∧ .pio ∈ L) (t : Time) (n : TmrIx) : OutWithin L (s.at t) (execCaptureEvent t n s) := by
  unfold execCaptureEvent
  exact outWithin_event fun u => by simp [h]

theorem execTmrCapLoRead_within (h : .pio ∈ L) (t : Time) (n : TmrIx) : OutWithin L (s.at t) (execTmrCapLoRead t n s) := by
  unfold execTmrCapLoRead
  exact outWithin_event fun u => by simp [h]

theorem execTmrCountRead_within (h : .pio ∈ L) (t : Time) (n : TmrIx) (high : Bool) : OutWithin L (s.at t) (execTmrCountRead t n high s) := by
  unfold execTmrCountRead
  exact outWithin_event fun u => by simp [h]

theorem execFsyncOutEnd_within (h : .pio ∈ L) (t : Time) (pin : Fin 64) : OutWithin L (s.at t) (execFsyncOutEnd t pin s) := by
  unfold execFsyncOutEnd
  exact outWithin_event fun u => by simp [h]

theorem execPinTransitionOverrun_within (h : .pio ∈ L) (t : Time) (pin : Fin 64) : OutWithin L (s.at t) (execPinTransitionOverrun t pin s) := by
  unfold execPinTransitionOverrun
  exact outWithin_event fun u => by simp [h]

theorem execDrive_within (h : .pio ∈ L) (t : Time) (e : EngIx) : OutWithin L (s.at t) (execDrive t e s) := by
  unfold execDrive
  exact outWithin_event fun u => by simp [h]

theorem execXfer_within (h : .free ∈ L ∧ .pio ∈ L) (t : Time) (e : EngIx) (di : BitVec 32) : OutWithin L (s.at t) (execXfer t e di s) := by
  unfold execXfer
  refine outWithin_event fun u => ?_
  dsimp only
  (repeat' split) <;> simp [h]

theorem execFetch_within (h : .pio ∈ L) (t : Time) (e : EngIx) : OutWithin L (s.at t) (execFetch t e s) := by
  unfold execFetch
  exact outWithin_event fun u => by simp [h]

theorem execStore_within (h : .regs ∈ L ∧ .pio ∈ L) (t : Time) (e : EngIx) : OutWithin L (s.at t) (execStore t e s) := by
  unfold execStore
  exact outWithin_event fun u => by simp [h]

theorem execCopy_within (h : .pio ∈ L) (t : Time) (e : EngIx) (pins : Byte) : OutWithin L (s.at t) (execCopy t e pins s) := by
  unfold execCopy
  exact outWithin_event fun u => by simp [h]

theorem execImm_within (h : .pio ∈ L) (t : Time) (e : EngIx) : OutWithin L (s.at t) (execImm t e s) := by
  unfold execImm
  exact outWithin_event fun u => by simp [h]

theorem execLoop_within (h : .pio ∈ L) (t : Time) (e : EngIx) : OutWithin L (s.at t) (execLoop t e s) := by
  unfold execLoop
  exact outWithin_event fun u => by simp [h]

theorem execWait_within (h : .pio ∈ L) (t : Time) (e : EngIx) (pins : Byte) : OutWithin L (s.at t) (execWait t e pins s) := by
  unfold execWait
  exact outWithin_event fun u => by simp [h]

theorem execBr_within (h : .pio ∈ L) (t : Time) (e : EngIx) (pins : Byte) : OutWithin L (s.at t) (execBr t e pins s) := by
  unfold execBr
  exact outWithin_event fun u => by simp [h]

theorem execFlush_within (h : .regs ∈ L ∧ .ports ∈ L ∧ .pio ∈ L) (t : Time) (e : EngIx) : OutWithin L (s.at t) (execFlush t e s) := by
  unfold execFlush
  exact outWithin_event fun u => by simp [h]

theorem execEnd_within (h : .pio ∈ L) (t : Time) (e : EngIx) : OutWithin L (s.at t) (execEnd t e s) := by
  unfold execEnd
  exact outWithin_event fun u => by simp [h]

theorem execPioIllegal_within (h : .regs ∈ L ∧ .log ∈ L ∧ .ports ∈ L ∧ .pio ∈ L) (t : Time) (e : EngIx) :
    OutWithin L (s.at t) (execPioIllegal t e s) := by
  unfold execPioIllegal
  exact outWithin_event fun u => by simp [h]

theorem execPioStallEnd_within (h : .regs ∈ L ∧ .pio ∈ L) (t : Time) (e : EngIx) (pins : Byte) (edge : Bool) :
    OutWithin L (s.at t) (execPioStallEnd t e pins edge s) := by
  unfold execPioStallEnd
  refine outWithin_event fun u => ?_
  dsimp only
  (repeat' split) <;> simp [h]

theorem execWaitTimeout_within (h : .regs ∈ L ∧ .log ∈ L ∧ .ports ∈ L ∧ .pio ∈ L) (t : Time) (e : EngIx) :
    OutWithin L (s.at t) (execWaitTimeout t e s) := by
  unfold execWaitTimeout
  exact outWithin_event fun u => by simp [h]

theorem execRxqWordMove_within (h : .pio ∈ L) (t : Time) (e : EngIx) : OutWithin L (s.at t) (execRxqWordMove t e s) := by
  unfold execRxqWordMove
  exact outWithin_event fun u => by simp [h]

theorem execPiodataPacket_within (h : .regs ∈ L ∧ .ports ∈ L ∧ .pio ∈ L) (t : Time) (e : EngIx) : OutWithin L (s.at t) (execPiodataPacket t e s) := by
  unfold execPiodataPacket
  exact outWithin_event fun u => by simp [h]

theorem execPktUsExpiry_within (h : .regs ∈ L ∧ .ports ∈ L ∧ .pio ∈ L) (t : Time) (e : EngIx) : OutWithin L (s.at t) (execPktUsExpiry t e s) := by
  unfold execPktUsExpiry
  exact outWithin_event fun u => by simp [h]

theorem execLoadPio_within (h : .regs ∈ L ∧ .ports ∈ L ∧ .sb ∈ L ∧ .fwq ∈ L ∧ .pio ∈ L) (c : Call) :
    OutWithin L (s.at c.start) (execLoadPio c s) := by
  unfold execLoadPio
  exact outWithin_command (by simp [h]) fun u => by simp [h]

theorem execStartPio_within (h : .regs ∈ L ∧ .ports ∈ L ∧ .sb ∈ L ∧ .fwq ∈ L ∧ .pio ∈ L) (c : Call) :
    OutWithin L (s.at c.start) (execStartPio c s) := by
  unfold execStartPio
  exact outWithin_command (by simp [h]) fun u => by simp [h]

theorem execStopPio_within (h : .regs ∈ L ∧ .log ∈ L ∧ .ports ∈ L ∧ .sb ∈ L ∧ .fwq ∈ L ∧ .pio ∈ L) (c : Call) :
    OutWithin L (s.at c.start) (execStopPio c s) := by
  unfold execStopPio
  exact outWithin_command (by simp [h]) fun u => by simp [h]

theorem execPioQueue_within (h : .ports ∈ L ∧ .sb ∈ L ∧ .fwq ∈ L ∧ .pio ∈ L) (c : Call) : OutWithin L (s.at c.start) (execPioQueue c s) := by
  unfold execPioQueue
  exact outWithin_command (by simp [h]) fun u => by simp [h]

theorem execConfigPins_within (h : .regs ∈ L ∧ .ports ∈ L ∧ .sb ∈ L ∧ .fwq ∈ L ∧ .pio ∈ L) (c : Call) :
    OutWithin L (s.at c.start) (execConfigPins c s) := by
  unfold execConfigPins
  exact outWithin_command (by simp [h]) fun u => by simp [h]

theorem execTsSample_within (h : .free ∈ L ∧ .regs ∈ L ∧ .log ∈ L ∧ .ports ∈ L ∧ .sb ∈ L ∧ .fwq ∈ L ∧ .slow ∈ L ∧ .pw ∈ L ∧ .rs ∈ L ∧ .otp ∈ L ∧ .sec
    ∈ L ∧ .arr ∈ L ∧ .pipe ∈ L ∧ .aux ∈ L ∧ .mem ∈ L ∧ .fm ∈ L ∧ .ring ∈ L ∧ .th ∈ L ∧ .pio ∈ L)
    (t : Time) (reads : List (Option Int)) :
    OutWithin L (s.at t) (execTsSample t reads s) := by
  unfold execTsSample
  exact outWithin_event fun u => by simp [h]

theorem execLevelHoldExpiry_within (h : .regs ∈ L ∧ .ports ∈ L ∧ .th ∈ L) (t : Time) : OutWithin L (s.at t) (execLevelHoldExpiry t s) := by
  unfold execLevelHoldExpiry
  exact outWithin_event fun u => by simp [h]

theorem execSquallClear_within (h : .th ∈ L) (t : Time) : OutWithin L (s.at t) (execSquallClear t s) := by
  unfold execSquallClear
  exact outWithin_event fun u => by simp [h]

theorem execSampleRateReturn_within (h : .th ∈ L) (t : Time) : OutWithin L (s.at t) (execSampleRateReturn t s) := by
  unfold execSampleRateReturn
  exact outWithin_event fun u => by simp [h]

theorem execGraceExpiry_within (h : .regs ∈ L ∧ .log ∈ L ∧ .ports ∈ L ∧ .sb ∈ L ∧ .fwq ∈ L ∧ .slow ∈ L ∧ .pw ∈ L ∧ .arr ∈ L ∧ .pipe ∈ L ∧ .aux ∈ L ∧
    .mem ∈ L ∧ .fm ∈ L ∧ .ring ∈ L ∧ .th ∈ L)
    (t : Time) :
    OutWithin L (s.at t) (execGraceExpiry t s) := by
  unfold execGraceExpiry
  refine outWithin_event fun u => ?_
  dsimp only
  (repeat' split) <;> simp [h]

theorem execDownTimerExpiry_within (h : .regs ∈ L ∧ .log ∈ L ∧ .ports ∈ L ∧ .sb ∈ L ∧ .fwq ∈ L ∧ .slow ∈ L ∧ .pw ∈ L ∧ .arr ∈ L ∧ .pipe ∈ L ∧ .aux ∈
    L ∧ .mem ∈ L ∧ .fm ∈ L ∧ .ring ∈ L ∧ .th ∈ L)
    (t : Time) :
    OutWithin L (s.at t) (execDownTimerExpiry t s) := by
  unfold execDownTimerExpiry
  exact outWithin_event fun u => by simp [h]

theorem execFoghornRepeat_within (h : .regs ∈ L ∧ .ports ∈ L ∧ .th ∈ L) (t : Time) : OutWithin L (s.at t) (execFoghornRepeat t s) := by
  unfold execFoghornRepeat
  exact outWithin_event fun u => by simp [h]

theorem execThermalStatus_within (h : .ports ∈ L ∧ .sb ∈ L ∧ .fwq ∈ L) (c : Call) : OutWithin L (s.at c.start) (execThermalStatus c s) := by
  unfold execThermalStatus
  exact outWithin_command (by simp [h]) fun u => by simp [h]

theorem execAckFoghorn_within (h : .ports ∈ L ∧ .sb ∈ L ∧ .fwq ∈ L ∧ .th ∈ L) (c : Call) : OutWithin L (s.at c.start) (execAckFoghorn c s) := by
  unfold execAckFoghorn
  exact outWithin_command (by simp [h]) fun u => by simp [h]

theorem execSetThermal_within (h : .regs ∈ L ∧ .ports ∈ L ∧ .sb ∈ L ∧ .fwq ∈ L) (c : Call) : OutWithin L (s.at c.start) (execSetThermal c s) := by
  unfold execSetThermal
  exact outWithin_command (by simp [h]) fun u => by simp [h]

theorem execPowerOn_within (h : .clk ∈ L ∧ .free ∈ L ∧ .regs ∈ L ∧ .log ∈ L ∧ .leases ∈ L ∧ .leaseLog ∈ L ∧ .lastArrayHolder ∈ L ∧ .arrayLapsed ∈ L ∧
    .ports ∈ L ∧ .sb ∈ L ∧ .fwq ∈ L ∧ .slow ∈ L ∧ .misses ∈ L ∧ .diag ∈ L ∧ .pw ∈ L ∧ .rs ∈ L ∧ .otp ∈ L ∧ .sec ∈ L ∧ .arr ∈ L ∧ .pipe ∈ L ∧ .aux ∈ L
    ∧ .mem ∈ L ∧ .fm ∈ L ∧ .ring ∈ L ∧ .hold ∈ L ∧ .th ∈ L ∧ .pio ∈ L)
    (t : Time) (env : BootEnv) :
    OutWithin L (s.at t) (execPowerOn t env s) := by
  unfold execPowerOn
  exact outWithin_event fun u => by simp [h]

theorem execPorNPulse_within (h : .clk ∈ L ∧ .free ∈ L ∧ .regs ∈ L ∧ .log ∈ L ∧ .leases ∈ L ∧ .leaseLog ∈ L ∧ .lastArrayHolder ∈ L ∧ .arrayLapsed ∈ L
    ∧ .ports ∈ L ∧ .sb ∈ L ∧ .fwq ∈ L ∧ .slow ∈ L ∧ .misses ∈ L ∧ .diag ∈ L ∧ .pw ∈ L ∧ .rs ∈ L ∧ .otp ∈ L ∧ .sec ∈ L ∧ .arr ∈ L ∧ .pipe ∈ L ∧ .aux ∈
    L ∧ .mem ∈ L ∧ .fm ∈ L ∧ .ring ∈ L ∧ .hold ∈ L ∧ .th ∈ L ∧ .pio ∈ L)
    (t width : Time) :
    OutWithin L (s.at t) (execPorNPulse t width s) := by
  unfold execPorNPulse
  refine outWithin_event fun u => ?_
  split <;> simp [h]

theorem execVmidFail_within (h : .clk ∈ L ∧ .regs ∈ L ∧ .log ∈ L ∧ .leases ∈ L ∧ .leaseLog ∈ L ∧ .lastArrayHolder ∈ L ∧ .arrayLapsed ∈ L ∧ .ports ∈ L
    ∧ .sb ∈ L ∧ .fwq ∈ L ∧ .slow ∈ L ∧ .misses ∈ L ∧ .diag ∈ L ∧ .pw ∈ L ∧ .rs ∈ L ∧ .otp ∈ L ∧ .sec ∈ L ∧ .arr ∈ L ∧ .pipe ∈ L ∧ .aux ∈ L ∧ .mem ∈ L
    ∧ .fm ∈ L ∧ .ring ∈ L ∧ .hold ∈ L ∧ .th ∈ L ∧ .pio ∈ L)
    (t : Time) :
    OutWithin L (s.at t) (execVmidFail t s) := by
  unfold execVmidFail
  exact outWithin_event fun u => by simp [h]

theorem execKeeperLoss_within (h : .clk ∈ L ∧ .regs ∈ L ∧ .log ∈ L ∧ .leases ∈ L ∧ .leaseLog ∈ L ∧ .lastArrayHolder ∈ L ∧ .arrayLapsed ∈ L ∧ .ports ∈
    L ∧ .sb ∈ L ∧ .fwq ∈ L ∧ .slow ∈ L ∧ .misses ∈ L ∧ .diag ∈ L ∧ .pw ∈ L ∧ .rs ∈ L ∧ .otp ∈ L ∧ .sec ∈ L ∧ .arr ∈ L ∧ .pipe ∈ L ∧ .aux ∈ L ∧ .mem ∈
    L ∧ .fm ∈ L ∧ .ring ∈ L ∧ .hold ∈ L ∧ .th ∈ L ∧ .pio ∈ L)
    (t : Time) :
    OutWithin L (s.at t) (execKeeperLoss t s) := by
  unfold execKeeperLoss
  exact outWithin_event fun u => by simp [h]

theorem execSupplyFail_within (h : .clk ∈ L ∧ .regs ∈ L ∧ .log ∈ L ∧ .leases ∈ L ∧ .leaseLog ∈ L ∧ .lastArrayHolder ∈ L ∧ .arrayLapsed ∈ L ∧ .ports ∈
    L ∧ .sb ∈ L ∧ .fwq ∈ L ∧ .slow ∈ L ∧ .misses ∈ L ∧ .diag ∈ L ∧ .pw ∈ L ∧ .rs ∈ L ∧ .otp ∈ L ∧ .sec ∈ L ∧ .arr ∈ L ∧ .pipe ∈ L ∧ .aux ∈ L ∧ .mem ∈
    L ∧ .fm ∈ L ∧ .ring ∈ L ∧ .hold ∈ L ∧ .th ∈ L ∧ .pio ∈ L)
    (t : Time) (vio vcore : Bool) (uj : Nat) :
    OutWithin L (s.at t) (execSupplyFail t vio vcore uj s) := by
  unfold execSupplyFail
  exact outWithin_event fun u => by simp [h]

theorem execStoreExhausted_within (h : .clk ∈ L ∧ .regs ∈ L ∧ .log ∈ L ∧ .leases ∈ L ∧ .leaseLog ∈ L ∧ .lastArrayHolder ∈ L ∧ .arrayLapsed ∈ L ∧
    .ports ∈ L ∧ .sb ∈ L ∧ .fwq ∈ L ∧ .slow ∈ L ∧ .misses ∈ L ∧ .diag ∈ L ∧ .pw ∈ L ∧ .rs ∈ L ∧ .otp ∈ L ∧ .sec ∈ L ∧ .arr ∈ L ∧ .pipe ∈ L ∧ .aux ∈ L
    ∧ .mem ∈ L ∧ .fm ∈ L ∧ .ring ∈ L ∧ .hold ∈ L ∧ .th ∈ L ∧ .pio ∈ L)
    (t : Time) :
    OutWithin L (s.at t) (execStoreExhausted t s) := by
  unfold execStoreExhausted
  exact outWithin_event fun u => by simp [h]


theorem execBinChange_within (h : .clk ∈ L ∧ .free ∈ L ∧ .regs ∈ L ∧ .log ∈ L ∧ .leases ∈ L ∧ .leaseLog ∈ L ∧ .lastArrayHolder ∈ L ∧ .arrayLapsed ∈ L
    ∧ .ports ∈ L ∧ .sb ∈ L ∧ .fwq ∈ L ∧ .slow ∈ L ∧ .misses ∈ L ∧ .diag ∈ L ∧ .pw ∈ L ∧ .rs ∈ L ∧ .otp ∈ L ∧ .sec ∈ L ∧ .arr ∈ L ∧ .pipe ∈ L ∧ .aux ∈
    L ∧ .mem ∈ L ∧ .fm ∈ L ∧ .ring ∈ L ∧ .hold ∈ L ∧ .th ∈ L ∧ .pio ∈ L)
    (t : Time) (ok : Bool) :
    OutWithin L (s.at t) (execBinChange t ok s) := by
  unfold execBinChange
  exact outWithin_event fun u => by simp [h]

theorem execSweepComplete_within (h : .clk ∈ L ∧ .free ∈ L ∧ .regs ∈ L ∧ .log ∈ L ∧ .leases ∈ L ∧ .leaseLog ∈ L ∧ .lastArrayHolder ∈ L ∧ .arrayLapsed
    ∈ L ∧ .ports ∈ L ∧ .sb ∈ L ∧ .fwq ∈ L ∧ .slow ∈ L ∧ .misses ∈ L ∧ .diag ∈ L ∧ .pw ∈ L ∧ .rs ∈ L ∧ .otp ∈ L ∧ .sec ∈ L ∧ .arr ∈ L ∧ .pipe ∈ L ∧
    .aux ∈ L ∧ .mem ∈ L ∧ .fm ∈ L ∧ .ring ∈ L ∧ .hold ∈ L ∧ .th ∈ L ∧ .pio ∈ L)
    (t : Time) (results : List LaneWin) :
    OutWithin L (s.at t) (execSweepComplete t results s) := by
  unfold execSweepComplete
  exact outWithin_event fun u => by simp [h]

theorem execResetBegin_within (h : .clk ∈ L ∧ .free ∈ L ∧ .regs ∈ L ∧ .log ∈ L ∧ .leases ∈ L ∧ .leaseLog ∈ L ∧ .lastArrayHolder ∈ L ∧ .arrayLapsed ∈
    L ∧ .ports ∈ L ∧ .sb ∈ L ∧ .fwq ∈ L ∧ .slow ∈ L ∧ .misses ∈ L ∧ .diag ∈ L ∧ .pw ∈ L ∧ .rs ∈ L ∧ .otp ∈ L ∧ .sec ∈ L ∧ .arr ∈ L ∧ .pipe ∈ L ∧ .aux
    ∈ L ∧ .mem ∈ L ∧ .fm ∈ L ∧ .ring ∈ L ∧ .hold ∈ L ∧ .th ∈ L ∧ .pio ∈ L)
    (t : Time) :
    OutWithin L (s.at t) (execResetBegin t s) := by
  unfold execResetBegin
  refine outWithin_event fun u => ?_
  split <;> simp [h]

theorem execWatchdogExpiry_within (h : .clk ∈ L ∧ .free ∈ L ∧ .regs ∈ L ∧ .log ∈ L ∧ .leases ∈ L ∧ .leaseLog ∈ L ∧ .lastArrayHolder ∈ L ∧
    .arrayLapsed ∈ L ∧ .ports ∈ L ∧ .sb ∈ L ∧ .fwq ∈ L ∧ .slow ∈ L ∧ .misses ∈ L ∧ .diag ∈ L ∧ .pw ∈ L ∧ .rs ∈ L ∧ .otp ∈ L ∧ .sec ∈ L ∧ .arr ∈ L ∧
    .pipe ∈ L ∧ .aux ∈ L ∧ .mem ∈ L ∧ .fm ∈ L ∧ .ring ∈ L ∧ .hold ∈ L ∧ .th ∈ L ∧ .pio ∈ L)
    (t : Time) :
    OutWithin L (s.at t) (execWatchdogExpiry t s) := by
  unfold execWatchdogExpiry
  exact outWithin_event fun u => by simp [h]

theorem execLockstepMismatch_within (h : .clk ∈ L ∧ .free ∈ L ∧ .regs ∈ L ∧ .log ∈ L ∧ .leases ∈ L ∧ .leaseLog ∈ L ∧ .lastArrayHolder ∈ L ∧
    .arrayLapsed ∈ L ∧ .ports ∈ L ∧ .sb ∈ L ∧ .fwq ∈ L ∧ .slow ∈ L ∧ .misses ∈ L ∧ .diag ∈ L ∧ .pw ∈ L ∧ .rs ∈ L ∧ .otp ∈ L ∧ .sec ∈ L ∧ .arr ∈ L ∧
    .pipe ∈ L ∧ .aux ∈ L ∧ .mem ∈ L ∧ .fm ∈ L ∧ .ring ∈ L ∧ .hold ∈ L ∧ .th ∈ L ∧ .pio ∈ L)
    (t : Time) :
    OutWithin L (s.at t) (execLockstepMismatch t s) := by
  unfold execLockstepMismatch
  exact outWithin_event fun u => by simp [h]

theorem execSramUe_within (h : .clk ∈ L ∧ .free ∈ L ∧ .regs ∈ L ∧ .log ∈ L ∧ .leases ∈ L ∧ .leaseLog ∈ L ∧ .lastArrayHolder ∈ L ∧ .arrayLapsed ∈ L ∧
    .ports ∈ L ∧ .sb ∈ L ∧ .fwq ∈ L ∧ .slow ∈ L ∧ .misses ∈ L ∧ .diag ∈ L ∧ .pw ∈ L ∧ .rs ∈ L ∧ .otp ∈ L ∧ .sec ∈ L ∧ .arr ∈ L ∧ .pipe ∈ L ∧ .aux ∈ L
    ∧ .mem ∈ L ∧ .fm ∈ L ∧ .ring ∈ L ∧ .hold ∈ L ∧ .th ∈ L ∧ .pio ∈ L)
    (t : Time) :
    OutWithin L (s.at t) (execSramUe t s) := by
  unfold execSramUe
  exact outWithin_event fun u => by simp [h]

theorem execShutdownExit_within (h : .clk ∈ L ∧ .free ∈ L ∧ .regs ∈ L ∧ .log ∈ L ∧ .leases ∈ L ∧ .leaseLog ∈ L ∧ .lastArrayHolder ∈ L ∧ .arrayLapsed
    ∈ L ∧ .ports ∈ L ∧ .sb ∈ L ∧ .fwq ∈ L ∧ .slow ∈ L ∧ .misses ∈ L ∧ .diag ∈ L ∧ .pw ∈ L ∧ .rs ∈ L ∧ .otp ∈ L ∧ .sec ∈ L ∧ .arr ∈ L ∧ .pipe ∈ L ∧
    .aux ∈ L ∧ .mem ∈ L ∧ .fm ∈ L ∧ .ring ∈ L ∧ .hold ∈ L ∧ .th ∈ L ∧ .pio ∈ L)
    (t : Time) :
    OutWithin L (s.at t) (execShutdownExit t s) := by
  unfold execShutdownExit
  exact outWithin_event fun u => by simp [h]

theorem execRefLost_within (h : .clk ∈ L ∧ .free ∈ L ∧ .regs ∈ L ∧ .log ∈ L ∧ .leases ∈ L ∧ .leaseLog ∈ L ∧ .lastArrayHolder ∈ L ∧ .arrayLapsed ∈ L ∧
    .ports ∈ L ∧ .sb ∈ L ∧ .fwq ∈ L ∧ .slow ∈ L ∧ .misses ∈ L ∧ .diag ∈ L ∧ .pw ∈ L ∧ .rs ∈ L ∧ .otp ∈ L ∧ .sec ∈ L ∧ .arr ∈ L ∧ .pipe ∈ L ∧ .aux ∈ L
    ∧ .mem ∈ L ∧ .fm ∈ L ∧ .ring ∈ L ∧ .th ∈ L ∧ .pio ∈ L)
    (t : Time) :
    OutWithin L (s.at t) (execRefLost t s) := by
  unfold execRefLost
  exact outWithin_event fun u => by simp [h]

theorem execRefReturn_within (h : .clk ∈ L ∧ .free ∈ L ∧ .regs ∈ L ∧ .log ∈ L ∧ .leases ∈ L ∧ .leaseLog ∈ L ∧ .lastArrayHolder ∈ L ∧ .arrayLapsed ∈ L
    ∧ .ports ∈ L ∧ .sb ∈ L ∧ .fwq ∈ L ∧ .slow ∈ L ∧ .misses ∈ L ∧ .diag ∈ L ∧ .pw ∈ L ∧ .rs ∈ L ∧ .otp ∈ L ∧ .sec ∈ L ∧ .arr ∈ L ∧ .pipe ∈ L ∧ .aux ∈
    L ∧ .mem ∈ L ∧ .fm ∈ L ∧ .ring ∈ L ∧ .hold ∈ L ∧ .th ∈ L ∧ .pio ∈ L)
    (t : Time) (khz : Nat) :
    OutWithin L (s.at t) (execRefReturn t khz s) := by
  unfold execRefReturn
  exact outWithin_event fun u => by simp [h]

theorem execLfxtalLoss_within (h : .pw ∈ L) (t : Time) : OutWithin L (s.at t) (execLfxtalLoss t s) := by
  unfold execLfxtalLoss
  exact outWithin_event fun u => by simp [h]

theorem execLfxtalValid_within (h : .free ∈ L ∧ .regs ∈ L ∧ .log ∈ L ∧ .ports ∈ L ∧ .sb ∈ L ∧ .fwq ∈ L ∧ .slow ∈ L ∧ .diag ∈ L ∧ .pw ∈ L ∧ .rs ∈ L ∧
    .otp ∈ L ∧ .sec ∈ L ∧ .arr ∈ L ∧ .pipe ∈ L ∧ .aux ∈ L ∧ .mem ∈ L ∧ .fm ∈ L ∧ .ring ∈ L ∧ .hold ∈ L)
    (t : Time) (khz : Nat) :
    OutWithin L (s.at t) (execLfxtalValid t khz s) := by
  unfold execLfxtalValid
  refine outWithin_event fun u => ?_
  dsimp only
  (repeat' split) <;> simp [h]

theorem execLfxtalWaitTimeout_within (h : .free ∈ L ∧ .regs ∈ L ∧ .log ∈ L ∧ .ports ∈ L ∧ .sb ∈ L ∧ .fwq ∈ L ∧ .slow ∈ L ∧ .diag ∈ L ∧ .pw ∈ L ∧ .rs
    ∈ L ∧ .otp ∈ L ∧ .sec ∈ L ∧ .arr ∈ L ∧ .pipe ∈ L ∧ .aux ∈ L ∧ .mem ∈ L ∧ .fm ∈ L ∧ .ring ∈ L ∧ .hold ∈ L)
    (t : Time) :
    OutWithin L (s.at t) (execLfxtalWaitTimeout t s) := by
  unfold execLfxtalWaitTimeout
  exact outWithin_event fun u => by simp [h]

theorem execPllLock_within (h : .regs ∈ L ∧ .ports ∈ L ∧ .pw ∈ L ∧ .arr ∈ L ∧ .pipe ∈ L) (t : Time) (n : Fin 4) :
    OutWithin L (s.at t) (execPllLock t n s) := by
  unfold execPllLock
  exact outWithin_event fun u => by simp [h]

theorem execPllLockTimeout_within (h : .free ∈ L ∧ .regs ∈ L ∧ .log ∈ L ∧ .ports ∈ L ∧ .sb ∈ L ∧ .fwq ∈ L ∧ .slow ∈ L ∧ .pw ∈ L ∧ .arr ∈ L ∧ .pipe ∈
    L ∧ .aux ∈ L ∧ .mem ∈ L ∧ .fm ∈ L ∧ .ring ∈ L)
    (t : Time) (n : Fin 4) :
    OutWithin L (s.at t) (execPllLockTimeout t n s) := by
  unfold execPllLockTimeout
  exact outWithin_event fun u => by simp [h]

theorem execPllUnlock_within (h : .free ∈ L ∧ .regs ∈ L ∧ .log ∈ L ∧ .ports ∈ L ∧ .sb ∈ L ∧ .fwq ∈ L ∧ .slow ∈ L ∧ .pw ∈ L ∧ .arr ∈ L ∧ .pipe ∈ L ∧
    .aux ∈ L ∧ .mem ∈ L ∧ .fm ∈ L ∧ .ring ∈ L)
    (t : Time) (n : Fin 4) :
    OutWithin L (s.at t) (execPllUnlock t n s) := by
  unfold execPllUnlock
  exact outWithin_event fun u => by simp [h]

theorem execOtpWordProgrammed_within (h : .clk ∈ L ∧ .regs ∈ L ∧ .log ∈ L ∧ .leases ∈ L ∧ .leaseLog ∈ L ∧ .lastArrayHolder ∈ L ∧ .arrayLapsed ∈ L ∧
    .ports ∈ L ∧ .sb ∈ L ∧ .fwq ∈ L ∧ .slow ∈ L ∧ .misses ∈ L ∧ .diag ∈ L ∧ .pw ∈ L ∧ .rs ∈ L ∧ .otp ∈ L ∧ .sec ∈ L ∧ .arr ∈ L ∧ .pipe ∈ L ∧ .aux ∈ L
    ∧ .mem ∈ L ∧ .fm ∈ L ∧ .ring ∈ L ∧ .hold ∈ L ∧ .th ∈ L ∧ .pio ∈ L)
    (t : Time) (norm strict : BitVec 39) :
    OutWithin L (s.at t) (execOtpWordProgrammed t norm strict s) := by
  unfold execOtpWordProgrammed
  refine outWithin_event fun u => ?_
  dsimp only
  (repeat' split) <;> simp [h]

theorem execCreateView_within (h : .ports ∈ L ∧ .sb ∈ L ∧ .fwq ∈ L ∧ .pipe ∈ L) (c : Call) : OutWithin L (s.at c.start) (execCreateView c s) := by
  unfold execCreateView
  exact outWithin_command (by simp [h]) fun u => by simp [h]

theorem execModifyView_within (h : .regs ∈ L ∧ .ports ∈ L ∧ .sb ∈ L ∧ .fwq ∈ L ∧ .arr ∈ L ∧ .pipe ∈ L ∧ .aux ∈ L) (c : Call) :
    OutWithin L (s.at c.start) (execModifyView c s) := by
  unfold execModifyView
  exact outWithin_command (by simp [h]) fun u => by simp [h]

theorem execStartView_within (h : .ports ∈ L ∧ .sb ∈ L ∧ .fwq ∈ L ∧ .pipe ∈ L ∧ .aux ∈ L ∧ .mem ∈ L ∧ .fm ∈ L) (c : Call) :
    OutWithin L (s.at c.start) (execStartView c s) := by
  unfold execStartView
  exact outWithin_command (by simp [h]) fun u => by simp [h]

theorem execStopView_within (h : .ports ∈ L ∧ .sb ∈ L ∧ .fwq ∈ L ∧ .pipe ∈ L) (c : Call) : OutWithin L (s.at c.start) (execStopView c s) := by
  unfold execStopView
  exact outWithin_command (by simp [h]) fun u => by simp [h]

theorem execDeleteView_within (h : .ports ∈ L ∧ .sb ∈ L ∧ .fwq ∈ L ∧ .pipe ∈ L ∧ .mem ∈ L ∧ .fm ∈ L ∧ .ring ∈ L) (c : Call) :
    OutWithin L (s.at c.start) (execDeleteView c s) := by
  unfold execDeleteView
  exact outWithin_command (by simp [h]) fun u => by simp [h]

theorem execViewStopDone_within (h : .regs ∈ L ∧ .ports ∈ L ∧ .pipe ∈ L ∧ .aux ∈ L ∧ .mem ∈ L ∧ .fm ∈ L ∧ .ring ∈ L) (t : Time) (v : ViewIx) :
    OutWithin L (s.at t) (execViewStopDone t v s) := by
  unfold execViewStopDone
  exact outWithin_event fun u => by simp [h]

theorem execGetStats_within (h : .ports ∈ L ∧ .sb ∈ L ∧ .fwq ∈ L) (c : Call) : OutWithin L (s.at c.start) (execGetStats c s) := by
  unfold execGetStats
  refine outWithin_command (by simp [h]) fun u => ?_
  split <;> simp [h]

theorem execFrameDropRepeat_within (h : .regs ∈ L ∧ .ports ∈ L ∧ .pipe ∈ L) (t : Time) (v : ViewIx) :
    OutWithin L (s.at t) (execFrameDropRepeat t v s) := by
  unfold execFrameDropRepeat
  exact outWithin_event fun u => by simp [h]

theorem execPipeJobRelease_within (h : .pipe ∈ L ∧ .mem ∈ L) (t : Time) (v : ViewIx) (band group stripe : Nat) :
    OutWithin L (s.at t) (execPipeJobRelease t v band group stripe s) := by
  unfold execPipeJobRelease
  refine outWithin_event fun u => ?_
  split <;> simp [h]

theorem execPipeJobStart_within (h : .pipe ∈ L) (t : Time) : OutWithin L (s.at t) (execPipeJobStart t s) := by
  unfold execPipeJobStart
  refine outWithin_event fun u => ?_
  split <;> simp [h]

theorem execPipeJobComplete_within (h : .regs ∈ L ∧ .ports ∈ L ∧ .pipe ∈ L) (t : Time) : OutWithin L (s.at t) (execPipeJobComplete t s) := by
  unfold execPipeJobComplete
  refine outWithin_event fun u => ?_
  split <;> simp [h]

theorem execRasterReadbackStart_within (h : .pipe ∈ L) (t : Time) (v : ViewIx) : OutWithin L (s.at t) (execRasterReadbackStart t v s) := by
  unfold execRasterReadbackStart
  refine outWithin_event fun u => ?_
  split <;> simp [h]

theorem execAuthChallenge_within (h : .ports ∈ L ∧ .sb ∈ L ∧ .fwq ∈ L ∧ .sec ∈ L) (c : Call) :
    OutWithin L (s.at c.start) (execAuthChallenge c s) := by
  unfold execAuthChallenge
  exact outWithin_command (by simp [h]) fun u => by simp [h]

theorem execAuthResponse_within (h : .regs ∈ L ∧ .log ∈ L ∧ .leases ∈ L ∧ .leaseLog ∈ L ∧ .arrayLapsed ∈ L ∧ .ports ∈ L ∧ .sb ∈ L ∧ .fwq ∈ L ∧ .otp ∈
    L ∧ .sec ∈ L ∧ .pipe ∈ L)
    (c : Call) :
    OutWithin L (s.at c.start) (execAuthResponse c s) := by
  unfold execAuthResponse
  refine outWithin_command (by simp [h]) fun u => ?_
  split <;> simp [h]

theorem execNonceExpiry_within (h : .sec ∈ L) (t : Time) (p : PortIx) : OutWithin L (s.at t) (execNonceExpiry t p s) := by
  unfold execNonceExpiry
  exact outWithin_event fun u => by simp [h]

theorem execSetViewAuth_within (h : .ports ∈ L ∧ .sb ∈ L ∧ .fwq ∈ L ∧ .pipe ∈ L) (c : Call) : OutWithin L (s.at c.start) (execSetViewAuth c s) := by
  unfold execSetViewAuth
  exact outWithin_command (by simp [h]) fun u => by simp [h]

theorem execOtpRead_within (h : .ports ∈ L ∧ .sb ∈ L ∧ .fwq ∈ L) (c : Call) : OutWithin L (s.at c.start) (execOtpRead c s) := by
  unfold execOtpRead
  exact outWithin_command (by simp [h]) fun u => by simp [h]

theorem execOtpProgram_within (h : .regs ∈ L ∧ .ports ∈ L ∧ .sb ∈ L ∧ .fwq ∈ L ∧ .slow ∈ L ∧ .otp ∈ L) (c : Call) :
    OutWithin L (s.at c.start) (execOtpProgram c s) := by
  unfold execOtpProgram
  exact outWithin_command (by simp [h]) fun u => by simp [h]

theorem execOtpLockRegion_within (h : .regs ∈ L ∧ .ports ∈ L ∧ .sb ∈ L ∧ .fwq ∈ L ∧ .slow ∈ L ∧ .otp ∈ L) (c : Call) :
    OutWithin L (s.at c.start) (execOtpLockRegion c s) := by
  unfold execOtpLockRegion
  exact outWithin_command (by simp [h]) fun u => by simp [h]

theorem execLifecycle_within (h : .regs ∈ L ∧ .log ∈ L ∧ .ports ∈ L ∧ .sb ∈ L ∧ .fwq ∈ L ∧ .slow ∈ L ∧ .otp ∈ L ∧ .sec ∈ L ∧ .pipe ∈ L) (c : Call) :
    OutWithin L (s.at c.start) (execLifecycle c s) := by
  unfold execLifecycle
  refine outWithin_command (by simp [h]) fun u => ?_
  dsimp only
  (repeat' split) <;> simp [h]

theorem execRollbackStepWrite_within (h : .otp ∈ L) (t : Time) : OutWithin L (s.at t) (execRollbackStepWrite t s) := by
  unfold execRollbackStepWrite
  exact outWithin_event fun u => by simp [h]

theorem execFwLoad_within (h : .regs ∈ L ∧ .ports ∈ L ∧ .sb ∈ L ∧ .fwq ∈ L ∧ .slow ∈ L ∧ .sec ∈ L) (c : Call) :
    OutWithin L (s.at c.start) (execFwLoad c s) := by
  unfold execFwLoad
  refine outWithin_command (by simp [h]) fun u => ?_
  split <;> simp [h]

theorem execFwLoadTimeout_within (h : .sec ∈ L) (t : Time) : OutWithin L (s.at t) (execFwLoadTimeout t s) := by
  unfold execFwLoadTimeout
  exact outWithin_event fun u => by simp [h]

theorem execFwHandover_within (h : .regs ∈ L ∧ .ports ∈ L ∧ .sb ∈ L ∧ .fwq ∈ L ∧ .slow ∈ L ∧ .sec ∈ L ∧ .arr ∈ L) (t : Time) :
    OutWithin L (s.at t) (execFwHandover t s) := by
  unfold execFwHandover
  refine outWithin_event fun u => ?_
  split <;> simp [h]

theorem execEncNAlarm_within (h : .regs ∈ L ∧ .log ∈ L ∧ .ports ∈ L ∧ .otp ∈ L ∧ .sec ∈ L ∧ .pipe ∈ L) (t : Time) :
    OutWithin L (s.at t) (execEncNAlarm t s) := by
  unfold execEncNAlarm
  exact outWithin_event fun u => by simp [h]

theorem execShieldCheck_within (h : .regs ∈ L ∧ .log ∈ L ∧ .ports ∈ L ∧ .otp ∈ L ∧ .sec ∈ L ∧ .pipe ∈ L) (t : Time) (bad : Bool) :
    OutWithin L (s.at t) (execShieldCheck t bad s) := by
  unfold execShieldCheck
  exact outWithin_event fun u => by simp [h]

theorem execVglitch_within (h : .regs ∈ L ∧ .log ∈ L ∧ .ports ∈ L ∧ .otp ∈ L ∧ .sec ∈ L ∧ .pipe ∈ L) (t : Time) :
    OutWithin L (s.at t) (execVglitch t s) := by
  unfold execVglitch
  exact outWithin_event fun u => by simp [h]

theorem execBistComplete_within (h : .regs ∈ L ∧ .log ∈ L ∧ .ports ∈ L ∧ .diag ∈ L ∧ .mem ∈ L ∧ .fm ∈ L) (t : Time) (read : BistRead) :
    OutWithin L (s.at t) (execBistComplete t read s) := by
  unfold execBistComplete
  exact outWithin_event fun u => by simp [h]

theorem execReadReg_within (h : .free ∈ L ∧ .regs ∈ L ∧ .ports ∈ L ∧ .sb ∈ L ∧ .fwq ∈ L ∧ .pio ∈ L) (c : Call) :
    OutWithin L (s.at c.start) (execReadReg c s) := by
  unfold execReadReg
  exact outWithin_commandWith (by simp [h]) fun u => by simp [h]

theorem execWriteReg_within (h : .free ∈ L ∧ .regs ∈ L ∧ .log ∈ L ∧ .ports ∈ L ∧ .sb ∈ L ∧ .fwq ∈ L ∧ .slow ∈ L ∧ .diag ∈ L ∧ .pw ∈ L ∧ .arr ∈ L ∧
    .pipe ∈ L ∧ .aux ∈ L ∧ .mem ∈ L ∧ .fm ∈ L ∧ .ring ∈ L ∧ .hold ∈ L ∧ .pio ∈ L)
    (c : Call) :
    OutWithin L (s.at c.start) (execWriteReg c s) := by
  unfold execWriteReg
  exact outWithin_command (by simp [h]) fun u => by simp [h]

theorem execConfigRing_within (h : .ports ∈ L ∧ .sb ∈ L ∧ .fwq ∈ L ∧ .mem ∈ L ∧ .fm ∈ L ∧ .ring ∈ L) (c : Call) :
    OutWithin L (s.at c.start) (execConfigRing c s) := by
  unfold execConfigRing
  exact outWithin_command (by simp [h]) fun u => by simp [h]

theorem execMarkEvent_within (h : .ports ∈ L ∧ .sb ∈ L ∧ .fwq ∈ L ∧ .mem ∈ L ∧ .fm ∈ L ∧ .ring ∈ L) (c : Call) :
    OutWithin L (s.at c.start) (execMarkEvent c s) := by
  unfold execMarkEvent
  refine outWithin_command (by simp [h]) fun u => ?_
  have hm : Within L u (makeSlot u c.start).2.2 := by simp [h]
  dsimp only
  split
  · simp [h]
  · split
    · next he => simpa [h, he] using hm
    · next he => simpa [h, he] using hm

theorem execSegmentSeal_within (h : .mem ∈ L ∧ .fm ∈ L ∧ .ring ∈ L) (t : Time) (slot : Fin 8) : OutWithin L (s.at t) (execSegmentSeal t slot s) := by
  unfold execSegmentSeal
  exact outWithin_event fun u => by simp [h]

theorem execReadRing_within (h : .ports ∈ L ∧ .sb ∈ L ∧ .fwq ∈ L ∧ .mem ∈ L) (c : Call) : OutWithin L (s.at c.start) (execReadRing c s) := by
  unfold execReadRing
  exact outWithin_command (by simp [h]) fun u => by simp [h]

theorem execRingStatus_within (h : .ports ∈ L ∧ .sb ∈ L ∧ .fwq ∈ L) (c : Call) : OutWithin L (s.at c.start) (execRingStatus c s) := by
  unfold execRingStatus
  exact outWithin_command (by simp [h]) fun u => by simp [h]

theorem execReleaseSegment_within (h : .ports ∈ L ∧ .sb ∈ L ∧ .fwq ∈ L ∧ .mem ∈ L ∧ .fm ∈ L ∧ .ring ∈ L) (c : Call) :
    OutWithin L (s.at c.start) (execReleaseSegment c s) := by
  unfold execReleaseSegment
  exact outWithin_command (by simp [h]) fun u => by simp [h]

theorem Part.mem_all (a : Part) : a ∈ Part.all := by cases a <;> decide

/-- SUPPLY_RETURN runs DAWN at the instant of the return or at the start of BUOY, the later of the two. -/
theorem execSupplyReturn_runs {t : Time} {env : BootEnv} {held : Time} {s' : State} (h : execSupplyReturn t env held s = .next s') :
    ∃ t', Within Part.all ((s.at t).at t') s' ∨ s' = s.at t := by
  unfold execSupplyReturn at h
  rcases event_cases h with ⟨-, he⟩ | ⟨-, he⟩
  · exact ⟨max t (s.at t).hold.buoyFrom, .inl (he ▸ (runDawn_within (by simp [Part.mem_all]) _ _).2 within_self)⟩
  · exact ⟨t, .inr he⟩

/-- What a command changes: the parts `touches` names, from the state at its instant on. SUPPLY_RETURN alone moves the clock past its
own instant. -/
theorem exec_within {i : Instr} (hi : ∀ t env held, i ≠ .supplyReturn t env held) : OutWithin (touches i) (s.at i.time) (exec i s) := by
  cases i with
  | hello c => exact execHello_within (of_decide_eq_true rfl) c
  | getInfo c => exact execGetInfo_within (of_decide_eq_true rfl) c
  | getStatus c => exact execGetStatus_within (of_decide_eq_true rfl) c
  | resetDevice c => exact execResetDevice_within (of_decide_eq_true rfl) c
  | resetBegin t => exact execResetBegin_within (by simp [touches, Part.mem_all]) t
  | setPowerState c => exact execSetPowerState_within (of_decide_eq_true rfl) c
  | pumpsSettled t => exact execPumpsSettled_within (of_decide_eq_true rfl) t
  | getFaults c => exact execGetFaults_within (of_decide_eq_true rfl) c
  | clearFaults c => exact execClearFaults_within (of_decide_eq_true rfl) c
  | readReg c => exact execReadReg_within (of_decide_eq_true rfl) c
  | writeReg c => exact execWriteReg_within (of_decide_eq_true rfl) c
  | timeSync c => exact execTimeSync_within (of_decide_eq_true rfl) c
  | acquireLease c => exact execAcquireLease_within (of_decide_eq_true rfl) c
  | releaseLease c => exact execReleaseLease_within (of_decide_eq_true rfl) c
  | renewLease c => exact execRenewLease_within (of_decide_eq_true rfl) c
  | leaseExpiry t r => exact execLeaseExpiry_within (of_decide_eq_true rfl) t r
  | leaseLapse t p => exact execLeaseLapse_within (of_decide_eq_true rfl) t p
  | setArrayMode c => exact execSetArrayMode_within (of_decide_eq_true rfl) c
  | setFrameTiming c => exact execSetFrameTiming_within (of_decide_eq_true rfl) c
  | setTileExposure c => exact execSetTileExposure_within (of_decide_eq_true rfl) c
  | setTileGain c => exact execSetTileGain_within (of_decide_eq_true rfl) c
  | setGovernor c => exact execSetGovernor_within (of_decide_eq_true rfl) c
  | setSlicing c => exact execSetSlicing_within (of_decide_eq_true rfl) c
  | setTileEnable c => exact execSetTileEnable_within (of_decide_eq_true rfl) c
  | commitSettings c => exact execCommitSettings_within (of_decide_eq_true rfl) c
  | triggerFrame c => exact execTriggerFrame_within (of_decide_eq_true rfl) c
  | startArray c => exact execStartArray_within (of_decide_eq_true rfl) c
  | stopArray c => exact execStopArray_within (of_decide_eq_true rfl) c
  | triggerAt c => exact execTriggerAt_within (of_decide_eq_true rfl) c
  | triggerAtDue t => exact execTriggerAtDue_within (of_decide_eq_true rfl) t
  | frameStart t => exact execFrameStart_within (of_decide_eq_true rfl) t
  | overheadSlot t samples ramp => exact execOverheadSlot_within (of_decide_eq_true rfl) t samples ramp
  | rowSlot t samples => exact execRowSlot_within (of_decide_eq_true rfl) t samples
  | integrationStart t tile row exp => exact execIntegrationStart_within (of_decide_eq_true rfl) t tile row exp
  | integrationSlice t tile row exp => exact execIntegrationSlice_within (of_decide_eq_true rfl) t tile row exp
  | exposureLatchPoint t => exact execExposureLatchPoint_within (of_decide_eq_true rfl) t
  | arrayArm t => exact execArrayArm_within (of_decide_eq_true rfl) t
  | statsComplete t => exact execStatsComplete_within (of_decide_eq_true rfl) t
  | governorOutput t => exact execGovernorOutput_within (of_decide_eq_true rfl) t
  | mosaicLineTransfer t tile crcOk => exact execMosaicLineTransfer_within (of_decide_eq_true rfl) t tile crcOk
  | spillFetchComplete t tile kind row ok => exact execSpillFetchComplete_within (of_decide_eq_true rfl) t tile kind row ok
  | pipeJobRelease t v band group stripe => exact execPipeJobRelease_within (of_decide_eq_true rfl) t v band group stripe
  | pipeJobStart t => exact execPipeJobStart_within (of_decide_eq_true rfl) t
  | pipeJobComplete t => exact execPipeJobComplete_within (of_decide_eq_true rfl) t
  | rasterReadbackStart t v => exact execRasterReadbackStart_within (of_decide_eq_true rfl) t v
  | viewStopDone t v => exact execViewStopDone_within (of_decide_eq_true rfl) t v
  | createView c => exact execCreateView_within (of_decide_eq_true rfl) c
  | modifyView c => exact execModifyView_within (of_decide_eq_true rfl) c
  | deleteView c => exact execDeleteView_within (of_decide_eq_true rfl) c
  | startView c => exact execStartView_within (of_decide_eq_true rfl) c
  | stopView c => exact execStopView_within (of_decide_eq_true rfl) c
  | getStats c => exact execGetStats_within (of_decide_eq_true rfl) c
  | frameDropRepeat t v => exact execFrameDropRepeat_within (of_decide_eq_true rfl) t v
  | configAux c => exact execConfigAux_within (of_decide_eq_true rfl) c
  | auxStatus c => exact execAuxStatus_within (of_decide_eq_true rfl) c
  | skewCalibration t n lane initial => exact execSkewCalibration_within (of_decide_eq_true rfl) t n lane initial
  | auxFrameStart t n head ecc => exact execAuxFrameStart_within (of_decide_eq_true rfl) t n head ecc
  | auxFrameEnd t n head ecc => exact execAuxFrameEnd_within (of_decide_eq_true rfl) t n head ecc
  | auxLongPacket t n di wc ecc payload crc => exact execAuxLongPacket_within (of_decide_eq_true rfl) t n di wc ecc payload crc
  | auxLos t n lanes => exact execAuxLos_within (of_decide_eq_true rfl) t n lanes
  | auxLosRecover t n => exact execAuxLosRecover_within (of_decide_eq_true rfl) t n
  | auxLate t n vc => exact execAuxLate_within (of_decide_eq_true rfl) t n vc
  | auxStatsComplete t n => exact execAuxStatsComplete_within (of_decide_eq_true rfl) t n
  | memRequest t cls inst fma write => exact execMemRequest_within (of_decide_eq_true rfl) t cls inst fma write
  | memPick t sc => exact execMemPick_within (of_decide_eq_true rfl) t sc
  | entryAged t q => exact execEntryAged_within (of_decide_eq_true rfl) t q
  | memAccessComplete t q flips chk => exact execMemAccessComplete_within (of_decide_eq_true rfl) t q flips chk
  | refreshDue t q => exact execRefreshDue_within (of_decide_eq_true rfl) t q
  | refreshRatePoll t reports => exact execRefreshRatePoll_within (of_decide_eq_true rfl) t reports
  | powerDownEntry t sc rank => exact execPowerDownEntry_within (of_decide_eq_true rfl) t sc rank
  | eccLineIdle t sc block used => exact execEccLineIdle_within (of_decide_eq_true rfl) t sc block used
  | rowhammerWindow t => exact execRowhammerWindow_within (of_decide_eq_true rfl) t
  | sweepComplete t results => exact execSweepComplete_within (by simp [touches, Part.mem_all]) t results
  | memcBinTargetWrite t target => exact execMemcBinTargetWrite_within (of_decide_eq_true rfl) t target
  | binChange t ok => exact execBinChange_within (by simp [touches, Part.mem_all]) t ok
  | memStatus c => exact execMemStatus_within (of_decide_eq_true rfl) c
  | memRecover c => exact execMemRecover_within (of_decide_eq_true rfl) c
  | configRing c => exact execConfigRing_within (of_decide_eq_true rfl) c
  | markEvent c => exact execMarkEvent_within (of_decide_eq_true rfl) c
  | readRing c => exact execReadRing_within (of_decide_eq_true rfl) c
  | ringStatus c => exact execRingStatus_within (of_decide_eq_true rfl) c
  | releaseSegment c => exact execReleaseSegment_within (of_decide_eq_true rfl) c
  | segmentSeal t slot => exact execSegmentSeal_within (of_decide_eq_true rfl) t slot
  | supplyFail t vio vcore uj => exact execSupplyFail_within (by simp [touches]) t vio vcore uj
  | storeExhausted t => exact execStoreExhausted_within (by simp [touches]) t
  | supplyReturn t env held => exact absurd rfl (hi t env held)
  | configHoldup c => exact execConfigHoldup_within (of_decide_eq_true rfl) c
  | holdupStatus c => exact execHoldupStatus_within (of_decide_eq_true rfl) c
  | chargerVioSample t mv => exact execChargerVioSample_within (of_decide_eq_true rfl) t mv
  | chargerLimitDown t => exact execChargerLimitDown_within (of_decide_eq_true rfl) t
  | chargerLimitUp t => exact execChargerLimitUp_within (of_decide_eq_true rfl) t
  | chargerPulseEnd t ocv ohm => exact execChargerPulseEnd_within (of_decide_eq_true rfl) t ocv ohm
  | chargerOcvCheck t ocv => exact execChargerOcvCheck_within (of_decide_eq_true rfl) t ocv
  | ntcRead t ohm => exact execNtcRead_within (of_decide_eq_true rfl) t ohm
  | lanternPatternTick t pin => exact execLanternPatternTick_within (of_decide_eq_true rfl) t pin
  | linkStatus c => exact execLinkStatus_within (of_decide_eq_true rfl) c
  | setLinkRate c => exact execSetLinkRate_within (of_decide_eq_true rfl) c
  | linkTest c => exact execLinkTest_within (of_decide_eq_true rfl) c
  | linkTestEnd t r => exact execLinkTestEnd_within (of_decide_eq_true rfl) t r
  | rateChangeStart t p => exact execRateChangeStart_within (of_decide_eq_true rfl) t p
  | backoffEnd t p => exact execBackoffEnd_within (of_decide_eq_true rfl) t p
  | beaconBurst t p => exact execBeaconBurst_within (of_decide_eq_true rfl) t p
  | uclkValid t p => exact execUclkValid_within (of_decide_eq_true rfl) t p
  | trainingBlockRx t p block => exact execTrainingBlockRx_within (of_decide_eq_true rfl) t p block
  | trainingTimeout t p => exact execTrainingTimeout_within (of_decide_eq_true rfl) t p
  | ctleSettingStep t p height => exact execCtleSettingStep_within (of_decide_eq_true rfl) t p height
  | dfeAdapt t p err data => exact execDfeAdapt_within (of_decide_eq_true rfl) t p err data
  | phaseTrack t p later => exact execPhaseTrack_within (of_decide_eq_true rfl) t p later
  | prbsWindowEnd t p errors => exact execPrbsWindowEnd_within (of_decide_eq_true rfl) t p errors
  | rateIdleEnd t p => exact execRateIdleEnd_within (of_decide_eq_true rfl) t p
  | errorInjection t p => exact execErrorInjection_within (of_decide_eq_true rfl) t p
  | losOnset t p lol ppm => exact execLosOnset_within (of_decide_eq_true rfl) t p lol ppm
  | losClear t p ppm => exact execLosClear_within (of_decide_eq_true rfl) t p ppm
  | losFailure t p lol => exact execLosFailure_within (of_decide_eq_true rfl) t p lol
  | holdExpiry t p => exact execHoldExpiry_within (of_decide_eq_true rfl) t p
  | alignmentMarkerTx t p => exact execAlignmentMarkerTx_within (of_decide_eq_true rfl) t p
  | alignmentMarkerRx t p marker => exact execAlignmentMarkerRx_within (of_decide_eq_true rfl) t p marker
  | upstreamCodeword t p levels => exact execUpstreamCodeword_within (of_decide_eq_true rfl) t p levels
  | requestEntry t p entry => exact execRequestEntry_within (of_decide_eq_true rfl) t p entry
  | doorbell t p body => exact execDoorbell_within (of_decide_eq_true rfl) t p body
  | credit t p body => exact execCredit_within (of_decide_eq_true rfl) t p body
  | ack t p body => exact execAck_within (of_decide_eq_true rfl) t p body
  | upstreamTimeCell t p body => exact execUpstreamTimeCell_within (of_decide_eq_true rfl) t p body
  | trigCell t p body => exact execTrigCell_within (of_decide_eq_true rfl) t p body
  | trainCell t p body => exact execTrainCell_within (of_decide_eq_true rfl) t p body
  | downstreamCellSlot t p => exact execDownstreamCellSlot_within (of_decide_eq_true rfl) t p
  | rtoExpiry t p => exact execRtoExpiry_within (of_decide_eq_true rfl) t p
  | chainTimeout t p => exact execChainTimeout_within (of_decide_eq_true rfl) t p
  | responsePost t p => exact execResponsePost_within (of_decide_eq_true rfl) t p
  | completeDrop t p => exact execCompleteDrop_within (of_decide_eq_true rfl) t p
  | sbSubmit t request => exact execSbSubmit_within (of_decide_eq_true rfl) t request
  | sbDone t => exact execSbDone_within (of_decide_eq_true rfl) t
  | sbAbort t => exact execSbAbort_within (of_decide_eq_true rfl) t
  | enec t events => exact execEnec_within (of_decide_eq_true rfl) t events
  | disec t events => exact execDisec_within (of_decide_eq_true rfl) t events
  | rstdaa t => exact execRstdaa_within (of_decide_eq_true rfl) t
  | entdaa t addr => exact execEntdaa_within (of_decide_eq_true rfl) t addr
  | setdasa t static addr => exact execSetdasa_within (of_decide_eq_true rfl) t static addr
  | setnewda t addr => exact execSetnewda_within (of_decide_eq_true rfl) t addr
  | setmwl t len => exact execSetmwl_within (of_decide_eq_true rfl) t len
  | setmrl t len => exact execSetmrl_within (of_decide_eq_true rfl) t len
  | getmwl t => exact execGetmwl_within (of_decide_eq_true rfl) t
  | getmrl t => exact execGetmrl_within (of_decide_eq_true rfl) t
  | getpid t => exact execGetpid_within (of_decide_eq_true rfl) t
  | getbcr t => exact execGetbcr_within (of_decide_eq_true rfl) t
  | getdcr t => exact execGetdcr_within (of_decide_eq_true rfl) t
  | getstatus t => exact execGetstatus_within (of_decide_eq_true rfl) t
  | powerOn t env => exact execPowerOn_within (by simp [touches, Part.mem_all]) t env
  | porNPulse t width => exact execPorNPulse_within (by simp [touches, Part.mem_all]) t width
  | vmidFail t => exact execVmidFail_within (by simp [touches]) t
  | keeperLoss t => exact execKeeperLoss_within (by simp [touches]) t
  | refLost t => exact execRefLost_within (by simp [touches]) t
  | refReturn t khz => exact execRefReturn_within (by simp [touches, Part.mem_all]) t khz
  | lfxtalLoss t => exact execLfxtalLoss_within (of_decide_eq_true rfl) t
  | lfxtalValid t khz => exact execLfxtalValid_within (of_decide_eq_true rfl) t khz
  | pllLock t n => exact execPllLock_within (of_decide_eq_true rfl) t n
  | pllLockTimeout t n => exact execPllLockTimeout_within (of_decide_eq_true rfl) t n
  | pllUnlock t n => exact execPllUnlock_within (of_decide_eq_true rfl) t n
  | watchdogExpiry t => exact execWatchdogExpiry_within (by simp [touches, Part.mem_all]) t
  | lockstepMismatch t => exact execLockstepMismatch_within (by simp [touches, Part.mem_all]) t
  | sramUe t => exact execSramUe_within (by simp [touches, Part.mem_all]) t
  | tsSample t reads => exact execTsSample_within (of_decide_eq_true rfl) t reads
  | levelHoldExpiry t => exact execLevelHoldExpiry_within (of_decide_eq_true rfl) t
  | squallClear t => exact execSquallClear_within (of_decide_eq_true rfl) t
  | sampleRateReturn t => exact execSampleRateReturn_within (of_decide_eq_true rfl) t
  | graceExpiry t => exact execGraceExpiry_within (of_decide_eq_true rfl) t
  | downTimerExpiry t => exact execDownTimerExpiry_within (of_decide_eq_true rfl) t
  | foghornRepeat t => exact execFoghornRepeat_within (of_decide_eq_true rfl) t
  | shutdownExit t => exact execShutdownExit_within (by simp [touches, Part.mem_all]) t
  | thermalStatus c => exact execThermalStatus_within (of_decide_eq_true rfl) c
  | ackFoghorn c => exact execAckFoghorn_within (of_decide_eq_true rfl) c
  | setThermal c => exact execSetThermal_within (of_decide_eq_true rfl) c
  | configTimer c => exact execConfigTimer_within (of_decide_eq_true rfl) c
  | timerControl c => exact execTimerControl_within (of_decide_eq_true rfl) c
  | timerControlAt t => exact execTimerControlAt_within (of_decide_eq_true rfl) t
  | timerCapture c => exact execTimerCapture_within (of_decide_eq_true rfl) c
  | timerTick t n => exact execTimerTick_within (of_decide_eq_true rfl) t n
  | periodEvent t n => exact execPeriodEvent_within (of_decide_eq_true rfl) t n
  | matchEvent t n second => exact execMatchEvent_within (of_decide_eq_true rfl) t n second
  | zeroEvent t n => exact execZeroEvent_within (of_decide_eq_true rfl) t n
  | pinEdgeAccepted t n level => exact execPinEdgeAccepted_within (of_decide_eq_true rfl) t n level
  | captureEvent t n => exact execCaptureEvent_within (of_decide_eq_true rfl) t n
  | tmrCapLoRead t n => exact execTmrCapLoRead_within (of_decide_eq_true rfl) t n
  | tmrCountRead t n high => exact execTmrCountRead_within (of_decide_eq_true rfl) t n high
  | fsyncOutEnd t pin => exact execFsyncOutEnd_within (of_decide_eq_true rfl) t pin
  | pinTransitionOverrun t pin => exact execPinTransitionOverrun_within (of_decide_eq_true rfl) t pin
  | loadPio c => exact execLoadPio_within (of_decide_eq_true rfl) c
  | startPio c => exact execStartPio_within (of_decide_eq_true rfl) c
  | stopPio c => exact execStopPio_within (of_decide_eq_true rfl) c
  | pioQueue c => exact execPioQueue_within (of_decide_eq_true rfl) c
  | configPins c => exact execConfigPins_within (of_decide_eq_true rfl) c
  | drive t e => exact execDrive_within (of_decide_eq_true rfl) t e
  | xfer t e di => exact execXfer_within (of_decide_eq_true rfl) t e di
  | fetch t e => exact execFetch_within (of_decide_eq_true rfl) t e
  | store t e => exact execStore_within (of_decide_eq_true rfl) t e
  | copy t e pins => exact execCopy_within (of_decide_eq_true rfl) t e pins
  | imm t e => exact execImm_within (of_decide_eq_true rfl) t e
  | loopI t e => exact execLoop_within (of_decide_eq_true rfl) t e
  | waitI t e pins => exact execWait_within (of_decide_eq_true rfl) t e pins
  | br t e pins => exact execBr_within (of_decide_eq_true rfl) t e pins
  | flush t e => exact execFlush_within (of_decide_eq_true rfl) t e
  | endI t e => exact execEnd_within (of_decide_eq_true rfl) t e
  | pioIllegal t e => exact execPioIllegal_within (of_decide_eq_true rfl) t e
  | pioStallEnd t e pins edge => exact execPioStallEnd_within (of_decide_eq_true rfl) t e pins edge
  | waitTimeout t e => exact execWaitTimeout_within (of_decide_eq_true rfl) t e
  | rxqWordMove t e => exact execRxqWordMove_within (of_decide_eq_true rfl) t e
  | piodataPacket t e => exact execPiodataPacket_within (of_decide_eq_true rfl) t e
  | pktUsExpiry t e => exact execPktUsExpiry_within (of_decide_eq_true rfl) t e
  | authChallenge c => exact execAuthChallenge_within (of_decide_eq_true rfl) c
  | authResponse c => exact execAuthResponse_within (of_decide_eq_true rfl) c
  | nonceExpiry t p => exact execNonceExpiry_within (of_decide_eq_true rfl) t p
  | setViewAuth c => exact execSetViewAuth_within (of_decide_eq_true rfl) c
  | otpRead c => exact execOtpRead_within (of_decide_eq_true rfl) c
  | otpProgram c => exact execOtpProgram_within (of_decide_eq_true rfl) c
  | otpLockRegion c => exact execOtpLockRegion_within (of_decide_eq_true rfl) c
  | lifecycle c => exact execLifecycle_within (of_decide_eq_true rfl) c
  | fwLoad c => exact execFwLoad_within (of_decide_eq_true rfl) c
  | fwLoadTimeout t => exact execFwLoadTimeout_within (of_decide_eq_true rfl) t
  | fwHandover t => exact execFwHandover_within (of_decide_eq_true rfl) t
  | rollbackStepWrite t => exact execRollbackStepWrite_within (of_decide_eq_true rfl) t
  | encNAlarm t => exact execEncNAlarm_within (of_decide_eq_true rfl) t
  | shieldCheck t bad => exact execShieldCheck_within (of_decide_eq_true rfl) t bad
  | vglitch t => exact execVglitch_within (of_decide_eq_true rfl) t
  | faultRepeat t code inst => exact execFaultRepeat_within (of_decide_eq_true rfl) t code inst
  | converterSelfTest t => exact execConverterSelfTest_within (of_decide_eq_true rfl) t
  | memorySelfTest t => exact execMemorySelfTest_within (of_decide_eq_true rfl) t
  | linkSelfTest t => exact execLinkSelfTest_within (of_decide_eq_true rfl) t
  | bistComplete t read => exact execBistComplete_within (of_decide_eq_true rfl) t read
  | lfxtalWaitTimeout t => exact execLfxtalWaitTimeout_within (of_decide_eq_true rfl) t
  | dtimeSlewEnd t => exact execDtimeSlewEnd_within (of_decide_eq_true rfl) t
  | otpWordProgrammed t norm strict => exact execOtpWordProgrammed_within (by simp [touches]) t norm strict
  | slowCommandTimeout t opcode => exact execSlowCommandTimeout_within (of_decide_eq_true rfl) t opcode
  | prbsSyncAcquired t p rx => exact execPrbsSyncAcquired_within (of_decide_eq_true rfl) t p rx
  | prbsSyncLoss t p rx => exact execPrbsSyncLoss_within (of_decide_eq_true rfl) t p rx
  | chargerRestStart t mean dq v1 iOut => exact execChargerRestStart_within (of_decide_eq_true rfl) t mean dq v1 iOut
  | chargeBudgetExceeded t dq => exact execChargeBudgetExceeded_within (of_decide_eq_true rfl) t dq
  | chargeTargetReached t mv => exact execChargeTargetReached_within (of_decide_eq_true rfl) t mv

/-- Every command leaves a state that differs from one at its instant or later in the parts it touches at most. -/
theorem exec_within_later {i : Instr} {s' : State} (h : exec i s = .next s') :
    ∃ u : State, Within (touches i) u s' ∧ u.pending = s.pending ∧ s.clk.now ≤ u.clk.now ∧ i.time ≤ u.clk.now := by
  have hat : s.clk.now ≤ (s.at i.time).clk.now ∧ i.time ≤ (s.at i.time).clk.now := by simp
  by_cases hi : ∃ t env held, i = .supplyReturn t env held
  · obtain ⟨t, env, held, rfl⟩ := hi
    obtain ⟨t', hw | rfl⟩ := execSupplyReturn_runs h
    · exact ⟨(s.at t).at t', hw, by simp, by simp, by simp [Instr.time]⟩
    · exact ⟨_, within_self, by simp, hat⟩
  · exact ⟨_, exec_within (fun t env held he => hi ⟨t, env, held, he⟩) _ h, by simp, hat⟩

/-- A command changes nothing but the parts it touches, from the state at its instant on. -/
theorem exec_keeps {i : Instr} {s' : State} (h : exec i s = .next s') : Keeps (touches i) (s.at i.time) s' := by
  by_cases hi : ∃ t env held, i = .supplyReturn t env held
  · obtain ⟨t, env, held, rfl⟩ := hi
    obtain ⟨u, ⟨⟨hp, -⟩, -⟩, hu, -⟩ := exec_within_later h
    exact ⟨by simp [hp, hu], fun a ha => absurd a.mem_all ha⟩
  · exact (exec_within (fun t env held he => hi ⟨t, env, held, he⟩) _ h).1

/-- Settles O3: a command's instant moves the clock on, and what it then does keeps the clock and the queue. -/
theorem timeNeverRunsBackward : Obligations.TimeNeverRunsBackward := by
  unfold Obligations.TimeNeverRunsBackward
  refine ⟨fun i s s' h => ?_, fun i s s' h => ?_⟩
  · obtain ⟨u, ⟨-, hnow⟩, -, hs, hi⟩ := exec_within_later h
    rw [hnow]
    exact ⟨hs, hi⟩
  · obtain ⟨u, ⟨⟨hp, -⟩, -⟩, hu, -⟩ := exec_within_later h
    rw [hp, hu]

end Sys2Proof.Machine
end

section
/-! The clocks: REF, LFXTAL and the PLLs. -/

namespace Sys2Proof.Machine

/-- Every part but those listed. -/
def Part.but (l : List Part) : List Part := Part.all.filter (fun a => !l.contains a)

@[simp] theorem Part.mem_but {a : Part} {l : List Part} : a ∈ Part.but l ↔ a ∉ l := by simp [Part.but, Part.mem_all]

variable {s s' u : State} {L : List Part}

theorem Within.pw (h : Within L s s') (ha : .pw ∉ L) : s'.pw = s.pw := h.1.2 _ ha
theorem Within.mem (h : Within L s s') (ha : .mem ∉ L) : s'.mem = s.mem := h.1.2 _ ha
theorem Within.fm (h : Within L s s') (ha : .fm ∉ L) : s'.fm = s.fm := h.1.2 _ ha
theorem Within.arr (h : Within L s s') (ha : .arr ∉ L) : s'.arr = s.arr := h.1.2 _ ha

/-- The device's own command that is due acts. -/
theorem event_due_at {t : Time} {due : State → Bool} {act : State → State} (hu : u = s.at t) (hd : due u = true) :
    event s t due act = .next (act u) := by
  subst hu
  exact event_due hd

@[simp] theorem fireAlarm_pw (b : Nat) (t : Time) : (fireAlarm s b t).pw = s.pw :=
  Within.pw (L := Part.but [.pw]) (by simp) (by simp)
@[simp] theorem fireAlarm_mem (b : Nat) (t : Time) : (fireAlarm s b t).mem = s.mem :=
  Within.mem (L := Part.but [.mem]) (by simp) (by simp)
@[simp] theorem stand_pw (code inst : Nat) (t : Time) : (stand s code inst t).pw = s.pw :=
  Within.pw (L := Part.but [.pw]) (by simp) (by simp)
@[simp] theorem unstand_pw (code inst : Nat) (t : Time) : (unstand s code inst t).pw = s.pw :=
  Within.pw (L := Part.but [.pw]) (by simp) (by simp)
@[simp] theorem unstand_mem (code inst : Nat) (t : Time) : (unstand s code inst t).mem = s.mem :=
  Within.mem (L := Part.but [.mem]) (by simp) (by simp)
@[simp] theorem raise_pw (code inst : Nat) (t : Time) : (raise s code inst t).pw = s.pw :=
  Within.pw (L := Part.but [.pw]) (by simp) (by simp)
@[simp] theorem raise_mem (code inst : Nat) (t : Time) : (raise s code inst t).mem = s.mem :=
  Within.mem (L := Part.but [.mem]) (by simp) (by simp)

/-- REF_LOST stops every PLL and frame memory (R385). -/
theorem refLost_stops {t : Time} (hu : u = s.at t) (hr : u.pw.refLost = false)
    (hst : u.pw.st = .boot ∨ u.pw.st = .standby ∨ u.pw.st = .active ∨ u.pw.st = .shutdown ∨ u.pw.st = .dawn) (hd : u.otp.stopDusk = none) :
    ∃ s', exec (.refLost t) s = .next s' ∧ s'.pw.refLost = true ∧ s'.pw.refLostAt = t ∧ s'.mem.st = .off ∧ s'.mem.queue = [] ∧
      ∀ p ∈ s'.pw.plls, p.st = .off := by
  rw [show exec (.refLost t) s = execRefLost t s from rfl, execRefLost]
  refine ⟨_, event_due_at hu (by simp [hr, hst]), ?_⟩
  rw [hd]
  simp

/-- The loss of LFXTAL sets KEEP_RC alone (R21). -/
theorem lfxtalLoss_setsKeepRc {t : Time} (hu : u = s.at t) (hok : u.pw.lfxtalOk = true) (hst : u.pw.st ≠ .off) :
    exec (.lfxtalLoss t) s =
      .next { u with pw := { u.pw with lfxtalOk := false, keepRc := true, env := { u.pw.env with lfxtal := false } } } := by
  rw [show exec (.lfxtalLoss t) s = execLfxtalLoss t s from rfl, execLfxtalLoss]
  exact event_due_at hu (by simp [hok, hst])

/-- LFXTAL's return where no boot waits for it (R386). -/
theorem lfxtalValid_clearsKeepRc {t : Time} {khz : Nat} (hu : u = s.at t) (hk : u.pw.keepRc = true) (hst : u.pw.st ≠ .off)
    (hw : u.pw.lfWaitFrom = none) :
    ∃ s', exec (.lfxtalValid t khz) s = .next s' ∧ s'.pw.lfxtalOk = true ∧ s'.pw.keepRc = false ∧ s'.pw.st = u.pw.st := by
  rw [show exec (.lfxtalValid t khz) s = execLfxtalValid t khz s from rfl, execLfxtalValid]
  refine ⟨_, event_due_at hu (by simp [hk, hst]), ?_⟩
  simp only [hw]
  split
  · exact ⟨rfl, rfl, rfl⟩
  · split <;> simp

/-- The power state with other PLLs. -/
def OnlyPlls (s s' : State) : Prop := ∃ pl, s'.pw = { s.pw with plls := pl }

theorem OnlyPlls.refl : OnlyPlls s s := ⟨_, rfl⟩

theorem OnlyPlls.of_pw (h : s'.pw = s.pw) : OnlyPlls s s' := ⟨s.pw.plls, h⟩

theorem OnlyPlls.trans (h : OnlyPlls s u) (h' : OnlyPlls u s') : OnlyPlls s s' := by
  obtain ⟨pl, h⟩ := h
  obtain ⟨pl', h'⟩ := h'
  exact ⟨pl', by rw [h', h]⟩

theorem onlyPlls_modPll (n : Nat) (f : Pll → Pll) : OnlyPlls s (s.modPll n f) := ⟨_, rfl⟩

theorem onlyPlls_foldl {α : Type} {f : State → α → State} (hf : ∀ v x, OnlyPlls v (f v x)) (l : List α) : OnlyPlls s (l.foldl f s) := by
  induction l generalizing s with
  | nil => exact .refl
  | cons a l ih => exact (hf s a).trans ih

theorem pllAttempt_onlyPlls (n : Nat) (st : PllSt) (t : Time) : OnlyPlls s (pllAttempt s n st t) := by
  simp only [pllAttempt]
  split
  · exact onlyPlls_modPll _ _
  · exact (onlyPlls_modPll n (fun p => { p with st := .fail })).trans (.of_pw (by simp))

theorem pllStart_onlyPlls (n : Nat) (t : Time) : OnlyPlls s (pllStart s n t) :=
  (onlyPlls_modPll _ _).trans ((OnlyPlls.of_pw (unstand_pw _ _ _)).trans (pllAttempt_onlyPlls _ _ _))

theorem pllAttemptFailed_onlyPlls (n : Nat) (t : Time) : OnlyPlls s (pllAttemptFailed s n t) := by
  simp only [pllAttemptFailed]
  split
  · exact (onlyPlls_modPll _ _).trans ((onlyPlls_modPll _ _).trans (.of_pw (stand_pw _ _ _)))
  · exact (onlyPlls_modPll _ _).trans (pllAttempt_onlyPlls _ _ _)

theorem bootPll_onlyPlls (n : Nat) (t : Time) : OnlyPlls s (bootPll s n t) := by
  have hstart := (onlyPlls_modPll (s := s) n (fun _ => { Pll.reset with bands := bandTable s n })).trans (pllStart_onlyPlls n t)
  simp only [bootPll]
  split
  · exact hstart
  · split
    · exact hstart.trans (onlyPlls_modPll _ _)
    · refine hstart.trans (onlyPlls_foldl (fun v _ => ?_) _)
      split
      · exact .refl
      · exact pllAttemptFailed_onlyPlls _ _

@[simp] theorem memUnavail_pw (t : Time) : (memUnavail s t).pw = s.pw := Within.pw (L := Part.but [.pw]) (by simp) (by simp)
@[simp] theorem bootMemory_pw (t : Time) : (bootMemory s t).pw = s.pw := Within.pw (L := Part.but [.pw]) (by simp) (by simp)
@[simp] theorem replayLatches_pw (t : Time) : (replayLatches s t).pw = s.pw := Within.pw (L := Part.but [.pw]) (by simp) (by simp)
@[simp] theorem holdBoot_pw (t : Time) : (holdBoot s t).pw = s.pw := Within.pw (L := Part.but [.pw]) (by simp) (by simp)

theorem bootPlls_onlyPlls (t : Time) : OnlyPlls s (bootPlls s t) := by
  simp only [bootPlls]
  split
  · split
    · exact ⟨_, memUnavail_pw _⟩
    · exact ⟨_, rfl⟩
  · split
    · exact .refl
    · exact onlyPlls_foldl (fun _ n => bootPll_onlyPlls n _) _

/-- A boot without a usable REF leaves every PLL off (R386). -/
theorem bootPlls_off {t : Time} (h : s.pw.refUnknown = true) : ∀ p ∈ (bootPlls s t).pw.plls, p.st = .off := by
  simp only [bootPlls, h, if_true]
  split <;> simp

/-- The pumps' start is noted in the power state, nothing else of it. -/
theorem startPumps_pw (t : Time) : ∃ l, (startPumps s t).pw = { s.pw with seen := l } := ⟨_, rfl⟩

theorem actProfile_pw (t : Time) : ∃ l, (actProfile s t).pw = { s.pw with seen := l } := by
  have hsame : ∀ v : State, Within (Part.but [.pw]) s v → ∃ l, v.pw = { s.pw with seen := l } := fun v hv => ⟨s.pw.seen, hv.pw (by simp)⟩
  have hpump : ∀ v : State, Within (Part.but [.pw]) s v → ∃ l, (startPumps v t).pw = { s.pw with seen := l } := by
    intro v hv
    obtain ⟨l, hl⟩ := startPumps_pw (s := v) t
    exact ⟨l, by rw [hl, hv.pw (by simp)]⟩
  unfold actProfile
  extract_lets hosts
  clear_value hosts
  split
  · exact hsame s within_self
  · split
    · exact hsame _ (by simp)
    · split
      · exact hsame s within_self
      · split
        · exact hsame _ (by simp +zetaDelta)
        · exact hpump _ (by simp +zetaDelta)

/-- What the last step of a boot leaves of the power state. -/
theorem bootEnd_pw (t : Time) : ∃ pl l bt, (bootEnd s t).pw =
    { s.pw with plls := pl, seen := l, bootStep := 7, bootTill := t, bootTime := bt } ∧ (s.pw.refUnknown = true → ∀ p ∈ pl, p.st = .off) := by
  obtain ⟨pl, hpl⟩ := bootPlls_onlyPlls (s := s) t
  have hoff : s.pw.refUnknown = true → ∀ p ∈ pl, p.st = .off := fun h => by simpa [hpl] using bootPlls_off (s := s) (t := t) h
  unfold bootEnd
  extract_lets b k _ _ trimmed held replayed power noted
  have htrim : trimmed.pw = b.pw := Within.pw (L := Part.but [.pw]) (by simp +zetaDelta) (by simp)
  have hpower : power = { s.pw with plls := pl } := by
    simp only [power, replayed, held, replayLatches_pw, holdBoot_pw, htrim, b, hpl]
  obtain ⟨l, hl⟩ := actProfile_pw (s := noted) t
  refine ⟨pl, l, noted.pw.bootTime, ?_, hoff⟩
  rw [bootMemory_pw, hl]
  simp only [noted, hpower]
  rfl

theorem applyRef_pw (r : Option (Nat × Nat)) (meas : Nat) (t : Time) : ∃ hz src, (applyRef s r meas t).pw =
    { s.pw with refMeas := meas, refUnknown := r.isNone, refKhz := hz, refSrc := src } := by
  simp only [applyRef]
  split
  · exact ⟨_, _, stand_pw _ _ _⟩
  · exact ⟨_, _, unstand_pw _ _ _⟩

/-- LFXTAL's return takes a boot that waits for it on to step 7 (R386). -/
theorem lfxtalValid_endsBoot {t a : Time} {khz : Nat} (hu : u = s.at t) (hk : u.pw.keepRc = true) (hst : u.pw.st ≠ .off)
    (hw : u.pw.lfWaitFrom = some a) :
    ∃ s', exec (.lfxtalValid t khz) s = .next s' ∧ s'.pw.keepRc = false ∧ s'.pw.lfWaitFrom = none ∧ s'.pw.bootStep = 7 ∧
      s'.pw.bootTill = max (a + 5 * ms) (t + 3 * ms / 2) := by
  rw [show exec (.lfxtalValid t khz) s = execLfxtalValid t khz s from rfl, execLfxtalValid]
  refine ⟨_, event_due_at hu (by simp [hk, hst]), ?_⟩
  simp only [hw]
  generalize refCheck _ khz true = r
  generalize hv : applyRef _ r khz t = v
  obtain ⟨hz, src, hpw⟩ := applyRef_pw (s := { u with pw := { u.pw with
    lfxtalOk := true, keepRc := false, env := { u.pw.env with lfxtal := true }, lfWaitFrom := none } }) r khz t
  obtain ⟨pl, l, bt, hend, -⟩ := bootEnd_pw (s := v) (max (a + 5 * ms) (t + 3 * ms / 2))
  rw [hend, ← hv, hpw]
  exact ⟨rfl, rfl, rfl, rfl⟩

/-- A boot whose wait for LFXTAL ends goes on with REF unknown and its PLLs off (R386). -/
theorem lfxtalWaitTimeout_endsBoot {t a : Time} (hu : u = s.at t) (hw : u.pw.lfWaitFrom = some a) (ht : a + 2 * sec ≤ t) :
    ∃ s', exec (.lfxtalWaitTimeout t) s = .next s' ∧ s'.pw.lfWaitFrom = none ∧ s'.pw.bootStep = 7 ∧ s'.pw.refUnknown = true ∧
      ∀ p ∈ s'.pw.plls, p.st = .off := by
  rw [show exec (.lfxtalWaitTimeout t) s = execLfxtalWaitTimeout t s from rfl, execLfxtalWaitTimeout]
  refine ⟨_, event_due_at hu (by simp [hw, ht]), ?_⟩
  obtain ⟨hz, src, hpw⟩ := applyRef_pw (s := { u with pw := { u.pw with lfWaitFrom := none } }) none u.pw.refMeas t
  obtain ⟨pl, l, bt, hend, hoff⟩ := bootEnd_pw (s := applyRef { u with pw := { u.pw with lfWaitFrom := none } } none u.pw.refMeas t) (t + 3 * ms / 2)
  rw [hend]
  exact ⟨by rw [hpw], rfl, by rw [hpw]; rfl, hoff (by rw [hpw]; rfl)⟩

theorem State.modPll_pll_self {n : Nat} (hn : n < s.pw.plls.length) (f : Pll → Pll) : (s.modPll n f).pll n = f (s.pll n) :=
  modAt_getD_self _ _ _ _ hn

theorem State.modPll_pll_other {n k : Nat} (hk : n ≠ k) (f : Pll → Pll) : (s.modPll n f).pll k = s.pll k := modAt_getD_other _ _ _ _ _ hk

theorem State.pll_of_pw (h : s'.pw = s.pw) (n : Nat) : s'.pll n = s.pll n := by simp only [State.pll, h]

theorem pllKhz_of_mem (h : s'.mem = s.mem) (n : Nat) : pllKhz s' n = pllKhz s n := by
  have hbin : pllBin s' = pllBin s := by simp only [pllBin, h]
  simp only [pllKhz, hbin]

@[simp] theorem pllDown_pw (n : Nat) (t : Time) : (pllDown s n t).pw = s.pw := Within.pw (L := Part.but [.pw]) (by simp) (by simp)
@[simp] theorem ifFailed_pw (n : Nat) (t : Time) : (ifFailed s n t).pw = s.pw := Within.pw (L := Part.but [.pw]) (by simp) (by simp)
@[simp] theorem pllStart_arr (n : Nat) (t : Time) : (pllStart s n t).arr = s.arr := Within.arr (L := Part.but [.arr]) (by simp) (by simp)

/-- An attempt at a lock keeps the count of attempts, and goes on in the state asked for where a band fits. -/
theorem pllAttempt_pll {n : Nat} (hn : n < s.pw.plls.length) (st : PllSt) (t : Time) :
    ((pllAttempt s n st t).pll n).tries = (s.pll n).tries ∧
      ((pickBand (s.pll n).use (s.pll n).tried (pllKhz s n)).isSome = true → pllOf (pllAttempt s n st t) n = st) := by
  simp only [pllAttempt, pllOf]
  split
  · next e he => simp [State.modPll_pll_self hn]
  · next he => simp [he, State.pll_of_pw ((stand_pw _ _ _).trans (raise_pw _ _ _)), State.modPll_pll_self hn]

/-- A failed attempt counts; the third one fails the PLL, and an earlier one goes on with the next band (R389). -/
theorem pllAttemptFailed_pll {n : Nat} (hn : n < s.pw.plls.length) (t : Time) :
    ((pllAttemptFailed s n t).pll n).tries = (s.pll n).tries + 1 ∧ (2 ≤ (s.pll n).tries → pllOf (pllAttemptFailed s n t) n = .fail) ∧
      ((s.pll n).tries < 2 → (pickBand (s.pll n).use (s.pll n).tried (pllKhz s n)).isSome = true →
        pllOf (pllAttemptFailed s n t) n = .band) := by
  simp only [pllAttemptFailed, pllOf]
  generalize hv : s.modPll n _ = v
  have hlen : n < v.pw.plls.length := by simp [← hv, hn]
  have hpll : v.pll n = { s.pll n with tries := (s.pll n).tries + 1, lockUs := (s.pll n).lockUs + (t - (s.pll n).since) / us } := by
    rw [← hv, State.modPll_pll_self hn]
  have hkhz : pllKhz v n = pllKhz s n := pllKhz_of_mem (by simp [← hv]) n
  split
  · next h3 =>
    have h2 : 2 ≤ (s.pll n).tries := by simpa [hpll] using h3
    rw [State.pll_of_pw (stand_pw _ _ _), State.modPll_pll_self hlen, hpll]
    exact ⟨rfl, fun _ => rfl, fun h => absurd h (by omega)⟩
  · next h3 =>
    have h2 : (s.pll n).tries < 2 := by simpa [hpll] using h3
    obtain ⟨htries, hband⟩ := pllAttempt_pll hlen .band t
    rw [hpll, hkhz] at hband
    exact ⟨by rw [htries, hpll], fun h => absurd h (by omega), fun _ => hband⟩

/-- A lock that starts counts no attempt yet, and goes to SAFE where a band fits (R388). -/
theorem pllStart_pll {n : Nat} (hn : n < s.pw.plls.length) (t : Time) :
    ((pllStart s n t).pll n).tries = 0 ∧
      ((pickBand (s.pll n).bands [] (pllKhz s n)).isSome = true → pllOf (pllStart s n t) n = .safe) := by
  simp only [pllStart]
  generalize hw : s.modPll n _ = w
  generalize hv : unstand w fPLL_FAIL n t = v
  have hpw : v.pw = w.pw := by rw [← hv, unstand_pw]
  have hlen : n < v.pw.plls.length := by simp [hpw, ← hw, hn]
  have hkhz : pllKhz v n = pllKhz s n := pllKhz_of_mem (by simp [← hv, ← hw]) n
  obtain ⟨htries, hsafe⟩ := pllAttempt_pll hlen .safe t
  rw [hkhz, State.pll_of_pw hpw, ← hw, State.modPll_pll_self hn] at hsafe
  rw [htries, State.pll_of_pw hpw, ← hw, State.modPll_pll_self hn]
  exact ⟨rfl, hsafe⟩

/-- PLL_LOCK reaches LOCKED and leaves the other PLLs (R388). -/
theorem pllLock_locks {t : Time} {n : Fin 4} (hu : u = s.at t) (hlen : u.pw.plls.length = 4) (hst : pllOf u n.val = .acquire) :
    ∃ s', exec (.pllLock t n) s = .next s' ∧ pllOf s' n.val = .locked ∧ ∀ k : Nat, k ≠ n.val → s'.pll k = u.pll k := by
  rw [show exec (.pllLock t n) s = execPllLock t n s from rfl, execPllLock]
  refine ⟨_, event_due_at hu (by simp [hst]), ?_⟩
  have hn : n.val < u.pw.plls.length := by omega
  have hrestart : ∀ v : State, (if n.val = 0 ∧ v.seq.relock ∧ (!v.seq.running || v.seq.stopping) ∧ v.pw.st = .active then
      startArrayAt (if v.seq.running then cutArray v t else v) t else v).pw = v.pw := fun v =>
    Within.pw (L := Part.but [.pw]) (by simp) (by simp)
  have hpw : ∀ k, (pllLocked u n.val t).pll k = (u.modPll n.val (fun p => { p with st := .locked, since := t })).pll k := fun k => rfl
  refine ⟨?_, fun k hk => ?_⟩
  · rw [pllOf, State.pll_of_pw (hrestart _), hpw, State.modPll_pll_self hn]
  · rw [State.pll_of_pw (hrestart _), hpw, State.modPll_pll_other (Ne.symm hk)]

/-- PLL_LOCK_TIMEOUT takes the next attempt or fails the PLL (R389). -/
theorem pllLockTimeout_counts {t : Time} {n : Fin 4} (hu : u = s.at t) (hlen : u.pw.plls.length = 4) (hst : pllOf u n.val = .acquire)
    (ht : (u.pll n.val).since + (u.pll n.val).tmo ≤ t) :
    ∃ s', exec (.pllLockTimeout t n) s = .next s' ∧ (s'.pll n.val).tries = (u.pll n.val).tries + 1 ∧
      (2 ≤ (u.pll n.val).tries → pllOf s' n.val = .fail) ∧
      ((u.pll n.val).tries < 2 → (pickBand (u.pll n.val).use (u.pll n.val).tried (pllKhz u n.val)).isSome = true → pllOf s' n.val = .band) := by
  rw [show exec (.pllLockTimeout t n) s = execPllLockTimeout t n s from rfl, execPllLockTimeout]
  refine ⟨_, event_due_at hu (by simp [hst, ht]), ?_⟩
  simp only [pllOf, State.pll_of_pw (ifFailed_pw _ _)]
  exact pllAttemptFailed_pll (by omega) t

/-- The array that stops as STOP_ARRAY HOW 1 does is halted, or stops at the end of a busy slot. -/
theorem stopArrayNow_stops (t : Time) : (stopArrayNow s t).seq.running = false ∨ (stopArrayNow s t).seq.stopping = true := by
  simp only [stopArrayNow]
  split
  · next h => exact .inl (by simpa using h)
  · split
    · exact .inr rfl
    · exact .inl rfl

/-- What PLLA's loss does to the array it also does where the PLL then fails (R391). -/
theorem ifFailed_stops {t : Time} (h : s.seq.running = false ∨ s.seq.stopping = true) :
    (ifFailed s 0 t).seq.running = false ∨ (ifFailed s 0 t).seq.stopping = true := by
  simp only [ifFailed]
  split
  · exact stopArrayNow_stops (s := s) t
  · exact h

/-- The clock a PLL aims at after its loss depends on the memory alone. -/
theorem pllKhz_pllDown (h : s'.mem = s.mem) (n : Fin 4) (t : Time) : pllKhz (pllDown s' n.val t) n.val = pllKhz (pllDown s n.val t) n.val := by
  match n with
  | 0 => rfl
  | 1 => rfl
  | 2 => exact pllKhz_of_mem (by simp [pllDown, h]) 2
  | 3 => rfl

/-- PLL_UNLOCK locks anew, and stops the array where PLLA is lost (R391). -/
theorem pllUnlock_locksAnew {t : Time} {n : Fin 4} (hu : u = s.at t) (hlen : u.pw.plls.length = 4) (hst : pllOf u n.val = .locked) :
    ∃ s', exec (.pllUnlock t n) s = .next s' ∧ (s'.pll n.val).tries = 0 ∧ (n = 0 → s'.seq.running = false ∨ s'.seq.stopping = true) ∧
      ((pickBand (u.pll n.val).bands [] (pllKhz (pllDown u n.val t) n.val)).isSome = true → pllOf s' n.val = .safe) := by
  rw [show exec (.pllUnlock t n) s = execPllUnlock t n s from rfl, execPllUnlock]
  refine ⟨_, event_due_at hu (by simp [hst]), ?_⟩
  dsimp only
  generalize hv : (raise u fPLL_UNLOCK n.val t).bump (aPCLK_PLL_STAT n.val) 15 8 1 = v
  have hpw : v.pw = u.pw := by simp [← hv]
  have hmem : v.mem = u.mem := by simp [← hv]
  have hdown : (pllDown v n.val t).pw = u.pw := by rw [pllDown_pw, hpw]
  obtain ⟨htries, hsafe⟩ := pllStart_pll (s := pllDown v n.val t) (n := n.val) (by rw [hdown]; omega) t
  rw [pllKhz_pllDown hmem, State.pll_of_pw hdown] at hsafe
  simp only [pllOf, State.pll_of_pw (ifFailed_pw _ _)]
  refine ⟨htries, fun h0 => ?_, hsafe⟩
  subst h0
  refine ifFailed_stops ?_
  simp only [State.seq, pllStart_arr]
  exact stopArrayNow_stops (s := v) t

/-- Settles O14: clause by clause, the rule of each of the seven commands. -/
theorem clocksAreLostAndLock : Obligations.ClocksAreLostAndLock := by
  unfold Obligations.ClocksAreLostAndLock
  exact ⟨fun _ _ _ => refLost_stops, fun _ _ _ => lfxtalLoss_setsKeepRc, fun _ _ _ _ => lfxtalValid_clearsKeepRc,
    fun _ _ _ _ _ => lfxtalValid_endsBoot, fun _ _ _ _ => lfxtalWaitTimeout_endsBoot, fun _ _ _ _ => pllLock_locks,
    fun _ _ _ _ => pllLockTimeout_counts, fun _ _ _ _ => pllUnlock_locksAnew⟩

end Sys2Proof.Machine
end

section
/-! Mailbox requests: an entry that takes a slot, the chain it joins, the request handed over, and the answers. -/

namespace Sys2Proof.Machine

variable {s u v w : State} {p : PortIx} {e : List Byte} {t x : Time}

theorem State.modPort_port_self (hp : p.val < s.ports.length) (f : Port → Port) : (s.modPort p f).port p = f (s.port p) :=
  modAt_getD_self _ _ _ _ hp

theorem State.modMbx_mbx_self (hp : p.val < s.ports.length) (f : Mbx → Mbx) : ((s.modMbx p f).port p).mbx = f (s.port p).mbx := by
  rw [State.modMbx, State.modPort_port_self hp]

@[simp] theorem State.bump_port (a hi lo n : Nat) (q : PortIx) : (s.bump a hi lo n).port q = s.port q := rfl

/-- A packet taken out of the inbox changes the inbox alone. -/
theorem takeIn_eq {type : Nat} {body : List Byte} (h : takeIn u p type body t = (x, v)) :
    v = u ∨ ∃ f : List InPkt → List InPkt, v = u.modPort p (fun q => { q with inbox := f q.inbox }) := by
  simp only [takeIn] at h
  split at h
  · cases h
    exact .inr ⟨_, rfl⟩
  · cases h
    exact .inl rfl

/-- What taking a packet out of the inbox leaves alone. -/
theorem takeIn_keeps {type : Nat} {body : List Byte} (h : takeIn u p type body t = (x, v)) (hlen : u.ports.length = 4) :
    v.ports.length = 4 ∧ (v.port p).mbx = (u.port p).mbx ∧ v.fwq = u.fwq ∧ v.regs = u.regs := by
  rcases takeIn_eq h with rfl | ⟨f, rfl⟩
  · exact ⟨hlen, rfl, rfl, rfl⟩
  · refine ⟨by simp [hlen], ?_, rfl, rfl⟩
    rw [State.modPort_port_self (by omega)]

/-- What an entry that takes a slot leaves of its port's mailbox and of the requests handed over. -/
theorem EntryTaken.keeps (h : EntryTaken u w t x p e) :
    w.ports.length = 4 ∧ w.fwq = u.fwq ∧ (w.port p).mbx.chain = (u.port p).mbx.chain ∧ (w.port p).mbx.wait = (u.port p).mbx.wait ∧
      (w.port p).mbx.reqFree = (u.port p).mbx.reqFree - 1 := by
  obtain ⟨hlen, -, -, v, htake, -, rfl⟩ := h
  obtain ⟨hvlen, hmbx, hfwq, -⟩ := takeIn_keeps htake hlen
  refine ⟨by simp [State.modMbx, hvlen], hfwq, ?_⟩
  rw [State.modMbx_mbx_self (by omega), hmbx]
  simp only [Mbx.claimReq]
  split
  · next h0 => exact ⟨rfl, rfl, by simp [h0]⟩
  · exact ⟨rfl, rfl, rfl⟩

/-- An entry that finds a slot, and is no repeat after a return, joins its chain (R329, R332). -/
theorem EntryTaken.exec_eq (hu : u = s.at t) (h : EntryTaken u w t x p e) :
    exec (.requestEntry t p e) s = .next (joinEntry (if entryCrcOk e then w else w.bump aSYS_MBX_ERR 31 24 1) p e x) := by
  obtain ⟨hlen, hact, hfresh, v, htake, hslot, rfl⟩ := h
  obtain ⟨-, hmbx, -, -⟩ := takeIn_keeps htake hlen
  rw [show exec (.requestEntry t p e) s = execRequestEntry t p e s from rfl, execRequestEntry, event_due_at hu (by simp [State.portActive, hact])]
  have hfree : ¬ ((u.port p).mbx.reqFree = 0 ∧ slotsDue v p t ≤ (u.port p).mbx.reqOwed) := by omega
  have hagain : (decide (0 < (u.port p).mbx.dupLeft) && (u.port p).mbx.oldRecent.contains (u16 e 2, u32 e 12)) = false := by
    rcases hfresh with h0 | hnew
    · simp [h0]
    · simp [hnew]
  simp only [htake, hmbx, hfree, hagain, if_false, Bool.false_eq_true]

theorem clsOf_code (k : Cls) : clsOf k.code = k := by cases k <;> rfl

theorem Cls.code_lt (k : Cls) : k.code < 4 := by cases k <;> decide

/-- A request whose header breaks no rule is handed over as it stands (R337). -/
theorem handOver_fwq {payload : List Byte} {slots : Nat} {k : Cls} (hk : opClass (u16 e 0) = some k) (hc : u8 e 4 = k.code) (htag : u16 e 2 ≠ 0xFFFF)
    (hshape : shapeBad e = false) : handOver s (.port p) e payload slots none t = { s with fwq := s.fwq ++
      [⟨.port p, u16 e 0, BitVec.ofNat 16 (u16 e 2), k, slice e 8 4, t, slots, payload, some (requestDue s k t), none, k⟩] } := by
  have hclass : countClass s e = s := by simp [countClass, hk, hc, clsOf_code]
  have hhead : headerBad e = none := by
    have h4 := k.code_lt
    simp only [shapeBad, Bool.or_eq_false_iff, decide_eq_false_iff_not] at hshape
    obtain ⟨⟨hlen, hcount0⟩, hcount⟩ := hshape
    simp [headerBad, htag, hk, hc, clsOf_code, hlen, hcount0, hcount]
    omega
  simp [handOver, hclass, hhead, hk, hc, clsOf_code]

/-- A sound whole request is handed over (R337). -/
theorem dispatchRequest_sound {payload : List Byte} {count : Nat} {k : Cls} (hk : opClass (u16 e 0) = some k) (hi : k = .immediate → count ≤ 1) :
    dispatchRequest s p e payload count false none t = handOver s (.port p) e payload count none t := by
  have hbad : requestBad e count = none := by
    simp only [requestBad, hk]
    split
    · next h => exact absurd (hi h.1) (by omega)
    · rfl
  simp [dispatchRequest, hbad]

/-- The first entry of a sound request of one entry hands it over. -/
theorem firstEntry_single (hcrc : entryCrcOk e = true) (h6 : u8 e 6 = 0) (h7 : u8 e 7 = 1) (h5 : u8 e 5 ≤ 48) :
    firstEntry s p e t = dispatchRequest s p e (slice e 16 (u8 e 5)) 1 false (beyondLen e 0) t := by
  have hshape : shapeBad e = false := by simp [shapeBad, h7, h5]
  simp [firstEntry, hcrc, h6, h7, hshape]

/-- A request of one entry with a bad CRC is answered with the CRC's offset (R331). -/
theorem firstEntry_badCrc (hcrc : entryCrcOk e = false) (h7 : u8 e 7 = 1) : firstEntry s p e t = answerRaw s p e crcBad 1 t := by
  simp [firstEntry, hcrc, h7]

/-- The first entry of several opens a chain (R332). -/
theorem firstEntry_opens {n : Nat} (h6 : u8 e 6 = 0) (hn : 2 ≤ n) (hn' : n ≤ 16) (h7 : u8 e 7 = n) (h5 : u8 e 5 = 48) :
    firstEntry s p e t =
      s.modMbx p (fun m => { m with chain := some ⟨slice e 0 12, 1, n, slice e 16 48, t, !entryCrcOk e, beyondLen e 0⟩ }) := by
  have hshape : shapeBad e = false := by
    simp [shapeBad, h7, h5]
    omega
  have h1 : n ≠ 1 := by omega
  have hle : ¬ n ≤ 1 := by omega
  simp [firstEntry, h6, h7, h5, hshape, h1, hle]

/-- An entry joins no chain where none is open. -/
theorem joinEntry_none (h : (s.port p).mbx.chain = none) : joinEntry s p e t = firstEntry s p e t := by simp [joinEntry, h]

/-- A sound entry that continues a chain and does not end it joins it (R332). -/
theorem joinEntry_continues {c : Chain} (h : (s.port p).mbx.chain = some c) (h6 : u8 e 6 = c.next) (hhdr : chainHdr e = chainHdr c.hdr)
    (hlast : c.next + 1 ≠ c.count) (h5 : u8 e 5 = 48) (hbeyond : c.beyond = none) (hcrc : entryCrcOk e = true) :
    joinEntry s p e t = s.modMbx p (fun m => { m with chain := some { c with
      next := c.next + 1, payload := c.payload ++ slice e 16 48, last := t, beyond := beyondLen e c.payload.length } }) := by
  rw [chainHdr.eq_1 c.hdr] at hhdr
  simp [joinEntry, h, h6, hhdr, hlast, h5, hbeyond, hcrc]

/-- The last entry of a sound chain hands on the joined payload (R332, R337). -/
theorem joinEntry_ends {c : Chain} (h : (s.port p).mbx.chain = some c) (h6 : u8 e 6 = c.next) (hhdr : chainHdr e = chainHdr c.hdr)
    (hlast : c.next + 1 = c.count) (h5 : 1 ≤ u8 e 5) (h5' : u8 e 5 ≤ 48) (hbeyond : c.beyond = none) (hb : beyondLen e c.payload.length = none)
    (hbad : c.crcBad = false) (hcrc : entryCrcOk e = true) :
    joinEntry s p e t = dispatchRequest (s.modMbx p (fun m => { m with chain := none })) p c.hdr (c.payload ++ slice e 16 (u8 e 5)) c.count false
      none t := by
  rw [chainHdr.eq_1 c.hdr] at hhdr
  simp [joinEntry, h, h6, hhdr, hlast, h5, h5', hbeyond, hb, hbad, hcrc]

@[simp] theorem bareRsps_excused (m : Mbx) : bareRsps m.excuseSlots.wait = bareRsps m.wait := by
  simp only [bareRsps, Mbx.excuseSlots, List.map_map]
  refine List.map_congr_left fun r _ => ?_
  simp only [Function.comp]
  split <;> rfl

/-- An answer waits to post behind the others, whatever its deadline becomes (R339). -/
theorem answerRaw_waits (hp : p.val < s.ports.length) (h : List Byte) (r : Reject) (slots : Nat) :
    (answerRaw s p h r slots t).fwq = s.fwq ∧ ((answerRaw s p h r slots t).port p).mbx.reqFree = (s.port p).mbx.reqFree ∧
      ((answerRaw s p h r slots t).port p).mbx.chain = (s.port p).mbx.chain ∧
      ∃ q : Rsp, bareRsps ((answerRaw s p h r slots t).port p).mbx.wait = bareRsps ((s.port p).mbx.wait ++ [q]) ∧ q.opcode = u16 h 0 ∧
        q.tag = BitVec.ofNat 16 (u16 h 2) ∧ q.status = r.status ∧ q.detail = r.detail ∧ q.slots = slots := by
  refine ⟨rfl, ?_⟩
  simp only [answerRaw, State.modMbx_mbx_self hp, Mbx.queueRsp, bareRsps_excused]
  exact ⟨rfl, rfl, _, rfl, rfl, rfl, rfl, rfl, rfl⟩

/-- `CHAIN_TIMEOUT` closes the chain and answers it with TIMEOUT (R332). -/
theorem chainTimeout_answers {c : Chain} (hu : u = s.at t) (hlen : u.ports.length = 4) (hc : (u.port p).mbx.chain = some c) (ht : c.last + ms ≤ t) :
    ∃ s', exec (.chainTimeout t p) s = .next s' ∧ (s'.port p).mbx.chain = none ∧ s'.fwq = u.fwq ∧
      ∃ r : Rsp, bareRsps (s'.port p).mbx.wait = bareRsps ((u.port p).mbx.wait ++ [r]) ∧ r.status = .timeout ∧ r.slots = c.next := by
  rw [show exec (.chainTimeout t p) s = execChainTimeout t p s from rfl, execChainTimeout]
  refine ⟨_, event_due_at hu (by simp [hc, ht]), ?_⟩
  simp only [hc, closeChain]
  obtain ⟨hfwq, -, hchain, r, hwait, -, -, hst, -, hslots⟩ := answerRaw_waits (t := t)
    (s := (u.modMbx p (fun m => { m with chain := none })).bump aSYS_MBX_ERR 23 16 1) (p := p)
    (by simp [State.modMbx]; omega) c.hdr ⟨.timeout, 0⟩ c.next
  rw [State.bump_port, State.modMbx_mbx_self (by omega)] at hchain hwait
  exact ⟨hchain, hfwq, r, hwait, hst, hslots⟩

/-- Without a free slot, and none that a response of the same instant gives back, the link is asked for a NAK (R25, R329). -/
theorem requestEntry_noSlot (hu : u = s.at t) (hact : (u.port p).tr.st = .active) (htake : takeIn u p tCMD e t = (x, v))
    (hfree : (v.port p).mbx.reqFree = 0) (hdue : slotsDue v p t ≤ (v.port p).mbx.reqOwed) :
    exec (.requestEntry t p e) s = .next (v.modRel p (fun r => { r with owedNak := true })) := by
  rw [show exec (.requestEntry t p e) s = execRequestEntry t p e s from rfl, execRequestEntry, event_due_at hu (by simp [State.portActive, hact])]
  simp only [htake, hfree, hdue, and_self, if_true]

/-- A repeat after a return is counted, and its slot goes back (R326). -/
theorem requestEntry_repeat (hu : u = s.at t) (hlen : u.ports.length = 4) (hact : (u.port p).tr.st = .active)
    (htake : takeIn u p tCMD e t = (x, v)) (hfree : 0 < (u.port p).mbx.reqFree) (howed : (u.port p).mbx.reqOwed = 0)
    (hdup : 0 < (u.port p).mbx.dupLeft) (hold : (u16 e 2, u32 e 12) ∈ (u.port p).mbx.oldRecent) :
    ∃ s', exec (.requestEntry t p e) s = .next s' ∧ s'.fwq = u.fwq ∧ (s'.port p).mbx.reqFree = (u.port p).mbx.reqFree ∧
      (s'.port p).mbx.cmdLimit = ((u.port p).mbx.cmdLimit + 1) % 65536 ∧ (s'.port p).owedLimit = true ∧
      s'.regs = (u.bump (aLINK_DUP p.val) 15 0 1).regs := by
  rw [show exec (.requestEntry t p e) s = execRequestEntry t p e s from rfl, execRequestEntry]
  refine ⟨_, event_due_at hu (by simp [State.portActive, hact]), ?_⟩
  obtain ⟨hvlen, hmbx, hfwq, hregs⟩ := takeIn_keeps htake hlen
  have hslot : ¬ ((u.port p).mbx.reqFree = 0 ∧ slotsDue v p t ≤ (u.port p).mbx.reqOwed) := by omega
  have hagain : (decide (0 < (u.port p).mbx.dupLeft) && (u.port p).mbx.oldRecent.contains (u16 e 2, u32 e 12)) = true := by simp [hdup, hold]
  simp only [htake, hmbx, hslot, hagain, if_false, if_true]
  rw [State.modPort_port_self (by simp [State.modMbx]; omega), State.bump_port, State.modMbx_mbx_self (by omega), hmbx]
  have hne : (u.port p).mbx.reqFree ≠ 0 := by omega
  refine ⟨hfwq, ?_, ?_, rfl, ?_⟩
  · simp only [Mbx.claimReq, Mbx.releaseReq, hne, if_false, howed]
    omega
  · simp only [Mbx.claimReq, hne, if_false]
  · simp [State.bump, State.setFld, State.fld, State.reg, hregs]

/-- A sound request of one entry is handed on with its stamp and deadline (R331, R337, R338). -/
theorem requestEntry_handsOn {k : Cls} (hu : u = s.at t) (h : EntryTaken u w t x p e) (hchain : (u.port p).mbx.chain = none)
    (hcrc : entryCrcOk e = true) (h6 : u8 e 6 = 0) (h7 : u8 e 7 = 1) (h5 : u8 e 5 ≤ 48) (hk : opClass (u16 e 0) = some k) (hc : u8 e 4 = k.code)
    (htag : u16 e 2 ≠ 0xFFFF) (hb : beyondLen e 0 = none) :
    ∃ s', exec (.requestEntry t p e) s = .next s' ∧ (s'.port p).mbx.reqFree = (u.port p).mbx.reqFree - 1 ∧
      s'.fwq = u.fwq ++ [⟨.port p, u16 e 0, BitVec.ofNat 16 (u16 e 2), k, slice e 8 4, x, 1, slice e 16 (u8 e 5),
        some (requestDue u k x), none, k⟩] := by
  obtain ⟨-, hfwq, hwchain, -, hfree⟩ := h.keeps
  have hshape : shapeBad e = false := by simp [shapeBad, h7, h5]
  refine ⟨_, h.exec_eq hu, ?_⟩
  rw [if_pos hcrc, joinEntry_none (hwchain.trans hchain), firstEntry_single hcrc h6 h7 h5, hb, dispatchRequest_sound hk (fun _ => le_rfl),
    handOver_fwq hk hc htag hshape]
  exact ⟨hfree, by simp only [requestDue, hfwq]⟩

/-- A first entry of several opens a chain (R332). -/
theorem requestEntry_opens {n : Nat} (hu : u = s.at t) (h : EntryTaken u w t x p e) (hchain : (u.port p).mbx.chain = none)
    (h6 : u8 e 6 = 0) (hn : 2 ≤ n) (hn' : n ≤ 16) (h7 : u8 e 7 = n) (h5 : u8 e 5 = 48) :
    ∃ s', exec (.requestEntry t p e) s = .next s' ∧ s'.fwq = u.fwq ∧ (s'.port p).mbx.wait = (u.port p).mbx.wait ∧
      (s'.port p).mbx.chain = some ⟨slice e 0 12, 1, n, slice e 16 48, x, !entryCrcOk e, beyondLen e 0⟩ := by
  obtain ⟨hlen, hfwq, hwchain, hwait, -⟩ := h.keeps
  refine ⟨_, h.exec_eq hu, ?_⟩
  generalize hv : (if entryCrcOk e then w else w.bump aSYS_MBX_ERR 31 24 1) = v
  obtain ⟨hport, hvfwq, hvlen⟩ : v.port p = w.port p ∧ v.fwq = w.fwq ∧ v.ports.length = 4 := by
    rw [← hv]
    split <;> exact ⟨rfl, rfl, hlen⟩
  rw [joinEntry_none (by rw [hport, hwchain, hchain]), firstEntry_opens h6 hn hn' h7 h5, State.modMbx_mbx_self (by omega), hport]
  exact ⟨hvfwq.trans hfwq, hwait, rfl⟩

/-- A next entry joins the open chain (R332). -/
theorem requestEntry_continues {c : Chain} (hu : u = s.at t) (h : EntryTaken u w t x p e) (hchain : (u.port p).mbx.chain = some c)
    (h6 : u8 e 6 = c.next) (hhdr : chainHdr e = chainHdr c.hdr) (hlast : c.next + 1 ≠ c.count) (h5 : u8 e 5 = 48) (hbeyond : c.beyond = none)
    (hcrc : entryCrcOk e = true) :
    ∃ s', exec (.requestEntry t p e) s = .next s' ∧ s'.fwq = u.fwq ∧ (s'.port p).mbx.wait = (u.port p).mbx.wait ∧
      (s'.port p).mbx.chain = some { c with
        next := c.next + 1, payload := c.payload ++ slice e 16 48, last := x, beyond := beyondLen e c.payload.length } := by
  obtain ⟨hlen, hfwq, hwchain, hwait, -⟩ := h.keeps
  refine ⟨_, h.exec_eq hu, ?_⟩
  rw [if_pos hcrc, joinEntry_continues (hwchain.trans hchain) h6 hhdr hlast h5 hbeyond hcrc, State.modMbx_mbx_self (by omega)]
  exact ⟨hfwq, hwait, rfl⟩

/-- The last entry of a chain hands on the joined payload (R332, R337, R338). -/
theorem requestEntry_endsChain {c : Chain} {k : Cls} (hu : u = s.at t) (h : EntryTaken u w t x p e) (hchain : (u.port p).mbx.chain = some c)
    (h6 : u8 e 6 = c.next) (hhdr : chainHdr e = chainHdr c.hdr) (hlast : c.next + 1 = c.count) (h5 : 1 ≤ u8 e 5) (h5' : u8 e 5 ≤ 48)
    (hbeyond : c.beyond = none) (hb : beyondLen e c.payload.length = none) (hbad : c.crcBad = false) (hcrc : entryCrcOk e = true)
    (hk : opClass (u16 c.hdr 0) = some k) (hi : k ≠ .immediate) (hc : u8 c.hdr 4 = k.code) (htag : u16 c.hdr 2 ≠ 0xFFFF)
    (hshape : shapeBad c.hdr = false) :
    ∃ s', exec (.requestEntry t p e) s = .next s' ∧ (s'.port p).mbx.chain = none ∧
      s'.fwq = u.fwq ++ [⟨.port p, u16 c.hdr 0, BitVec.ofNat 16 (u16 c.hdr 2), k, slice c.hdr 8 4, x, c.count,
        c.payload ++ slice e 16 (u8 e 5), some (requestDue u k x), none, k⟩] := by
  obtain ⟨hlen, hfwq, hwchain, -, -⟩ := h.keeps
  refine ⟨_, h.exec_eq hu, ?_⟩
  rw [if_pos hcrc, joinEntry_ends (hwchain.trans hchain) h6 hhdr hlast h5 h5' hbeyond hb hbad hcrc,
    dispatchRequest_sound hk (fun h => absurd h hi), handOver_fwq hk hc htag hshape]
  have hclosed : ((w.modMbx p (fun m => { m with chain := none })).port p).mbx.chain = none := by rw [State.modMbx_mbx_self (by omega)]
  exact ⟨hclosed, by simp only [requestDue, State.modMbx_fwq, hfwq]⟩

/-- A request of one entry with a bad CRC is answered BAD_ARG with the CRC's offset (R331). -/
theorem requestEntry_badCrc (hu : u = s.at t) (h : EntryTaken u w t x p e) (hchain : (u.port p).mbx.chain = none) (hcrc : entryCrcOk e = false)
    (h7 : u8 e 7 = 1) :
    ∃ s', exec (.requestEntry t p e) s = .next s' ∧ s'.fwq = u.fwq ∧ (s'.port p).mbx.reqFree = (u.port p).mbx.reqFree - 1 ∧
      ∃ r : Rsp, bareRsps (s'.port p).mbx.wait = bareRsps ((u.port p).mbx.wait ++ [r]) ∧ r.opcode = u16 e 0 ∧ r.tag = BitVec.ofNat 16 (u16 e 2) ∧
        r.status = .badArg ∧ r.detail = 0x800C ∧ r.slots = 1 := by
  obtain ⟨hlen, hfwq, hwchain, hwait, hfree⟩ := h.keeps
  refine ⟨_, h.exec_eq hu, ?_⟩
  rw [if_neg (by simp [hcrc]), joinEntry_none (by rw [State.bump_port, hwchain, hchain]), firstEntry_badCrc hcrc h7]
  obtain ⟨hvfwq, hvfree, -, r, hr, hop, htag, hst, hdet, hslots⟩ := answerRaw_waits (s := w.bump aSYS_MBX_ERR 31 24 1) (p := p) (t := x)
    (by simp; omega) e crcBad 1
  rw [State.bump_port] at hvfree hr
  rw [hwait] at hr
  exact ⟨hvfwq.trans hfwq, hvfree.trans hfree, r, hr, hop, htag, hst, hdet, hslots⟩

/-- Settles O39: an entry that takes a slot joins its chain, and each way it may join is a rule of its own. -/
theorem requestsAreHandedOn : Obligations.RequestsAreHandedOn := by
  unfold Obligations.RequestsAreHandedOn
  refine ⟨?_, ?_, ?_, ?_, ?_, ?_, ?_, ?_, ?_⟩
  · intro s u w t x p e hu h
    obtain ⟨-, -, -, -, hfree⟩ := h.keeps
    exact ⟨h.exec_eq hu, hfree⟩
  · intro s u w t x p e k hu h hchain _ hcrc h6 h7 h5 hk hc htag hb
    exact requestEntry_handsOn hu h hchain hcrc h6 h7 h5 hk hc htag hb
  · intro s u w t x p e n hu h hchain h6 hn hn' h7 h5
    exact requestEntry_opens hu h hchain h6 hn hn' h7 h5
  · intro s u w t x p e c hu h hchain h6 hhdr hlast h5 _ hbeyond hcrc
    exact requestEntry_continues hu h hchain h6 hhdr hlast h5 hbeyond hcrc
  · intro s u w t x p e c k hu h hchain h6 hhdr hlast h5 h5' _ hbeyond hb hbad hcrc hk hi hc htag hshape
    exact requestEntry_endsChain hu h hchain h6 hhdr hlast h5 h5' hbeyond hb hbad hcrc hk hi hc htag hshape
  · intro s u w t x p e hu h hchain _ hcrc _ h7 _
    exact requestEntry_badCrc hu h hchain hcrc h7
  · intro s u v t x p e hu hlen hact htake hfree howed hdup hold
    exact requestEntry_repeat hu hlen hact htake hfree howed hdup hold
  · intro s u v t x p e hu hact htake hfree hdue
    exact requestEntry_noSlot hu hact htake hfree hdue
  · intro s u t p c hu hlen hc ht
    exact chainTimeout_answers hu hlen hc ht

end Sys2Proof.Machine
end

section
/-! What reads of frame memory see: the cells and the ranges that the memory holds undefined. Most of what the memory unit does leaves both. -/

namespace Sys2Proof.Machine

variable {s s' u v w : State} {L : List Part} {t : Time} {x : Nat}

/-- All that a byte of frame memory depends on. -/
def storeOf (s : State) : List Host.Cell × List (Nat × Nat × Nat) := (s.fm, s.mem.undef)

theorem fmByte_of_storeOf (h : storeOf s' = storeOf s) (x : Nat) : fmByte s' x = fmByte s x := by
  obtain ⟨hfm, hundef⟩ := Prod.mk.inj h
  simp only [fmByte, hfm, hundef]

theorem Within.pipe (h : Within L s s') (ha : .pipe ∉ L) : s'.pipe = s.pipe := h.1.2 _ ha

theorem Within.storeOf (h : Within L s s') (hfm : .fm ∉ L) (hmem : .mem ∉ L) : storeOf s' = storeOf s := by
  simp only [Machine.storeOf, h.fm hfm, h.mem hmem]

@[simp] theorem storeOf_modMem {f : Mem → Mem} (hf : ∀ m, (f m).undef = m.undef) : storeOf (s.modMem f) = storeOf s := Prod.ext rfl (hf s.mem)

@[simp] theorem wakeRank_undef (m : Mem) (q : Nat) (t : Time) : (wakeRank m q t).undef = m.undef := by
  simp only [wakeRank]
  split <;> rfl

@[simp] theorem storeOf_ite {c : Prop} [Decidable c] {a b : State} : storeOf (if c then a else b) = if c then storeOf a else storeOf b := by
  split <;> rfl

@[simp] theorem memAnswer_storeOf (l : List MemReply) : storeOf (memAnswer s l) = storeOf s := by simp [memAnswer]

@[simp] theorem memReply_storeOf (c i d : Nat) (a : MemAns) : storeOf (memReply s c i d a) = storeOf s := by simp [memReply]

@[simp] theorem settleMode_storeOf (sc : Nat) : storeOf (settleMode s sc) = storeOf s := by simp [settleMode]

@[simp] theorem enterRequest_storeOf (t : Time) (c i d : Nat) (op : MemOp) (moved : Bool) :
    storeOf (enterRequest s t c i d op moved) = storeOf s := by
  simp only [enterRequest]
  split
  · simp
  · split <;> simp

@[simp] theorem memArrive_storeOf (t : Time) (c i d : Nat) (op : MemOp) (moved : Bool) : storeOf (memArrive s t c i d op moved) = storeOf s := by
  simp [memArrive]

@[simp] theorem storeOf_foldl {α : Type} {f : State → α → State} (hf : ∀ v x, storeOf (f v x) = storeOf v) (l : List α) :
    storeOf (l.foldl f s) = storeOf s := by
  induction l generalizing s with
  | nil => rfl
  | cons a l ih => exact ih.trans (hf s a)

/-- A store of bytes leaves every byte outside them. -/
theorem fmByte_memStore_outside {c i a : Nat} {bs : List Byte} (hx : x < a ∨ a + bs.length ≤ x) :
    fmByte (memStore s c i a bs t) x = fmByte s x := by
  unfold memStore
  split
  · rfl
  · rw [fmByte_of_storeOf (storeOf_foldl (fun v u => memArrive_storeOf ..) _), fmByte_fmWrite_outside hx]

/-! Regions taken and given back. -/

@[simp] theorem freeRegion_storeOf (r : Nat × Nat) : storeOf (freeRegion s r) = storeOf s := rfl

/-- Forgetting a range leaves every byte outside it as it reads. -/
theorem fmByte_fmForget_outside {a n : Nat} (hx : x < a ∨ a + n ≤ x) : fmByte (fmForget s a n) x = fmByte s x := by
  have hnew : ¬ (a ≤ x ∧ x < a + n) := by omega
  have hundef : ((fmForget s a n).mem.undef.find? (fun r => decide (r.1 ≤ x ∧ x < r.2.1))).map (fun r => r.2.2) =
      (s.mem.undef.find? (fun r => decide (r.1 ≤ x ∧ x < r.2.1))).map (fun r => r.2.2) := by
    rw [← cutRange_outside (l := s.mem.undef) (a := a) (b := a + n) hx]
    simp [fmForget, List.find?_append, hnew]
  simp only [fmByte, cellGet_fmForget_outside hx]
  cases cellGet s.fm x with
  | some b => rfl
  | none =>
    revert hundef
    cases (fmForget s a n).mem.undef.find? (fun r => decide (r.1 ≤ x ∧ x < r.2.1)) <;>
      cases s.mem.undef.find? (fun r => decide (r.1 ≤ x ∧ x < r.2.1)) <;> intro h
    · rfl
    · cases h
    · cases h
    · simp only [Option.map_some, Option.some.injEq] at h
      simp only [h]

theorem fmByte_takeRegion_outside {b n : Nat} (hx : x < b * mib ∨ b * mib + n * mib ≤ x) : fmByte (takeRegion s b n) x = fmByte s x :=
  (fmByte_of_storeOf (s := fmForget s (b * mib) (n * mib)) rfl x).trans (fmByte_fmForget_outside hx)

/-- An update of the record that keeps frame memory keeps what its reads see. -/
@[simp] theorem storeOf_record {pending clk free regs log leases leaseLog lastArrayHolder arrayLapsed ports sb fwq slow misses diag pw rs otp sec arr
      pipe aux ring hold th pio} :
    storeOf ⟨pending, clk, free, regs, log, leases, leaseLog, lastArrayHolder, arrayLapsed, ports, sb, fwq, slow, misses, diag, pw, rs, otp, sec, arr,
      pipe, aux, s.mem, s.fm, ring, hold, th, pio⟩ = storeOf s := rfl

@[simp] theorem modSeq_storeOf (f : Seq → Seq) : storeOf (s.modSeq f) = storeOf s := rfl
@[simp] theorem modGov_storeOf (f : Gov → Gov) : storeOf (s.modGov f) = storeOf s := rfl
@[simp] theorem bump_storeOf (a hi lo n : Nat) : storeOf (s.bump a hi lo n) = storeOf s := rfl

@[simp] theorem unlatch_storeOf (stamp : Time) : storeOf (unlatch s stamp) = storeOf s := by
  unfold unlatch
  split
  · split
    · simp only [modSeq_storeOf, storeOf_ite, modGov_storeOf, ite_self]
      rfl
    · rfl
  · rfl

@[simp] theorem latchFrame_storeOf (p : Plan) : storeOf (latchFrame s p) = storeOf s := by
  simp only [latchFrame, modSeq_storeOf, modGov_storeOf, storeOf_record, storeOf_ite, bump_storeOf, ite_self]
  exact storeOf_foldl (fun v r => freeRegion_storeOf r) _

@[simp] theorem latchNext_storeOf (t : Time) : storeOf (latchNext s t) = storeOf s := by
  have henter : ∀ v f, storeOf (enterFrame v f t) = storeOf v := fun v f => Within.storeOf (L := Part.but [.fm, .mem]) (by simp) (by simp) (by simp)
  simp only [latchNext]
  split
  · split
    · rw [henter, latchFrame_storeOf]
    · exact latchFrame_storeOf _
  · exact latchFrame_storeOf _

theorem spillMib_of_sec (h : s'.sec = s.sec) (g : Settings) : spillMib s' g = spillMib s g := by simp only [spillMib, enOf, h]

theorem findFree_of_regions (hmem : s'.mem.regions = s.mem.regions) (hring : ringBase s' = ringBase s) (n : Nat) : findFree s' n = findFree s n := by
  have hstarts : freeStarts s' = freeStarts s := by simp only [freeStarts, hmem]
  have hlen : freeLen s' = freeLen s := by
    funext b
    simp only [freeLen, freeEnd, hmem, hring]
  simp only [findFree, hstarts, hlen]

/-- The region of an earlier reservation is given back. -/
def giveBack (s : State) : State := match s.arr.spillPend with | some r => freeRegion s r | none => s

@[simp] theorem giveBack_storeOf : storeOf (giveBack s) = storeOf s := by
  unfold giveBack
  split <;> simp

theorem findFree_giveBack (hsec : v.sec = s.sec) (hmem : v.mem.regions = (giveBack s).mem.regions) (hring : ringBase v = ringBase (giveBack s))
    (g : Settings) : findFree v (spillMib v g) = findFree (giveBack s) (spillMib s g) := by
  rw [spillMib_of_sec hsec, findFree_of_regions hmem hring]

theorem fmByte_either {c : Prop} [Decidable c] {a b : State} {y : Byte} (ha : fmByte a x = y) (hb : fmByte b x = y) :
    fmByte (if c then a else b) x = y := by
  split
  · exact ha
  · exact hb

/-- The region that a commit takes for the spill is all that it changes of frame memory (R109, R188). -/
theorem fmByte_reserveSpill_outside {g : Settings} {b : Nat} (hfree : findFree (giveBack s) (spillMib s g) = some b)
    (hx : x < b * mib ∨ b * mib + spillMib s g * mib ≤ x) : fmByte (reserveSpill s g) x = fmByte s x := by
  have htake : ∀ {v : State} {b' : Nat}, v.sec = s.sec → v.mem.regions = (giveBack s).mem.regions → ringBase v = ringBase (giveBack s) →
      storeOf v = storeOf s → findFree v (spillMib v g) = some b' → fmByte (takeRegion v b' (spillMib v g)) x = fmByte s x := by
    intro v b' hsec hmem hring hstore hb'
    rw [findFree_giveBack hsec hmem hring, hfree] at hb'
    obtain rfl := Option.some.inj hb'
    rw [spillMib_of_sec hsec, fmByte_takeRegion_outside hx, fmByte_of_storeOf hstore]
  unfold reserveSpill
  cases hp : s.arr.spillPend with
  | none =>
    have hback : giveBack s = s := by simp only [giveBack, hp]
    rw [hback] at htake
    refine fmByte_either rfl ?_
    split
    · next b' hb' => exact htake rfl rfl rfl rfl hb'
    · rfl
  | some r =>
    have hback : giveBack s = freeRegion s r := by simp only [giveBack, hp]
    rw [hback] at htake
    refine fmByte_either rfl ?_
    split
    · next b' hb' => exact htake rfl rfl rfl rfl hb'
    · rfl

/-- A command that goes on acts, or leaves frame memory. -/
theorem command_actsOrKeeps {c : Call} {op : Nat} {cls : Cls} {checks : State → List (Option Reject)} {act : State → State} (hu : u = s.at c.start)
    (h : command s c op cls checks act = .next s') : s' = act u ∨ storeOf s' = storeOf u := by
  subst hu
  rcases commandWith_cases h with rfl | ⟨r, rfl⟩ | rfl
  · exact .inl rfl
  · exact .inr (Within.storeOf (L := Part.but [.fm, .mem]) (by simp) (by simp) (by simp))
  · exact .inr rfl

@[simp] theorem okWith_storeOf (c : Call) (op : Nat) (cls : Cls) (pl : List Byte) : storeOf (okWith s c op cls pl) = storeOf s :=
  Within.storeOf (L := Part.but [.fm, .mem]) (by simp) (by simp) (by simp)

/-- COMMIT_SETTINGS changes nothing of frame memory outside the region it takes for the spill (R109, R188). -/
theorem commitSettings_sameBytes {c : Call} {b : Nat} (hu : u = s.at c.start) (hw : w = unlatch u c.stamp) (h : exec (.commitSettings c) s = .next s')
    (hfree : findFree (giveBack w) (spillMib w u.arr.staged) = some b) : SameBytesOutside u s' (b * mib) (spillMib w u.arr.staged * mib) := by
  intro x hx
  rw [show exec (.commitSettings c) s = execCommitSettings c s from rfl, execCommitSettings] at h
  rcases command_actsOrKeeps hu h with hs | hs
  · obtain ⟨r, hr⟩ : ∃ r, r = reserveSpill (unlatch u c.stamp) u.arr.staged := ⟨_, rfl⟩
    have hbytes : fmByte r x = fmByte u x := by
      rw [hr, ← hw, fmByte_reserveSpill_outside hfree hx, hw]
      exact fmByte_of_storeOf (unlatch_storeOf _) x
    rw [← hr] at hs
    have hstore : storeOf s' = storeOf r := by
      rw [hs]
      simp
    rw [fmByte_of_storeOf hstore, hbytes]
  · exact fmByte_of_storeOf hs x

/-! Lines leave the engines. -/

theorem storeAddr_of_views (h : s'.pipe.views = s.pipe.views) (f : VFrame) (y : Nat) : storeAddr s' f y = storeAddr s f y := by
  have hview : s'.view f.view.val = s.view f.view.val := by simp only [State.view, h]
  simp only [storeAddr, hview]

theorem rasterPart_of_views (h : s'.pipe.views = s.pipe.views) (f : VFrame) (n row : Nat) (codes : List Nat) :
    rasterPart s' f n row codes = rasterPart s f n row codes := by
  simp only [rasterPart, storeAddr_of_views h]

@[simp] theorem leBytes_length (n a : Nat) : (leBytes n a).length = n := by
  induction n generalizing a with
  | zero => rfl
  | succ n ih => simp [leBytes, ih]

theorem leBytes_flatMap_length (n : Nat) (l : List Nat) : (l.flatMap (leBytes n)).length = n * l.length := by
  simp [List.length_flatMap, Nat.mul_comm]

@[simp] theorem memStore_pipe (c i a : Nat) (bs : List Byte) (t : Time) : (memStore s c i a bs t).pipe = s.pipe :=
  Within.pipe (L := Part.but [.pipe]) (by simp) (by simp)

/-- A byte that lies in no frame's place for the line stays as a line is delivered (R109, R186). -/
theorem fmByte_deliverLine_outside {n frame row : Nat} {kind : Option Nat} {codes : List Nat} {flags : Nat} {at_ : Time}
    (hx : ∀ f ∈ s.pipe.frames, x < (rasterPart s f n row codes).1 ∨ (rasterPart s f n row codes).1 + 3 * (rasterPart s f n row codes).2.length ≤ x) :
    fmByte (deliverLine s n frame row kind codes flags at_) x = fmByte s x := by
  unfold deliverLine
  extract_lets fs noted
  have hnoted : noted.pipe.views = s.pipe.views ∧ fmByte noted x = fmByte s x := by
    simp only [noted]
    split <;> exact ⟨rfl, rfl⟩
  refine (List.foldlRecOn (motive := fun r : State => r.pipe.views = s.pipe.views ∧ fmByte r x = fmByte s x) _ _ hnoted ?_).2
  intro r ⟨hviews, hr⟩ f hf
  have hmem : f ∈ s.pipe.frames := (List.mem_filter.mp (List.mem_filter.mp hf).1).1
  have hstore : fmByte (memStore r 1 f.view.val (rasterPart s f n row codes).1 ((rasterPart s f n row codes).2.flatMap (leBytes 3)) at_) x =
      fmByte s x := by
    rw [fmByte_memStore_outside (by rw [leBytes_flatMap_length]; exact hx f hmem), hr]
  rw [rasterPart_of_views hviews]
  split
  · dsimp only
    split
    · exact ⟨by rw [memStore_pipe, hviews], hstore⟩
    · exact ⟨by simp [State.modVf, hviews], (fmByte_of_storeOf rfl x).trans hstore⟩
  · exact ⟨hviews, hr⟩

/-- The line at the head of an output queue leaves it as `takeLine` says. -/
theorem mosaicLineTransfer_takes {tile : TileIx} {ok : Bool} {l : Line} {rest : List Line} (hu : u = s.at t)
    (hq : (u.eng tile.val).outq = l :: rest) :
    exec (.mosaicLineTransfer t tile ok) s = .next (takeLine u tile.val ok t) := by
  rw [show exec (.mosaicLineTransfer t tile ok) s = execMosaicLineTransfer t tile ok s from rfl, execMosaicLineTransfer]
  exact event_due_at hu (by simp [hq])

section
variable {n : Nat} {ok : Bool} {l : Line} {rest : List Line} {q : Nat}

/-- A radiance line whose CRC holds goes to its consumers. -/
theorem takeLine_radiance (hq : (u.eng n).outq = l :: rest) (hv : v = u.modEng n (fun e => { e with outq := rest })) (hk : l.kind = .radiance) :
    takeLine u n true t = deliverLine v n l.frame l.row none l.codes (b2n l.damaged) t := by
  simp [takeLine, hq, hv, hk]

/-- A radiance line that fails its CRC is counted, and goes to its consumers as a lost one (R111). -/
theorem takeLine_badCrc (hq : (u.eng n).outq = l :: rest) (hv : v = u.modEng n (fun e => { e with outq := rest })) (hk : l.kind = .radiance) :
    takeLine u n false t = deliverLine (raise (v.bump aDIAG_LINE_CRC 31 0 1) fLINE_CRC n t) n l.frame l.row none [] 1 t := by
  simp [takeLine, hq, hv, hk]

theorem takeLine_samples (hq : (u.eng n).outq = l :: rest) (hv : v = u.modEng n (fun e => { e with outq := rest })) (hk : l.kind = .samples q) :
    takeLine u n ok t = deliverLine v n l.frame l.row (some q) l.codes (b2n l.damaged) t := by
  simp [takeLine, hq, hv, hk]

/-- A spilled line goes to its frame's spill region while frame memory is up (R109). -/
theorem takeLine_spill {f : Frame} (hq : (u.eng n).outq = l :: rest) (hv : v = u.modEng n (fun e => { e with outq := rest })) (hk : l.kind = .spill q)
    (hf : frameOf v l.frame = some f) (hup : memUp v = true) : takeLine u n ok t =
      memStore (v.bumpWrap aTENG_SPILL_ROWS 31 0 1) 0 n (spillAddr f n q l.row) (packGroups 2 12 l.codes.length l.codes) t := by
  subst hv
  simp [takeLine, hq, hk, hf, hup]

/-- A spilled line is dropped where its frame or frame memory is gone. -/
theorem takeLine_spillDropped (hq : (u.eng n).outq = l :: rest) (hv : v = u.modEng n (fun e => { e with outq := rest })) (hk : l.kind = .spill q)
    (hgone : memUp v = false ∨ frameOf v l.frame = none) : takeLine u n ok t = v := by
  subst hv
  rcases hgone with hup | hf
  · simp only [takeLine, hq, hk]
    split
    · simp [hup]
    · rfl
  · simp [takeLine, hq, hk, hf]

/-- What takes the line changes of the array no more than the queue it leaves. -/
theorem takeLine_arr (hq : (u.eng n).outq = l :: rest) : (takeLine u n ok t).arr = (u.modEng n (fun e => { e with outq := rest })).arr := by
  have hdeliver : ∀ (w : State) (row : Nat) (kind : Option Nat) (codes : List Nat) (flags : Nat),
      (deliverLine w n l.frame row kind codes flags t).arr = w.arr := fun w row kind codes flags =>
    Within.arr (L := Part.but [.arr]) (by simp) (by simp)
  cases hk : l.kind with
  | radiance =>
    cases ok with
    | true => rw [takeLine_radiance hq rfl hk, hdeliver]
    | false =>
      rw [takeLine_badCrc hq rfl hk, hdeliver]
      exact Within.arr (L := Part.but [.arr]) (by simp) (by simp)
  | samples q => rw [takeLine_samples hq rfl hk, hdeliver]
  | spill q =>
    by_cases hgone : memUp (u.modEng n (fun e => { e with outq := rest })) = false ∨
        frameOf (u.modEng n (fun e => { e with outq := rest })) l.frame = none
    · rw [takeLine_spillDropped hq rfl hk hgone]
    · obtain ⟨hup, hf⟩ := not_or.mp hgone
      obtain ⟨f, hf⟩ := Option.ne_none_iff_exists'.mp hf
      rw [takeLine_spill hq rfl hk hf (by simpa using hup)]
      exact Within.arr (L := Part.but [.arr]) (by simp) (by simp)

end

/-- A transfer to RASTER views changes no byte outside the line's place in each of their stores (R109, R186). -/
theorem mosaicLineTransfer_sameBytes {tile : TileIx} {ok : Bool} {l : Line} {rest : List Line} (hu : u = s.at t)
    (hq : (u.eng tile.val).outq = l :: rest) (hk : ∀ q : Nat, l.kind ≠ .spill q) (h : exec (.mosaicLineTransfer t tile ok) s = .next s')
    (hx : ∀ f ∈ u.pipe.frames, ∀ codes : List Nat, (codes = l.codes ∨ codes = []) → x < (rasterPart u f tile.val l.row codes).1 ∨
      (rasterPart u f tile.val l.row codes).1 + 3 * (rasterPart u f tile.val l.row codes).2.length ≤ x) : fmByte s' x = fmByte u x := by
  rw [mosaicLineTransfer_takes hu hq] at h
  cases h
  have hdeliver : ∀ (w : State) (kind : Option Nat) (codes : List Nat) (flags : Nat), w.pipe = u.pipe → storeOf w = storeOf u →
      (codes = l.codes ∨ codes = []) → fmByte (deliverLine w tile.val l.frame l.row kind codes flags t) x = fmByte u x := by
    intro w kind codes flags hpipe hstore hcodes
    rw [fmByte_deliverLine_outside, fmByte_of_storeOf hstore]
    intro f hf
    rw [rasterPart_of_views (congrArg Pipe.views hpipe)]
    exact hx f (hpipe ▸ hf) codes hcodes
  cases hkind : l.kind with
  | radiance =>
    cases ok with
    | true =>
      rw [takeLine_radiance hq rfl hkind]
      exact hdeliver _ _ _ _ rfl rfl (.inl rfl)
    | false =>
      rw [takeLine_badCrc hq rfl hkind]
      exact hdeliver _ _ _ _ (Within.pipe (L := Part.but [.pipe]) (by simp) (by simp))
        (Within.storeOf (L := Part.but [.fm, .mem]) (by simp) (by simp) (by simp)) (.inr rfl)
  | samples q =>
    rw [takeLine_samples hq rfl hkind]
    exact hdeliver _ _ _ _ rfl rfl (.inl rfl)
  | spill q => exact absurd hkind (hk q)

/-- A transfer of a spilled line changes no byte outside its place in the spill region (R109). -/
theorem spillTransfer_sameBytes {tile : TileIx} {ok : Bool} {l : Line} {rest : List Line} {q : Nat} {f : Frame} (hu : u = s.at t)
    (hq : (u.eng tile.val).outq = l :: rest) (hk : l.kind = .spill q) (hf : frameOf u l.frame = some f)
    (h : exec (.mosaicLineTransfer t tile ok) s = .next s') :
    SameBytesOutside u s' (spillAddr f tile.val q l.row) (packGroups 2 12 l.codes.length l.codes).length := by
  intro x hx
  rw [mosaicLineTransfer_takes hu hq] at h
  cases h
  cases hup : memUp (u.modEng tile.val (fun e => { e with outq := rest })) with
  | true =>
    rw [takeLine_spill hq rfl hk hf hup, fmByte_memStore_outside hx]
    exact fmByte_of_storeOf rfl x
  | false =>
    rw [takeLine_spillDropped hq rfl hk (.inl hup)]
    exact fmByte_of_storeOf rfl x

section
variable {tile : TileIx} {kind : Fin 8} {row : Nat} {f : Frame}

/-- A spilled row that frame memory returns joins the engine's fetched rows (R11). -/
theorem spillFetchComplete_joins (hu : u = s.at t) (hlen : u.arr.eng.length = 192) (hrun : u.mem.st = .run)
    (hf : fetchFrame u tile.val kind.val row = some f) (hp : memPending u.mem 0 tile.val (spillAddr f tile.val kind.val row) 768 = false) :
    ∃ s', exec (.spillFetchComplete t tile kind row true) s = .next s' ∧ Keeps [.arr, .regs] u s' ∧
      (s'.eng tile.val).fetched = (u.eng tile.val).fetched ++
        [⟨f.num, row, kind.val, unpack12 (fmRead u (spillAddr f tile.val kind.val row) 768)⟩] := by
  rw [show exec (.spillFetchComplete t tile kind row true) s = execSpillFetchComplete t tile kind row true s from rfl, execSpillFetchComplete]
  refine ⟨_, event_due_at hu (by simp [hrun, hf, hp]), ?_⟩
  simp only [hf, if_true]
  have hkeeps : ∀ v : State, Within [.arr, .regs] u v → ∀ n, Within [.arr, .regs] u (v.setFld (aTENG_TPEAK tile.val) 7 0 n) :=
    fun v hv n => by simp [hv]
  refine ⟨(hkeeps _ (by simp) _).1, ?_⟩
  have hn : tile.val < u.arr.eng.length := by omega
  simp only [State.eng, State.setFld_arr, State.modEng_arr]
  rw [modAt_getD_self _ _ _ _ (by simpa using hn), modAt_getD_self _ _ _ _ hn]
  rfl

/-- A spilled row that frame memory answers with a fault is lost (R497). -/
theorem spillFetchComplete_loses (hu : u = s.at t) (hrun : u.mem.st = .run)
    (hf : fetchFrame u tile.val kind.val row = some f) (hp : memPending u.mem 0 tile.val (spillAddr f tile.val kind.val row) 768 = false) :
    exec (.spillFetchComplete t tile kind row false) s =
      .next ((u.modEng tile.val (fun e => { e with asked := e.asked.filter (fun x => decide (x ≠ (f.num, row, kind.val))) })).modEng tile.val
        (fun e => { e with lostRows := e.lostRows ++ [(f.num, row, kind.val)] })) := by
  rw [show exec (.spillFetchComplete t tile kind row false) s = execSpillFetchComplete t tile kind row false s from rfl, execSpillFetchComplete,
    event_due_at hu (by simp [hrun, hf, hp])]
  simp only [hf, Bool.false_eq_true, if_false]

end

/-! Registers that an operation leaves. -/

/-- The addresses of a register store rise. -/
def Rising (l : List (Nat × Nat)) : Prop := l.Pairwise (fun x y => x.1 < y.1)

theorem rising_of_storeWf {l : List (Nat × Nat)} (h : storeWf l = true) : Rising l := by
  induction l with
  | nil => exact .nil
  | cons a l ih =>
    cases l with
    | nil => exact List.pairwise_singleton ..
    | cons b l =>
      simp only [storeWf, Bool.and_eq_true, decide_eq_true_eq] at h
      obtain ⟨⟨hab, -⟩, hl⟩ := h
      have hrise := ih hl
      refine List.Pairwise.cons (fun c hc => ?_) hrise
      rcases List.mem_cons.mp hc with rfl | hc
      · exact hab
      · exact hab.trans ((List.pairwise_cons.mp hrise).1 c hc)

theorem mem_storePut {l : List (Nat × Nat)} {a v d : Nat} {c : Nat × Nat} (h : c ∈ storePut l a v d) : c.1 = a ∨ c ∈ l := by
  induction l with
  | nil =>
    simp only [storePut] at h
    split at h
    · cases h
    · exact .inl (by rw [List.mem_singleton.mp h])
  | cons x l ih =>
    obtain ⟨k, w⟩ := x
    simp only [storePut] at h
    split at h
    · split at h
      · exact .inr (.tail _ h)
      · rcases List.mem_cons.mp h with rfl | h
        · exact .inl rfl
        · exact .inr (.tail _ h)
    · split at h
      · split at h
        · exact .inr h
        · rcases List.mem_cons.mp h with rfl | h
          · exact .inl rfl
          · exact .inr h
      · rcases List.mem_cons.mp h with rfl | h
        · exact .inr (.head _)
        · exact (ih h).imp_right (.tail _)

theorem rising_storePut {l : List (Nat × Nat)} (h : Rising l) (a v d : Nat) : Rising (storePut l a v d) := by
  induction l with
  | nil =>
    simp only [storePut]
    split
    · exact .nil
    · exact List.pairwise_singleton ..
  | cons x l ih =>
    obtain ⟨k, w⟩ := x
    obtain ⟨hk, hl⟩ := List.pairwise_cons.mp h
    simp only [storePut]
    split
    · next hka =>
      split
      · exact hl
      · exact List.Pairwise.cons (fun c hc => hka ▸ hk c hc) hl
    · next hka =>
      split
      · next hak =>
        split
        · exact h
        · refine List.Pairwise.cons (fun c hc => ?_) h
          rcases List.mem_cons.mp hc with rfl | hc
          · exact hak
          · exact hak.trans (hk c hc)
      · next hak =>
        refine List.Pairwise.cons (fun c hc => ?_) (ih hl)
        rcases mem_storePut hc with hc | hc
        · show k < c.1
          omega
        · exact hk c hc

/-- Register `a` reads as before, and the store keeps its form. -/
def RegKept (a : Nat) (s s' : State) : Prop := Rising s.regs → Rising s'.regs ∧ s'.reg a = s.reg a

section
variable {a b : Nat}

theorem RegKept.refl : RegKept a s s := fun h => ⟨h, rfl⟩

theorem RegKept.trans (h : RegKept a s u) (h' : RegKept a u s') : RegKept a s s' := by
  intro hs
  obtain ⟨hu, ha⟩ := h hs
  obtain ⟨hs', ha'⟩ := h' hu
  exact ⟨hs', ha'.trans ha⟩

theorem RegKept.of_regs (h : s'.regs = s.regs) : RegKept a s s' := fun hs => ⟨h ▸ hs, by simp only [State.reg, h]⟩

theorem RegKept.setReg (hab : a ≠ b) (v : Nat) : RegKept a s (s.setReg b v) := fun hs =>
  ⟨rising_storePut hs _ _ _, by simp only [State.reg, State.setReg_regs, storeGet_storePut_other _ _ _ _ _ hs hab]⟩

theorem RegKept.bump (hab : a ≠ b) (hi lo n : Nat) : RegKept a s (s.bump b hi lo n) := .setReg hab _

theorem RegKept.foldl {α : Type} {f : State → α → State} (hf : ∀ v x, RegKept a v (f v x)) (l : List α) : RegKept a s (l.foldl f s) := by
  induction l generalizing s with
  | nil => exact .refl
  | cons x l ih => exact (hf s x).trans ih

theorem RegKept.notifyAll (ha : a ≠ aSYS_MBX_ERR) (code : Nat) (payload : List Byte) (t : Time) : RegKept a s (notifyAll s code payload t) := by
  refine .foldl (fun v p => ?_) _
  simp only [notify, notifyDue]
  split
  · exact .bump ha 7 0 1
  · exact .of_regs rfl

theorem RegKept.notifyFault (ha : a ≠ aSYS_MBX_ERR) (e : FaultEntry) (event : Nat) (t : Time) : RegKept a s (notifyFault s e event t) := by
  unfold Machine.notifyFault
  split
  · exact .refl
  · exact .notifyAll ha _ _ _

/-- An occurrence of a fault counts nothing but the notifications it cannot place. -/
theorem RegKept.raise (ha : a ≠ aSYS_MBX_ERR) (code inst : Nat) (t : Time) : RegKept a s (raise s code inst t) := by
  have hlog : ∀ (log : FaultLog) (e : FaultEntry) (event : Nat), RegKept a s (Machine.notifyFault { s with log := log } e event t) :=
    fun log e event => (RegKept.of_regs (s' := { s with log := log }) rfl).trans (.notifyFault ha e event t)
  simp only [Machine.raise, occurCls]
  split
  · simp only [logNew]
    split
    · exact hlog _ _ _
    · split <;> exact hlog _ _ _
  · split
    · exact hlog _ _ _
    · exact .of_regs rfl

end

/-! Aux lines. -/

theorem modAt_getD_proj {α β : Type} {f : α → α} {g : α → β} (hf : ∀ a, g (f a) = g a) (l : List α) (i j : Nat) (d : α) :
    g ((modAt l i f).getD j d) = g (l.getD j d) := by
  by_cases hij : i = j
  · subst hij
    by_cases hi : i < l.length
    · rw [modAt_getD_self _ _ _ _ hi, hf]
    · rw [List.getD_eq_default _ _ (by simpa using hi), List.getD_eq_default _ _ (by simpa using hi)]
  · rw [modAt_getD_other _ _ _ _ _ hij]

/-- All that the place of a stream's line in its store depends on is as before, and so is what reads of frame memory see. -/
structure AuxStill (n v : Nat) (s s' : State) : Prop where
  geom : RegKept (aAUX_VC_GEOM n v) s s'
  cfg : RegKept (aAUX_VC_CFG n v) s s'
  region : (s'.auxIn n).region = (s.auxIn n).region
  store : (s'.auxVc n v).store = (s.auxVc n v).store
  bytes : storeOf s' = storeOf s

section
variable {n v : Nat}

theorem AuxStill.refl : AuxStill n v s s := ⟨.refl, .refl, rfl, rfl, rfl⟩

theorem AuxStill.trans (h : AuxStill n v s u) (h' : AuxStill n v u s') : AuxStill n v s s' :=
  ⟨h.geom.trans h'.geom, h.cfg.trans h'.cfg, h'.region.trans h.region, h'.store.trans h.store, h'.bytes.trans h.bytes⟩

theorem AuxStill.ite {c : Prop} [Decidable c] {a b : State} (ha : AuxStill n v s a) (hb : AuxStill n v s b) :
    AuxStill n v s (if c then a else b) := by
  split
  · exact ha
  · exact hb

/-- An operation that leaves the registers, the aux inputs and frame memory. -/
theorem AuxStill.of_within (h : Within L s s') (hregs : .regs ∉ L) (haux : .aux ∉ L) (hfm : .fm ∉ L) (hmem : .mem ∉ L) : AuxStill n v s s' := by
  have hr : s'.regs = s.regs := h.1.2 _ hregs
  have ha : s'.aux = s.aux := h.1.2 _ haux
  exact ⟨.of_regs hr, .of_regs hr, by simp only [State.auxIn, ha], by simp only [State.auxVc, State.auxIn, ha],
    h.storeOf hfm hmem⟩

/-- A counter that is none of the stream's own registers counts. -/
theorem AuxStill.bump {b : Nat} (hgeom : aAUX_VC_GEOM n v ≠ b) (hcfg : aAUX_VC_CFG n v ≠ b) (hi lo k : Nat) : AuxStill n v s (s.bump b hi lo k) :=
  ⟨.bump hgeom hi lo k, .bump hcfg hi lo k, rfl, rfl, rfl⟩

theorem AuxStill.bump_err (hi lo k : Nat) : AuxStill n v s (s.bump (aAUX_ERR n) hi lo k) :=
  .bump (by simp only [aAUX_VC_GEOM, aAUX_ERR]; omega) (by simp only [aAUX_VC_CFG, aAUX_ERR]; omega) hi lo k

theorem AuxStill.bump_lbuf (hi lo k : Nat) : AuxStill n v s (s.bump (aAUX_LBUF n) hi lo k) :=
  .bump (by simp only [aAUX_VC_GEOM, aAUX_LBUF]; omega) (by simp only [aAUX_VC_CFG, aAUX_LBUF]; omega) hi lo k

theorem AuxStill.bump_lcnt (hi lo k : Nat) : AuxStill n v s (s.bump (aAUX_VC_LCNT n v) hi lo k) :=
  .bump (by simp only [aAUX_VC_GEOM, aAUX_VC_LCNT]; omega) (by simp only [aAUX_VC_CFG, aAUX_VC_LCNT]; omega) hi lo k

theorem AuxStill.raise (code inst : Nat) (t : Time) : AuxStill n v s (raise s code inst t) := by
  have hw : Within (Part.but [.aux, .fm, .mem]) s (Machine.raise s code inst t) := by simp
  have ha : (Machine.raise s code inst t).aux = s.aux := hw.1.2 .aux (by simp)
  exact ⟨.raise (by simp only [aAUX_VC_GEOM, aSYS_MBX_ERR]; omega) _ _ _, .raise (by simp only [aAUX_VC_CFG, aSYS_MBX_ERR]; omega) _ _ _,
    by simp only [State.auxIn, ha], by simp only [State.auxVc, State.auxIn, ha],
    hw.storeOf (by simp) (by simp)⟩

theorem modVc_auxIn {β : Type} {g : AuxIn → β} {f : AuxVc → AuxVc} (hg : ∀ a, g { a with vcs := modAt a.vcs v f } = g a) :
    g ((s.modVc n v f).auxIn n) = g (s.auxIn n) := modAt_getD_proj hg _ _ _ _

theorem modVc_auxVc {β : Type} {g : AuxVc → β} {f : AuxVc → AuxVc} (hg : ∀ c, g (f c) = g c) : g ((s.modVc n v f).auxVc n v) = g (s.auxVc n v) :=
  modVc_auxIn (g := fun a => g (a.vcs.getD v AuxVc.reset)) fun _ => modAt_getD_proj hg _ _ _ _

/-- A note on the stream's frame. -/
theorem AuxStill.modVc {f : AuxVc → AuxVc} (hstore : ∀ c, (f c).store = c.store) : AuxStill n v s (s.modVc n v f) :=
  ⟨.of_regs rfl, .of_regs rfl, modVc_auxIn fun _ => rfl, modVc_auxVc hstore, rfl⟩

/-- The check of a packet's header counts its faults alone. -/
theorem AuxStill.auxPacket (hdr : Nat) : AuxStill n v s (auxPacket s n v hdr).1 := by
  simp only [Machine.auxPacket]
  split
  · split
    · exact (AuxStill.bump_err _ _ _).trans (.ite (.modVc fun _ => rfl) .refl)
    · have hcounted : AuxStill n v s (if hdr = 1 then s.bump (aAUX_ERR n) 7 0 1 else s) := .ite (.bump_err _ _ _) .refl
      split
      · exact hcounted.trans (.bump_err _ _ _)
      · exact hcounted
  · exact .bump_err _ _ _
  · exact .refl

theorem auxPacket_lines (hdr : Nat) : ((auxPacket s n v hdr).1.auxVc n v).lines = (s.auxVc n v).lines := by
  simp only [auxPacket]
  split
  · split
    · split
      · exact modVc_auxVc fun _ => rfl
      · rfl
    · split <;> split <;> rfl
  · rfl
  · rfl

theorem AuxStill.rising (h : AuxStill n v s s') (hs : Rising s.regs) : Rising s'.regs := (h.geom hs).1

theorem AuxStill.width (h : AuxStill n v s s') (hs : Rising s.regs) : auxW s' n v = auxW s n v := by
  simp only [auxW, State.fld, (h.geom hs).2]

theorem AuxStill.height (h : AuxStill n v s s') (hs : Rising s.regs) : auxH s' n v = auxH s n v := by
  simp only [auxH, State.fld, (h.geom hs).2]

theorem AuxStill.dataType (h : AuxStill n v s s') (hs : Rising s.regs) : auxDt s' n v = auxDt s n v := by
  simp only [auxDt, State.fld, (h.cfg hs).2]

theorem AuxStill.addr (h : AuxStill n v s s') (hs : Rising s.regs) (store row : Nat) :
    auxStoreAddr s' n v store row = auxStoreAddr s n v store row := by
  have hregion : (s'.aux.getD n AuxIn.reset).region = (s.aux.getD n AuxIn.reset).region := h.region
  simp only [auxStoreAddr, hregion, h.width hs, h.height hs, h.dataType hs]

/-- The bytes of a line take its place in the store at most (R172). -/
theorem auxToBytes_length (dt : Nat) (l : List Nat) : (auxToBytes dt l).length = l.length * (dtHeld dt / dtParts dt) := by
  rw [auxToBytes, leBytes_flatMap_length, Nat.mul_comm]

/-- A stored line changes no byte outside its place in the stream's store (R172). -/
theorem fmByte_auxDeliver_outside {row : Nat} {got : List Nat} {flags : Nat} {full : Bool} (hgot : got.length ≤ auxW s n v * dtParts (auxDt s n v))
    (hx : x < auxStoreAddr s n v (s.auxVc n v).store row ∨ auxStoreAddr s n v (s.auxVc n v).store row + auxW s n v * dtHeld (auxDt s n v) ≤ x) :
    fmByte (auxDeliver s n v row got flags full t) x = fmByte s x := by
  unfold auxDeliver
  extract_lets c dt fs noted codes
  have hnoted : noted.regs = s.regs ∧ noted.aux = s.aux ∧ storeOf noted = storeOf s := by
    simp only [noted]
    split <;> exact ⟨rfl, rfl, rfl⟩
  obtain ⟨hregs, haux, hstore⟩ := hnoted
  have hwidth : auxW noted n v = auxW s n v := by simp only [auxW, State.fld, State.reg, hregs]
  have haddr : auxStoreAddr noted n v c.store row = auxStoreAddr s n v c.store row := by
    simp only [auxStoreAddr, hwidth, auxH, auxDt, State.fld, State.reg, hregs, haux]
  have hlen : (auxToBytes dt codes).length ≤ auxW s n v * dtHeld (auxDt s n v) := by
    have hcodes : codes.length = auxW s n v * dtParts dt := by
      simp only [codes, hwidth, List.length_append, List.length_replicate]
      exact Nat.add_sub_cancel' hgot
    rw [auxToBytes_length, hcodes, Nat.mul_assoc]
    exact Nat.mul_le_mul_left _ (Nat.mul_div_le _ _)
  have hbytes : fmByte (memStore noted 1 (16 + n) (auxStoreAddr noted n v c.store row) (auxToBytes dt codes) t) x = fmByte s x := by
    rw [haddr, fmByte_memStore_outside (hx.imp_right fun h => le_trans (Nat.add_le_add_left hlen _) h), fmByte_of_storeOf hstore]
  split
  · split
    · exact hbytes
    · refine (fmByte_of_storeOf (storeOf_foldl ?_ _) x).trans hbytes
      exact fun _ _ => rfl
  · exact fmByte_of_storeOf hstore x

theorem AuxStill.unpackLine (dt : Nat) (b : List Byte) : AuxStill n v s (Machine.unpackLine s dt b).2 :=
  .of_within (L := [.free]) (by simp) (by simp) (by simp) (by simp) (by simp)

theorem AuxStill.counted {c : Prop} [Decidable c] {hi lo k : Nat} (w : State) (h : AuxStill n v s w) :
    AuxStill n v s (if c then w.bump (aAUX_VC_LCNT n v) hi lo k else w) := .ite (h.trans (.bump_lcnt _ _ _)) h

theorem AuxStill.noted {c : Prop} [Decidable c] {k : Nat} (w : State) (h : AuxStill n v s w) :
    AuxStill n v s (if c then w.modVc n v (fun c => { c with fflags := Nat.lor c.fflags k }) else w) := .ite (h.trans (.modVc fun _ => rfl)) h

theorem AuxStill.raised {c : Prop} [Decidable c] (w : State) (h : AuxStill n v s w) :
    AuxStill n v s (if c then Machine.raise (w.bump (aAUX_LBUF n) 15 0 1) fAUX_OVERRUN n t else w) :=
  .ite (h.trans ((AuxStill.bump_lbuf _ _ _).trans (.raise _ _ _))) h

/-- A line of an aux stream changes no byte outside its row of the stream's store (R172). -/
theorem fmByte_auxLine_outside {payload : List Byte} {crcOk : Bool} (hs : Rising s.regs)
    (hx : x < auxStoreAddr s n v (s.auxVc n v).store (s.auxVc n v).lines ∨
      auxStoreAddr s n v (s.auxVc n v).store (s.auxVc n v).lines + auxW s n v * dtHeld (auxDt s n v) ≤ x) :
    fmByte (auxLine s n v payload crcOk t) x = fmByte s x := by
  have hdeliver : ∀ {w : State} {l : List Nat} {flags : Nat} {full : Bool}, AuxStill n v s w →
      l.length ≤ auxW s n v * dtParts (auxDt s n v) → fmByte (auxDeliver w n v (s.auxVc n v).lines l flags full t) x = fmByte s x := by
    intro w l flags full hw hl
    rw [← hw.width hs, ← hw.dataType hs] at hl
    rw [← hw.width hs, ← hw.dataType hs, ← hw.addr hs, ← hw.store] at hx
    rw [fmByte_auxDeliver_outside hl hx, fmByte_of_storeOf hw.bytes]
  have hrow : AuxStill n v s (s.modVc n v (fun c => { c with lines := c.lines + 1 })) := .modVc fun _ => rfl
  have hstat : ∀ (w : State) (f : AuxIn → AuxIn), fmByte (w.modAux n f) x = fmByte w x := fun _ _ => fmByte_of_storeOf rfl x
  simp only [auxLine]
  split
  · exact fmByte_of_storeOf rfl x
  · rw [hstat]
    refine hdeliver ?_ ?_
    · exact .raised _ (.noted _ (.counted _ (.counted _ (hrow.trans (.unpackLine _ _)))))
    · exact List.length_take_le _ _

end

/-- An aux packet changes no byte outside its row of its stream's store (R172). -/
theorem auxLongPacket_sameBytes {n : AuxIx} {vc : Nat} {hdr : BitVec 32} {di : Byte} {wc : BitVec 16} {ecc : Byte} {payload : List Byte}
    {crc : BitVec 16} (hu : u = s.at t) (hhdr : hdr = ecc ++ wc ++ di) (hvc : vc = csiVc hdr) (hwf : storeWf u.regs = true)
    (h : exec (.auxLongPacket t n di wc ecc payload crc) s = .next s') :
    SameBytesOutside u s' (auxStoreAddr u n.val vc (u.auxVc n.val vc).store (u.auxVc n.val vc).lines)
      (auxW u n.val vc * dtHeld (auxDt u n.val vc)) := by
  intro x hx
  subst hu hhdr hvc
  have hs : Rising (s.at t).regs := rising_of_storeWf hwf
  rw [show exec (.auxLongPacket t n di wc ecc payload crc) s = execAuxLongPacket t n di wc ecc payload crc s from rfl, execAuxLongPacket] at h
  rcases event_cases h with ⟨-, he⟩ | ⟨-, he⟩
  · dsimp only at he
    generalize csiVc (ecc ++ wc ++ di) = v at he hx ⊢
    have hpacket := AuxStill.auxPacket (s := s.at t) (n := n.val) (v := v) (csiOk (ecc ++ wc ++ di))
    have hlines := auxPacket_lines (s := s.at t) (n := n.val) (v := v) (csiOk (ecc ++ wc ++ di))
    generalize auxPacket (s.at t) n.val v (csiOk (ecc ++ wc ++ di)) = r at he hpacket hlines
    have hcounted : ∀ {c : Prop} [Decidable c], AuxStill n.val v (s.at t) (if c then r.1.bump (aAUX_ERR n.val) 23 16 1 else r.1) := fun {c} _ =>
      hpacket.trans (.ite (.bump_err _ _ _) .refl)
    have hcountedLines : ∀ {c : Prop} [Decidable c], ((if c then r.1.bump (aAUX_ERR n.val) 23 16 1 else r.1).auxVc n.val v).lines =
        ((s.at t).auxVc n.val v).lines := by
      intro c _
      split <;> exact hlines
    rw [he]
    refine fmByte_either (fmByte_of_storeOf hcounted.bytes x) (fmByte_either (fmByte_of_storeOf hcounted.bytes x)
      (fmByte_either ?_ (fmByte_of_storeOf hcounted.bytes x)))
    rw [fmByte_auxLine_outside (hcounted.rising hs), fmByte_of_storeOf hcounted.bytes]
    rw [hcounted.addr hs, hcounted.store, hcountedLines, hcounted.width hs, hcounted.dataType hs]
    exact hx
  · rw [he]

/-- Settles O19: what `takeLine` does with each kind of line, what a fetch does, and the bytes that each store leaves. -/
theorem linesLeaveTheEngines : Obligations.LinesLeaveTheEngines := by
  unfold Obligations.LinesLeaveTheEngines
  refine ⟨?_, ?_, ?_, ?_, ?_, ?_⟩
  · intro s u v t tile ok l rest hu hq hv
    refine ⟨_, mosaicLineTransfer_takes hu hq, fun hlen => ?_, fun q f hk hf hup => takeLine_spill hq hv hk hf hup,
      fun q hk hgone => takeLine_spillDropped hq hv hk hgone, ?_, ?_, fun q hk => takeLine_samples hq hv hk⟩
    · rw [State.eng, takeLine_arr hq, State.modEng_arr, modAt_getD_self _ _ _ _ (by omega)]
    · rintro hk rfl
      exact takeLine_radiance hq hv hk
    · rintro hk rfl
      exact takeLine_badCrc hq hv hk
  · intro s u t tile kind row f hu hlen hrun hf hp
    exact ⟨spillFetchComplete_joins hu hlen hrun hf hp, spillFetchComplete_loses hu hrun hf hp⟩
  · intro s u s' t tile ok l rest x hu _ hq hk h hx
    exact mosaicLineTransfer_sameBytes hu hq hk h hx
  · intro s u s' t tile ok l rest q f hu _ hq hk hf h
    exact spillTransfer_sameBytes hu hq hk hf h
  · intro s u s' t n vc hdr di wc ecc payload crc hu _ hhdr hvc _ hwf h
    exact auxLongPacket_sameBytes hu hhdr hvc hwf h
  · intro s u w s' c b hu hw h hfree
    exact commitSettings_sameBytes hu hw h hfree

end Sys2Proof.Machine
end

section
/-! The sequencer: what a latch, a frame start and a slot do to the frame being read and to the set in force. -/

namespace Sys2Proof.Machine

variable {s u : State} {t : Time} {f : Frame}

/-! What the sequencer's own operations leave alone. -/

@[simp] theorem openArrayFrame_arr (f : Frame) (t : Time) : (openArrayFrame s f t).arr = s.arr :=
  Within.arr (L := Part.but [.arr]) (by simp) (by simp)
@[simp] theorem timerFrameStart_arr (t : Time) : (timerFrameStart s t).arr = s.arr := Within.arr (L := Part.but [.arr]) (by simp) (by simp)
@[simp] theorem truncateSource_arr (src vc frame extra : Nat) (t : Time) : (truncateSource s src vc frame extra t).arr = s.arr :=
  Within.arr (L := Part.but [.arr]) (by simp) (by simp)
@[simp] theorem raise_arr (code inst : Nat) (t : Time) : (raise s code inst t).arr = s.arr :=
  Within.arr (L := Part.but [.arr]) (by simp) (by simp)

/-- What each step of a fold keeps, the fold keeps. -/
theorem foldl_keeps {α β : Type} {g : State → β} {f : State → α → State} (hf : ∀ v x, g (f v x) = g v) (l : List α) :
    g (l.foldl f s) = g s := by
  induction l generalizing s with
  | nil => rfl
  | cons a l ih => exact ih.trans (hf s a)

/-! ## Latch and start (R52, R74 to R76) -/

/-- The frame that a latch makes takes the next number and the plan's set and instants. -/
theorem latchFrame_latched (p : Plan) :
    ∃ f, (latchFrame s p).seq.latched = some f ∧ f.num = s.seq.nextNum ∧ f.set = p.set ∧ f.fs = p.fs ∧ f.elp = p.elp :=
  ⟨_, rfl, rfl, rfl, rfl, rfl⟩

@[simp] theorem latchFrame_active (p : Plan) : (latchFrame s p).arr.active = p.set := rfl
@[simp] theorem latchFrame_tg (p : Plan) : (latchFrame s p).seq.tg = none := rfl
@[simp] theorem latchFrame_actId (p : Plan) : (latchFrame s p).seq.actId = p.id := rfl

/-- A latch leaves the staged set and the frame being read, and counts on by one. -/
theorem latchFrame_keeps (p : Plan) : (latchFrame s p).arr.staged = s.arr.staged ∧ (latchFrame s p).seq.cur = s.seq.cur ∧
    (latchFrame s p).seq.nextNum = (s.seq.nextNum + 1) % 2 ^ 32 := by
  have hfree : ∀ l : List (Nat × Nat), (l.foldl freeRegion s).arr = s.arr := foldl_keeps fun _ _ => rfl
  simp only [latchFrame, State.seq, State.modSeq_arr, State.modGov_arr, apply_ite State.arr, State.bump_arr, hfree]
  split <;> exact ⟨rfl, rfl, rfl⟩

/-- A change of a frame by its number reaches the frame being read. -/
theorem State.modFrame_cur {g : Frame → Frame} (h : s.seq.cur = some f) : (s.modFrame f.num g).seq.cur = some (g f) := by
  simp only [State.modFrame, State.seq, State.modSeq_arr] at h ⊢
  rw [h, Option.map_some, if_pos rfl]

/-- A frame that enters is the one being read, with its number, set and instants. -/
theorem enterFrame_cur (f : Frame) (t : Time) :
    ∃ g, (enterFrame s f t).seq.cur = some g ∧ g.num = f.num ∧ g.set = f.set ∧ g.fs = f.fs ∧ g.elp = f.elp :=
  ⟨_, State.modFrame_cur (congrArg (·.seq.cur) (openArrayFrame_arr _ _)), rfl, rfl, rfl, rfl⟩

/-- No frame is latched or begun once one has entered. -/
theorem enterFrame_takesLatched (f : Frame) (t : Time) : (enterFrame s f t).seq.latched = none ∧ (enterFrame s f t).seq.begun = none := by
  simp only [enterFrame, State.modFrame, State.seq, State.modSeq_arr, openArrayFrame_arr, Option.map_none, and_self]

/-- A frame that enters leaves the sets, the numbers and the trigger. -/
theorem enterFrame_keeps (f : Frame) (t : Time) :
    (enterFrame s f t).arr.active = s.arr.active ∧ (enterFrame s f t).arr.staged = s.arr.staged ∧
    (enterFrame s f t).seq.frame = s.seq.frame ∧ (enterFrame s f t).seq.nextNum = s.seq.nextNum ∧
    (enterFrame s f t).seq.tg = s.seq.tg ∧ (enterFrame s f t).seq.actId = s.seq.actId := by
  simp only [enterFrame, State.modFrame, State.seq, State.modSeq_arr, openArrayFrame_arr, and_self]

/-- Where the next frame has begun already, its latch also makes it the one being read (R52). -/
theorem latchNext_of_begun (hb : s.seq.begun.isSome = true) (hf : (latchFrame s (plan s t)).seq.latched = some f) :
    latchNext s t = enterFrame (latchFrame s (plan s t)) f t := by
  simp only [latchNext, hf, hb, if_true]

theorem latchNext_of_waiting (hb : s.seq.begun.isSome = false) : latchNext s t = latchFrame s (plan s t) := by
  simp only [latchNext, hb]
  split <;> rfl

/-- The planned frame latches, and is from then on the one being read where its FS has come (R74 to R76). -/
theorem exposureLatchPoint_latches (hu : u = s.at t) (hdue : latchDue u t = true) :
    ∃ s' f, exec (.exposureLatchPoint t) s = .next s' ∧ s'.arr.active = (plan u t).set ∧ s'.seq.nextNum = (u.seq.nextNum + 1) % 2 ^ 32 ∧
      s'.seq.tg = none ∧ s'.seq.actId = (plan u t).id ∧ s'.arr.staged = u.arr.staged ∧
      (if u.seq.begun.isSome then s'.seq.latched = none ∧ s'.seq.begun = none ∧ s'.seq.cur = some f
       else s'.seq.latched = some f ∧ s'.seq.cur = u.seq.cur) ∧
      f.num = u.seq.nextNum ∧ f.set = (plan u t).set ∧ f.fs = (plan u t).fs ∧ f.elp = (plan u t).elp := by
  have hexec : exec (.exposureLatchPoint t) s = .next (latchNext u t) :=
    event_due_at (due := (latchDue · t)) (act := (latchNext · t)) hu hdue
  obtain ⟨f, hlatched, hnum, hset, hfs, help⟩ := latchFrame_latched (s := u) (plan u t)
  obtain ⟨hstaged, hcur, hnext⟩ := latchFrame_keeps (s := u) (plan u t)
  cases hb : u.seq.begun.isSome with
  | true =>
    obtain ⟨g, hg, hgnum, hgset, hgfs, hgelp⟩ := enterFrame_cur (s := latchFrame u (plan u t)) f t
    obtain ⟨hactive, hstill, -, hcount, htg, hid⟩ := enterFrame_keeps (s := latchFrame u (plan u t)) f t
    obtain ⟨hnone, hbegun⟩ := enterFrame_takesLatched (s := latchFrame u (plan u t)) f t
    exact ⟨_, g, hexec.trans (congrArg _ (latchNext_of_begun hb hlatched)), hactive.trans (latchFrame_active _),
      hcount.trans hnext, htg.trans (latchFrame_tg _), hid.trans (latchFrame_actId _), hstill.trans hstaged,
      ⟨hnone, hbegun, hg⟩, hgnum.trans hnum, hgset.trans hset, hgfs.trans hfs, hgelp.trans help⟩
  | false =>
    exact ⟨_, f, hexec.trans (congrArg _ (latchNext_of_waiting hb)), latchFrame_active _, hnext, latchFrame_tg _, latchFrame_actId _, hstaged,
      ⟨hlatched, hcur⟩, hnum, hset, hfs, help⟩

/-- Every FS gives the frame number; the set in force, the frame being read and the number of the next one stay (R52). -/
theorem numberFrame_keeps (n : Nat) (trig : Bool) (t : Time) :
    (numberFrame s n trig t).arr.active = s.arr.active ∧ (numberFrame s n trig t).seq.frame = n ∧
    (numberFrame s n trig t).seq.begun = s.seq.begun ∧ (numberFrame s n trig t).seq.cur = s.seq.cur ∧
    (numberFrame s n trig t).seq.nextNum = s.seq.nextNum := by
  simp only [numberFrame, timerFrameStart_arr, State.seq]
  cases trig <;> exact ⟨rfl, rfl, rfl, rfl, rfl⟩

/-- In free-run the FS starts the overhead slots (R35, R52). -/
theorem numberFrame_startsOverhead (n : Nat) (t : Time) : (numberFrame s n false t).seq.ovh = 0 := by
  simp only [numberFrame, timerFrameStart_arr, State.seq]
  rfl

/-- At its FS a latched frame becomes the one being read (R52). -/
theorem frameStart_entersLatched (hu : u = s.at t) (hdue : frameDue u t = true) (hlatched : u.seq.latched = some f) :
    ∃ s', exec (.frameStart t) s = .next s' ∧ s'.seq.frame = f.num ∧ s'.seq.latched = none ∧ s'.arr.active = u.arr.active ∧
      ∃ g : Frame, s'.seq.cur = some g ∧ g.num = f.num ∧ g.set = f.set ∧ g.fs = f.fs := by
  have hexec : exec (.frameStart t) s = .next (frameStart u t) :=
    event_due_at (due := (frameDue · t)) (act := (frameStart · t)) hu hdue
  rw [frameStart, hlatched] at hexec
  dsimp only at hexec
  generalize hv : numberFrame u f.num (decide (f.set.trig ≠ 0)) t = v at hexec
  obtain ⟨hactive, hframe, -, -, -⟩ := numberFrame_keeps (s := u) f.num (decide (f.set.trig ≠ 0)) t
  obtain ⟨g, hg, hnum, hset, hfs, -⟩ := enterFrame_cur (s := v) f t
  obtain ⟨hactive', -, hframe', -, -, -⟩ := enterFrame_keeps (s := v) f t
  rw [hv] at hactive hframe
  exact ⟨_, hexec, hframe'.trans hframe, (enterFrame_takesLatched f t).1, hactive'.trans hactive, g, hg, hnum, hset, hfs⟩

/-- A FS before its frame's ELP counts the frame and starts its overhead slots (R35, R52). -/
theorem frameStart_begins (hu : u = s.at t) (hdue : frameDue u t = true) (hlatched : u.seq.latched = none) :
    ∃ s', exec (.frameStart t) s = .next s' ∧ s'.seq.frame = u.seq.nextNum ∧ s'.seq.begun = some (plan u t).fs ∧ s'.seq.ovh = 0 ∧
      s'.seq.cur = u.seq.cur ∧ s'.arr.active = u.arr.active ∧ s'.seq.nextNum = u.seq.nextNum := by
  have hexec : exec (.frameStart t) s = .next (frameStart u t) :=
    event_due_at (due := (frameDue · t)) (act := (frameStart · t)) hu hdue
  rw [frameStart, hlatched] at hexec
  obtain ⟨hactive, hframe, hbegun, hcur, hnext⟩ :=
    numberFrame_keeps (s := u.modSeq (fun q => { q with begun := some (plan u t).fs, begunD := u.dtime (plan u t).fs })) u.seq.nextNum false t
  exact ⟨_, hexec, hframe, hbegun, numberFrame_startsOverhead _ _, hcur, hactive, hnext⟩

/-! ## Overhead slots (R35) -/

/-- The set in force and the overhead slots that have been read. -/
def slotsRead (s : State) : Settings × Nat := (s.arr.active, s.seq.ovh)

theorem slotsRead_of_arr {s' : State} (h : s'.arr = s.arr) : slotsRead s' = slotsRead s := by simp only [slotsRead, State.seq, h]

@[simp] theorem slotsRead_overheadTile (g : Settings) (k n : Nat) (counts : List (Nat × Nat)) :
    slotsRead (overheadTile s g k n counts) = slotsRead s := by
  unfold overheadTile
  split <;> rfl

@[simp] theorem slotsRead_closeOverhead (g : Settings) (n : Nat) (err : Int) (alpha0 : Bool) :
    slotsRead (closeOverhead s g n err alpha0) = slotsRead s := rfl

/-- An overhead slot is one of the eight, and leaves the set in force. -/
theorem slotsRead_overheadSlot (samples : List (TileIx × List (Nat × Nat))) (ramp : List (TileIx × Int)) (t : Time) :
    slotsRead (overheadSlot s samples ramp t) = (s.arr.active, s.seq.ovh + 1) := by
  unfold overheadSlot
  extract_lets k opened g on sampled counted inFrame bands closed bad raised ended
  have hopened : slotsRead opened = slotsRead s := by
    simp only [opened]
    split <;> rfl
  have hsampled : slotsRead sampled = slotsRead s := (foldl_keeps (fun _ _ => slotsRead_overheadTile ..) _).trans hopened
  have hcounted : slotsRead counted = (s.arr.active, s.seq.ovh + 1) :=
    congrArg (fun read : Settings × Nat => (read.1, s.seq.ovh + 1)) hsampled
  have hclosed : slotsRead closed = slotsRead counted := foldl_keeps (fun _ _ => slotsRead_closeOverhead ..) _
  have hraised : slotsRead raised = slotsRead closed := foldl_keeps (fun _ _ => slotsRead_of_arr (raise_arr ..)) _
  have hended : slotsRead ended = (s.arr.active, s.seq.ovh + 1) := (hraised.trans hclosed).trans hcounted
  split
  · split
    · split
      · exact hended
      · exact hended
    · exact hended
  · exact hcounted

/-- Each overhead slot is one of its frame's eight (R35). -/
theorem overheadSlot_counts {samples : List (TileIx × List (Nat × Nat))} {ramp : List (TileIx × Int)} (hu : u = s.at t)
    (hdue : ovhDue u t = true) :
    ∃ s', exec (.overheadSlot t samples ramp) s = .next s' ∧ s'.seq.ovh = u.seq.ovh + 1 ∧ s'.arr.active = u.arr.active := by
  obtain ⟨hactive, hovh⟩ := Prod.mk.inj (slotsRead_overheadSlot (s := u) samples ramp t)
  rw [show exec (.overheadSlot t samples ramp) s = execOverheadSlot t samples ramp s from rfl, execOverheadSlot]
  exact ⟨_, event_due_at hu hdue, hovh, hactive⟩

/-! ## Row slots (R53, R91) -/

/-- What a row slot finds at its end: the set in force, how the array is to stop, and the next slot of the frame being read. -/
structure RowPace where
  active : Settings
  cut : Bool
  stopping : Bool
  place : Option (Nat × Nat)

/-- The pace of the row slots. Each operation of a row slot but the first, which takes the slot, leaves it. -/
def rowPace (s : State) : RowPace := ⟨s.arr.active, s.seq.cut, s.seq.stopping, s.seq.cur.map fun f => (f.num, f.next)⟩

theorem rowPace_of_arr {s' : State} (h : s'.arr = s.arr) : rowPace s' = rowPace s := by simp only [rowPace, State.seq, h]

@[simp] theorem rowPace_ite {c : Prop} [Decidable c] {a b : State} : rowPace (if c then a else b) = if c then rowPace a else rowPace b := by
  split <;> rfl

@[simp] theorem rowPace_modEng (n : Nat) (g : Eng → Eng) : rowPace (s.modEng n g) = rowPace s := rfl
@[simp] theorem rowPace_bump (a hi lo n : Nat) : rowPace (s.bump a hi lo n) = rowPace s := rfl
@[simp] theorem rowPace_setFld (a hi lo v : Nat) : rowPace (s.setFld a hi lo v) = rowPace s := rfl
@[simp] theorem rowPace_raise (code inst : Nat) (t : Time) : rowPace (raise s code inst t) = rowPace s := rowPace_of_arr (raise_arr ..)

@[simp] theorem rowPace_dropLine (n : Nat) (l : Line) (t : Time) : rowPace (dropLine s n l t) = rowPace s :=
  rowPace_of_arr (Within.arr (L := Part.but [.arr]) (by simp) (by simp))
@[simp] theorem rowPace_publishTile (f : Frame) (x : TileStat) : rowPace (publishTile s f x) = rowPace s :=
  rowPace_of_arr (Within.arr (L := Part.but [.arr]) (by simp) (by simp))
@[simp] theorem rowPace_endSource (src vc frame : Nat) (t : Time) : rowPace (endSource s src vc frame t) = rowPace s :=
  rowPace_of_arr (Within.arr (L := Part.but [.arr]) (by simp) (by simp))
@[simp] theorem rowPace_memLoad (c i a n : Nat) (t : Time) : rowPace (memLoad s c i a n t) = rowPace s :=
  rowPace_of_arr (Within.arr (L := Part.but [.arr]) (by simp) (by simp))

@[simp] theorem rowPace_modSeq {g : Seq → Seq} (hcut : ∀ q, (g q).cut = q.cut) (hstop : ∀ q, (g q).stopping = q.stopping)
    (hcur : ∀ q, (g q).cur = q.cur) : rowPace (s.modSeq g) = rowPace s := by
  simp only [rowPace, State.seq, State.modSeq_arr, hcut, hstop, hcur]

/-- A change of frames that leaves their numbers and next slots leaves the pace. -/
@[simp] theorem rowPace_modFrame {n : Nat} {g : Frame → Frame} (hg : ∀ f, ((g f).num, (g f).next) = (f.num, f.next)) :
    rowPace (s.modFrame n g) = rowPace s := by
  have hplace : ∀ f : Frame, ((fun f : Frame => (f.num, f.next)) ∘ fun f => if f.num = n then g f else f) f = (f.num, f.next) := by
    intro f
    simp only [Function.comp]
    split
    · exact hg f
    · rfl
  simp only [rowPace, State.modFrame, State.seq, State.modSeq_arr, Option.map_map, funext hplace]

@[simp] theorem rowPace_modStat (n k : Nat) (g : TileStat → TileStat) : rowPace (s.modStat n k g) = rowPace s := rowPace_modFrame fun _ => rfl

@[simp] theorem rowPace_emitLine (n : Nat) (l : Line) (t : Time) : rowPace (emitLine s n l t) = rowPace s := by simp [emitLine]

@[simp] theorem rowPace_statLine (f : Frame) (n i : Nat) (codes : List Nat) : rowPace (statLine s f n i codes) = rowPace s := by simp [statLine]

@[simp] theorem rowPace_spillLost (f : Frame) (n : Nat) (t : Time) : rowPace (spillLost s f n t) = rowPace s := by simp [spillLost]

@[simp] theorem rowPace_slotTile (num n i q : Nat) (counts : List (Nat × Nat)) (t : Time) :
    rowPace (slotTile s num n i q counts t) = rowPace s := by
  unfold slotTile
  split
  · rfl
  · simp

@[simp] theorem rowPace_endFrame (num : Nat) (t : Time) : rowPace (endFrame s num t) = rowPace s := by
  unfold endFrame
  split
  · rfl
  · simp [foldl_keeps (g := rowPace) fun v x => rowPace_publishTile _ x]

@[simp] theorem rowPace_issueFetches (f : Frame) (t : Time) : rowPace (issueFetches s f t) = rowPace s := by
  simp only [issueFetches]
  split
  · rfl
  · exact foldl_keeps (fun v x => foldl_keeps (fun w q => by simp) _) _

/-- A slot taken from the frame being read: its next slot is the one after. -/
theorem rowPace_advance (hcur : s.seq.cur = some f) {g : Frame → Frame} (hg : ((g f).num, (g f).next) = (f.num, f.next + 1)) :
    rowPace (s.modFrame f.num g) = ⟨s.arr.active, s.seq.cut, s.seq.stopping, some (f.num, f.next + 1)⟩ := by
  rw [rowPace, State.modFrame_cur hcur, Option.map_some, hg]
  rfl

/-- A row slot reads one slot of the frame being read; then the array halts where it is to, and goes on otherwise. -/
theorem rowSlot_reads (hcur : s.seq.cur = some f) (samples : List (TileIx × List (Nat × Nat))) (t : Time) :
    ∃ v, rowPace v = ⟨s.arr.active, s.seq.cut, s.seq.stopping, some (f.num, f.next + 1)⟩ ∧
      rowSlot s samples t = if v.seq.cut then cutArray v t else maybeHalt v := by
  simp only [rowSlot, hcur]
  generalize hv : s.modFrame f.num _ = v
  have hadvance : rowPace v = ⟨s.arr.active, s.seq.cut, s.seq.stopping, some (f.num, f.next + 1)⟩ := by
    rw [← hv]
    exact rowPace_advance hcur rfl
  refine ⟨_, (foldl_keeps (fun _ _ => rowPace_issueFetches ..) _).trans ?_, rfl⟩
  rw [← hadvance]
  split
  · rfl
  · split
    · rfl
    · simp only [rowPace_ite, rowPace_endFrame, ite_self]
      exact foldl_keeps (fun _ _ => rowPace_slotTile ..) _

@[simp] theorem cutArray_active (t : Time) : (cutArray s t).arr.active = s.arr.active := by
  simp only [cutArray, haltArray, State.modSeq_arr]
  exact congrArg ArrayS.active (foldl_keeps (fun _ _ => truncateSource_arr ..) _)

@[simp] theorem maybeHalt_active : (maybeHalt s).arr.active = s.arr.active := by
  unfold maybeHalt
  split <;> rfl

/-- The array halts only where it is stopping. -/
theorem maybeHalt_of_going (h : s.seq.stopping = false) : maybeHalt s = s := by simp [maybeHalt, h]

theorem maybeHalt_halts_or_keeps : (maybeHalt s).seq.running = false ∨ maybeHalt s = s := by
  unfold maybeHalt
  split
  · exact .inl rfl
  · exact .inr rfl

/-- Each row slot reads one slot of the frame, and one in which the array is to halt halts it (R53, R91). -/
theorem rowSlot_advances {samples : List (TileIx × List (Nat × Nat))} (hu : u = s.at t) (hcur : u.seq.cur = some f) (hdue : rowSlotDue u t = true) :
    ∃ s', exec (.rowSlot t samples) s = .next s' ∧ s'.arr.active = u.arr.active ∧
      (u.seq.cut = true → s'.seq.running = false ∧ s'.seq.cur = none) ∧
      (u.seq.cut = false → u.seq.stopping = false → ∃ g : Frame, s'.seq.cur = some g ∧ g.num = f.num ∧ g.next = f.next + 1) ∧
      (u.seq.cut = false → s'.seq.running = false ∨ ∃ g : Frame, s'.seq.cur = some g ∧ g.num = f.num ∧ g.next = f.next + 1) := by
  have hexec : exec (.rowSlot t samples) s = .next (rowSlot u samples t) :=
    event_due_at (due := (rowSlotDue · t)) (act := (rowSlot · samples t)) hu hdue
  obtain ⟨v, hpace, hslot⟩ := rowSlot_reads hcur samples t
  obtain ⟨hactive, hcut, hstop, hplace⟩ := RowPace.mk.inj hpace
  have hread : ∃ g : Frame, v.seq.cur = some g ∧ g.num = f.num ∧ g.next = f.next + 1 := by simpa using hplace
  rw [hcut] at hslot
  cases hc : u.seq.cut with
  | true =>
    rw [hc, if_pos rfl] at hslot
    rw [hslot] at hexec
    exact ⟨_, hexec, (cutArray_active t).trans hactive, fun _ => ⟨rfl, rfl⟩, nofun, nofun⟩
  | false =>
    rw [hc, if_neg nofun] at hslot
    rw [hslot] at hexec
    refine ⟨_, hexec, maybeHalt_active.trans hactive, nofun, fun _ hgo => ?_, fun _ => ?_⟩
    · rw [maybeHalt_of_going (hstop.trans hgo)]
      exact hread
    · refine maybeHalt_halts_or_keeps.imp_right fun hkept => ?_
      rw [hkept]
      exact hread

/-! ## Arming and integrations (R60, R67, R70) -/

theorem arrayArm_arms (hu : u = s.at t) (hdue : armDue u t = true) :
    exec (.arrayArm t) s = .next (u.modSeq (fun q => { q with armed := true })) :=
  event_due_at (due := (armDue · t)) (act := (·.modSeq (fun q => { q with armed := true }))) hu hdue

theorem integrationStart_begins {tile : TileIx} {row : Nat} {exp : Fin 4} (hu : u = s.at t) (hf : integFrame u t tile row exp.val = some f) :
    exec (.integrationStart t tile row exp) s =
      .next (u.modSeq (fun q => { q with integ := q.integ ++ [⟨f.num, tile, row, exp.val, 0⟩] })) := by
  rw [show exec (.integrationStart t tile row exp) s = execIntegrationStart t tile row exp s from rfl, execIntegrationStart,
    event_due_at hu (by rw [hf]; rfl), hf]

theorem integrationSlice_takes {tile : TileIx} {row : Nat} {exp : Fin 4} {m : Integ} (hu : u = s.at t)
    (hm : sliceOf u t tile row exp.val = some m) :
    exec (.integrationSlice t tile row exp) s =
      .next (u.modSeq (fun q => { q with integ := q.integ.map (fun n => if n = m then { n with slices := n.slices + 1 } else n) })) := by
  rw [show exec (.integrationSlice t tile row exp) s = execIntegrationSlice t tile row exp s from rfl, execIntegrationSlice,
    event_due_at hu (by rw [hm]; rfl), hm]

/-- Settles O18: clause by clause, the rule of each of the sequencer's commands. -/
theorem framesLatchStartAndAdvance : Obligations.FramesLatchStartAndAdvance := by
  unfold Obligations.FramesLatchStartAndAdvance
  exact ⟨fun _ _ _ => exposureLatchPoint_latches, fun _ _ _ _ => frameStart_entersLatched, fun _ _ _ => frameStart_begins,
    fun _ _ _ => arrayArm_arms, fun _ _ _ _ _ => rowSlot_advances, fun _ _ _ _ _ => overheadSlot_counts,
    fun _ _ _ _ _ _ _ => integrationStart_begins, fun _ _ _ _ _ _ _ => integrationSlice_takes⟩

end Sys2Proof.Machine
end

section
/-! Array commands: what the holder of the ARRAY lease meets with, and what a refusal takes over from the condition that fails (R344, R350). -/

namespace Sys2Proof.Machine

variable {s u : State} {c : Call} {p : PortIx}

/-- The port that holds a lease, and is no VIEWER, is not refused for want of it. -/
theorem needLease_of_holdsLease {b : Nat} (h : HoldsLease u c p b) : needLease u c b = none := by
  obtain ⟨hsrc, hrole, hholder⟩ := h
  simp only [needLease, hsrc, hrole, if_false]
  exact need_true (decide_eq_true hholder)

/-- The holder of the ARRAY lease is refused by none of the checks that every array command starts with. -/
theorem arrayCmd_passes {n k : Nat} (hlease : HoldsLease u c p lARRAY) (hlen : c.payload.length = n) (harg : argZero c k = none) :
    ∀ x ∈ arrayCmd c n k u, x = none := by
  simp only [arrayCmd, List.forall_mem_cons]
  exact ⟨need_true (decide_eq_true hlen), needLease_of_holdsLease hlease, harg, by simp⟩

/-- An array command of the holder of the lease acts where none of the command's own checks refuses it. -/
theorem arrayCommand_acts {op n k : Nat} {cls : Cls} {checks : State → List (Option Reject)} {act : State → State} (hu : u = s.at c.start)
    (hserved : Served u c op) (hlease : HoldsLease u c p lARRAY) (hlen : c.payload.length = n) (harg : argZero c k = none) (hcls : cls ≠ .slow)
    (hchecks : ∀ x ∈ checks u, x = none) : command s c op cls (fun v => arrayCmd c n k v ++ checks v) act = .next (act u) := by
  subst hu
  refine command_acts hserved (fun x hx => ?_) (fun h => absurd h hcls)
  rcases List.mem_append.mp hx with hx | hx
  · exact arrayCmd_passes hlease hlen harg x hx
  · exact hchecks x hx

/-- The refusal that a list of conditions gives is one of theirs. -/
theorem mem_of_judge {l : List (Option Reject)} {r : Reject} (h : judge l = some r) : some r ∈ l := by
  induction l generalizing r with
  | nil => cases h
  | cons x l ih =>
    cases x with
    | none => exact List.mem_cons_of_mem _ (ih h)
    | some a =>
      simp only [judge] at h
      split at h
      · cases h
        exact List.mem_cons_self
      · next b hb =>
        cases h
        unfold better
        split
        · exact List.mem_cons_of_mem _ (ih hb)
        · exact List.mem_cons_self

/-- One condition that fails is enough for a refusal. -/
theorem exists_judge_of_mem {l : List (Option Reject)} {a : Reject} (h : some a ∈ l) : ∃ r, judge l = some r := by
  induction l with
  | nil => cases h
  | cons x l ih =>
    cases x with
    | none => exact ih (by simpa using h)
    | some b =>
      simp only [judge]
      split <;> exact ⟨_, rfl⟩

/-- A host command of a port is refused for a condition of its own, where it has one that fails and is served (R340, R344). -/
theorem command_refusedByOwn {op : Nat} {cls : Cls} {checks : State → List (Option Reject)} {act : State → State} {a : Reject}
    (hu : u = s.at c.start) (hserved : Served u c op) (hsrc : c.src = .port p) (hcls : cls ≠ .slow) (ha : some a ∈ checks u) :
    ∃ r, some r ∈ checks u ∧ command s c op cls checks act = .next (respond u c op cls r.status r.detail []) := by
  obtain ⟨r, hr⟩ := exists_judge_of_mem (l := refusals u c op cls (checks u)) (List.mem_append_left _ (List.mem_append_right _ ha))
  obtain ⟨-, -, -, hjob, -⟩ := id hserved
  refine ⟨r, by simpa [refusals, hjob, hsrc, hcls, need] using mem_of_judge hr, ?_⟩
  subst hu
  exact command_refused (hserved.startsNow cls) hr

theorem detail_of_need {b : Bool} {st : Status} {d : Nat} {r : Reject} (h : need b st d = some r) : r.detail = d := by
  cases b <;> cases h
  rfl

/-- An array command of the holder of the lease is refused where one of the command's own checks fails, and names no field where none of them does. -/
theorem arrayCommand_refused {op n k : Nat} {cls : Cls} {checks : State → List (Option Reject)} {act : State → State} {a : Reject}
    (hu : u = s.at c.start) (hserved : Served u c op) (hlease : HoldsLease u c p lARRAY) (hlen : c.payload.length = n) (harg : argZero c k = none)
    (hcls : cls ≠ .slow) (ha : some a ∈ checks u) (hfield : ∀ r, some r ∈ checks u → r.detail = 0) :
    ∃ st, command s c op cls (fun v => arrayCmd c n k v ++ checks v) act = .next (respond u c op cls st 0 []) := by
  obtain ⟨r, hr, hexec⟩ := command_refusedByOwn (checks := fun v => arrayCmd c n k v ++ checks v) (act := act) hu hserved hlease.1 hcls
    (List.mem_append_right _ ha)
  have hdetail : r.detail = 0 := by
    rcases List.mem_append.mp hr with hr | hr
    · cases arrayCmd_passes hlease hlen harg _ hr
    · exact hfield r hr
  rw [hdetail] at hexec
  exact ⟨r.status, hexec⟩

end Sys2Proof.Machine
end

section
/-! The statistics of an ended frame, and the governor's output that they bring (R78, R81, R154). -/

namespace Sys2Proof.Machine

variable {s u : State} {t e : Time} {f : Frame}

@[simp] theorem sendStats_arr (views : List Nat) (r : StatRec) : (sendStats s views r).arr = s.arr :=
  Within.arr (L := Part.but [.arr]) (by simp) (by simp)
@[simp] theorem updateBorder_arr (f : Frame) : (updateBorder s f).arr = s.arr := rfl

/-- The record of the frame that ended first becomes the newest; where the governor is on, its output falls due 0.5 ms after the end (R78, R81). -/
theorem statsComplete_records {rest : List Frame} (hu : u = s.at t) (hdone : u.seq.done = f :: rest) (hend : f.endAt = some e) (he : e ≤ t) :
    ∃ s', exec (.statsComplete t) s = .next s' ∧ s'.seq.done = rest ∧
      (∃ r : StatRec, s'.arr.stats.head? = some r ∧ r.src = 0 ∧ r.frame = f.num ∧ r.id = f.id) ∧
      (u.arr.gov.on = true → s'.arr.gov.due = u.arr.gov.due ++ [(f.num, e + 500 * us)]) ∧
      (u.arr.gov.on = false → s'.arr.gov = u.arr.gov) := by
  rw [show exec (.statsComplete t) s = execStatsComplete t s from rfl, execStatsComplete]
  refine ⟨_, event_due_at hu (by simp only [hdone, hend, decide_eq_true he]), ?_⟩
  simp only [hdone]
  generalize hv : updateBorder _ f = v
  have hstats : v.arr = (keepStats (u.modSeq fun q => { q with done := rest }) (arrayRecord (u.modSeq fun q => { q with done := rest }) f)).arr := by
    rw [← hv, updateBorder_arr, sendStats_arr]
    exact foldl_keeps (g := State.arr) (fun _ _ => by simp only [State.setReg_arr]) _
  have hgov : v.arr.gov = u.arr.gov := by rw [hstats]; rfl
  rw [hgov]
  cases hon : u.arr.gov.on with
  | true =>
    refine ⟨congrArg (·.seq.done) hstats, ⟨_, congrArg (·.stats.head?) hstats, rfl, rfl, rfl⟩, fun _ => ?_, nofun⟩
    simp [hgov, hend]
  | false => exact ⟨congrArg (·.seq.done) hstats, ⟨_, congrArg (·.stats.head?) hstats, rfl, rfl, rfl⟩, nofun, fun _ => hgov⟩

/-- An output of the governor touches nothing but the governor, and leaves what else is due. -/
theorem govOutput_keeps (n : Nat) (tg t : Time) : ∃ g, (govOutput s n tg t).arr = { s.arr with gov := g } ∧ g.due = s.arr.gov.due := by
  simp only [govOutput]
  split
  · exact ⟨_, rfl, rfl⟩
  · split
    · exact ⟨_, rfl, rfl⟩
    · exact ⟨_, rfl, rfl⟩

/-- At the instant of the earliest output due the governor takes it (R81). -/
theorem governorOutput_takes {d : Nat × Time} {rest : List (Nat × Time)} (hu : u = s.at t) (hon : u.arr.gov.on = true)
    (hdue : u.arr.gov.due = d :: rest) (hd : d.2 ≤ t) :
    ∃ s', exec (.governorOutput t) s = .next s' ∧ s'.arr.gov.due = rest ∧ Keeps [.arr] u s' ∧ s'.arr.active = u.arr.active ∧
      s'.arr.staged = u.arr.staged ∧ s'.seq = u.seq := by
  have hexec : exec (.governorOutput t) s = .next (
      if u.sec.handover.isSome then u.modGov (fun v => { v with due := rest })
      else govOutput (u.modGov (fun v => { v with due := rest })) d.1 d.2 t) := by
    rw [show exec (.governorOutput t) s = execGovernorOutput t s from rfl, execGovernorOutput,
      event_due_at hu (by simp only [hon, hdue, decide_eq_true hd, Bool.and_self])]
    simp only [hdue]
    rfl
  have hkeeps : ∀ s', exec (.governorOutput t) s = .next s' → Keeps [.arr] u s' := by
    subst hu
    exact fun s' h => (execGovernorOutput_within (by simp) t s' h).1
  have hgov : ∃ g, (if u.sec.handover.isSome then u.modGov (fun v => { v with due := rest })
      else govOutput (u.modGov (fun v => { v with due := rest })) d.1 d.2 t).arr = { u.arr with gov := g } ∧ g.due = rest := by
    split
    · exact ⟨_, rfl, rfl⟩
    · exact govOutput_keeps ..
  obtain ⟨g, harr, hrest⟩ := hgov
  exact ⟨_, hexec, (congrArg (·.gov.due) harr).trans hrest, hkeeps _ hexec, congrArg (·.active) harr, congrArg (·.staged) harr,
    congrArg (·.seq) harr⟩

/-- Settles O20: a frame's record is kept and its output falls due, and then the governor takes it. -/
theorem statisticsAndGovernorOutput : Obligations.StatisticsAndGovernorOutput := by
  unfold Obligations.StatisticsAndGovernorOutput
  exact ⟨fun _ _ _ _ _ _ => statsComplete_records, fun _ _ _ _ _ => governorOutput_takes⟩

end Sys2Proof.Machine
end

section
/-! Triggers, and the start and the stop of the array (R69 to R72, R89 to R92). -/

namespace Sys2Proof.Machine

variable {s u : State} {t tg : Time} {c : Call} {p : PortIx} {src : Nat}

/-! ## What becomes of a trigger (R69, R71) -/

/-- A trigger of the source in force counts where the array is armed and the trigger does not come too early (R71). -/
theorem trigRes_of_source (h : (trigSet u t).trig = src) : trigRes u src tg t =
    if u.seq.armed = true ∧ ∀ l : Time, u.seq.lastTg = some l → l + trigMin u (trigSet u t) t ≤ tg then .accepted else .overrun := by
  rw [trigRes, if_neg (not_not.mpr h)]
  cases u.seq.armed with
  | false => simp
  | true =>
    cases u.seq.lastTg with
    | none => simp
    | some l =>
      by_cases hlate : l + trigMin u (trigSet u t) t ≤ tg
      · simp [hlate, Nat.not_lt.mpr hlate]
      · simp [hlate, Nat.not_le.mp hlate]

theorem trigRes_of_other (h : (trigSet u t).trig ≠ src) : trigRes u src tg t = .ignored := if_pos h

theorem trigRes_accepted_iff : trigRes u src tg t = .accepted ↔
    (trigSet u t).trig = src ∧ u.seq.armed = true ∧ ∀ l : Time, u.seq.lastTg = some l → l + trigMin u (trigSet u t) t ≤ tg := by
  by_cases h : (trigSet u t).trig = src
  · simp [trigRes_of_source h, h]
  · simp [trigRes_of_other h, h]

theorem trigRes_ignored_iff : trigRes u src tg t = .ignored ↔ (trigSet u t).trig ≠ src := by
  refine ⟨fun hres h => ?_, trigRes_of_other⟩
  rw [trigRes_of_source h] at hres
  split at hres <;> cases hres

theorem takeTrigger_accepted (h : trigRes s src tg t = .accepted) :
    takeTrigger s src tg t = s.modSeq (fun q => { q with tg := some tg, lastTg := some tg, armed := false }) := by
  simp only [takeTrigger, h]

theorem takeTrigger_overrun (h : trigRes s src tg t = .overrun) : takeTrigger s src tg t = s.bump aARRAY_TRIG_CNT 15 0 1 := by
  simp only [takeTrigger, h]

theorem takeTrigger_ignored (h : trigRes s src tg t = .ignored) : takeTrigger s src tg t = s.bump aARRAY_TRIG_CNT 31 16 1 := by
  simp only [takeTrigger, h]

/-- A trigger leaves the pending requests. -/
theorem takeTrigger_trigAt : (takeTrigger s src tg t).seq.trigAt = s.seq.trigAt := by
  unfold takeTrigger
  split <;> rfl

/-- TRIGGER_FRAME is a trigger of source 1 at the command's stamp (R89). -/
theorem triggerFrame_triggers (hu : u = s.at c.start) (hready : Ready u c 0x0207) (hlease : HoldsLease u c p lARRAY) (hpl : c.payload = [])
    (hactive : needActive u c = none) :
    (trigRes u 1 c.stamp c.start = .accepted →
      exec (.triggerFrame c) s = .next (okWith (u.modSeq (fun q => { q with tg := some c.stamp, lastTg := some c.stamp, armed := false }))
        c 0x0207 .immediate (leBytes 4 u.seq.nextNum ++ leBytes 8 (u.dtime c.stamp)))) ∧
    (trigRes u 1 c.stamp c.start = .overrun →
      exec (.triggerFrame c) s = .next (respond (u.bump aARRAY_TRIG_CNT 15 0 1) c 0x0207 .immediate .busy 0 [])) ∧
    (trigRes u 1 c.stamp c.start = .ignored →
      exec (.triggerFrame c) s = .next (respond (u.bump aARRAY_TRIG_CNT 31 16 1) c 0x0207 .immediate .badState 0 [])) := by
  obtain ⟨hserved, harg⟩ := hready
  rw [show exec (.triggerFrame c) s = execTriggerFrame c s from rfl, execTriggerFrame,
    arrayCommand_acts hu hserved hlease (by simp [hpl]) harg (by simp) (by simpa using hactive)]
  refine ⟨fun h => ?_, fun h => ?_, fun h => ?_⟩
  · simp only [h, takeTrigger_accepted h]
  · simp only [h, takeTrigger_overrun h]
  · simp only [h, takeTrigger_ignored h]

/-- TRIGGER_AT joins the pending requests (R92). -/
theorem triggerAt_joins (hu : u = s.at c.start) (hready : Ready u c 0x020B) (hlease : HoldsLease u c p lARRAY) (hlen : c.payload.length = 8)
    (hactive : needActive u c = none) (hrun : u.seq.running = true) (hroom : u.seq.trigAt.length < 4)
    (hahead : u.dtime c.stamp + 10000 ≤ u64 c.payload 0)
    (hgap : ∀ x ∈ u.seq.trigAt, x + divCeil (pminT u (trigSet u c.start) c.start) ns ≤ u64 c.payload 0) :
    exec (.triggerAt c) s = .next (okWith (u.modSeq (fun q => { q with trigAt := q.trigAt ++ [u64 c.payload 0] })) c 0x020B .fast []) := by
  obtain ⟨hserved, harg⟩ := hready
  rw [show exec (.triggerAt c) s = execTriggerAt c s from rfl, execTriggerAt]
  refine arrayCommand_acts hu hserved hlease hlen harg (by simp) ?_
  simpa [hactive, hrun, hroom, hahead] using hgap

/-- `minL` gives the least element of a list. -/
theorem minL_eq {d x : Nat} {l : List Nat} (hmem : d ∈ l) (hle : ∀ y ∈ l, d ≤ y) : minL x l = d := by
  cases l with
  | nil => cases hmem
  | cons a l => exact Option.some.inj (List.min?_eq_some_iff.mpr ⟨hmem, hle⟩)

/-- The earliest pending request leaves the others and acts as a trigger of source 2 at its own instant, once its DTIME has come (R69, R72). -/
theorem triggerAtDue_triggers {d : Nat} (hu : u = s.at t) (hmem : d ∈ u.seq.trigAt) (hleast : ∀ x ∈ u.seq.trigAt, d ≤ x)
    (hcome : d ≤ u.dtime t) :
    exec (.triggerAtDue t) s = .next (takeTrigger (u.modSeq (fun q => { q with trigAt := removeFirst (· = d) q.trigAt })) 2
      (t - (u.dtime t - d) * ns) t) := by
  have hdue : u.seq.trigAt.any (fun x => decide (x ≤ u.dtime t)) = true := List.any_eq_true.mpr ⟨d, hmem, decide_eq_true hcome⟩
  rw [show exec (.triggerAtDue t) s = execTriggerAtDue t s from rfl, execTriggerAtDue, event_due_at hu hdue]
  cases hl : u.seq.trigAt with
  | nil => simp [hl] at hmem
  | cons x l =>
    rw [hl] at hmem hleast
    simp only [minL_eq hmem hleast]
    rfl

/-! ## Start (R90) -/

/-- START_ARRAY starts a stopped array from the command's stamp (R90). -/
theorem startArray_starts (hu : u = s.at c.start) (hready : Ready u c 0x0208) (hlease : HoldsLease u c p lARRAY) (hpl : c.payload = [])
    (hactive : needActive u c = none) (hst : u.pw.st = .active) (hrun : u.seq.running = false) (hpll : pllOf u 0 ≠ .fail) :
    exec (.startArray c) s = .next (okWith (startArrayAt (u.modSeq (fun q => { q with relock := false })) c.stamp) c 0x0208 .fast
      (leBytes 4 u.seq.nextNum)) := by
  obtain ⟨hserved, harg⟩ := hready
  rw [show exec (.startArray c) s = execStartArray c s from rfl, execStartArray,
    arrayCommand_acts hu hserved hlease (by simp [hpl]) harg (by simp) (by simp [hactive, hrun, hpll]), if_pos hst]

/-- Out of ACTIVE, START_ARRAY is refused, and no field is to blame (R344, R382). -/
theorem startArray_refused (hu : u = s.at c.start) (hready : Ready u c 0x0208) (hlease : HoldsLease u c p lARRAY) (hpl : c.payload = [])
    (hactive : needActive u c ≠ none) : ∃ st : Status, exec (.startArray c) s = .next (respond u c 0x0208 .fast st 0 []) := by
  obtain ⟨hserved, harg⟩ := hready
  obtain ⟨a, ha⟩ := Option.ne_none_iff_exists'.mp hactive
  rw [show exec (.startArray c) s = execStartArray c s from rfl, execStartArray]
  refine arrayCommand_refused (a := a) hu hserved hlease (by simp [hpl]) harg (by simp) (by simp [← ha]) fun r hr => ?_
  simp only [List.mem_cons, List.not_mem_nil, or_false] at hr
  rcases hr with hneed | hneed | hneed <;> exact detail_of_need hneed.symm

/-! ## Stop (R91) -/

/-- What commands have set up: the three settings sets and the pending TRIGGER_AT requests. -/
def setUp (s : State) : Settings × Settings × Option Commit × List Nat := (s.arr.active, s.arr.staged, s.arr.pend, s.seq.trigAt)

theorem setUp_of_arr {s' : State} (h : s'.arr = s.arr) : setUp s' = setUp s := by simp only [setUp, State.seq, h]

theorem setUp_modSeq {g : Seq → Seq} (hg : ∀ q, (g q).trigAt = q.trigAt) : setUp (s.modSeq g) = setUp s := by
  simp only [setUp, State.seq, State.modSeq_arr, hg]

theorem setUp_maybeHalt : setUp (maybeHalt s) = setUp s := by
  unfold maybeHalt
  split <;> rfl

theorem setUp_cutArray (t : Time) : setUp (cutArray s t) = setUp s :=
  (foldl_keeps (g := setUp) (fun _ _ => setUp_of_arr (truncateSource_arr ..)) _ :)

theorem setUp_dropLate (stamp t : Time) : setUp (dropLate s stamp t) = setUp s := by
  unfold dropLate
  extract_lets unlatched unbegun untriggered
  have hunlatched : setUp unlatched = setUp s := by
    simp only [unlatched]
    split
    · split <;> rfl
    · rfl
  have hunbegun : setUp unbegun = setUp s := by
    rw [← hunlatched]
    simp only [unbegun]
    split <;> rfl
  have huntriggered : setUp untriggered = setUp s := by
    rw [← hunbegun]
    simp only [untriggered]
    split
    · split <;> rfl
    · rfl
  rw [← huntriggered]
  split
  · next f _ =>
    split
    · exact .trans (b := setUp (truncateSource untriggered 0 0 f.num 0 t)) rfl (setUp_of_arr (truncateSource_arr ..))
    · rfl
  · rfl

theorem dropTrigAt_arr : (dropTrigAt s).arr = { s.arr with seq := { s.seq with trigAt := [] } } := rfl

theorem setUp_dropTrigAt : setUp (dropTrigAt s) = (s.arr.active, s.arr.staged, s.arr.pend, []) := rfl

/-! Nothing of the schedule of the frames depends on the pending requests. -/

theorem treadFor_dropTrigAt (g : Settings) (t : Time) : treadFor (dropTrigAt s) g t = treadFor s g t := rfl
theorem placeFree_dropTrigAt (g : Settings) (a : Option Time) (t : Time) : placeFree (dropTrigAt s) g a t = placeFree s g a t := rfl
theorem overlay_dropTrigAt (g : Settings) (place : Settings → Time) (t : Time) : overlay (dropTrigAt s) g place t = overlay s g place t := rfl
theorem forced_dropTrigAt (g : Settings) (t : Time) : forced (dropTrigAt s) g t = forced s g t := rfl
theorem commitApplies_dropTrigAt (c : Commit) (tg : Option Time) (t : Time) : commitApplies (dropTrigAt s) c tg t = commitApplies s c tg t := rfl
theorem trigNext_dropTrigAt (t : Time) : trigNext (dropTrigAt s) t = trigNext s t := rfl

theorem plan_dropTrigAt (t : Time) : plan (dropTrigAt s) t = plan s t := by
  simp only [plan, forced_dropTrigAt, commitApplies_dropTrigAt, placeFree_dropTrigAt, treadFor_dropTrigAt, overlay_dropTrigAt,
    dropTrigAt_arr, State.seq]
  rfl

theorem drainNow_dropTrigAt (f : Frame) (t : Time) : drainNow (dropTrigAt s) f t = drainNow s f t := by
  simp only [drainNow, plan_dropTrigAt, trigNext_dropTrigAt, dropTrigAt_arr, State.seq]

theorem slotBusy_dropTrigAt (t : Time) : slotBusy (dropTrigAt s) t = slotBusy s t := by
  simp only [slotBusy, slotsOf, drainNow_dropTrigAt, dropTrigAt_arr, State.seq]
  rfl

/-! The array stops at once, or at the end of the row slot in progress (`HOW` 1). -/

theorem stopArrayNow_of_stopped (h : s.seq.running = false) (t : Time) : stopArrayNow s t = s := by simp [stopArrayNow, h]

theorem stopArrayNow_of_busy (h : s.seq.running = true) (hbusy : slotBusy s t = true) :
    stopArrayNow s t = (dropTrigAt s).modSeq (fun q => { q with stopping := true, cut := true, armed := false, tg := none }) := by
  simp [stopArrayNow, h, slotBusy_dropTrigAt, hbusy]

theorem stopArrayNow_of_idle (h : s.seq.running = true) (hidle : slotBusy s t = false) : stopArrayNow s t = cutArray (dropTrigAt s) t := by
  simp [stopArrayNow, h, slotBusy_dropTrigAt, hidle]

/-! The array starts no further frame (`HOW` 0). -/

theorem stopArrayAfter_of_stopped (h : s.seq.running = false) (stamp t : Time) : stopArrayAfter s stamp t = s := by simp [stopArrayAfter, h]

theorem stopArrayAfter_of_running (h : s.seq.running = true) (stamp t : Time) : stopArrayAfter s stamp t =
    maybeHalt ((dropLate (dropTrigAt s) stamp t).modSeq (fun q => { q with stopping := true, armed := false })) := by
  simp [stopArrayAfter, h]

theorem maybeHalt_disarmed (h : s.seq.armed = false) : (maybeHalt s).seq.armed = false := by
  unfold maybeHalt
  split
  · rfl
  · exact h

/-! Either stop: what it leaves, and that the array has halted after it or is to halt. -/

/-- The stop of STOP_ARRAY, as its `HOW` says. -/
def stopBy (s : State) (how : Nat) (stamp t : Time) : State := if how = 1 then stopArrayNow s t else stopArrayAfter s stamp t

section
variable {how : Nat} {stamp : Time}

theorem stopBy_of_stopped (h : s.seq.running = false) : stopBy s how stamp t = s := by
  rw [stopBy, stopArrayNow_of_stopped h, stopArrayAfter_of_stopped h, ite_self]

theorem stopBy_keeps : Keeps [.regs, .ports, .arr, .pipe] s (stopBy s how stamp t) := by
  have hwithin : Within [.regs, .ports, .arr, .pipe] s (stopBy s how stamp t) := by simp [stopBy]
  exact hwithin.1

/-- A stop leaves the settings sets and drops the pending requests (R72, R91). -/
theorem setUp_stopBy (h : s.seq.running = true) : setUp (stopBy s how stamp t) = (s.arr.active, s.arr.staged, s.arr.pend, []) := by
  rw [← setUp_dropTrigAt, stopBy]
  split
  · cases hbusy : slotBusy s t with
    | true =>
      rw [stopArrayNow_of_busy h hbusy]
      exact setUp_modSeq fun _ => rfl
    | false =>
      rw [stopArrayNow_of_idle h hbusy]
      exact setUp_cutArray _
  · rw [stopArrayAfter_of_running h, setUp_maybeHalt]
    exact (setUp_modSeq fun _ => rfl).trans (setUp_dropLate ..)

theorem stopBy_disarms (h : s.seq.running = true) : (stopBy s how stamp t).seq.armed = false := by
  unfold stopBy
  split
  · cases hbusy : slotBusy s t with
    | true =>
      rw [stopArrayNow_of_busy h hbusy]
      rfl
    | false =>
      rw [stopArrayNow_of_idle h hbusy]
      rfl
  · rw [stopArrayAfter_of_running h]
    exact maybeHalt_disarmed rfl

theorem stopBy_stops (h : s.seq.running = true) : (stopBy s how stamp t).seq.running = false ∨ (stopBy s how stamp t).seq.stopping = true := by
  unfold stopBy
  split
  · exact stopArrayNow_stops t
  · rw [stopArrayAfter_of_running h]
    refine maybeHalt_halts_or_keeps.imp_right fun hkept => ?_
    rw [hkept]
    rfl

end

/-- STOP_ARRAY stops the array as its `HOW` says (R91). -/
theorem stopArray_acts (hu : u = s.at c.start) (hready : Ready u c 0x0209) (hlease : HoldsLease u c p lARRAY) (hlen : c.payload.length = 4)
    (hhow : u8 c.payload 0 ≤ 1) (hres : reserved c.payload 1 3 = none) :
    exec (.stopArray c) s = .next (okWith (stopBy u (u8 c.payload 0) c.stamp c.start) c 0x0209 .fast []) := by
  obtain ⟨hserved, harg⟩ := hready
  rw [show exec (.stopArray c) s = execStopArray c s from rfl, execStopArray]
  exact arrayCommand_acts hu hserved hlease hlen harg (by simp) (by simp [hhow, hres])

/-- A stopped array is left as it is; a running one drops the pending requests, and with `HOW` 1 halts at once or after the row slot in progress
(R91). -/
theorem stopArray_stops (hu : u = s.at c.start) (hready : Ready u c 0x0209) (hlease : HoldsLease u c p lARRAY) (hlen : c.payload.length = 4)
    (hhow : u8 c.payload 0 ≤ 1) (hres : reserved c.payload 1 3 = none) :
    ∃ s', exec (.stopArray c) s = .next (okWith s' c 0x0209 .fast []) ∧ Keeps [.regs, .ports, .arr, .pipe] u s' ∧
      s'.arr.active = u.arr.active ∧ s'.arr.staged = u.arr.staged ∧ s'.arr.pend = u.arr.pend ∧
      (u.seq.running = false → s' = u) ∧
      (u.seq.running = true → s'.seq.trigAt = [] ∧ s'.seq.armed = false ∧ (s'.seq.running = false ∨ s'.seq.stopping = true)) ∧
      (u.seq.running = true → u8 c.payload 0 = 1 → slotBusy u c.start = true → s'.seq.cut = true ∧ s'.seq.cur = u.seq.cur) ∧
      (u.seq.running = true → u8 c.payload 0 = 1 → slotBusy u c.start = false → s'.seq.running = false ∧ s'.seq.cur = none) := by
  refine ⟨_, stopArray_acts hu hready hlease hlen hhow hres, stopBy_keeps, ?_⟩
  cases hrun : u.seq.running with
  | false =>
    rw [stopBy_of_stopped hrun]
    exact ⟨rfl, rfl, rfl, fun _ => rfl, nofun, nofun, nofun⟩
  | true =>
    have hsetUp := setUp_stopBy (how := u8 c.payload 0) (stamp := c.stamp) (t := c.start) hrun
    simp only [setUp, Prod.mk.injEq] at hsetUp
    obtain ⟨hactive, hstaged, hpend, htrigAt⟩ := hsetUp
    refine ⟨hactive, hstaged, hpend, nofun, fun _ => ⟨htrigAt, stopBy_disarms hrun, stopBy_stops hrun⟩, fun _ hone hbusy => ?_,
      fun _ hone hidle => ?_⟩
    · rw [stopBy, if_pos hone, stopArrayNow_of_busy hrun hbusy]
      exact ⟨rfl, rfl⟩
    · rw [stopBy, if_pos hone, stopArrayNow_of_idle hrun hidle]
      exact ⟨rfl, rfl⟩

/-- Settles O17: clause by clause, the rule of each kind of trigger, of the start and of the stop. -/
theorem triggersStartsAndStops : Obligations.TriggersStartsAndStops := by
  unfold Obligations.TriggersStartsAndStops
  refine ⟨fun _ _ _ _ => triggerFrame_triggers, fun _ _ _ _ => trigRes_accepted_iff, fun _ _ _ _ => trigRes_ignored_iff,
    fun _ _ _ _ => triggerAt_joins, fun s u t d hu hmem hleast hcome => ?_, fun s u c p hu hready hlease hpl hactive hst hrun hpll => ?_,
    fun _ _ _ _ => startArray_refused, fun _ _ _ _ => stopArray_stops⟩
  · refine ⟨_, _, rfl, triggerAtDue_triggers hu hmem hleast hcome, takeTrigger_trigAt, fun hres => ?_, takeTrigger_overrun, takeTrigger_ignored⟩
    rw [takeTrigger_accepted hres]
    exact ⟨rfl, rfl, rfl, rfl⟩
  · have hwithin : Within [.arr] u (startArrayAt (u.modSeq (fun q => { q with relock := false })) c.stamp) := by simp
    refine ⟨_, startArray_starts hu hready hlease hpl hactive hst hrun hpll, hwithin.1, ?_⟩
    exact ⟨rfl, rfl, rfl, rfl, rfl, rfl, rfl, rfl, rfl, rfl, rfl, rfl, rfl⟩

end Sys2Proof.Machine
end

section
/-! SET_GOVERNOR and COMMIT_SETTINGS (R15, R74, R75, R79, R86, R89). The state `v` in which a commit has its spill region stays a variable until the
end: the kernel would compute the region itself where it compares two states that contain it. -/

namespace Sys2Proof.Machine

variable {s u v : State} {t stamp : Time} {c : Call} {p : PortIx} {f : Frame} {n : Undo}

/-! ## The governor on and off (R79, R86) -/

theorem getD_map_zipIdx {α β : Type} {l : List α} {k : Nat} (hk : k < l.length) (g : α × Nat → β) (d : β) (a : α) :
    (l.zipIdx.map g).getD k d = g (l.getD k a, k) := by
  simp [List.getD_eq_getElem?_getD, hk]

theorem governorOff_of_off (h : s.arr.gov.on = false) : governorOff s = s := by simp [governorOff, h]

/-- A governor that goes off drops what it has not applied, and leaves the active and the pending set. -/
theorem governorOff_drops (h : s.arr.gov.on = true) :
    (governorOff s).arr.active = s.arr.active ∧ (governorOff s).arr.pend = s.arr.pend ∧ (governorOff s).arr.gov.on = false ∧
    (governorOff s).arr.gov.out = [] ∧ (governorOff s).arr.gov.due = [] ∧ (governorOff s).arr.gov.vals = [] := by
  simp only [governorOff, h, if_true]
  exact ⟨rfl, rfl, rfl, rfl, rfl, rfl⟩

/-- A tile's settings `x`, with the values of `y` for the exposures that a set uses. -/
def takeOver (g : Settings) (y x : TileSet) : TileSet :=
  let up (l m : List Nat) : List Nat := l.zipIdx.map (fun z => if z.2 ≤ g.lastExp then m.getD z.2 z.1 else z.1)
  { x with ticks := up x.ticks y.ticks, ag := up x.ag y.ag, dg := up x.dg y.dg }

/-- The values in force of the governor's tiles become the staged ones (R79). -/
theorem governorOff_stages (h : s.arr.gov.on = true) {x : TileIx} (hx : x.val < s.arr.staged.tiles.length) :
    (governorOff s).arr.staged.tiles.getD x.val TileSet.reset =
      if x ∈ s.arr.gov.mask ∧ (∃ w ∈ s.arr.gov.vals, w.tile = x) then
        takeOver s.arr.active (s.arr.active.tiles.getD x.val (s.arr.staged.tiles.getD x.val TileSet.reset))
          (s.arr.staged.tiles.getD x.val TileSet.reset)
      else s.arr.staged.tiles.getD x.val TileSet.reset := by
  simp only [governorOff, h, if_true]
  refine (getD_map_zipIdx hx _ _ TileSet.reset).trans (if_congr ?_ rfl rfl)
  simp [Fin.val_inj]

theorem slice_one (bs : List Byte) (k : Nat) : slice bs k 1 = [bs.getD k 0] := by
  by_cases hk : k < bs.length
  · simp only [slice, List.drop_eq_getElem_cons hk, List.take_succ_cons, List.take_zero, List.length_singleton, List.getD_eq_getElem _ _ hk]
    rfl
  · simp only [slice, List.drop_eq_nil_of_le (not_lt.mp hk), List.getD_eq_default _ _ (not_lt.mp hk)]
    rfl

theorem reserved_one {bs : List Byte} {k : Nat} (h : u8 bs k = 0) : reserved bs k 1 = none := by
  have hbyte : bs.getD k 0 = 0 := BitVec.eq_of_toNat_eq h
  simp only [reserved, slice_one, hbyte]
  rfl

/-- What SET_GOVERNOR asks of its fields (R86). -/
def governorFields (pl : List Byte) : List (Option Reject) :=
  let range (off lo hi : Nat) : Option Reject := argOk (decide (lo ≤ u16 pl off ∧ u16 pl off ≤ hi)) off
  [argOk (decide (u8 pl 0 ≤ 1)) 0, reserved pl 1 1, range 2 256 65520, argOk (decide (16 ≤ u8 pl 4 ∧ u8 pl 4 ≤ 64)) 4,
    argOk (decide (16 ≤ u8 pl 5 ∧ u8 pl 5 ≤ 32)) 5, range 6 1 4096, range 8 1 4096, range 10 1 4096,
    argOk (decide (1 ≤ u32 pl 12 ∧ u32 pl 12 ≤ 16777215)) 12, range 16 16 256, range 18 1024 16383]

/-- SET_GOVERNOR turns the governor on with its limits, or off: then its values in force become the staged ones of its tiles (R79, R86). -/
theorem setGovernor_turnsOnOrOff (hu : u = s.at c.start) (hready : Ready u c 0x0205) (hlease : HoldsLease u c p lARRAY) (hlen : c.payload.length = 44)
    (hfields : ∀ x ∈ governorFields c.payload, x = none) (hswitch : u8 c.payload 0 ≤ 1) :
    ∃ s', exec (.setGovernor c) s = .next (okWith s' c 0x0205 .fast []) ∧ Keeps [.arr] u s' ∧ s'.arr.active = u.arr.active ∧
      s'.arr.pend = u.arr.pend ∧
      (u8 c.payload 0 = 1 → s'.arr.gov.on = true ∧ s'.arr.gov.target = u16 c.payload 2 ∧ s'.arr.gov.nbr = u8 c.payload 4 ∧
        s'.arr.gov.chg = u8 c.payload 5 ∧ s'.arr.gov.ratios = [u16 c.payload 6, u16 c.payload 8, u16 c.payload 10] ∧
        s'.arr.gov.emax = u32 c.payload 12 ∧ s'.arr.gov.agmax = u16 c.payload 16 ∧ s'.arr.gov.dgmax = u16 c.payload 18 ∧
        s'.arr.gov.mask = tileMask (c.payload.drop 20) ∧ s'.arr.staged = u.arr.staged) ∧
      (u8 c.payload 0 = 0 → u.arr.gov.on = false → s' = u) ∧
      (u8 c.payload 0 = 0 → u.arr.gov.on = true → s'.arr.gov.on = false ∧ s'.arr.gov.out = [] ∧ s'.arr.gov.due = [] ∧
        s'.arr.gov.vals = [] ∧ ∀ t : TileIx, t.val < u.arr.staged.tiles.length → s'.arr.staged.tiles.getD t.val TileSet.reset =
          if t ∈ u.arr.gov.mask ∧ (∃ w ∈ u.arr.gov.vals, w.tile = t) then
            takeOver u.arr.active (u.arr.active.tiles.getD t.val (u.arr.staged.tiles.getD t.val TileSet.reset))
              (u.arr.staged.tiles.getD t.val TileSet.reset)
          else u.arr.staged.tiles.getD t.val TileSet.reset) := by
  obtain ⟨hserved, harg⟩ := hready
  rw [show exec (.setGovernor c) s = execSetGovernor c s from rfl, execSetGovernor]
  have hwithin : ∀ {q : Prop} [Decidable q] (g : Gov → Gov), Within [.arr] u (if q then governorOff u else u.modGov g) := fun g => by simp
  refine ⟨_, arrayCommand_acts hu hserved hlease hlen harg (by simp) hfields, (hwithin _).1, ?_⟩
  rcases Nat.le_one_iff_eq_zero_or_eq_one.mp hswitch with hzero | hone
  · rw [if_pos hzero]
    have hnotOne : u8 c.payload 0 ≠ 1 := by omega
    cases hon : u.arr.gov.on with
    | false =>
      rw [governorOff_of_off hon]
      exact ⟨rfl, rfl, fun h => absurd h hnotOne, fun _ _ => rfl, nofun⟩
    | true =>
      obtain ⟨hactive, hpend, hoff, hout, hdue, hvals⟩ := governorOff_drops hon
      exact ⟨hactive, hpend, fun h => absurd h hnotOne, nofun, fun _ _ => ⟨hoff, hout, hdue, hvals, fun _ => governorOff_stages hon⟩⟩
  · have hnotZero : u8 c.payload 0 ≠ 0 := by omega
    rw [if_neg hnotZero]
    exact ⟨rfl, rfl, fun _ => ⟨rfl, rfl, rfl, rfl, rfl, rfl, rfl, rfl, rfl, rfl⟩, fun h => absurd h hnotZero, fun h => absurd h hnotZero⟩

/-! ## The latch undone (R15, R75) -/

theorem unlatch_of_started (h : ∀ f : Frame, s.seq.latched = some f → f.elp ≤ stamp) : unlatch s stamp = s := by
  unfold unlatch
  split
  · next f n hf hn => exact if_neg (not_lt.mpr (h f hf))
  · rfl

/-- A commit stamped before the latched frame's ELP gives back the frame's number and the set that the latch replaced; the staged set stays. -/
theorem unlatch_undoes (hf : s.seq.latched = some f) (hn : s.arr.undo = some n) (hstamp : stamp < f.elp) :
    (unlatch s stamp).arr.active = n.active ∧ (unlatch s stamp).arr.staged = s.arr.staged ∧ (unlatch s stamp).seq.nextNum = f.num ∧
      (unlatch s stamp).seq.latched = none := by
  simp only [unlatch, hf, hn, hstamp, if_true]
  split <;> exact ⟨rfl, rfl, rfl, rfl⟩

/-! ## The commit (R74, R75, R89, R188) -/

@[simp] theorem takeRegion_arr (b n : Nat) : (takeRegion s b n).arr = s.arr := Within.arr (L := Part.but [.arr]) (by simp) (by simp)

/-- The array but for the region that a commit has reserved for its spill. -/
def besideSpill (s : State) : ArrayS := { s.arr with spillPend := none }

theorem besideSpill_either {q : Prop} [Decidable q] {a b : State} {x : ArrayS} (ha : besideSpill a = x) (hb : besideSpill b = x) :
    besideSpill (if q then a else b) = x := by
  split
  · exact ha
  · exact hb

theorem besideSpill_reserveSpill (g : Settings) : besideSpill (reserveSpill s g) = besideSpill s := by
  unfold reserveSpill
  cases s.arr.spillPend with
  | none =>
    refine besideSpill_either rfl ?_
    split
    · simp only [besideSpill, takeRegion_arr]
    · rfl
  | some r =>
    refine besideSpill_either rfl ?_
    split
    · simp only [besideSpill, takeRegion_arr]
      rfl
    · rfl

theorem fields_of_besideSpill {w : State} (h : besideSpill v = besideSpill w) :
    v.arr.staged = w.arr.staged ∧ v.arr.active = w.arr.active ∧ v.seq = w.seq := by
  simp only [besideSpill, ArrayS.mk.injEq] at h
  obtain ⟨hstaged, -, hactive, hseq, -⟩ := h
  exact ⟨hstaged, hactive, hseq⟩

/-- The staged set becomes the pending one, with its settings ID and its stamp; where the next frame does not wait for a trigger, nothing is armed. -/
def pendStaged (s : State) (c : Call) : State :=
  let s := { s with arr := { s.arr with pend := some ⟨u16 c.arg 0, c.stamp, s.arr.staged⟩ } }
  if trigNext s c.start then s else s.modSeq (fun q => { q with armed := false })

theorem pendStaged_copies : (pendStaged s c).arr.pend = some ⟨u16 c.arg 0, c.stamp, s.arr.staged⟩ ∧
    (pendStaged s c).arr.staged = s.arr.staged ∧ (pendStaged s c).arr.active = s.arr.active ∧
    (pendStaged s c).seq.nextNum = s.seq.nextNum ∧ (pendStaged s c).seq.latched = s.seq.latched := by
  simp only [pendStaged]
  split <;> exact ⟨rfl, rfl, rfl, rfl, rfl⟩

/-- What COMMIT_SETTINGS answers: the frame that the commit of `v` is for, and the DTIME of its ELP where that is known (R89). -/
def commitAnswer (v w : State) (t : Time) : List Byte :=
  leBytes 4 (commitTarget v t).1 ++ leBytes 8 (match (commitTarget v t).2 with | some x => w.dtime x | none => 0)

/-- A commit of a staged set that breaks no rule is pending; where it has undone a latch and the ELP has come, the frame latches anew (R15, R74). -/
theorem commitSettings_acts (hu : u = s.at c.start) (hserved : Served u c 0x0204) (harg : argZero c 2 = none) (hlease : HoldsLease u c p lARRAY)
    (hpl : c.payload = []) (hstaged : stagedFailing u c.start = []) (hv : reserveSpill (unlatch u c.stamp) u.arr.staged = v) :
    ∃ w, exec (.commitSettings c) s = .next (okWith w c 0x0204 .immediate (commitAnswer (pendStaged v c) w c.start)) ∧
      w = if (u.seq.latched.any (fun f => decide (c.stamp < f.elp)) && u.arr.undo.isSome) && latchDue (pendStaged v c) c.start
        then latchNext (pendStaged v c) c.start else pendStaged v c := by
  refine ⟨_, ?_, rfl⟩
  rw [show exec (.commitSettings c) s = execCommitSettings c s from rfl, execCommitSettings,
    arrayCommand_acts hu hserved hlease (by simp [hpl]) harg (by simp) (by simp [hstaged]), hv]
  rfl

/-- A latch makes the planned set active and takes the next number (R75, R76). -/
theorem latchNext_takesPlan : (latchNext s t).arr.active = (plan s t).set ∧ (latchNext s t).seq.nextNum = (s.seq.nextNum + 1) % 2 ^ 32 := by
  obtain ⟨f, hlatched, -⟩ := latchFrame_latched (s := s) (plan s t)
  obtain ⟨-, -, hnext⟩ := latchFrame_keeps (s := s) (plan s t)
  cases hb : s.seq.begun.isSome with
  | true =>
    obtain ⟨hactive, -, -, hcount, -⟩ := enterFrame_keeps (s := latchFrame s (plan s t)) f t
    rw [latchNext_of_begun hb hlatched]
    exact ⟨hactive, hcount.trans hnext⟩
  | false =>
    rw [latchNext_of_waiting hb]
    exact ⟨rfl, hnext⟩

/-- With a commit pending, the staged set is copied, and the sets, the next frame's number and the latch are as the undone latch has left them. -/
theorem pendStaged_reserved (hv : reserveSpill (unlatch u c.stamp) u.arr.staged = v) :
    (pendStaged v c).arr.pend = some ⟨u16 c.arg 0, c.stamp, (unlatch u c.stamp).arr.staged⟩ ∧
    (pendStaged v c).arr.staged = (unlatch u c.stamp).arr.staged ∧ (pendStaged v c).arr.active = (unlatch u c.stamp).arr.active ∧
    (pendStaged v c).seq.nextNum = (unlatch u c.stamp).seq.nextNum ∧ (pendStaged v c).seq.latched = (unlatch u c.stamp).seq.latched := by
  have hbeside : besideSpill v = besideSpill (unlatch u c.stamp) := by rw [← hv, besideSpill_reserveSpill]
  obtain ⟨hstaged, hactive, hseq⟩ := fields_of_besideSpill hbeside
  rw [← hstaged, ← hactive, ← hseq]
  exact pendStaged_copies

/-- Where no latch is undone, COMMIT_SETTINGS makes the staged set pending (R74, R89). -/
theorem commitSettings_pends (hu : u = s.at c.start) (hserved : Served u c 0x0204) (harg : argZero c 2 = none) (hlease : HoldsLease u c p lARRAY)
    (hpl : c.payload = []) (hstaged : stagedFailing u c.start = []) (hv : reserveSpill (unlatch u c.stamp) u.arr.staged = v)
    (hstarted : ∀ f : Frame, u.seq.latched = some f → f.elp ≤ c.stamp) :
    ∃ s', exec (.commitSettings c) s = .next (okWith s' c 0x0204 .immediate (commitAnswer s' s' c.start)) ∧
      s'.arr.pend = some ⟨u16 c.arg 0, c.stamp, u.arr.staged⟩ ∧ s'.arr.staged = u.arr.staged ∧ s'.arr.active = u.arr.active := by
  obtain ⟨w, hexec, hw⟩ := commitSettings_acts hu hserved harg hlease hpl hstaged hv
  have hnone : u.seq.latched.any (fun f => decide (c.stamp < f.elp)) = false := by
    cases hf : u.seq.latched with
    | none => rfl
    | some f => simpa using hstarted f hf
  rw [hnone, Bool.false_and, Bool.false_and, if_neg nofun] at hw
  obtain ⟨hpend, hcopied, hactive, -, -⟩ := pendStaged_reserved (c := c) hv
  rw [unlatch_of_started hstarted, ← hw] at hpend hcopied hactive
  rw [← hw] at hexec
  exact ⟨w, hexec, hpend, hcopied, hactive⟩

/-- Stamped before the ELP of a frame that has latched and not started, COMMIT_SETTINGS undoes the latch, and the frame latches anew where its ELP has
come (R15, R75). -/
theorem commitSettings_undoes (hu : u = s.at c.start) (hserved : Served u c 0x0204) (harg : argZero c 2 = none) (hlease : HoldsLease u c p lARRAY)
    (hpl : c.payload = []) (hstaged : stagedFailing u c.start = []) (hv : reserveSpill (unlatch u c.stamp) u.arr.staged = v)
    (hf : u.seq.latched = some f) (hstamp : c.stamp < f.elp) (hn : u.arr.undo = some n) :
    ∃ s' s'' pl, exec (.commitSettings c) s = .next (okWith s'' c 0x0204 .immediate pl) ∧ pl.length = 12 ∧
      s'.arr.pend = some ⟨u16 c.arg 0, c.stamp, u.arr.staged⟩ ∧ s'.arr.active = n.active ∧ s'.seq.nextNum = f.num ∧ s'.seq.latched = none ∧
      (latchDue s' c.start = false → s'' = s') ∧
      (latchDue s' c.start = true → s''.arr.active = (plan s' c.start).set ∧ s''.seq.nextNum = (f.num + 1) % 2 ^ 32) := by
  obtain ⟨w, hexec, hw⟩ := commitSettings_acts hu hserved harg hlease hpl hstaged hv
  have hlate : (u.seq.latched.any (fun f => decide (c.stamp < f.elp)) && u.arr.undo.isSome) = true := by simp [hf, hn, hstamp]
  rw [hlate, Bool.true_and] at hw
  obtain ⟨hpend, -, hactive, hnext, hlatched⟩ := pendStaged_reserved (c := c) hv
  obtain ⟨hactive', hstaged', hnext', hlatched'⟩ := unlatch_undoes hf hn hstamp
  refine ⟨pendStaged v c, w, _, hexec, by simp [commitAnswer], hstaged' ▸ hpend, hactive.trans hactive', hnext.trans hnext',
    hlatched.trans hlatched', fun hdue => ?_, fun hdue => ?_⟩
  · rw [hw, hdue, if_neg nofun]
  · rw [hw, hdue, if_pos rfl, ← hnext', ← hnext]
    exact latchNext_takesPlan

/-- Settles O16: the governor goes on or off, and a commit is pending, alone or with the latch of the next frame undone. -/
theorem governorAndCommit : Obligations.GovernorAndCommit := by
  unfold Obligations.GovernorAndCommit
  refine ⟨fun s u c p hu hready hlease hlen h0 h1 h2 h2' h4 h4' h5 h5' h6 h6' h8 h8' h10 h10' h12 h12' h16 h16' h18 h18' => ?_, ?_, ?_⟩
  · refine setGovernor_turnsOnOrOff hu hready hlease hlen ?_ h0
    simp [governorFields, reserved_one h1, *]
  · exact fun s u c p hu hserved harg hlease hpl hstaged hstarted => commitSettings_pends hu hserved harg hlease hpl hstaged rfl hstarted
  · exact fun s u c p f n hu hserved harg hlease hpl hstaged hf hstamp hn =>
      commitSettings_undoes hu hserved harg hlease hpl hstaged rfl hf hstamp hn

end Sys2Proof.Machine
end

section
/-! Views and the frames in progress: what an update of a view does to each view, which frames a removal leaves, and which operations leave the owners
of the views alone. -/

namespace Sys2Proof.Machine

variable {s s' : State} {v w n : Nat} {f : VFrame} {t : Time}

/-! ## One view -/

theorem view_of_views (h : s'.pipe.views = s.pipe.views) (v : Nat) : s'.view v = s.view v := by simp only [State.view, h]

theorem modView_view_self (h : v < s.pipe.views.length) (g : View → View) : (s.modView v g).view v = g (s.view v) := modAt_getD_self _ _ _ _ h

theorem modView_view_other (h : w ≠ v) (g : View → View) : (s.modView v g).view w = s.view w := modAt_getD_other _ _ _ _ _ h.symm

@[simp] theorem releaseAuxStore_pipe (n vc : Nat) : (releaseAuxStore s n vc).pipe = s.pipe := Within.pipe (L := Part.but [.pipe]) (by simp) (by simp)
@[simp] theorem ringForget_pipe (v : Nat) (t : Time) : (ringForget s v t).pipe = s.pipe := Within.pipe (L := Part.but [.pipe]) (by simp) (by simp)
@[simp] theorem notifyDrop_pipe (v reason first count : Nat) (t : Time) : (notifyDrop s v reason first count t).pipe = s.pipe :=
  Within.pipe (L := Part.but [.pipe]) (by simp) (by simp)

/-! ## Frames that are removed -/

theorem mem_frames_removeVf : f ∈ (removeVf s v n).pipe.frames ↔ f ∈ s.pipe.frames ∧ ¬(f.view.val = v ∧ f.frame = n) := by
  simp [removeVf, State.modPipe, imp_iff_not_or]

/-- Of a list of frames that are removed one by one, none is left. -/
theorem not_named_of_mem_foldl_removeVf {l : List VFrame} (h : f ∈ (l.foldl (fun s g => removeVf s v g.frame) s).pipe.frames) :
    f ∈ s.pipe.frames ∧ ∀ g ∈ l, ¬(f.view.val = v ∧ f.frame = g.frame) := by
  induction l generalizing s with
  | nil => exact ⟨h, nofun⟩
  | cons g l ih =>
    obtain ⟨hmem, hrest⟩ := ih h
    obtain ⟨hs, hg⟩ := mem_frames_removeVf.mp hmem
    exact ⟨hs, List.forall_mem_cons.mpr ⟨hg, hrest⟩⟩

/-- With every frame of a view removed, the frames left are those of other views. -/
theorem other_of_mem_removeAll (h : f ∈ ((s.pipe.frames.filter (fun g => decide (g.view.val = v))).foldl
    (fun s g => removeVf s v g.frame) s).pipe.frames) : f.view.val ≠ v := by
  intro hv
  obtain ⟨hmem, hnot⟩ := not_named_of_mem_foldl_removeVf h
  exact hnot f (List.mem_filter.mpr ⟨hmem, decide_eq_true hv⟩) ⟨hv, rfl⟩

/-! ## The owners of the views -/

/-- The owner of each view. -/
def viewOwners (s : State) : List PortIx := s.pipe.views.map View.owner

theorem views_length_of_viewOwners (h : viewOwners s' = viewOwners s) : s'.pipe.views.length = s.pipe.views.length := by
  simpa [viewOwners] using congrArg List.length h

theorem owner_eq_getD (s : State) (v : Nat) : (s.view v).owner = (viewOwners s).getD v View.reset.owner := by
  simp only [State.view, viewOwners, List.getD_eq_getElem?_getD, List.getElem?_map, Option.getD_map]

theorem owner_of_viewOwners (h : viewOwners s' = viewOwners s) (v : Nat) : (s'.view v).owner = (s.view v).owner := by
  rw [owner_eq_getD, owner_eq_getD, h]

theorem map_modAt_of_proj {α β : Type} {g : α → α} {k : α → β} (h : ∀ a, k (g a) = k a) (l : List α) (i : Nat) : (modAt l i g).map k = l.map k := by
  induction l generalizing i with
  | nil => rfl
  | cons a l ih => cases i with
    | zero => simp [modAt, h]
    | succ i => simp [modAt, ih]

theorem modView_viewOwners {g : View → View} (h : ∀ w, (g w).owner = w.owner) (v : Nat) : viewOwners (s.modView v g) = viewOwners s :=
  map_modAt_of_proj h _ _

theorem startVf_viewOwners (f : VFrame) : viewOwners (startVf s f) = viewOwners s := by
  unfold startVf
  split <;> rfl

theorem endVf_viewOwners (f : VFrame) (extra : Nat) (t : Time) : viewOwners (endVf s f extra t) = viewOwners s :=
  (modView_viewOwners (by intro _; rfl) _).trans (startVf_viewOwners f)

theorem truncateVf_viewOwners (f : VFrame) (extra : Nat) (t : Time) : viewOwners (truncateVf s f extra t) = viewOwners s := by
  unfold truncateVf
  split
  · exact endVf_viewOwners f _ t
  · rfl

end Sys2Proof.Machine
end

section
/-! View commands: START_VIEW, STOP_VIEW and the end of a stop, GET_STATS and FRAME_DROP_REPEAT (R125, R126, R128, R139, R154, R156, R157, R169). -/

namespace Sys2Proof.Machine

variable {s u s' : State} {c : Call} {p : PortIx} {v : ViewIx} {t a : Time}

/-! ## What a view command carries -/

theorem toNat_byte_of_lt {n : Nat} (h : n < 256) : (byte n).toNat = n := by simpa [byte] using h

/-- The first byte of a view command names its view. -/
theorem u8_viewByte {pl : List Byte} (v : ViewIx) (r : List Byte) (h : pl = byte v.val :: r) : u8 pl 0 = v.val := by
  subst h
  exact toNat_byte_of_lt (by omega)

/-- The owner passes, and a SAFETY host where the command allows one (R124). -/
theorem needOwner_of_owner {b : Bool} (hsrc : c.src = .port p) (h : (u.view v.val).owner = p ∨ (b = true ∧ portRole u p = .safety)) :
    needOwner u c v.val b = none := by
  simp only [needOwner, hsrc]
  refine need_true ?_
  rcases h with h | ⟨hb, h⟩ <;> simp [*]

theorem eq_zero_of_leVal {l : List Byte} (h : leVal l = 0) : ∀ b ∈ l, b = 0 := by
  induction l with
  | nil => exact nofun
  | cons b l ih =>
    simp only [leVal] at h
    exact List.forall_mem_cons.mpr ⟨BitVec.eq_of_toNat_eq (by simp; omega), ih (by omega)⟩

/-- A field that reads 0 has no byte set. -/
theorem reserved_of_leVal {pl : List Byte} {off len : Nat} (h : leVal (slice pl off len) = 0) : reserved pl off len = none := by
  have hnone : (slice pl off len).findIdx? (fun b => decide (b ≠ 0)) = none :=
    List.findIdx?_eq_none_iff.mpr (fun b hb => by simp [eq_zero_of_leVal h b hb])
  simp only [reserved, hnone]

/-! ## START_VIEW (R126, R156) -/

/-- Whether a view keeps its source's size depends on the registers alone. -/
theorem unscaled_of_regs (h : s'.regs = s.regs) (p : ViewP) : unscaled s' p = unscaled s p := by
  simp only [unscaled, viewDt, auxDt, State.fld, State.reg, h]

/-- A start takes the frame stores it needs, which changes neither a view nor a register, and then makes the view RUNNING with its first frame named
and its resources claimed (R126). -/
theorem beginView_starts (n : Nat) (t : Time) : ∃ (r : State) (g : Option (Nat × Nat)), r.pipe = s.pipe ∧ r.regs = s.regs ∧
    beginView s n t = r.modView n (fun w => { w with
      st := .running, ctx := viewCtx r (s.view n).p, lmem := viewLmem r (s.view n).p, first := firstFrame s (s.view n).p, since := t, takeFrom := t
      region := g, store := 0, stopHow := none, stopAt := none, stopCall := false, del := false, cut := none, missing := false, missCount := 0
      missAt := none }) := by
  unfold beginView
  extract_lets p n first base taken r own
  clear_value base
  have hwithin : Within [.aux, .mem, .fm] s r := by
    cases base <;> simp [r, taken]
  exact ⟨r, own, hwithin.pipe (by simp), hwithin.1.2 .regs (by simp), rfl⟩

/-- START_VIEW of the owner starts a CREATED view that passes its checks (R126, R156). -/
theorem startView_begins (hu : u = s.at c.start) (hready : Ready u c 0x0303) (hsrc : c.src = .port p) (hpl : c.payload = [byte v.val, 0, 0, 0])
    (hst : (u.view v.val).st = .created) (howner : (u.view v.val).owner = p) (hactive : needActive u c = none) (hpw : u.pw.st = .active)
    (hchecks : ∀ x ∈ startChecks u v.val c.start, x = none) :
    exec (.startView c) s = .next (okWith (beginView u v.val c.start) c 0x0303 .fast
      (leBytes 4 ((beginView u v.val c.start).view v.val).first)) := by
  obtain ⟨hserved, harg⟩ := hready
  rw [show exec (.startView c) s = execStartView c s from rfl, execStartView, u8_viewByte v _ hpl]
  subst hu
  refine (command_acts hserved (List.forall_mem_append.mpr ⟨?_, hchecks⟩) (by simp)).trans (by simp only [hpw, if_true])
  simp only [List.forall_mem_cons]
  exact ⟨need_true (by simp [hpl]), needOwner_of_owner hsrc (.inl howner), harg, need_true (by simp [hst]; omega), by rw [hpl]; rfl, hactive, nofun⟩

/-! ## STOP_VIEW (R139, R156) -/

/-- STOP_VIEW of the owner or of a SAFETY host orders a running view to stop (R139). -/
theorem stopView_orders {how : Nat} (hu : u = s.at c.start) (hready : Ready u c 0x0304) (hsrc : c.src = .port p) (hhow : how ≤ 1)
    (hpl : c.payload = [byte v.val, byte how, 0, 0]) (hst : (u.view v.val).st = .running)
    (hcaller : (u.view v.val).owner = p ∨ portRole u p = .safety) :
    ∃ call, exec (.stopView c) s = .next (okWith (orderStop u v.val how call false c.start) c 0x0304 .fast []) := by
  obtain ⟨hserved, harg⟩ := hready
  have hbyte : u8 c.payload 1 = how := by
    rw [hpl]
    exact toNat_byte_of_lt (by omega)
  rw [show exec (.stopView c) s = execStopView c s from rfl, execStopView, u8_viewByte v _ hpl, hbyte]
  subst hu
  refine ⟨_, command_acts hserved ?_ nofun⟩
  simp only [List.forall_mem_cons, argOk_eq_none]
  exact ⟨need_true (by simp [hpl]), needOwner_of_owner hsrc (hcaller.imp_right (⟨rfl, ·⟩)), harg, decide_eq_true (by omega), decide_eq_true hhow,
    by rw [hpl]; rfl, need_true (decide_eq_true hst), nofun⟩

/-- Of two stops the one that acts sooner holds. -/
theorem orderStop_view_self {n how : Nat} {call del : Bool} (h : n < s.pipe.views.length) :
    ((orderStop s n how call del t).view n).stopHow = some (max ((s.view n).stopHow.getD how) how) ∧
    ((orderStop s n how call del t).view n).st = (s.view n).st := by
  rw [orderStop, modView_view_self h]
  refine ⟨?_, rfl⟩
  cases (s.view n).stopHow <;> simp

/-! ## The end of a stop (R125, R139) -/

/-- A stop that waits is ready where its view has no frame in progress, or with `HOW` 1 none of its jobs runs (R139). -/
theorem stopReady_iff : stopReady u v = true ↔
    ((u.view v.val).stopHow = some 0 ∧ ∀ f ∈ u.pipe.frames, f.view ≠ v) ∨
    (∃ h : Nat, h ≠ 0 ∧ (u.view v.val).stopHow = some h ∧ ∀ j e, u.pipe.run = some (j, e) → j.view ≠ v) := by
  unfold stopReady
  split
  · next h => simp [h]
  · next k hk h =>
    have hpos : 0 < k := Nat.pos_of_ne_zero hk
    cases hrun : u.pipe.run with
    | none => simp [h, hpos.ne']
    | some x =>
      obtain ⟨j, e⟩ := x
      simp [h, hpos, hpos.ne']
  · next h => simp [h]

/-- A view that gives back what it holds is CREATED with nothing claimed, and has no frame in progress (R125, R139). -/
theorem releaseView_view (n : Nat) (h : n < s.pipe.views.length) :
    (releaseView s n).view n = { s.view n with
      st := .created, ctx := 0, lmem := 0, region := none, stopHow := none, stopAt := none, stopCall := false, cut := none, missing := false
      missCount := 0, missAt := none } ∧
    (releaseView s n).pipe.views.length = s.pipe.views.length ∧ ∀ f ∈ (releaseView s n).pipe.frames, f.view.val ≠ n := by
  unfold releaseView
  extract_lets w freed cleared idle created
  have hfreed : freed.pipe = s.pipe := by
    simp only [freed]
    split <;> rfl
  have hviews : cleared.pipe.views = s.pipe.views := by
    rw [← hfreed]
    exact foldl_keeps (g := fun r : State => r.pipe.views) (fun r (f : VFrame) => (rfl : (removeVf r n f.frame).pipe.views = r.pipe.views)) _
  have hself : created.view n = _ := modView_view_self (show n < idle.pipe.views.length from hviews ▸ h) _
  have hpipe : (if w.p.source ≠ 0 ∧ w.p.order = 1 then releaseAuxStore created (w.p.source - 1) w.p.vc else created).pipe = created.pipe := by
    split
    · exact releaseAuxStore_pipe ..
    · rfl
  rw [view_of_views (congrArg Pipe.views hpipe), hpipe]
  refine ⟨?_, ?_, fun f hf => other_of_mem_removeAll (s := freed) hf⟩
  · rw [hself, view_of_views (show idle.pipe.views = s.pipe.views from hviews)]
  · exact (modAt_length ..).trans (congrArg List.length hviews)

/-- The frames of a view end where they stand: the first step of its stop. -/
def cutFrames (s : State) (v : Nat) (t : Time) : State :=
  (s.pipe.frames.filter (fun f => decide (f.view.val = v))).foldl (fun s f => truncateVf s f 0 t) s

theorem cutFrames_viewOwners (n : Nat) (t : Time) : viewOwners (cutFrames s n t) = viewOwners s :=
  foldl_keeps (fun _ f => truncateVf_viewOwners f 0 t) _

/-- A stop cuts the frames of its view and gives back what the view holds; then the view goes to FREE where it is being deleted (R125, R139). -/
theorem stopViewNow_releases (n : Nat) (t : Time) :
    ∃ r : State, r.pipe = (releaseView (cutFrames s n t) n).pipe ∧ stopViewNow s n t = freeDeleted r n (s.view n).del t := by
  refine ⟨_, ?_, rfl⟩
  split
  · exact notifyDrop_pipe ..
  · rfl

/-- VIEW_STOP_DONE leaves the view CREATED with nothing claimed, or FREE where DELETE_VIEW waits (R125, R139). -/
theorem stopViewNow_view (h : v.val < s.pipe.views.length) :
    (∀ f ∈ (stopViewNow s v.val t).pipe.frames, f.view ≠ v) ∧
    ((s.view v.val).del = true → (stopViewNow s v.val t).view v.val = View.reset) ∧
    ((s.view v.val).del = false → ((stopViewNow s v.val t).view v.val).st = .created ∧ ((stopViewNow s v.val t).view v.val).ctx = 0 ∧
      ((stopViewNow s v.val t).view v.val).lmem = 0 ∧ ((stopViewNow s v.val t).view v.val).stopHow = none ∧
      ((stopViewNow s v.val t).view v.val).region = none ∧ ((stopViewNow s v.val t).view v.val).owner = (s.view v.val).owner) := by
  obtain ⟨r, hr, hstop⟩ := stopViewNow_releases (s := s) v.val t
  have hcut := cutFrames_viewOwners (s := s) v.val t
  obtain ⟨hview, hlength, hframes⟩ := releaseView_view (s := cutFrames s v.val t) v.val (by rw [views_length_of_viewOwners hcut]; exact h)
  have hframes' : ∀ f ∈ r.pipe.frames, f.view ≠ v := fun f hf hv => hframes f (hr ▸ hf) (congrArg Fin.val hv)
  rw [hstop, freeDeleted]
  cases hdel : (s.view v.val).del with
  | true =>
    refine ⟨fun f hf => hframes' f (by simpa using hf), fun _ => ?_, nofun⟩
    rw [if_pos rfl, view_of_views (congrArg Pipe.views (ringForget_pipe ..)), modView_view_self]
    rw [hr, hlength, views_length_of_viewOwners hcut]
    exact h
  | false =>
    rw [if_neg nofun, view_of_views (congrArg Pipe.views hr), hview]
    exact ⟨hframes', nofun, fun _ => ⟨rfl, rfl, rfl, rfl, rfl, owner_of_viewOwners hcut v.val⟩⟩

theorem viewStopDone_stops (hu : u = s.at t) (hready : stopReady u v = true) : exec (.viewStopDone t v) s = .next (stopViewNow u v.val t) := by
  rw [show exec (.viewStopDone t v) s = execViewStopDone t v s from rfl, execViewStopDone]
  exact event_due_at hu hready

/-! ## GET_STATS (R154, R157) -/

/-- GET_STATS of a held record returns the items asked for (R157). -/
theorem getStats_returns {r : StatRec} {items size most off : Nat} (hu : u = s.at c.start) (hready : Ready u c 0x0305) (hlen : c.payload.length = 12)
    (hsrc : u8 c.payload 0 ≤ 4) (hsec : u8 c.payload 1 ≤ 3) (htile : u8 c.payload 1 = 2 → u8 c.payload 0 = 0)
    (hsection : statSection (u8 c.payload 0) (u8 c.payload 1) = (items, size, most, off)) (hfirst : u16 c.payload 2 < items)
    (hleast : 1 ≤ u16 c.payload 4) (hmost : u16 c.payload 4 ≤ most) (hlast : u16 c.payload 2 + u16 c.payload 4 ≤ items)
    (hzero : u16 c.payload 6 = 0) (hheld : statHeld u (u8 c.payload 0) (u32 c.payload 8) = some r) :
    exec (.getStats c) s = .next (okWith u c 0x0305 .fast (leBytes 4 r.frame ++ leBytes 2 r.id ++
      [byte (u8 c.payload 0), byte (u8 c.payload 1)] ++ leBytes 2 (u16 c.payload 2) ++ leBytes 2 (u16 c.payload 4) ++ zeros 4 ++
      slice r.bytes (off + u16 c.payload 2 * size) (u16 c.payload 4 * size))) := by
  obtain ⟨hserved, harg⟩ := hready
  rw [show exec (.getStats c) s = execGetStats c s from rfl, execGetStats]
  simp only [hsection]
  subst hu
  refine (command_acts hserved ?_ (by simp)).trans (by simp only [hheld])
  simp only [List.forall_mem_cons, argOk_eq_none]
  refine ⟨need_true (decide_eq_true hlen), harg, decide_eq_true hsrc, ?_, decide_eq_true hfirst, decide_eq_true ⟨hleast, hmost, hlast⟩,
    reserved_of_leVal hzero, need_true (by rw [hheld]; rfl), nofun⟩
  simpa [hsec, imp_iff_not_or] using htile

/-! ## FRAME_DROP_REPEAT (R128, R169) -/

/-- What has been missed is reported, and counted anew. -/
theorem reportMiss_view {n : Nat} (h : n < s.pipe.views.length) :
    (reportMiss s n t).view n = { s.view n with missCount := 0, missAt := some t } ∧ ∀ w : Nat, w ≠ n → (reportMiss s n t).view w = s.view w := by
  have hviews (first count : Nat) (reason : Nat) : (notifyDrop s n reason first count t).pipe.views = s.pipe.views := by rw [notifyDrop_pipe]
  refine ⟨?_, fun w hw => ?_⟩
  · rw [reportMiss, modView_view_self (by rw [hviews]; exact h), view_of_views (hviews ..)]
  · rw [reportMiss, modView_view_other hw, view_of_views (hviews ..)]

/-- A second after the last report, frames still being missed are reported again (R128, R169). -/
theorem frameDropRepeat_reports (hu : u = s.at t) (hlen : v.val < u.pipe.views.length) (hmissing : (u.view v.val).missing = true)
    (hreason : (u.view v.val).missReason ≠ 1) (hmissed : 0 < (u.view v.val).missCount ∨ sourceLate u (u.view v.val).p = true)
    (hat : (u.view v.val).missAt = some a) (hsec : a + sec ≤ t) :
    ∃ s', exec (.frameDropRepeat t v) s = .next s' ∧ (s'.view v.val).missCount = 0 ∧ (s'.view v.val).missAt = some t ∧
      (s'.view v.val).missing = true ∧ ∀ w : Nat, w ≠ v.val → s'.view w = u.view w := by
  rw [show exec (.frameDropRepeat t v) s = execFrameDropRepeat t v s from rfl, execFrameDropRepeat]
  refine ⟨_, event_due_at hu (by simp [hmissing, hreason, hmissed, hat, hsec]), ?_⟩
  extract_lets w m counted
  have hcounted : v.val < counted.pipe.views.length := hlen
  obtain ⟨hself, hothers⟩ := reportMiss_view (t := t) (s := counted.modView v.val (fun w => { w with missCount := w.missCount + m })) (n := v.val)
    (by simpa using hcounted)
  rw [hself, modView_view_self hcounted]
  exact ⟨rfl, rfl, hmissing, fun k hk => (hothers k hk).trans (modView_view_other hk _)⟩

/-- Within a second of the last report nothing is reported (R128). -/
theorem frameDropRepeat_waits (hu : u = s.at t) (hat : (u.view v.val).missAt = some a) (hsec : t < a + sec) :
    exec (.frameDropRepeat t v) s = .next u := by
  subst hu
  rw [show exec (.frameDropRepeat t v) s = execFrameDropRepeat t v s from rfl, execFrameDropRepeat]
  exact event_not_due (by simp [hat, hsec])

/-- Settles O22: one rule for each command, and what it leaves of each view. -/
theorem viewsStartStopAndReport : Obligations.ViewsStartStopAndReport := by
  unfold Obligations.ViewsStartStopAndReport
  refine ⟨fun s u c p v hu hready hsrc hpl hst howner hactive hpw hchecks hlen => ?_,
    fun s u c p v how hu hready hsrc hhow hpl hst hcaller hlen => ?_,
    fun s u t v hu hready hlen => ⟨_, viewStopDone_stops hu hready, stopViewNow_view (by omega)⟩, fun _ _ => stopReady_iff,
    fun _ _ _ _ _ _ _ _ => getStats_returns, fun s u t a v hu hlen => frameDropRepeat_reports hu (by omega),
    fun _ _ _ _ _ => frameDropRepeat_waits⟩
  · obtain ⟨r, g, hpipe, hregs, hbegin⟩ := beginView_starts (s := u) v.val c.start
    have hview := view_of_views (congrArg Pipe.views hpipe)
    refine ⟨_, startView_begins hu hready hsrc hpl hst howner hactive hpw hchecks, ?_⟩
    rw [hbegin, modView_view_self (by rw [hpipe]; omega), hview]
    refine ⟨rfl, rfl, rfl, ?_, ?_, rfl, fun w hw => (modView_view_other hw _).trans (hview w)⟩
    · simp only [viewCtx, unscaled_of_regs hregs]
    · simp only [viewLmem, unscaled_of_regs hregs]
  · obtain ⟨call, hexec⟩ := stopView_orders hu hready hsrc hhow hpl hst hcaller
    have hwithin : Within [.pipe] u (orderStop u v.val how call false c.start) := by simp
    obtain ⟨hstop, hstay⟩ := orderStop_view_self (how := how) (call := call) (del := false) (t := c.start) (show v.val < u.pipe.views.length by omega)
    exact ⟨_, hexec, hwithin.1, hstop, hstay, fun w hw => modView_view_other hw _⟩

end Sys2Proof.Machine
end

section
/-! The refutation of O23. RASTER_READBACK_START updates every frame in progress that bears the view and the number of the one whose readback is due,
and gives each the end that its own interval allows. The statement gives all of them the end that the interval of that one frame allows, and nothing in
it says that no second frame bears its view and number. -/

namespace Sys2Proof.Machine

variable {s u : State} {t e : Time} {v : ViewIx} {f : VFrame}

/-- The readback of a stored frame begins 50 µs after its source ended (R137). -/
theorem rasterReadbackStart_starts (hu : u = s.at t) (hup : memUp u = true) (hf : readbackOf u v t = some f) (he : f.srcEnd = some e) :
    exec (.rasterReadbackStart t v) s = .next (u.modVf v.val f.frame (fun g => { g with
      readback := some (e + 50 * us), late := some (e + 50 * us + 9 * g.interval / 10) })) := by
  rw [show exec (.rasterReadbackStart t v) s = execRasterReadbackStart t v s from rfl, execRasterReadbackStart,
    event_due_at hu (by rw [hup, hf]; rfl)]
  simp only [hf, he, Option.getD_some]

/-- Frame 1 of view 0, a RASTER view: its source has ended at 0, and its readback has not begun. -/
def storedFrame (interval : Time) : VFrame :=
  { view := 0, frame := 1, setId := 0, p := { ViewP.reset with order := 1, width := 16, height := 2 }, paramId := 0, binned := false, sx := 0, sy := 0
    sw := 16, sh := 2, ow := 16, oh := 2, fsAt := 0, fsD := 0, spanNs := 0, fflags := 0, s := 1, ped := 0, started := false, jobs := []
    rows := [(0, 0), (1, 0)], queued := 0, lost := 0, lor := 0, srcEnd := some 0, endD := 0, store := 0, readback := none, late := none, curve := []
    lineFlags := [], tag := none, tk := [], en := [], rowLo := 0, rowHi := 512, lsc := 0, interval := interval, dropNoted := false, auxAct := []
    geomW := 0, geomH := 0 }

/-- A device in STANDBY with its frame memory up and `storedFrame` in progress twice, once with an interval of 0 and once with one of 5 ns. -/
def twinState : State := { State.reset with
  pw := { Power.reset with st := .standby }
  mem := { Mem.reset with st := .run }
  pipe := { Pipe.reset with frames := [storedFrame 0, storedFrame 10] } }

/-- Refutes O23: the readback of the first frame of `twinState` gives the second the end that its own interval allows, 4.5 ns after that of the
first. -/
theorem not_pipelineJobsRunOneByOne : ¬ Obligations.PipelineJobsRunOneByOne := by
  unfold Obligations.PipelineJobsRunOneByOne
  rintro ⟨-, -, -, starts⟩
  have hup : memUp (twinState.at (50 * us)) = true := by decide +kernel
  have hdue : readbackOf (twinState.at (50 * us)) 0 (50 * us) = some (storedFrame 0) := by decide +kernel
  have hsame := (rasterReadbackStart_starts rfl hup hdue rfl).symm.trans (starts _ _ _ 0 0 _ rfl hup hdue rfl)
  have hlate := congrArg (fun r : State => r.pipe.frames.map VFrame.late) (Host.Outcome.next.inj hsame)
  exact absurd hlate (by decide +kernel)

end Sys2Proof.Machine
end

section
/-! Aux inputs and their streams: what an update of one does to each, what a counter leaves of the registers, what a packet's header brings, and what
the close and the opening of a frame leave of a stream (R160 to R163, R168). -/

namespace Sys2Proof.Machine

variable {s s' r : State} {L : List Part} {n m v w a b : Nat} {t : Time}

/-! ## One input, one stream -/

theorem Within.aux (h : Within L s s') (ha : .aux ∉ L) : s'.aux = s.aux := h.1.2 _ ha

theorem auxIn_of_aux (h : s'.aux = s.aux) (n : Nat) : s'.auxIn n = s.auxIn n := by simp only [State.auxIn, h]

theorem auxVc_of_aux (h : s'.aux = s.aux) (n v : Nat) : s'.auxVc n v = s.auxVc n v := by simp only [State.auxVc, auxIn_of_aux h]

theorem modAux_auxIn_self (h : n < s.aux.length) (f : AuxIn → AuxIn) : (s.modAux n f).auxIn n = f (s.auxIn n) := modAt_getD_self _ _ _ _ h

theorem modAux_auxIn_other (h : m ≠ n) (f : AuxIn → AuxIn) : (s.modAux n f).auxIn m = s.auxIn m := modAt_getD_other _ _ _ _ _ h.symm

/-- An update of an input that leaves its streams leaves every stream. -/
theorem modAux_auxVc {f : AuxIn → AuxIn} (hf : ∀ a, (f a).vcs = a.vcs) (m v : Nat) : (s.modAux n f).auxVc m v = s.auxVc m v :=
  modAt_getD_proj (g := fun a : AuxIn => a.vcs.getD v AuxVc.reset) (fun a => by rw [hf]) _ _ _ _

/-- Stream `v` of input `n` is in the state. -/
def HasVc (s : State) (n v : Nat) : Prop := n < s.aux.length ∧ v < (s.auxIn n).vcs.length

theorem HasVc.of_aux (h : HasVc s n v) (haux : s'.aux = s.aux) : HasVc s' n v := by rwa [HasVc, haux, auxIn_of_aux haux]

theorem HasVc.modAux {f : AuxIn → AuxIn} (h : HasVc s n v) (hf : ∀ a, (f a).vcs.length = a.vcs.length) : HasVc (s.modAux m f) n v :=
  ⟨by simpa using h.1, (modAt_getD_proj (g := fun a : AuxIn => a.vcs.length) hf _ _ _ _).symm ▸ h.2⟩

theorem HasVc.modVc {f : AuxVc → AuxVc} (h : HasVc s n v) : HasVc (s.modVc m w f) n v := h.modAux fun _ => modAt_length ..

theorem modVc_auxVc_self (h : HasVc s n v) (f : AuxVc → AuxVc) : (s.modVc n v f).auxVc n v = f (s.auxVc n v) := by
  rw [State.auxVc, State.modVc, modAux_auxIn_self h.1]
  exact modAt_getD_self _ _ _ _ h.2

theorem modVc_auxVc_other (h : w ≠ v) (f : AuxVc → AuxVc) : (s.modVc n v f).auxVc n w = s.auxVc n w :=
  modVc_auxIn (g := fun a => a.vcs.getD w AuxVc.reset) fun _ => modAt_getD_other _ _ _ _ _ h.symm

/-- A stream with an open frame is in the state. -/
theorem HasVc.of_open (h : (s.auxVc n v).openAt.isSome = true) : HasVc s n v := by
  by_contra hnot
  have hreset : s.auxVc n v = AuxVc.reset := by
    unfold State.auxVc
    by_cases hn : n < s.aux.length
    · exact List.getD_eq_default _ _ (not_lt.mp fun hv => hnot ⟨hn, hv⟩)
    · rw [State.auxIn, List.getD_eq_default _ _ (not_lt.mp hn)]
      exact (List.getD_eq_getElem?_getD ..).trans (List.getElem?_getD_replicate_default_eq _ 4 v)
  rw [hreset] at h
  cases h

/-! ## Counters of an input -/

/-- A value put into a store that is not the one an unlisted address reads as leaves every other address as it reads. -/
theorem storeGet_storePut_other_of_ne {d x : Nat} (l : List (Nat × Nat)) (hx : x ≠ d) (hab : a ≠ b) :
    storeGet (storePut l b x d) a = storeGet l a := by
  induction l with
  | nil => simp [storePut, storeGet, hx, hab.symm]
  | cons y l ih =>
    obtain ⟨k, z⟩ := y
    simp only [storePut, hx, if_false]
    split
    · next hk => simp [storeGet, hk, hab.symm]
    · split
      · next hkb hbk =>
        by_cases hlt : a < b
        · simp [storeGet, hab.symm, hlt, hlt.trans hbk, (hlt.trans hbk).ne']
        · simp [storeGet, hab.symm, hlt]
      · simp only [storeGet, ih]

/-- A counter of an input's `AUXn_ERR` that counts leaves every other register as it reads. -/
theorem bump_err_reg {n : AuxIx} {hi lo : Nat} (h : (hi, lo) ∈ [(31, 24), (23, 16), (15, 8), (7, 0)]) (ha : a ≠ aAUX_ERR n.val) :
    (s.bump (aAUX_ERR n.val) hi lo 1).reg a = s.reg a := by
  have hreset : ∀ n : AuxIx, regReset (aAUX_ERR n.val) = 0 := by decide +kernel
  have hpos : ∀ x : Nat, setBits x hi lo (satAdd (hi + 1 - lo) (bits x hi lo) 1) % 2 ^ 32 ≠ 0 := by
    intro x
    simp only [List.mem_cons, Prod.mk.injEq, List.not_mem_nil, or_false] at h
    simp only [setBits, satAdd, bits, Nat.shiftRight_eq_div_pow]
    rcases h with ⟨rfl, rfl⟩ | ⟨rfl, rfl⟩ | ⟨rfl, rfl⟩ | ⟨rfl, rfl⟩ <;> norm_num only <;> omega
  simp only [State.bump, State.setFld, State.setReg, State.fld, State.reg, hreset, storeGet_storePut_other_of_ne _ (hpos _) ha]

/-- Counting a packet leaves the data types of the streams. -/
theorem bump_err_auxDt {n : AuxIx} {hi lo : Nat} (h : (hi, lo) ∈ [(31, 24), (23, 16), (15, 8), (7, 0)]) (v : Nat) :
    auxDt (s.bump (aAUX_ERR n.val) hi lo 1) n.val v = auxDt s n.val v := by
  rw [auxDt, State.fld, bump_err_reg h (by simp only [aAUX_VC_CFG, aAUX_ERR]; omega)]
  rfl

/-! ## Headers (R160, R161) -/

/-- The state with a received header counted where it was corrected. -/
def countHeader (s : State) (n hdr : Nat) : State := if hdr = 1 then s.bump (aAUX_ERR n) 7 0 1 else s

@[simp] theorem countHeader_aux (n hdr : Nat) : (countHeader s n hdr).aux = s.aux := by
  unfold countHeader
  split <;> rfl

theorem countHeader_auxDt (n : AuxIx) (hdr v : Nat) : auxDt (countHeader s n.val hdr) n.val v = auxDt s n.val v := by
  unfold countHeader
  split
  · exact bump_err_auxDt (by decide) v
  · rfl

/-- A header that is sound, or corrected, and of a virtual channel of the input: the packet's contents count. -/
theorem auxPacket_received {hdr : Nat} (hst : (s.auxIn n).st = .run) (hhdr : hdr ≠ 2) (hv : v < 4) :
    auxPacket s n v hdr = (countHeader s n hdr, true) := by
  simp only [auxPacket, hst, hhdr, if_false, Nat.not_le.mpr hv, countHeader]

theorem auxPacket_los (hst : (s.auxIn n).st = .los) (v hdr : Nat) : auxPacket s n v hdr = (s, false) := by simp only [auxPacket, hst]

theorem auxPacket_skewWait (hst : (s.auxIn n).st = .skewWait) (v hdr : Nat) :
    auxPacket s n v hdr = (s.bump (aAUX_ERR n) 31 24 1, false) := by simp only [auxPacket, hst]

/-- A header that cannot be corrected is counted, and noted on the frame it seems to belong to. -/
theorem auxPacket_lost (hst : (s.auxIn n).st = .run) (v : Nat) :
    (auxPacket s n v 2).2 = false ∧ (auxPacket s n v 2).1.regs = (s.bump (aAUX_ERR n) 15 8 1).regs := by
  simp only [auxPacket, hst, if_true, true_and]
  split <;> rfl

theorem auxPacket_st (v hdr : Nat) : ((auxPacket s n v hdr).1.auxIn n).st = (s.auxIn n).st := by
  simp only [auxPacket]
  split
  · split
    · split
      · exact modVc_auxIn fun _ => rfl
      · rfl
    · split <;> split <;> rfl
  · rfl
  · rfl

/-! ## The close of a frame (R168) -/

/-- A stream without an open frame has none to close. -/
theorem closeAuxFrame_of_closed (h : (s.auxVc n v).openAt = none) (extra : Nat) (t : Time) : closeAuxFrame s n v extra t = s := by
  simp [closeAuxFrame, h]

/-- The close of an open frame settles its statistics, and last of all notes on the stream that the frame is closed. -/
theorem closeAuxFrame_closes (h : (s.auxVc n v).openAt.isSome = true) (extra : Nat) (t : Time) :
    ∃ (r : State) (g : AuxIn → List AuxStat) (fl : Nat), r.aux = modAt s.aux n (fun a => { a with stat := g a }) ∧
      closeAuxFrame s n v extra t = r.modVc n v (fun c => { c with
        openAt := none, lastLines := min 65535 c.lines, lastFlags := fl, storeOk := false }) := by
  have hsettle : ∀ (r : State) (g : AuxIn → List AuxStat), Within (Part.but [.aux]) s r →
      (r.modAux n (fun a => { a with stat := g a })).aux = modAt s.aux n (fun a => { a with stat := g a }) := fun r g hr => by
    rw [State.modAux_aux, hr.aux (by simp)]
  have hopen : (s.auxVc n v).openAt.isNone = false := Option.isNone_eq_false_iff.mpr h
  cases hdrop : decide ((s.auxVc n v).lines < auxH s n v) && decide ((s.auxVc n v).act.getD 0 0 = 1) <;>
    simp only [closeAuxFrame, hopen, hdrop, Bool.false_eq_true, if_false, if_true]
  · exact ⟨_, _, _, hsettle _ _ (by simp), rfl⟩
  · exact ⟨_, _, _, hsettle _ _ (by simp), rfl⟩

/-- A frame that is open is closed, with its lines noted (R168). -/
theorem closeAuxFrame_auxVc (h : (s.auxVc n v).openAt.isSome = true) (extra : Nat) (t : Time) :
    ∃ fl, (closeAuxFrame s n v extra t).auxVc n v = { s.auxVc n v with
      openAt := none, lastLines := min 65535 (s.auxVc n v).lines, lastFlags := fl, storeOk := false } := by
  obtain ⟨r, g, fl, haux, hclose⟩ := closeAuxFrame_closes h extra t
  have hr : r.auxVc n v = s.auxVc n v :=
    (auxVc_of_aux (s := s.modAux n (fun a => { a with stat := g a })) haux n v).trans (modAux_auxVc (by intro _; rfl) n v)
  have hvc : HasVc r n v := ((HasVc.of_open h).modAux (m := n) (f := fun a => { a with stat := g a }) (by intro _; rfl)).of_aux haux
  exact ⟨fl, by rw [hclose, modVc_auxVc_self hvc, hr]⟩

theorem closeAuxFrame_hasVc (h : HasVc s m w) (extra : Nat) (t : Time) : HasVc (closeAuxFrame s n v extra t) m w := by
  cases hopen : (s.auxVc n v).openAt with
  | none => rwa [closeAuxFrame_of_closed hopen]
  | some o =>
    obtain ⟨r, g, fl, haux, hclose⟩ := closeAuxFrame_closes (Option.isSome_of_eq_some hopen) extra t
    rw [hclose]
    exact ((h.modAux (m := n) (f := fun a => { a with stat := g a }) (by intro _; rfl)).of_aux haux).modVc

theorem closeAuxFrame_auxVc_other (hw : w ≠ v) (extra : Nat) (t : Time) : (closeAuxFrame s n v extra t).auxVc n w = s.auxVc n w := by
  cases hopen : (s.auxVc n v).openAt with
  | none => rw [closeAuxFrame_of_closed hopen]
  | some o =>
    obtain ⟨r, g, fl, haux, hclose⟩ := closeAuxFrame_closes (Option.isSome_of_eq_some hopen) extra t
    rw [hclose, modVc_auxVc_other hw]
    exact (auxVc_of_aux (s := s.modAux n (fun a => { a with stat := g a })) haux n w).trans (modAux_auxVc (by intro _; rfl) n w)

/-- After a close, a stream has no open frame, and has counted none. -/
theorem closeAuxFrame_closed (extra : Nat) (t : Time) :
    ((closeAuxFrame s n v extra t).auxVc n v).openAt = none ∧ ((closeAuxFrame s n v extra t).auxVc n v).count = (s.auxVc n v).count := by
  cases hopen : (s.auxVc n v).openAt with
  | none => rw [closeAuxFrame_of_closed hopen]; exact ⟨hopen, rfl⟩
  | some o =>
    obtain ⟨fl, hc⟩ := closeAuxFrame_auxVc (Option.isSome_of_eq_some hopen) extra t
    rw [hc]
    exact ⟨rfl, rfl⟩

/-- Of the streams closed one by one, none has an open frame. -/
theorem closeAll_closed {l : List Nat} (h : v ∈ l ∨ (s.auxVc n v).openAt = none) (extra : Nat) (t : Time) :
    ((l.foldl (fun s v => closeAuxFrame s n v extra t) s).auxVc n v).openAt = none := by
  induction l generalizing s with
  | nil => exact h.resolve_left nofun
  | cons w l ih =>
    refine ih ?_
    by_cases hvw : v = w
    · exact .inr (hvw ▸ (closeAuxFrame_closed extra t).1)
    · rw [closeAuxFrame_auxVc_other hvw]
      exact h.imp_left fun hmem => (List.mem_cons.mp hmem).resolve_left hvw

/-! ## The opening of a frame (R163, R168, R169) -/

/-- What a Frame Start sets of its stream. -/
def AuxVc.opening (c : AuxVc) : Option Time × Nat × Nat × Bool := (c.openAt, c.count, c.lines, c.late)

/-- A Frame Start opens the next frame of its stream, without lines, and the stream is not LATE. -/
theorem openAuxFrame_opens (h : HasVc s n v) (t : Time) :
    ((openAuxFrame s n v t).auxVc n v).opening = (some t, ((s.auxVc n v).count + 1) % 2 ^ 32, 0, false) := by
  unfold openAuxFrame
  extract_lets cleared closed ended c measured banked now count started raster store busy ok stored viewed takers
  clear_value ok store
  -- up to the opening itself, the stream's count is as before
  have hclosed : HasVc closed n v ∧ (closed.auxVc n v).count = (s.auxVc n v).count := by
    have hlate : (countLate s n v t).aux = s.aux := Within.aux (L := Part.but [.aux]) (by simp) (by simp)
    refine ⟨closeAuxFrame_hasVc (h.of_aux hlate).modVc 4 t, ?_⟩
    rw [(closeAuxFrame_closed 4 t).2, modVc_auxVc (g := AuxVc.count) (by intro _; rfl), auxVc_of_aux hlate]
  have hended : ended.aux = closed.aux := Within.aux (L := Part.but [.aux]) (by simp [ended]) (by simp)
  have hmeasured : measured.aux = ended.aux := by
    simp only [measured]
    (repeat' split) <;> rfl
  have hbanked : HasVc banked n v :=
    (hclosed.1.of_aux (hmeasured.trans hended)).modAux fun a => by (repeat' split) <;> rfl
  have hstarted : (started.auxVc n v).opening = (some t, ((s.auxVc n v).count + 1) % 2 ^ 32, 0, false) := by
    rw [modVc_auxVc_self hbanked, ← hclosed.2, ← auxVc_of_aux hended]
    rfl
  -- what follows the opening leaves it alone
  have hviewed : viewed.aux = stored.aux := Within.aux (L := Part.but [.aux]) (by simp [viewed]) (by simp)
  rw [← hstarted]
  calc _ = (viewed.auxVc n v).opening := by
        split
        · rw [modAux_auxVc (by intro _; rfl)]
        · rfl
    _ = (stored.auxVc n v).opening := by rw [auxVc_of_aux hviewed]
    _ = (started.auxVc n v).opening := modVc_auxVc (g := AuxVc.opening) (by intro _; rfl)

end Sys2Proof.Machine
end

section
/-! The packets of the aux inputs: a Frame Start, a line, a Frame End, and a packet that is not heeded (R160 to R163, R167, R168). -/

namespace Sys2Proof.Machine

variable {s u : State} {n : AuxIx} {v : Nat} {t : Time} {hdr : BitVec 32}

/-! ## A line (R162, R167) -/

/-- What a line changes of its stream's open frame. -/
def AuxVc.filling (c : AuxVc) : Option Time × Nat := (c.openAt, c.lines)

/-- A line, whatever it carries, is one more of the open frame. -/
theorem auxLine_counts {n : Nat} (h : HasVc s n v) (payload : List Byte) (crcOk : Bool) (t : Time) :
    ((auxLine s n v payload crcOk t).auxVc n v).filling = ((s.auxVc n v).openAt, (s.auxVc n v).lines + 1) := by
  have hnote : ∀ (w : State) (k : Nat), ((w.modVc n v (fun c => { c with fflags := Nat.lor c.fflags k })).auxVc n v).filling =
      (w.auxVc n v).filling := fun w k => modVc_auxVc (g := AuxVc.filling) fun _ => rfl
  unfold auxLine
  extract_lets c dt row counted
  have hcounted : (counted.auxVc n v).filling = (c.openAt, c.lines + 1) := by
    rw [modVc_auxVc_self h]
    rfl
  rw [← hcounted]
  split
  · exact hnote counted 2
  · next want hrow =>
    have hread : (unpackLine counted dt payload).2.aux = counted.aux := Within.aux (L := Part.but [.aux]) (by simp) (by simp)
    generalize unpackLine counted dt payload = x at hread ⊢
    obtain ⟨l, read⟩ := x
    dsimp -zeta only
    extract_lets short long shorts longs got flags full noted raised delivered
    have hlongs : longs.aux = counted.aux := by
      rw [← hread]
      simp only [longs, shorts]
      (repeat' split) <;> rfl
    have hdelivered : delivered.aux = noted.aux := by
      refine Within.aux (L := Part.but [.aux]) ?_ (by simp)
      simp [delivered, raised]
    clear_value flags full
    calc _ = (delivered.auxVc n v).filling := by rw [modAux_auxVc (by intro _; rfl)]
      _ = (noted.auxVc n v).filling := by rw [auxVc_of_aux hdelivered]
      _ = (longs.auxVc n v).filling := by
        simp only [noted]
        split
        · exact hnote longs 16
        · rfl
      _ = (counted.auxVc n v).filling := by rw [auxVc_of_aux hlongs]

/-! ## What each packet does -/

theorem exec_auxFrameStart (t : Time) (n : AuxIx) (head : BitVec 24) (ecc : Byte) (s : State) :
    exec (.auxFrameStart t n head ecc) s = execAuxFrameStart t n head ecc s := rfl

theorem exec_auxFrameEnd (t : Time) (n : AuxIx) (head : BitVec 24) (ecc : Byte) (s : State) :
    exec (.auxFrameEnd t n head ecc) s = execAuxFrameEnd t n head ecc s := rfl

theorem exec_auxLongPacket (t : Time) (n : AuxIx) (di : Byte) (wc : BitVec 16) (ecc : Byte) (payload : List Byte) (crc : BitVec 16) (s : State) :
    exec (.auxLongPacket t n di wc ecc payload crc) s = execAuxLongPacket t n di wc ecc payload crc s := rfl

/-- A Frame Start that is received opens a frame of a stream that is enabled. -/
theorem auxFrameStart_opens {head : BitVec 24} {ecc : Byte} (hu : u = s.at t) (hhdr : hdr = ecc ++ head) (hon : auxOn u n.val = true)
    (hst : (u.auxIn n.val).st = .run) (hv : csiVc hdr < 4) (hok : csiOk hdr ≠ 2) (hdt : csiDt hdr = 0) (hen : auxDt u n.val (csiVc hdr) ≠ 0) :
    exec (.auxFrameStart t n head ecc) s = .next (openAuxFrame (countHeader u n.val (csiOk hdr)) n.val (csiVc hdr) t) := by
  rw [exec_auxFrameStart, execAuxFrameStart, event_due_at hu hon]
  simp only [← hhdr, auxPacket_received hst hok hv, countHeader_auxDt, hdt, hen, ne_eq, not_false_eq_true, and_self, decide_true, Bool.and_self,
    if_true]

/-- A Frame End that is received closes its stream's frame. -/
theorem auxFrameEnd_closes {head : BitVec 24} {ecc : Byte} (hu : u = s.at t) (hhdr : hdr = ecc ++ head) (hon : auxOn u n.val = true)
    (hst : (u.auxIn n.val).st = .run) (hv : csiVc hdr < 4) (hok : csiOk hdr ≠ 2) (hdt : csiDt hdr = 1) :
    exec (.auxFrameEnd t n head ecc) s = .next (closeAuxFrame (countHeader u n.val (csiOk hdr)) n.val (csiVc hdr) 0 t) := by
  rw [exec_auxFrameEnd, execAuxFrameEnd, event_due_at hu hon]
  simp only [← hhdr, auxPacket_received hst hok hv, hdt, decide_true, Bool.and_self, if_true]

theorem three_lt_of_dtKnown {dt : Nat} (h : dtKnown dt = true) : 3 < dt := by
  by_contra hle
  have hsmall : ∀ k ≤ 3, dtKnown k = false := by decide
  rw [hsmall dt (by omega)] at h
  cases h

/-- A long packet of the data type of its stream adds a line to the frame that is open. -/
theorem auxLongPacket_adds {di : Byte} {wc : BitVec 16} {ecc : Byte} {payload : List Byte} {crc : BitVec 16} (hu : u = s.at t)
    (hhdr : hdr = ecc ++ wc ++ di) (hon : auxOn u n.val = true) (hst : (u.auxIn n.val).st = .run) (hv : csiVc hdr < 4) (hok : csiOk hdr ≠ 2)
    (hknown : dtKnown (csiDt hdr) = true) (hdt : auxDt u n.val (csiVc hdr) = csiDt hdr)
    (hopen : (u.auxVc n.val (csiVc hdr)).openAt.isSome = true) :
    ∃ (r : State) (body : List Byte) (ok : Bool), r.aux = u.aux ∧
      exec (.auxLongPacket t n di wc ecc payload crc) s = .next (auxLine r n.val (csiVc hdr) body ok t) := by
  -- a payload that fails its CRC is counted, which leaves the stream as it is
  obtain ⟨w, hw⟩ : ∃ w, w = countHeader u n.val (csiOk hdr) := ⟨_, rfl⟩
  have haux (c : Prop) [Decidable c] : (if c then w.bump (aAUX_ERR n.val) 23 16 1 else w).aux = u.aux := by
    rw [← countHeader_aux (s := u) n.val (csiOk hdr), ← hw]
    split <;> rfl
  have htype (c : Prop) [Decidable c] : auxDt (if c then w.bump (aAUX_ERR n.val) 23 16 1 else w) n.val (csiVc hdr) = csiDt hdr := by
    rw [← hdt, ← countHeader_auxDt (s := u) n (csiOk hdr), ← hw]
    split
    · exact bump_err_auxDt (by decide) _
    · rfl
  rw [exec_auxLongPacket, execAuxLongPacket, event_due_at hu hon]
  simp only [← hhdr, auxPacket_received hst hok hv, ← hw, htype, auxVc_of_aux (haux _), hopen, hknown,
    Nat.not_le.mpr (three_lt_of_dtKnown hknown), Bool.not_true, Bool.or_self, Bool.false_eq_true, or_self, ne_eq, not_true_eq_false, decide_false, if_false,
    if_true]
  exact ⟨_, _, _, haux _, rfl⟩

/-- The packets of an input that may come with a header: a Frame Start, a Frame End, a long packet. -/
inductive AuxPacketOf (t : Time) (n : AuxIx) : BitVec 32 → Instr → Prop
  | frameStart (head : BitVec 24) (ecc : Byte) : AuxPacketOf t n (ecc ++ head) (.auxFrameStart t n head ecc)
  | frameEnd (head : BitVec 24) (ecc : Byte) : AuxPacketOf t n (ecc ++ head) (.auxFrameEnd t n head ecc)
  | long (di : Byte) (wc : BitVec 16) (ecc : Byte) (payload : List Byte) (crc : BitVec 16) :
    AuxPacketOf t n (ecc ++ wc ++ di) (.auxLongPacket t n di wc ecc payload crc)

variable {i : Instr}

/-- An input that is off receives no packet. -/
theorem auxPacketOf_off (hi : AuxPacketOf t n hdr i) (hu : u = s.at t) (hoff : auxOn u n.val = false) : exec i s = .next u := by
  subst hu
  cases hi with
  | frameStart head ecc => rw [exec_auxFrameStart, execAuxFrameStart, event_not_due hoff]
  | frameEnd head ecc => rw [exec_auxFrameEnd, execAuxFrameEnd, event_not_due hoff]
  | long di wc ecc payload crc => rw [exec_auxLongPacket, execAuxLongPacket, event_not_due hoff]

/-- A packet whose header is not heeded does nothing but what its header brings. -/
theorem auxPacketOf_unheeded (hi : AuxPacketOf t n hdr i) (hu : u = s.at t) (hon : auxOn u n.val = true)
    (hgo : (auxPacket u n.val (csiVc hdr) (csiOk hdr)).2 = false) (hcrc : (u.auxIn n.val).st = .run → csiOk hdr = 2) :
    exec i s = .next (auxPacket u n.val (csiVc hdr) (csiOk hdr)).1 := by
  have hst := auxPacket_st (s := u) (n := n.val) (csiVc hdr) (csiOk hdr)
  cases hi with
  | frameStart head ecc =>
    rw [exec_auxFrameStart, execAuxFrameStart, event_due_at hu hon]
    simp only [hgo, Bool.false_and, Bool.false_eq_true, if_false]
  | frameEnd head ecc =>
    rw [exec_auxFrameEnd, execAuxFrameEnd, event_due_at hu hon]
    simp only [hgo, Bool.false_and, Bool.false_eq_true, if_false]
  | long di wc ecc payload crc =>
    rw [exec_auxLongPacket, execAuxLongPacket, event_due_at hu hon]
    have hnot : ∀ c : Prop, ¬((u.auxIn n.val).st = .run ∧ csiOk (ecc ++ wc ++ di) ≠ 2 ∧ c) := fun c h => h.2.1 (hcrc h.1)
    simp only [hgo, hst, hnot, Bool.not_false, true_or, if_true, if_false]

/-- Settles O24: what each packet that is received does to its stream, and what a packet that is not heeded leaves. -/
theorem auxFramesOpenFillClose : Obligations.AuxFramesOpenFillClose := by
  unfold Obligations.AuxFramesOpenFillClose
  have hasVc : ∀ {u : State} {n : AuxIx} {vc : Nat} (hdr : Nat), u.aux.length = 4 → (u.auxIn n.val).vcs.length = 4 → vc < 4 →
      HasVc (countHeader u n.val hdr) n.val vc := fun {u n vc} hdr hlen hvcs hvc =>
    HasVc.of_aux (s := u) ⟨by omega, by omega⟩ (countHeader_aux _ _)
  refine ⟨?_, ?_, ?_, ?_⟩
  · intro s u t n vc hdr head ecc hu hhdr hv hlen hvcs hon hst hvc hok hdt hen
    subst hv
    have hopens := openAuxFrame_opens (hasVc (csiOk hdr) hlen hvcs hvc) t
    simp only [AuxVc.opening, auxVc_of_aux (countHeader_aux n.val (csiOk hdr)), Prod.mk.injEq] at hopens
    obtain ⟨hopenAt, hcount, hlines, hlate⟩ := hopens
    exact ⟨_, auxFrameStart_opens hu hhdr hon hst hvc hok hdt hen, hopenAt, hcount, hlines, hlate⟩
  · intro s u t n vc hdr di wc ecc payload crc hu hhdr hv hlen hvcs hon hst hvc hok hknown hdt hopen
    subst hv
    obtain ⟨r, body, ok, haux, hexec⟩ := auxLongPacket_adds (payload := payload) (crc := crc) hu hhdr hon hst hvc hok hknown hdt hopen
    have hcounts := auxLine_counts (n := n.val) (v := csiVc hdr) (HasVc.of_aux (s := u) ⟨by omega, by omega⟩ haux) body ok t
    simp only [AuxVc.filling, auxVc_of_aux haux, Prod.mk.injEq] at hcounts
    exact ⟨_, hexec, hcounts.2, hcounts.1⟩
  · intro s u t n vc hdr head ecc hu hhdr hv hlen hvcs hon hst hvc hok hdt hopen
    subst hv
    have hvc' := auxVc_of_aux (countHeader_aux (s := u) n.val (csiOk hdr)) n.val (csiVc hdr)
    obtain ⟨fl, hclose⟩ := closeAuxFrame_auxVc (hvc' ▸ hopen) 0 t
    refine ⟨_, auxFrameEnd_closes hu hhdr hon hst hvc hok hdt, ?_⟩
    rw [hclose, hvc']
    exact ⟨rfl, rfl, rfl⟩
  · intro s u t n hdr head di wc ecc payload crc i hu hpacket
    have hi : AuxPacketOf t n hdr i := by
      rcases hpacket with ⟨rfl, rfl | rfl⟩ | ⟨rfl, rfl⟩
      · exact .frameStart head ecc
      · exact .frameEnd head ecc
      · exact .long di wc ecc payload crc
    refine ⟨auxPacketOf_off hi hu, fun hon hst => ?_, fun hon hst => ?_, fun hon hst hbad => ?_⟩
    · have hp := auxPacket_los hst (csiVc hdr) (csiOk hdr)
      rw [auxPacketOf_unheeded hi hu hon (by rw [hp]) (by simp [hst]), hp]
    · have hp := auxPacket_skewWait hst (csiVc hdr) (csiOk hdr)
      rw [auxPacketOf_unheeded hi hu hon (by rw [hp]) (by simp [hst]), hp]
    · obtain ⟨hgo, hregs⟩ := auxPacket_lost hst (csiVc hdr)
      rw [← hbad] at hgo hregs
      have hwithin : Within [.regs, .aux] u (auxPacket u n.val (csiVc hdr) (csiOk hdr)).1 := by simp
      exact ⟨_, auxPacketOf_unheeded hi hu hon hgo fun _ => hbad, hregs, hwithin.1⟩

end Sys2Proof.Machine
end

section
/-! The events and the commands of the aux inputs: skew calibration, loss of signal, LATE streams, records, CONFIG_AUX and AUX_STATUS (R160, R165, R169,
R174, R176 to R178). -/

namespace Sys2Proof.Machine

variable {s u : State} {t : Time} {n : AuxIx} {c : Call}

@[simp] theorem stand_aux (code inst : Nat) (t : Time) : (stand s code inst t).aux = s.aux := Within.aux (L := Part.but [.aux]) (by simp) (by simp)
@[simp] theorem unstand_aux (code inst : Nat) (t : Time) : (unstand s code inst t).aux = s.aux :=
  Within.aux (L := Part.but [.aux]) (by simp) (by simp)

/-! ## Skew calibration (R160) -/

/-- Every lane in use is among those listed. -/
theorem lanes_all_iff {l : List Nat} {k : Nat} : (List.range k).all (fun j => l.contains j) = true ↔ ∀ j : Nat, j < k → j ∈ l := by simp

/-- The initial calibration of a lane is noted, and lets the input run where it is that of the last lane in use (R160). -/
theorem skewCalibration_calibrates (hu : u = s.at t) (hlen : n.val < u.aux.length) (hon : auxOn u n.val = true)
    (hst : (u.auxIn n.val).st = .skewWait) (lane : Fin 4) :
    ∃ s', exec (.skewCalibration t n lane true) s = .next s' ∧ Keeps [.aux] u s' ∧
      (s'.auxIn n.val).skewed = lane.val :: (u.auxIn n.val).skewed ∧
      ((s'.auxIn n.val).st = if ∀ k : Nat, k < auxLanes u n.val → k ∈ lane.val :: (u.auxIn n.val).skewed then .run else .skewWait) ∧
      ∀ m : Nat, m ≠ n.val → s'.auxIn m = u.auxIn m := by
  rw [show exec (.skewCalibration t n lane true) s = execSkewCalibration t n lane true s from rfl, execSkewCalibration]
  refine ⟨_, event_due_at hu (by simp [hon, hst]), ?_⟩
  extract_lets noted
  have hself : noted.auxIn n.val = { u.auxIn n.val with skewed := lane.val :: (u.auxIn n.val).skewed } := modAux_auxIn_self hlen _
  have hother : ∀ m : Nat, m ≠ n.val → noted.auxIn m = u.auxIn m := fun m hm => modAux_auxIn_other hm _
  have hnoted : Within [.aux] u noted := by simp [noted]
  have hall : ((List.range (auxLanes noted n.val)).all fun k => (noted.auxIn n.val).skewed.contains k) = true ↔
      ∀ k : Nat, k < auxLanes u n.val → k ∈ lane.val :: (u.auxIn n.val).skewed := by
    rw [hself]
    exact lanes_all_iff
  split
  · next h =>
    rw [if_pos (hall.mp h), modAux_auxIn_self (by simpa [noted] using hlen), hself]
    exact ⟨((State.modAux_within (by simp) ..).mpr hnoted).1, rfl, rfl, fun m hm => (modAux_auxIn_other hm _).trans (hother m hm)⟩
  · next h =>
    rw [if_neg fun hk => h (hall.mpr hk), hself]
    exact ⟨hnoted.1, rfl, hst, hother⟩

/-- Periodic calibration changes nothing. -/
theorem skewCalibration_periodic (hu : u = s.at t) (lane : Fin 4) : exec (.skewCalibration t n lane false) s = .next u := by
  subst hu
  rw [show exec (.skewCalibration t n lane false) s = execSkewCalibration t n lane false s from rfl, execSkewCalibration]
  exact event_not_due (by simp)

/-! ## Loss of signal (R165) -/

/-- LOS closes every open frame, and holds the input in LOS with its failing lanes. -/
theorem auxLos_holds (hu : u = s.at t) (hvcs : HasVc u n.val 0) (hon : auxOn u n.val = true) (hst : (u.auxIn n.val).st ≠ .los)
    (lanes : BitVec 4) :
    ∃ s', exec (.auxLos t n lanes) s = .next s' ∧ (s'.auxIn n.val).st = .los ∧ (s'.auxIn n.val).losLane = lanes.toNat ∧
      ∀ v : Nat, v < 4 → (s'.auxVc n.val v).openAt = none := by
  rw [show exec (.auxLos t n lanes) s = execAuxLos t n lanes s from rfl, execAuxLos]
  refine ⟨_, event_due_at hu (by simp [hon, hst]), ?_⟩
  extract_lets closed held
  have hclosed : HasVc closed n.val 0 :=
    List.foldlRecOn (motive := fun r : State => HasVc r n.val 0) _ _ hvcs fun _ hr _ _ => closeAuxFrame_hasVc hr 4 t
  have hheld := auxIn_of_aux (stand_aux (s := held) fAUX_LOS n.val t) n.val
  rw [hheld, modAux_auxIn_self hclosed.1]
  refine ⟨rfl, rfl, fun v hv => ?_⟩
  rw [auxVc_of_aux (stand_aux ..), modAux_auxVc (by intro _; rfl)]
  exact closeAll_closed (.inl (List.mem_range.mpr hv)) 4 t

/-- The input leaves LOS for RUN, or for SKEW_WAIT where its initial calibration is not complete (R160, R165). -/
theorem auxLosRecover_recovers (hu : u = s.at t) (hlen : n.val < u.aux.length) (hon : auxOn u n.val = true) (hst : (u.auxIn n.val).st = .los) :
    ∃ s', exec (.auxLosRecover t n) s = .next s' ∧ (s'.auxIn n.val).losLane = 0 ∧
      ((auxRate u n.val ≤ 1500 ∨ ∀ k : Nat, k < auxLanes u n.val → k ∈ (u.auxIn n.val).skewed) → (s'.auxIn n.val).st = .run) ∧
      ∀ m : Nat, m ≠ n.val → s'.auxIn m = u.auxIn m := by
  rw [show exec (.auxLosRecover t n) s = execAuxLosRecover t n s from rfl, execAuxLosRecover]
  refine ⟨_, event_due_at hu (by simp [hon, hst]), ?_⟩
  extract_lets ready recovered
  simp only [auxIn_of_aux (unstand_aux (s := recovered) fAUX_LOS n.val t)]
  have hready : ready = true ↔ auxRate u n.val ≤ 1500 ∨ ∀ k : Nat, k < auxLanes u n.val → k ∈ (u.auxIn n.val).skewed := by
    rw [← lanes_all_iff, ← decide_eq_true_iff (p := auxRate u n.val ≤ 1500), ← Bool.or_eq_true]
  have hself := modAux_auxIn_self hlen (fun a => if ready then { a with st := .run, losLane := 0, vcs := a.vcs.map (enterRun t) }
    else { a with st := .skewWait, losLane := 0 })
  refine ⟨?_, fun h => ?_, fun m hm => modAux_auxIn_other hm _⟩
  · rw [hself]
    split <;> rfl
  · rw [hself, if_pos (hready.mpr h)]

/-! ## LATE (R169) -/

/-- A stream whose LATE time has passed since its last Frame Start is LATE. -/
theorem auxLate_late {f : Time} {vc : Fin 4} (hu : u = s.at t) (hvc : HasVc u n.val vc.val) (hon : auxOn u n.val = true)
    (hen : auxDt u n.val vc.val ≠ 0) (hlate : (u.auxVc n.val vc.val).late = false) (hfs : (u.auxVc n.val vc.val).lastFs = some f)
    (ht : f + (u.auxVc n.val vc.val).act.getD 8 0 * 100 * us < t) :
    ∃ s', exec (.auxLate t n vc) s = .next s' ∧ (s'.auxVc n.val vc.val).late = true := by
  rw [show exec (.auxLate t n vc) s = execAuxLate t n vc s from rfl, execAuxLate]
  refine ⟨_, event_due_at hu (by simp only [hon, hlate, hfs, decide_eq_true hen, decide_eq_true ht]; rfl), ?_⟩
  extract_lets late counted
  have hmissed : ((streamViews counted n.val vc.val).foldl
      (fun s k => missFrame s k ((s.auxVc n.val vc.val).count + 1) 5 t) counted).aux = late.aux :=
    Within.aux (L := Part.but [.aux]) (by simp [counted]) (by simp)
  rw [auxVc_of_aux hmissed, modVc_auxVc_self hvc]

/-! ## Statistics (R174) -/

/-- A record is due: its frame has ended (R174). -/
def recordDue (t : Time) (r : AuxStat) : Bool := match r.endAt with
  | some e => decide (e ≤ t)
  | none => false

/-- The first record that is due leaves the input, and becomes the newest that is kept. -/
theorem auxStatsComplete_records {r : AuxStat} (hu : u = s.at t) (hdue : (u.auxIn n.val).stat.find? (recordDue t) = some r) :
    exec (.auxStatsComplete t n) s = .next (sendStats (keepStats (u.modAux n.val (fun a => { a with
      stat := removeFirst (recordDue t) a.stat })) (auxRecord u n.val r)) r.takers (auxRecord u n.val r)) := by
  rw [show exec (.auxStatsComplete t n) s = execAuxStatsComplete t n s from rfl, execAuxStatsComplete]
  refine (event_due_at hu (List.any_eq_true.mpr ⟨r, List.mem_of_find?_eq_some hdue, List.find?_some hdue⟩)).trans ?_
  dsimp only
  split
  · next r' hr' =>
    obtain rfl : r = r' := Option.some.inj (hdue.symm.trans hr')
    rfl
  · next hr' => cases hdue.symm.trans hr'

/-! ## CONFIG_AUX and AUX_STATUS (R176 to R178) -/

theorem leVal_leBytes (k a : Nat) : leVal (leBytes k a) = a % 256 ^ k := by
  induction k generalizing a with
  | zero => simp [leBytes, leVal, Nat.mod_one]
  | succ k ih =>
    rw [leBytes, leVal, ih, toNat_byte_of_lt (Nat.mod_lt _ (by decide)), Nat.pow_succ', Nat.mod_mul]

/-- What AUX_STATUS tells of a stream. -/
def streamStatus (s : State) (n v : Nat) : List Byte :=
  leBytes 4 (s.auxVc n v).count ++ leBytes 2 (s.reg (aAUX_VC_MEAS n v)) ++ [byte (s.auxVc n v).lastFlags,
    byte (b2n (decide (auxDt s n v ≠ 0)) + 2 * b2n (s.auxVc n v).late + 4 * b2n (s.auxVc n v).openAt.isSome)]

/-- The payload of AUX_STATUS. -/
def auxStatusPayload (s : State) (n : Nat) : List Byte :=
  [byte n, byte (s.auxIn n).st.code, byte (s.auxIn n).losLane, 0] ++ leBytes 4 (s.reg (aAUX_ERR n)) ++ leBytes 4 (s.reg (aAUX_LBUF n)) ++
    zeros 4 ++ (List.range 4).flatMap (streamStatus s n)

/-- AUX_STATUS shows the input, and changes nothing but for its answer. -/
theorem auxStatus_shows (hu : u = s.at c.start) (hready : Ready u c 0x0401) (hpl : c.payload = [byte n.val, 0, 0, 0]) :
    exec (.auxStatus c) s = .next (okWith u c 0x0401 .fast (auxStatusPayload u n.val)) := by
  obtain ⟨hserved, harg⟩ := hready
  have hn : u8 c.payload 0 = n.val := by
    rw [hpl]
    exact toNat_byte_of_lt (by omega)
  rw [show exec (.auxStatus c) s = execAuxStatus c s from rfl, execAuxStatus, hn]
  subst hu
  refine command_acts hserved ?_ nofun
  simp only [List.forall_mem_cons]
  exact ⟨need_true (by simp [hpl]), harg, need_true (decide_eq_true (by omega)), by rw [hpl]; rfl, nofun⟩

theorem auxStatusPayload_input (s : State) (n : AuxIx) :
    (auxStatusPayload s n.val).length = 48 ∧ u8 (auxStatusPayload s n.val) 0 = n.val ∧
      u8 (auxStatusPayload s n.val) 1 = (s.auxIn n.val).st.code := by
  refine ⟨by simp [auxStatusPayload, streamStatus, zeros], toNat_byte_of_lt (by omega), ?_⟩
  show (byte (s.auxIn n.val).st.code).toNat = _
  cases (s.auxIn n.val).st <;> rfl

theorem auxStatusPayload_count (s : State) (n : Nat) (v : Fin 4) :
    u32 (auxStatusPayload s n) (16 + 8 * v.val) = (s.auxVc n v.val).count % 2 ^ 32 := by
  have hslice : slice (auxStatusPayload s n) (16 + 8 * v.val) 4 = leBytes 4 (s.auxVc n v.val).count := by
    match v with
    | 0 => rfl
    | 1 => rfl
    | 2 => rfl
    | 3 => rfl
  rw [u32, hslice]
  exact leVal_leBytes 4 _

/-- CONFIG_AUX of the holder of the input's lease, whose fields keep their ranges, stores the configuration and lets it take effect. A change of a hard
field finds no view of the input started (R176, R177). -/
theorem configAux_applies {p : PortIx} (hu : u = s.at c.start) (hready : Ready u c 0x0400) (hlease : HoldsLease u c p (lAX n.val))
    (hlen : c.payload.length = 80) (hn : u8 c.payload 0 = n.val) (hflags : reservedBits c.payload 1 0xE0 = none)
    (hlanes : u8 c.payload 2 = 1 ∨ u8 c.payload 2 = 2 ∨ u8 c.payload 2 = 4) (hmap : mapOk (u8 c.payload 3) (u8 c.payload 2) = true)
    (hpn : reservedBits c.payload 4 0xE0 = none) (hrate : 80 ≤ u16 c.payload 6 ∧ u16 c.payload 6 ≤ 4500)
    (hstreams : ∀ x ∈ (List.range 4).flatMap (streamChecks c.payload), x = none)
    (hhard : auxHardChange u n.val (auxRegs n.val c.payload) = true → auxInUse u n.val = false) :
    exec (.configAux c) s = .next (okWith (auxApply u n.val (auxRegs n.val c.payload) c.stamp c.start) c 0x0400 .fast []) := by
  obtain ⟨hserved, harg⟩ := hready
  have hmin : min n.val 3 = n.val := by omega
  rw [show exec (.configAux c) s = execConfigAux c s from rfl, execConfigAux, hn, hmin]
  subst hu
  refine command_acts hserved (List.forall_mem_append.mpr ⟨List.forall_mem_append.mpr ⟨?_, hstreams⟩, ?_⟩) nofun
  · simp only [List.forall_mem_cons, argOk_eq_none]
    exact ⟨need_true (decide_eq_true hlen), needLease_of_holdsLease hlease, harg, decide_eq_true (by omega), hflags, decide_eq_true hlanes, hmap, hpn,
      decide_eq_true hrate, nofun⟩
  · rw [List.forall_mem_singleton]
    refine need_true ?_
    cases h : auxHardChange (s.at c.start) n.val (auxRegs n.val c.payload) with
    | false => rfl
    | true => rw [hhard h]; rfl

/-- Settles O25: the rule of each event and of each of the two commands. -/
theorem auxInputsAndCommands : Obligations.AuxInputsAndCommands := by
  unfold Obligations.AuxInputsAndCommands
  refine ⟨fun s u t n lane hu hlen hon hst => ?_, fun s u t n lane hu => skewCalibration_periodic hu lane,
    fun s u t n lanes hu hlen hvcs hon hst => auxLos_holds hu ⟨by omega, by omega⟩ hon hst lanes,
    fun s u t n hu hlen hon hst => auxLosRecover_recovers hu (by omega) hon hst,
    fun s u t f n vc hu hlen hvcs hon hen hlate hfs ht => auxLate_late hu ⟨by omega, by omega⟩ hon hen hlate hfs ht,
    fun s u t n r ready hu hlen hr hdue => ?_, ?_, fun s u c n hu hready hpl => ?_⟩
  · obtain ⟨s', hexec, hkeeps, hskewed, hst', hothers⟩ := skewCalibration_calibrates hu (by omega) hon hst lane
    refine ⟨s', hexec, hkeeps, hskewed, fun hall => ?_, fun ⟨k, hk, hne, hmem⟩ => ?_, hothers⟩
    · rw [hst', if_pos fun k hk => List.mem_cons.mpr (hall k hk)]
    · rw [hst', if_neg fun hall => (List.mem_cons.mp (hall k hk)).elim hne hmem]
  · obtain rfl : ready = recordDue t := hr
    refine ⟨_, auxStatsComplete_records hu hdue, ?_, auxRecord u n.val r, ?_, rfl, rfl⟩
    · have haux : ∀ (w : State) (x : StatRec), (sendStats (keepStats w x) r.takers x).aux = w.aux := fun w x =>
        Within.aux (L := Part.but [.aux]) (by simp) (by simp)
      exact congrArg AuxIn.stat ((auxIn_of_aux (haux _ _) n.val).trans (modAux_auxIn_self (by omega) _))
    · rw [sendStats_arr]
      rfl
  · intro s u c p n hu hready hlease hlen hn hflags hlanes hmap hpn hlow hhigh hstreams hhard
    exact configAux_applies hu hready hlease hlen hn hflags hlanes hmap hpn ⟨hlow, hhigh⟩ hstreams hhard
  · obtain ⟨hlen, hinput, hst⟩ := auxStatusPayload_input u n
    exact ⟨_, auxStatus_shows hu hready hpl, hlen, hinput, hst, auxStatusPayload_count u n.val⟩

end Sys2Proof.Machine
end

section
/-! The refutation of O26. While the memory self-test runs every requester waits (R501), and the statement says of a write that may take a token and
an entry that it enters, with nothing in it about the self-test. -/

namespace Sys2Proof.Machine

variable {s u : State} {t : Time} {cls : Fin 6} {inst : Byte} {fma : Nat}

/-- A request waits at its requester while the memory self-test runs (R501). -/
theorem memRequest_waits_inSelfTest (w : Option (BitVec 64 × List Byte)) (hu : u = s.at t) (hfma : fma < fmSize)
    (hserves : memRefuses u.mem = false) (hst : u.mem.st = .run) (htest : u.diag.run = 2) :
    exec (.memRequest t cls inst fma w) s = .next (u.modMem (fun m => { m with
      wait := m.wait ++ [⟨cls.val, inst.toNat, dramUnit (fma / 64), queueOf m.map (dramUnit (fma / 64)), requestOp w, t, t, false, false,
        false⟩] })) := by
  subst hu
  rw [show exec (.memRequest t cls inst fma w) s = execMemRequest t cls inst fma w s from rfl, execMemRequest]
  simp only [Nat.not_le.mpr hfma, hserves, hst, if_false, Bool.false_eq_true]
  rw [memArrive, if_pos (by rw [htest]; simp)]
  rfl

/-- A device in STANDBY with its frame memory in RUN, whose memory self-test runs. -/
def selfTestState : State := { State.reset with
  pw := { Power.reset with st := .standby }
  mem := { Mem.reset with st := .run }
  diag := { Diag.reset with run := 2 } }

/-- Refutes O26: a control write to address 0 may take a token and an entry in `selfTestState`, and waits until the self-test is over. -/
theorem not_memoryRequestsAreScheduled : ¬ Obligations.MemoryRequestsAreScheduled := by
  unfold Obligations.MemoryRequestsAreScheduled
  rintro ⟨enters, -⟩
  have hserves : memRefuses (selfTestState.at 0).mem = false := by decide +kernel
  have hst : (selfTestState.at 0).mem.st = .run := by decide +kernel
  obtain ⟨s', -, hexec, -, -, -, hwait, -⟩ := enters selfTestState _ 0 5 0 0 0 [] _ _ rfl (by decide) hserves (.inl hst) rfl rfl
    (by decide +kernel) (by decide +kernel)
  have hs' := Host.Outcome.next.inj ((memRequest_waits_inSelfTest _ rfl (by decide) hserves hst (by decide +kernel)).symm.trans hexec)
  rw [← hs'] at hwait
  exact absurd (congrArg List.length hwait) (by simp)

end Sys2Proof.Machine
end

section
/-! The refutation of O27. A unit access carries the DRAM unit that it is to, and nothing in the statement says that the unit exists. Bytes beyond the
15 GiB are not stored (R184), so a write to a unit beyond them leaves nothing that reads back. -/

namespace Sys2Proof.Machine

/-- A full write of a byte 1 to the DRAM unit right after those of the 15 GiB. -/
def writeBeyond : MemEnt := ⟨5, 0, 2 ^ 28, 0, .write fullMask [1], 0, 0, false, false, false⟩

/-- A device in STANDBY with its frame memory in RUN and `writeBeyond` at the dies. -/
def beyondState : State := { State.reset with
  pw := { Power.reset with st := .standby }
  mem := { Mem.reset with st := .run, undef := [], dies := [writeBeyond] } }

/-- The access completes and leaves a byte 0 at the address of its unit. -/
theorem beyondState_completes :
    goesOnTo (exec (.memAccessComplete 0 0 [] []) beyondState) (fun s => decide (fmByte s (unitOf writeBeyond.d * 64 + 0) = 0)) = true := by
  decide +kernel

/-- Refutes O27: `writeBeyond` completes in `beyondState`, and the byte that it enables does not read back. -/
theorem not_memoryAccessCompletes : ¬ Obligations.MemoryAccessCompletes := by
  unfold Obligations.MemoryAccessCompletes
  rintro ⟨completes, -⟩
  obtain ⟨s', hexec, -, hstores, -⟩ := completes beyondState _ 0 0 [] [] writeBeyond rfl (by decide +kernel) (by decide +kernel) (by decide +kernel)
    (by decide +kernel)
  obtain ⟨r, hr, hzero⟩ := exists_next_of_goesOnTo beyondState_completes
  cases hexec.symm.trans hr
  have hone : fmByte s' (unitOf writeBeyond.d * 64 + 0) = 1 := (hstores fullMask [1] rfl (by decide) rfl).2 0 (by decide)
  rw [of_decide_eq_true hzero] at hone
  exact absurd hone (by decide)

end Sys2Proof.Machine
end

section
/-! The refutation of O13. A sweep that succeeds goes back to the state before it. Where that is a freeze whose MEM_RECOVER asks for a sweep, the
next sweep starts (R200, R214) and DAWN goes on waiting. The statement says that in DAWN the boot goes on after the sweep, with nothing in it about the
state before the sweep. -/

namespace Sys2Proof.Machine

/-- A device in DAWN whose frame memory sweeps out of a freeze, with a MEM_RECOVER that asks for a sweep. -/
def sweepingState : State := { State.reset with
  pw := { Power.reset with st := .dawn, bootKind := .dawn }
  mem := { Mem.reset with st := .train, prior := .frozen, recover := some 1 } }

/-- Every lane passes with the narrowest window that is wide enough. -/
def narrowWindows : List LaneWin := List.replicate 104 ((0, 16), (0, 16))

/-- The sweep completes, and DAWN lasts. -/
theorem sweepingState_completes :
    goesOnTo (exec (.sweepComplete 0 narrowWindows) sweepingState) (fun s => decide (s.pw.st = .dawn)) = true := by
  decide +kernel

/-- Refutes O13: after the sweep of `sweepingState` the next one starts, and the device stays in DAWN. -/
theorem not_suppliesFailAndReturn : ¬ Obligations.SuppliesFailAndReturn := by
  unfold Obligations.SuppliesFailAndReturn
  rintro ⟨-, -, -, -, -, -, -, -, -, -, -, -, -, -, -, -, goesOn⟩
  obtain ⟨s', hexec, hboot, -⟩ := goesOn sweepingState _ 0 narrowWindows rfl (by decide +kernel) (by decide +kernel) (by decide +kernel)
    (by decide +kernel) (by decide +kernel) (by decide +kernel) (by decide +kernel) (by decide +kernel)
  obtain ⟨r, hr, hdawn⟩ := exists_next_of_goesOnTo sweepingState_completes
  cases hexec.symm.trans hr
  rw [of_decide_eq_true hdawn] at hboot
  exact absurd hboot (by decide)

end Sys2Proof.Machine
end

section
/-! Every command answers a next state, but for a frame-memory request beyond the 15 GiB (R184). A command of a host is a `command` and an event an
`event`, whatever its conditions and its effect are. -/

namespace Sys2Proof.Machine

variable {s : State} {t : Time} {cls : Fin 6} {inst : Byte} {fma : Nat} {w : Option (BitVec 64 × List Byte)}

/-- A request inside frame memory is answered, enters or waits (R26, R184). -/
theorem memRequest_answers (h : fma < fmSize) : ∃ s', exec (.memRequest t cls inst fma w) s = .next s' := by
  rw [show exec (.memRequest t cls inst fma w) s = execMemRequest t cls inst fma w s from rfl, execMemRequest]
  simp only [Nat.not_le.mpr h, if_false]
  split
  · exact ⟨_, rfl⟩
  · split <;> exact ⟨_, rfl⟩

/-- A request beyond frame memory stops the run (R184). -/
theorem memRequest_faults (h : fmSize ≤ fma) : exec (.memRequest t cls inst fma w) s = .fault (.noSuchAddress fma) := by
  rw [show exec (.memRequest t cls inst fma w) s = execMemRequest t cls inst fma w s from rfl, execMemRequest]
  exact if_pos h

theorem withBody_answers (p : PortIx) (type len : Nat) (body : List Byte) (t : Time) (act : State → Time → State) :
    ∃ s', withBody s p type len body t act = .next s' := event_answers ..

theorem cccAnswer_answers (t : Time) (bytes : State → List Byte) : ∃ s', cccAnswer t bytes s = .next s' := event_answers ..

theorem tileCommand_answers (c : Call) (op : Nat) (valOk : Nat → Bool) (put : TileSet → Nat → Nat → TileSet) :
    ∃ s', tileCommand s c op valOk put = .next s' := by
  dsimp only [tileCommand]
  exact command_answers ..

/-- Every command answers a next state, where a frame-memory request is to an address that exists. -/
theorem exec_answers (i : Instr) (h : ∀ t cls inst fma w, i = .memRequest t cls inst fma w → fma < fmSize) : ∃ s', exec i s = .next s' := by
  cases i with
  | hello c => exact (command_answers .. : ∃ s', execHello c s = .next s')
  | getInfo c => exact (command_answers .. : ∃ s', execGetInfo c s = .next s')
  | getStatus c => exact (command_answers .. : ∃ s', execGetStatus c s = .next s')
  | resetDevice c => exact (command_answers .. : ∃ s', execResetDevice c s = .next s')
  | resetBegin t => exact (event_answers .. : ∃ s', execResetBegin t s = .next s')
  | setPowerState c => exact (command_answers .. : ∃ s', execSetPowerState c s = .next s')
  | pumpsSettled t => exact (event_answers .. : ∃ s', execPumpsSettled t s = .next s')
  | getFaults c => exact (command_answers .. : ∃ s', execGetFaults c s = .next s')
  | clearFaults c => exact (command_answers .. : ∃ s', execClearFaults c s = .next s')
  | readReg c => exact (by unfold execReadReg; exact commandWith_answers .. : ∃ s', execReadReg c s = .next s')
  | writeReg c => exact (command_answers .. : ∃ s', execWriteReg c s = .next s')
  | timeSync c => exact (command_answers .. : ∃ s', execTimeSync c s = .next s')
  | acquireLease c => exact (command_answers .. : ∃ s', execAcquireLease c s = .next s')
  | releaseLease c => exact (command_answers .. : ∃ s', execReleaseLease c s = .next s')
  | renewLease c => exact (command_answers .. : ∃ s', execRenewLease c s = .next s')
  | leaseExpiry t r => exact (event_answers .. : ∃ s', execLeaseExpiry t r s = .next s')
  | leaseLapse t p => exact (event_answers .. : ∃ s', execLeaseLapse t p s = .next s')
  | setArrayMode c => exact (command_answers .. : ∃ s', execSetArrayMode c s = .next s')
  | setFrameTiming c => exact (command_answers .. : ∃ s', execSetFrameTiming c s = .next s')
  | setTileExposure c => exact (tileCommand_answers .. : ∃ s', execSetTileExposure c s = .next s')
  | setTileGain c => exact (tileCommand_answers .. : ∃ s', execSetTileGain c s = .next s')
  | setGovernor c => exact (command_answers .. : ∃ s', execSetGovernor c s = .next s')
  | setSlicing c => exact (command_answers .. : ∃ s', execSetSlicing c s = .next s')
  | setTileEnable c => exact (command_answers .. : ∃ s', execSetTileEnable c s = .next s')
  | commitSettings c => exact (command_answers .. : ∃ s', execCommitSettings c s = .next s')
  | triggerFrame c => exact (command_answers .. : ∃ s', execTriggerFrame c s = .next s')
  | startArray c => exact (command_answers .. : ∃ s', execStartArray c s = .next s')
  | stopArray c => exact (command_answers .. : ∃ s', execStopArray c s = .next s')
  | triggerAt c => exact (command_answers .. : ∃ s', execTriggerAt c s = .next s')
  | triggerAtDue t => exact (event_answers .. : ∃ s', execTriggerAtDue t s = .next s')
  | frameStart t => exact (event_answers .. : ∃ s', execFrameStart t s = .next s')
  | overheadSlot t samples ramp => exact (event_answers .. : ∃ s', execOverheadSlot t samples ramp s = .next s')
  | rowSlot t samples => exact (event_answers .. : ∃ s', execRowSlot t samples s = .next s')
  | integrationStart t tile row exp => exact (event_answers .. : ∃ s', execIntegrationStart t tile row exp s = .next s')
  | integrationSlice t tile row exp => exact (event_answers .. : ∃ s', execIntegrationSlice t tile row exp s = .next s')
  | exposureLatchPoint t => exact (event_answers .. : ∃ s', execExposureLatchPoint t s = .next s')
  | arrayArm t => exact (event_answers .. : ∃ s', execArrayArm t s = .next s')
  | statsComplete t => exact (event_answers .. : ∃ s', execStatsComplete t s = .next s')
  | governorOutput t => exact (event_answers .. : ∃ s', execGovernorOutput t s = .next s')
  | mosaicLineTransfer t tile crcOk => exact (event_answers .. : ∃ s', execMosaicLineTransfer t tile crcOk s = .next s')
  | spillFetchComplete t tile kind row ok => exact (event_answers .. : ∃ s', execSpillFetchComplete t tile kind row ok s = .next s')
  | pipeJobRelease t v band group stripe => exact (event_answers .. : ∃ s', execPipeJobRelease t v band group stripe s = .next s')
  | pipeJobStart t => exact (event_answers .. : ∃ s', execPipeJobStart t s = .next s')
  | pipeJobComplete t => exact (event_answers .. : ∃ s', execPipeJobComplete t s = .next s')
  | rasterReadbackStart t v => exact (event_answers .. : ∃ s', execRasterReadbackStart t v s = .next s')
  | viewStopDone t v => exact (event_answers .. : ∃ s', execViewStopDone t v s = .next s')
  | createView c => exact (command_answers .. : ∃ s', execCreateView c s = .next s')
  | modifyView c => exact (command_answers .. : ∃ s', execModifyView c s = .next s')
  | deleteView c => exact (command_answers .. : ∃ s', execDeleteView c s = .next s')
  | startView c => exact (command_answers .. : ∃ s', execStartView c s = .next s')
  | stopView c => exact (command_answers .. : ∃ s', execStopView c s = .next s')
  | getStats c => exact (command_answers .. : ∃ s', execGetStats c s = .next s')
  | frameDropRepeat t v => exact (event_answers .. : ∃ s', execFrameDropRepeat t v s = .next s')
  | configAux c => exact (command_answers .. : ∃ s', execConfigAux c s = .next s')
  | auxStatus c => exact (command_answers .. : ∃ s', execAuxStatus c s = .next s')
  | skewCalibration t n lane initial => exact (event_answers .. : ∃ s', execSkewCalibration t n lane initial s = .next s')
  | auxFrameStart t n head ecc => exact (event_answers .. : ∃ s', execAuxFrameStart t n head ecc s = .next s')
  | auxFrameEnd t n head ecc => exact (event_answers .. : ∃ s', execAuxFrameEnd t n head ecc s = .next s')
  | auxLongPacket t n di wc ecc payload crc => exact (event_answers .. : ∃ s', execAuxLongPacket t n di wc ecc payload crc s = .next s')
  | auxLos t n lanes => exact (event_answers .. : ∃ s', execAuxLos t n lanes s = .next s')
  | auxLosRecover t n => exact (event_answers .. : ∃ s', execAuxLosRecover t n s = .next s')
  | auxLate t n vc => exact (event_answers .. : ∃ s', execAuxLate t n vc s = .next s')
  | auxStatsComplete t n => exact (by unfold execAuxStatsComplete; exact event_answers .. : ∃ s', execAuxStatsComplete t n s = .next s')
  | memRequest t cls inst fma write => exact memRequest_answers (h _ _ _ _ _ rfl)
  | memPick t sc => exact (event_answers .. : ∃ s', execMemPick t sc s = .next s')
  | entryAged t q => exact (by unfold execEntryAged; exact event_answers .. : ∃ s', execEntryAged t q s = .next s')
  | memAccessComplete t q flips chk => exact (event_answers .. : ∃ s', execMemAccessComplete t q flips chk s = .next s')
  | refreshDue t q => exact (event_answers .. : ∃ s', execRefreshDue t q s = .next s')
  | refreshRatePoll t reports => exact (event_answers .. : ∃ s', execRefreshRatePoll t reports s = .next s')
  | powerDownEntry t sc rank => exact (event_answers .. : ∃ s', execPowerDownEntry t sc rank s = .next s')
  | eccLineIdle t sc block used => exact (event_answers .. : ∃ s', execEccLineIdle t sc block used s = .next s')
  | rowhammerWindow t => exact (event_answers .. : ∃ s', execRowhammerWindow t s = .next s')
  | sweepComplete t results => exact (event_answers .. : ∃ s', execSweepComplete t results s = .next s')
  | memcBinTargetWrite t target => exact (event_answers .. : ∃ s', execMemcBinTargetWrite t target s = .next s')
  | binChange t ok => exact (event_answers .. : ∃ s', execBinChange t ok s = .next s')
  | memStatus c => exact (command_answers .. : ∃ s', execMemStatus c s = .next s')
  | memRecover c => exact (command_answers .. : ∃ s', execMemRecover c s = .next s')
  | configRing c => exact (command_answers .. : ∃ s', execConfigRing c s = .next s')
  | markEvent c => exact (command_answers .. : ∃ s', execMarkEvent c s = .next s')
  | readRing c => exact (command_answers .. : ∃ s', execReadRing c s = .next s')
  | ringStatus c => exact (command_answers .. : ∃ s', execRingStatus c s = .next s')
  | releaseSegment c => exact (command_answers .. : ∃ s', execReleaseSegment c s = .next s')
  | segmentSeal t slot => exact (event_answers .. : ∃ s', execSegmentSeal t slot s = .next s')
  | supplyFail t vio vcore uj => exact (event_answers .. : ∃ s', execSupplyFail t vio vcore uj s = .next s')
  | storeExhausted t => exact (event_answers .. : ∃ s', execStoreExhausted t s = .next s')
  | supplyReturn t env held => exact (event_answers .. : ∃ s', execSupplyReturn t env held s = .next s')
  | configHoldup c => exact (command_answers .. : ∃ s', execConfigHoldup c s = .next s')
  | holdupStatus c => exact (command_answers .. : ∃ s', execHoldupStatus c s = .next s')
  | chargerVioSample t mv => exact (event_answers .. : ∃ s', execChargerVioSample t mv s = .next s')
  | chargerLimitDown t => exact (event_answers .. : ∃ s', execChargerLimitDown t s = .next s')
  | chargerLimitUp t => exact (event_answers .. : ∃ s', execChargerLimitUp t s = .next s')
  | chargerPulseEnd t ocv ohm => exact (event_answers .. : ∃ s', execChargerPulseEnd t ocv ohm s = .next s')
  | chargerOcvCheck t ocv => exact (event_answers .. : ∃ s', execChargerOcvCheck t ocv s = .next s')
  | ntcRead t ohm => exact (event_answers .. : ∃ s', execNtcRead t ohm s = .next s')
  | lanternPatternTick t pin => exact (event_answers .. : ∃ s', execLanternPatternTick t pin s = .next s')
  | linkStatus c => exact (command_answers .. : ∃ s', execLinkStatus c s = .next s')
  | setLinkRate c => exact (command_answers .. : ∃ s', execSetLinkRate c s = .next s')
  | linkTest c => exact (command_answers .. : ∃ s', execLinkTest c s = .next s')
  | linkTestEnd t r => exact (by unfold execLinkTestEnd; exact event_answers .. : ∃ s', execLinkTestEnd t r s = .next s')
  | rateChangeStart t p => exact (event_answers .. : ∃ s', execRateChangeStart t p s = .next s')
  | backoffEnd t p => exact (event_answers .. : ∃ s', execBackoffEnd t p s = .next s')
  | beaconBurst t p => exact (event_answers .. : ∃ s', execBeaconBurst t p s = .next s')
  | uclkValid t p => exact (event_answers .. : ∃ s', execUclkValid t p s = .next s')
  | trainingBlockRx t p block => exact (event_answers .. : ∃ s', execTrainingBlockRx t p block s = .next s')
  | trainingTimeout t p => exact (event_answers .. : ∃ s', execTrainingTimeout t p s = .next s')
  | ctleSettingStep t p height => exact (event_answers .. : ∃ s', execCtleSettingStep t p height s = .next s')
  | dfeAdapt t p err data => exact (event_answers .. : ∃ s', execDfeAdapt t p err data s = .next s')
  | phaseTrack t p later => exact (event_answers .. : ∃ s', execPhaseTrack t p later s = .next s')
  | prbsWindowEnd t p errors => exact (event_answers .. : ∃ s', execPrbsWindowEnd t p errors s = .next s')
  | rateIdleEnd t p => exact (event_answers .. : ∃ s', execRateIdleEnd t p s = .next s')
  | errorInjection t p => exact (event_answers .. : ∃ s', execErrorInjection t p s = .next s')
  | losOnset t p lol ppm => exact (event_answers .. : ∃ s', execLosOnset t p lol ppm s = .next s')
  | losClear t p ppm => exact (event_answers .. : ∃ s', execLosClear t p ppm s = .next s')
  | losFailure t p lol => exact (event_answers .. : ∃ s', execLosFailure t p lol s = .next s')
  | holdExpiry t p => exact (event_answers .. : ∃ s', execHoldExpiry t p s = .next s')
  | alignmentMarkerTx t p => exact (event_answers .. : ∃ s', execAlignmentMarkerTx t p s = .next s')
  | alignmentMarkerRx t p marker => exact (event_answers .. : ∃ s', execAlignmentMarkerRx t p marker s = .next s')
  | upstreamCodeword t p levels => exact (event_answers .. : ∃ s', execUpstreamCodeword t p levels s = .next s')
  | requestEntry t p entry => exact (event_answers .. : ∃ s', execRequestEntry t p entry s = .next s')
  | doorbell t p body => exact (event_answers .. : ∃ s', execDoorbell t p body s = .next s')
  | credit t p body => exact (withBody_answers .. : ∃ s', execCredit t p body s = .next s')
  | ack t p body => exact (withBody_answers .. : ∃ s', execAck t p body s = .next s')
  | upstreamTimeCell t p body => exact (withBody_answers .. : ∃ s', execUpstreamTimeCell t p body s = .next s')
  | trigCell t p body => exact (withBody_answers .. : ∃ s', execTrigCell t p body s = .next s')
  | trainCell t p body => exact (withBody_answers .. : ∃ s', execTrainCell t p body s = .next s')
  | downstreamCellSlot t p => exact (event_answers .. : ∃ s', execDownstreamCellSlot t p s = .next s')
  | rtoExpiry t p => exact (event_answers .. : ∃ s', execRtoExpiry t p s = .next s')
  | chainTimeout t p => exact (event_answers .. : ∃ s', execChainTimeout t p s = .next s')
  | responsePost t p => exact (event_answers .. : ∃ s', execResponsePost t p s = .next s')
  | completeDrop t p => exact (by unfold execCompleteDrop; exact event_answers .. : ∃ s', execCompleteDrop t p s = .next s')
  | sbSubmit t request => exact (event_answers .. : ∃ s', execSbSubmit t request s = .next s')
  | sbDone t => exact (event_answers .. : ∃ s', execSbDone t s = .next s')
  | sbAbort t => exact (event_answers .. : ∃ s', execSbAbort t s = .next s')
  | enec t events => exact (event_answers .. : ∃ s', execEnec t events s = .next s')
  | disec t events => exact (event_answers .. : ∃ s', execDisec t events s = .next s')
  | rstdaa t => exact (event_answers .. : ∃ s', execRstdaa t s = .next s')
  | entdaa t addr => exact (event_answers .. : ∃ s', execEntdaa t addr s = .next s')
  | setdasa t static addr => exact (event_answers .. : ∃ s', execSetdasa t static addr s = .next s')
  | setnewda t addr => exact (event_answers .. : ∃ s', execSetnewda t addr s = .next s')
  | setmwl t len => exact (event_answers .. : ∃ s', execSetmwl t len s = .next s')
  | setmrl t len => exact (event_answers .. : ∃ s', execSetmrl t len s = .next s')
  | getmwl t => exact (cccAnswer_answers .. : ∃ s', execGetmwl t s = .next s')
  | getmrl t => exact (cccAnswer_answers .. : ∃ s', execGetmrl t s = .next s')
  | getpid t => exact (cccAnswer_answers .. : ∃ s', execGetpid t s = .next s')
  | getbcr t => exact (cccAnswer_answers .. : ∃ s', execGetbcr t s = .next s')
  | getdcr t => exact (cccAnswer_answers .. : ∃ s', execGetdcr t s = .next s')
  | getstatus t => exact (event_answers .. : ∃ s', execGetstatus t s = .next s')
  | powerOn t env => exact (event_answers .. : ∃ s', execPowerOn t env s = .next s')
  | porNPulse t width => exact (event_answers .. : ∃ s', execPorNPulse t width s = .next s')
  | vmidFail t => exact (event_answers .. : ∃ s', execVmidFail t s = .next s')
  | keeperLoss t => exact (event_answers .. : ∃ s', execKeeperLoss t s = .next s')
  | refLost t => exact (event_answers .. : ∃ s', execRefLost t s = .next s')
  | refReturn t khz => exact (event_answers .. : ∃ s', execRefReturn t khz s = .next s')
  | lfxtalLoss t => exact (event_answers .. : ∃ s', execLfxtalLoss t s = .next s')
  | lfxtalValid t khz => exact (event_answers .. : ∃ s', execLfxtalValid t khz s = .next s')
  | pllLock t n => exact (event_answers .. : ∃ s', execPllLock t n s = .next s')
  | pllLockTimeout t n => exact (event_answers .. : ∃ s', execPllLockTimeout t n s = .next s')
  | pllUnlock t n => exact (event_answers .. : ∃ s', execPllUnlock t n s = .next s')
  | watchdogExpiry t => exact (event_answers .. : ∃ s', execWatchdogExpiry t s = .next s')
  | lockstepMismatch t => exact (event_answers .. : ∃ s', execLockstepMismatch t s = .next s')
  | sramUe t => exact (event_answers .. : ∃ s', execSramUe t s = .next s')
  | tsSample t reads => exact (event_answers .. : ∃ s', execTsSample t reads s = .next s')
  | levelHoldExpiry t => exact (event_answers .. : ∃ s', execLevelHoldExpiry t s = .next s')
  | squallClear t => exact (event_answers .. : ∃ s', execSquallClear t s = .next s')
  | sampleRateReturn t => exact (event_answers .. : ∃ s', execSampleRateReturn t s = .next s')
  | graceExpiry t => exact (event_answers .. : ∃ s', execGraceExpiry t s = .next s')
  | downTimerExpiry t => exact (event_answers .. : ∃ s', execDownTimerExpiry t s = .next s')
  | foghornRepeat t => exact (event_answers .. : ∃ s', execFoghornRepeat t s = .next s')
  | shutdownExit t => exact (event_answers .. : ∃ s', execShutdownExit t s = .next s')
  | thermalStatus c => exact (command_answers .. : ∃ s', execThermalStatus c s = .next s')
  | ackFoghorn c => exact (command_answers .. : ∃ s', execAckFoghorn c s = .next s')
  | setThermal c => exact (command_answers .. : ∃ s', execSetThermal c s = .next s')
  | configTimer c => exact (command_answers .. : ∃ s', execConfigTimer c s = .next s')
  | timerControl c => exact (command_answers .. : ∃ s', execTimerControl c s = .next s')
  | timerControlAt t => exact (by unfold execTimerControlAt; exact event_answers .. : ∃ s', execTimerControlAt t s = .next s')
  | timerCapture c => exact (command_answers .. : ∃ s', execTimerCapture c s = .next s')
  | timerTick t n => exact (by unfold execTimerTick; exact event_answers .. : ∃ s', execTimerTick t n s = .next s')
  | periodEvent t n => exact (event_answers .. : ∃ s', execPeriodEvent t n s = .next s')
  | matchEvent t n second => exact (by unfold execMatchEvent; exact event_answers .. : ∃ s', execMatchEvent t n second s = .next s')
  | zeroEvent t n => exact (by unfold execZeroEvent; exact event_answers .. : ∃ s', execZeroEvent t n s = .next s')
  | pinEdgeAccepted t n level => exact (by unfold execPinEdgeAccepted; exact event_answers .. : ∃ s', execPinEdgeAccepted t n level s = .next s')
  | captureEvent t n => exact (by unfold execCaptureEvent; exact event_answers .. : ∃ s', execCaptureEvent t n s = .next s')
  | tmrCapLoRead t n => exact (event_answers .. : ∃ s', execTmrCapLoRead t n s = .next s')
  | tmrCountRead t n high => exact (event_answers .. : ∃ s', execTmrCountRead t n high s = .next s')
  | fsyncOutEnd t pin => exact (event_answers .. : ∃ s', execFsyncOutEnd t pin s = .next s')
  | pinTransitionOverrun t pin => exact (event_answers .. : ∃ s', execPinTransitionOverrun t pin s = .next s')
  | loadPio c => exact (command_answers .. : ∃ s', execLoadPio c s = .next s')
  | startPio c => exact (command_answers .. : ∃ s', execStartPio c s = .next s')
  | stopPio c => exact (command_answers .. : ∃ s', execStopPio c s = .next s')
  | pioQueue c => exact (command_answers .. : ∃ s', execPioQueue c s = .next s')
  | configPins c => exact (command_answers .. : ∃ s', execConfigPins c s = .next s')
  | drive t e => exact (by unfold execDrive; exact event_answers .. : ∃ s', execDrive t e s = .next s')
  | xfer t e di => exact (by unfold execXfer; exact event_answers .. : ∃ s', execXfer t e di s = .next s')
  | fetch t e => exact (by unfold execFetch; exact event_answers .. : ∃ s', execFetch t e s = .next s')
  | store t e => exact (by unfold execStore; exact event_answers .. : ∃ s', execStore t e s = .next s')
  | copy t e pins => exact (by unfold execCopy; exact event_answers .. : ∃ s', execCopy t e pins s = .next s')
  | imm t e => exact (by unfold execImm; exact event_answers .. : ∃ s', execImm t e s = .next s')
  | loopI t e => exact (by unfold execLoop; exact event_answers .. : ∃ s', execLoop t e s = .next s')
  | waitI t e pins => exact (by unfold execWait; exact event_answers .. : ∃ s', execWait t e pins s = .next s')
  | br t e pins => exact (by unfold execBr; exact event_answers .. : ∃ s', execBr t e pins s = .next s')
  | flush t e => exact (by unfold execFlush; exact event_answers .. : ∃ s', execFlush t e s = .next s')
  | endI t e => exact (event_answers .. : ∃ s', execEnd t e s = .next s')
  | pioIllegal t e => exact (event_answers .. : ∃ s', execPioIllegal t e s = .next s')
  | pioStallEnd t e pins edge => exact (by unfold execPioStallEnd; exact event_answers .. : ∃ s', execPioStallEnd t e pins edge s = .next s')
  | waitTimeout t e => exact (by unfold execWaitTimeout; exact event_answers .. : ∃ s', execWaitTimeout t e s = .next s')
  | rxqWordMove t e => exact (by unfold execRxqWordMove; exact event_answers .. : ∃ s', execRxqWordMove t e s = .next s')
  | piodataPacket t e => exact (by unfold execPiodataPacket; exact event_answers .. : ∃ s', execPiodataPacket t e s = .next s')
  | pktUsExpiry t e => exact (by unfold execPktUsExpiry; exact event_answers .. : ∃ s', execPktUsExpiry t e s = .next s')
  | authChallenge c => exact (command_answers .. : ∃ s', execAuthChallenge c s = .next s')
  | authResponse c => exact (command_answers .. : ∃ s', execAuthResponse c s = .next s')
  | nonceExpiry t p => exact (event_answers .. : ∃ s', execNonceExpiry t p s = .next s')
  | setViewAuth c => exact (command_answers .. : ∃ s', execSetViewAuth c s = .next s')
  | otpRead c => exact (command_answers .. : ∃ s', execOtpRead c s = .next s')
  | otpProgram c => exact (command_answers .. : ∃ s', execOtpProgram c s = .next s')
  | otpLockRegion c => exact (command_answers .. : ∃ s', execOtpLockRegion c s = .next s')
  | lifecycle c => exact (command_answers .. : ∃ s', execLifecycle c s = .next s')
  | fwLoad c => exact (command_answers .. : ∃ s', execFwLoad c s = .next s')
  | fwLoadTimeout t => exact (event_answers .. : ∃ s', execFwLoadTimeout t s = .next s')
  | fwHandover t => exact (event_answers .. : ∃ s', execFwHandover t s = .next s')
  | rollbackStepWrite t => exact (event_answers .. : ∃ s', execRollbackStepWrite t s = .next s')
  | encNAlarm t => exact (event_answers .. : ∃ s', execEncNAlarm t s = .next s')
  | shieldCheck t bad => exact (event_answers .. : ∃ s', execShieldCheck t bad s = .next s')
  | vglitch t => exact (event_answers .. : ∃ s', execVglitch t s = .next s')
  | faultRepeat t code inst => exact (by unfold execFaultRepeat; exact event_answers .. : ∃ s', execFaultRepeat t code inst s = .next s')
  | converterSelfTest t => exact (event_answers .. : ∃ s', execConverterSelfTest t s = .next s')
  | memorySelfTest t => exact (event_answers .. : ∃ s', execMemorySelfTest t s = .next s')
  | linkSelfTest t => exact (event_answers .. : ∃ s', execLinkSelfTest t s = .next s')
  | bistComplete t read => exact (event_answers .. : ∃ s', execBistComplete t read s = .next s')
  | lfxtalWaitTimeout t => exact (event_answers .. : ∃ s', execLfxtalWaitTimeout t s = .next s')
  | dtimeSlewEnd t => exact (event_answers .. : ∃ s', execDtimeSlewEnd t s = .next s')
  | otpWordProgrammed t norm strict => exact (event_answers .. : ∃ s', execOtpWordProgrammed t norm strict s = .next s')
  | slowCommandTimeout t opcode => exact (by unfold execSlowCommandTimeout; exact event_answers .. : ∃ s', execSlowCommandTimeout t opcode s = .next s')
  | prbsSyncAcquired t p rx => exact (event_answers .. : ∃ s', execPrbsSyncAcquired t p rx s = .next s')
  | prbsSyncLoss t p rx => exact (event_answers .. : ∃ s', execPrbsSyncLoss t p rx s = .next s')
  | chargerRestStart t mean dq v1 iOut => exact (event_answers .. : ∃ s', execChargerRestStart t mean dq v1 iOut s = .next s')
  | chargeBudgetExceeded t dq => exact (event_answers .. : ∃ s', execChargeBudgetExceeded t dq s = .next s')
  | chargeTargetReached t mv => exact (event_answers .. : ∃ s', execChargeTargetReached t mv s = .next s')

/-- Settles O2: `exec_answers`, and the fault of a request beyond the 15 GiB. -/
theorem onlyAbsentMemoryStops : Obligations.OnlyAbsentMemoryStops := by
  unfold Obligations.OnlyAbsentMemoryStops
  exact ⟨fun i s h => exec_answers i h, fun s t cls inst fma w h => memRequest_faults h⟩

end Sys2Proof.Machine
end

section
/-! Frame memory stays canonical. What the operations of the memory and of the event ring leave of its form (R184, R186): each operation that
stores into it, forgets a part of it or loses it has one rule, and the operations between leave it alone. -/

namespace Sys2Proof.Machine

variable {s s' : State} {L : List Part}

/-- The cells of frame memory are in their one form: addresses rising and inside the memory, no byte that an unlisted address reads as. -/
def Canonical (s : State) : Prop := Memory.wf s.fm = true

/-- `rfl` says which state the operations that `simp` peels off begin in. -/
@[refl] theorem Within.refl : Within L s s := within_self

/-- Operations that leave frame memory alone may follow. -/
theorem Canonical.along (hk : Within (Part.but [.fm]) s s') (h : Canonical s) : Canonical s' := by
  rw [Canonical, hk.fm (by simp)]
  exact h

theorem Canonical.foldl {α : Type} {f : State → α → State} (hf : ∀ v x, Canonical v → Canonical (f v x)) {l : List α} (h : Canonical s) :
    Canonical (l.foldl f s) := by
  induction l generalizing s with
  | nil => exact h
  | cons x l ih => exact ih (hf _ _ h)

theorem Canonical.ite {c : Prop} [Decidable c] {a b : State} (ha : Canonical a) (hb : Canonical b) : Canonical (if c then a else b) := by
  split <;> assumption

theorem Canonical.loseMemory : Canonical (loseMemory s) := rfl

section
variable (h : Canonical s) {t d : Time} {n i k p flags m : Nat} {bs : List Byte}
include h

theorem Canonical.fmWrite : Canonical (fmWrite s n bs) := fmWrite_wf _ _ h

theorem Canonical.fmForget : Canonical (fmForget s n m) := fmForget_wf _ _ h

theorem Canonical.takeRegion : Canonical (takeRegion s n m) := takeRegion_wf _ _ h

theorem Canonical.rewriteWaiting {old : State} : Canonical (rewriteWaiting s old) := by
  refine .foldl (fun v e hv => ?_) h
  split
  · exact .foldl (fun _ _ hw => .ite hw.fmWrite hw) hv
  · exact hv

theorem Canonical.memStore {c : Nat} : Canonical (memStore s c i n bs t) := .ite h (.along (by simp; rfl) h.fmWrite)

theorem Canonical.loseRequests {all : Bool} : Canonical (loseRequests s all) := by
  unfold Machine.loseRequests
  refine .along (by simp; rfl) ?_
  exact .foldl (fun _ _ hv => hv.fmForget) h

theorem Canonical.dirWrite : Canonical (dirWrite s t) := .ite h (.memStore (.memStore (.along (by simp) h)))

theorem Canonical.sealSegment : Canonical (sealSegment s i flags t) := .dirWrite (.along (by simp) h)

theorem Canonical.releaseSlot : Canonical (releaseSlot s i t) := .dirWrite (.along (by simp) h)

theorem Canonical.setCont : Canonical (setCont s i k n t) := .memStore (.along (by simp) h)

theorem Canonical.closeRec : Canonical (closeRec s i flags t) := by
  unfold Machine.closeRec
  split
  · extract_lets pad padded moved parts r closed cont conts stored
    have hpadded : Canonical padded := .ite h.memStore h
    have hconts : Canonical conts := .foldl (fun _ _ hv => hv.setCont) (.along (by simp [closed, moved]) hpadded)
    exact .along (by simp [stored]; rfl) hconts.memStore
  · exact h

theorem Canonical.closeAll : Canonical (closeAll s flags t) := .foldl (fun _ _ hv => hv.closeRec) h

theorem Canonical.cutSegments : Canonical (cutSegments s flags t) :=
  .foldl (fun _ _ hv => .ite (.sealSegment (.along (by simp) hv)) hv) h

theorem Canonical.ringFull : Canonical (ringFull s t) := .cutSegments (.along (by simp; rfl) h.closeAll)

theorem Canonical.freeAChunk : Canonical (freeAChunk n s t) := by
  induction n generalizing s with
  | zero => exact h
  | succ n ih =>
    rw [Machine.freeAChunk]
    refine .ite h ?_
    split
    · exact ih (.releaseSlot (.along (by simp) h))
    · exact h

theorem Canonical.takeChunk : Canonical (takeChunk s i t) := by
  unfold Machine.takeChunk
  extract_lets freed
  have hfreed : Canonical freed := .ite h.freeAChunk h
  split
  · exact hfreed.ringFull
  · exact .dirWrite (.memStore (.along (by simp) hfreed))

theorem Canonical.appendRec : Canonical (appendRec n s i bs t) := by
  induction n generalizing s bs with
  | zero => exact h
  | succ n ih =>
    rw [Machine.appendRec]
    split
    · exact h
    · refine .ite h ?_
      split
      · exact h
      · refine .ite (ih ?_) (ih (.along (by simp; rfl) h.memStore))
        split
        · exact .ite (.along (by simp; rfl) h.takeChunk) h.takeChunk
        · exact h.takeChunk

theorem Canonical.openRecord : Canonical (openRecord s i bs t) := by
  unfold Machine.openRecord
  extract_lets needs taken
  have htaken : Canonical taken := .ite h.takeChunk h
  split
  · exact htaken
  · exact .ite htaken (.along (by simp; rfl) htaken.memStore)

theorem Canonical.addLine : Canonical (addLine s i bs t) := .ite (.along (by simp) h) (.appendRec (.along (by simp) h))

end

section
variable (h : Canonical s) {t d : Time} {n i k flags m row frame : Nat} {p : PortIx} {bs : List Byte}
include h

theorem Canonical.packetLeft {x : Pkt} : Canonical (packetLeft s p x t) := by
  unfold Machine.packetLeft
  split
  · exact h
  next v _ =>
    extract_lets b on begun closed last
    have hbegun : Canonical begun := .ite (.along (by simp) h) h
    refine .ite hbegun (.ite ?_ ?_)
    · split
      · exact .ite (.along (by simp) hbegun) hbegun
      · exact .along (by simp) hbegun
      · exact hbegun
    · split
      · exact .ite hbegun.closeRec.openRecord hbegun.closeRec
      · exact .ite hbegun.addLine hbegun
      · exact .closeRec (.along (by simp [last]) hbegun)
      · exact hbegun

theorem Canonical.ringForget : Canonical (ringForget s i t) := by
  unfold Machine.ringForget
  exact .along (by simp [-within_ite]; rfl) (.ite h h.closeRec)

theorem Canonical.ringThaw : Canonical (ringThaw s t) := h.closeAll

theorem Canonical.openSegment {code end_ : Nat} : Canonical (openSegment s i code flags d end_ t) := .dirWrite (.along (by simp) h)

theorem Canonical.makeSlot : Canonical (makeSlot s t).2.2 := by
  unfold Machine.makeSlot
  split
  · exact h
  · split
    · split
      · exact .releaseSlot (.along (by simp) h)
      · exact .along (by simp) h
    · exact .along (by simp) h

theorem Canonical.ringDusk : Canonical (ringDusk s d) := by
  unfold Machine.ringDusk
  refine .ite h (.dirWrite (.ite ?_ h.closeAll.cutSegments))
  have hmade : Canonical (Machine.makeSlot (Machine.cutSegments (Machine.closeAll s 2 d) 4 d) d).2.2 := h.closeAll.cutSegments.makeSlot
  generalize Machine.makeSlot (Machine.cutSegments (Machine.closeAll s 2 d) 4 d) d = made at hmade ⊢
  obtain ⟨_ | i, b, r⟩ := made
  · exact hmade
  · exact hmade.openSegment.sealSegment

theorem Canonical.ringRecover : Canonical (ringRecover s t).1 := by
  unfold Machine.ringRecover
  extract_lets loaded
  have hloaded : Canonical loaded := .along (by simp [loaded]) h
  split
  · exact .along (by simp) hloaded
  · extract_lets read bad dead n fix chunks keep old ring restored moved
    have hkept : Canonical restored := .along (by simp [restored, ring, old, read]) hloaded
    exact .ite hkept.dirWrite hkept

theorem Canonical.freeDeleted {del : Bool} : Canonical (freeDeleted s i del t) := .ite (.ringForget (.along (by simp) h)) h

theorem Canonical.stopViewNow : Canonical (stopViewNow s i t) := .freeDeleted (.along (by simp) h)

theorem Canonical.expireHold : Canonical (expireHold s p t) := .foldl (fun _ _ hv => .ite (.freeDeleted (.along (by simp) hv)) hv) h

theorem Canonical.stopAllViews : Canonical (stopAllViews s t) := .foldl (fun _ _ hv => .ite hv.stopViewNow hv) h

theorem Canonical.rasterToCreated : Canonical (rasterToCreated s t) := .foldl (fun _ _ hv => .ite (.freeDeleted (.along (by simp) hv)) hv) h

theorem Canonical.beginView : Canonical (beginView s i t) := by
  unfold Machine.beginView
  extract_lets q n first base taken placed own
  clear_value base
  have htaken : Canonical taken := by
    simp only [taken]
    split
    · exact h.takeRegion
    · exact h
  have hplaced : Canonical placed := by
    simp only [placed]
    split
    · exact .ite htaken (.along (by simp) htaken)
    · exact htaken
  exact .along (by simp) hplaced

theorem Canonical.startProfileView : Canonical (startProfileView s p t) := .ite h.beginView h

end

end Sys2Proof.Machine
end

section
/-! Frame memory stays canonical: ports and views, lines of the array and of the aux inputs, and self-tests (R184, R186). -/

namespace Sys2Proof.Machine

variable {s : State}

section
variable (h : Canonical s) {t d : Time} {n i k flags m row frame : Nat} {p : PortIx} {bs : List Byte}
include h

theorem Canonical.enterActive : Canonical (enterActive s p t) := by
  unfold Machine.enterActive
  extract_lets q lapsed late held acked fresh
  have hlapsed : Canonical lapsed := by
    simp only [lapsed]
    split
    · exact .ite (.along (by simp) h) h
    · exact h
  have hheld : Canonical held := .ite hlapsed.expireHold hlapsed
  split
  exact .ite (.startProfileView (.along (by simp) hheld)) (.along (by simp) hheld)

theorem Canonical.deliverLine {kind : Option Nat} {codes : List Nat} : Canonical (deliverLine s n frame row kind codes flags t) := by
  unfold Machine.deliverLine
  extract_lets fs piped
  have hpiped : Canonical piped := .ite (.along (by simp) h) h
  refine .foldl (fun v f hv => .ite ?_ hv) hpiped
  exact .ite hv.memStore (.along (by simp; rfl) hv.memStore)

theorem Canonical.dropLine {l : Line} : Canonical (dropLine s n l t) := by
  unfold Machine.dropLine
  split
  · exact .along (by simp) h
  · exact .deliverLine (.along (by simp) h)
  · exact .deliverLine (.along (by simp) h)

theorem Canonical.loseQueued : Canonical (loseQueued s t) :=
  .foldl (fun _ _ hv => .foldl (fun _ _ hw => hw.dropLine) (.along (by simp) hv)) h

theorem Canonical.emitLine {l : Line} : Canonical (emitLine s n l t) := .ite h (.ite (.along (by simp) h) (.along (by simp; rfl) h.dropLine))

theorem Canonical.takeLine {crcOk : Bool} : Canonical (takeLine s n crcOk t) := by
  unfold Machine.takeLine
  split
  · exact h
  · extract_lets taken damaged counted raised
    have htaken : Canonical taken := .along (by simp [taken]) h
    split
    · split
      · exact .ite (.memStore (.along (by simp) htaken)) htaken
      · exact htaken
    · exact .ite htaken.deliverLine (.deliverLine (.along (by simp [raised, counted]) htaken))
    · exact htaken.deliverLine

theorem Canonical.slotTile {q : Nat} {counts : List (Nat × Nat)} : Canonical (slotTile s k n i q counts t) := by
  unfold Machine.slotTile
  split
  · exact h
  next f _ =>
    extract_lets +onlyGivenNames g j J pat4
    split
    extract_lets +onlyGivenNames real sc dg counted gv noted dmg sent ended
    have hsent : Canonical sent := .emitLine (.along (by simp [noted, counted]) h)
    have hended : Canonical ended := .along (by simp [ended]) hsent
    refine .ite (.ite hended.emitLine (.along (by simp) hended)) (.ite (.along (by simp) hended) ?_)
    exact .along (by simp; rfl) (.emitLine (.along (by simp) hended))

theorem Canonical.rowSlot {samples : List (TileIx × List (Nat × Nat))} : Canonical (rowSlot s samples t) := by
  unfold Machine.rowSlot
  split
  · exact h
  next f _ =>
    extract_lets q fin r going read issued
    clear_value r
    have hread : Canonical read := by
      have hgoing : Canonical going := .along (by simp [going]) h
      simp only [read]
      split
      · exact hgoing
      · split
        · exact hgoing
        · exact .ite (.along (by simp; rfl) (.foldl (fun _ _ hv => hv.slotTile) hgoing)) (.foldl (fun _ _ hv => hv.slotTile) hgoing)
    exact .along (by simp [issued]) hread

theorem Canonical.killArray : Canonical (killArray s t) := .ite (.along (by simp; rfl) (.loseQueued (.along (by simp) h))) h

end

section
variable (h : Canonical s) {t d : Time} {n i k flags m row frame : Nat} {p : PortIx} {bs : List Byte}
include h

theorem Canonical.auxDeliver {got : List Nat} {full : Bool} : Canonical (auxDeliver s n i row got flags full t) := by
  unfold Machine.auxDeliver
  extract_lets c dt fs piped codes stored
  have hpiped : Canonical piped := .ite (.along (by simp) h) h
  exact .ite (.ite hpiped.memStore (.along (by simp; rfl) hpiped.memStore)) hpiped

theorem Canonical.closeAuxFrame : Canonical (closeAuxFrame s n i flags t) := by
  unfold Machine.closeAuxFrame
  extract_lets c height short fl counted noted drop marked bumped ids cut missed delivered ended mine closed
  have hmarked : Canonical marked := .along (by simp [marked, noted, counted]) h
  have hdelivered : Canonical delivered := .foldl (fun _ _ hv => hv.auxDeliver) hmarked
  refine .ite h (.along (s := closed) (by simp) (.ite ?_ ?_))
  · exact .along (by simp [missed, cut, bumped]) hmarked
  · exact .along (by simp [ended]) hdelivered

theorem Canonical.openAuxFrame : Canonical (openAuxFrame s n i t) := by
  unfold Machine.openAuxFrame
  extract_lets +onlyGivenNames counted closed
  have hclosed : Canonical closed := .closeAuxFrame (.along (by simp [counted]) h)
  refine .along ?_ hclosed
  clear_value closed
  dsimp only
  split <;> simp

theorem Canonical.sendVideo : Canonical (sendVideo s p n t) := by
  unfold Machine.sendVideo
  split
  · exact h
  · exact .ite (.packetLeft (.along (by simp) h)) (.along (by simp) h)

omit h in
theorem Canonical.finishMemBist {fails : List Nat} : Canonical (finishMemBist s fails t) := by
  unfold Machine.finishMemBist
  exact .along (by simp; rfl) (.rewriteWaiting .loseMemory)

theorem Canonical.finishBist {fails : List Nat} : Canonical (finishBist s fails t) := by
  unfold Machine.finishBist
  split
  · exact .along (by simp) h
  · exact .finishMemBist
  · exact .along (by simp) h

theorem Canonical.goStandby : Canonical (goStandby s t) := by
  unfold Machine.goStandby
  exact .along (by simp; rfl) (.stopAllViews (.along (by simp) h))

theorem Canonical.reserveSpill {g : Settings} : Canonical (reserveSpill s g) := by
  unfold Machine.reserveSpill
  cases s.arr.spillPend
  all_goals
    refine .ite (.along (by simp) h) ?_
    split
    · exact .along (by simp; rfl) (.takeRegion (.along (by simp) h))
    · exact .along (by simp) h

theorem Canonical.auxLine {crcOk : Bool} : Canonical (auxLine s n i bs crcOk t) := by
  unfold Machine.auxLine
  refine .ite (.along (by simp) h) ?_
  split
  next l read heq =>
    have hread : Canonical read := by
      have : Within (Part.but [.fm]) s (unpackLine (s.modVc n i (fun c => { c with lines := c.lines + 1 })) (auxDt s n i) bs).2 := by simp
      rw [heq] at this
      exact .along this h
    exact .along (by simp; rfl) (.auxDeliver (.along (by simp) hread))

end

end Sys2Proof.Machine
end

section
/-! Frame memory stays canonical: the controller, the throttle steps, resets, Dusk and Dawn, PLLs and register writes (R184, R186). -/

namespace Sys2Proof.Machine

variable {s : State}

section
variable (h : Canonical s) {t d : Time} {n i k flags m row frame : Nat} {p : PortIx} {bs : List Byte}
include h

theorem Canonical.failRequests {all : Bool} : Canonical (failRequests s all) := by
  unfold Machine.failRequests
  exact .along (by simp; rfl) h.loseRequests

theorem Canonical.memUnavail : Canonical (memUnavail s t) := by
  unfold Machine.memUnavail
  exact .along (by simp; rfl) (.rasterToCreated (.along (by simp; rfl) h.failRequests))

theorem Canonical.relockPllm : Canonical (relockPllm s t) := .ite (.memUnavail (.along (by simp) h)) (.along (by simp) h)

theorem Canonical.changeFlush : Canonical (changeFlush s t) := by
  unfold Machine.changeFlush
  extract_lets hold flushed m
  have hflushed : Canonical flushed := .ite h (.along (by simp) h)
  exact .ite (.ite (.relockPllm (.along (by simp) hflushed)) hflushed) h

theorem Canonical.acceptChange : Canonical (acceptChange s t) := .changeFlush (.along (by simp) h)

theorem Canonical.requestChange : Canonical (requestChange s t) := by
  unfold Machine.requestChange
  dsimp only
  split
  · exact .ite h h.acceptChange
  · exact .along (by simp) h
  · exact .along (by simp) h
  · exact .along (by simp) h
  · exact .along (by simp) h
  · exact h

theorem Canonical.forceChange : Canonical (forceChange s t) := by
  unfold Machine.forceChange
  refine .ite ?_ h
  split
  · exact h.acceptChange
  · exact h.acceptChange
  · exact h.acceptChange
  · exact .along (by simp) h
  · exact .along (by simp) h
  · exact h

theorem Canonical.setMemCap : Canonical (setMemCap s n t) :=
  .ite (.forceChange (.along (by simp) h)) (.ite (.requestChange (.along (by simp) h)) (.along (by simp) h))

theorem Canonical.thawEnd : Canonical (thawEnd s t) := by
  unfold Machine.thawEnd
  exact .along (by simp; rfl) (.ringThaw (.along (by simp) h))

theorem Canonical.memResume : Canonical (memResume s t) := by
  unfold Machine.memResume
  extract_lets thawed running unfrozen cleared admitted refilled settled
  have hunfrozen : Canonical unfrozen := .ite (.thawEnd (.along (by simp [running]) h)) (.along (by simp [running]) h)
  have hrefilled : Canonical refilled := .along (by simp [refilled, admitted, cleared]) hunfrozen
  exact .ite hrefilled.acceptChange (.ite (.along (by simp [settled]) hrefilled) (.along (by simp [settled]) hrefilled))

theorem Canonical.poisonUnit : Canonical (poisonUnit s t) := .ite (.along (by simp; rfl) h.memStore) (.along (by simp; rfl) h.memStore)

theorem Canonical.recoverStep : Canonical (recoverStep s t) := by
  unfold Machine.recoverStep
  split
  · extract_lets flushed m failed poisoned
    have hflushed : Canonical flushed := .along (by simp [flushed]) h
    have hpoisoned : Canonical poisoned := .ite hflushed.failRequests.poisonUnit hflushed.failRequests
    exact .ite (.ite (.along (by simp) hpoisoned) hpoisoned.memResume) hflushed
  · exact h

theorem Canonical.memReturn : Canonical (memReturn s t) :=
  .ite (.ite (.acceptChange (.along (by simp) h)) (.recoverStep (.along (by simp) h))) h.memResume

theorem Canonical.writeDone {e : MemEnt} : Canonical (writeDone s e n bs t) := by
  unfold Machine.writeDone
  exact .along (by simp [-within_ite]; rfl) (.ite h h.fmWrite)

theorem Canonical.sweepDone {results : List LaneWin} : Canonical (sweepDone s results t) := by
  unfold Machine.sweepDone
  extract_lets ok b swept d
  have hswept : Canonical swept := .along (by simp [swept]) h
  exact .ite (.memReturn (.along (by simp) hswept)) (.ite (.along (by simp) hswept) hswept.memUnavail)

theorem Canonical.writeTarget : Canonical (writeTarget s n t) := .requestChange (.along (by simp) h)

theorem Canonical.changeDone {ok : Bool} : Canonical (changeDone s ok t) := by
  unfold Machine.changeDone
  dsimp only
  split
  · exact .memReturn (.along (by simp) h)
  · exact .along (by simp) h

theorem Canonical.setStep : Canonical (setStep s n k t) := by
  unfold Machine.setStep
  extract_lets old counted stepped capped asked
  have hcapped : Canonical capped := .setMemCap (.along (by simp [stepped, counted]) h)
  exact .ite h (.along (by simp [asked]) hcapped)

theorem Canonical.thermShutdown : Canonical (thermShutdown s n t) := by
  unfold Machine.thermShutdown
  extract_lets +onlyGivenNames raised stopped quiet lost
  have hstopped : Canonical stopped := .along (by simp [stopped]; rfl) (.goStandby (.along (by simp [raised]) h))
  have hlost : Canonical lost := .along (by simp [lost]; rfl) (.loseRequests (.along (by simp [quiet]) hstopped))
  exact .along (by simp) hlost

theorem Canonical.evalSample : Canonical (evalSample s t) := by
  unfold Machine.evalSample
  extract_lets old new below peak level graced told onset halved noted squalled stepped forced again down fast mul drifted
  have hgraced : Canonical graced := .along (by simp [graced, level, peak, below]) h
  have hhalved : Canonical halved := .along (by simp [halved, told]) hgraced
  have hsqualled : Canonical squalled := .along (by simp [squalled, noted]) hhalved
  have hstepped : Canonical stepped := .ite hsqualled.setStep hsqualled
  have hforced : Canonical forced := .along (by simp [forced]) hstepped
  have hagain : Canonical again := .ite hforced.setStep hforced
  have hmul : Canonical mul := .along (by simp [mul, fast, down]) hagain
  have hdrifted : Canonical drifted := by
    simp only [drifted]
    split
    · exact .along (by simp) hmul
    · exact hmul
  exact .ite hdrifted.thermShutdown hdrifted

theorem Canonical.loseOutside : Canonical (loseOutside s n) := .foldl (fun _ _ hv => .ite hv hv.fmForget) h

theorem Canonical.resetUnits : Canonical (resetUnits s t) := by
  unfold Machine.resetUnits
  exact .along (by simp; rfl) (.foldl (fun _ _ hv => hv.ringForget) h)

end

theorem Canonical.resetCold {t : Time} : Canonical (resetCold s t) := by
  unfold Machine.resetCold
  exact .along (by simp; rfl) .loseMemory

theorem Canonical.powerLost {t : Time} : Canonical (powerLost s t) := by
  unfold Machine.powerLost
  exact .along (by simp; rfl) .resetCold

section
variable (h : Canonical s) {t d : Time} {n i k flags m row frame : Nat} {p : PortIx} {bs : List Byte} {vio vcore : Bool}
include h

theorem Canonical.bootMemory : Canonical (bootMemory s t) := by
  unfold Machine.bootMemory
  split
  · exact h
  · exact .ite h (.ite h.memUnavail (.ite (.along (by simp) h) (.along (by simp) h)))

theorem Canonical.bootPlls : Canonical (bootPlls s t) :=
  .ite (.ite (.memUnavail (.along (by simp) h)) (.along (by simp) h)) (.ite h (.along (by simp) h))

theorem Canonical.bootEnd : Canonical (bootEnd s t) := by
  unfold Machine.bootEnd
  extract_lets +onlyGivenNames locked
  have hlocked : Canonical locked := h.bootPlls
  exact .bootMemory (.along (by simp) hlocked)

theorem Canonical.bootStart : Canonical (bootStart s t) := by
  unfold Machine.bootStart
  extract_lets k e t3 power started burnt strapped chosen looped held fired security rom security' src map tim ctl
  have hchosen : Canonical chosen := .along (by simp [chosen, strapped, burnt, started]) h
  have hfired : Canonical fired := .along (by simp [fired, held, looped]) hchosen
  have hsrc : Canonical src := .along (by simp [src, rom]) hfired
  have hctl : Canonical ctl := .along (by simp [ctl, tim, map]) hsrc
  clear_value ctl
  exact .ite (.along (by simp) hctl) (.bootEnd (.along (by simp) hctl))

theorem Canonical.resetDevice {cold : Bool} : Canonical (resetDevice s cold k t) := by
  unfold Machine.resetDevice
  extract_lets +onlyGivenNames map caused power kind booted units
  have hkind : Canonical kind := .along (by simp [kind, caused]) h
  have hbooted : Canonical booted := .bootStart .resetCold
  have hunits : Canonical units := .resetUnits (.along (by simp; rfl) hkind.loseRequests)
  refine .ite ?_ (.bootStart (.along (by simp) hunits))
  clear_value map booted
  split
  · exact .along (by simp) hbooted
  · exact hbooted

theorem Canonical.resetFw : Canonical (resetFw s k n t) := by
  unfold Machine.resetFw
  exact .along (by simp; rfl) (.resetDevice (.along (by simp) h))

theorem Canonical.commitDusk {c : Time} {wrote : Bool} : Canonical (commitDusk s d c k n m wrote) := by
  unfold Machine.commitDusk
  exact .along (by simp; rfl) h.loseOutside

theorem Canonical.runDusk : Canonical (runDusk s d vio vcore n) := by
  unfold Machine.runDusk
  extract_lets cause pl told settled running c stopped wrote written idle quiet keep
  have hstopped : Canonical stopped := .along (by simp [stopped]; rfl) (.killArray (.along (by simp [settled, told]) h))
  have hwritten : Canonical written := .ite (.along (by simp; rfl) hstopped.ringDusk) hstopped.loseRequests
  have hidle : Canonical idle := hwritten.stopAllViews
  exact .commitDusk (.along (by simp [quiet]) hidle)

theorem Canonical.startDusk : Canonical (startDusk s t vio vcore n) := .ite (.commitDusk (.ite h h.loseRequests)) h.runDusk

theorem Canonical.supplyFails : Canonical (supplyFails s d vio vcore n) := .ite h.startDusk .powerLost

theorem Canonical.dawnEnd : Canonical (dawnEnd s t) := by
  unfold Machine.dawnEnd
  have hread := h.ringRecover (t := t)
  generalize Machine.ringRecover s t = read at hread ⊢
  extract_lets wrote
  split
  next r res segs heq =>
    have hr : Canonical r := by
      split at heq
      · cases heq; exact h
      · split at heq
        · cases heq; exact .along (by simp) h
        · split at heq <;> cases heq <;> exact hread
    extract_lets +onlyGivenNames trusted hold noted pl power dawned rs booted
    have hbooted : Canonical booted := .bootStart (.along (by simp [dawned, noted, trusted]) hr)
    exact .ite (.resetDevice (.along (by simp) hbooted)) hbooted

theorem Canonical.runDawn {env : BootEnv} : Canonical (runDawn s t env) := by
  unfold Machine.runDawn
  extract_lets +onlyGivenNames buoy old hold caused cut units
  have hunits : Canonical units := .resetUnits (.along (by simp [cut, caused]) h)
  clear_value units
  extract_lets clk power resets security dark dawned locked ready
  have hready : Canonical ready := .along (by simp [ready, locked, dawned, clk]) hunits
  exact .ite hready.memUnavail.dawnEnd hready

theorem Canonical.pllFailed : Canonical (pllFailed s n t) := by
  unfold Machine.pllFailed
  split
  · exact .along (by simp) h
  · split
    · exact h
    · exact h
    · exact h
    · exact h.memUnavail
  · exact .along (by simp) h
  · exact h

theorem Canonical.ifFailed : Canonical (ifFailed s n t) := .ite h.pllFailed h

theorem Canonical.memcWrite : Canonical (memcWrite s n k t) :=
  .ite h.writeTarget (.ite (.along (by simp) h) (.ite (.along (by simp) h) (.along (by simp) h)))

theorem Canonical.pllRelock : Canonical (pllRelock s n t) := .ite h (.ifFailed (.along (by simp) h))

theorem Canonical.pclkWrite : Canonical (pclkWrite s n k t) :=
  .ite (.pllRelock (.along (by simp) h)) (.ite (.pllRelock (.along (by simp) h)) (.ite (.along (by simp) h) (.along (by simp) h)))

theorem Canonical.writeOne {c : Call} : Canonical (writeOne s c n k) := by
  unfold Machine.writeOne
  split
  case h_5 => exact h.memcWrite
  case h_7 => exact h.pclkWrite
  all_goals exact .along (by simp) h

theorem Canonical.writeTriple {c : Call} {x : Nat × Nat × Nat} : Canonical (writeTriple s c x) := by
  unfold Machine.writeTriple
  split
  · exact h
  · exact .ite h h.writeOne

end

end Sys2Proof.Machine
end

section
/-! Frame memory stays canonical: the commands that touch it, and every step (R184, R186). -/

namespace Sys2Proof.Machine

variable {s : State}

/-- Where an outcome is a next state, that state's frame memory is canonical. -/
def StaysCanonical (r : Out) : Prop := ∀ s', r = .next s' → Canonical s'

theorem Canonical.at (h : Canonical s) {t : Time} : Canonical (s.at t) := by
  rw [Canonical, State.at_fm]
  exact h

section
variable (h : Canonical s) {t : Time} {n k : Nat} {p : PortIx} {bs : List Byte} {vio vcore : Bool} {c : Call}
include h

theorem Canonical.event {due : State → Bool} {act : State → State} (ha : ∀ u, Canonical u → Canonical (act u)) :
    StaysCanonical (event s t due act) := fun s' he => by
  rcases event_cases he with ⟨-, rfl⟩ | ⟨-, rfl⟩
  · exact ha _ h.at
  · exact h.at

theorem Canonical.command {op : Nat} {cls : Cls} {checks : State → List (Option Reject)} {act : State → State}
    (ha : ∀ u, Canonical u → Canonical (act u)) : StaysCanonical (command s c op cls checks act) := fun s' he => by
  rcases command_cases he with rfl | ⟨r, rfl⟩ | rfl
  · exact ha _ h.at
  · exact .along (by simp; rfl) h.at
  · exact h.at

theorem Canonical.execHoldExpiry : StaysCanonical (execHoldExpiry t p s) := h.event fun _ hu => .expireHold (.along (by simp) hu)

theorem Canonical.execAlignmentMarkerRx : StaysCanonical (execAlignmentMarkerRx t p bs s) := h.event fun _ hu =>
  .ite (.along (by simp [-within_ite]; rfl) (.ite hu hu.enterActive)) (.ite (.along (by simp) hu) (.along (by simp) hu))

theorem Canonical.execDownstreamCellSlot : StaysCanonical (execDownstreamCellSlot t p s) := h.event fun u hu => by
  extract_lets credited q rel excused sent limit
  have hcredited : Canonical credited := .ite (.along (by simp) hu) hu
  have hexcused : Canonical excused := .ite (.along (by simp) hcredited) hcredited
  clear_value excused
  refine .ite (.along (by simp) hcredited) (.ite (.along (by simp [sent]) hexcused) (.ite (.along (by simp) hexcused)
    (.ite (.along (by simp) hexcused) (.ite (.along (by simp [limit]) hexcused) ?_))))
  split
  · exact hexcused.sendVideo
  · exact .along (by split <;> simp) hexcused

theorem Canonical.execSetPowerState : StaysCanonical (execSetPowerState c s) := h.command fun u hu => by
  have ha : Canonical (accept u c 0x0005 (50 * ms) (u8 c.payload 0)) := .along (by simp) hu
  exact .ite (.along (by simp) ha) (.ite (.along (by simp; rfl) ha.goStandby) (.ite (.along (by simp) ha) (.along (by simp) ha)))

theorem Canonical.execCommitSettings : StaysCanonical (execCommitSettings c s) := by
  unfold Machine.execCommitSettings
  refine h.command fun u hu => ?_
  have hreserved : Canonical (Machine.reserveSpill (unlatch u c.stamp) u.arr.staged) := .reserveSpill (.along (by simp) hu)
  obtain ⟨reserved, he⟩ : ∃ r, r = Machine.reserveSpill (unlatch u c.stamp) u.arr.staged := ⟨_, rfl⟩
  rw [← he] at hreserved ⊢
  exact .along (by simp) hreserved

theorem Canonical.execRowSlot {samples : List (TileIx × List (Nat × Nat))} : StaysCanonical (execRowSlot t samples s) :=
  h.event fun _ hu => hu.rowSlot

theorem Canonical.execMosaicLineTransfer {tile : TileIx} {crcOk : Bool} : StaysCanonical (execMosaicLineTransfer t tile crcOk s) :=
  h.event fun _ hu => hu.takeLine

theorem Canonical.auxPacket {v : Nat} {ok : Nat} : Canonical (auxPacket s n v ok).1 := .along (by simp) h

theorem Canonical.execAuxFrameStart {n : AuxIx} {head : BitVec 24} {ecc : Byte} : StaysCanonical (execAuxFrameStart t n head ecc s) :=
  h.event fun _ hu => .ite hu.auxPacket.openAuxFrame hu.auxPacket

theorem Canonical.execAuxFrameEnd {n : AuxIx} {head : BitVec 24} {ecc : Byte} : StaysCanonical (execAuxFrameEnd t n head ecc s) :=
  h.event fun _ hu => .ite hu.auxPacket.closeAuxFrame hu.auxPacket

theorem Canonical.execAuxLongPacket {n : AuxIx} {di : Byte} {wc : BitVec 16} {ecc : Byte} {crc : BitVec 16} :
    StaysCanonical (execAuxLongPacket t n di wc ecc bs crc s) := h.event fun u hu => by
  extract_lets +onlyGivenNames hdr v
  have hread := hu.auxPacket (n := n.val) (v := v) (ok := csiOk hdr)
  generalize Machine.auxPacket u n.val v (csiOk hdr) = read at hread ⊢
  obtain ⟨r, go⟩ := read
  exact .ite (.along (by simp) hread) (.ite (.along (by simp) hread) (.ite (.auxLine (.along (by simp) hread)) (.along (by simp) hread)))

theorem Canonical.execAuxLos {n : AuxIx} {lanes : BitVec 4} : StaysCanonical (execAuxLos t n lanes s) := h.event fun _ hu =>
  .along (by simp; rfl) (.foldl (fun _ _ hv => hv.closeAuxFrame) hu)

theorem Canonical.execMemAccessComplete {q : Fin 256} {flips chk : List (Nat × Nat)} : StaysCanonical (execMemAccessComplete t q flips chk s) :=
  h.event fun u hu => by
    extract_lets finished acked
    have hfinished : Canonical finished := by
      simp only [finished]
      split
      · exact .along (by simp) hu
      · split
        · exact .ite (.writeDone (.along (by simp) hu)) (.along (by simp) hu)
        · exact .along (by simp) hu
      · exact hu
    exact .recoverStep (.changeFlush (.ite hfinished (.along (by simp) hfinished)))

theorem Canonical.execMemcBinTargetWrite {target : BitVec 2} : StaysCanonical (execMemcBinTargetWrite t target s) :=
  h.event fun _ hu => hu.writeTarget

theorem Canonical.execMemRecover : StaysCanonical (execMemRecover c s) := h.command fun u hu => by
  extract_lets accepted
  have ha : Canonical accepted := .along (by simp [accepted]) hu
  split
  · exact .recoverStep (.along (by simp) ha)
  · exact .along (by simp) ha
  · exact .along (by simp) ha

theorem Canonical.execTsSample {reads : List (Option Int)} : StaysCanonical (execTsSample t reads s) := h.event fun _ hu =>
  .evalSample (.along (by simp) hu)

theorem Canonical.execGraceExpiry : StaysCanonical (execGraceExpiry t s) := h.event fun _ hu =>
  .ite (.along (by simp; rfl) (.setStep (.along (by simp) hu))) (.along (by simp) hu)

theorem Canonical.execDownTimerExpiry : StaysCanonical (execDownTimerExpiry t s) := h.event fun _ hu =>
  .along (by simp; rfl) (.setStep (.along (by simp) hu))

theorem Canonical.execPowerOn {env : BootEnv} : StaysCanonical (execPowerOn t env s) := h.event fun _ hu => .resetDevice (.along (by simp) hu)

theorem Canonical.execPorNPulse {width : Time} : StaysCanonical (execPorNPulse t width s) := h.event fun _ hu => by
  split
  · exact .along (by simp) hu
  · exact .along (by simp) hu
  · exact .along (by simp) hu
  · exact .ite (.along (by simp; rfl) .resetCold) hu.resetDevice

theorem Canonical.execVmidFail : StaysCanonical (execVmidFail t s) := h.event fun _ hu => .ite hu.startDusk .powerLost

theorem Canonical.execKeeperLoss : StaysCanonical (execKeeperLoss t s) := h.event fun _ _ => .along (by simp; rfl) .powerLost

theorem Canonical.execSupplyFail : StaysCanonical (execSupplyFail t vio vcore n s) := h.event fun _ hu => .ite (.along (by simp) hu) hu.supplyFails

theorem Canonical.execStoreExhausted : StaysCanonical (execStoreExhausted t s) := h.event fun _ _ => .along (by simp; rfl) .powerLost

theorem Canonical.execBinChange {ok : Bool} : StaysCanonical (execBinChange t ok s) := h.event fun _ hu => .ite hu.changeDone.dawnEnd hu.changeDone

theorem Canonical.execSweepComplete {results : List LaneWin} : StaysCanonical (execSweepComplete t results s) := h.event fun _ hu =>
  .ite hu.sweepDone.dawnEnd hu.sweepDone

theorem Canonical.execResetBegin : StaysCanonical (execResetBegin t s) := h.event fun _ hu => by
  split
  · exact hu.resetDevice
  · exact hu

theorem Canonical.execWatchdogExpiry : StaysCanonical (execWatchdogExpiry t s) := h.event fun _ hu => hu.resetFw
theorem Canonical.execLockstepMismatch : StaysCanonical (execLockstepMismatch t s) := h.event fun _ hu => hu.resetFw
theorem Canonical.execSramUe : StaysCanonical (execSramUe t s) := h.event fun _ hu => hu.resetFw
theorem Canonical.execShutdownExit : StaysCanonical (execShutdownExit t s) := h.event fun _ hu => hu.resetDevice

theorem Canonical.execRefLost : StaysCanonical (execRefLost t s) := h.event fun u hu => by
  refine .ite .powerLost ?_
  extract_lets +onlyGivenNames killed idle
  have hidle : Canonical idle := .along (by simp [idle]; rfl) (.stopAllViews (.along (by simp [killed]; rfl) hu.killArray))
  clear_value idle
  exact .along (by simp) hidle

theorem Canonical.execRefReturn : StaysCanonical (execRefReturn t n s) := h.event fun _ hu => .resetDevice (.along (by simp) hu)

theorem Canonical.execLfxtalValid : StaysCanonical (execLfxtalValid t n s) := h.event fun _ hu => by
  dsimp only
  split
  · exact .bootEnd (.along (by simp) hu)
  · exact .ite (.along (by simp) hu) (.ite (.along (by simp) hu) (.along (by simp) hu))

theorem Canonical.execLfxtalWaitTimeout : StaysCanonical (execLfxtalWaitTimeout t s) := h.event fun _ hu => .bootEnd (.along (by simp) hu)

theorem Canonical.execPllLockTimeout {n : Fin 4} : StaysCanonical (execPllLockTimeout t n s) := h.event fun _ hu => .ifFailed (.along (by simp) hu)

theorem Canonical.execPllUnlock {n : Fin 4} : StaysCanonical (execPllUnlock t n s) := h.event fun _ hu => .ifFailed (.along (by simp) hu)

theorem Canonical.execOtpWordProgrammed {norm strict : BitVec 39} : StaysCanonical (execOtpWordProgrammed t norm strict s) := h.event fun _ hu => by
  dsimp only
  split
  · exact .supplyFails (.along (by simp) hu)
  · exact .along (by simp) hu

theorem Canonical.execStartView : StaysCanonical (execStartView c s) := h.command fun _ hu =>
  .along (by simp [-within_ite]; rfl) (.ite hu.beginView hu)

theorem Canonical.execDeleteView : StaysCanonical (execDeleteView c s) := h.command fun _ hu =>
  .along (by simp [-within_ite]; rfl) (.ite (.along (by simp) hu) (.ringForget (.along (by simp) hu)))

theorem Canonical.execViewStopDone {v : ViewIx} : StaysCanonical (execViewStopDone t v s) := h.event fun _ hu => hu.stopViewNow

theorem Canonical.execBistComplete {read : BistRead} : StaysCanonical (execBistComplete t read s) := h.event fun _ hu => hu.finishBist

theorem Canonical.execWriteReg : StaysCanonical (execWriteReg c s) := h.command fun _ hu =>
  .along (by simp; rfl) (.foldl (fun _ _ hv => hv.writeTriple) hu)

theorem Canonical.execConfigRing : StaysCanonical (execConfigRing c s) := h.command fun u hu => by
  extract_lets +onlyGivenNames forgot sized configured begun
  have hsized : Canonical sized := .ite hu (.along (by simp; rfl) (.ite hu hu.fmForget))
  exact .along (by simp; rfl) (.dirWrite (.along (by simp [begun, configured]) hsized))

theorem Canonical.execMarkEvent : StaysCanonical (execMarkEvent c s) := h.command fun u hu => by
  have hmade := hu.makeSlot (t := c.start)
  extract_lets d answer
  split
  · exact .along (by simp [answer]) hu
  · split
    · next heq => exact .along (by simp [answer]; rfl) (.openSegment (heq ▸ hmade))
    · next heq => exact .along (by simp) (heq ▸ hmade)

theorem Canonical.execSegmentSeal {slot : Fin 8} : StaysCanonical (execSegmentSeal t slot s) := h.event fun _ hu => hu.sealSegment

theorem Canonical.execReleaseSegment : StaysCanonical (execReleaseSegment c s) := h.command fun _ hu => .along (by simp; rfl) hu.releaseSlot

theorem Canonical.execSupplyReturn {env : BootEnv} {held : Time} : StaysCanonical (execSupplyReturn t env held s) := h.event fun _ hu => hu.at.runDawn

end

/-- A command that does not touch frame memory leaves its cells, and each that does keeps their form. -/
theorem Canonical.exec (h : Canonical s) (i : Instr) : StaysCanonical (exec i s) := by
  by_cases hfm : .fm ∈ touches i
  · cases i with
    | holdExpiry => exact h.execHoldExpiry
    | alignmentMarkerRx => exact h.execAlignmentMarkerRx
    | downstreamCellSlot => exact h.execDownstreamCellSlot
    | setPowerState => exact h.execSetPowerState
    | commitSettings => exact h.execCommitSettings
    | rowSlot => exact h.execRowSlot
    | mosaicLineTransfer => exact h.execMosaicLineTransfer
    | auxFrameStart => exact h.execAuxFrameStart
    | auxFrameEnd => exact h.execAuxFrameEnd
    | auxLongPacket => exact h.execAuxLongPacket
    | auxLos => exact h.execAuxLos
    | memAccessComplete => exact h.execMemAccessComplete
    | memcBinTargetWrite => exact h.execMemcBinTargetWrite
    | memRecover => exact h.execMemRecover
    | tsSample => exact h.execTsSample
    | graceExpiry => exact h.execGraceExpiry
    | downTimerExpiry => exact h.execDownTimerExpiry
    | powerOn => exact h.execPowerOn
    | porNPulse => exact h.execPorNPulse
    | vmidFail => exact h.execVmidFail
    | keeperLoss => exact h.execKeeperLoss
    | supplyFail => exact h.execSupplyFail
    | storeExhausted => exact h.execStoreExhausted
    | binChange => exact h.execBinChange
    | sweepComplete => exact h.execSweepComplete
    | resetBegin => exact h.execResetBegin
    | watchdogExpiry => exact h.execWatchdogExpiry
    | lockstepMismatch => exact h.execLockstepMismatch
    | sramUe => exact h.execSramUe
    | shutdownExit => exact h.execShutdownExit
    | refLost => exact h.execRefLost
    | refReturn => exact h.execRefReturn
    | lfxtalValid => exact h.execLfxtalValid
    | lfxtalWaitTimeout => exact h.execLfxtalWaitTimeout
    | pllLockTimeout => exact h.execPllLockTimeout
    | pllUnlock => exact h.execPllUnlock
    | otpWordProgrammed => exact h.execOtpWordProgrammed
    | startView => exact h.execStartView
    | deleteView => exact h.execDeleteView
    | viewStopDone => exact h.execViewStopDone
    | bistComplete => exact h.execBistComplete
    | writeReg => exact h.execWriteReg
    | configRing => exact h.execConfigRing
    | markEvent => exact h.execMarkEvent
    | segmentSeal => exact h.execSegmentSeal
    | releaseSegment => exact h.execReleaseSegment
    | supplyReturn => exact h.execSupplyReturn
    | _ => exact absurd hfm (of_decide_eq_false rfl)
  · intro s' he
    have hsame : s'.fm = (s.at i.time).fm := (exec_keeps he).2 .fm hfm
    rw [Canonical, hsame]
    exact h.at

theorem Canonical.checkBooks (h : Canonical s) : Canonical (checkBooks s) := .along (by simp) h

/-- Settles O53: a step on the front command keeps the form by `Canonical.exec`, and the check of the books stores nothing. -/
theorem everyStepKeepsMemoryCanonical : Obligations.EveryStepKeepsMemoryCanonical := by
  unfold Obligations.EveryStepKeepsMemoryCanonical
  intro s s' h hs
  have hc : Canonical s := h
  unfold step at hs
  split at hs
  · cases hs
    exact hc.checkBooks
  · next i rest _ => exact Canonical.exec (s := { s with pending := rest }) hc i s' hs

end Sys2Proof.Machine
end

section
/-! The controller's own settings, which requests, stores and loads never change: its state, bins, delays, pending changes and freeze (R189, R206). -/

namespace Sys2Proof.Machine

variable {s s' u v : State} {L : List Part} {t : Time}

/-- The controller without its traffic: its requests and answers, check units, errors, banks, ranks and modes, and what the regions hold. -/
def ctlOf (m : Mem) : Mem :=
  { m with
    queue := [], wait := [], hits := [], dies := [], await := [], replies := [], ecc := [], ckq := [], ckd := [], errs := [], seals := [], banks := []
    ranks := [], subs := [], regions := [], undef := [], gen := 0 }

/-- A state whose controller is set as `m`. -/
def CtlIs (m : Mem) (s : State) : Prop := ctlOf s.mem = m

theorem ctlOf_wakeRank (m : Mem) (q : Nat) (t : Time) : ctlOf (wakeRank m q t) = ctlOf m := by
  simp only [wakeRank]
  split <;> rfl

theorem ctlOf_ckPush (m : Mem) (block : Nat) (words : Option (List (Nat × Nat))) (t : Time) : ctlOf (ckPush m block words t) = ctlOf m :=
  ctlOf_wakeRank ..

theorem ctlOf_writeBack (m : Mem) (l : EccLine) (t : Time) : ctlOf (writeBack m l t) = ctlOf m := ctlOf_ckPush ..

theorem ctlOf_foldl {α : Type} {f : Mem → α → Mem} (hf : ∀ m x, ctlOf (f m x) = ctlOf m) (l : List α) (m : Mem) : ctlOf (l.foldl f m) = ctlOf m := by
  induction l generalizing m with
  | nil => rfl
  | cons a l ih => exact (ih _).trans (hf m a)

theorem ctlOf_flushLines (m : Mem) (p : EccLine → Bool) (t : Time) : ctlOf (flushLines m p t) = ctlOf m :=
  ctlOf_foldl (fun m l => by split; exacts [ctlOf_writeBack .., rfl]) _ _

section
variable {m : Mem} (h : CtlIs m s) {c i a n d flags : Nat} {bs : List Byte} {op : MemOp} {moved : Bool} {p : PortIx}
include h

theorem CtlIs.along (hk : Within (Part.but [.mem]) s s') : CtlIs m s' := by
  rw [CtlIs, hk.mem (by simp)]
  exact h

theorem CtlIs.modMem {f : Mem → Mem} (hf : ∀ x, ctlOf (f x) = ctlOf x) : CtlIs m (s.modMem f) := (hf s.mem).trans h

theorem CtlIs.foldl {α : Type} {f : State → α → State} (hf : ∀ v x, CtlIs m v → CtlIs m (f v x)) {l : List α} : CtlIs m (l.foldl f s) := by
  induction l generalizing s with
  | nil => exact h
  | cons x l ih => exact ih (hf _ _ h)

omit h in
theorem CtlIs.ite {b : Prop} [Decidable b] {x y : State} (hx : CtlIs m x) (hy : CtlIs m y) : CtlIs m (if b then x else y) := by
  split <;> assumption

theorem CtlIs.settleMode : CtlIs m (settleMode s n) := h.modMem fun _ => by rfl

theorem CtlIs.memAnswer {l : List MemReply} : CtlIs m (memAnswer s l) := h.modMem fun _ => by rfl

theorem CtlIs.enterRequest : CtlIs m (enterRequest s t c i d op moved) := by
  unfold Machine.enterRequest
  extract_lets q sc at_ cyc e entered early l queue settled hit
  have hentered : CtlIs m entered := h.modMem fun x => ctlOf_wakeRank ..
  have hsettled : CtlIs m settled := by
    simp only [settled]
    exact .settleMode (hentered.modMem fun _ => by rfl)
  clear_value entered settled
  refine .ite (.ite (.memAnswer (hsettled.modMem fun _ => by rfl)) hsettled) ?_
  split
  · exact .ite (.ite (hentered.modMem fun _ => by rfl) (.memAnswer (hentered.modMem fun _ => by rfl))) (hentered.modMem fun _ => by rfl)
  · exact hentered.modMem fun _ => by rfl

theorem CtlIs.memArrive : CtlIs m (memArrive s t c i d op moved) := .ite (h.modMem fun _ => by rfl) h.enterRequest

theorem CtlIs.admitWaiting : CtlIs m (admitWaiting s t) := CtlIs.foldl (s := s.modMem _) h fun _ _ hv => hv.memArrive

theorem CtlIs.memLoad : CtlIs m (memLoad s c i a n t) := .ite h (h.foldl fun _ _ hv => hv.memArrive)

theorem CtlIs.memStore : CtlIs m (memStore s c i a bs t) := .ite h (CtlIs.foldl (s := fmWrite s a bs) h fun _ _ hv => hv.memArrive)

theorem CtlIs.setCont : CtlIs m (setCont s i c n t) := h.memLoad.memStore

theorem CtlIs.closeRec : CtlIs m (closeRec s i flags t) := by
  unfold Machine.closeRec
  split
  · extract_lets pad padded moved parts r closed cont conts stored
    have hpadded : CtlIs m padded := .ite h.memStore h
    have hclosed : CtlIs m closed := hpadded.along (by simp [closed, moved])
    have hconts : CtlIs m conts := hclosed.foldl fun _ _ hv => hv.setCont
    have hstored : CtlIs m stored := hconts.memStore.modMem fun _ => by rfl
    exact hstored.along (by simp)
  · exact h

theorem CtlIs.thawEnd : CtlIs m (thawEnd s t) := by
  unfold Machine.thawEnd
  extract_lets cleared
  have hcleared : CtlIs m cleared := h.along (by simp [cleared])
  exact CtlIs.along (hcleared.foldl fun _ _ hv => hv.closeRec) (by simp; rfl)

theorem CtlIs.bulkNext : CtlIs m (bulkNext s p t) := by
  unfold Machine.bulkNext
  split
  · exact h
  · split
    · exact h
    · split
      · exact h.along (by simp)
      · exact CtlIs.along (h.foldl fun _ _ hv => hv.memLoad) (by simp; rfl)

theorem CtlIs.bulkRefill : CtlIs m (bulkRefill s p t) := h.foldl fun _ _ hv => .ite hv.bulkNext hv

theorem CtlIs.poisonUnit : CtlIs m (poisonUnit s t) := by
  unfold Machine.poisonUnit
  refine .ite (h.memStore.modMem fun m => ?_) (h.memStore.modMem fun _ => by rfl)
  exact ctlOf_foldl (fun _ _ => by rfl) _ _

theorem CtlIs.freeDeleted {del : Bool} : CtlIs m (freeDeleted s i del t) := by
  unfold Machine.freeDeleted Machine.ringForget
  refine .ite ?_ h
  have hreset : CtlIs m (s.modView i fun _ => View.reset) := h.along (by simp)
  exact CtlIs.along (.ite hreset hreset.closeRec) (by simp [-within_ite]; rfl)

theorem CtlIs.freeRegion {r : Nat × Nat} : CtlIs m (freeRegion s r) := h

theorem CtlIs.releaseAuxStore : CtlIs m (releaseAuxStore s n i) := by
  unfold Machine.releaseAuxStore
  dsimp only
  split
  · exact .ite h (CtlIs.along h.freeRegion (by simp; rfl))
  · exact h

theorem CtlIs.releaseView : CtlIs m (releaseView s i) := by
  unfold Machine.releaseView
  extract_lets w freed cut ready view
  have hfreed : CtlIs m freed := by
    simp only [freed]
    split <;> exact h
  have hview : CtlIs m view := hfreed.along (by simp [view, ready, cut])
  exact .ite hview.releaseAuxStore hview

theorem CtlIs.rasterToCreated : CtlIs m (rasterToCreated s t) := h.foldl fun v i hv => by
  refine .ite (.freeDeleted (.releaseView (hv.along (by simp)))) hv

end

section
variable {m : Mem} (h : CtlIs m s)
include h

theorem CtlIs.mem : ctlOf s.mem = m := h
theorem CtlIs.st : s.mem.st = m.st := by rw [← h.mem]; rfl
theorem CtlIs.bin : s.mem.bin = m.bin := by rw [← h.mem]; rfl
theorem CtlIs.target : s.mem.target = m.target := by rw [← h.mem]; rfl
theorem CtlIs.held : s.mem.held = m.held := by rw [← h.mem]; rfl
theorem CtlIs.dly : s.mem.dly = m.dly := by rw [← h.mem]; rfl
theorem CtlIs.recover : s.mem.recover = m.recover := by rw [← h.mem]; rfl
theorem CtlIs.changePend : s.mem.changePend = m.changePend := by rw [← h.mem]; rfl
theorem CtlIs.sweepPend : s.mem.sweepPend = m.sweepPend := by rw [← h.mem]; rfl

end

theorem ctlIs_self (s : State) : CtlIs (ctlOf s.mem) s := by rfl

end Sys2Proof.Machine
end

section
/-! What a freeze's end, a failure of the controller and a change of its bin set in the controller, and what they keep (R198, R199, R205, R206). -/

namespace Sys2Proof.Machine

variable {s s' u v : State} {m : Mem} {t : Time}

/-- A controller that runs again. -/
def runAgainCtl (m : Mem) : Mem := { ctlOf m with st := .run, recover := none }

/-- A controller that has failed. -/
def failedCtl (m : Mem) : Mem :=
  { ctlOf m with st := .unavail, held := [], sweepPend := false, changePend := false, initTill := none, recover := none }

@[simp] theorem admitWaiting_storeOf (t : Time) : storeOf (admitWaiting s t) = storeOf s := by
  rw [admitWaiting, storeOf_foldl fun _ _ => memArrive_storeOf ..]
  rfl

@[simp] theorem memLoad_storeOf (c i a n : Nat) (t : Time) : storeOf (memLoad s c i a n t) = storeOf s := by
  unfold memLoad
  split
  · rfl
  · exact storeOf_foldl (fun _ _ => memArrive_storeOf ..) _

@[simp] theorem bulkNext_storeOf (p : PortIx) (t : Time) : storeOf (bulkNext s p t) = storeOf s := by
  have hother : ∀ v v' : State, Within (Part.but [.fm, .mem]) v v' → storeOf v' = storeOf v := fun _ _ h => h.storeOf (by simp) (by simp)
  unfold bulkNext
  split
  · rfl
  · split
    · rfl
    · split
      · exact hother _ _ (by simp)
      · exact (hother _ _ (by simp; rfl)).trans (storeOf_foldl (fun _ _ => memLoad_storeOf ..) _)

@[simp] theorem bulkRefill_storeOf (p : PortIx) (t : Time) : storeOf (bulkRefill s p t) = storeOf s :=
  storeOf_foldl (fun _ _ => by split; exacts [bulkNext_storeOf .., rfl]) _

theorem CtlIs.endRecover (h : CtlIs m s) (ok : Bool) : CtlIs m (endRecover s ok t) := h.along (by simp)

/-- The end of a freeze, where there was one, and the requests and reads that go on with it. -/
theorem memResume_cases (s : State) (t : Time) : ∃ r, CtlIs (runAgainCtl s.mem) r ∧ r.pw = s.pw ∧ (s.mem.recover = none → storeOf r = storeOf s) ∧
    memResume s t = if r.mem.changePend && decide (wantedBin r.mem ≠ r.mem.bin) then acceptChange r t
      else if r.mem.sweepPend then startSweep (r.modMem (fun m => { m with changePend := false })) .run r.mem.bin
      else r.modMem (fun m => { m with changePend := false }) := by
  unfold memResume
  extract_lets thawed running unfrozen cleared admitted refilled settled
  have hrunning : CtlIs (runAgainCtl s.mem) running := by rfl
  have hunfrozen : CtlIs (runAgainCtl s.mem) unfrozen := .ite hrunning.thawEnd hrunning
  have hcleared : CtlIs (runAgainCtl s.mem) cleared := hunfrozen.along (by simp [cleared])
  have hadmitted : CtlIs (runAgainCtl s.mem) admitted := hcleared.admitWaiting.endRecover true
  have hrefilled : CtlIs (runAgainCtl s.mem) refilled := hadmitted.foldl fun _ _ hv => hv.bulkRefill
  have hpw : refilled.pw = s.pw := by
    have hthawed : unfrozen.pw = s.pw := Within.pw (L := Part.but [.pw]) (by simp [unfrozen, running]) (by simp)
    exact (Within.pw (L := Part.but [.pw]) (by simp [refilled, admitted, cleared]) (by simp)).trans hthawed
  have hstore : s.mem.recover = none → storeOf refilled = storeOf s := by
    intro hrec
    have hthawed : unfrozen = running := by simp [unfrozen, thawed, hrec]
    calc
      storeOf refilled = storeOf admitted := storeOf_foldl (fun _ _ => bulkRefill_storeOf ..) _
      _ = storeOf (admitWaiting cleared t) := Within.storeOf (L := Part.but [.fm, .mem]) (by simp [admitted]) (by simp) (by simp)
      _ = storeOf cleared := admitWaiting_storeOf t
      _ = storeOf unfrozen := Within.storeOf (L := Part.but [.fm, .mem]) (by simp [cleared]) (by simp) (by simp)
      _ = storeOf s := by rw [hthawed]; rfl
  clear_value refilled
  exact ⟨refilled, hrefilled, hpw, hstore, rfl⟩

end Sys2Proof.Machine
end

section
/-! What a change of the memory's bin, a relock of its PLL and a failure of the controller keep (R199, R205, R206). -/

namespace Sys2Proof.Machine

variable {s s' u v : State} {m : Mem} {t : Time}

theorem CtlIs.fmForget (h : CtlIs m s) (a n : Nat) : CtlIs m (fmForget s a n) := h

theorem failRequests_ctlIs (s : State) (all : Bool) : CtlIs { ctlOf s.mem with held := [] } (failRequests s all) := by
  have hforgot : ∀ l : List Nat, CtlIs (ctlOf s.mem) (l.foldl (fun s u => Machine.fmForget s (64 * u) 64) s) := fun l =>
    (ctlIs_self s).foldl fun _ _ hv => hv.fmForget _ _
  refine CtlIs.memAnswer ?_
  simp only [loseRequests]
  exact congrArg (fun m : Mem => { m with held := [] }) (hforgot _).mem

theorem memUnavail_ctlIs (s : State) (t : Time) : CtlIs (failedCtl s.mem) (memUnavail s t) := by
  unfold memUnavail
  extract_lets off stood stopped aborted
  have hlost : failedCtl (ctlOf (failRequests s true).mem) = failedCtl { ctlOf s.mem with held := [] } :=
    congrArg failedCtl (failRequests_ctlIs s true).mem
  have hoff : CtlIs (failedCtl s.mem) off := hlost
  have hstood : CtlIs (failedCtl s.mem) stood := hoff.along (by simp [stood])
  have hstopped : CtlIs (failedCtl s.mem) stopped := (hstood.rasterToCreated (t := t)).along (by simp [stopped])
  have haborted : CtlIs (failedCtl s.mem) aborted := hstopped.along (by simp [aborted])
  exact haborted.endRecover false

/-! The power state takes no part in it, but for the PLLs. -/

theorem relockPllm_onlyPlls (t : Time) : OnlyPlls s (relockPllm s t) := by
  unfold relockPllm
  have hstart : OnlyPlls s (pllStart s 2 t) := pllStart_onlyPlls 2 t
  dsimp only
  split
  · exact hstart.trans (.of_pw (memUnavail_pw t))
  · exact hstart

theorem changeFlush_onlyPlls (t : Time) : OnlyPlls s (changeFlush s t) := by
  unfold changeFlush
  split
  · extract_lets hold flushed m
    have hflushed : OnlyPlls s flushed := .of_pw (by simp only [flushed]; split <;> rfl)
    split
    · exact hflushed.trans (OnlyPlls.trans (.of_pw rfl) (relockPllm_onlyPlls t))
    · exact hflushed
  · exact .refl

theorem acceptChange_onlyPlls (t : Time) : OnlyPlls s (acceptChange s t) := .trans (.of_pw rfl) (changeFlush_onlyPlls t)

theorem memResume_onlyPlls (t : Time) : OnlyPlls s (memResume s t) := by
  obtain ⟨r, -, hpw, -, hresume⟩ := memResume_cases s t
  rw [hresume]
  split
  · exact (OnlyPlls.of_pw hpw).trans (acceptChange_onlyPlls t)
  · split <;> exact .of_pw hpw

theorem recoverStep_onlyPlls (t : Time) : OnlyPlls s (recoverStep s t) := by
  unfold recoverStep
  split
  · extract_lets flushed m lost poisoned
    have hpoisoned : OnlyPlls s poisoned := .of_pw (Within.pw (L := Part.but [.pw]) (by simp [poisoned, lost, flushed]) (by simp))
    split
    · split
      · exact hpoisoned.trans (.of_pw rfl)
      · exact hpoisoned.trans (memResume_onlyPlls t)
    · exact .of_pw rfl
  · exact .refl

theorem memReturn_onlyPlls (t : Time) : OnlyPlls s (memReturn s t) := by
  unfold memReturn
  split
  · dsimp only
    split
    · exact .trans (.of_pw rfl) (acceptChange_onlyPlls t)
    · exact .trans (.of_pw rfl) (recoverStep_onlyPlls t)
  · exact memResume_onlyPlls t

theorem changeDone_onlyPlls (ok : Bool) (t : Time) : OnlyPlls s (changeDone s ok t) := by
  unfold changeDone
  extract_lets b woken
  have hwoken : OnlyPlls s woken := .of_pw (by rfl)
  clear_value woken
  split
  · exact hwoken.trans (OnlyPlls.trans (.of_pw (by rfl)) (memReturn_onlyPlls t))
  · exact hwoken.trans (.of_pw (by rfl))

/-! The bins stand through it, and so does that no request is held back. -/

/-- The bins that the controller runs in and was asked for stand, and no request is held back where none was. -/
def BinsKept (s s' : State) : Prop := s'.mem.bin = s.mem.bin ∧ s'.mem.target = s.mem.target ∧ (s.mem.held = [] → s'.mem.held = [])

theorem BinsKept.trans (h : BinsKept s u) (h' : BinsKept u s') : BinsKept s s' :=
  ⟨h'.1.trans h.1, h'.2.1.trans h.2.1, fun hnone => h'.2.2 (h.2.2 hnone)⟩

theorem CtlIs.binsKept (h : CtlIs (ctlOf s.mem) s') : BinsKept s s' :=
  ⟨h.bin, h.target, fun hnone => h.held.trans hnone⟩

theorem binsKept_memUnavail (t : Time) : BinsKept s (memUnavail s t) := by
  have h := memUnavail_ctlIs s t
  exact ⟨h.bin, h.target, fun _ => h.held⟩

theorem binsKept_relockPllm (t : Time) : BinsKept s (relockPllm s t) := by
  unfold relockPllm
  have hstart : BinsKept s (pllStart s 2 t) := ((ctlIs_self s).along (by simp)).binsKept
  dsimp only
  split
  · exact hstart.trans (binsKept_memUnavail t)
  · exact hstart

theorem binsKept_changeFlush (t : Time) : BinsKept s (changeFlush s t) := by
  unfold changeFlush
  split
  · extract_lets hold flushed m
    have hflushed : BinsKept s flushed := CtlIs.binsKept (.ite (ctlIs_self s) ((ctlIs_self s).modMem fun _ => ctlOf_flushLines ..))
    split
    · exact hflushed.trans (BinsKept.trans ⟨rfl, rfl, id⟩ (binsKept_relockPllm t))
    · exact hflushed
  · exact ⟨rfl, rfl, id⟩

theorem binsKept_acceptChange (t : Time) : BinsKept s (acceptChange s t) := BinsKept.trans ⟨rfl, rfl, id⟩ (binsKept_changeFlush t)

theorem binsKept_requestChange (t : Time) : BinsKept s (requestChange s t) := by
  unfold requestChange
  dsimp only
  split
  · split
    · exact ⟨rfl, rfl, id⟩
    · exact binsKept_acceptChange t
  all_goals exact ⟨rfl, rfl, id⟩

theorem binsKept_memResume (t : Time) : BinsKept s (memResume s t) := by
  obtain ⟨r, hr, -, -, hresume⟩ := memResume_cases s t
  have hkept : BinsKept s r := ⟨hr.bin, hr.target, fun hnone => hr.held.trans hnone⟩
  rw [hresume]
  split
  · exact hkept.trans (binsKept_acceptChange t)
  · split
    · exact hkept.trans ⟨rfl, rfl, id⟩
    · exact hkept.trans ⟨rfl, rfl, id⟩

end Sys2Proof.Machine
end

section
/-! Refreshes, the refresh multiplier's poll, an idle line of the check-word buffer and the controller's report (R194, R197, R211). -/

namespace Sys2Proof.Machine

variable {s s' u v : State} {m : Mem} {t : Time}

theorem wakeRank_eq (m : Mem) (q : Nat) (t : Time) : ∃ ranks, wakeRank m q t = { m with ranks := ranks } := by
  simp only [wakeRank]
  split
  · exact ⟨_, rfl⟩
  · exact ⟨m.ranks, rfl⟩

theorem keeps_modMem (f : Mem → Mem) : Keeps [.mem] u (u.modMem f) := (show Within [.mem] u (u.modMem f) by simp).1

@[simp] theorem bankOf_q (m : Mem) (q : Nat) : (bankOf m q).q = q := by
  unfold bankOf
  cases hfind : m.banks.find? (fun b => b.q = q) with
  | none => rfl
  | some b => exact of_decide_eq_true (List.find?_some (p := fun b : Bank => decide (b.q = q)) hfind)

theorem bankOf_wakeRank_setBank {b : Bank} {q q' : Nat} (hq : b.q = q) : bankOf (wakeRank (setBank m b) q' t) q = b := by
  obtain ⟨ranks, hwoken⟩ := wakeRank_eq (setBank m b) q' t
  rw [hwoken, bankOf]
  simp [setBank, hq]

theorem refreshDue_refreshes (q : Fin 256) (b v : Bank) (hu : u = s.at t) (hawake : diesAwake u = true) (hb : b = bankOf u.mem q.val)
    (hv : v = if refreshDue u q.val t = true then oweRefresh u.mem b else b)
    (hdue : refreshDue u q.val t = true ∨ (refreshInto u b t = true ∧ (0 < b.owed ∨ b.ahead < 8))) :
    ∃ s', exec (.refreshDue t q) s = .next s' ∧ Keeps [.mem] u s' ∧
      bankOf s'.mem q.val = if refreshInto u v t = true ∧ (0 < v.owed ∨ (refreshDue u q.val t = false ∧ v.ahead < 8)) then
        { v with owed := v.owed - 1, ahead := if v.owed = 0 then v.ahead + 1 else v.ahead, busyTill := t + u.mem.tim.rfc } else v := by
  rw [show exec (.refreshDue t q) s = execRefreshDue t q s from rfl, execRefreshDue]
  refine ⟨_, event_due_at hu (by simpa [hawake, ← hb] using hdue), keeps_modMem _, ?_⟩
  have hq : v.q = q.val := by
    rw [hv, hb]
    split <;> exact bankOf_q ..
  simp only [← hb, ← hv]
  refine (bankOf_wakeRank_setBank ?_).trans ?_
  · split <;> exact hq
  · simp only [doRefresh, Bool.and_eq_true, Bool.or_eq_true, decide_eq_true_eq, Bool.not_eq_true']

theorem refreshRatePoll_setsMultiplier (reports : List (Fin 3)) (hu : u = s.at t) (hawake : diesAwake u = true) (hpoll : u.mem.polled + 16 * ms ≤ t) :
    exec (.refreshRatePoll t reports) s = .next (u.modMem (fun m => { m with
      dieMul := maxL (1 :: reports.map (fun r => 2 ^ r.val)), polled := t
      refmul := max (maxL (1 :: reports.map (fun r => 2 ^ r.val))) (hotMul u) })) := by
  rw [show exec (.refreshRatePoll t reports) s = execRefreshRatePoll t reports s from rfl, execRefreshRatePoll]
  refine (event_due_at hu (by simp [hawake, hpoll])).trans ?_
  rfl

theorem eccLineIdle_writesBack {sc : Fin 8} {block : Nat} {l : EccLine} (hu : u = s.at t) (hrun : u.mem.st = .run)
    (hroom : ckRoom u.mem sc.val = true) (hline : eccLine u.mem sc.val block = some l) (hidle : l.used + 10 * us ≤ t) :
    ∃ s', exec (.eccLineIdle t sc block l.used) s = .next s' ∧ Keeps [.mem] u s' ∧ s'.mem.st = .run ∧
      s'.mem.ecc = removeFirst (fun x => x = l) u.mem.ecc ∧
      s'.mem.ckq = u.mem.ckq ++ [⟨l.block, ckBank u.mem l.block, some l.words, false, t⟩] ∧ s'.mem.queue = u.mem.queue ∧ SameBytes u s' := by
  rw [show exec (.eccLineIdle t sc block l.used) s = execEccLineIdle t sc block l.used s from rfl, execEccLineIdle]
  refine ⟨_, event_due_at hu (by simp [hrun, hroom, hline, hidle]), keeps_modMem _, ?_⟩
  obtain ⟨ranks, hwoken⟩ := wakeRank_eq { u.mem with
    ecc := removeFirst (fun x => x = l) u.mem.ecc, ckq := u.mem.ckq ++ [⟨l.block, ckBank u.mem l.block, some l.words, false, t⟩] }
    (ckBank u.mem l.block) t
  have hback : writeBack u.mem l t = _ := hwoken
  simp only [State.modMem, hline, hback, true_and]
  exact ⟨hrun, fmByte_of_storeOf rfl⟩

theorem memStatus_reads (c : Call) (hu : u = s.at c.start) (hready : Ready u c 0x0504) (hpl : c.payload = []) :
    ∃ pl, exec (.memStatus c) s = .next (okWith u c 0x0504 .fast pl) ∧ pl.length = 48 ∧ u8 pl 0 = u.mem.st.code ∧ u8 pl 1 = u.mem.bin % 256 ∧
      u8 pl 2 = u.mem.map % 256 ∧ u32 pl 8 = u.reg aMEMC_ECC_CE % 2 ^ 32 := by
  obtain ⟨hserved, harg⟩ := hready
  rw [show exec (.memStatus c) s = execMemStatus c s from rfl, execMemStatus]
  subst hu
  refine ⟨_, command_acts hserved ?_ nofun, by simp, ?_, rfl, rfl, ?_⟩
  · simp only [List.forall_mem_cons]
    exact ⟨need_true (by simp [hpl]), harg, nofun⟩
  · show (byte (s.at c.start).mem.st.code).toNat = _
    cases (s.at c.start).mem.st <;> rfl
  · rw [u32, show slice _ 8 4 = leBytes 4 ((s.at c.start).reg aMEMC_ECC_CE) from rfl]
    exact leVal_leBytes 4 _

end Sys2Proof.Machine
end

section
/-! The end of a bin change (R206, R207). -/

namespace Sys2Proof.Machine

variable {s s' u v : State} {m : Mem} {t : Time} {d : List Delay}

/-! Where the controller returns to after a change of its bin or a sweep. -/

theorem recoverStep_none (hrec : s.mem.recover = none) : recoverStep s t = s := by
  unfold recoverStep
  split
  · next f _ hf => rw [hrec] at hf; cases hf
  · rfl

theorem memReturn_frozen (hprior : s.mem.prior = .frozen) (hrec : s.mem.recover = none) (hcap : s.mem.bin ≤ s.mem.cap) :
    memReturn s t = s.modMem (fun m => { m with st := .frozen }) := by
  unfold memReturn
  rw [if_pos hprior]
  exact (if_neg (Nat.not_lt.mpr hcap)).trans (recoverStep_none hrec)

@[simp] theorem startSweep_storeOf (prior : MemSt) (b : Nat) : storeOf (startSweep s prior b) = storeOf s := rfl

theorem memReturn_resumes (hprior : s.mem.prior ≠ .frozen) : memReturn s t = memResume s t := by
  unfold memReturn
  rw [if_neg hprior]

theorem memResume_storeOf (hrec : s.mem.recover = none) (hpend : s.mem.changePend = false) : storeOf (memResume s t) = storeOf s := by
  obtain ⟨r, hr, -, hstore, hresume⟩ := memResume_cases s t
  have hrpend : r.mem.changePend = false := hr.changePend.trans hpend
  rw [hresume, hrpend, ← hstore hrec]
  simp only [Bool.false_and, Bool.false_eq_true, if_false]
  split <;> rfl

theorem memResume_runs (hpend : s.mem.changePend = false) (hsweep : s.mem.sweepPend = false) :
    ∃ r, memResume s t = r.modMem (fun m => { m with changePend := false }) ∧ CtlIs (runAgainCtl s.mem) r := by
  obtain ⟨r, hr, -, -, hresume⟩ := memResume_cases s t
  have hrpend : r.mem.changePend = false := hr.changePend.trans hpend
  have hrsweep : r.mem.sweepPend = false := hr.sweepPend.trans hsweep
  exact ⟨r, by rw [hresume, hrpend, hrsweep]; rfl, hr⟩

/-! The check of the new bin passes or fails. -/

/-- The dies awake and refreshed, with the delays of the bin that the change leads to. -/
def inNewBin (u : State) (d : List Delay) (t : Time) : State :=
  (u.modMem (fun m => refreshAll (wakeDies m t) t)).modMem (fun m => { m with bin := u.mem.changeTo, dly := d })

theorem inNewBin_storeOf (u : State) (d : List Delay) (t : Time) : storeOf (inNewBin u d t) = storeOf u := Prod.ext rfl rfl

theorem changeDone_passed (hd : tableOf u.mem u.mem.changeTo = some d) : changeDone u true t = memReturn (inNewBin u d t) t := by
  unfold changeDone
  have htable : tableOf (u.modMem (fun m => refreshAll (wakeDies m t) t)).mem u.mem.changeTo = some d := hd
  simp only [htable]
  rfl

theorem changeDone_notPassed {ok : Bool} (hok : ok = false ∨ tableOf u.mem u.mem.changeTo = none) :
    changeDone u ok t = startSweep (u.modMem (fun m => refreshAll (wakeDies m t) t)) u.mem.prior u.mem.changeTo := by
  unfold changeDone
  have htable : tableOf (u.modMem (fun m => refreshAll (wakeDies m t) t)).mem u.mem.changeTo = tableOf u.mem u.mem.changeTo := rfl
  simp only [htable]
  rcases hok with rfl | hnone
  · split
    · next h => cases h
    · rfl
  · rw [hnone]
    rfl

theorem binChange_next (ok : Bool) (hu : u = s.at t) (hdawn : u.pw.st ≠ .dawn)
    (hready : (u.mem.st = .change ∧ u.mem.flushed = true ∧ u.mem.dies = [] ∧ u.mem.ckd = []) ∨ (u.mem.st = .init ∧ u.mem.initTill = none))
    (hpll : pllOf u 2 = .locked) : exec (.binChange t ok) s = .next (changeDone u ok t) := by
  rw [show exec (.binChange t ok) s = execBinChange t ok s from rfl, execBinChange]
  obtain ⟨pl, hpw⟩ := changeDone_onlyPlls (s := u) ok t
  have hst : ¬ ((changeDone u ok t).pw.st = .dawn ∧ (changeDone u ok t).mem.st ≠ .train) := fun h => hdawn (by rw [← h.1, hpw])
  refine (event_due_at hu (by simpa [hpll, hdawn] using hready)).trans ?_
  simp only [if_neg hst]

/-- A change of the bin that passes from RUN or from a freeze that no recovery ends leaves every byte as it is. -/
theorem changeDone_sameBytes (ok : Bool) (hrec : u.mem.recover = none) (hpend : u.mem.changePend = false)
    (hcap : u.mem.prior = .frozen → u.mem.changeTo ≤ u.mem.cap) : SameBytes u (changeDone u ok t) := by
  refine fmByte_of_storeOf ?_
  by_cases hok : ok = false ∨ tableOf u.mem u.mem.changeTo = none
  · rw [changeDone_notPassed hok, startSweep_storeOf]
    rfl
  · obtain ⟨rfl, d, hd⟩ : ok = true ∧ ∃ d, tableOf u.mem u.mem.changeTo = some d := by
      simpa [Option.ne_none_iff_exists'] using hok
    rw [changeDone_passed hd]
    by_cases hprior : u.mem.prior = .frozen
    · rw [memReturn_frozen (s := inNewBin u d t) hprior hrec (hcap hprior)]
      exact (storeOf_modMem fun _ => rfl).trans (inNewBin_storeOf u d t)
    · rw [memReturn_resumes (s := inNewBin u d t) hprior, memResume_storeOf (s := inNewBin u d t) hrec hpend, inNewBin_storeOf]

theorem changeDone_frozen (hd : tableOf u.mem u.mem.changeTo = some d) (hprior : u.mem.prior = .frozen) (hrec : u.mem.recover = none)
    (hcap : u.mem.changeTo ≤ u.mem.cap) :
    (changeDone u true t).mem.st = .frozen ∧ (changeDone u true t).mem.bin = u.mem.changeTo ∧ (changeDone u true t).mem.dly = d := by
  rw [changeDone_passed hd, memReturn_frozen (s := inNewBin u d t) hprior hrec hcap]
  exact ⟨rfl, rfl, rfl⟩

theorem changeDone_runs (hd : tableOf u.mem u.mem.changeTo = some d) (hprior : u.mem.prior ≠ .frozen) (hpend : u.mem.changePend = false)
    (hsweep : u.mem.sweepPend = false) :
    (changeDone u true t).mem.st = .run ∧ (changeDone u true t).mem.bin = u.mem.changeTo ∧ (changeDone u true t).mem.dly = d := by
  obtain ⟨r, hresume, hr⟩ := memResume_runs (s := inNewBin u d t) (t := t) hpend hsweep
  rw [changeDone_passed hd, memReturn_resumes (s := inNewBin u d t) hprior, hresume]
  exact ⟨hr.st, hr.bin, hr.dly⟩

theorem changeDone_sweeps {ok : Bool} (hok : ok = false ∨ tableOf u.mem u.mem.changeTo = none) :
    (changeDone u ok t).mem.st = .train ∧ (changeDone u ok t).mem.prior = u.mem.prior ∧ (changeDone u ok t).mem.sweepBin = u.mem.changeTo := by
  rw [changeDone_notPassed hok]
  exact ⟨rfl, rfl, rfl⟩

end Sys2Proof.Machine
end

section
/-! MEM_RECOVER (R212 to R214). -/

namespace Sys2Proof.Machine

variable {s s' u v : State} {m : Mem} {t : Time} {c : Call} {f : Nat}

/-! What a recovery waits for. -/

/-- The controller has lines or accesses that a recovery waits for. -/
def RecoveryBusy (m : Mem) : Prop := m.ecc ≠ [] ∨ m.ckq ≠ [] ∨ m.ckd ≠ [] ∨ m.dies ≠ []

theorem writeBack_busy (m : Mem) (l : EccLine) (t : Time) : RecoveryBusy (writeBack m l t) := by
  obtain ⟨ranks, hwoken⟩ := wakeRank_eq { m with
    ecc := removeFirst (fun x => x = l) m.ecc, ckq := m.ckq ++ [⟨l.block, ckBank m l.block, some l.words, false, t⟩] } (ckBank m l.block) t
  have hback : writeBack m l t = _ := hwoken
  rw [hback]
  exact .inr (.inl (by simp))

theorem flushLines_busy (h : RecoveryBusy m) (p : EccLine → Bool) (t : Time) : RecoveryBusy (flushLines m p t) := by
  unfold flushLines
  generalize m.ecc.filter p = l
  induction l generalizing m with
  | nil => exact h
  | cons a l ih =>
    refine ih ?_
    dsimp only
    split
    · exact writeBack_busy m a t
    · exact h

theorem flushLines_none (h : m.ecc = []) (p : EccLine → Bool) (t : Time) : flushLines m p t = m := by
  rw [flushLines, h]
  rfl

/-- The lines of the cache go to the check units' queue, out of which fetches are dropped. -/
def flushedFor (m : Mem) (t : Time) : Mem := flushLines { m with ckq := m.ckq.filter (fun k => k.words.isSome) } (fun _ => true) t

theorem flushedFor_ctlOf (m : Mem) (t : Time) : ctlOf (flushedFor m t) = ctlOf m := ctlOf_flushLines ..

theorem recoverStep_waits (hst : s.mem.st = .frozen) (hrec : s.mem.recover = some f) (hbusy : RecoveryBusy (flushedFor s.mem t)) :
    recoverStep s t = s.modMem (fun m => flushedFor m t) := by
  have hwaits : ((flushedFor s.mem t).ecc.isEmpty && (flushedFor s.mem t).ckq.isEmpty && (flushedFor s.mem t).ckd.isEmpty &&
      (flushedFor s.mem t).dies.isEmpty) = false := by
    simpa [RecoveryBusy, or_assoc, imp_iff_not_or] using hbusy
  unfold recoverStep
  simp only [hst, hrec]
  exact (if_neg (by rw [Bool.not_eq_true]; exact hwaits)).trans rfl

/-- A freeze without requests, with the unit of its error written anew where that is asked for. -/
def clearedFreeze (s : State) (f : Nat) (t : Time) : State := if bit f 1 then poisonUnit (failRequests s false) t else failRequests s false

theorem clearedFreeze_ctlIs (s : State) (f : Nat) (t : Time) : CtlIs { ctlOf s.mem with held := [] } (clearedFreeze s f t) :=
  .ite (failRequests_ctlIs s false).poisonUnit (failRequests_ctlIs s false)

theorem recoverStep_ends (hst : s.mem.st = .frozen) (hrec : s.mem.recover = some f) (hecc : s.mem.ecc = []) (hckd : s.mem.ckd = [])
    (hdies : s.mem.dies = []) (hckq : ∀ k ∈ s.mem.ckq, k.words = none) :
    ∃ w, ctlOf w.mem = ctlOf s.mem ∧
      recoverStep s t = if bit f 0 then startSweep (clearedFreeze w f t) .run (clearedFreeze w f t).mem.bin
        else memResume (clearedFreeze w f t) t := by
  have hfetches : s.mem.ckq.filter (fun k => k.words.isSome) = [] := List.filter_eq_nil_iff.mpr fun k hk => by simp [hckq k hk]
  have hflushed : flushedFor s.mem t = { s.mem with ckq := [] } := by
    rw [flushedFor, hfetches, flushLines_none (by exact hecc)]
  refine ⟨s.modMem (fun m => flushedFor m t), flushedFor_ctlOf .., ?_⟩
  have hdone : ((flushedFor s.mem t).ecc.isEmpty && (flushedFor s.mem t).ckq.isEmpty && (flushedFor s.mem t).ckd.isEmpty &&
      (flushedFor s.mem t).dies.isEmpty) = true := by simp [hflushed, hecc, hckd, hdies]
  unfold recoverStep
  simp only [hst, hrec]
  exact (if_pos hdone).trans rfl

/-! The command. -/

/-- The call of a MEM_RECOVER with flags `f` that nothing but the controller's state can refuse (R212). -/
structure RecoverAsked (u : State) (c : Call) (f : Nat) : Prop where
  ready : ReadySlow u c 0x0505
  lease : needLeaseOrSafety u c lARRAY = none
  length : c.payload.length = 4
  flags : u8 c.payload 0 = f
  small : f < 4
  rest : reserved c.payload 1 3 = none
  first : u.mem.recover = none

theorem reservedBits_none_of_lt {pl : List Byte} (h : u8 pl 0 < 4) : reservedBits pl 0 0xFC = none := by
  refine (argOk_eq_none _ _).mpr (decide_eq_true ?_)
  generalize u8 pl 0 = f at h
  interval_cases f <;> rfl

/-- What MEM_RECOVER does with the controller in each state that it takes. -/
def recoverFrom (v : State) (f : Nat) (t : Time) : State :=
  match v.mem.st with
  | .frozen => recoverStep (v.modMem (fun m => { m with recover := some f })) t
  | .unavail => startSweep (v.modMem (fun m => wakeDies m t)) .unavail (wantedBin v.mem)
  | _ => startSweep v .run v.mem.bin

theorem memRecover_acts (hu : u = s.at c.start) (h : RecoverAsked u c f)
    (hst : u.mem.st = .frozen ∨ ((u.mem.st = .run ∨ u.mem.st = .unavail) ∧ bit f 0 = true)) :
    exec (.memRecover c) s = .next (recoverFrom (accept u c 0x0505 (50 * ms) f) f c.start) := by
  obtain ⟨⟨⟨hserved, harg⟩, hslow⟩, hlease, hlen, rfl, hsmall, hrest, hfirst⟩ := h
  rw [show exec (.memRecover c) s = execMemRecover c s from rfl, execMemRecover]
  subst hu
  refine (command_acts hserved ?_ fun _ => hslow).trans rfl
  simp only [List.forall_mem_cons]
  refine ⟨need_true (decide_eq_true hlen), hlease, harg, reservedBits_none_of_lt hsmall, hrest, need_true ?_, need_true ?_, nofun⟩
  · rcases hst with h | ⟨h | h, -⟩ <;> simp [h, hfirst]
  · rcases hst with h | ⟨h | h, hbit⟩ <;> simp [*]

theorem command_refused_at {op : Nat} {cls : Cls} {checks : State → List (Option Reject)} {act : State → State} {r : Reject}
    (hu : u = s.at c.start) (h : startsNow u c op cls = true) (hj : judge (refusals u c op cls (checks u)) = some r) :
    command s c op cls checks act = .next (respond u c op cls r.status r.detail []) := by
  subst hu
  exact command_refused h hj

theorem memRecover_refused (hu : u = s.at c.start) (h : RecoverAsked u c f) (hst : u.mem.st = .run) (hbit : bit f 0 = false) :
    exec (.memRecover c) s = .next (respond u c 0x0505 .slow .badState 0 []) := by
  obtain ⟨⟨⟨hserved, harg⟩, hslow⟩, hlease, hlen, rfl, hsmall, hrest, hfirst⟩ := h
  have hsrc : c.src ≠ .sideband := fun hsrc => by simp [needLeaseOrSafety, hsrc] at hlease
  have hstarts := hserved.startsNow .slow
  obtain ⟨-, -, -, hjob, -⟩ := hserved
  rw [show exec (.memRecover c) s = execMemRecover c s from rfl, execMemRecover]
  refine command_refused_at (r := ⟨.badState, 0⟩) hu hstarts ?_
  simp [refusals, need, lenIs, hsrc, hjob, hlen, hlease, harg, reservedBits_none_of_lt hsmall, hrest, hst, hfirst, hbit, hslow, judge]

@[simp] theorem accept_mem (c : Call) (op span data : Nat) : (accept u c op span data).mem = u.mem :=
  Within.mem (L := Part.but [.mem]) (by simp) (by simp)

theorem recoverFrom_frozen (hst : v.mem.st = .frozen) : recoverFrom v f t = recoverStep (v.modMem (fun m => { m with recover := some f })) t := by
  rw [recoverFrom, hst]

theorem recoverFrom_unavail (hst : v.mem.st = .unavail) :
    recoverFrom v f t = startSweep (v.modMem (fun m => wakeDies m t)) .unavail (wantedBin v.mem) := by
  rw [recoverFrom, hst]

theorem recoverFrom_run (hst : v.mem.st = .run) : recoverFrom v f t = startSweep v .run v.mem.bin := by
  rw [recoverFrom, hst]

/-- A recovery of a controller with nothing in progress ends the freeze, and lets no request wait that the freeze held back. -/
theorem recoverFrom_endsFreeze (hst : v.mem.st = .frozen) (hecc : v.mem.ecc = []) (hckd : v.mem.ckd = []) (hdies : v.mem.dies = [])
    (hckq : ∀ k ∈ v.mem.ckq, k.words = none) :
    (recoverFrom v f t).mem.held = [] ∧
      (bit f 0 = false → v.mem.changePend = false → v.mem.sweepPend = false →
        (recoverFrom v f t).mem.st = .run ∧ (recoverFrom v f t).mem.recover = none) ∧
      (bit f 0 = true → (recoverFrom v f t).mem.st = .train ∧ (recoverFrom v f t).mem.prior = .run ∧
        (recoverFrom v f t).mem.sweepBin = v.mem.bin) := by
  obtain ⟨w, hw, hends⟩ := recoverStep_ends (s := v.modMem (fun m => { m with recover := some f })) (t := t) hst rfl hecc hckd hdies hckq
  have hcleared : CtlIs { ctlOf v.mem with held := [], recover := some f } (clearedFreeze w f t) := by
    have h := clearedFreeze_ctlIs w f t
    rw [hw] at h
    exact h
  rw [recoverFrom_frozen hst, hends]
  cases hbit : bit f 0 with
  | false =>
    rw [if_neg Bool.false_ne_true]
    refine ⟨(binsKept_memResume t).2.2 hcleared.held, fun _ hpend hsweep => ?_, nofun⟩
    obtain ⟨r, hresume, hr⟩ := memResume_runs (s := clearedFreeze w f t) (t := t) (hcleared.changePend.trans hpend) (hcleared.sweepPend.trans hsweep)
    rw [hresume]
    exact ⟨hr.st, hr.recover⟩
  | true =>
    rw [if_pos rfl]
    exact ⟨hcleared.held, nofun, fun _ => ⟨rfl, rfl, hcleared.bin⟩⟩

theorem recoverFrom_waits (hst : v.mem.st = .frozen)
    (hbusy : v.mem.ecc ≠ [] ∨ v.mem.ckd ≠ [] ∨ v.mem.dies ≠ [] ∨ ∃ k ∈ v.mem.ckq, k.words.isSome = true) :
    (recoverFrom v f t).mem.st = .frozen ∧ (recoverFrom v f t).mem.recover = some f ∧ (recoverFrom v f t).slow = v.slow := by
  have hflushed : RecoveryBusy (flushedFor { v.mem with recover := some f } t) := by
    refine flushLines_busy ?_ _ _
    rcases hbusy with h | h | h | ⟨k, hk, hsome⟩
    · exact .inl h
    · exact .inr (.inr (.inl h))
    · exact .inr (.inr (.inr h))
    · exact .inr (.inl (List.ne_nil_of_mem (List.mem_filter.mpr ⟨hk, hsome⟩)))
  have hctl : CtlIs (ctlOf { v.mem with recover := some f }) (v.modMem fun m => flushedFor { m with recover := some f } t) := flushedFor_ctlOf ..
  rw [recoverFrom_frozen hst, recoverStep_waits (s := v.modMem (fun m => { m with recover := some f })) hst rfl hflushed]
  exact ⟨hctl.st.trans hst, hctl.recover, rfl⟩

end Sys2Proof.Machine
end

section
/-! `MEMC_BIN` through a bin change: nothing that a change of the bin does writes the register (R206, R215). -/

namespace Sys2Proof.Machine

variable {s s' u v : State} {t : Time} {a : Nat}

theorem RegKept.of_within (h : Within (Part.but [.regs]) s s') : RegKept a s s' := .of_regs (h.1.2 .regs (by simp))

theorem RegKept.after (hk : RegKept a u s') (h : u.regs = s.regs) : RegKept a s s' := (RegKept.of_regs h).trans hk

theorem RegKept.ite {b : Prop} [Decidable b] {x y : State} (hx : RegKept a s x) (hy : RegKept a s y) : RegKept a s (if b then x else y) := by
  split <;> assumption

/-! Faults and notifications write `SYS_MBX_ERR` alone. -/

section
variable (ha : a ≠ aSYS_MBX_ERR)
include ha

theorem RegKept.notifyDue (p : PortIx) (code : Nat) (payload : List Byte) (t : Time) (due : Option Time) :
    RegKept a s (notifyDue s p code payload t due) :=
  .ite (.bump ha 7 0 1) (.of_regs rfl)

theorem RegKept.occurCls (code inst : Nat) (cls : AlarmCls) (stand : Bool) (t : Time) : RegKept a s (occurCls s code inst cls stand t) := by
  have hlog : ∀ (log : FaultLog) (e : FaultEntry) (event : Nat), RegKept a s (Machine.notifyFault { s with log := log } e event t) :=
    fun log e event => (RegKept.of_regs (s' := { s with log := log }) rfl).trans (.notifyFault ha e event t)
  simp only [Machine.occurCls]
  split
  · exact .ite (hlog _ _ _) (.ite (hlog _ _ _) (hlog _ _ _))
  · exact .ite (hlog _ _ _) (.of_regs rfl)

theorem RegKept.stand (code inst : Nat) (t : Time) : RegKept a s (stand s code inst t) := by
  unfold Machine.stand
  split
  · exact .ite .refl (.occurCls ha _ _ _ _ _)
  · exact .occurCls ha _ _ _ _ _

theorem RegKept.unstand (code inst : Nat) (t : Time) : RegKept a s (unstand s code inst t) := by
  unfold Machine.unstand
  split
  · exact .refl
  · exact .ite (.after (.notifyFault ha _ _ _) (by rfl)) .refl

theorem RegKept.endRecover (ok : Bool) (t : Time) : RegKept a s (endRecover s ok t) := by
  unfold Machine.endRecover complete
  split
  · dsimp only
    split
    · exact .after (.notifyDue ha _ _ _ _ _) (by rfl)
    · exact .of_within (by simp)
  · exact .refl

theorem RegKept.pllAttempt (n : Nat) (st : PllSt) (t : Time) : RegKept a s (pllAttempt s n st t) := by
  simp only [Machine.pllAttempt]
  split
  · exact .of_regs rfl
  · exact .after ((RegKept.raise ha _ _ _).trans (.stand ha _ _ _)) (by rfl)

theorem RegKept.pllStart (n : Nat) (t : Time) : RegKept a s (pllStart s n t) :=
  RegKept.trans (.after (.unstand ha _ _ _) (by rfl)) (.pllAttempt ha _ _ _)

end

/-! The frames and views of the raster write the registers of their views. -/

theorem regKept_startVf (f : VFrame) : RegKept aMEMC_BIN s (startVf s f) := by
  unfold startVf
  split
  · exact .refl
  · extract_lets body queued parameter size
    have hqueued : RegKept aMEMC_BIN s queued := .of_within (by simp [queued])
    have hparameter : RegKept aMEMC_BIN queued parameter := .setReg (by simp only [aMEMC_BIN, aPIPE_VPARAM]; omega) _
    have hsize : RegKept aMEMC_BIN parameter size := .setReg (by simp only [aMEMC_BIN, aPIPE_VSIZE]; omega) _
    exact ((hqueued.trans hparameter).trans hsize).trans (.of_regs rfl)

theorem regKept_endVf (f : VFrame) (extra : Nat) (t : Time) : RegKept aMEMC_BIN s (endVf s f extra t) := by
  unfold endVf
  extract_lets started f' queued numbered seen
  have hqueued : RegKept aMEMC_BIN started queued := .of_within (by simp [queued])
  have hnumbered : RegKept aMEMC_BIN queued numbered := .setReg (by simp only [aMEMC_BIN, aPIPE_VFRAME]; omega) _
  exact (((regKept_startVf f).trans hqueued).trans hnumbered).trans (.of_within (by simp [seen]))

theorem regKept_truncateVf (f : VFrame) (extra : Nat) (t : Time) : RegKept aMEMC_BIN s (truncateVf s f extra t) :=
  .ite (regKept_endVf f _ t) (.of_within (by simp))

theorem regKept_missFrame {v : Nat} (hv : v < 16) (frame reason : Nat) (t : Time) : RegKept aMEMC_BIN s (missFrame s v frame reason t) := by
  unfold missFrame
  extract_lets counted w now missed
  have hcounted : RegKept aMEMC_BIN s counted := .ite .refl (.bump (by simp only [aMEMC_BIN, aPIPE_VDROP]; omega) _ _ _)
  have hmissed : RegKept aMEMC_BIN s missed := hcounted.trans (.of_regs rfl)
  refine .ite (hmissed.trans ?_) hmissed
  exact (RegKept.notifyDue (by decide) _ _ _ _ _).trans (.of_regs rfl)

theorem RegKept.foldl_mem {α : Type} {f : State → α → State} {l : List α} (hf : ∀ v, ∀ x ∈ l, RegKept a v (f v x)) : RegKept a s (l.foldl f s) := by
  induction l generalizing s with
  | nil => exact .refl
  | cons x l ih => exact (hf s x List.mem_cons_self).trans (ih fun v y hy => hf v y (List.mem_cons_of_mem _ hy))

theorem regKept_rasterToCreated (t : Time) : RegKept aMEMC_BIN s (rasterToCreated s t) := by
  refine .foldl_mem fun u v hv => .ite ?_ .refl
  have hv : v < 16 := List.mem_range.mp hv
  extract_lets next opened ended missed
  have hended : RegKept aMEMC_BIN u ended := .foldl (fun _ f => (regKept_truncateVf f 0 t).trans (regKept_missFrame hv _ _ _)) _
  have hmissed : RegKept aMEMC_BIN u missed := .ite (hended.trans (regKept_missFrame hv _ _ _)) hended
  exact hmissed.trans (.of_within (by simp))

/-! The change itself. -/

theorem regKept_memUnavail (t : Time) : RegKept aMEMC_BIN s (memUnavail s t) := by
  unfold memUnavail
  extract_lets off stood stopped aborted
  have hoff : RegKept aMEMC_BIN s off := .of_within (by simp [off])
  have hstood : RegKept aMEMC_BIN off stood := .stand (by decide) _ _ _
  have hstopped : RegKept aMEMC_BIN stood stopped := (regKept_rasterToCreated (s := stood) t).trans (.of_within (by simp [stopped]))
  have haborted : RegKept aMEMC_BIN stopped aborted := .of_within (by simp [aborted])
  exact (hoff.trans (hstood.trans (hstopped.trans haborted))).trans (.endRecover (by decide) _ _)

theorem regKept_relockPllm (t : Time) : RegKept aMEMC_BIN s (relockPllm s t) := by
  have hstart : RegKept aMEMC_BIN s (pllStart s 2 t) := .pllStart (by decide) _ _
  exact .ite (hstart.trans (regKept_memUnavail t)) hstart

theorem regKept_changeFlush (t : Time) : RegKept aMEMC_BIN s (changeFlush s t) := by
  unfold changeFlush
  refine .ite ?_ .refl
  extract_lets hold flushed m
  have hflushed : RegKept aMEMC_BIN s flushed := .ite .refl (.of_regs rfl)
  exact .ite (hflushed.trans (.after (regKept_relockPllm t) (by rfl))) hflushed

theorem regKept_acceptChange (t : Time) : RegKept aMEMC_BIN s (acceptChange s t) := .after (regKept_changeFlush t) (by rfl)

theorem regKept_requestChange (t : Time) : RegKept aMEMC_BIN s (requestChange s t) := by
  unfold requestChange
  dsimp only
  split
  · exact .ite .refl (regKept_acceptChange t)
  all_goals exact .of_regs rfl

/-! The write of `MEMC_BIN.TARGET`. -/

theorem bits_setBits_low {x n : Nat} (hn : n < 4) : bits (setBits x 1 0 n % 2 ^ 32) 1 0 = n := by
  simp only [bits, setBits, Nat.shiftRight_zero]
  omega

theorem memcBinTargetWrite_setsTarget {target : BitVec 2} (hu : u = s.at t) (hthree : target.toNat ≠ 3) (hserves : serves u .sideband = true)
    (hwf : storeWf u.regs = true) :
    ∃ s', exec (.memcBinTargetWrite t target) s = .next s' ∧ s'.mem.target = target.toNat ∧ s'.fld aMEMC_BIN 1 0 = target.toNat ∧
      s'.mem.bin = u.mem.bin := by
  rw [show exec (.memcBinTargetWrite t target) s = execMemcBinTargetWrite t target s from rfl, execMemcBinTargetWrite]
  refine ⟨_, event_due_at hu (by simp [hthree, hserves]), ?_⟩
  unfold writeTarget
  extract_lets written
  obtain ⟨hbin, htarget, -⟩ := binsKept_requestChange (s := written) t
  have hrising : Rising written.regs := rising_storePut (rising_of_storeWf hwf) _ _ _
  have hreg : written.reg aMEMC_BIN = setBits (u.reg aMEMC_BIN) 1 0 target.toNat % 2 ^ 32 := by
    simp only [written, State.reg, State.setFld, State.modMem, State.setReg_regs, storeGet_storePut_self _ _ _ _ (rising_of_storeWf hwf)]
  refine ⟨htarget, ?_, hbin⟩
  rw [State.fld, (regKept_requestChange t hrising).2, hreg, bits_setBits_low target.isLt]

end Sys2Proof.Machine
end

section
/-! The obligation on the memory's management. -/

namespace Sys2Proof.Machine

/-- Settles O28: clause by clause; what a bin change or a recovery leaves of the controller is read off `memResume_cases`, and what it leaves of
`MEMC_BIN` off the operations that it is made of. -/
theorem memoryIsRefreshedAndManaged : Obligations.MemoryIsRefreshedAndManaged := by
  unfold Obligations.MemoryIsRefreshedAndManaged
  refine ⟨?refresh, ?owed, ?poll, ?idle, ?target, ?change, ?status, ?recover⟩
  case refresh =>
    intro s u t q b v hu hawake hb hv hdue
    exact refreshDue_refreshes q b v hu hawake hb hv hdue
  case owed => exact fun m b => ⟨rfl, rfl, rfl⟩
  case poll => exact fun s u t reports hu hawake hpoll => refreshRatePoll_setsMultiplier reports hu hawake hpoll
  case idle => exact fun s u t sc block l hu hrun hroom hline hidle => eccLineIdle_writesBack hu hrun hroom hline hidle
  case target => exact fun s u t target hu hthree hserves hwf => memcBinTargetWrite_setsTarget hu hthree hserves hwf
  case change =>
    intro s u t ok hu hdawn hready hpll
    refine ⟨_, binChange_next ok hu hdawn hready hpll, changeDone_sameBytes ok, ?_, ?_, changeDone_sweeps⟩
    · rintro d rfl hd hprior hrec hcap
      exact changeDone_frozen hd hprior hrec hcap
    · rintro d rfl hd hprior hpend hsweep
      exact changeDone_runs hd hprior hpend hsweep
  case status => exact fun s u c hu hready hpl => memStatus_reads c hu hready hpl
  case recover =>
    intro s u v c hu hready hlease hlen hsmall hrest hfirst hv
    have hasked : RecoverAsked u c (u8 c.payload 0) := ⟨hready, hlease, hlen, rfl, hsmall, hrest, hfirst⟩
    have hmem : v.mem = u.mem := by rw [hv, accept_mem]
    have hacts := memRecover_acts hu hasked
    rw [← hv] at hacts
    refine ⟨?_, ?_, ?_, ?_, memRecover_refused hu hasked⟩
    · intro hst hecc hckd hdies hckq
      obtain ⟨hheld, hruns, hsweeps⟩ := recoverFrom_endsFreeze (v := v) (f := u8 c.payload 0) (t := c.start)
        (by rw [hmem]; exact hst) (by rw [hmem]; exact hecc) (by rw [hmem]; exact hckd) (by rw [hmem]; exact hdies) (by rw [hmem]; exact hckq)
      rw [hmem] at hruns hsweeps
      exact ⟨_, hacts (.inl hst), hheld, fun hbit _ => hruns hbit, hsweeps⟩
    · intro hst hbusy
      exact ⟨_, hacts (.inl hst), recoverFrom_waits (by rw [hmem]; exact hst) (by rw [hmem]; exact hbusy)⟩
    · intro hst hbit
      rw [hacts (.inr ⟨.inl hst, hbit⟩), recoverFrom_run (by rw [hmem]; exact hst)]
    · intro hst hbit
      rw [hacts (.inr ⟨.inr hst, hbit⟩), recoverFrom_unavail (by rw [hmem]; exact hst)]

end Sys2Proof.Machine
end

section
/-! The charger's shared operations: what each leaves in the hold-up state (R238 to R241, R250). -/

namespace Sys2Proof.Machine

variable {s : State} {L : List Part}

theorem Within.hold {s' : State} (h : Within L s s') (ha : .hold ∉ L) : s'.hold = s.hold := h.1.2 _ ha

@[simp] theorem stand_hold (code inst : Nat) (t : Time) : (stand s code inst t).hold = s.hold :=
  Within.hold (L := Part.but [.hold]) (by simp) (by simp)
@[simp] theorem unstand_hold (code inst : Nat) (t : Time) : (unstand s code inst t).hold = s.hold :=
  Within.hold (L := Part.but [.hold]) (by simp) (by simp)

@[simp] theorem holdFault_hold (k : Nat) (t : Time) :
    (holdFault s k t).hold = { s.hold with faults := if s.hold.faults.contains k then s.hold.faults else s.hold.faults ++ [k] } := by
  simp only [holdFault, stand_hold]
  split <;> rfl

@[simp] theorem holdClear_hold (k : Nat) (t : Time) :
    (holdClear s k t).hold = { s.hold with faults := s.hold.faults.filter (fun x => decide (x ≠ k)) } := by
  rw [holdClear, unstand_hold]
  rfl

@[simp] theorem holdFaultIf_hold (k : Nat) (bad : Bool) (t : Time) :
    (holdFaultIf s k bad t).hold = if bad then (holdFault s k t).hold else (holdClear s k t).hold := by
  rw [holdFaultIf]
  split <;> rfl

/-- A fault of the store is one that stands from its occurrence on. -/
theorem mem_faults_holdFault (k : Nat) (t : Time) : k ∈ (holdFault s k t).hold.faults := by
  rw [holdFault_hold]
  dsimp only
  split
  · next h => exact List.contains_iff_mem.mp h
  · simp

/-- Raising or clearing a fault changes the list of faults alone. -/
theorem holdFaultIf_keeps {β : Type} {g : Hold → β} (hg : ∀ h l, g { h with faults := l } = g h) (k : Nat) (bad : Bool) (t : Time) :
    g (holdFaultIf s k bad t).hold = g s.hold := by
  rw [holdFaultIf_hold]
  split
  · rw [holdFault_hold, hg]
  · rw [holdClear_hold, hg]

@[simp] theorem updateReady_hold (t : Time) : (updateReady s t).hold =
    { s.hold with ready := holdupValid s && s.hold.faults.isEmpty && decide (9 * effTarget s ≤ 10 * s.hold.ocv) } := by
  simp only [updateReady]
  split
  · rw [stand_hold]
    rfl
  · rw [unstand_hold]
    rfl

@[simp] theorem chargeFault_hold (k : Nat) (t : Time) : (chargeFault s k t).hold =
    { s.hold with phase := .fault, pulse := false, faults := if s.hold.faults.contains k then s.hold.faults else s.hold.faults ++ [k] } := by
  rw [chargeFault, holdFault_hold]
  rfl

/-- A suspension, or its end, moves the phase and the pulse alone. -/
theorem applySuspend_keeps {β : Type} {g : Hold → β}
    (hg : ∀ h p b a o, g { h with phase := p, pulse := b, pulseAt := a, preOcv := o } = g h) (t : Time) :
    g (applySuspend s t).hold = g s.hold := by
  simp only [applySuspend]
  split
  · split
    · exact hg s.hold .suspend false s.hold.pulseAt s.hold.preOcv
    · rfl
  · split
    · exact hg s.hold (phaseByOcv s.hold) true t s.hold.ocv
    · rfl

/-- A measured OCV is the store's from then on, and one too far above the target ends charging (R238). -/
theorem measureOcv_measures (ocv : Nat) (t : Time) : (measureOcv s ocv t).hold.ocv = ocv ∧
    ((huTarget s + 50 < ocv ∧ s.hold.phase ≠ .off ∧ s.hold.phase ≠ .fault ∧ (measureOcv s ocv t).hold.phase = .fault) ∨
      (¬(huTarget s + 50 < ocv ∧ s.hold.phase ≠ .off ∧ s.hold.phase ≠ .fault) ∧
        measureOcv s ocv t = s.modHold (fun h => { h with ocv := ocv }))) := by
  by_cases hover : huTarget s + 50 < ocv ∧ s.hold.phase ≠ .off ∧ s.hold.phase ≠ .fault
  · have hfault : measureOcv s ocv t = chargeFault (s.modHold (fun h => { h with ocv := ocv })) 7 t := if_pos hover
    obtain ⟨habove, hoff, hstopped⟩ := hover
    rw [hfault, chargeFault_hold]
    exact ⟨rfl, .inl ⟨habove, hoff, hstopped, rfl⟩⟩
  · have hkept : measureOcv s ocv t = s.modHold (fun h => { h with ocv := ocv }) := if_neg hover
    rw [hkept]
    exact ⟨rfl, .inr ⟨hover, rfl⟩⟩

/-- The phase that follows a rest leaves the measured values. -/
theorem phaseMove_ocv (t : Time) : (phaseMove s t).hold.ocv = s.hold.ocv := by
  simp only [phaseMove]
  split
  · split <;> rfl
  · split <;> rfl
  · split <;> rfl
  · rfl

/-- After a reading of HU_NTC the charger suspends or goes on, and READY follows: that leaves every other value. -/
theorem settled_keeps {β : Type} {g : Hold → β}
    (hg : ∀ h p b a o r, g { h with phase := p, pulse := b, pulseAt := a, preOcv := o, ready := r } = g h) (t : Time) :
    g (updateReady (applySuspend s t) t).hold = g s.hold := by
  rw [updateReady_hold]
  exact (hg (applySuspend s t).hold _ _ _ _ _).trans (applySuspend_keeps (fun h p b a o => hg h p b a o h.ready) t)

/-- A reading within the range of the sensor (R239). -/
theorem readNtc_inRange {ohm : Nat} (hlow : 200 ≤ ohm) (hhigh : ohm ≤ 1000000) (t : Time) :
    readNtc s ohm t = updateReady (applySuspend (((holdClear s 4 t).modHold (fun h => { h with ntcAt := t })).modHold (fun h => { h with
      temp := ntcTemp ohm ((holdClear s 4 t).fld aHOLD_NTC 31 16)
      zone := nextZone h.zone (ntcTemp ohm ((holdClear s 4 t).fld aHOLD_NTC 31 16)) })) t) t := by
  have hgood : decide (1000000 < ohm ∨ ohm < 200) = false := decide_eq_false (by omega)
  rw [readNtc, hgood]
  rfl

/-- A reading of a sensor that is open or shorted (R239). -/
theorem readNtc_outOfRange {ohm : Nat} (hbad : ohm < 200 ∨ 1000000 < ohm) (t : Time) :
    readNtc s ohm t = updateReady (applySuspend ((holdFault s 4 t).modHold (fun h => { h with ntcAt := t })) t) t := by
  rw [readNtc, decide_eq_true hbad.symm]
  rfl

/-- A reading of HU_NTC is dated, and leaves the measured OCV (R239). -/
theorem readNtc_dates (ohm : Nat) (t : Time) : (readNtc s ohm t).hold.ocv = s.hold.ocv ∧ (readNtc s ohm t).hold.ntcAt = t := by
  by_cases hbad : ohm < 200 ∨ 1000000 < ohm
  · rw [readNtc_outOfRange hbad, settled_keeps (g := Hold.ocv) fun _ _ _ _ _ _ => rfl, settled_keeps (g := Hold.ntcAt) fun _ _ _ _ _ _ => rfl]
    simp [State.modHold]
  · rw [readNtc_inRange (by omega) (by omega), settled_keeps (g := Hold.ocv) fun _ _ _ _ _ _ => rfl,
      settled_keeps (g := Hold.ntcAt) fun _ _ _ _ _ _ => rfl]
    simp [State.modHold]

end Sys2Proof.Machine
end

section
/-! The charger's events (R237 to R241). -/

namespace Sys2Proof.Machine

variable {s u : State} {t : Time}

theorem chargerVioSample_samples (mv : Nat) (hu : u = s.at t) (hpower : powered u = true) :
    exec (.chargerVioSample t mv) s = .next (u.modHold (fun h => { h with
      vioLow := decide (mv < 1740), downAt := if mv < 1740 ∧ h.vioLow = false then t else h.downAt
      vioHighSince := if 1760 ≤ mv then some (h.vioHighSince.getD t) else none })) := by
  rw [show exec (.chargerVioSample t mv) s = execChargerVioSample t mv s from rfl, execChargerVioSample, event_due_at hu hpower]
  cases hsince : u.hold.vioHighSince <;> simp [State.modHold, hsince]

theorem chargerLimitDown_steps (hu : u = s.at t) (hpower : powered u = true) (hlow : u.hold.vioLow = true) (hsteps : u.hold.steps < 4)
    (hdown : u.hold.downAt + 50 * us ≤ t) :
    exec (.chargerLimitDown t) s = .next (u.modHold (fun h => { h with steps := h.steps + 1, downAt := t })) := by
  rw [show exec (.chargerLimitDown t) s = execChargerLimitDown t s from rfl, execChargerLimitDown]
  exact event_due_at hu (by simp [hpower, hlow, hsteps, hdown])

theorem chargerLimitUp_steps {a : Time} (hu : u = s.at t) (hpower : powered u = true) (hsteps : 0 < u.hold.steps)
    (hsince : u.hold.vioHighSince = some a) (hhigh : a + 10 * ms ≤ t) :
    exec (.chargerLimitUp t) s = .next (u.modHold (fun h => { h with steps := h.steps - 1, vioHighSince := some t })) := by
  rw [show exec (.chargerLimitUp t) s = execChargerLimitUp t s from rfl, execChargerLimitUp]
  exact event_due_at hu (by simp [hpower, hsteps, hsince, hhigh])

theorem chargerRestStart_rests (mean dq v1 iOut : Nat) (hu : u = s.at t) (hpower : powered u = true) (hcharging : charging u.hold = true)
    (hpulse : u.hold.pulse = true) (hlong : u.hold.pulseAt + 900 * ms ≤ t) :
    ∃ s', exec (.chargerRestStart t mean dq v1 iOut) s = .next s' ∧ s'.hold.pulse = false ∧ s'.hold.pulseAt = t ∧
      s'.hold.q = u.hold.q + dq ∧ s'.hold.iIn = mean := by
  rw [show exec (.chargerRestStart t mean dq v1 iOut) s = execChargerRestStart t mean dq v1 iOut s from rfl, execChargerRestStart]
  refine ⟨_, event_due_at hu (by simp [hpower, hcharging, hpulse, hlong]), ?_⟩
  rw [updateReady_hold]
  dsimp only
  rw [holdFaultIf_keeps (g := Hold.pulse) fun _ _ => rfl, holdFaultIf_keeps (g := Hold.pulseAt) fun _ _ => rfl,
    holdFaultIf_keeps (g := Hold.q) fun _ _ => rfl, holdFaultIf_keeps (g := Hold.iIn) fun _ _ => rfl]
  exact ⟨rfl, rfl, rfl, rfl⟩

/-- What CHARGER_PULSE_END does after the OCV's measurement leaves the OCV (R238 to R241). -/
theorem chargerPulseEnd_measures (ocv ohm : Nat) (hu : u = s.at t) (hpower : powered u = true) (hcharging : charging u.hold = true)
    (hpulse : u.hold.pulse = false) (hlong : u.hold.pulseAt + 100 * ms ≤ t) :
    ∃ s', exec (.chargerPulseEnd t ocv ohm) s = .next s' ∧ s'.hold.ocv = ocv ∧ s'.hold.ntcAt = t := by
  rw [show exec (.chargerPulseEnd t ocv ohm) s = execChargerPulseEnd t ocv ohm s from rfl, execChargerPulseEnd]
  refine ⟨_, event_due_at hu (by simp [hpower, hcharging, hpulse, hlong]), ?_⟩
  extract_lets h counted measured judged budgeted moved read
  have hmeasured : measured.hold.ocv = ocv := (measureOcv_measures ocv t).1
  have hjudged : judged.hold.ocv = measured.hold.ocv := by
    simp only [judged]
    split
    · rfl
    · exact holdFaultIf_keeps (g := Hold.ocv) (fun _ _ => rfl) _ _ _
  have hbudgeted : budgeted.hold.ocv = judged.hold.ocv := by
    simp only [budgeted]
    split
    · rw [chargeFault_hold]
    · rfl
  have hmoved : moved.hold.ocv = budgeted.hold.ocv := by
    simp only [moved]
    split
    · exact phaseMove_ocv t
    · rfl
  obtain ⟨hread, hdated⟩ : read.hold.ocv = moved.hold.ocv ∧ read.hold.ntcAt = t := readNtc_dates ohm t
  have hocv : read.hold.ocv = ocv := by rw [hread, hmoved, hbudgeted, hjudged, hmeasured]
  split <;> exact ⟨hocv, hdated⟩

theorem chargerOcvCheck_checks (ocv : Nat) (hu : u = s.at t) (hpower : powered u = true) (hdone : u.hold.phase = .done)
    (hlong : u.hold.pulseAt + 10 * sec ≤ t) :
    ∃ s', exec (.chargerOcvCheck t ocv) s = .next s' ∧ s'.hold.ocv = ocv ∧ s'.hold.pulseAt = t ∧
      s'.hold.phase = if huTarget u + 50 < ocv then .fault else if 100 * ocv < 97 * effTarget u then .maintain else .done := by
  rw [show exec (.chargerOcvCheck t ocv) s = execChargerOcvCheck t ocv s from rfl, execChargerOcvCheck]
  refine ⟨_, event_due_at hu (by simp [hpower, hdone, hlong]), ?_⟩
  simp only [updateReady_hold]
  obtain ⟨hocv, ⟨hover, -, -, hfault⟩ | ⟨hwithin, hkept⟩⟩ := measureOcv_measures (s := u) ocv t
  · rw [if_neg (fun h => by simp [State.modHold, hfault] at h), if_pos hover]
    exact ⟨hocv, rfl, hfault⟩
  · have hwithin : ¬huTarget u + 50 < ocv := fun h => hwithin ⟨h, by simp [hdone], by simp [hdone]⟩
    rw [hkept, if_neg hwithin]
    by_cases hlow : 100 * ocv < 97 * effTarget u
    · rw [if_pos hlow, if_pos ⟨hdone, hlow⟩]
      exact ⟨rfl, rfl, rfl⟩
    · rw [if_neg hlow, if_neg fun h => hlow h.2]
      exact ⟨rfl, rfl, hdone⟩

theorem chargeBudgetExceeded_stops (dq : Nat) (hu : u = s.at t) (hpower : powered u = true) (hcharging : charging u.hold = true)
    (hpulse : u.hold.pulse = true) (hmore : budget u < u.hold.q + dq) :
    ∃ s', exec (.chargeBudgetExceeded t dq) s = .next s' ∧ s'.hold.phase = .fault ∧ s'.hold.pulse = false ∧ s'.hold.q = u.hold.q + dq ∧
      1 ∈ s'.hold.faults := by
  rw [show exec (.chargeBudgetExceeded t dq) s = execChargeBudgetExceeded t dq s from rfl, execChargeBudgetExceeded]
  refine ⟨_, event_due_at hu (by simp [hpower, hcharging, hpulse, hmore]), ?_⟩
  simp only [updateReady_hold]
  exact ⟨by rw [chargeFault_hold], by rw [chargeFault_hold], by rw [chargeFault_hold]; rfl, mem_faults_holdFault 1 t⟩

theorem chargeTargetReached_tapers (mv : Nat) (hu : u = s.at t) (hpower : powered u = true) (hfast : u.hold.phase = .fast)
    (hpulse : u.hold.pulse = true) (hreached : effTarget u ≤ mv) :
    exec (.chargeTargetReached t mv) s = .next (u.modHold (fun h => { h with phase := .taper, lowPulses := 0 })) := by
  rw [show exec (.chargeTargetReached t mv) s = execChargeTargetReached t mv s from rfl, execChargeTargetReached]
  exact event_due_at hu (by simp [hpower, hfast, hpulse, hreached])

/-- Settles O30: the rule of each of the charger's events. -/
theorem chargerYieldsPulsesRests : Obligations.ChargerYieldsPulsesRests := by
  unfold Obligations.ChargerYieldsPulsesRests
  refine ⟨?sample, ?down, ?up, ?rest, ?pulseEnd, ?check, ?budget, ?target⟩
  case sample => exact fun s u t mv hu hpower => chargerVioSample_samples mv hu hpower
  case down => exact fun s u t hu hpower hlow hsteps hdown => chargerLimitDown_steps hu hpower hlow hsteps hdown
  case up => exact fun s u t a hu hpower hsteps hsince hhigh => chargerLimitUp_steps hu hpower hsteps hsince hhigh
  case rest =>
    exact fun s u t mean dq v1 iOut hu hpower hcharging hpulse hlong => chargerRestStart_rests mean dq v1 iOut hu hpower hcharging hpulse hlong
  case pulseEnd => exact fun s u t ocv ohm hu hpower hcharging hpulse hlong => chargerPulseEnd_measures ocv ohm hu hpower hcharging hpulse hlong
  case check => exact fun s u t ocv hu hpower hdone hlong => chargerOcvCheck_checks ocv hu hpower hdone hlong
  case budget => exact fun s u t dq hu hpower hcharging hpulse hmore => chargeBudgetExceeded_stops dq hu hpower hcharging hpulse hmore
  case target => exact fun s u t mv hu hpower hfast hpulse hreached => chargeTargetReached_tapers mv hu hpower hfast hpulse hreached

end Sys2Proof.Machine
end

section
/-! Readings of HU_NTC, the lamps, CONFIG_HOLDUP and HOLDUP_STATUS (R239, R242, R249, R250). -/

namespace Sys2Proof.Machine

variable {s u : State} {t : Time} {c : Call}

/-- Clearing a fault of the store writes no register but that of lost notifications. -/
theorem holdClear_fld {a : Nat} (ha : a ≠ aSYS_MBX_ERR) (hs : Rising s.regs) (k : Nat) (t : Time) (hi lo : Nat) :
    (holdClear s k t).fld a hi lo = s.fld a hi lo := by
  have hkept : RegKept a s (holdClear s k t) := .after (.unstand ha _ _ _) (by rfl)
  rw [State.fld, (hkept hs).2, State.fld]

theorem readNtc_temp_inRange {ohm : Nat} (hs : Rising s.regs) (hlow : 200 ≤ ohm) (hhigh : ohm ≤ 1000000) (t : Time) :
    (readNtc s ohm t).hold.temp = ntcTemp ohm (s.fld aHOLD_NTC 31 16) := by
  rw [readNtc_inRange hlow hhigh, settled_keeps (g := Hold.temp) fun _ _ _ _ _ _ => rfl, holdClear_fld (by decide) hs]
  rfl

theorem readNtc_temp_outOfRange {ohm : Nat} (hbad : ohm < 200 ∨ 1000000 < ohm) (t : Time) :
    (readNtc s ohm t).hold.temp = s.hold.temp ∧ 4 ∈ (readNtc s ohm t).hold.faults := by
  rw [readNtc_outOfRange hbad, settled_keeps (g := Hold.temp) fun _ _ _ _ _ _ => rfl, settled_keeps (g := Hold.faults) fun _ _ _ _ _ _ => rfl]
  refine ⟨?_, mem_faults_holdFault 4 t⟩
  simp [State.modHold]

theorem ntcRead_reads (ohm : Nat) (hu : u = s.at t) (hpower : powered u = true) (hresting : charging u.hold = false) (hsec : u.hold.ntcAt + sec ≤ t)
    (hwf : storeWf u.regs = true) :
    ∃ s', exec (.ntcRead t ohm) s = .next s' ∧ s'.hold.ntcAt = t ∧ s'.hold.ocv = u.hold.ocv ∧
      (200 ≤ ohm → ohm ≤ 1000000 → s'.hold.temp = ntcTemp ohm (u.fld aHOLD_NTC 31 16)) ∧
      ((ohm < 200 ∨ 1000000 < ohm) → s'.hold.temp = u.hold.temp ∧ 4 ∈ s'.hold.faults) := by
  rw [show exec (.ntcRead t ohm) s = execNtcRead t ohm s from rfl, execNtcRead]
  obtain ⟨hocv, hdated⟩ := readNtc_dates (s := u) ohm t
  exact ⟨_, event_due_at hu (by simp [hpower, hresting, hsec]), hdated, hocv,
    fun hlow hhigh => readNtc_temp_inRange (rising_of_storeWf hwf) hlow hhigh t, fun hbad => readNtc_temp_outOfRange hbad t⟩

theorem lanternPatternTick_follows (pin : Fin 2) (hu : u = s.at t) :
    exec (.lanternPatternTick t pin) s =
      .next (u.modHold (fun h => { h with lampOn := modAt h.lampOn pin.val (fun _ => patternOn (lampPattern u pin.val) t) })) := by
  rw [show exec (.lanternPatternTick t pin) s = execLanternPatternTick t pin s from rfl, execLanternPatternTick]
  exact event_due_at hu rfl

/-- What CONFIG_HOLDUP asks of its fields (R249). -/
structure HoldupFields (u : State) (pl : List Byte) : Prop where
  length : pl.length = 16
  switches : u8 pl 0 ≤ 3
  zero : u8 pl 1 = 0
  target : 1200 ≤ u16 pl 2 ∧ u16 pl 2 ≤ 1750
  nominal : 10 ≤ u16 pl 4 ∧ u16 pl 4 ≤ 500
  limit : holdIlimOk u (u16 pl 6) = true
  beta : 2000 ≤ u16 pl 8 ∧ u16 pl 8 ≤ 5000
  lamp0 : u8 pl 10 ≤ 6
  lamp1 : u8 pl 11 ≤ 6
  resistance : 10 ≤ u16 pl 12 ∧ u16 pl 12 ≤ 2000
  rest : u16 pl 14 = 0

theorem configHoldup_applies (hu : u = s.at c.start) (hready : Ready u c 0x0603) (hlease : needLeaseOrSafety u c lARRAY = none)
    (hfields : HoldupFields u c.payload) (hsource : bit (u8 c.payload 0) 0 = true → u.hold.srcClass ≠ 0) :
    exec (.configHoldup c) s = .next (okWith (holdApply u (u8 c.payload 0 + u8 c.payload 10 * 256 + u8 c.payload 11 * 4096)
      (u16 c.payload 2 + u16 c.payload 4 * 65536) (u16 c.payload 6 + u16 c.payload 12 * 65536) (u16 c.payload 8) c.start) c 0x0603 .fast []) := by
  obtain ⟨hserved, harg⟩ := hready
  obtain ⟨hlen, hswitches, hzero, htarget, hnominal, hlimit, hbeta, hlamp0, hlamp1, hresistance, hrest⟩ := hfields
  have hclass : (!bit (u8 c.payload 0) 0 || decide (u.hold.srcClass ≠ 0)) = true := by
    cases hon : bit (u8 c.payload 0) 0 with
    | false => rfl
    | true => exact decide_eq_true (hsource hon)
  rw [show exec (.configHoldup c) s = execConfigHoldup c s from rfl, execConfigHoldup]
  subst hu
  refine command_acts hserved ?_ nofun
  simp only [List.forall_mem_cons, argOk_eq_none, decide_eq_true_eq]
  exact ⟨need_true (decide_eq_true hlen), hlease, harg, reservedBits_none_of_lt (by omega), reserved_one hzero, htarget, hnominal, hlimit, hbeta,
    hlamp0, hlamp1, hresistance, reserved_of_leVal hrest, need_true hclass, nofun⟩

/-! A payload read at a field's offset: the fields before it are skipped. -/

theorem slice_cons (b : Byte) (r : List Byte) (off len : Nat) : slice (b :: r) (off + 1) len = slice r off len := rfl

theorem slice_skip {a r : List Byte} {off len : Nat} (h : a.length ≤ off) : slice (a ++ r) off len = slice r (off - a.length) len := by
  simp only [slice, List.drop_append, List.drop_eq_nil_of_le h, List.nil_append]

theorem slice_here {b r : List Byte} {len : Nat} (h : b.length = len) : slice (b ++ r) 0 len = b := by
  subst h
  simp [slice]

/-- HOLDUP_STATUS shows the charger, and changes nothing but for its answer (R250). -/
theorem holdupStatus_reads (c : Call) (hu : u = s.at c.start) (hready : Ready u c 0x0602) (hpl : c.payload = []) :
    ∃ pl, exec (.holdupStatus c) s = .next (okWith u c 0x0602 .fast pl) ∧ pl.length = 32 ∧ u8 pl 0 = u.hold.phase.code ∧
      u8 pl 1 = u.hold.srcClass % 256 ∧ u16 pl 4 = u.hold.ocv % 65536 ∧ u32 pl 20 = u.hold.q % 2 ^ 32 := by
  obtain ⟨hserved, harg⟩ := hready
  rw [show exec (.holdupStatus c) s = execHoldupStatus c s from rfl, execHoldupStatus]
  subst hu
  refine ⟨_, command_acts hserved ?_ nofun, by simp, ?_, rfl, ?_, ?_⟩
  · simp only [List.forall_mem_cons]
    exact ⟨need_true (by simp [hpl]), harg, nofun⟩
  · show (byte (s.at c.start).hold.phase.code).toNat = _
    cases (s.at c.start).hold.phase <;> rfl
  · simp [u16, slice_cons, slice_here, leVal_leBytes]
  · simp [u32, slice_cons, slice_skip, slice_here, leVal_leBytes]

/-- Settles O31: the rule of each of the two events and of each of the two commands. -/
theorem holdupSensingAndCommands : Obligations.HoldupSensingAndCommands := by
  unfold Obligations.HoldupSensingAndCommands
  refine ⟨?sense, ?lamp, ?config, ?status⟩
  case sense => exact fun s u t ohm hu hpower hresting hsec hwf => ntcRead_reads ohm hu hpower hresting hsec hwf
  case lamp => exact fun s u t pin hu => lanternPatternTick_follows pin hu
  case config =>
    intro s u c hu hready hlease hlen hswitches hsource hzero htarget htarget' hnominal hnominal' hlimit hbeta hbeta' hlamp0 hlamp1 hresistance
      hresistance' hrest
    exact configHoldup_applies hu hready hlease
      ⟨hlen, hswitches, hzero, ⟨htarget, htarget'⟩, ⟨hnominal, hnominal'⟩, hlimit, ⟨hbeta, hbeta'⟩, hlamp0, hlamp1,
        ⟨hresistance, hresistance'⟩, hrest⟩
      hsource
  case status => exact fun s u c hu hready hpl => holdupStatus_reads c hu hready hpl

end Sys2Proof.Machine
end

section
/-! The event ring's shared operations: what each leaves in the ring (R219, R221, R223 to R226, R248). -/

namespace Sys2Proof.Machine

variable {s : State} {L : List Part} {i j : Nat} {t : Time}

theorem Within.ring {s' : State} (h : Within L s s') (ha : .ring ∉ L) : s'.ring = s.ring := h.1.2 _ ha

@[simp] theorem memStore_ring (c i a : Nat) (bs : List Byte) (t : Time) : (memStore s c i a bs t).ring = s.ring :=
  Within.ring (L := [.mem, .fm]) (by simp) (by simp)

/-- The directory written, the ring's generation moves on alone (R221). -/
theorem dirWrite_ring (s : State) (t : Time) : ∃ g, (dirWrite s t).ring = { s.ring with gen := g } := by
  simp only [dirWrite]
  split
  · exact ⟨s.ring.gen, rfl⟩
  · simp only [memStore_ring]
    exact ⟨_, rfl⟩

@[simp] theorem dirWrite_segs (t : Time) : (dirWrite s t).ring.segs = s.ring.segs := by
  obtain ⟨g, hring⟩ := dirWrite_ring s t
  rw [hring]

/-- Pinning changes the chunks alone. -/
theorem pinChunks_keeps {β : Type} {g : Ring → β} (hg : ∀ r l, g { r with chunks := l } = g r) (slot : Nat) (ks : List Nat) :
    g (pinChunks s slot ks).ring = g s.ring :=
  foldl_keeps (g := fun v : State => g v.ring) (f := fun v k => modChunk v k (fun c => { c with pin := setBit c.pin slot true }))
    (fun v _ => hg v.ring _) ks

@[simp] theorem pinChunks_segs (slot : Nat) (ks : List Nat) : (pinChunks s slot ks).ring.segs = s.ring.segs :=
  pinChunks_keeps (fun _ _ => rfl) slot ks

/-- A slot released frees its segment; what it leaves of the ring's settings (R248). -/
theorem releaseSlot_ring (s : State) (i : Nat) (t : Time) : ∃ g, (releaseSlot s i t).ring = { s.ring with
    full := false, chunks := s.ring.chunks.map (fun c => { c with pin := setBit c.pin i false })
    segs := modAt s.ring.segs i (fun _ => Segment.free), gen := g } := by
  obtain ⟨g, hring⟩ := dirWrite_ring (s.modRing (fun r => { r with
    full := false
    chunks := r.chunks.map (fun c => { c with pin := setBit c.pin i false })
    segs := modAt r.segs i (fun _ => Segment.free) })) t
  exact ⟨g, hring⟩

/-! Segments: the table read at a slot. -/

theorem segOf_of_segs {r r' : Ring} (h : r'.segs = r.segs) (i : Nat) : segOf r' i = segOf r i := by rw [segOf, h, segOf]

/-- One slot of the table of segments changed: what it reads, and every other. -/
theorem segOf_of_modAt {r r' : Ring} {f : Segment → Segment} (h : r'.segs = modAt r.segs i f) (hi : i < r.segs.length) :
    segOf r' i = f (segOf r i) ∧ ∀ j : Nat, j ≠ i → segOf r' j = segOf r j := by
  refine ⟨?_, fun j hj => ?_⟩
  · rw [segOf, h, modAt_getD_self _ _ _ _ hi, segOf]
  · rw [segOf, h, modAt_getD_other _ _ _ _ _ hj.symm, segOf]

theorem cutFlag_flags (r : Ring) (g : Segment) : ∃ flags, cutFlag r g = { g with flags := flags } := by
  unfold cutFlag
  split
  · exact ⟨_, rfl⟩
  · exact ⟨g.flags, rfl⟩

theorem sealSegment_segs (s : State) (i flags : Nat) (t : Time) : (sealSegment s i flags t).ring.segs = modAt s.ring.segs i (fun g =>
    { g with state := 2, flags := Nat.lor (Nat.lor g.flags flags) (if s.sec.lockStands then 32 else 0) }) := by
  rw [sealSegment, dirWrite_segs]
  rfl

theorem extendSegment_segs (s : State) (i code d : Nat) : (extendSegment s i code d).ring.segs = modAt s.ring.segs i (fun g => cutFlag s.ring { g with
    end_ := max g.end_ (d + ringPost s.ring * 1000000), events := min 255 (g.events + 1), flags := Nat.lor g.flags 8
    lastCode := code, lastEvent := d }) := by
  simp only [extendSegment, pinChunks_segs]
  rfl

/-- A segment opened in a slot, with the ring's next ID and the window of its event (R223). -/
theorem openSegment_segs (s : State) (i code flags d end_ : Nat) (t : Time) :
    ∃ g : Segment, (openSegment s i code flags d end_ t).ring.segs = modAt s.ring.segs i (fun _ => g) ∧ g.state = 1 ∧ g.id = s.ring.nextId ∧
      g.firstCode = code ∧ g.firstEvent = d ∧ g.end_ = end_ := by
  unfold openSegment
  extract_lets start short g inw cutWindow g' opened
  obtain ⟨cut, hcut⟩ := cutFlag_flags s.ring g
  refine ⟨g', ?_, ?_⟩
  · rw [dirWrite_segs, pinChunks_segs]
    rfl
  · simp only [g', cutWindow, hcut]
    exact ⟨rfl, rfl, rfl, rfl, rfl⟩

/-! The slot that an event takes (R226). -/

/-- The one that a fold over a list keeps is in the list, or the one that it starts from. -/
theorem mem_of_foldl_choose {α : Type} {f : Option α → α → Option α} (hf : ∀ a x y, f a x = some y → a = some y ∨ x = y)
    {l : List α} {a : Option α} {y : α} (h : l.foldl f a = some y) : a = some y ∨ y ∈ l := by
  induction l generalizing a with
  | nil => exact .inl h
  | cons x l ih =>
    rcases ih h with hfirst | hrest
    · rcases hf a x y hfirst with ha | rfl
      · exact .inl ha
      · exact .inr List.mem_cons_self
    · exact .inr (List.mem_cons_of_mem _ hrest)

theorem oldestSealed_lt (h : oldestSealed s = some i) : i < 8 := by
  unfold oldestSealed at h
  refine (mem_of_foldl_choose (fun a x y hxy => ?_) h).elim nofun fun hmem => List.mem_range.mp (List.mem_of_mem_filter hmem)
  cases a with
  | none => exact .inr (Option.some.inj hxy)
  | some j =>
    dsimp only at hxy
    split at hxy
    · exact .inr (Option.some.inj hxy)
    · exact .inl hxy

theorem freeSlot_lt (h : freeSlot s = some i) : i < 8 := List.mem_range.mp (List.mem_of_find?_eq_some h)

theorem extendable_lt {d : Nat} (h : extendable s d = some i) : i < 8 := List.mem_range.mp (List.mem_of_find?_eq_some h)

/-- A slot made free is one of eight, and making it free leaves the table's size, the next ID and POST. -/
theorem makeSlot_keeps {dropped : Bool} {v : State} (h : makeSlot s t = (some i, dropped, v)) :
    i < 8 ∧ v.ring.segs.length = s.ring.segs.length ∧ v.ring.nextId = s.ring.nextId ∧ ringPost v.ring = ringPost s.ring := by
  unfold makeSlot at h
  split at h
  · next hfree =>
    cases h
    exact ⟨freeSlot_lt hfree, rfl, rfl, rfl⟩
  · split at h
    · split at h
      · next hold =>
        cases h
        obtain ⟨g, hring⟩ := releaseSlot_ring (addLost s (segOf s.ring i).events) i t
        rw [hring]
        exact ⟨oldestSealed_lt hold, modAt_length .., rfl, rfl⟩
      · cases h
    · cases h

end Sys2Proof.Machine
end

section
/-! CONFIG_RING (R23, R188, R244). -/

namespace Sys2Proof.Machine

variable {s u : State} {c : Call} {p : PortIx} {t : Time}

/-- The ring but for what the start of a frame moves, and for the directory's generation. -/
def settingsOf (r : Ring) : Ring :=
  { r with viewsAct := 0, begun := [], acts := [], gen := 0, segs := r.segs.map (fun g => { g with also := 0 }) }

theorem settingsOf_dirWrite (t : Time) : settingsOf (dirWrite s t).ring = settingsOf s.ring := by
  obtain ⟨g, hring⟩ := dirWrite_ring s t
  rw [hring]
  rfl

theorem settingsOf_ringFrameStart (v frame : Nat) : settingsOf (ringFrameStart s v frame).ring = settingsOf s.ring := by
  unfold ringFrameStart
  extract_lets on live
  simp only [State.modRing, settingsOf]
  cases on with
  | false => rfl
  | true =>
    rw [if_pos rfl, List.map_map]
    congr 1
    refine List.map_congr_left fun g _ => ?_
    simp only [Function.comp]
    split <;> rfl

theorem segOf_settingsOf (r : Ring) (i : Nat) : segOf (settingsOf r) i = { segOf r i with also := 0 } := by
  have hmapped := List.getD_map r.segs Segment.free (n := i) (fun g : Segment => { g with also := 0 })
  exact hmapped

/-- Segments that agree but for their late views are equal once those are. -/
theorem eq_of_bare {a b : Segment} (h : { a with also := 0 } = { b with also := 0 }) : a = { b with also := a.also } :=
  congrArg (fun g : Segment => { g with also := a.also }) h

/-- The ring with as many array segments as CONFIG_RING asks for: another number empties the store (R244). -/
def resized (s : State) (n : Nat) : State :=
  if n = s.ring.nAs then s
  else (if n = 0 then s else fmForget s ((8 - n) * asMib * mib) (n * asMib * mib)).modRing (fun r =>
    { r with nAs := n, chunks := newChunks n, recs := [], pos := [], full := false, lostRecs := [] })

/-- The settings of CONFIG_RING stored. -/
def configured (s : State) (pl : List Byte) : State :=
  let v := resized s (u8 pl 0)
  v.modRing (fun r => { r with
    flags := u8 pl 1, views := u16 pl 2, pre := u32 pl 4, post := u32 pl 8, stopped := false, memStop := false, lostFlag := false
    viewsAct := bitmap ((List.range 16).map (fun k => if (v.view k).started then bit r.viewsAct k else bit (u16 pl 2) k))
    acts := r.acts.zipIdx.map (fun a => if bit r.viewsAct a.2 && (v.view a.2).started then a.1 else (u32 pl 4, u32 pl 8)) })

/-- What CONFIG_RING does: the frames that have started since its stamp start under its settings, and the directory follows. -/
def ringConfigured (s : State) (c : Call) : State :=
  let v := configured s c.payload
  dirWrite ((v.pipe.frames.filter (fun f => decide (c.stamp ≤ f.fsAt))).foldl (fun v f => ringFrameStart v f.view.val f.frame) v) c.start

theorem ringConfigured_keeps : Keeps [.mem, .fm, .ring] u (ringConfigured u c) := by
  have hwithin : Within [.mem, .fm, .ring] u (ringConfigured u c) := by simp [ringConfigured, configured, resized]
  exact hwithin.1

/-- The settings stored are not moved again. -/
theorem ringConfigured_reads {β : Type} (g : Ring → β) (hg : ∀ r, g (settingsOf r) = g r) :
    g (ringConfigured u c).ring = g (configured u c.payload).ring := by
  have hfolded : settingsOf (ringConfigured u c).ring = settingsOf (configured u c.payload).ring :=
    (settingsOf_dirWrite _).trans (foldl_keeps (g := fun v : State => settingsOf v.ring) (fun _ _ => settingsOf_ringFrameStart _ _) _)
  rw [← hg, hfolded, hg]

theorem fmForget_ring (a n : Nat) : (fmForget s a n).ring = s.ring := Within.ring (L := [.mem, .fm]) (by simp) (by simp)

theorem resized_same {n : Nat} (h : n = s.ring.nAs) : resized s n = s := if_pos h

theorem resized_other {n : Nat} (h : n ≠ s.ring.nAs) : (resized s n).ring =
    { s.ring with nAs := n, chunks := newChunks n, recs := [], pos := [], full := false, lostRecs := [] } := by
  rw [resized, if_neg h, State.modRing_ring]
  split
  · rfl
  · rw [fmForget_ring]

/-- Resizing leaves the table of segments and the next ID. -/
theorem resized_keeps (n : Nat) :
    (resized s n).ring.nAs = n ∧ (resized s n).ring.segs = s.ring.segs ∧ (resized s n).ring.nextId = s.ring.nextId := by
  by_cases h : n = s.ring.nAs
  · rw [resized_same h]
    exact ⟨h.symm, rfl, rfl⟩
  · rw [resized_other h]
    exact ⟨rfl, rfl, rfl⟩

/-- What CONFIG_RING asks of its fields and of the ring (R244). -/
structure RingFields (u : State) (pl : List Byte) : Prop where
  length : pl.length = 16
  size : u8 pl 0 ≤ 6
  flags : reservedBits pl 1 0xFC = none
  views : countIf (fun v => bit (u16 pl 2) v) (List.range 16) ≤ 8
  pre : u32 pl 4 ≤ 60000
  post : u32 pl 8 ≤ 60000
  rest : reserved pl 12 4 = none
  up : memUp u = true
  room : u8 pl 0 = u.ring.nAs ∨ ((∀ g ∈ u.ring.segs, g.state = 0) ∧ ∀ r ∈ u.mem.regions, r.1 + r.2 ≤ (8 - u8 pl 0) * asMib)

theorem configRing_acts (hu : u = s.at c.start) (hready : Ready u c 0x0500) (hlease : HoldsLease u c p lRING)
    (harray : needLeaseOrSafety u c lARRAY = none) (hfields : RingFields u c.payload) :
    exec (.configRing c) s = .next (okWith (ringConfigured u c) c 0x0500 .fast []) := by
  obtain ⟨hserved, harg⟩ := hready
  obtain ⟨hlen, hsize, hflags, hviews, hpre, hpost, hrest, hup, hroom⟩ := hfields
  have hempty : (memUp u && (decide (u8 c.payload 0 = u.ring.nAs) || u.ring.segs.all (fun g => decide (g.state = 0)))) = true := by
    rcases hroom with h | ⟨h, -⟩
    · simp [hup, h]
    · simp [hup, List.all_eq_true.mpr fun g hg => decide_eq_true (h g hg)]
  have hfits : (decide (u8 c.payload 0 = u.ring.nAs) || u.mem.regions.all (fun r => decide (r.1 + r.2 ≤ (8 - u8 c.payload 0) * asMib))) = true := by
    rcases hroom with h | ⟨-, h⟩
    · simp [h]
    · rw [List.all_eq_true.mpr fun r hr => decide_eq_true (h r hr), Bool.or_true]
  rw [show exec (.configRing c) s = execConfigRing c s from rfl, execConfigRing]
  subst hu
  refine (command_acts (cls := .fast) hserved ?_ nofun).trans rfl
  simp only [List.forall_mem_cons, argOk_eq_none, decide_eq_true_eq]
  exact ⟨need_true (decide_eq_true hlen), needLease_of_holdsLease hlease, harray, harg, hsize, hflags, hviews, hpre, hpost, hrest, need_true hempty,
    need_true hfits, nofun⟩

theorem configRing_configures (hu : u = s.at c.start) (hready : Ready u c 0x0500) (hlease : HoldsLease u c p lRING)
    (harray : needLeaseOrSafety u c lARRAY = none) (hfields : RingFields u c.payload) :
    ∃ s', exec (.configRing c) s = .next (okWith s' c 0x0500 .fast []) ∧ Keeps [.mem, .fm, .ring] u s' ∧ s'.ring.nAs = u8 c.payload 0 ∧
      s'.ring.flags = u8 c.payload 1 ∧ s'.ring.views = u16 c.payload 2 ∧ s'.ring.pre = u32 c.payload 4 ∧ s'.ring.post = u32 c.payload 8 ∧
      s'.ring.stopped = false ∧ s'.ring.lostFlag = false ∧
      (∀ i : Nat, segOf s'.ring i = { segOf u.ring i with also := (segOf s'.ring i).also }) ∧
      s'.ring.nextId = u.ring.nextId ∧
      (u8 c.payload 0 ≠ u.ring.nAs → s'.ring.chunks = newChunks (u8 c.payload 0) ∧ s'.ring.recs = []) ∧
      (u8 c.payload 0 = u.ring.nAs → s'.ring.chunks = u.ring.chunks ∧ s'.ring.recs = u.ring.recs) := by
  obtain ⟨hsize, hsegs, hnext⟩ := resized_keeps (s := u) (u8 c.payload 0)
  have hchunks : (ringConfigured u c).ring.chunks = (resized u (u8 c.payload 0)).ring.chunks := ringConfigured_reads Ring.chunks fun _ => rfl
  have hrecs : (ringConfigured u c).ring.recs = (resized u (u8 c.payload 0)).ring.recs := ringConfigured_reads Ring.recs fun _ => rfl
  refine ⟨ringConfigured u c, configRing_acts hu hready hlease harray hfields, ringConfigured_keeps,
    (ringConfigured_reads Ring.nAs fun _ => rfl).trans hsize, ringConfigured_reads Ring.flags fun _ => rfl,
    ringConfigured_reads Ring.views fun _ => rfl, ringConfigured_reads Ring.pre fun _ => rfl, ringConfigured_reads Ring.post fun _ => rfl,
    ringConfigured_reads Ring.stopped fun _ => rfl, ringConfigured_reads Ring.lostFlag fun _ => rfl, fun i => ?_,
    (ringConfigured_reads Ring.nextId fun _ => rfl).trans hnext, fun hother => ?_, fun hsame => ?_⟩
  · have hseg : { segOf (ringConfigured u c).ring i with also := 0 } = { segOf u.ring i with also := 0 } := by
      refine (ringConfigured_reads (fun r => { segOf r i with also := 0 }) fun r => by rw [segOf_settingsOf]).trans ?_
      rw [segOf_of_segs (r := u.ring) (r' := (configured u c.payload).ring) hsegs]
    exact eq_of_bare hseg
  · rw [hchunks, hrecs, resized_other hother]
    exact ⟨rfl, rfl⟩
  · rw [hchunks, hrecs, resized_same hsame]
    exact ⟨rfl, rfl⟩

end Sys2Proof.Machine
end

section
/-! MARK_EVENT, SEGMENT_SEAL, RELEASE_SEGMENT and RING_STATUS (R223 to R226, R245, R247, R248). -/

namespace Sys2Proof.Machine

variable {s u : State} {c : Call} {p : PortIx} {t : Time} {i : Nat}

/-- A call of MARK_EVENT that nothing refuses but a want of slots (R245). -/
structure MarkAsked (u : State) (c : Call) (p : PortIx) : Prop where
  ready : Ready u c 0x0501
  src : c.src = .port p
  role : portRole u p ≠ .viewer
  length : c.payload.length = 4
  code : u16 c.payload 0 ≤ 0xFFFE
  rest : u16 c.payload 2 = 0
  dusk : pastDusk u (u.dtime c.stamp) = false
  active : needActive u c = none
  running : ringStateCode u = 1

/-- A port that is no VIEWER has the role that the command needs (R348). -/
theorem notViewer_of_role (hsrc : c.src = .port p) (hrole : portRole u p ≠ .viewer) : notViewer u c = none := by
  have hcode : Role.primary.code ≤ (portRole u p).code := by
    cases h : portRole u p with
    | viewer => exact absurd h hrole
    | primary => decide
    | safety => decide
  simp only [notViewer, needRole, hsrc, hcode, if_true]

/-- The answer of MARK_EVENT (R245). -/
def markPayload (s : State) (i flags d : Nat) : List Byte :=
  [byte i, byte flags] ++ leBytes 2 (segOf s.ring i).id ++ zeros 4 ++ leBytes 8 d

theorem u8_markPayload (h : i < 8) (flags d : Nat) : u8 (markPayload s i flags d) 0 = i := toNat_byte_of_lt (by omega)

/-- The event extends the segment whose window still runs, or opens one in the slot made for it, or is counted as lost. -/
def marked (u : State) (c : Call) : State :=
  match extendable u (u.dtime c.stamp) with
  | some i =>
    let v := extendSegment u i (u16 c.payload 0) (u.dtime c.stamp)
    okWith v c 0x0501 .immediate (markPayload v i 1 (u.dtime c.stamp))
  | none =>
    match makeSlot u c.start with
    | (some i, dropped, v) =>
      let w := openSegment v i (u16 c.payload 0) 0 (u.dtime c.stamp) (u.dtime c.stamp + ringPost v.ring * 1000000) c.start
      okWith w c 0x0501 .immediate (markPayload w i (2 * b2n dropped) (u.dtime c.stamp))
    | (none, _, v) => respond v c 0x0501 .immediate .noResource 0 []

theorem markEvent_acts (hu : u = s.at c.start) (h : MarkAsked u c p) : exec (.markEvent c) s = .next (marked u c) := by
  obtain ⟨⟨hserved, harg⟩, hsrc, hrole, hlen, hcode, hrest, hdusk, hactive, hrunning⟩ := h
  rw [show exec (.markEvent c) s = execMarkEvent c s from rfl, execMarkEvent]
  subst hu
  refine (command_acts (cls := .immediate) hserved ?_ nofun).trans rfl
  simp only [List.forall_mem_cons, argOk_eq_none, decide_eq_true_eq]
  exact ⟨need_true (decide_eq_true hlen), notViewer_of_role hsrc hrole, harg, hcode, reserved_of_leVal hrest,
    need_true (by rw [hdusk]; rfl), hactive, need_true (decide_eq_true hrunning), nofun⟩

theorem markEvent_extends (hu : u = s.at c.start) (h : MarkAsked u c p) (hlen : u.ring.segs.length = 8)
    (hext : extendable u (u.dtime c.stamp) = some i) :
    ∃ s' pl, exec (.markEvent c) s = .next (okWith s' c 0x0501 .immediate pl) ∧
      u8 pl 0 = i ∧ (segOf s'.ring i).events = min 255 ((segOf u.ring i).events + 1) ∧ (segOf s'.ring i).lastCode = u16 c.payload 0 ∧
      (segOf s'.ring i).end_ = max (segOf u.ring i).end_ (u.dtime c.stamp + ringPost u.ring * 1000000) ∧
      (segOf s'.ring i).id = (segOf u.ring i).id ∧ ∀ j : Nat, j ≠ i → segOf s'.ring j = segOf u.ring j := by
  have hi : i < 8 := extendable_lt hext
  have hmarked : marked u c = okWith (extendSegment u i (u16 c.payload 0) (u.dtime c.stamp)) c 0x0501 .immediate
      (markPayload (extendSegment u i (u16 c.payload 0) (u.dtime c.stamp)) i 1 (u.dtime c.stamp)) := by
    simp only [marked, hext]
  obtain ⟨hself, hothers⟩ := segOf_of_modAt (extendSegment_segs u i (u16 c.payload 0) (u.dtime c.stamp)) (by omega)
  obtain ⟨flags, hcut⟩ := cutFlag_flags u.ring { segOf u.ring i with
    end_ := max (segOf u.ring i).end_ (u.dtime c.stamp + ringPost u.ring * 1000000), events := min 255 ((segOf u.ring i).events + 1)
    flags := Nat.lor (segOf u.ring i).flags 8, lastCode := u16 c.payload 0, lastEvent := u.dtime c.stamp }
  refine ⟨_, _, by rw [markEvent_acts hu h, hmarked], u8_markPayload hi _ _, ?_⟩
  rw [hself, hcut]
  exact ⟨rfl, rfl, rfl, rfl, hothers⟩

theorem markEvent_opens {dropped : Bool} {v : State} (hu : u = s.at c.start) (h : MarkAsked u c p) (hlen : u.ring.segs.length = 8)
    (hext : extendable u (u.dtime c.stamp) = none) (hslot : makeSlot u c.start = (some i, dropped, v)) :
    ∃ s' pl, exec (.markEvent c) s = .next (okWith s' c 0x0501 .immediate pl) ∧ u8 pl 0 = i ∧ (segOf s'.ring i).state = 1 ∧
      (segOf s'.ring i).id = u.ring.nextId ∧ (segOf s'.ring i).firstCode = u16 c.payload 0 ∧
      (segOf s'.ring i).firstEvent = u.dtime c.stamp ∧ (segOf s'.ring i).end_ = u.dtime c.stamp + ringPost u.ring * 1000000 ∧
      ∀ j : Nat, j ≠ i → segOf s'.ring j = segOf v.ring j := by
  obtain ⟨hi, hsegs, hnext, hpost⟩ := makeSlot_keeps hslot
  have hmarked : marked u c = okWith (openSegment v i (u16 c.payload 0) 0 (u.dtime c.stamp) (u.dtime c.stamp + ringPost u.ring * 1000000) c.start) c
      0x0501 .immediate (markPayload (openSegment v i (u16 c.payload 0) 0 (u.dtime c.stamp) (u.dtime c.stamp + ringPost u.ring * 1000000) c.start)
        i (2 * b2n dropped) (u.dtime c.stamp)) := by
    simp only [marked, hext, hslot, hpost]
  obtain ⟨g, hopened, hstate, hid, hcode, hevent, hend⟩ := openSegment_segs v i (u16 c.payload 0) 0 (u.dtime c.stamp)
    (u.dtime c.stamp + ringPost u.ring * 1000000) c.start
  obtain ⟨hself, hothers⟩ := segOf_of_modAt hopened (by omega)
  refine ⟨_, _, by rw [markEvent_acts hu h, hmarked], u8_markPayload hi _ _, ?_⟩
  rw [hself]
  exact ⟨hstate, hid.trans hnext, hcode, hevent, hend, hothers⟩

theorem markEvent_refused {dropped : Bool} {v : State} (hu : u = s.at c.start) (h : MarkAsked u c p)
    (hext : extendable u (u.dtime c.stamp) = none) (hslot : makeSlot u c.start = (none, dropped, v)) :
    exec (.markEvent c) s = .next (respond v c 0x0501 .immediate .noResource 0 []) := by
  rw [markEvent_acts hu h]
  simp only [marked, hext, hslot]

/-- SEGMENT_SEAL seals the segment whose window has passed and whose records are complete (R224). -/
theorem segmentSeal_seals (slot : Fin 8) (hu : u = s.at t) (hlen : u.ring.segs.length = 8) (hopen : (segOf u.ring slot.val).state = 1)
    (hpassed : (segOf u.ring slot.val).end_ < u.dtime t) (hup : memUp u = true) (hframes : frameAwaited u (segOf u.ring slot.val) = false)
    (hrecs : ∀ r ∈ u.ring.recs, inWindow (segOf u.ring slot.val) r = true → r.openNow = false ∧ sealAwaited u r = false) :
    ∃ s', exec (.segmentSeal t slot) s = .next s' ∧ (segOf s'.ring slot.val).state = 2 ∧
      ∀ j : Nat, j ≠ slot.val → segOf s'.ring j = segOf u.ring j := by
  have hcomplete : u.ring.recs.any (fun r => (r.openNow || sealAwaited u r) && inWindow (segOf u.ring slot.val) r) = false := by
    refine List.any_eq_false.mpr fun r hr hbad => ?_
    obtain ⟨hwaits, hwindow⟩ := Bool.and_eq_true_iff.mp hbad
    obtain ⟨hclosed, hsealed⟩ := hrecs r hr hwindow
    rw [hclosed, hsealed] at hwaits
    cases hwaits
  obtain ⟨hself, hothers⟩ := segOf_of_modAt (sealSegment_segs u slot.val 0 t) (by omega)
  rw [show exec (.segmentSeal t slot) s = execSegmentSeal t slot s from rfl, execSegmentSeal]
  refine ⟨_, event_due_at hu (by simp [hopen, hpassed, hup, hframes, hcomplete]), ?_, hothers⟩
  rw [hself]

/-- RELEASE_SEGMENT frees a segment that is neither FREE nor OPEN, and is not being read (R248). -/
theorem releaseSegment_frees (slot : Fin 8) (hu : u = s.at c.start) (hready : Ready u c 0x0506) (hlease : needLeaseOrSafety u c lRING = none)
    (hpl : c.payload = [byte slot.val, 0] ++ leBytes 2 (segOf u.ring slot.val).id) (hid : (segOf u.ring slot.val).id < 2 ^ 16)
    (hused : (segOf u.ring slot.val).state ≠ 0) (hclosed : (segOf u.ring slot.val).state ≠ 1) (hread : segRead u slot.val = false)
    (hlen : u.ring.segs.length = 8) :
    ∃ s', exec (.releaseSegment c) s = .next (okWith s' c 0x0506 .fast []) ∧ segOf s'.ring slot.val = Segment.free ∧
      ∀ j : Nat, j ≠ slot.val → segOf s'.ring j = segOf u.ring j := by
  obtain ⟨hserved, harg⟩ := hready
  have hslot : u8 c.payload 0 = slot.val := by
    rw [hpl]
    exact toNat_byte_of_lt (by omega)
  have hzero : u8 c.payload 1 = 0 := by
    rw [hpl]
    rfl
  have hname : (segOf u.ring slot.val).id = u16 c.payload 2 := by
    rw [u16, hpl, show slice ([byte slot.val, 0] ++ leBytes 2 (segOf u.ring slot.val).id) 2 2 = leBytes 2 (segOf u.ring slot.val).id from rfl,
      leVal_leBytes]
    omega
  obtain ⟨g, hring⟩ := releaseSlot_ring u slot.val c.start
  obtain ⟨hself, hothers⟩ := segOf_of_modAt (i := slot.val) (congrArg Ring.segs hring) (by omega)
  refine ⟨releaseSlot u slot.val c.start, ?_, hself, hothers⟩
  rw [show exec (.releaseSegment c) s = execReleaseSegment c s from rfl, execReleaseSegment, hslot]
  subst hu
  refine command_acts hserved ?_ nofun
  simp only [List.forall_mem_cons, argOk_eq_none, decide_eq_true_eq]
  exact ⟨need_true (by simp [hpl]), hlease, harg, slot.isLt, reserved_one hzero, ⟨hused, hname⟩, need_true (decide_eq_true hclosed),
    need_true (by rw [hread]; rfl), nofun⟩

/-- RING_STATUS shows the ring, and changes nothing but for its answer (R247). -/
theorem ringStatus_reads (c : Call) (hu : u = s.at c.start) (hready : Ready u c 0x0503) (hpl : c.payload = []) :
    ∃ pl, exec (.ringStatus c) s = .next (okWith u c 0x0503 .fast pl) ∧ u8 pl 0 = ringStateCode u ∧ u8 pl 1 = u.ring.nAs % 256 ∧
      u16 pl 2 = u.ring.views % 65536 ∧ u32 pl 4 = u.ring.pre % 2 ^ 32 ∧ u32 pl 8 = u.ring.post % 2 ^ 32 := by
  obtain ⟨hserved, harg⟩ := hready
  have hcode : ringStateCode u < 256 := by
    unfold ringStateCode
    (repeat' split) <;> decide
  rw [show exec (.ringStatus c) s = execRingStatus c s from rfl, execRingStatus]
  subst hu
  refine ⟨_, command_acts hserved ?_ nofun, toNat_byte_of_lt hcode, rfl, ?_, ?_, ?_⟩
  · simp only [List.forall_mem_cons]
    exact ⟨need_true (by simp [hpl]), harg, nofun⟩
  · simp [u16, slice_cons, slice_here, leVal_leBytes]
  · simp [u32, slice_cons, slice_skip, slice_here, leVal_leBytes]
  · simp [u32, slice_cons, slice_skip, slice_here, leVal_leBytes]

end Sys2Proof.Machine
end

section
/-! READ_RING: the bulk answer that it starts, or ends at once (R246, R318, R342). -/

namespace Sys2Proof.Machine

variable {s u : State} {c : Call} {p : PortIx} {t : Time} {b : Bulk}

/-- Where the ring holds a record, a record is found at its place. -/
theorem recAt_of_mem {r : RingRec} (h : r ∈ s.ring.recs) : (recAt s r.chunk r.off).isSome = true :=
  List.find?_isSome.mpr ⟨r, h, by simp⟩

/-- A port's bulk answer is in progress on a stream, from a segment whose records still to send are in the ring. -/
def Reading (tag : BitVec 16) (vs seg : Nat) (p : PortIx) (s : State) : Prop :=
  s.ports.length = 4 ∧ ∃ b, (s.port p).bulk = some b ∧ b.tag = tag ∧ b.vs = vs ∧ b.seg = seg ∧
    ∀ it ∈ b.items, (recAt s it.2.1 it.2.2).isSome = true

section
variable {tag : BitVec 16} {vs seg : Nat}

/-- Reading a record's bytes leaves the port, and where the records are. -/
theorem memLoads_keep (spans : List (Nat × Nat)) (n : Nat) (t : Time) :
    (spans.foldl (fun v x => memLoad v 4 n x.1 x.2 t) s).ports = s.ports ∧ (spans.foldl (fun v x => memLoad v 4 n x.1 x.2 t) s).ring = s.ring := by
  have hwithin : Within [.mem] s (spans.foldl (fun v x => memLoad v 4 n x.1 x.2 t) s) := by simp
  exact ⟨hwithin.1.2 .ports (by simp), hwithin.ring (by simp)⟩

/-- A packet made, the answer is still in progress. -/
theorem Reading.bulkNext (h : Reading tag vs seg p s) : Reading tag vs seg p (bulkNext s p t) := by
  obtain ⟨hlen, b, hb, htag, hvs, hseg, hitems⟩ := h
  simp only [Machine.bulkNext, hb]
  split
  · exact ⟨hlen, b, hb, htag, hvs, hseg, hitems⟩
  · next it rest hcons =>
    obtain ⟨r, hr⟩ := Option.isSome_iff_exists.mp (hitems it (by simp [hcons]))
    simp only [hr]
    generalize pieceSpans (recPieces r) b.off (min 1792 (64 + r.length - b.off)) = spans
    obtain ⟨hports, hring⟩ := memLoads_keep (s := s) spans p.val t
    refine ⟨by simp [State.modPort, hports, hlen], _, congrArg Port.bulk (State.modPort_port_self (by rw [hports]; omega) _), htag, hvs, hseg,
      fun x hx => ?_⟩
    have hmem : x ∈ b.items := by
      dsimp only at hx
      split at hx
      · exact hcons ▸ List.mem_cons_of_mem it hx
      · exact hx
    have hfound := hitems x hmem
    simpa only [recAt, State.modPort_ring, hring] using hfound

theorem Reading.bulkRefill (h : Reading tag vs seg p s) : Reading tag vs seg p (bulkRefill s p t) := by
  have hstep : ∀ v : State, Reading tag vs seg p v →
      Reading tag vs seg p (if (v.port p).rel.bulkq.length < 2 ∧ v.mem.st = .run then Machine.bulkNext v p t else v) := by
    intro v hv
    split
    · exact hv.bulkNext
    · exact hv
  exact hstep _ (hstep _ h)

end

/-- A response that waits is the last of those that wait, whatever its deadline becomes. -/
theorem queueRsp_getLast (m : Mbx) (r : Rsp) :
    ∃ q : Rsp, (m.queueRsp r).wait.getLast? = some q ∧ q.opcode = r.opcode ∧ q.tag = r.tag ∧ q.status = r.status := by
  simp only [Mbx.queueRsp, Mbx.excuseSlots, List.map_append, List.map_cons, List.map_nil, List.getLast?_append, List.getLast?_singleton,
    Option.some_or]
  refine ⟨_, rfl, ?_⟩
  split <;> exact ⟨rfl, rfl, rfl⟩

/-- The end of a bulk answer posts its final response to the port. -/
theorem bulkEnd_answers (hlen : s.ports.length = 4) (hb : (s.port p).bulk = some b) (st : Status) (t : Time) :
    ((bulkEnd s p st t).port p).bulk = none ∧
      ∃ r : Rsp, ((bulkEnd s p st t).port p).mbx.wait.getLast? = some r ∧ r.opcode = 0x0502 ∧ r.tag = b.tag ∧ r.status = st := by
  simp only [bulkEnd, hb]
  rw [respond_port_wait _ _ _ _ _ _ _ p rfl (by simp [State.modPort, hlen])]
  refine ⟨?_, queueRsp_getLast _ _⟩
  exact congrArg Port.bulk (State.modPort_port_self (by omega) _)

/-- The records that READ_RING asks for, with their indices: from the first asked for, and as many as asked for, all where that is 0 (R246). -/
def asked (s : State) (pl : List Byte) : List (RingRec × Nat) :=
  let all := (segRecs s (u8 pl 0) (u8 pl 1)).zipIdx.drop (u32 pl 4)
  if u32 pl 8 = 0 then all else all.take (u32 pl 8)

theorem mem_recs_of_asked {pl : List Byte} {x : RingRec × Nat} (h : x ∈ asked s pl) : x.1 ∈ s.ring.recs := by
  have hall : x ∈ (segRecs s (u8 pl 0) (u8 pl 1)).zipIdx := by
    simp only [asked] at h
    split at h
    · exact List.mem_of_mem_drop h
    · exact List.mem_of_mem_drop (List.mem_of_mem_take h)
  have hrec : x.1 ∈ segRecs s (u8 pl 0) (u8 pl 1) := List.fst_mem_of_mem_zipIdx hall
  exact List.mem_of_mem_filter (List.mem_mergeSort.mp hrec)

theorem asked_eq_nil_iff {pl : List Byte} : asked s pl = [] ↔ (segRecs s (u8 pl 0) (u8 pl 1)).length ≤ u32 pl 4 := by
  have hall : (segRecs s (u8 pl 0) (u8 pl 1)).zipIdx.drop (u32 pl 4) = [] ↔ (segRecs s (u8 pl 0) (u8 pl 1)).length ≤ u32 pl 4 := by
    rw [List.drop_eq_nil_iff, List.length_zipIdx]
  simp only [asked]
  split
  · exact hall
  · next hsome => rw [List.take_eq_nil_iff, hall, or_iff_right hsome]

/-- The bulk answer that READ_RING starts. -/
def newBulk (s : State) (c : Call) : Bulk :=
  { tag := c.tag, vs := u8 c.payload 2, index := 0, items := (asked s c.payload).map (fun r => (r.2, r.1.chunk, r.1.off)), off := 0
    ackRecords := 0, ackBytes := 0, live := [], last := none, seg := u8 c.payload 0
    due := (jobOf s.fwq c.src 0x0502 c.tag).bind Job.due }

/-- What READ_RING does. -/
def readBegun (s : State) (c : Call) (p : PortIx) : State :=
  let v := s.modPort p (fun q => { q with bulk := some (newBulk s c) })
  if (asked s c.payload).isEmpty then bulkEnd v p .ok c.start else bulkRefill v p c.start

theorem readBegun_ring : (readBegun s c p).ring = s.ring :=
  Within.ring (L := [.ports, .sb, .fwq, .mem]) (by simp [readBegun]) (by simp)

/-- Records asked for: the answer is in progress. -/
theorem readBegun_reads (hlen : s.ports.length = 4) (hsome : asked s c.payload ≠ []) :
    Reading c.tag (u8 c.payload 2) (u8 c.payload 0) p (readBegun s c p) := by
  have hbegun : readBegun s c p = bulkRefill (s.modPort p (fun q => { q with bulk := some (newBulk s c) })) p c.start :=
    if_neg (by simpa using hsome)
  rw [hbegun]
  refine Reading.bulkRefill ⟨by simp [State.modPort, hlen], newBulk s c, by rw [State.modPort_port_self (by omega)], rfl, rfl, rfl,
    fun it hit => ?_⟩
  obtain ⟨x, hx, rfl⟩ := List.mem_map.mp hit
  exact recAt_of_mem (mem_recs_of_asked hx)

/-- No record asked for: the final response waits at once. -/
theorem readBegun_ends (hlen : s.ports.length = 4) (hnone : asked s c.payload = []) : ((readBegun s c p).port p).bulk = none ∧
    ∃ r : Rsp, ((readBegun s c p).port p).mbx.wait.getLast? = some r ∧ r.opcode = 0x0502 ∧ r.tag = c.tag ∧ r.status = .ok := by
  have hbegun : readBegun s c p = bulkEnd (s.modPort p (fun q => { q with bulk := some (newBulk s c) })) p .ok c.start :=
    if_pos (by simp [hnone])
  rw [hbegun]
  exact bulkEnd_answers (b := newBulk s c) (by simp [State.modPort, hlen]) (by rw [State.modPort_port_self (by omega)]) _ _

/-- A call of READ_RING that nothing refuses (R246). -/
structure ReadAsked (u : State) (c : Call) (p : PortIx) : Prop where
  ready : Ready u c 0x0502
  src : c.src = .port p
  role : portRole u p ≠ .viewer
  length : c.payload.length = 12
  slot : u8 c.payload 0 < 8
  view : u8 c.payload 1 < 16
  stream : 1 ≤ u8 c.payload 2 ∧ u8 c.payload 2 ≤ 15
  zero : u8 c.payload 3 = 0
  used : (segOf u.ring (u8 c.payload 0)).state ≠ 0
  running : u.mem.st = .run
  idle : (u.port p).bulk = none

theorem readRing_acts (hu : u = s.at c.start) (h : ReadAsked u c p) : exec (.readRing c) s = .next (readBegun u c p) := by
  obtain ⟨⟨hserved, harg⟩, hsrc, hrole, hlen, hslot, hview, hstream, hzero, hused, hrunning, hidle⟩ := h
  have hport : srcIx c.src = p := by rw [hsrc]; rfl
  rw [show exec (.readRing c) s = execReadRing c s from rfl, execReadRing, hport]
  subst hu
  refine (command_acts (cls := .bulk) hserved ?_ nofun).trans rfl
  simp only [List.forall_mem_cons, argOk_eq_none, decide_eq_true_eq]
  exact ⟨need_true (decide_eq_true hlen), notViewer_of_role hsrc hrole, harg, hslot, hview, hstream, reserved_one hzero, hused,
    need_true (decide_eq_true hrunning), need_true (by rw [hidle]; rfl), nofun⟩

end Sys2Proof.Machine
end

section
/-! The obligation on the event ring. -/

namespace Sys2Proof.Machine

/-- Settles O29: clause by clause, the rule of each of the commands and of the seal. -/
theorem ringSegmentsAndReads : Obligations.RingSegmentsAndReads := by
  unfold Obligations.RingSegmentsAndReads
  refine ⟨?config, ?mark, ?sealed, ?release, ?status, ?read⟩
  case config =>
    intro s u c p hu hready hlease harray hlen hsize hflags hviews hpre hpost hrest hup hroom
    exact configRing_configures hu hready hlease harray ⟨hlen, hsize, hflags, hviews, hpre, hpost, hrest, hup, hroom⟩
  case mark =>
    intro s u c p hu hready hsrc hrole hlen hcode hrest hdusk hactive hrunning hsegs
    have hasked : MarkAsked u c p := ⟨hready, hsrc, hrole, hlen, hcode, hrest, hdusk, hactive, hrunning⟩
    exact ⟨fun i hext => markEvent_extends hu hasked hsegs hext, fun i dropped v hext hslot => markEvent_opens hu hasked hsegs hext hslot,
      fun dropped v hext hslot => markEvent_refused hu hasked hext hslot⟩
  case sealed =>
    exact fun s u t slot hu hlen hopen hpassed hup hframes hrecs => segmentSeal_seals slot hu hlen hopen hpassed hup hframes hrecs
  case release =>
    exact fun s u c slot hu hready hlease hpl hid hused hclosed hread hlen =>
      releaseSegment_frees slot hu hready hlease hpl hid hused hclosed hread hlen
  case status => exact fun s u c hu hready hpl => ringStatus_reads c hu hready hpl
  case read =>
    intro s u c p slot v hu hready hsrc hrole hlen hslot hview hlow hhigh hzero hused hrunning hidle hports
    have hasked : ReadAsked u c p := ⟨hready, hsrc, hrole, hlen, by omega, by omega, ⟨hlow, hhigh⟩, hzero, by rwa [hslot], hrunning, hidle⟩
    have hnil := asked_eq_nil_iff (s := u) (pl := c.payload)
    rw [hslot, hview] at hnil
    refine ⟨_, readRing_acts hu hasked, readBegun_ring, fun hmore => ?_, fun hdone => readBegun_ends hports (hnil.mpr hdone)⟩
    obtain ⟨-, b, hb, htag, hvs, hseg, -⟩ := readBegun_reads (c := c) (p := p) hports fun h => Nat.not_le.mpr hmore (hnil.mp h)
    exact ⟨b, hb, htag, hvs, hseg.trans hslot⟩

end Sys2Proof.Machine
end

section
/-! The ports one by one: what an update of one does to each. -/

namespace Sys2Proof.Machine

variable {s s' s₀ : State} {p q : PortIx} {t : Time}

theorem State.modPort_port_other (h : q ≠ p) (f : Port → Port) : (s.modPort p f).port q = s.port q :=
  modAt_getD_other _ _ _ _ _ fun h' => h (Fin.ext h').symm

theorem State.modPort_length (f : Port → Port) : (s.modPort p f).ports.length = s.ports.length := by simp

@[simp] theorem State.modPort_port (hlen : s.ports.length = 4) (f : Port → Port) : (s.modPort p f).port p = f (s.port p) :=
  State.modPort_port_self (by omega) f

@[simp] theorem State.modTr_port (hlen : s.ports.length = 4) (f : Train → Train) : (s.modTr p f).port p = { s.port p with tr := f (s.port p).tr } :=
  State.modPort_port hlen _

@[simp] theorem State.modPhy_port (hlen : s.ports.length = 4) (f : Phy → Phy) : (s.modPhy p f).port p = { s.port p with phy := f (s.port p).phy } :=
  State.modPort_port hlen _

@[simp] theorem State.modRel_port (hlen : s.ports.length = 4) (f : Rel → Rel) : (s.modRel p f).port p = { s.port p with rel := f (s.port p).rel } :=
  State.modPort_port hlen _

@[simp] theorem State.modTr_length (f : Train → Train) : (s.modTr p f).ports.length = s.ports.length := by simp [State.modTr]
@[simp] theorem State.modPhy_length (f : Phy → Phy) : (s.modPhy p f).ports.length = s.ports.length := by simp [State.modPhy]

/-- A port that is not as after reset is one of the device's. -/
theorem port_exists (h : s.port p ≠ Port.reset) : p.val < s.ports.length := by
  by_contra hge
  exact h (by rw [State.port, List.getD_eq_getElem?_getD, List.getElem?_eq_none (by omega), Option.getD_none])

/-! ## What changes one port alone -/

/-- Every port but `p` is as it was, and there are as many. -/
def OnlyPort (p : PortIx) (s s' : State) : Prop := s'.ports.length = s.ports.length ∧ ∀ q : PortIx, q ≠ p → s'.port q = s.port q

theorem OnlyPort.length (h : OnlyPort p s s') : s'.ports.length = s.ports.length := h.1

theorem OnlyPort.others (h : OnlyPort p s s') : ∀ q : PortIx, q ≠ p → s'.port q = s.port q := h.2

/-- An operation that changes `p` alone may be left out of a chain. -/
theorem OnlyPort.iff (h : OnlyPort p s s') : OnlyPort p s₀ s' ↔ OnlyPort p s₀ s := by
  simp only [OnlyPort, h.length]
  refine and_congr_right fun _ => forall₂_congr fun q hq => ?_
  rw [h.others q hq]

@[simp] theorem onlyPort_self : OnlyPort p s s := ⟨rfl, fun _ _ => rfl⟩

@[simp] theorem onlyPort_ite {c : Prop} [Decidable c] {a b : State} :
    OnlyPort p s₀ (if c then a else b) ↔ if c then OnlyPort p s₀ a else OnlyPort p s₀ b := by
  split <;> rfl

@[simp] theorem State.modPort_onlyPort (f : Port → Port) : OnlyPort p s₀ (s.modPort p f) ↔ OnlyPort p s₀ s :=
  OnlyPort.iff ⟨by simp, fun _ hq => State.modPort_port_other hq f⟩

@[simp] theorem State.modTr_onlyPort (f : Train → Train) : OnlyPort p s₀ (s.modTr p f) ↔ OnlyPort p s₀ s := State.modPort_onlyPort _
@[simp] theorem State.modPhy_onlyPort (f : Phy → Phy) : OnlyPort p s₀ (s.modPhy p f) ↔ OnlyPort p s₀ s := State.modPort_onlyPort _
@[simp] theorem State.bump_onlyPort (a hi lo n : Nat) : OnlyPort p s₀ (s.bump a hi lo n) ↔ OnlyPort p s₀ s := Iff.rfl

/-! ## What leaves the line of every port -/

/-- A port but for its mailbox, its queues of packets and its bulk answer, which notifications, answers and the packets of views change. -/
def Port.line (q : Port) : Port := { q with mbx := Mbx.reset, vq := [], bulk := none, rel := { q.rel with bulkq := [], nextIdent := 0 } }

/-- The lines of the ports. -/
def lines (s : State) : List Port := s.ports.map Port.line

theorem Port.line_eq_getD (s : State) (p : PortIx) : (s.port p).line = (lines s).getD p.val Port.reset.line := by
  simp only [State.port, lines, List.getD_eq_getElem?_getD, List.getElem?_map, Option.getD_map]

theorem line_of_lines (h : lines s' = lines s) (p : PortIx) : (s'.port p).line = (s.port p).line := by
  rw [Port.line_eq_getD, Port.line_eq_getD, h]

theorem field_of_lines {β : Type} (g : Port → β) (hg : ∀ q, g q.line = g q) (h : lines s' = lines s) (p : PortIx) : g (s'.port p) = g (s.port p) := by
  rw [← hg, line_of_lines h, hg]

theorem tr_of_lines (h : lines s' = lines s) (p : PortIx) : (s'.port p).tr = (s.port p).tr := field_of_lines Port.tr (by intro _; rfl) h p
theorem test_of_lines (h : lines s' = lines s) (p : PortIx) : (s'.port p).test = (s.port p).test := field_of_lines Port.test (by intro _; rfl) h p
theorem cr_of_lines (h : lines s' = lines s) (p : PortIx) : (s'.port p).cr = (s.port p).cr := field_of_lines Port.cr (by intro _; rfl) h p
theorem dropAt_of_lines (h : lines s' = lines s) (p : PortIx) : (s'.port p).dropAt = (s.port p).dropAt := field_of_lines Port.dropAt (by intro _; rfl) h p
theorem holdEnd_of_lines (h : lines s' = lines s) (p : PortIx) : (s'.port p).holdEnd = (s.port p).holdEnd := field_of_lines Port.holdEnd (by intro _; rfl) h p

theorem length_of_lines (h : lines s' = lines s) : s'.ports.length = s.ports.length := by
  simpa [lines] using congrArg List.length h

theorem lines_of_within (h : Within (Part.but [.ports]) s s') : lines s' = lines s := by
  rw [lines, lines, show s'.ports = s.ports from h.1.2 .ports (by simp)]

theorem lines_modPort {f : Port → Port} (h : ∀ q : Port, (f q).line = q.line) : lines (s.modPort p f) = lines s := map_modAt_of_proj h _ _

theorem lines_foldl {α : Type} {f : State → α → State} (hf : ∀ v x, lines (f v x) = lines v) (l : List α) : lines (l.foldl f s) = lines s := by
  induction l generalizing s with
  | nil => rfl
  | cons x l ih => rw [List.foldl_cons, ih, hf]

theorem lines_ite {c : Prop} [Decidable c] {a b : State} (ha : lines a = lines s) (hb : lines b = lines s) : lines (if c then a else b) = lines s := by
  split <;> assumption

@[simp] theorem lines_modMbx (f : Mbx → Mbx) : lines (s.modMbx p f) = lines s := lines_modPort fun _ => rfl
@[simp] theorem lines_bump (a hi lo n : Nat) : lines (s.bump a hi lo n) = lines s := rfl
@[simp] theorem lines_setReg (a n : Nat) : lines (s.setReg a n) = lines s := rfl
@[simp] theorem lines_modView (n : Nat) (f : View → View) : lines (s.modView n f) = lines s := rfl
@[simp] theorem lines_removeVf (n frame : Nat) : lines (removeVf s n frame) = lines s := rfl

@[simp] theorem lines_notifyDue (code : Nat) (payload : List Byte) (due : Option Time) : lines (notifyDue s p code payload t due) = lines s :=
  lines_ite ((lines_bump ..).trans (lines_modMbx _)) (lines_modMbx _)

@[simp] theorem lines_notify (code : Nat) (payload : List Byte) : lines (notify s p code payload t) = lines s := lines_notifyDue ..

@[simp] theorem lines_notifyAll (code : Nat) (payload : List Byte) : lines (notifyAll s code payload t) = lines s :=
  lines_foldl (fun _ _ => lines_notify ..) _

@[simp] theorem lines_notifyFault (e : FaultEntry) (event : Nat) : lines (notifyFault s e event t) = lines s := lines_ite rfl (lines_notifyAll ..)

@[simp] theorem lines_unstand (code inst : Nat) : lines (unstand s code inst t) = lines s := by
  unfold unstand
  split
  · rfl
  · exact lines_ite (lines_notifyFault ..) rfl

@[simp] theorem lines_respond (c : Call) (op : Nat) (cls : Cls) (st : Status) (d : Nat) (pl : List Byte) :
    lines (respond s c op cls st d pl) = lines s := by
  unfold respond
  split
  · exact lines_modMbx _
  · rfl

@[simp] theorem lines_accept (c : Call) (op span d : Nat) : lines (accept s c op span d) = lines s := by
  unfold accept
  split <;> exact lines_respond ..

@[simp] theorem lines_excusePort : lines (excusePort s p) = lines s := lines_modPort fun _ => rfl

@[simp] theorem lines_bulkEnd (st : Status) : lines (bulkEnd s p st t) = lines s := by
  unfold bulkEnd
  split
  · rfl
  · exact (lines_respond ..).trans (lines_modPort fun _ => rfl)

@[simp] theorem lines_bulkNext : lines (bulkNext s p t) = lines s := by
  unfold bulkNext
  split
  · rfl
  · split
    · rfl
    · split
      · exact lines_bulkEnd _
      · extract_lets total n ends spans flags body loaded
        have hloaded : Within (Part.but [.ports]) s loaded := by simp [loaded]
        exact (lines_modPort (by intro _; rfl)).trans (lines_of_within hloaded)

@[simp] theorem lines_bulkRefill : lines (bulkRefill s p t) = lines s := lines_foldl (fun _ _ => lines_ite lines_bulkNext rfl) _

@[simp] theorem lines_bulkAcked (ident : Nat) : lines (bulkAcked s p ident t) = lines s := by
  unfold bulkAcked
  split
  · rfl
  · split
    · rfl
    · exact (lines_ite (lines_bulkEnd _) lines_bulkRefill).trans (lines_modPort fun _ => rfl)

@[simp] theorem lines_queuePkt (n type frame : Nat) (body : List Byte) : lines (queuePkt s n type frame body) = lines s := lines_modPort fun _ => rfl

@[simp] theorem lines_reportMiss (n : Nat) : lines (reportMiss s n t) = lines s := lines_notify ..

@[simp] theorem lines_missFrame (n frame reason : Nat) : lines (missFrame s n frame reason t) = lines s := by
  unfold missFrame
  exact (lines_ite (lines_reportMiss n) rfl).trans ((lines_modView ..).trans (lines_ite rfl rfl))

@[simp] theorem lines_pauseViews : lines (pauseViews s p t) = lines s := by
  refine lines_foldl (fun r n => lines_ite ?_ rfl) _
  exact (lines_foldl (fun _ _ => lines_missFrame ..) _).trans ((lines_modView ..).trans (lines_foldl (fun _ _ => lines_removeVf ..) _))

@[simp] theorem lines_resumeViews : lines (resumeViews s p t) = lines s := by
  refine lines_foldl (fun r n => lines_ite ?_ rfl) _
  extract_lets ended latched reported
  have hended : lines ended = lines r := by
    simp only [ended]
    split <;> simp
  have hlatched : lines latched = lines ended := by
    simp only [latched]
    split
    · exact lines_ite (lines_missFrame ..) rfl
    · rfl
  have hreported : lines reported = lines latched := lines_ite (lines_reportMiss n) rfl
  exact (lines_modView ..).trans (hreported.trans (hlatched.trans hended))

@[simp] theorem lines_notifyLink (reason : Nat) : lines (notifyLink s q p reason t) = lines s := lines_notify ..

@[simp] theorem lines_notifyLinkOthers (reason : Nat) : lines (notifyLinkOthers s p reason t) = lines s :=
  lines_foldl (fun _ _ => lines_ite (lines_notifyLink _) rfl) _

@[simp] theorem lines_dropLease (b event : Nat) : lines (dropLease s b event t) = lines s := by
  unfold dropLease
  split
  · rfl
  · exact lines_notifyAll ..

@[simp] theorem lines_expireHold : lines (expireHold s p t) = lines s := lines_of_within (by simp)

@[simp] theorem lines_startProfileView : lines (startProfileView s p t) = lines s := lines_of_within (by simp)

end Sys2Proof.Machine
end

section
/-! Training states: what entering one, failing, dropping from ACTIVE and going to QUIET do to the port (R268 to R271, R275, R280, R312, R324, R352). -/

namespace Sys2Proof.Machine

variable {s s₀ : State} {p : PortIx} {t : Time}

/-- The training blocks that the lanes send at an instant (R272). -/
def laneBlocks (s : State) (p : PortIx) (t : Time) : List (List Byte) :=
  if (s.port p).tr.st = .rate ∧ (s.port p).tr.rateStep = .idle then [] else (List.range 4).map (fun k => deviceBlock s p k t)

@[simp] theorem sendBlocks_port (hlen : s.ports.length = 4) :
    (sendBlocks s p t).port p = { s.port p with tr := { (s.port p).tr with blocks := laneBlocks s p t } } := State.modTr_port hlen _

@[simp] theorem sendBlocks_length : (sendBlocks s p t).ports.length = s.ports.length := State.modTr_length _

@[simp] theorem sendBlocks_onlyPort : OnlyPort p s₀ (sendBlocks s p t) ↔ OnlyPort p s₀ s := State.modTr_onlyPort _

@[simp] theorem sendAbort_onlyPort (reason : Nat) : OnlyPort p s₀ (sendAbort s p reason t) ↔ OnlyPort p s₀ s := State.modTr_onlyPort _

@[simp] theorem noteFail_onlyPort (reason : Nat) : OnlyPort p s₀ (noteFail s p reason) ↔ OnlyPort p s₀ s := by simp [noteFail]

@[simp] theorem trainFail_onlyPort (reason : Nat) : OnlyPort p s₀ (trainFail s p reason t) ↔ OnlyPort p s₀ s := by simp [trainFail]

@[simp] theorem enterTrain_onlyPort (st : PortSt) : OnlyPort p s₀ (enterTrain s p st t) ↔ OnlyPort p s₀ s := by
  unfold enterTrain
  split <;> simp

@[simp] theorem enterRate_onlyPort : OnlyPort p s₀ (enterRate s p t) ↔ OnlyPort p s₀ s := by simp [enterRate]

@[simp] theorem enterTrain_length (st : PortSt) : (enterTrain s p st t).ports.length = s.ports.length :=
  OnlyPort.length (p := p) (by simp)

/-! ## Entering a training state -/

/-- A training state is entered: its counts start anew, and the receiver may be set up. -/
theorem enterTrain_port (hlen : s.ports.length = 4) (st : PortSt) : ∃ y l, (enterTrain s p st t).port p = { s.port p with
    phy := y
    tr := { (s.port p).tr with
      st := st, entered := t, good := 0, rxGood := 0, lastLeads := [], rateStep := .offer, blkSeq := blockSeq (s.port p) t, blkFrom := t
      blocks := l } } := by
  unfold enterTrain
  split <;> exact ⟨_, _, by simp [hlen]; exact ⟨rfl, rfl⟩⟩

/-- CLOCK clears the delays and the taps, and its first pass restores the upright map (R277, R278). -/
theorem enterTrain_clock_phy (hlen : s.ports.length = 4) : ((enterTrain s p .clock t).port p).phy = { (s.port p).phy with
    delay := [0, 0, 0, 0], dfe := [0, 0, 0, 0, 0]
    map := if (s.port p).tr.pass = 0 then [0, 1, 2, 3] else (s.port p).phy.map
    inv := if (s.port p).tr.pass = 0 then [false, false, false, false] else (s.port p).phy.inv } := by
  simp [enterTrain, hlen]

/-- LANES, DESKEW and RATE leave the receiver as it is. -/
theorem enterTrain_phy (hlen : s.ports.length = 4) {st : PortSt} (hc : st ≠ .clock) (he : st ≠ .equalise) :
    ((enterTrain s p st t).port p).phy = (s.port p).phy := by
  cases st with
  | clock => exact absurd rfl hc
  | equalise => exact absurd rfl he
  | _ => simp [enterTrain, hlen]

/-- EQUALISE starts every lane at its rate's preset, with UP_OK clear, and keeps the delays (R263, R279). -/
theorem enterTrain_equalise_phy (hlen : s.ports.length = 4) : ((enterTrain s p .equalise t).port p).phy.delay = (s.port p).phy.delay ∧
    ((enterTrain s p .equalise t).port p).phy.ffePreset = List.replicate 4 (ratePreset (s.port p).tr.dnRate) ∧
    ((enterTrain s p .equalise t).port p).phy.upOk = false := by
  simp [enterTrain, hlen, List.replicate]

/-- RATE is entered with the offer of that instant (R280). -/
theorem enterRate_port (hlen : s.ports.length = 4) : ∃ l, (enterRate s p t).port p = { s.port p with
    tr := { (s.port p).tr with
      st := .rate, entered := t, good := 0, rxGood := 0, lastLeads := [], rateStep := .offer, blkSeq := blockSeq (s.port p) t, blkFrom := t
      offDn := (offer s p).1, offUp := (offer s p).2.1, offPreDn := (offer s p).2.2.1, offPreUp := (offer s p).2.2.2, blocks := l } } := by
  obtain ⟨y, l, h⟩ := enterTrain_port (t := t) (p := p) hlen .rate
  have hphy := enterTrain_phy (t := t) (p := p) hlen (st := .rate) nofun nofun
  rw [h] at hphy
  exact ⟨_, by simp [enterRate, hlen, h, hphy]; rfl⟩

/-! ## Failing -/

/-- A failed attempt is counted, and the port waits in DETECT for its back-off (R269 to R271, R281). -/
theorem trainFail_port (hlen : s.ports.length = 4) (reason : Nat) : ∃ f n l, (trainFail s p reason t).port p = { s.port p with
    dropAt := if (s.port p).tr.away then some t else (s.port p).dropAt
    tr := { (s.port p).tr with
      st := .detect, entered := t, good := 0, rxGood := 0, fails := min 255 ((s.port p).tr.fails + 1), away := false, pass := 0, fall := f
      failState := (s.port p).tr.st.code, reason := reason, preDn := false, preUp := false, blkSeq := n, blkFrom := t
      backoffEnd := t + backoff (min 255 ((s.port p).tr.fails + 1)), backoffOver := false, rateStep := .offer, blocks := l } } :=
  ⟨_, _, _, by simp [trainFail, noteFail, sendAbort, hlen]; exact ⟨rfl, rfl, rfl⟩⟩

/-- An exit from ACTIVE changes the port's state and lines, and then tells the other ports (R312, R324). -/
theorem leaveActive_eq (st : PortSt) (reason : Nat) (drop : Bool) : ∃ w f, lines w = lines s ∧
    leaveActive s p st reason drop t = notifyLinkOthers (w.modPort p f) p reason t ∧ ∀ q : Port,
      (f q).dropAt = (if drop then some t else q.dropAt) ∧ (f q).tr = { q.tr with
        st := st, entered := t, good := 0, rxGood := 0, away := !drop, changeAt := none, changeBy := none, rateStep := .offer
        preDn := false, preUp := false, blocks := [] } := by
  refine ⟨_, _, ?_, rfl, fun q => ⟨rfl, rfl⟩⟩
  rw [lines_pauseViews, lines_excusePort, abortBulk, lines_bulkEnd]
  rfl

theorem leaveActive_port (hlen : s.ports.length = 4) (st : PortSt) (reason : Nat) (drop : Bool) :
    (leaveActive s p st reason drop t).ports.length = 4 ∧
    ((leaveActive s p st reason drop t).port p).dropAt = (if drop then some t else (s.port p).dropAt) ∧
    ((leaveActive s p st reason drop t).port p).tr = { (s.port p).tr with
      st := st, entered := t, good := 0, rxGood := 0, away := !drop, changeAt := none, changeBy := none, rateStep := .offer
      preDn := false, preUp := false, blocks := [] } := by
  obtain ⟨w, f, hw, h, hf⟩ := leaveActive_eq (s := s) (p := p) (t := t) st reason drop
  have hwlen : w.ports.length = 4 := (length_of_lines hw).trans hlen
  have htold : lines (leaveActive s p st reason drop t) = lines (w.modPort p f) := by rw [h, lines_notifyLinkOthers]
  obtain ⟨hdrop, htr⟩ := hf (w.port p)
  rw [length_of_lines htold, dropAt_of_lines htold, tr_of_lines htold, State.modPort_port hwlen, State.modPort_length, hdrop, htr, dropAt_of_lines hw,
    tr_of_lines hw]
  exact ⟨hwlen, rfl, rfl⟩

/-- A drop from ACTIVE: the port is in DETECT with the reason, no attempt counts as failed, and its leases' lapse is timed (R266, R267, R352). -/
theorem dropPort_port (hlen : s.ports.length = 4) (reason : Nat) :
    ((dropPort s p reason t).port p).dropAt = some t ∧ ((dropPort s p reason t).port p).tr.st = .detect ∧
    ((dropPort s p reason t).port p).tr.reason = reason ∧ ((dropPort s p reason t).port p).tr.fails = (s.port p).tr.fails := by
  obtain ⟨hleft, hdrop, htr⟩ := leaveActive_port (s := noteFail s p reason) (p := p) (t := t) (by simp [noteFail, hlen]) .detect reason true
  simp only [dropPort, State.modTr_port hleft, hdrop, htr]
  simp [noteFail, hlen]

/-- A port that goes to QUIET has no failures counted (R268, R270, R271). -/
theorem quietPort_tr (hlen : s.ports.length = 4) :
    ((quietPort s p t).port p).tr.st = .quiet ∧ ((quietPort s p t).port p).tr.fails = 0 ∧ ((quietPort s p t).port p).tr.fall = 3 := by
  obtain ⟨hleft, -, -⟩ := leaveActive_port (p := p) (t := t) hlen .quiet 0 true
  unfold quietPort
  split <;> simp [hlen, hleft]

end Sys2Proof.Machine
end

section
/-! A port starts an attempt: the back-off, the Beacon, CLOCK, and a change of rate (R268, R270, R277, R278, R280, R281). -/

namespace Sys2Proof.Machine

variable {s u : State} {p : PortIx} {t : Time}

theorem backoffEnd_accepts (hu : u = s.at t) (hst : (u.port p).tr.st = .detect) (hover : (u.port p).tr.backoffOver = false)
    (hend : (u.port p).tr.backoffEnd ≤ t) :
    exec (.backoffEnd t p) s = .next (u.modTr p (fun r => { r with backoffOver := true, nextBeacon := r.backoffEnd })) := by
  rw [show exec (.backoffEnd t p) s = execBackoffEnd t p s from rfl, execBackoffEnd]
  exact event_due_at hu (by simp [hst, hover, hend])

/-- In DETECT the lanes send HELLO blocks (R270, R275). -/
theorem laneBlocks_detect (hst : (s.port p).tr.st = .detect) : laneBlocks s p t = (List.range 4).map (fun k =>
    trainBlockOf 0x01 k PortSt.detect.code (s.port p).tr.blkSeq
      ([byte (s.ctlFld p 5 4), byte (s.ctlFld p 8 8), byte (1 + 2 * s.ctlFld p 11 11), byte (b2n (decide (0 < (s.port p).tr.rxGood))),
        byte (s.port p).tr.pass, byte s.pw.devid, byte p.val] ++ zeros 9)) := by
  simp [laneBlocks, deviceBlock, deviceBody, hst, blockSeq]

/-- A Beacon burst of 625 HELLO blocks is sent, and the next is timed (R270). -/
theorem beaconBurst_sends (hu : u = s.at t) (hlen : u.ports.length = 4) (hst : (u.port p).tr.st = .detect) (hover : (u.port p).tr.backoffOver = true)
    (hdue : (u.port p).tr.nextBeacon ≤ t) :
    ∃ s', exec (.beaconBurst t p) s = .next s' ∧ Keeps [.ports] u s' ∧ (s'.port p).tr.st = .detect ∧
      (s'.port p).tr.nextBeacon = t + max (100 * ms) (backoff (u.port p).tr.fails) ∧
      (s'.port p).tr.blkSeq = ((u.port p).tr.blkSeq + 625) % 256 ∧
      (s'.port p).tr.blocks = (List.range 4).map (fun k => trainBlockOf 0x01 k PortSt.detect.code (u.port p).tr.blkSeq
        ([byte (u.ctlFld p 5 4), byte (u.ctlFld p 8 8), byte (1 + 2 * u.ctlFld p 11 11), byte (b2n (decide (0 < (u.port p).tr.rxGood))), 0,
          byte u.pw.devid, byte p.val] ++ zeros 9)) ∧
      ∀ q : PortIx, q ≠ p → s'.port q = u.port q := by
  rw [show exec (.beaconBurst t p) s = execBeaconBurst t p s from rfl, execBeaconBurst]
  refine ⟨_, event_due_at hu (by simp [hst, hover, hdue]), ?_⟩
  generalize hv : u.modTr p (fun r => { r with dnRate := 0, div := 128, pass := 0, nextBeacon := t + max (100 * ms) (backoff r.fails) }) = v
  have hvlen : v.ports.length = 4 := by simp [← hv, hlen]
  have hvport : v.port p = { u.port p with tr := { (u.port p).tr with
      dnRate := 0, div := 128, pass := 0, nextBeacon := t + max (100 * ms) (backoff (u.port p).tr.fails) } } := by rw [← hv, State.modTr_port hlen]
  have hkeep : Within [.ports] u ((sendBlocks v p t).modTr p (fun r => { r with blkSeq := (r.blkSeq + 625) % 256 })) := by simp [← hv]
  have hblocks : laneBlocks v p t = _ := laneBlocks_detect (by rw [hvport]; exact hst)
  rw [hvport] at hblocks
  refine ⟨hkeep.1, ?_, ?_, ?_, ?_, OnlyPort.others (by simp [← hv])⟩
  all_goals rw [State.modTr_port (sendBlocks_length.trans hvlen), sendBlocks_port hvlen]
  · rw [hvport]
    exact hst
  · rw [hvport]
  · rw [hvport]
  · exact hblocks.trans (by rw [← hv]; rfl)

/-- A valid UCLK starts the first pass: CLOCK at the lowest rates, the upright map and no delays (R268, R277, R278). -/
theorem uclkValid_startsClock (hu : u = s.at t) (hlen : u.ports.length = 4) (hst : (u.port p).tr.st = .detect) (hover : (u.port p).tr.backoffOver = true)
    (hlos : (u.port p).phy.los = false) (hlol : (u.port p).phy.lol = false) :
    ∃ s', exec (.uclkValid t p) s = .next s' ∧ (s'.port p).tr.st = .clock ∧ (s'.port p).tr.pass = 0 ∧ (s'.port p).tr.dnRate = 0 ∧
      (s'.port p).tr.upRate = 0 ∧ (s'.port p).phy.map = [0, 1, 2, 3] ∧ (s'.port p).phy.delay = [0, 0, 0, 0] ∧
      ∀ q : PortIx, q ≠ p → s'.port q = u.port q := by
  rw [show exec (.uclkValid t p) s = execUclkValid t p s from rfl, execUclkValid]
  refine ⟨_, event_due_at hu (by simp [hst, hover, hlos, hlol]), ?_⟩
  generalize hv : u.modTr p (fun r => { setRates r 0 0 with pass := 0 }) = v
  have hvlen : v.ports.length = 4 := by simp [← hv, hlen]
  have htr : (v.port p).tr = { setRates (u.port p).tr 0 0 with pass := 0 } := by rw [← hv, State.modTr_port hlen]
  obtain ⟨y, l, h⟩ := enterTrain_port (t := t) (p := p) hvlen .clock
  have hphy := enterTrain_clock_phy (t := t) (p := p) hvlen
  rw [htr] at hphy
  refine ⟨by rw [h], ?_, ?_, ?_, by simp [hphy], by simp [hphy], OnlyPort.others (by simp [← hv])⟩
  all_goals simp only [h, htr, setRates]

/-- Once the lanes were idle, the port is in CLOCK at the agreed rates, as a rate pass (R280). -/
theorem rateIdleEnd_startsClock (hu : u = s.at t) (hlen : u.ports.length = 4) (hst : (u.port p).tr.st = .rate) (hidle : (u.port p).tr.rateStep = .idle)
    (hend : (u.port p).tr.idleEnd ≤ t) :
    ∃ s', exec (.rateIdleEnd t p) s = .next s' ∧ (s'.port p).tr.st = .clock ∧ (s'.port p).tr.pass = 1 ∧
      (s'.port p).tr.dnRate = (u.port p).tr.offDn ∧ (s'.port p).tr.upRate = (u.port p).tr.offUp ∧
      (s'.port p).phy.map = (u.port p).phy.map ∧ ∀ q : PortIx, q ≠ p → s'.port q = u.port q := by
  rw [show exec (.rateIdleEnd t p) s = execRateIdleEnd t p s from rfl, execRateIdleEnd]
  refine ⟨_, event_due_at hu (by simp [hst, hidle, hend]), ?_⟩
  generalize hv : u.modTr p (fun r => { setRates r r.offDn r.offUp with pass := 1 }) = v
  have hvlen : v.ports.length = 4 := by simp [← hv, hlen]
  have hvport : v.port p = { u.port p with tr := { setRates (u.port p).tr (u.port p).tr.offDn (u.port p).tr.offUp with pass := 1 } } := by
    rw [← hv, State.modTr_port hlen]
  obtain ⟨y, l, h⟩ := enterTrain_port (t := t) (p := p) hvlen .clock
  have hphy := enterTrain_clock_phy (t := t) (p := p) hvlen
  rw [hvport] at hphy
  refine ⟨by rw [h], ?_, ?_, ?_, by simp [hphy], OnlyPort.others (by simp [← hv])⟩
  all_goals simp only [h, hvport, setRates]

/-- A wanted change of rate takes the port out of ACTIVE, which drops nothing (R281). -/
theorem rateChangeStart_leavesActive {d : Time} (hu : u = s.at t) (hlen : u.ports.length = 4) (hst : (u.port p).tr.st = .active)
    (hmark : 1024 ≤ (u.port p).lt.cwSince) (hchange : (u.port p).tr.changeAt = some d) (hd : d ≤ t) :
    ∃ s', exec (.rateChangeStart t p) s = .next s' ∧ (s'.port p).tr.st = .rate ∧ (s'.port p).tr.away = true ∧
      (s'.port p).tr.changeAt = none ∧ (s'.port p).dropAt = (u.port p).dropAt ∧ s'.leases = u.leases := by
  rw [show exec (.rateChangeStart t p) s = execRateChangeStart t p s from rfl, execRateChangeStart]
  refine ⟨_, event_due_at hu (by simp [State.portActive, hst, hmark, hchange, hd]), ?_⟩
  obtain ⟨hleft, hdrop, htr⟩ := leaveActive_port (t := t) (p := p) hlen .rate 0 false
  obtain ⟨l, h⟩ := enterRate_port (t := t) (p := p) hleft
  have hkeep : Within (Part.but [.leases]) u (enterRate (leaveActive u p .rate 0 false t) p t) := by simp
  refine ⟨by rw [h], ?_, ?_, ?_, hkeep.1.2 .leases (by simp)⟩
  · simp only [h, htr, Bool.not_false]
  · simp only [h, htr]
  · simpa [h] using hdrop

/-- Settles O32: the rule of each event that starts an attempt or a change of rate. -/
theorem portsStartTraining : Obligations.PortsStartTraining := by
  unfold Obligations.PortsStartTraining
  refine ⟨?_, ?_, ?_, ?_, ?_⟩
  · exact fun s u t p hu hst hover hend => backoffEnd_accepts hu hst hover hend
  · exact fun s u t p hu hlen hst hover hdue => beaconBurst_sends hu hlen hst hover hdue
  · exact fun s u t p hu hlen hst hover hlos hlol => uclkValid_startsClock hu hlen hst hover hlos hlol
  · exact fun s u t p hu hlen hst hidle hend => rateIdleEnd_startsClock hu hlen hst hidle hend
  · exact fun s u t d p hu hlen hst hmark hchange hd => rateChangeStart_leavesActive hu hlen hst hmark hchange hd

end Sys2Proof.Machine
end

section
/-! Host training blocks: what each does in each training state (R272 to R280). -/

namespace Sys2Proof.Machine

variable {s u : State} {p : PortIx} {t : Time} {b x : List Byte} {inv : Bool}

/-! ## Another port is left alone -/

@[simp] theorem rxHello_onlyPort : OnlyPort p u (rxHello s p x t) ↔ OnlyPort p u s := by simp [rxHello]

@[simp] theorem clockBlock_onlyPort : OnlyPort p u (clockBlock s p inv t) ↔ OnlyPort p u s := by
  unfold clockBlock drawFree
  rw [State.modTr_onlyPort, onlyPort_ite]
  split
  · exact (State.modPhy_onlyPort _).trans (State.modPhy_onlyPort (s := s) (fun y => { y with upInv := inv }))
  · exact State.modPhy_onlyPort _

@[simp] theorem rxLanes_onlyPort : OnlyPort p u (rxLanes s p x t) ↔ OnlyPort p u s := by simp [rxLanes]

@[simp] theorem rxDeskew_onlyPort : OnlyPort p u (rxDeskew s p x t) ↔ OnlyPort p u s := by simp [rxDeskew]

@[simp] theorem rxEq_onlyPort : OnlyPort p u (rxEq s p x t) ↔ OnlyPort p u s := by simp [rxEq]

@[simp] theorem rxRate_onlyPort : OnlyPort p u (rxRate s p x t) ↔ OnlyPort p u s := by simp [rxRate]

@[simp] theorem actBlock_onlyPort : OnlyPort p u (actBlock s p x t) ↔ OnlyPort p u s := by
  unfold actBlock
  split <;> simp

/-! ## The event -/

/-- What a block does to a port that trains or is in DETECT. -/
def blockTaken (u : State) (p : PortIx) (b : List Byte) (t : Time) : State :=
  match readBlock b with
  | none => (u.bump (aLINK_CNT p.val) 7 0 1).modTr p (fun r => { r with good := 0, rxGood := 0 })
  | some (x, inv) =>
    if (u.port p).tr.st = .detect then u
    else if u8 x 8 = 0x0F then trainFail u p 6 t
    else
      let v := if (u.port p).tr.st = .clock then clockBlock u p inv t else u
      let w := if u8 x 10 ≠ (v.port p).tr.st.code then v.modTr p (fun r => { r with good := 0 }) else actBlock v p x t
      if training (w.port p).tr.st then sendBlocks w p t else w

theorem trainingBlockRx_takes (hu : u = s.at t) (hst : training (u.port p).tr.st = true ∨ (u.port p).tr.st = .detect) :
    exec (.trainingBlockRx t p b) s = .next (blockTaken u p b t) := by
  rw [show exec (.trainingBlockRx t p b) s = execTrainingBlockRx t p b s from rfl, execTrainingBlockRx]
  exact (event_due_at hu (by simpa using hst)).trans rfl

theorem blockTaken_invalid (hb : readBlock b = none) :
    blockTaken u p b t = (u.bump (aLINK_CNT p.val) 7 0 1).modTr p (fun r => { r with good := 0, rxGood := 0 }) := by
  simp only [blockTaken, hb]

theorem blockTaken_detect (hst : (u.port p).tr.st = .detect) (hb : readBlock b = some (x, inv)) : blockTaken u p b t = u := by
  simp only [blockTaken, hb, hst, if_true]

theorem blockTaken_abort (hst : training (u.port p).tr.st = true) (hb : readBlock b = some (x, inv)) (hmsg : u8 x 8 = 0x0F) :
    blockTaken u p b t = trainFail u p 6 t := by
  have hne : (u.port p).tr.st ≠ .detect := fun h => by simp [h, training] at hst
  simp only [blockTaken, hb, hne, hmsg, if_true, if_false]

/-- A valid block that shows the device's state is acted on, and then the lanes send what follows from it (R272, R274). -/
theorem blockTaken_shown {v : State} (hb : readBlock b = some (x, inv)) (hst : (u.port p).tr.st ≠ .detect) (hmsg : u8 x 8 ≠ 0x0F)
    (hv : v = if (u.port p).tr.st = .clock then clockBlock u p inv t else u) (hvlen : v.ports.length = 4)
    (hcode : u8 x 10 = (v.port p).tr.st.code) : ∃ l, (blockTaken u p b t).port p = { (actBlock v p x t).port p with
      tr := { ((actBlock v p x t).port p).tr with blocks := l } } := by
  have hact : (actBlock v p x t).ports.length = 4 := (OnlyPort.length (p := p) (by simp)).trans hvlen
  simp only [blockTaken, hb, hst, hmsg, ← hv, hcode, if_false, ne_eq, not_true_eq_false]
  split
  · exact ⟨_, sendBlocks_port hact⟩
  · exact ⟨_, rfl⟩

theorem actBlock_clock (hst : (s.port p).tr.st = .clock) (hmsg : u8 x 8 = 1) : actBlock s p x t = rxHello s p x t := by simp [actBlock, hst, hmsg]
theorem actBlock_lanes (hst : (s.port p).tr.st = .lanes) (hmsg : u8 x 8 = 3) : actBlock s p x t = rxLanes s p x t := by simp [actBlock, hst, hmsg]
theorem actBlock_deskew (hst : (s.port p).tr.st = .deskew) (hmsg : u8 x 8 = 4) : actBlock s p x t = rxDeskew s p x t := by simp [actBlock, hst, hmsg]
theorem actBlock_equalise (hst : (s.port p).tr.st = .equalise) (hmsg : u8 x 8 = 5) : actBlock s p x t = rxEq s p x t := by simp [actBlock, hst, hmsg]
theorem actBlock_rate (hst : (s.port p).tr.st = .rate) (hmsg : u8 x 8 = 6) : actBlock s p x t = rxRate s p x t := by simp [actBlock, hst, hmsg]

/-- A block outside CLOCK meets the port as it is. -/
theorem blockTaken_acts (hlen : u.ports.length = 4) (hb : readBlock b = some (x, inv)) (hd : (u.port p).tr.st ≠ .detect) (hc : (u.port p).tr.st ≠ .clock)
    (hmsg : u8 x 8 ≠ 0x0F) (hcode : u8 x 10 = (u.port p).tr.st.code) : ∃ l, (blockTaken u p b t).port p = { (actBlock u p x t).port p with
      tr := { ((actBlock u p x t).port p).tr with blocks := l } } :=
  blockTaken_shown hb hd hmsg (by rw [if_neg hc]) hlen hcode

theorem blockTaken_onlyPort : OnlyPort p u (blockTaken u p b t) := by
  unfold blockTaken
  split <;> simp

/-- A block changes its port alone, with the counter of bad blocks and the phase drawn (R272, R276). -/
theorem trainingBlockRx_keeps (hu : u = s.at t) : ∃ s', exec (.trainingBlockRx t p b) s = .next s' ∧ Keeps [.free, .regs, .ports] u s' ∧
    ∀ q : PortIx, q ≠ p → s'.port q = u.port q := by
  by_cases hst : training (u.port p).tr.st = true ∨ (u.port p).tr.st = .detect
  · have hnext := trainingBlockRx_takes (b := b) hu hst
    have hwithin := execTrainingBlockRx_within (L := [.free, .regs, .ports]) (by simp) t p b _ hnext
    exact ⟨_, hnext, hu ▸ hwithin.1, blockTaken_onlyPort.others⟩
  · refine ⟨u, ?_, within_self.1, fun _ _ => rfl⟩
    rw [show exec (.trainingBlockRx t p b) s = execTrainingBlockRx t p b s from rfl, execTrainingBlockRx, hu]
    exact event_not_due (by simpa [← hu] using hst)

/-! ## The second good message in a row, state by state -/

theorem rxHello_second (hlen : s.ports.length = 4) (hgood : u8 x 15 = 1) (hrx : 8 ≤ (s.port p).tr.rxGood) (hone : 1 ≤ (s.port p).tr.good) :
    rxHello s p x t = enterTrain (s.modTr p (fun r => { r with
      hostDn := min 3 (u8 x 12), hostUp := min 1 (u8 x 13), hostCaps := u8 x 14 % 4, good := r.good + 1 })) p
      (if (s.port p).tr.pass = 0 then .lanes else .deskew) t := by
  have htwo : 2 ≤ (s.port p).tr.good + 1 := by omega
  simp [rxHello, hlen, hgood, hrx, htwo]

/-- The eighth good block and the second success HELLO end CLOCK (R275, R276). -/
theorem trainingBlockRx_endsClock (hu : u = s.at t) (hlen : u.ports.length = 4) (hst : (u.port p).tr.st = .clock) (hb : readBlock b = some (x, inv))
    (hmsg : u8 x 8 = 1) (hcode : u8 x 10 = 2) (hgood : u8 x 15 = 1) (hrx : 7 ≤ (u.port p).tr.rxGood) (hone : 1 ≤ (u.port p).tr.good) :
    ∃ s', exec (.trainingBlockRx t p b) s = .next s' ∧ (s'.port p).phy.upInv = inv ∧ (s'.port p).tr.hostDn = min 3 (u8 x 12) ∧
      (s'.port p).tr.st = if (u.port p).tr.pass = 0 then .lanes else .deskew := by
  refine ⟨_, trainingBlockRx_takes hu (.inl (by simp [hst, training])), ?_⟩
  generalize hv : clockBlock u p inv t = v
  have hvlen : v.ports.length = 4 := by rw [← hv, OnlyPort.length (p := p) (s := u) (by simp), hlen]
  have hnot : (u.port p).tr.rxGood ≠ 0 := by omega
  have hvport : v.port p = { u.port p with
      phy := { (u.port p).phy with upInv := inv }, tr := { (u.port p).tr with rxGood := (u.port p).tr.rxGood + 1 } } := by
    rw [← hv]
    simp [clockBlock, hnot, hlen]
  have hvst : (v.port p).tr.st = .clock := by rw [hvport, hst]
  obtain ⟨l, h⟩ := blockTaken_shown (u := u) (t := t) (p := p) (v := v) hb (by simp [hst]) (by omega) (by rw [if_pos hst, hv]) hvlen
    (by rw [hvst, hcode]; rfl)
  rw [h, actBlock_clock hvst hmsg, rxHello_second hvlen hgood (by rw [hvport]; exact Nat.succ_le_succ hrx) (by rw [hvport]; exact hone)]
  generalize hnext : (if (v.port p).tr.pass = 0 then PortSt.lanes else .deskew) = next
  have hplain : next ≠ .clock ∧ next ≠ .equalise := by
    rw [← hnext]
    split <;> exact ⟨nofun, nofun⟩
  rw [hvport] at hnext
  generalize hw : v.modTr p _ = w
  have hwlen : w.ports.length = 4 := by rw [← hw, State.modTr_length, hvlen]
  obtain ⟨y, m, henter⟩ := enterTrain_port (t := t) (p := p) hwlen next
  have hphy := enterTrain_phy (t := t) (p := p) hwlen hplain.1 hplain.2
  refine ⟨?_, ?_, ?_⟩
  · show ((enterTrain w p next t).port p).phy.upInv = inv
    rw [hphy, ← hw, State.modTr_port hvlen, hvport]
  · rw [henter, ← hw, State.modTr_port hvlen]
  · rw [henter]
    exact hnext.symm

theorem rxLanes_second (hlen : s.ports.length = 4) (hlead : ∀ r : Nat, r < 4 → u8 x (12 + r) = r) (hone : 1 ≤ (s.port p).tr.good) :
    rxLanes s p x t = enterTrain ((s.modTr p (fun r => { r with lastLeads := (List.range 4).map (fun r => u8 x (12 + r)) })).modTr p
      (fun r => { r with good := r.good + 1 })) p .deskew t := by
  have htwo : 2 ≤ (s.port p).tr.good + 1 := by omega
  have hall : ((List.range 4).all fun r => decide (((List.range 4).map (fun r => u8 x (12 + r))).getD r 0 = r)) = true := by
    simp only [List.all_eq_true, List.mem_range, decide_eq_true_eq]
    intro r hr
    simp [hr, hlead r hr]
  simp only [rxLanes, hall, if_true]
  simp [hlen, htwo]

/-- The second MAP that finds every lane in its place ends LANES (R277). -/
theorem trainingBlockRx_endsLanes (hu : u = s.at t) (hlen : u.ports.length = 4) (hst : (u.port p).tr.st = .lanes) (hb : readBlock b = some (x, inv))
    (hmsg : u8 x 8 = 3) (hcode : u8 x 10 = 3) (hlead : ∀ r : Nat, r < 4 → u8 x (12 + r) = r) (hone : 1 ≤ (u.port p).tr.good) :
    ∃ s', exec (.trainingBlockRx t p b) s = .next s' ∧ (s'.port p).tr.st = .deskew ∧ (s'.port p).phy.map = (u.port p).phy.map := by
  refine ⟨_, trainingBlockRx_takes hu (.inl (by simp [hst, training])), ?_⟩
  obtain ⟨l, h⟩ := blockTaken_acts (p := p) (t := t) hlen hb (by simp [hst]) (by simp [hst]) (by omega) (by rw [hst, hcode]; rfl)
  rw [h, actBlock_lanes hst hmsg, rxLanes_second hlen hlead hone]
  generalize hw : State.modTr _ p _ = w
  have hwlen : w.ports.length = 4 := by simp [← hw, hlen]
  obtain ⟨y, m, henter⟩ := enterTrain_port (t := t) (p := p) hwlen .deskew
  have hphy := enterTrain_phy (t := t) (p := p) hwlen (st := .deskew) nofun nofun
  refine ⟨by rw [henter], ?_⟩
  show ((enterTrain w p .deskew t).port p).phy.map = _
  rw [hphy, ← hw]
  simp [hlen]

theorem rxDeskew_second (hlen : s.ports.length = 4) (hlead : ∀ r : Nat, r < 4 → u8 x (12 + r) = 0)
    (happlied : (s.port p).phy.delay = (List.range 4).map (fun r => u8 x (16 + r))) (hone : 1 ≤ (s.port p).tr.good) :
    rxDeskew s p x t = enterTrain (s.modTr p (fun r => { r with good := r.good + 1 })) p .equalise t := by
  have htwo : 2 ≤ (s.port p).tr.good + 1 := by omega
  have hall : (((List.range 4).map (fun r => u8 x (12 + r))).all fun r => decide (r = 0)) = true := by
    simpa [List.all_eq_true] using hlead
  simp only [rxDeskew, happlied, hall, if_true, ne_eq, not_true_eq_false, if_false]
  simp [hlen, htwo]

/-- The second report that no lane leads ends DESKEW (R278). -/
theorem trainingBlockRx_endsDeskew (hu : u = s.at t) (hlen : u.ports.length = 4) (hst : (u.port p).tr.st = .deskew) (hb : readBlock b = some (x, inv))
    (hmsg : u8 x 8 = 4) (hcode : u8 x 10 = 4) (hlead : ∀ r : Nat, r < 4 → u8 x (12 + r) = 0)
    (happlied : (u.port p).phy.delay = (List.range 4).map (fun r => u8 x (16 + r))) (hone : 1 ≤ (u.port p).tr.good) :
    ∃ s', exec (.trainingBlockRx t p b) s = .next s' ∧ (s'.port p).tr.st = .equalise ∧ (s'.port p).phy.delay = (u.port p).phy.delay ∧
      (s'.port p).phy.ffePreset = List.replicate 4 (ratePreset (u.port p).tr.dnRate) ∧ (s'.port p).phy.upOk = false := by
  refine ⟨_, trainingBlockRx_takes hu (.inl (by simp [hst, training])), ?_⟩
  obtain ⟨l, h⟩ := blockTaken_acts (p := p) (t := t) hlen hb (by simp [hst]) (by simp [hst]) (by omega) (by rw [hst, hcode]; rfl)
  rw [h, actBlock_deskew hst hmsg, rxDeskew_second hlen hlead happlied hone]
  generalize hw : State.modTr _ p _ = w
  have hwlen : w.ports.length = 4 := by simp [← hw, hlen]
  have hwport : w.port p = { u.port p with tr := { (u.port p).tr with good := (u.port p).tr.good + 1 } } := by rw [← hw, State.modTr_port hlen]
  obtain ⟨y, m, henter⟩ := enterTrain_port (t := t) (p := p) hwlen .equalise
  obtain ⟨hdelay, hpreset, hok⟩ := enterTrain_equalise_phy (t := t) (p := p) hwlen
  rw [hwport] at hdelay hpreset
  exact ⟨by rw [henter], hdelay, hpreset, hok⟩

/-- A request that was applied before is not applied again, and with the upstream good the second good message enters RATE. -/
theorem rxEq_second (hlen : s.ports.length = 4) (hseen : (s.port p).phy.reqSeen = true) (hid : (s.port p).phy.reqId = u8 x 16)
    (hgood : bit (u8 x 17) 0 = true) (hup : (s.port p).phy.upOk = true) (hone : 1 ≤ (s.port p).tr.good) :
    rxEq s p x t = enterRate (s.modTr p (fun r => { r with good := r.good + 1 })) p t := by
  have htwo : 2 ≤ (s.port p).tr.good + 1 := by omega
  simp [rxEq, hseen, hid, hgood, hlen, hup, htwo]

/-- The second good EQ message ends EQUALISE with the upstream accepted (R279, R280). -/
theorem trainingBlockRx_endsEqualise (hu : u = s.at t) (hlen : u.ports.length = 4) (hst : (u.port p).tr.st = .equalise)
    (hb : readBlock b = some (x, inv)) (hmsg : u8 x 8 = 5) (hcode : u8 x 10 = 5) (hseen : (u.port p).phy.reqSeen = true)
    (hid : (u.port p).phy.reqId = u8 x 16) (hgood : bit (u8 x 17) 0 = true) (hup : (u.port p).phy.upOk = true) (hone : 1 ≤ (u.port p).tr.good) :
    ∃ s', exec (.trainingBlockRx t p b) s = .next s' ∧ (s'.port p).tr.st = .rate ∧ (s'.port p).tr.offDn = (offer u p).1 ∧
      (s'.port p).tr.offUp = (offer u p).2.1 := by
  refine ⟨_, trainingBlockRx_takes hu (.inl (by simp [hst, training])), ?_⟩
  obtain ⟨l, h⟩ := blockTaken_acts (p := p) (t := t) hlen hb (by simp [hst]) (by simp [hst]) (by omega) (by rw [hst, hcode]; rfl)
  rw [h, actBlock_equalise hst hmsg, rxEq_second hlen hseen hid hgood hup hone]
  generalize hw : State.modTr _ p _ = w
  have hwlen : w.ports.length = 4 := by simp [← hw, hlen]
  have hoffer : offer w p = offer u p := by
    have htr : (w.port p).tr = { (u.port p).tr with good := (u.port p).tr.good + 1 } := by rw [← hw, State.modTr_port hlen]
    simp only [offer, htr]
    rw [← hw]
    rfl
  obtain ⟨m, henter⟩ := enterRate_port (t := t) (p := p) hwlen
  rw [henter, hoffer]
  exact ⟨rfl, rfl, rfl⟩

/-- The second echo of the offer starts the count-down where the rates are those in use, and else the idle time before the new ones. -/
theorem rxRate_second {fin : Bool} (hlen : s.ports.length = 4) (hstep : (s.port p).tr.rateStep = .offer) (hdn : u8 x 12 = (s.port p).tr.offDn)
    (hup : u8 x 13 = (s.port p).tr.offUp) (hacc : u8 x 15 = 1) (hone : 1 ≤ (s.port p).tr.good)
    (hfin : fin = decide ((s.port p).tr.offDn = (s.port p).tr.dnRate ∧ (s.port p).tr.offUp = (s.port p).tr.upRate))
    (hflags : u8 x 14 = b2n (s.port p).tr.offPreDn + 2 * b2n (s.port p).tr.offPreUp + 4 * b2n fin) :
    rxRate s p x t = if fin = true then (s.modTr p (fun r => { r with good := r.good + 1 })).modPort p (fun q => { q with
        tr := { q.tr with rateStep := .go, goFrom := t, good := 0 }
        cwCells := [], txY := [0, 0, 0, 0]
        lt := { q.lt with txSeq := 0, rxSeq := none, cwSince := 1024, cwUp := 0 } })
      else (s.modTr p (fun r => { r with good := r.good + 1 })).modTr p
        (fun r => { r with rateStep := .idle, idleEnd := t + 50 * us, good := 0 }) := by
  have htwo : 2 ≤ (s.port p).tr.good + 1 := by omega
  simp only [rxRate, hstep, ← hfin, hdn, hup, hacc, hflags]
  simp [hlen, htwo]

/-- The second echo of the offer ends RATE's offer (R280). -/
theorem trainingBlockRx_endsOffer {fin : Bool} (hu : u = s.at t) (hlen : u.ports.length = 4) (hst : (u.port p).tr.st = .rate)
    (hstep : (u.port p).tr.rateStep = .offer) (hb : readBlock b = some (x, inv)) (hmsg : u8 x 8 = 6) (hcode : u8 x 10 = 6)
    (hdn : u8 x 12 = (u.port p).tr.offDn) (hup : u8 x 13 = (u.port p).tr.offUp) (hacc : u8 x 15 = 1) (hone : 1 ≤ (u.port p).tr.good)
    (hfin : fin = decide ((u.port p).tr.offDn = (u.port p).tr.dnRate ∧ (u.port p).tr.offUp = (u.port p).tr.upRate))
    (hflags : u8 x 14 = b2n (u.port p).tr.offPreDn + 2 * b2n (u.port p).tr.offPreUp + 4 * b2n fin) :
    ∃ s', exec (.trainingBlockRx t p b) s = .next s' ∧ (s'.port p).tr.st = .rate ∧
      (fin = true → (s'.port p).tr.rateStep = .go ∧ (s'.port p).lt.txSeq = 0 ∧ (s'.port p).lt.rxSeq = none) ∧
      (fin = false → (s'.port p).tr.rateStep = .idle ∧ (s'.port p).tr.idleEnd = t + 50 * us) := by
  refine ⟨_, trainingBlockRx_takes hu (.inl (by simp [hst, training])), ?_⟩
  obtain ⟨l, h⟩ := blockTaken_acts (p := p) (t := t) hlen hb (by simp [hst]) (by simp [hst]) (by omega) (by rw [hst, hcode]; rfl)
  rw [h, actBlock_rate hst hmsg, rxRate_second hlen hstep hdn hup hacc hone hfin hflags]
  cases fin <;> simp [hlen, hst]

/-- Settles O33: a block is invalid, met in DETECT, an ABORT, or acted on by the state's own rule. -/
theorem trainingBlocksAdvanceThePort : Obligations.TrainingBlocksAdvanceThePort := by
  unfold Obligations.TrainingBlocksAdvanceThePort
  refine ⟨?any, ?detect, ?invalid, ?abort, ?clock, ?lanes, ?deskew, ?equalise, ?rate⟩
  case any => exact fun s u t p b hu => trainingBlockRx_keeps hu
  case detect =>
    intro s u t p b x inv hu hst hb
    rw [trainingBlockRx_takes hu (.inr hst), blockTaken_detect hst hb]
  case invalid =>
    intro s u t p b hu hst hb
    rw [trainingBlockRx_takes hu hst, blockTaken_invalid hb]
  case abort =>
    intro s u t p b x inv hu hlen hst hb hmsg
    rw [trainingBlockRx_takes hu (.inl hst), blockTaken_abort hst hb hmsg]
    obtain ⟨f, n, l, h⟩ := trainFail_port (t := t) (p := p) hlen 6
    exact ⟨_, rfl, by rw [h], by rw [h], by rw [h], by rw [h], by rw [h], by rw [h]⟩
  case clock =>
    exact fun s u t p b x inv hu hlen hst hb hmsg hcode hgood hrx hone => trainingBlockRx_endsClock hu hlen hst hb hmsg hcode hgood hrx hone
  case lanes => exact fun s u t p b x inv hu hlen hst hb hmsg hcode hlead hone => trainingBlockRx_endsLanes hu hlen hst hb hmsg hcode hlead hone
  case deskew =>
    exact fun s u t p b x inv hu hlen hst hb hmsg hcode hlead happlied hone =>
      trainingBlockRx_endsDeskew hu hlen hst hb hmsg hcode hlead happlied hone
  case equalise =>
    exact fun s u t p b x inv hu hlen hst hb hmsg hcode hseen hid hgood hup hone =>
      trainingBlockRx_endsEqualise hu hlen hst hb hmsg hcode hseen hid hgood hup hone
  case rate =>
    exact fun s u t p b x inv fin hu hlen hst hstep hb hmsg hcode hdn hup hacc hone hfin hflags =>
      trainingBlockRx_endsOffer hu hlen hst hstep hb hmsg hcode hdn hup hacc hone hfin hflags

end Sys2Proof.Machine
end

section
/-! The state right after reset (R268, R349, R381). -/

namespace Sys2Proof.Machine

theorem reset_port (p : PortIx) : State.reset.port p = Port.reset := by
  simp only [State.port, State.reset, List.getD_replicate _ p.isLt]

theorem reset_lease (b : Nat) : (State.reset.lease b).holder = none := by
  simp only [State.lease, State.reset, List.getD_eq_getElem?_getD, List.getElem?_replicate]
  split <;> rfl

/-- Settles O56: the store, the log and frame memory are empty, and the ports and leases are copies of one. -/
theorem resetStateIsTheBootState : Obligations.ResetStateIsTheBootState := by
  unfold Obligations.ResetStateIsTheBootState
  exact ⟨rfl, rfl, by decide +kernel, rfl, rfl, fun p => by rw [reset_port]; rfl, reset_lease, fun _ => rfl, rfl, rfl⟩

end Sys2Proof.Machine
end

section
/-! Packets from the host that are acted on with a good length and CRC, and counted else (R297, R302). -/

namespace Sys2Proof.Machine

variable {s u v : State} {p q : PortIx} {t e : Time} {type n : Nat} {body : List Byte}

/-- Taking a packet out of the inbox changes the inbox alone. -/
theorem takeIn_port (h : takeIn u p type body t = (e, v)) (hlen : u.ports.length = 4) : ∃ l, v.port p = { u.port p with inbox := l } := by
  rcases takeIn_eq h with rfl | ⟨f, rfl⟩
  · exact ⟨_, rfl⟩
  · exact ⟨_, State.modPort_port hlen _⟩

theorem takeIn_onlyPort (h : takeIn u p type body t = (e, v)) : OnlyPort p u v := by
  rcases takeIn_eq h with rfl | ⟨f, rfl⟩
  · exact onlyPort_self
  · simp

theorem withBody_acts {f : State → Time → State} (hu : u = s.at t) (hact : (u.port p).tr.st = .active) (htake : takeIn u p type body t = (e, v))
    (hn : body.length = n) (hcrc : crc32Ok body = true) : withBody s p type n body t f = .next (f v e) := by
  rw [withBody, event_due_at hu (by simp [State.portActive, hact])]
  simp only [htake, hn, hcrc, decide_true, Bool.and_self, if_true]

theorem withBody_counts {f : State → Time → State} (hu : u = s.at t) (hact : (u.port p).tr.st = .active) (htake : takeIn u p type body t = (e, v))
    (hbad : body.length ≠ n ∨ crc32Ok body = false) : withBody s p type n body t f = .next (v.bump (aLINK_PKT_ERR p.val) 31 16 1) := by
  have hnot : (decide (body.length = n) && crc32Ok body) = false := by
    rcases hbad with hn | hcrc
    · simp [hn]
    · simp [hcrc]
  rw [withBody, event_due_at hu (by simp [State.portActive, hact])]
  simp only [htake, hnot, Bool.false_eq_true, if_false]

end Sys2Proof.Machine
end

section
/-! A port fails in training, loses its signal, and drops from ACTIVE (R261, R265 to R271, R302). -/

namespace Sys2Proof.Machine

variable {s u v : State} {p : PortIx} {t e : Time} {ppm : Int} {lol : Bool} {body m : List Byte}

/-- A training state that lasts too long fails the attempt, in LANES with a lane missing where one is not found (R269). -/
theorem trainingTimeout_fails (hu : u = s.at t) (hlen : u.ports.length = 4) (hst : training (u.port p).tr.st = true)
    (hlate : (u.port p).tr.entered + trainLimit (u.port p).tr.st ≤ t) :
    ∃ s', exec (.trainingTimeout t p) s = .next s' ∧ (s'.port p).tr.st = .detect ∧
      (s'.port p).tr.reason =
        (if (u.port p).tr.st = .lanes ∧ ((u.port p).tr.lastLeads = [] ∨ ∃ x ∈ (u.port p).tr.lastLeads, 128 ≤ x) then 2 else 1) ∧
      (s'.port p).tr.fails = min 255 ((u.port p).tr.fails + 1) ∧
      (s'.port p).tr.backoffEnd = t + backoff (min 255 ((u.port p).tr.fails + 1)) := by
  rw [show exec (.trainingTimeout t p) s = execTrainingTimeout t p s from rfl, execTrainingTimeout]
  refine ⟨_, event_due_at hu (by simp [hst, hlate]), ?_⟩
  extract_lets r missing
  obtain ⟨f, n, l, h⟩ := trainFail_port (t := t) (p := p) hlen (if missing then 2 else 1)
  rw [h]
  refine ⟨rfl, ?_, rfl, rfl⟩
  exact if_congr (by simp [missing, r]) rfl rfl

/-! ## Loss of signal and of lock -/

theorem losOnset_begins (hu : u = s.at t) :
    exec (.losOnset t p false ppm) s = .next (u.modPhy p (fun y => if y.los then y else { y with los := true, losAt := t })) := by
  rw [show exec (.losOnset t p false ppm) s = execLosOnset t p false ppm s from rfl, execLosOnset]
  exact event_due_at hu rfl

theorem losOnset_notDue (hu : u = s.at t) (hdue : freqDue (u.port p).phy t = false) : exec (.losOnset t p true ppm) s = .next u := by
  rw [show exec (.losOnset t p true ppm) s = execLosOnset t p true ppm s from rfl, execLosOnset, hu]
  exact event_not_due (by simp [← hu, hdue])

/-- The end of an episode clears its mark alone, and counts it where it was short. -/
theorem endLoss_ports : (endLoss s p lol t).ports = (s.modPhy p (fun y => if lol then { y with lol := false } else { y with los := false })).ports := by
  unfold endLoss
  extract_lets short w
  split <;> rfl

/-- What a window of the UCLK measurement leaves in the port: LOL stands exactly where the clock is beyond 1,000 ppm (R265). -/
theorem freqWindow_port (hlen : s.ports.length = 4) : ((freqWindow s p ppm t).port p).tr = (s.port p).tr ∧
    ((freqWindow s p ppm t).port p).phy.freqPpm = ppm ∧ ((freqWindow s p ppm t).port p).phy.freqAt = some t ∧
    ((freqWindow s p ppm t).port p).phy.los = (s.port p).phy.los ∧
    ((freqWindow s p ppm t).port p).phy.lol = decide (1000 < ppm.natAbs) ∧
    ((s.port p).phy.lol = true → ((freqWindow s p ppm t).port p).phy.lolAt = (s.port p).phy.lolAt) ∧
    ((s.port p).phy.lol = false → 1000 < ppm.natAbs → ((freqWindow s p ppm t).port p).phy.lolAt = t) := by
  unfold freqWindow
  extract_lets w
  have hw : w.port p = { s.port p with phy := { (s.port p).phy with freqPpm := ppm, freqAt := some t } } := State.modPhy_port hlen _
  have hwlen : w.ports.length = 4 := (State.modPhy_length _).trans hlen
  by_cases hin : ppm.natAbs ≤ 1000
  · have hend : (endLoss w p true t).port p = { w.port p with phy := { (w.port p).phy with lol := false } } := by
      rw [State.port, endLoss_ports]
      exact State.modPhy_port hwlen _
    cases hl : (s.port p).phy.lol <;> simp [hin, hw, hl, hend]
  · cases hl : (s.port p).phy.lol <;> simp [hin, hw, hl, hwlen] <;> omega

theorem losOnset_measures (hu : u = s.at t) (hdue : freqDue (u.port p).phy t = true) :
    exec (.losOnset t p true ppm) s = .next (freqWindow u p ppm t) := by
  rw [show exec (.losOnset t p true ppm) s = execLosOnset t p true ppm s from rfl, execLosOnset]
  exact event_due_at hu (by simp [hdue])

theorem losClear_signal (hu : u = s.at t) (hlos : (u.port p).phy.los = true) : exec (.losClear t p none) s = .next (endLoss u p false t) := by
  rw [show exec (.losClear t p none) s = execLosClear t p none s from rfl, execLosClear]
  exact event_due_at hu (by simp [hlos])

/-- A loss of signal of no more than 10 µs is counted where the port trains or is in ACTIVE. -/
theorem endLoss_signal (hv : v = u.modPhy p (fun y => { y with los := false })) :
    endLoss u p false t = if t ≤ (u.port p).phy.losAt + 10 * us ∧ clockToActive (v.port p).tr.st = true then v.bump (aLINK_CNT p.val) 31 16 1 else v := by
  simp only [hv, endLoss, lossAt, Bool.false_eq_true, if_false, Bool.and_eq_true, decide_eq_true_eq]

theorem losClear_lock (hu : u = s.at t) (hlol : (u.port p).phy.lol = true) (hdue : freqDue (u.port p).phy t = true) :
    exec (.losClear t p (some ppm)) s = .next (freqWindow u p ppm t) := by
  rw [show exec (.losClear t p (some ppm)) s = execLosClear t p (some ppm) s from rfl, execLosClear]
  exact event_due_at hu (by simp [hlol, hdue])

/-- While LOL stands, a window within 1,000 ppm ends it, and one beyond leaves it. -/
theorem freqWindow_standing (hlol : (u.port p).phy.lol = true) (hv : v = u.modPhy p (fun y => { y with freqPpm := ppm, freqAt := some t })) :
    (ppm.natAbs ≤ 1000 → freqWindow u p ppm t = endLoss v p true t) ∧
    (1000 < ppm.natAbs → Keeps [.ports] u (freqWindow u p ppm t) ∧ ((freqWindow u p ppm t).port p).phy = (v.port p).phy) := by
  have hin : p.val < u.ports.length := port_exists fun h => absurd hlol (by simp [h, Port.reset, Phy.reset])
  have hvin : p.val < v.ports.length := by simpa [hv, State.modPhy] using hin
  have hvlol : (v.port p).phy.lol = true := by
    rw [hv, State.modPhy, State.modPort_port_self hin]
    exact hlol
  unfold freqWindow
  rw [← hv]
  refine ⟨fun h => by simp [h, hvlol], fun h => ?_⟩
  rw [if_neg (by omega)]
  refine ⟨?_, ?_⟩
  · have h : Within [.ports] u (v.modPhy p (fun y => if y.lol then y else { y with lol := true, lolAt := t })) := by simp [hv]
    exact h.1
  · rw [State.modPhy, State.modPort_port_self hvin]
    simp [hvlol]

/-- A loss that lasts 10 µs fails the attempt or drops the port (R266, R268). -/
theorem losFailure_fails (hu : u = s.at t) (hlen : u.ports.length = 4) (hstands : (if lol then (u.port p).phy.lol else (u.port p).phy.los) = true)
    (hst : clockToActive (u.port p).tr.st = true) (hlate : lossAt (u.port p).phy lol + 10 * us ≤ t) :
    ∃ s', exec (.losFailure t p lol) s = .next s' ∧ (s'.port p).tr.st = .detect ∧ (s'.port p).tr.reason = (if lol then 8 else 7) ∧
      s'.leases = u.leases ∧
      ((u.port p).tr.st = .active → (s'.port p).tr.fails = (u.port p).tr.fails ∧ (s'.port p).dropAt = some t) ∧
      ((u.port p).tr.st ≠ .active → (s'.port p).tr.fails = min 255 ((u.port p).tr.fails + 1)) := by
  rw [show exec (.losFailure t p lol) s = execLosFailure t p lol s from rfl, execLosFailure]
  refine ⟨_, event_due_at hu (by simp [hstands, hst, hlate]), ?_⟩
  generalize (if lol then 8 else 7) = reason
  have hleases : (failPort u p reason t).leases = u.leases := by
    have h : Within (Part.but [.leases]) u (failPort u p reason t) := by simp
    exact h.1.2 .leases (by simp)
  by_cases hact : (u.port p).tr.st = .active
  · obtain ⟨hdrop, hdet, hwhy, hfails⟩ := dropPort_port (t := t) (p := p) hlen reason
    have hfail : failPort u p reason t = dropPort u p reason t := by simp [failPort, State.portActive, hact]
    rw [hfail] at hleases ⊢
    exact ⟨hdet, hwhy, hleases, fun _ => ⟨hfails, hdrop⟩, fun h => absurd hact h⟩
  · obtain ⟨f, n, l, h⟩ := trainFail_port (t := t) (p := p) hlen reason
    have hfail : failPort u p reason t = trainFail u p reason t := by simp [failPort, State.portActive, hact]
    rw [hfail] at hleases ⊢
    rw [h]
    exact ⟨rfl, rfl, hleases, fun h => absurd h hact, fun _ => rfl⟩

/-! ## ABORT, and markers that fail -/

theorem dropPort_leases (reason : Nat) : (dropPort u p reason t).leases = u.leases := by
  have h : Within (Part.but [.leases]) u (dropPort u p reason t) := by simp
  exact h.1.2 .leases (by simp)

/-- A TRAIN cell with ABORT drops the port, another is a protocol error (R270, R302). -/
theorem trainCell_acts (hu : u = s.at t) (hlen : u.ports.length = 4) (hact : (u.port p).tr.st = .active) (htake : takeIn u p tTRAIN body t = (e, v)) :
    (body.length = 8 → crc32Ok body = true → u8 body 0 = 0x0F → ∃ s', exec (.trainCell t p body) s = .next s' ∧ (s'.port p).tr.st = .detect ∧
      (s'.port p).tr.reason = 6 ∧ (s'.port p).dropAt = some e ∧ s'.leases = u.leases) ∧
    (body.length = 8 → crc32Ok body = true → u8 body 0 ≠ 0x0F → exec (.trainCell t p body) s = .next (proto v p)) ∧
    ((body.length ≠ 8 ∨ crc32Ok body = false) → exec (.trainCell t p body) s = .next (v.bump (aLINK_PKT_ERR p.val) 31 16 1)) := by
  rw [show exec (.trainCell t p body) s = execTrainCell t p body s from rfl, execTrainCell]
  refine ⟨fun hn hcrc habort => ?_, fun hn hcrc hother => ?_, fun hbad => withBody_counts hu hact htake hbad⟩
  · refine ⟨_, withBody_acts hu hact htake hn hcrc, ?_⟩
    have hvlen : v.ports.length = 4 := (takeIn_onlyPort htake).length.trans hlen
    have hleases : v.leases = u.leases := by
      rcases takeIn_eq htake with rfl | ⟨f, rfl⟩ <;> rfl
    obtain ⟨hdrop, hdet, hwhy, -⟩ := dropPort_port (t := e) (p := p) hvlen 6
    rw [if_pos habort, dropPort_leases]
    exact ⟨hdet, hwhy, hdrop, hleases⟩
  · rw [withBody_acts hu hact htake hn hcrc, if_neg hother]

/-- The third bad marker in a row drops an ACTIVE port (R261). -/
theorem alignmentMarkerRx_third (hu : u = s.at t) (hlen : u.ports.length = 4) (hact : (u.port p).tr.st = .active) (hcw : 256 ≤ (u.port p).lt.cwUp)
    (hbad : markerOk (u.port p) m = false) (htwo : 2 ≤ (u.port p).lt.amBad) :
    ∃ s', exec (.alignmentMarkerRx t p m) s = .next s' ∧ (s'.port p).tr.st = .detect ∧ (s'.port p).tr.reason = 9 ∧ (s'.port p).dropAt = some t := by
  rw [show exec (.alignmentMarkerRx t p m) s = execAlignmentMarkerRx t p m s from rfl, execAlignmentMarkerRx]
  refine ⟨_, event_due_at hu (by simp [markerUp, marking, hact, hcw]), ?_⟩
  simp only [hbad, Bool.false_eq_true, if_false]
  generalize hw : (u.bump (aLINK_CNT p.val) 15 8 1).modPort p _ = w
  have hport : w.port p = { u.port p with rxY := 0, lt := { (u.port p).lt with amBad := (u.port p).lt.amBad + 1, cwUp := 0 } } := by
    rw [← hw]
    exact State.modPort_port hlen _
  have hwlen : w.ports.length = 4 := by rw [← hw, State.modPort_length]; exact hlen
  have hthird : 3 ≤ (w.port p).lt.amBad ∧ w.portActive p := by simp [State.portActive, hport, hact, htwo]
  rw [if_pos hthird]
  obtain ⟨hdrop, hdet, hwhy, -⟩ := dropPort_port (s := w.modPort p (fun q => { q with lt := { q.lt with amBad := 0 } })) (p := p) (t := t)
    ((State.modPort_length _).trans hwlen) 9
  exact ⟨hdet, hwhy, hdrop⟩

end Sys2Proof.Machine
end

section
/-! The views of a port whose hold timer has run out give back what they hold (R325). -/

namespace Sys2Proof.Machine

variable {s u r : State} {p : PortIx} {t h : Time} {n m : Nat}

/-- A view that gives back what it holds leaves the others as they are. -/
theorem releaseView_view_other (hnm : m ≠ n) : (releaseView s n).view m = s.view m := by
  unfold releaseView
  extract_lets w freed cleared idle created
  have hfreed : freed.pipe = s.pipe := by
    simp only [freed]
    split <;> rfl
  have hviews : cleared.pipe.views = s.pipe.views := by
    rw [← hfreed]
    exact foldl_keeps (g := fun r : State => r.pipe.views) (fun r (f : VFrame) => (rfl : (removeVf r n f.frame).pipe.views = r.pipe.views)) _
  have hpipe : (if w.p.source ≠ 0 ∧ w.p.order = 1 then releaseAuxStore created (w.p.source - 1) w.p.vc else created).pipe = created.pipe := by
    split
    · exact releaseAuxStore_pipe ..
    · rfl
  rw [view_of_views (congrArg Pipe.views hpipe), modView_view_other hnm, view_of_views (show idle.pipe.views = s.pipe.views from hviews)]

/-- One view at the end of a port's hold timer. -/
def expireOne (p : PortIx) (t : Time) (s : State) (n : Nat) : State :=
  if (s.view n).st = .paused ∧ (s.view n).owner = p then freeDeleted (releaseView s n) n (s.view n).del t else s

theorem expireHold_eq : expireHold s p t = (List.range 16).foldl (expireOne p t) s := rfl

theorem expireOne_idle (hidle : ¬((s.view n).st = .paused ∧ (s.view n).owner = p)) : expireOne p t s n = s := if_neg hidle

theorem freeDeleted_views (del : Bool) : (freeDeleted s n del t).pipe.views.length = s.pipe.views.length ∧
    ∀ m, m ≠ n → (freeDeleted s n del t).view m = s.view m := by
  unfold freeDeleted
  split
  · refine ⟨?_, fun m hm => ?_⟩
    · rw [ringForget_pipe]
      exact modAt_length ..
    · rw [view_of_views (congrArg Pipe.views (ringForget_pipe ..)), modView_view_other hm]
  · exact ⟨rfl, fun _ _ => rfl⟩

theorem expireOne_other (hn : n < s.pipe.views.length) : (expireOne p t s n).pipe.views.length = s.pipe.views.length ∧
    ∀ m, m ≠ n → (expireOne p t s n).view m = s.view m := by
  unfold expireOne
  split
  · obtain ⟨-, hlength, -⟩ := releaseView_view (s := s) n hn
    obtain ⟨hl, hothers⟩ := freeDeleted_views (s := releaseView s n) (t := t) (n := n) (s.view n).del
    exact ⟨hl.trans hlength, fun m hm => (hothers m hm).trans (releaseView_view_other hm)⟩
  · exact ⟨rfl, fun _ _ => rfl⟩

theorem expireOne_frees (hn : n < s.pipe.views.length) (hst : (s.view n).st = .paused) (howner : (s.view n).owner = p) (hdel : (s.view n).del = false) :
    ((expireOne p t s n).view n).st = .created ∧ ((expireOne p t s n).view n).owner = p := by
  rw [expireOne, if_pos ⟨hst, howner⟩, freeDeleted, hdel, if_neg nofun, (releaseView_view n hn).1]
  exact ⟨rfl, howner⟩

/-- What the step at a view keeps of it, the steps at any views keep. -/
theorem expireOnes_keep {Q : View → Prop} (hself : ∀ r : State, r.pipe.views.length = 16 → Q (r.view n) → Q ((expireOne p t r n).view n))
    (l : List Nat) (hl : ∀ m ∈ l, m < 16) (hlen : s.pipe.views.length = 16) (h : Q (s.view n)) :
    (l.foldl (expireOne p t) s).pipe.views.length = 16 ∧ Q ((l.foldl (expireOne p t) s).view n) := by
  induction l generalizing s with
  | nil => exact ⟨hlen, h⟩
  | cons m l ih =>
    obtain ⟨hlength, hothers⟩ := expireOne_other (s := s) (p := p) (t := t) (n := m) (hlen ▸ hl m (by simp))
    refine ih (fun k hk => hl k (by simp [hk])) (hlength.trans hlen) ?_
    by_cases hm : n = m
    · exact hm ▸ hself s hlen h
    · rwa [hothers n hm]

/-- A view of another port is as it was. -/
theorem expireHold_view_other (hlen : s.pipe.views.length = 16) (howner : (s.view n).owner ≠ p) : (expireHold s p t).view n = s.view n := by
  refine (expireOnes_keep (Q := (· = s.view n)) (fun r _ hr => ?_) _ (by simp) hlen rfl).2
  rw [expireOne_idle fun h => howner (hr ▸ h.2), hr]

/-- A paused view of the port that is not being deleted is CREATED again (R325). -/
theorem expireHold_view (hlen : s.pipe.views.length = 16) (hn : n < 16) (hst : (s.view n).st = .paused) (howner : (s.view n).owner = p)
    (hdel : (s.view n).del = false) : ((expireHold s p t).view n).st = .created ∧ ((expireHold s p t).view n).owner = p := by
  obtain ⟨before, after, hsplit⟩ := List.append_of_mem (List.mem_range.mpr hn)
  have hall : ∀ m ∈ before ++ n :: after, m < 16 := fun m hm => List.mem_range.mp (hsplit ▸ hm)
  have hfreed : ∀ r : State, r.pipe.views.length = 16 → ((r.view n).st = .created ∧ (r.view n).owner = p) →
      ((expireOne p t r n).view n).st = .created ∧ ((expireOne p t r n).view n).owner = p := fun r _ h => by
    rwa [expireOne_idle (by simp [h.1])]
  have hheld : ∀ r : State, r.pipe.views.length = 16 →
      ((r.view n).st = .paused ∧ (r.view n).owner = p ∧ (r.view n).del = false) ∨ ((r.view n).st = .created ∧ (r.view n).owner = p) →
      ((expireOne p t r n).view n).st = .created ∧ ((expireOne p t r n).view n).owner = p := by
    rintro r hr (⟨h1, h2, h3⟩ | h)
    · exact expireOne_frees (hr ▸ hn) h1 h2 h3
    · exact hfreed r hr h
  rw [expireHold_eq, hsplit, List.foldl_append, List.foldl_cons]
  obtain ⟨hlength, hbefore⟩ := expireOnes_keep (Q := fun w => (w.st = .paused ∧ w.owner = p ∧ w.del = false) ∨ (w.st = .created ∧ w.owner = p))
    (fun r hr h => .inr (hheld r hr h)) before (fun m hm => hall m (by simp [hm])) hlen (.inl ⟨hst, howner, hdel⟩)
  generalize before.foldl (expireOne p t) s = r at hlength hbefore
  exact (expireOnes_keep (Q := fun w => w.st = .created ∧ w.owner = p) hfreed after (fun m hm => hall m (by simp [hm]))
    ((expireOne_other (hlength ▸ hn)).1.trans hlength) (hheld r hlength hbefore)).2

theorem holdExpiry_frees (hu : u = s.at t) (hst : (u.port p).tr.st ≠ .active) (hend : (u.port p).holdEnd = some h) (hlate : h ≤ t) :
    exec (.holdExpiry t p) s = .next (expireHold (u.modPort p (fun q => { q with holdEnd := none })) p t) := by
  rw [show exec (.holdExpiry t p) s = execHoldExpiry t p s from rfl, execHoldExpiry]
  exact event_due_at hu (by simp [State.portActive, hst, hend, hlate])

/-- Settles O34: each way a port fails by the lemma of its event. -/
theorem portsFailAndDrop : Obligations.PortsFailAndDrop := by
  unfold Obligations.PortsFailAndDrop
  refine ⟨fun _ _ _ _ => trainingTimeout_fails, fun _ _ _ _ _ => losOnset_begins, ?_, fun _ _ _ _ _ => losOnset_notDue, ?_, ?_,
    fun _ _ _ _ _ => losFailure_fails, fun _ _ _ _ _ _ _ => trainCell_acts, fun _ _ _ _ _ => alignmentMarkerRx_third, ?_⟩
  · intro s u t p ppm hu hlen hdue
    exact ⟨_, losOnset_measures hu hdue, freqWindow_port hlen⟩
  · intro s u v t p hu hlos hv
    rw [losClear_signal hu hlos, endLoss_signal hv]
  · intro s u v t p ppm hu hlol hdue hv
    obtain ⟨hends, hstands⟩ := freqWindow_standing (t := t) hlol hv
    rw [losClear_lock hu hlol hdue]
    exact ⟨fun h => by rw [hends h], fun h => ⟨_, rfl, hstands h⟩⟩
  · intro s u t h p v hu hlen hviews hst hend hlate
    refine ⟨_, holdExpiry_frees hu hst hend hlate, ?_, fun hp ho hd => expireHold_view hviews v.isLt hp ho hd, fun ho => expireHold_view_other hviews ho⟩
    rw [holdEnd_of_lines lines_expireHold, State.modPort_port hlen]

end Sys2Proof.Machine
end

section
/-! The receiver's measures: CTLE, DFE, sampling phase, PRBS checker (R255, R264, R279, R283). -/

namespace Sys2Proof.Machine

variable {s u : State} {p : PortIx} {t : Time} {rx : List Bool} {n m e st errors : Nat}

/-! ## Equaliser and sampling phase -/

/-- The CTLE search keeps the setting with the greatest height, the first of equals (R255, R279). -/
theorem ctleSettingStep_keepsBest {h : Nat} (hu : u = s.at t) (hlen : u.ports.length = 4) (hst : (u.port p).tr.st = .equalise)
    (htry : (u.port p).phy.ctleTry < 16) (hlate : (u.port p).phy.ctleAt + upSymbols (u.port p).tr.upRate 32768 ≤ t) :
    ∃ s', exec (.ctleSettingStep t p h) s = .next s' ∧ (s'.port p).phy.ctleTry = (u.port p).phy.ctleTry + 1 ∧ (s'.port p).phy.ctleAt = t ∧
      (((u.port p).phy.ctleTry = 0 ∨ (u.port p).phy.ctleBest < min 255 h) →
        (s'.port p).phy.ctle = (u.port p).phy.ctleTry ∧ (s'.port p).phy.eye = min 255 h) ∧
      ((u.port p).phy.ctleTry ≠ 0 → min 255 h ≤ (u.port p).phy.ctleBest →
        (s'.port p).phy.ctle = (u.port p).phy.ctle ∧ (s'.port p).phy.eye = (u.port p).phy.eye) := by
  rw [show exec (.ctleSettingStep t p h) s = execCtleSettingStep t p h s from rfl, execCtleSettingStep]
  refine ⟨_, event_due_at hu (by simp [hst, htry, hlate]), ?_⟩
  simp only [State.modPhy_port hlen]
  refine ⟨trivial, trivial, fun htakes => ?_, fun hlater hless => ?_⟩
  · have htake : (decide ((u.port p).phy.ctleTry = 0) || decide ((u.port p).phy.ctleBest < min 255 h)) = true := by simpa using htakes
    simp only [htake, if_true, and_self]
  · have hkeep : (decide ((u.port p).phy.ctleTry = 0) || decide ((u.port p).phy.ctleBest < min 255 h)) = false := by
      rw [Bool.or_eq_false_iff]
      exact ⟨decide_eq_false hlater, decide_eq_false (by omega)⟩
    simp only [hkeep, Bool.false_eq_true, if_false, and_self]

/-- A tap moves by one step at most and stays in its range. -/
theorem dfeTap_range {k : Nat} {up : Bool} {h M : Int} (hM : M = if k = 0 then 64 else 32) (hlow : -M ≤ h) (hhigh : h < M) :
    (dfeTap k up h - h).natAbs ≤ 1 ∧ -M ≤ dfeTap k up h ∧ dfeTap k up h < M := by
  simp only [dfeTap, ← hM]
  cases up <;> simp only [if_true, Bool.false_eq_true, if_false] <;> omega

/-- Adaptation moves each tap by one step at most, within its range (R255). -/
theorem dfeAdapt_moves {err : Bool} {data : List Bool} (hu : u = s.at t) (hlen : u.ports.length = 4)
    (hst : ((u.port p).tr.st = .equalise ∧ 16 ≤ (u.port p).phy.ctleTry) ∨ (u.port p).tr.st = .rate ∨ (u.port p).tr.st = .active)
    (hlos : (u.port p).phy.los = false) (hlol : (u.port p).phy.lol = false) (hon : u.ctlFld p 12 12 = 0)
    (hinj : (u.port p).test.run = true → (u.port p).test.inj = 0) (hlate : (u.port p).phy.dfeAt + upSymbols (u.port p).tr.upRate 256 ≤ t)
    (hfive : (u.port p).phy.dfe.length = 5)
    (hrange : ∀ k : Nat, k < 5 → -(if k = 0 then 64 else 32) ≤ (u.port p).phy.dfe.getD k 0 ∧ (u.port p).phy.dfe.getD k 0 < (if k = 0 then 64 else 32)) :
    ∃ s', exec (.dfeAdapt t p err data) s = .next s' ∧ (s'.port p).phy.dfe.length = 5 ∧ (s'.port p).tr = (u.port p).tr ∧ (s'.port p).phy.dfeAt = t ∧
      ∀ k : Nat, k < 5 → ((s'.port p).phy.dfe.getD k 0 - (u.port p).phy.dfe.getD k 0).natAbs ≤ 1 ∧
        -(if k = 0 then 64 else 32) ≤ (s'.port p).phy.dfe.getD k 0 ∧ (s'.port p).phy.dfe.getD k 0 < (if k = 0 then 64 else 32) := by
  rw [show exec (.dfeAdapt t p err data) s = execDfeAdapt t p err data s from rfl, execDfeAdapt]
  refine ⟨_, event_due_at hu ?_, ?_⟩
  · have hquiet : ((u.port p).test.run && decide ((u.port p).test.inj ≠ 0)) = false := by
      cases hrun : (u.port p).test.run <;> simp [hinj, hrun]
    simp only [hquiet, hlos, hlol, hon, hlate, Bool.not_false, decide_true, Bool.and_true, Bool.or_eq_true, Bool.and_eq_true, decide_eq_true_eq]
    tauto
  · simp only [State.modPhy_port hlen]
    refine ⟨by simp [hfive], trivial, trivial, fun k hk => ?_⟩
    obtain ⟨hlow, hhigh⟩ := hrange k hk
    rw [getD_map_zipIdx (by omega) _ _ 0]
    exact dfeTap_range rfl hlow hhigh

/-- The sampling phase moves by one step (R255). -/
theorem phaseTrack_steps {later : Bool} (hu : u = s.at t) (hact : (u.port p).tr.st = .active)
    (hlate : (u.port p).phy.phaseAt + upSymbols (u.port p).tr.upRate 1024 ≤ t) :
    exec (.phaseTrack t p later) s = .next (u.modPhy p (fun y => { y with
      phase := (if later then y.phase + 1 else y.phase + 255) % 256, phaseAt := t })) := by
  rw [show exec (.phaseTrack t p later) s = execPhaseTrack t p later s from rfl, execPhaseTrack]
  exact event_due_at hu (by simp [State.portActive, hact, hlate])

/-! ## The PRBS checker (R264, R283) -/

/-- What a window's end leaves in the port: its errors counted, and in EQUALISE (`eq`) the upstream judged by them (R264). -/
def windowEnded (eq : Bool) (fresh errors : Nat) (t : Time) (q : Port) : Port := { q with
  phy := { q.phy with
    upOk := if eq then decide (errors ≤ 83) else q.phy.upOk
    chkBits := q.phy.chkBits + (2 ^ 23 - q.phy.winBits), winBits := 0, winErrs := 0, winAt := t
    chkState := prbsRun (checkPat q) (2 ^ 23 - q.phy.winBits) q.phy.chkState }
  test := { q.test with errors := q.test.errors + (if eq then 0 else fresh) } }

/-- When a window of the checker ends. -/
def windowDue (s : State) (p : PortIx) (t : Time) : Bool := checking (s.port p) && (s.port p).phy.chkSync &&
  (decide ((s.port p).tr.st = .test) || decide (16 ≤ (s.port p).phy.ctleTry)) && decide ((s.port p).phy.winAt + winSpan (s.port p) ≤ t)

theorem execPrbsWindowEnd_eq : execPrbsWindowEnd t p errors s = event s t (fun s => windowDue s p t) (fun s =>
    (s.bump (aLINK_UPERR p.val) 23 0 (errors - (s.port p).phy.winErrs)).modPort p
      (windowEnded (decide ((s.port p).tr.st = .equalise)) (errors - (s.port p).phy.winErrs) errors t)) := rfl

theorem windowDue_of_late (hchk : checking (u.port p) = true) (hsync : (u.port p).phy.chkSync = true)
    (hready : (u.port p).tr.st = .test ∨ 16 ≤ (u.port p).phy.ctleTry) (hlate : (u.port p).phy.winAt + winSpan (u.port p) ≤ t) :
    windowDue u p t = true := by
  simp only [windowDue, hchk, hsync, hlate, decide_true, Bool.and_true, Bool.true_and, Bool.or_eq_true, decide_eq_true_eq]
  exact hready

theorem prbsWindowEnd_counts (hu : u = s.at t) (hdue : windowDue u p t = true) :
    exec (.prbsWindowEnd t p errors) s = .next ((u.bump (aLINK_UPERR p.val) 23 0 (errors - (u.port p).phy.winErrs)).modPort p
      (windowEnded (decide ((u.port p).tr.st = .equalise)) (errors - (u.port p).phy.winErrs) errors t)) := by
  rw [show exec (.prbsWindowEnd t p errors) s = execPrbsWindowEnd t p errors s from rfl, execPrbsWindowEnd_eq]
  exact event_due_at hu hdue

/-- The bits that the checker takes of the next 64: it synchronises where none of them is wrong (R283). -/
theorem prbsSyncAcquired_synchronises (hu : u = s.at t) (hchk : checking (u.port p) = true) (hsync : (u.port p).phy.chkSync = false)
    (hpoly : prbsPoly (checkPat (u.port p)) = (n, m)) (hcheck : prbsCheck n m (prbsLoad (rx.take n)) ((rx.drop n).take 64) 0 = (e, st)) :
    exec (.prbsSyncAcquired t p rx) s = .next (if e = 0 ∧ n + 64 ≤ rx.length then
      u.modPhy p (fun y => { y with chkSync := true, chkState := st, winBits := 0, winErrs := 0, winAt := t }) else u) := by
  rw [show exec (.prbsSyncAcquired t p rx) s = execPrbsSyncAcquired t p rx s from rfl, execPrbsSyncAcquired, event_due_at hu (by simp [hchk, hsync])]
  simp only [hpoly, hcheck]

/-- What 64 checked bits leave in the port: SYNC is lost at 16 errors (R283). -/
def bitsChecked (q : Port) (e st : Nat) : Port := { q with
  phy := { q.phy with
    chkBits := q.phy.chkBits + 64, winBits := q.phy.winBits + 64, winErrs := q.phy.winErrs + e, chkState := st, chkSync := decide (e < 16) }
  test := { q.test with errors := q.test.errors + e, syncLoss := q.test.syncLoss + b2n (decide (16 ≤ e)) } }

theorem prbsSyncLoss_counts (hu : u = s.at t) (hlen : u.ports.length = 4) (hchk : checking (u.port p) = true) (hsync : (u.port p).phy.chkSync = true)
    (hpoly : prbsPoly (checkPat (u.port p)) = (n, m)) (hrx : rx.length = 64) (hcheck : prbsCheck n m (u.port p).phy.chkState rx 0 = (e, st)) :
    ∃ s', exec (.prbsSyncLoss t p rx) s = .next s' ∧ s'.port p = bitsChecked (u.port p) e st := by
  rw [show exec (.prbsSyncLoss t p rx) s = execPrbsSyncLoss t p rx s from rfl, execPrbsSyncLoss]
  refine ⟨_, event_due_at hu (by simp [hchk, hsync, hrx]), ?_⟩
  simp only [hpoly, hcheck]
  have hblen : (u.bump (aLINK_UPERR p.val) 23 0 e).ports.length = 4 := hlen
  have hport : ∀ f, ((u.bump (aLINK_UPERR p.val) 23 0 e).modPort p f).port p = f (u.port p) := fun f => by rw [State.modPort_port hblen, State.bump_port]
  split
  · rw [State.bump_port, hport]
    rfl
  · rw [hport]
    rfl

/-- Settles O35: each measure by the lemma of its event. -/
theorem receiversMeasureAndAdapt : Obligations.ReceiversMeasureAndAdapt := by
  unfold Obligations.ReceiversMeasureAndAdapt
  refine ⟨fun _ _ _ _ _ => ctleSettingStep_keepsBest, fun _ _ _ _ _ _ => dfeAdapt_moves, fun _ _ _ _ _ => phaseTrack_steps, ?_, ?_, ?_⟩
  · intro s u t p errors hu hlen hchk hsync hready hlate
    refine ⟨_, prbsWindowEnd_counts hu (windowDue_of_late hchk hsync hready hlate), ?_⟩
    generalize hfresh : errors - (u.port p).phy.winErrs = fresh
    have hblen : (u.bump (aLINK_UPERR p.val) 23 0 fresh).ports.length = 4 := hlen
    rw [State.modPort_port hblen, State.bump_port]
    refine ⟨rfl, rfl, rfl, rfl, rfl, fun hst => ?_, fun hst => ?_⟩
    · simp only [windowEnded, hst, decide_true, if_true, Nat.add_zero, and_self]
    · simp only [windowEnded, hst, reduceCtorEq, decide_false, Bool.false_eq_true, if_false, and_self]
  · intro s u t p rx n m e st hu hlen hchk hsync hpoly hcheck
    rw [prbsSyncAcquired_synchronises hu hchk hsync hpoly hcheck]
    refine ⟨fun he hn => by rw [if_pos ⟨he, hn⟩], fun hnot => ?_⟩
    rw [if_neg (by omega)]
  · intro s u t p rx n m e st hu hlen hchk hsync hpoly hrx hcheck
    obtain ⟨s', hexec, hport⟩ := prbsSyncLoss_counts hu hlen hchk hsync hpoly hrx hcheck
    refine ⟨s', hexec, ?_⟩
    rw [hport]
    exact ⟨rfl, rfl, rfl, by simp [bitsChecked, b2n]⟩

end Sys2Proof.Machine
end

section
/-! A field written and another left in a register (R21). -/

namespace Sys2Proof.Machine

variable {s : State} {v x hi lo hi' lo' a : Nat}

theorem setBits_eq (v hi lo x : Nat) : setBits v hi lo x =
    2 ^ lo * (2 ^ (hi + 1 - lo) * (v / 2 ^ lo / 2 ^ (hi + 1 - lo)) + x % 2 ^ (hi + 1 - lo)) + v % 2 ^ lo := by
  have hv := Nat.div_add_mod v (2 ^ lo)
  have hd := Nat.div_add_mod (v / 2 ^ lo) (2 ^ (hi + 1 - lo))
  simp only [setBits, bits, Nat.shiftRight_eq_div_pow]
  generalize v / 2 ^ lo / 2 ^ (hi + 1 - lo) = c at *
  generalize v / 2 ^ lo % 2 ^ (hi + 1 - lo) = b at *
  generalize v % 2 ^ lo = r at *
  rw [← hd] at hv
  rw [← hv, Nat.mul_add, Nat.mul_add, Nat.mul_comm b, Nat.mul_comm (x % _)]
  omega

theorem testBit_setBits (h : lo ≤ hi) (i : Nat) : (setBits v hi lo x).testBit i = if lo ≤ i ∧ i ≤ hi then x.testBit (i - lo) else v.testBit i := by
  rw [setBits_eq, Nat.testBit_two_pow_mul_add _ (Nat.mod_lt _ (by positivity)), Nat.testBit_two_pow_mul_add _ (Nat.mod_lt _ (by positivity))]
  by_cases hlow : i < lo
  · rw [if_pos hlow, if_neg (by omega), Nat.testBit_mod_two_pow, decide_eq_true hlow, Bool.true_and]
  · rw [if_neg hlow]
    by_cases hin : i ≤ hi
    · rw [if_pos (by omega), if_pos (by omega), Nat.testBit_mod_two_pow, decide_eq_true (by omega), Bool.true_and]
    · rw [if_neg (by omega), if_neg (by omega), Nat.testBit_div_two_pow, Nat.testBit_div_two_pow]
      congr 1
      omega

theorem testBit_bits (i : Nat) : (bits v hi lo).testBit i = (decide (i < hi + 1 - lo) && v.testBit (lo + i)) := by
  rw [bits, Nat.testBit_mod_two_pow, Nat.testBit_shiftRight]

theorem bits_setBits_same (h : lo ≤ hi) (hhi : hi < 32) : bits (setBits v hi lo x % 2 ^ 32) hi lo = x % 2 ^ (hi + 1 - lo) := by
  refine Nat.eq_of_testBit_eq fun i => ?_
  rw [testBit_bits, Nat.testBit_mod_two_pow, Nat.testBit_mod_two_pow, testBit_setBits h]
  by_cases hi' : i < hi + 1 - lo
  · simp only [hi', show lo + i < 32 by omega, show lo ≤ lo + i ∧ lo + i ≤ hi by omega, decide_true, Bool.true_and, and_self, if_true,
      Nat.add_sub_cancel_left]
  · simp [hi']

theorem bits_setBits_other (h : lo ≤ hi) (hhi : hi' < 32) (hapart : hi < lo' ∨ hi' < lo) :
    bits (setBits v hi lo x % 2 ^ 32) hi' lo' = bits v hi' lo' := by
  refine Nat.eq_of_testBit_eq fun i => ?_
  rw [testBit_bits, testBit_bits, Nat.testBit_mod_two_pow, testBit_setBits h]
  by_cases hi'' : i < hi' + 1 - lo'
  · simp only [hi'', show lo' + i < 32 by omega, show ¬(lo ≤ lo' + i ∧ lo' + i ≤ hi) by omega, decide_true, Bool.true_and, if_false]
  · simp [hi'']

theorem rising_setFld (hs : Rising s.regs) (v : Nat) : Rising (s.setFld a hi lo v).regs := rising_storePut hs _ _ _

theorem reg_setFld (hs : Rising s.regs) (v : Nat) : (s.setFld a hi lo v).reg a = setBits (s.reg a) hi lo v % 2 ^ 32 := by
  rw [State.reg, State.setFld, State.setReg_regs, storeGet_storePut_self _ _ _ _ hs]

theorem fld_setFld_same (hs : Rising s.regs) (h : lo ≤ hi) (hhi : hi < 32) (v : Nat) :
    (s.setFld a hi lo v).fld a hi lo = v % 2 ^ (hi + 1 - lo) := by
  rw [State.fld, reg_setFld hs, bits_setBits_same h hhi]

theorem fld_setFld_other (hs : Rising s.regs) (h : lo ≤ hi) (hhi : hi' < 32) (hapart : hi < lo' ∨ hi' < lo) (v : Nat) :
    (s.setFld a hi lo v).fld a hi' lo' = s.fld a hi' lo' := by
  rw [State.fld, reg_setFld hs, bits_setBits_other h hhi hapart, State.fld]

theorem fld_lt : s.fld a hi lo < 2 ^ (hi + 1 - lo) := Nat.mod_lt _ (by positivity)

end Sys2Proof.Machine
end

section
/-! What a port's way to QUIET leaves in the registers: all but its random offset, the drops of its views and the count of notifications that find no
place (R268, R312). -/

namespace Sys2Proof.Machine

variable {s : State} {p q : PortIx} {t : Time} {a : Nat}

/-- An exit from ACTIVE step by step: the random offset, the bulk answer, the late answers, the views, the port itself, the other ports. -/
theorem leaveActive_chain (st : PortSt) (reason : Nat) (drop : Bool) : ∃ n f, leaveActive s p st reason drop t =
    notifyLinkOthers ((pauseViews (excusePort (abortBulk ((drawFree s).2.bumpWrap (aLINK_WOFF p.val) 31 0 n) p t) p) p t).modPort p f) p reason t :=
  ⟨_, _, rfl⟩

section
variable (hbox : a ≠ aSYS_MBX_ERR)
include hbox

theorem RegKept.notifyLinkOthers (reason : Nat) : RegKept a s (notifyLinkOthers s p reason t) :=
  .foldl (fun _ _ => .ite (.notifyDue hbox _ _ _ _ _) .refl) _

theorem RegKept.missFrame {v : Nat} (hdrop : a ≠ aPIPE_VDROP v) (frame reason : Nat) : RegKept a s (missFrame s v frame reason t) := by
  unfold Machine.missFrame
  extract_lets counted w now missed
  have hcounted : RegKept a s counted := .ite .refl (.bump hdrop _ _ _)
  have hmissed : RegKept a s missed := hcounted.trans (.of_regs rfl)
  exact .ite (hmissed.trans ((RegKept.notifyDue hbox _ _ _ _ _).trans (.of_regs rfl))) hmissed

theorem RegKept.pauseViews (hdrop : ∀ v, v < 16 → a ≠ aPIPE_VDROP v) : RegKept a s (pauseViews s p t) := by
  refine .after (.foldl_mem fun r v hv => .ite ?_ .refl) (by rfl)
  refine RegKept.trans (.of_within ?_) (.foldl (fun _ _ => .missFrame hbox (hdrop v (List.mem_range.mp hv)) _ _) _)
  simp

theorem RegKept.leaveActive (hwoff : a ≠ aLINK_WOFF p.val) (hdrop : ∀ v, v < 16 → a ≠ aPIPE_VDROP v) (st : PortSt) (reason : Nat) (drop : Bool) :
    RegKept a s (leaveActive s p st reason drop t) := by
  obtain ⟨n, f, h⟩ := leaveActive_chain (s := s) (p := p) (t := t) st reason drop
  have hdrawn : RegKept a s ((drawFree s).2.bumpWrap (aLINK_WOFF p.val) 31 0 n) :=
    (RegKept.of_regs (s' := (drawFree s).2) rfl).trans (.setReg hwoff _)
  have hexcused : ∀ r : State, RegKept a r (excusePort (abortBulk r p t) p) := fun r => .of_within (by simp)
  have hpaused : ∀ w : State, RegKept a w ((Machine.pauseViews w p t).modPort p f) := fun w =>
    (RegKept.pauseViews hbox hdrop).trans (.of_regs (State.modPort_regs _ p f))
  rw [h]
  exact ((hdrawn.trans (hexcused _)).trans (hpaused _)).trans (.notifyLinkOthers hbox _)

theorem RegKept.quietPort (hwoff : a ≠ aLINK_WOFF p.val) (hdrop : ∀ v, v < 16 → a ≠ aPIPE_VDROP v) : RegKept a s (quietPort s p t) :=
  RegKept.trans (.ite (.leaveActive hbox hwoff hdrop _ _ _) .refl) (.of_regs rfl)

end

end Sys2Proof.Machine
end

section
/-! LINK_STATUS and SET_LINK_RATE (R268, R284, R286, R287). -/

namespace Sys2Proof.Machine

variable {s u : State} {c : Call} {p q : PortIx} {t : Time} {dn up f : Nat}

theorem portIx_val (p : PortIx) : portIx p.val = p := Fin.ofNat_val_eq_self p

/-- A host may set its own port, and a SAFETY host any (R284, R286). -/
theorem ownOrSafety_none (hsrc : c.src = .port p) (h : p ≠ q → portRole u p = .safety) : ownOrSafety u c q.val = none := by
  simp only [ownOrSafety, hsrc]
  by_cases hpq : p = q
  · rw [if_pos (congrArg Fin.val hpq)]
  · rw [if_neg fun h' => hpq (Fin.ext h')]
    exact need_true (decide_eq_true (h hpq))

/-! ## LINK_STATUS -/

theorem linkStatus_reads (hu : u = s.at c.start) (hready : Ready u c 0x0800) (hpl : c.payload = [byte p.val, 0, 0, 0]) :
    ∃ pl, exec (.linkStatus c) s = .next (okWith u c 0x0800 .fast pl) ∧ pl.length = 32 ∧ u8 pl 0 = p.val ∧
      u8 pl 1 = (u.port p).tr.st.code ∧ u8 pl 2 = (u.port p).tr.dnRate % 256 ∧ u8 pl 3 = (u.port p).tr.upRate % 256 ∧
      u8 pl 5 = (u.port p).tr.fails % 256 ∧ u32 pl 20 = u.fld (aLINK_CNT p.val) 31 16 ∧ u32 pl 24 = u.fld (aLINK_CNT p.val) 15 8 := by
  obtain ⟨hserved, harg⟩ := hready
  have hport : u8 c.payload 0 = p.val := by
    rw [hpl]
    exact toNat_byte_of_lt (by omega)
  have hbyte : ∀ n, (byte n).toNat = n % 256 := fun n => by simp [byte]
  have hhigh : u.fld (aLINK_CNT p.val) 31 16 < 2 ^ 16 := fld_lt
  have hlow : u.fld (aLINK_CNT p.val) 15 8 < 2 ^ 8 := fld_lt
  rw [show exec (.linkStatus c) s = execLinkStatus c s from rfl, execLinkStatus, hport]
  subst hu
  refine ⟨_, command_acts hserved ?_ nofun, by simp, ?_, ?_, ?_, ?_, ?_, ?_, ?_⟩
  · simp only [List.forall_mem_cons, argOk_eq_none]
    exact ⟨need_true (by simp [hpl]), harg, decide_eq_true p.isLt, by rw [hpl]; rfl, nofun⟩
  all_goals rw [portIx_val]
  · exact toNat_byte_of_lt (by omega)
  · show (byte _).toNat = _
    cases ((s.at c.start).port p).tr.st <;> rfl
  · exact hbyte _
  · exact hbyte _
  · exact hbyte _
  · simp [u32, slice_cons, slice_skip, slice_here, leVal_leBytes]
    omega
  · simp [u32, slice_cons, slice_skip, slice_here, leVal_leBytes]
    omega

/-! ## SET_LINK_RATE -/

/-- The settings of a port that SET_LINK_RATE stores (R286). -/
def rateStored (s : State) (q : PortIx) (dn up f : Nat) : State :=
  ((((s.setFld (aLINK_CTL q.val) 5 4 dn).setFld (aLINK_CTL q.val) 8 8 up).setFld (aLINK_CTL q.val) 10 10 (b2n (bit f 1))).setFld (aLINK_CTL q.val) 11 11
    (b2n (bit f 2))).setFld (aLINK_CTL q.val) 0 0 (b2n (bit f 0))

theorem b2n_mod (b : Bool) : b2n b % 2 = b2n b := by cases b <;> rfl

theorem rateStored_fields (hs : Rising s.regs) (hdn : dn ≤ 3) (hup : up ≤ 1) : Rising (rateStored s q dn up f).regs ∧
    (rateStored s q dn up f).ctlFld q 5 4 = dn ∧ (rateStored s q dn up f).ctlFld q 8 8 = up ∧
    (rateStored s q dn up f).ctlFld q 0 0 = b2n (bit f 0) ∧ (rateStored s q dn up f).ctlFld q 10 10 = b2n (bit f 1) ∧
    (rateStored s q dn up f).ctlFld q 11 11 = b2n (bit f 2) := by
  unfold rateStored State.ctlFld
  generalize aLINK_CTL q.val = a
  have h1 := rising_setFld (a := a) (hi := 5) (lo := 4) hs dn
  have h2 := rising_setFld (a := a) (hi := 8) (lo := 8) h1 up
  have h3 := rising_setFld (a := a) (hi := 10) (lo := 10) h2 (b2n (bit f 1))
  have h4 := rising_setFld (a := a) (hi := 11) (lo := 11) h3 (b2n (bit f 2))
  refine ⟨rising_setFld h4 _, ?_, ?_, ?_, ?_, ?_⟩
  · rw [fld_setFld_other h4, fld_setFld_other h3, fld_setFld_other h2, fld_setFld_other h1, fld_setFld_same hs] <;> omega
  · rw [fld_setFld_other h4, fld_setFld_other h3, fld_setFld_other h2, fld_setFld_same h1] <;> omega
  · rw [fld_setFld_same h4 (le_refl 0) (by omega)]
    exact b2n_mod _
  · rw [fld_setFld_other h4 (le_refl 0) (by omega) (by omega), fld_setFld_other h3 (le_refl 11) (by omega) (by omega),
      fld_setFld_same h2 (le_refl 10) (by omega)]
    exact b2n_mod _
  · rw [fld_setFld_other h4 (le_refl 0) (by omega) (by omega), fld_setFld_same h3 (le_refl 11) (by omega)]
    exact b2n_mod _

/-- A port that is enabled leaves QUIET, and is not changed otherwise (R268). -/
theorem enablePort_keeps (hlen : s.ports.length = 4) : (enablePort s p t).regs = s.regs ∧ (enablePort s p t).ports.length = 4 ∧
    ((enablePort s p t).port p).tr.fails = (s.port p).tr.fails ∧ ((enablePort s p t).port p).tr.fall = (s.port p).tr.fall ∧
    ((s.port p).tr.st ≠ .quiet → ((enablePort s p t).port p).tr.st = (s.port p).tr.st) := by
  unfold enablePort
  split
  · next h =>
    have hquiet : (s.port p).tr.st = .quiet := by simp only [Bool.and_eq_true, decide_eq_true_eq] at h; exact h.1.1
    simp [hlen, hquiet, State.modTr]
  · exact ⟨rfl, hlen, rfl, rfl, fun _ => rfl⟩

/-- A wanted change of rate is noted in the port's training. -/
theorem wantChange_keeps (hlen : s.ports.length = 4) (due : Option Time) (by_ : Option (PortIx × BitVec 16)) :
    (wantChange s p due by_).regs = s.regs ∧ ((wantChange s p due by_).port p).tr.fails = (s.port p).tr.fails ∧
    ((wantChange s p due by_).port p).tr.fall = (s.port p).tr.fall ∧ ((wantChange s p due by_).port p).tr.st = (s.port p).tr.st := by
  unfold wantChange
  split
  · rw [State.modTr_port hlen]
    exact ⟨rfl, rfl, rfl, rfl⟩
  · exact ⟨rfl, rfl, rfl, rfl⟩

/-- What SET_LINK_RATE does once its answer is queued: the port is enabled, and may change its rate, or goes to QUIET. -/
def rateFollows (s : State) (q : PortIx) (f : Nat) (who : PortIx × BitVec 16) (t : Time) : State :=
  if bit f 0 then (if bit f 3 then wantChange (enablePort s q t) q none (some who) else enablePort s q t) else quietPort s q t

theorem rateFollows_keeps {who : PortIx × BitVec 16} (hlen : s.ports.length = 4) (hfails : (s.port q).tr.fails = 0) (hfall : (s.port q).tr.fall = 3) :
    RegKept (aLINK_CTL q.val) s (rateFollows s q f who t) ∧ ((rateFollows s q f who t).port q).tr.fails = 0 ∧
    ((rateFollows s q f who t).port q).tr.fall = 3 ∧
    (bit f 0 = true → (s.port q).tr.st ≠ .quiet → ((rateFollows s q f who t).port q).tr.st = (s.port q).tr.st) ∧
    (bit f 0 = false → ((rateFollows s q f who t).port q).tr.st = .quiet) := by
  unfold rateFollows
  cases hon : bit f 0 with
  | false =>
    obtain ⟨hst, hquietFails, hquietFall⟩ := quietPort_tr (t := t) (p := q) hlen
    refine ⟨.quietPort (by simp only [aLINK_CTL, aSYS_MBX_ERR]; omega) (by simp only [aLINK_CTL, aLINK_WOFF]; omega)
      (fun v hv => by simp only [aLINK_CTL, aPIPE_VDROP]; omega), hquietFails, hquietFall, nofun, fun _ => hst⟩
  | true =>
    obtain ⟨hregs, hlength, henFails, henFall, henSt⟩ := enablePort_keeps (t := t) (p := q) hlen
    simp only [if_true]
    split
    · obtain ⟨hregs', hwFails, hwFall, hwSt⟩ := wantChange_keeps (p := q) hlength none (some who)
      exact ⟨.of_regs (hregs'.trans hregs), hwFails.trans (henFails.trans hfails), hwFall.trans (henFall.trans hfall),
        fun _ h => hwSt.trans (henSt h), nofun⟩
    · exact ⟨.of_regs hregs, henFails.trans hfails, henFall.trans hfall, fun _ => henSt, nofun⟩

theorem setLinkRate_stores (hu : u = s.at c.start) (hready : Ready u c 0x0802) (hsrc : c.src = .port p)
    (hpl : c.payload = [byte q.val, byte dn, byte up, byte f]) (hdn : dn ≤ 3) (hup : up ≤ 1) (hf : f < 16) (hown : p = q → bit f 0 = true)
    (hrole : p ≠ q → portRole u p = .safety) :
    ∃ who, exec (.setLinkRate c) s = .next (rateFollows
      (okWith ((rateStored u q dn up f).modTr q (fun r => { r with fails := 0, fall := 3 })) c 0x0802 .fast []) q f who c.start) := by
  obtain ⟨hserved, harg⟩ := hready
  have h0 : u8 c.payload 0 = q.val := by
    rw [hpl]
    exact toNat_byte_of_lt (by omega)
  have h1 : u8 c.payload 1 = dn := by
    rw [hpl]
    exact toNat_byte_of_lt (by omega)
  have h2 : u8 c.payload 2 = up := by
    rw [hpl]
    exact toNat_byte_of_lt (by omega)
  have h3 : u8 c.payload 3 = f := by
    rw [hpl]
    exact toNat_byte_of_lt (by omega)
  rw [show exec (.setLinkRate c) s = execSetLinkRate c s from rfl, execSetLinkRate]
  subst hu
  refine ⟨(srcIx c.src, c.tag), (command_acts (cls := .fast) hserved ?_ nofun).trans ?_⟩
  · simp only [List.forall_mem_cons, argOk_eq_none, h0, h1, h2, h3, decide_eq_true_eq]
    refine ⟨need_true (by simp [hpl]), ownOrSafety_none hsrc hrole, harg, q.isLt, hdn, hup, ?_, ?_, nofun⟩
    · rw [reservedBits, argOk_eq_none, h3]
      interval_cases f <;> rfl
    · rw [hsrc, portIx_val]
      by_cases hpq : p = q
      · simp [hown hpq]
      · simp [hpq]
  · simp only [h0, h1, h2, h3, portIx_val]
    rfl

/-- SET_LINK_RATE stores the settings, clears the failures, and enables the port or sends it to QUIET (R268, R286). -/
theorem setLinkRate_sets (hu : u = s.at c.start) (hlen : u.ports.length = 4) (hready : Ready u c 0x0802) (hsrc : c.src = .port p)
    (hpl : c.payload = [byte q.val, byte dn, byte up, byte f]) (hdn : dn ≤ 3) (hup : up ≤ 1) (hf : f < 16) (hown : p = q → bit f 0 = true)
    (hrole : p ≠ q → portRole u p = .safety) (hwf : storeWf u.regs = true) :
    ∃ s', exec (.setLinkRate c) s = .next s' ∧ (s'.port q).tr.fails = 0 ∧ (s'.port q).tr.fall = 3 ∧ s'.ctlFld q 5 4 = dn ∧
      s'.ctlFld q 8 8 = up ∧ s'.ctlFld q 0 0 = b2n (bit f 0) ∧ s'.ctlFld q 10 10 = b2n (bit f 1) ∧ s'.ctlFld q 11 11 = b2n (bit f 2) ∧
      (bit f 0 = true → (u.port q).tr.st ≠ .quiet → (s'.port q).tr.st = (u.port q).tr.st) ∧
      (bit f 0 = false → (s'.port q).tr.st = .quiet) := by
  obtain ⟨who, hexec⟩ := setLinkRate_stores hu hready hsrc hpl hdn hup hf hown hrole
  refine ⟨_, hexec, ?_⟩
  obtain ⟨hrising, hdnFld, hupFld, henFld, hf1, hf2⟩ := rateStored_fields (q := q) (f := f) (rising_of_storeWf hwf) hdn hup
  have hports : (rateStored u q dn up f).ports = u.ports := rfl
  generalize rateStored u q dn up f = r at *
  have hr : r.port q = u.port q := by rw [State.port, hports]; rfl
  have hrlen : r.ports.length = 4 := hports ▸ hlen
  generalize hw : okWith _ c 0x0802 .fast [] = w
  have hlines : lines w = lines (r.modTr q (fun r => { r with fails := 0, fall := 3 })) := by rw [← hw, okWith, lines_respond]
  have hregs : w.regs = r.regs := by
    rw [← hw]
    simp [okWith, respond, hsrc]
  have htr : (w.port q).tr = { (u.port q).tr with fails := 0, fall := 3 } := by rw [tr_of_lines hlines, State.modTr_port hrlen, hr]
  have hwlen : w.ports.length = 4 := by rw [length_of_lines hlines, State.modTr_length, hrlen]
  obtain ⟨hkept, hfails, hfall, hstays, hquiet⟩ := rateFollows_keeps (q := q) (f := f) (who := who) (t := c.start) hwlen (by rw [htr]) (by rw [htr])
  obtain ⟨-, hreg⟩ := hkept (hregs ▸ hrising)
  have hctl : ∀ hi lo, (rateFollows w q f who c.start).ctlFld q hi lo = r.ctlFld q hi lo := fun hi lo => by
    rw [State.ctlFld, State.fld, hreg, State.ctlFld, State.fld, State.reg, hregs]
    rfl
  simp only [hctl]
  exact ⟨hfails, hfall, hdnFld, hupFld, henFld, hf1, hf2, fun hon hst => by simpa [htr] using hstays hon (by rw [htr]; exact hst), hquiet⟩

end Sys2Proof.Machine
end

section
/-! LINK_TEST: its start, its injections, its end (R287, R288). -/

namespace Sys2Proof.Machine

variable {s u : State} {c : Call} {p q : PortIx} {t : Time} {pat fl lanes inj k dur : Nat}

/-! ## Injection -/

/-- One lane of an injection. -/
def injectLane (q : Port) (p : PortIx) (s : State) (k : Nat) : State :=
  if bit q.test.lanes k then
    (s.bump (aLINK_INJ p.val (q.phy.map.getD k k)) 31 0 1).modPort p (fun q => { q with test := { q.test with injected := q.test.injected + 1 } })
  else s

theorem injectLane_port (hlen : s.ports.length = 4) (q : Port) (k : Nat) : (injectLane q p s k).ports.length = 4 ∧ (injectLane q p s k).slow = s.slow ∧
    (injectLane q p s k).port p = { s.port p with test := { (s.port p).test with injected := (s.port p).test.injected + b2n (bit q.test.lanes k) } } := by
  unfold injectLane
  cases bit q.test.lanes k with
  | true =>
    have hbumped : (s.bump (aLINK_INJ p.val (q.phy.map.getD k k)) 31 0 1).ports.length = 4 := hlen
    exact ⟨(State.modPort_length _).trans hbumped, rfl, State.modPort_port hbumped _⟩
  | false => exact ⟨hlen, rfl, rfl⟩

theorem injectLanes_port (q : Port) (l : List Nat) (hlen : s.ports.length = 4) : (l.foldl (injectLane q p) s).ports.length = 4 ∧
    (l.foldl (injectLane q p) s).slow = s.slow ∧ (l.foldl (injectLane q p) s).port p = { s.port p with
      test := { (s.port p).test with injected := (s.port p).test.injected + countIf (fun k => bit q.test.lanes k) l } } := by
  induction l generalizing s with
  | nil => exact ⟨hlen, rfl, rfl⟩
  | cons k l ih =>
    obtain ⟨hlength, hslow, hport⟩ := injectLane_port (p := p) hlen q k
    obtain ⟨hlength', hslow', hport'⟩ := ih hlength
    refine ⟨hlength', hslow'.trans hslow, ?_⟩
    rw [List.foldl_cons, hport', hport]
    cases h : bit q.test.lanes k
    · simp [countIf, h, b2n]
    · simp [countIf, h, b2n]
      omega

/-- An injection counts once per selected lane (R288). -/
theorem inject_port (hlen : s.ports.length = 4) : (inject s p).slow = s.slow ∧ ∃ f, (inject s p).port p = { s.port p with
    test := { (s.port p).test with
      injected := (s.port p).test.injected + countIf (fun k => bit (s.port p).test.lanes k) (List.range 4), flip := f } } := by
  obtain ⟨hlength, hslow, hport⟩ := injectLanes_port (p := p) (s.port p) (List.range 4) hlen
  have heq : inject s p = if (s.port p).tr.st = .active then
      ((List.range 4).foldl (injectLane (s.port p) p) s).modPort p (fun q => { q with test := { q.test with flip := Nat.lor q.test.flip q.test.lanes } })
    else (List.range 4).foldl (injectLane (s.port p) p) s := rfl
  rw [heq]
  split
  · rw [State.modPort_port hlength, hport]
    exact ⟨hslow, _, rfl⟩
  · rw [hport]
    exact ⟨hslow, _, rfl⟩

theorem errorInjection_counts (hu : u = s.at t) (hlen : u.ports.length = 4) (hrun : (u.port p).test.run = true) (hinj : (u.port p).test.inj = 2)
    (hst : (u.port p).tr.st = .active ∨ (u.port p).tr.st = .test)
    (hlate : (u.port p).test.injAt + dnSymbols (u.port p) (2 ^ (u.port p).test.injExp) ≤ t) :
    ∃ s', exec (.errorInjection t p) s = .next s' ∧
      (s'.port p).test.injAt = (u.port p).test.injAt + dnSymbols (u.port p) (2 ^ (u.port p).test.injExp) ∧ (s'.port p).tr = (u.port p).tr ∧
      (s'.port p).test.injected = (u.port p).test.injected + countIf (fun k => bit (u.port p).test.lanes k) (List.range 4) := by
  rw [show exec (.errorInjection t p) s = execErrorInjection t p s from rfl, execErrorInjection]
  refine ⟨_, event_due_at hu (by simp [hrun, hinj, hlate, hst]), ?_⟩
  generalize hw : u.modPort p _ = w
  have hport : w.port p = { u.port p with test := { (u.port p).test with
      injAt := (u.port p).test.injAt + dnSymbols (u.port p) (2 ^ (u.port p).test.injExp) } } := by
    rw [← hw]
    exact State.modPort_port hlen _
  obtain ⟨-, f, h⟩ := inject_port (p := p) (by rw [← hw, State.modPort_length, hlen] : w.ports.length = 4)
  rw [h, hport]
  exact ⟨rfl, rfl, rfl⟩

/-! ## Start -/

/-- A test without a pattern starts its run, and injects where it injects once (R287, R288). -/
theorem beginTest_eq (hpat : (s.port p).test.pat = 0) : ∃ g : Port → Port,
    beginTest s p t = (if ((s.modPort p g).port p).test.inj = 1 then inject (s.modPort p g) p else s.modPort p g) ∧
    ∀ q, ∃ y, g q = { q with phy := y, test := { q.test with run := true, endAt := t + q.test.endAt, injAt := t } } := by
  unfold beginTest
  rw [if_pos hpat]
  exact ⟨_, rfl, fun q => ⟨_, rfl⟩⟩

theorem beginTest_port (hlen : s.ports.length = 4) (hpat : (s.port p).test.pat = 0) : (beginTest s p t).slow = s.slow ∧ ∃ y n f,
    (beginTest s p t).port p = { s.port p with
      phy := y
      test := { (s.port p).test with run := true, endAt := t + (s.port p).test.endAt, injAt := t, injected := n, flip := f } } := by
  obtain ⟨g, heq, hg⟩ := beginTest_eq (t := t) hpat
  obtain ⟨y, hy⟩ := hg (s.port p)
  have hport : (s.modPort p g).port p = _ := (State.modPort_port hlen g).trans hy
  have hslow : (s.modPort p g).slow = s.slow := rfl
  rw [heq]
  split
  · obtain ⟨hinjSlow, f, h⟩ := inject_port (p := p) ((State.modPort_length g).trans hlen)
    exact ⟨hinjSlow.trans hslow, y, _, f, by rw [h, hport]⟩
  · exact ⟨hslow, y, _, _, hport⟩

/-- The test that LINK_TEST asks for (R287). -/
def testAsked (c : Call) (pat fl lanes inj k dur : Nat) : LinkTest where
  run := false
  pat := pat
  genDn := bit fl 0
  chkUp := bit fl 1
  lanes := lanes
  inj := inj
  injExp := k
  endAt := dur * ms
  injected := 0
  flip := 0
  injAt := c.start
  syncLoss := 0
  errors := 0
  src := c.src
  tag := c.tag

/-- LINK_TEST is accepted, and the test set up; without a pattern it starts at once (R287). -/
theorem linkTest_accepts (hu : u = s.at c.start) (hready : ReadySlow u c 0x0801) (hsrc : c.src = .port p)
    (hpl : c.payload = [byte q.val, byte pat, byte fl, byte lanes, byte inj, byte k, 0, 0] ++ leBytes 4 dur)
    (hrole : p ≠ q → portRole u p = .safety) (hpat : pat ≤ 3) (hfl : fl ≤ 3) (hnone : pat = 0 → fl = 0) (hlanes : lanes < 16)
    (hinj : inj ≤ 2) (hlow : 10 ≤ k) (hhigh : k ≤ 30) (hone : 1 ≤ dur) (hmost : dur ≤ 60000) (hact : pat = 0 → (u.port q).tr.st = .active)
    (hidle : (u.port q).test.run = false) :
    ∃ v, exec (.linkTest c) s = .next (if pat = 0 then beginTest v q c.start else v) ∧
      v = ((accept u c 0x0801 (50 * ms + dur * ms) q.val).setReg (aLINK_TEST q.val)
        (pat % 4 + 256 * (fl % 4) + 4096 * (lanes % 16) + 131072 * (inj % 4) + 524288 * (k % 32))).modPort q (fun x => { x with
          test := testAsked c pat fl lanes inj k dur }) := by
  obtain ⟨⟨hserved, harg⟩, hbusy⟩ := hready
  have hbyte : ∀ n, n < 256 → (byte n).toNat = n := fun n => toNat_byte_of_lt
  have h0 : u8 c.payload 0 = q.val := by rw [hpl]; exact hbyte _ (by omega)
  have h1 : u8 c.payload 1 = pat := by rw [hpl]; exact hbyte _ (by omega)
  have h2 : u8 c.payload 2 = fl := by rw [hpl]; exact hbyte _ (by omega)
  have h3 : u8 c.payload 3 = lanes := by rw [hpl]; exact hbyte _ (by omega)
  have h4 : u8 c.payload 4 = inj := by rw [hpl]; exact hbyte _ (by omega)
  have h5 : u8 c.payload 5 = k := by rw [hpl]; exact hbyte _ (by omega)
  have h8 : u32 c.payload 8 = dur := by
    rw [hpl, u32, slice_skip (by simp)]
    simp [slice, List.take_of_length_le, leVal_leBytes]
    omega
  have hmask : ∀ n, n ≤ 3 → Nat.land n 0xFC = 0 := by decide
  have hlaneMask : ∀ n, n < 16 → Nat.land n 0xF0 = 0 := by decide
  rw [show exec (.linkTest c) s = execLinkTest c s from rfl, execLinkTest]
  subst hu
  refine ⟨_, (command_acts (cls := .slow) hserved ?_ fun _ => hbusy).trans ?_, rfl⟩
  · simp only [List.forall_mem_cons, argOk_eq_none, reservedBits, h0, h1, h2, h3, h4, h5, h8, decide_eq_true_eq, Bool.or_eq_true, Bool.and_eq_true, portIx_val]
    refine ⟨need_true (by simp [hpl]), ownOrSafety_none hsrc hrole, harg, q.isLt, hpat, hmask fl hfl, ?_, hlaneMask lanes hlanes, hinj, ⟨hlow, hhigh⟩, ?_,
      ⟨hone, hmost⟩, ?_, ?_, nofun⟩
    · exact (Nat.eq_zero_or_pos pat).symm.imp (by omega) fun h => by rw [hnone h]
    · rw [hpl]
      rfl
    · refine need_true ?_
      by_cases h : pat = 0
      · simp [State.portActive, hact h]
      · simp [h]
    · exact need_true (by simp [hidle])
  · simp only [testOf, testAsked, h0, h1, h2, h3, h4, h5, h8, portIx_val, Nat.mod_eq_of_lt hlanes]

/-- What an accepted LINK_TEST leaves: the job among the SLOW commands, the test as asked, the port's training as it was. -/
theorem linkTest_sets (hu : u = s.at c.start) (hlen : u.ports.length = 4) (hready : ReadySlow u c 0x0801) (hsrc : c.src = .port p)
    (hpl : c.payload = [byte q.val, byte pat, byte fl, byte lanes, byte inj, byte k, 0, 0] ++ leBytes 4 dur)
    (hrole : p ≠ q → portRole u p = .safety) (hpat : pat ≤ 3) (hfl : fl ≤ 3) (hnone : pat = 0 → fl = 0) (hlanes : lanes < 16)
    (hinj : inj ≤ 2) (hlow : 10 ≤ k) (hhigh : k ≤ 30) (hone : 1 ≤ dur) (hmost : dur ≤ 60000) (hact : pat = 0 → (u.port q).tr.st = .active)
    (hidle : (u.port q).test.run = false) :
    ∃ s', exec (.linkTest c) s = .next s' ∧ (s'.port q).test.pat = pat ∧ (s'.port q).test.inj = inj ∧ (s'.port q).test.lanes = lanes ∧
      (s'.port q).test.genDn = bit fl 0 ∧ (s'.port q).test.chkUp = bit fl 1 ∧ (s'.port q).test.injExp = k ∧
      (s'.port q).tr.st = (u.port q).tr.st ∧
      (s'.port q).test.run = decide (pat = 0) ∧ (s'.port q).test.endAt = (if pat = 0 then c.start else 0) + dur * ms ∧
      s'.slow = u.slow ++ [⟨.port p, 0x0801, c.tag, c.stamp + (50 * ms + dur * ms), q.val, some (c.stamp + (50 * ms + dur * ms))⟩] := by
  obtain ⟨v, hexec, hv⟩ := linkTest_accepts hu hready hsrc hpl hrole hpat hfl hnone hlanes hinj hlow hhigh hone hmost hact hidle
  refine ⟨_, hexec, ?_⟩
  generalize hw : (accept u c 0x0801 (50 * ms + dur * ms) q.val).setReg _ _ = w at hv
  have hlines : lines w = lines u := by rw [← hw, lines_setReg, lines_accept]
  have hwlen : w.ports.length = 4 := (length_of_lines hlines).trans hlen
  have hslow : w.slow = u.slow ++ [⟨.port p, 0x0801, c.tag, c.stamp + (50 * ms + dur * ms), q.val, some (c.stamp + (50 * ms + dur * ms))⟩] := by
    rw [← hw]
    simp [accept, respond, hsrc]
  have hvlen : v.ports.length = 4 := by rw [hv, State.modPort_length, hwlen]
  have hport : v.port q = { w.port q with test := testAsked c pat fl lanes inj k dur } := by
    rw [hv]
    exact State.modPort_port hwlen _
  have htr : (v.port q).tr = (u.port q).tr := by
    rw [hport]
    exact tr_of_lines hlines q
  have hvslow : v.slow = w.slow := by rw [hv]; rfl
  by_cases h : pat = 0
  · rw [if_pos h]
    obtain ⟨hslow', y, n, f, hbegun⟩ := beginTest_port (t := c.start) hvlen (by rw [hport]; exact h)
    rw [hbegun]
    refine ⟨?_, ?_, ?_, ?_, ?_, ?_, congrArg Train.st htr, (decide_eq_true h).symm, ?_, (hslow'.trans hvslow).trans hslow⟩
    all_goals simp [hport, testAsked, h]
  · rw [if_neg h]
    refine ⟨?_, ?_, ?_, ?_, ?_, ?_, congrArg Train.st htr, ?_, ?_, hvslow.trans hslow⟩
    all_goals simp [hport, testAsked, h]

/-! ## End -/

/-- What the checker saw until the test's end is counted. -/
def testCounted (s : State) (r : TestEnd) : State :=
  if (s.port r.port).tr.st = .test ∧ (s.port r.port).test.chkUp ∧ (s.port r.port).phy.chkSync then
    (s.bump (aLINK_UPERR r.port.val) 23 0 r.errors).modPort r.port (fun q => { q with
      phy := { q.phy with chkBits := q.phy.chkBits + r.bits }, test := { q.test with errors := q.test.errors + r.errors } })
  else s

theorem testCounted_port {r : TestEnd} (hlen : s.ports.length = 4) : (testCounted s r).ports.length = 4 ∧
    ((testCounted s r).port r.port).tr = (s.port r.port).tr ∧ ((testCounted s r).port r.port).test.src = (s.port r.port).test.src := by
  unfold testCounted
  split
  · have hblen : (s.bump (aLINK_UPERR r.port.val) 23 0 r.errors).ports.length = 4 := hlen
    rw [State.modPort_length, State.modPort_port hblen]
    exact ⟨hblen, rfl, rfl⟩
  · exact ⟨hlen, rfl, rfl⟩

/-- A test with a pattern trains its port again as a rate pass (R287). -/
def testOver (s : State) (p : PortIx) (t : Time) : State :=
  let w := s.modPort p (fun q => { q with test := { q.test with run := false, flip := 0 } })
  if (s.port p).tr.st = .test then enterTrain (w.modTr p (fun r => { r with pass := 1 })) p .clock t else w

theorem testOver_port (hlen : s.ports.length = 4) : (testOver s p t).ports.length = 4 ∧ ((testOver s p t).port p).test.run = false ∧
    ((s.port p).tr.st = .test → ((testOver s p t).port p).tr.st = .clock ∧ ((testOver s p t).port p).tr.pass = 1) ∧
    ((s.port p).tr.st ≠ .test → ((testOver s p t).port p).tr.st = (s.port p).tr.st) := by
  unfold testOver
  extract_lets w
  have hwlen : w.ports.length = 4 := (State.modPort_length _).trans hlen
  have hport : w.port p = { s.port p with test := { (s.port p).test with run := false, flip := 0 } } := State.modPort_port hlen _
  split
  · next hst =>
    have hplen : (w.modTr p (fun r => { r with pass := 1 })).ports.length = 4 := (State.modTr_length _).trans hwlen
    obtain ⟨y, l, h⟩ := enterTrain_port (t := t) (p := p) hplen .clock
    rw [h, enterTrain_length, State.modTr_port hwlen, hport]
    exact ⟨hplen, rfl, fun _ => ⟨rfl, rfl⟩, fun hne => absurd hst hne⟩
  · next hst =>
    rw [hport]
    exact ⟨hwlen, rfl, fun h => absurd h hst, fun _ => rfl⟩

/-- A notification queued is the last of its port's. -/
theorem notifyDue_last (hlen : s.ports.length = 4) (code : Nat) (payload : List Byte) (due : Option Time) :
    ∃ n : Note, ((notifyDue s p code payload t due).port p).mbx.notes.getLast? = some n ∧ n.code = code ∧ n.payload = payload := by
  refine ⟨⟨code, (s.port p).mbx.nseq, t, payload, due⟩, ?_, rfl, rfl⟩
  unfold notifyDue
  extract_lets m notes queued
  have hnotes : (queued.port p).mbx.notes = if 16 < notes.length then notes.drop 1 else notes := by
    rw [State.modMbx_mbx_self (by omega)]
  have hport : (if 16 < notes.length then queued.bump aSYS_MBX_ERR 7 0 1 else queued).port p = queued.port p := by split <;> rfl
  rw [hport, hnotes]
  split
  · next hlong => rw [List.getLast?_drop, if_neg (by omega), List.getLast?_concat]
  · exact List.getLast?_concat

/-- The COMPLETE of a port's SLOW command (R341). -/
theorem complete_notifies (hlen : s.ports.length = 4) (op : Nat) (hop : op < 2 ^ 16) (tag : BitVec 16) (st : Status) (result : List Byte) :
    lines (complete s (.port q) op tag st result t) = lines s ∧
    ∃ n : Note, ((complete s (.port q) op tag st result t).port q).mbx.notes.getLast? = some n ∧ n.code = 0x8010 ∧ u16 n.payload 0 = op := by
  unfold complete
  extract_lets payload mine due removed
  obtain ⟨n, hlast, hcode, hpayload⟩ := notifyDue_last (s := removed) (p := q) (t := t) hlen 0x8010 payload due
  refine ⟨lines_notifyDue .., n, hlast, hcode, ?_⟩
  simp only [hpayload, payload, u16, List.append_assoc]
  rw [slice_here (by simp), leVal_leBytes]
  exact Nat.mod_eq_of_lt hop

theorem linkTestEnd_completes {bits errors : Nat} (hu : u = s.at t) (hlen : u.ports.length = 4) (hrun : (u.port p).test.run = true)
    (hlate : (u.port p).test.endAt ≤ t) (hsrc : (u.port p).test.src = .port q) :
    ∃ s', exec (.linkTestEnd t ⟨p, bits, errors⟩) s = .next s' ∧ (s'.port p).test.run = false ∧
      ((u.port p).tr.st = .test → (s'.port p).tr.st = .clock ∧ (s'.port p).tr.pass = 1) ∧
      ((u.port p).tr.st ≠ .test → (s'.port p).tr.st = (u.port p).tr.st) ∧
      ∃ n : Note, (s'.port q).mbx.notes.getLast? = some n ∧ n.code = 0x8010 ∧ u16 n.payload 0 = 0x0801 := by
  obtain ⟨hclen, hctr, hcsrc⟩ := testCounted_port (r := ⟨p, bits, errors⟩) hlen
  obtain ⟨holen, horun, hotest, hoother⟩ := testOver_port (t := t) (p := p) hclen
  rw [show exec (.linkTestEnd t ⟨p, bits, errors⟩) s = execLinkTestEnd t ⟨p, bits, errors⟩ s from rfl, execLinkTestEnd]
  refine ⟨complete (testOver (testCounted u ⟨p, bits, errors⟩) p t) ((testCounted u ⟨p, bits, errors⟩).port p).test.src 0x0801 _ .ok _ t,
    event_due_at hu (by simp [hrun, hlate]), ?_⟩
  rw [hcsrc, hsrc]
  obtain ⟨hlines, hnote⟩ := complete_notifies (q := q) (t := t) holen 0x0801 (by norm_num) _ .ok _
  rw [test_of_lines hlines, tr_of_lines hlines]
  exact ⟨horun, fun h => hotest (hctr ▸ h), fun h => (hoother (hctr ▸ h)).trans (congrArg Train.st hctr), hnote⟩

/-- Settles O36: each command and event by its lemma. -/
theorem linkCommandsAndTests : Obligations.LinkCommandsAndTests := by
  unfold Obligations.LinkCommandsAndTests
  exact ⟨fun _ _ _ _ => linkStatus_reads, fun _ _ _ _ _ _ _ _ => setLinkRate_sets, fun _ _ _ _ _ _ _ _ _ _ _ => linkTest_sets,
    fun _ _ _ _ => errorInjection_counts, fun _ _ _ _ _ _ _ => linkTestEnd_completes⟩

end Sys2Proof.Machine
end

section
/-! Markers of both directions (R259 to R261, R280, R310, R320). -/

namespace Sys2Proof.Machine

variable {s u w : State} {p q : PortIx} {t : Time} {m : List Byte}

/-- A downstream marker takes the next number and is stamped with DTIME (R259, R260, R320). -/
theorem alignmentMarkerTx_numbers (hu : u = s.at t) (hlen : u.ports.length = 4) (hdue : markerDue (u.port p) t = true) :
    ∃ s', exec (.alignmentMarkerTx t p) s = .next s' ∧ Keeps [.ports] u s' ∧
      (s'.port p).lt.txSeq = ((u.port p).lt.txSeq + 1) % 2 ^ 24 ∧ (s'.port p).lt.cwSince = 0 ∧
      (s'.port p).lt.marks = (List.range 4).map (fun k => markerOf k (u.port p).lt.txSeq) ∧
      (s'.port p).lt.dn.head? = some ((u.port p).lt.txSeq, u.dtime t) ∧ (s'.port p).lt.dn.length ≤ 256 ∧
      ((u.port p).tr.st = .active → (u.port p).lt.txSeq % 32 = 0 → (s'.port p).lt.owed = some t) ∧
      ((u.port p).tr.st ≠ .active → (s'.port p).tr.preDn = (u.port p).tr.offPreDn) := by
  rw [show exec (.alignmentMarkerTx t p) s = execAlignmentMarkerTx t p s from rfl, execAlignmentMarkerTx]
  refine ⟨_, event_due_at hu hdue, ?_⟩
  generalize hw : u.modPort p _ = w
  have hwithin : Within [.ports] u w := by simp [← hw]
  refine ⟨hwithin.1, ?_⟩
  rw [← hw, State.modPort_port hlen]
  refine ⟨rfl, rfl, rfl, rfl, List.length_take_le .., fun hst hseq => if_pos ⟨hseq, hst⟩, fun hst => if_neg hst⟩

/-- What a good marker of the host leaves in its port (R260, R261). -/
def markerFollowed (m : List Byte) (d : Nat) (q : Port) : Port := { q with
  rxY := 0
  lt := { q.lt with rxSeq := some (u24 m 9), amBad := 0, cwUp := 0, up := ((u24 m 9, d) :: q.lt.up).take 16 } }

theorem alignmentMarkerRx_good (hu : u = s.at t) (hup : markerUp (u.port p) = true) (hok : markerOk (u.port p) m = true) :
    exec (.alignmentMarkerRx t p m) s = .next ((if (u.port p).tr.st = .active then u else enterActive u p t).modPort p (markerFollowed m (u.dtime t))) := by
  rw [show exec (.alignmentMarkerRx t p m) s = execAlignmentMarkerRx t p m s from rfl, execAlignmentMarkerRx]
  refine (event_due_at hu hup).trans ?_
  simp only [hok, if_true]
  rfl

/-- A bad marker is counted, and breaks the run of codewords (R261). -/
theorem alignmentMarkerRx_bad (hu : u = s.at t) (hlen : u.ports.length = 4) (hup : markerUp (u.port p) = true)
    (hbad : markerOk (u.port p) m = false) (hfew : (u.port p).lt.amBad < 2 ∨ (u.port p).tr.st ≠ .active) :
    exec (.alignmentMarkerRx t p m) s = .next ((u.bump (aLINK_CNT p.val) 15 8 1).modPort p (fun q => { q with
      rxY := 0, lt := { q.lt with amBad := q.lt.amBad + 1, cwUp := 0 } })) := by
  rw [show exec (.alignmentMarkerRx t p m) s = execAlignmentMarkerRx t p m s from rfl, execAlignmentMarkerRx]
  refine (event_due_at hu hup).trans ?_
  simp only [hbad, Bool.false_eq_true, if_false]
  have hblen : (u.bump (aLINK_CNT p.val) 15 8 1).ports.length = 4 := hlen
  rw [if_neg]
  rw [State.portActive, State.modPort_port hblen, State.bump_port]
  simp only [decide_eq_true_eq, not_and_or]
  exact hfew.imp (by omega) id

/-! ## The port enters ACTIVE (R271, R280, R310, R324) -/

theorem lines_endAuth : lines (endAuth s p t) = lines s := rfl

theorem lapsePort_length : (lapsePort s p t).ports.length = s.ports.length := by
  unfold lapsePort
  extract_lets dropped ended
  have hdropped : lines dropped = lines s := by
    refine lines_foldl (fun v b => lines_ite ?_ rfl) _
    split
    · exact lines_dropLease ..
    · exact lines_dropLease ..
  rw [State.modPort_length, length_of_lines (s := dropped) lines_endAuth, length_of_lines hdropped]

theorem lines_withRs (x : ResetSt) : lines { s with rs := x } = lines s := rfl

/-- What the port itself gets when it enters ACTIVE: fresh cells and credits, no failures, no drop standing (R271, R301, R309). What follows leaves the
lines: its views go on unless its hold timer ran out, the hosts are told, and what waited for the port starts. -/
theorem enterActive_lines : ∃ (r : State) (g : Port → Port), r.ports.length = s.ports.length ∧ lines (enterActive s p t) = lines (r.modPort p g) ∧
    ∀ q : Port, (g q).tr.st = .active ∧ (g q).tr.fails = 0 ∧ (g q).cr = Credits.reset ∧ (g q).rel.txSeq = 0 ∧ (g q).rel.rxSeq = 0 ∧
      (g q).dropAt = none := by
  generalize hfinal : enterActive s p t = final
  unfold enterActive at hfinal
  extract_lets q lapsed late held acked at hfinal
  have hlapsed : lapsed.ports.length = s.ports.length := by
    simp only [lapsed]
    split
    · split
      · exact lapsePort_length
      · rfl
    · rfl
  have hheld : held.ports.length = s.ports.length := by
    simp only [held]
    split
    · exact (length_of_lines lines_expireHold).trans hlapsed
    · exact hlapsed
  clear_value held
  obtain ⟨ring, pkts⟩ := resendRing (q.mbx.ring.filter (fun e => !e.acked)) q.rel.nextIdent
  dsimp -zeta only at hfinal
  extract_lets active resumed others told rs dawn auto at hfinal
  have hlines : lines final = lines active := by
    have hresumed : lines resumed = lines active := lines_ite rfl (lines_resumeViews ..)
    clear_value active resumed
    have htold : lines told = lines resumed := (lines_notifyLink ..).trans (lines_notifyLinkOthers ..)
    clear_value told
    have hdawn : lines dawn = lines told := lines_ite ((lines_notify ..).trans (lines_withRs (s := told) _)) rfl
    clear_value dawn
    have hstarted : lines final = lines dawn := by
      rw [← hfinal]
      exact lines_ite ((lines_startProfileView ..).trans (lines_withRs (s := dawn) _)) rfl
    exact hstarted.trans (hdawn.trans (htold.trans hresumed))
  exact ⟨held, _, hheld, hlines, fun q => ⟨rfl, rfl, rfl, rfl, rfl, rfl⟩⟩

theorem rel_of_lines {v : State} (h : lines v = lines w) (p : PortIx) : (v.port p).rel.txSeq = (w.port p).rel.txSeq ∧
    (v.port p).rel.rxSeq = (w.port p).rel.rxSeq :=
  ⟨field_of_lines (fun q => q.rel.txSeq) (fun _ => rfl) h p, field_of_lines (fun q => q.rel.rxSeq) (fun _ => rfl) h p⟩

/-- The host's first marker after GO enters ACTIVE with fresh credits (R280, R310). -/
theorem alignmentMarkerRx_enters (hu : u = s.at t) (hlen : u.ports.length = 4) (hst : (u.port p).tr.st = .rate) (hgo : (u.port p).tr.rateStep = .go)
    (hok : markerOk (u.port p) m = true) :
    ∃ s', exec (.alignmentMarkerRx t p m) s = .next s' ∧ (s'.port p).tr.st = .active ∧ (s'.port p).tr.fails = 0 ∧
      (s'.port p).cr = Credits.reset ∧ (s'.port p).rel.txSeq = 0 ∧ (s'.port p).rel.rxSeq = 0 ∧ (s'.port p).dropAt = none := by
  refine ⟨_, alignmentMarkerRx_good hu (by simp [markerUp, marking, hst, hgo]) hok, ?_⟩
  obtain ⟨r, g, hr, hlines, hg⟩ := enterActive_lines (s := u) (p := p) (t := t)
  obtain ⟨hactive, hfails, hcredits, htx, hrx, hdrop⟩ := hg (r.port p)
  have hrlen : r.ports.length = 4 := hr.trans hlen
  have hport : (r.modPort p g).port p = g (r.port p) := State.modPort_port hrlen g
  have hlength : (enterActive u p t).ports.length = 4 := (length_of_lines hlines).trans ((State.modPort_length g).trans hrlen)
  obtain ⟨htx', hrx'⟩ := rel_of_lines hlines p
  rw [if_neg (by simp [hst]), State.modPort_port hlength]
  simp only [markerFollowed, tr_of_lines hlines, cr_of_lines hlines, dropAt_of_lines hlines, htx', hrx', hport]
  exact ⟨hactive, hfails, hcredits, htx, hrx, hdrop⟩

/-- A good marker in ACTIVE is followed (R260, R261). -/
theorem alignmentMarkerRx_follows (hu : u = s.at t) (hlen : u.ports.length = 4) (hst : (u.port p).tr.st = .active) (hcw : 256 ≤ (u.port p).lt.cwUp)
    (hok : markerOk (u.port p) m = true) :
    ∃ s', exec (.alignmentMarkerRx t p m) s = .next s' ∧ (s'.port p).lt.rxSeq = some (u24 m 9) ∧ (s'.port p).lt.amBad = 0 ∧
      (s'.port p).lt.up.head? = some (u24 m 9, u.dtime t) ∧ (s'.port p).rxY = 0 ∧ (s'.port p).tr = (u.port p).tr := by
  refine ⟨_, alignmentMarkerRx_good hu (by simp [markerUp, marking, hst, hcw]) hok, ?_⟩
  rw [if_pos hst, State.modPort_port hlen]
  exact ⟨rfl, rfl, rfl, rfl, rfl⟩

end Sys2Proof.Machine
end

section
/-! Codewords, and the packets of the host that carry cells' acknowledgement, credits, time and triggers (R293 to R323). -/

namespace Sys2Proof.Machine

variable {s u v w : State} {p q : PortIx} {t e : Time} {body : List Byte} {d : Nat}

/-! ## Codewords (R293) -/

section
variable {levels : List (Fin 4)} {ys vs word : List Nat} {n : Nat}

/-- The port once a codeword's symbols are in. -/
def symbolsIn (ys : List Nat) (q : Port) : Port := { q with rxY := ys.getLastD 0, lt := { q.lt with cwUp := q.lt.cwUp + 1 } }

theorem upstreamCodeword_decodes (hu : u = s.at t) (hst : (u.port p).tr.st = .active) (hlevels : levels.length = 1360) (hcw : (u.port p).lt.cwUp < 256)
    (hys : ys = levels.map (fun y => if (u.port p).phy.upInv then 3 - y.val else y.val))
    (hvs : vs = (if (u.port p).tr.preUp then unprecode (u.port p).rxY ys else ys)) :
    exec (.upstreamCodeword t p levels) s = .next (match gf10.decode 16 (valuesCw vs) with
      | none => ((u.modPort p (symbolsIn ys)).bump (aLINK_FEC_UNC p.val) 31 0 1).modPort p (fun q => { q with unc := (q.unc + 1) % 65536 })
      | some (word, n) => rxCells (if n = 0 then u.modPort p (symbolsIn ys) else
          ((u.modPort p (symbolsIn ys)).bump (aLINK_FEC_CORR p.val) 31 0 1).bump (aLINK_FEC_SYM p.val) 31 0 n) p
          (leBytes 320 (symVal (word.take 256))) t) := by
  subst hys hvs
  rw [show exec (.upstreamCodeword t p levels) s = execUpstreamCodeword t p levels s from rfl, execUpstreamCodeword]
  exact event_due_at hu (by simp [State.portActive, hst, hlevels, hcw])

/-- A codeword that cannot be decoded is counted and delivers nothing (R293). -/
theorem upstreamCodeword_lost (hlen : u.ports.length = 4) : ∃ s',
    s' = ((u.modPort p (symbolsIn ys)).bump (aLINK_FEC_UNC p.val) 31 0 1).modPort p (fun q => { q with unc := (q.unc + 1) % 65536 }) ∧
    Keeps [.regs, .ports] u s' ∧ (s'.port p).unc = ((u.port p).unc + 1) % 65536 ∧ (s'.port p).inbox = (u.port p).inbox ∧
    (s'.port p).rel = (u.port p).rel := by
  generalize hw : (u.modPort p (symbolsIn ys)).bump (aLINK_FEC_UNC p.val) 31 0 1 = w
  have hwlen : w.ports.length = 4 := by
    rw [← hw]
    exact (State.modPort_length _).trans hlen
  have hport : w.port p = symbolsIn ys (u.port p) := by
    rw [← hw, State.bump_port]
    exact State.modPort_port hlen _
  have hwithin : Within [.regs, .ports] u w := by simp [← hw]
  refine ⟨_, rfl, (show Within [.regs, .ports] u (w.modPort p _) by simp [hwithin]).1, ?_⟩
  rw [State.modPort_port hwlen, hport]
  exact ⟨rfl, rfl, rfl⟩

end

/-! ## TIME (R321, R322) -/

/-- A TIME cell that names markers on both sides gives θ and δ. -/
theorem upstreamTimeCell_acts (hu : u = s.at t) (hlen : u.ports.length = 4) (hst : (u.port p).tr.st = .active) (htake : takeIn u p tTIME body t = (e, v)) :
    (∀ dRx dTx : Nat, body.length = 32 → crc32Ok body = true → (u.port p).lt.up.lookup (u32 body 0) = some dRx →
      (u.port p).lt.dn.lookup (u32 body 12) = some dTx →
      ∃ s', exec (.upstreamTimeCell t p body) s = .next s' ∧ (s'.port p).lt.valid = true ∧ (s'.port p).lt.lastCell = e ∧
        (s'.port p).lt.theta = tdivI (diff64 (u64 body 16) dTx - diff64 dRx (u64 body 4)) 2 ∧
        (s'.port p).lt.rtt = diff64 (u64 body 16) dTx + diff64 dRx (u64 body 4)) ∧
    (body.length = 32 → crc32Ok body = true →
      ((u.port p).lt.up.lookup (u32 body 0) = none ∨ (u.port p).lt.dn.lookup (u32 body 12) = none) →
      exec (.upstreamTimeCell t p body) s = .next (proto v p)) ∧
    ((body.length ≠ 32 ∨ crc32Ok body = false) → exec (.upstreamTimeCell t p body) s = .next (v.bump (aLINK_PKT_ERR p.val) 31 16 1)) := by
  rw [show exec (.upstreamTimeCell t p body) s = execUpstreamTimeCell t p body s from rfl, execUpstreamTimeCell]
  obtain ⟨l, hport⟩ := takeIn_port htake hlen
  have hvlen : v.ports.length = 4 := (takeIn_onlyPort htake).length.trans hlen
  have hlt : (v.port p).lt = (u.port p).lt := by rw [hport]
  refine ⟨fun dRx dTx hn hcrc hup hdn => ⟨_, withBody_acts hu hst htake hn hcrc, ?_⟩, fun hn hcrc hmiss => ?_,
    fun hbad => withBody_counts hu hst htake hbad⟩
  · simp only [hlt, hup, hdn]
    rw [State.modPort_port hvlen]
    exact ⟨rfl, rfl, rfl, rfl⟩
  · rw [withBody_acts hu hst htake hn hcrc]
    simp only [hlt]
    split
    · next hup hdn =>
      rcases hmiss with h | h
      · cases h.symm.trans hup
      · cases h.symm.trans hdn
    · rfl

/-! ## Acknowledgements (R303 to R307) -/

/-- The reliable side of every port, but for the queue and the numbers of its bulk packets. -/
def rels (s : State) : List Rel := (lines s).map Port.rel

theorem rels_of_lines (h : lines v = lines u) : rels v = rels u := by rw [rels, rels, h]

theorem rels_changeDue (tag : Nat) (due : Time) : rels (changeDue s p tag due) = rels s := by
  refine foldl_keeps (fun r x => ?_) _
  simp only [rels, lines, List.map_map]
  exact map_modAt_of_proj (by intro _; rfl) _ _

theorem rels_msgAcked (x : RingEntry) : rels (msgAcked s p x t) = rels s := by
  unfold msgAcked
  dsimp only
  split
  · rfl
  · split
    · exact rels_changeDue ..
    · rfl

/-- An acknowledged packet leaves the cells that are out. -/
theorem rels_packetAcked (ident : Nat) : rels (packetAcked s p ident t) = rels s := by
  unfold packetAcked
  split
  · exact (rels_msgAcked _).trans (rels_of_lines (lines_modMbx _))
  · exact rels_of_lines (lines_bulkAcked _)

theorem rel_of_rels {β : Type} (g : Rel → β) (hg : ∀ r : Rel, g { r with bulkq := [], nextIdent := 0 } = g r) (h : rels v = rels u) (p : PortIx) :
    g (v.port p).rel = g (u.port p).rel := by
  have hget : ∀ x : State, (x.port p).line.rel = (rels x).getD p.val Port.reset.line.rel := fun x => by
    rw [Port.line_eq_getD, rels]
    simp only [List.getD_eq_getElem?_getD, List.getElem?_map, Option.getD_map]
  have hrel : (v.port p).line.rel = (u.port p).line.rel := by rw [hget, hget, h]
  rw [← hg (v.port p).rel, ← hg (u.port p).rel]
  exact congrArg g hrel

/-- The first `d` cells that are out are freed, and the packets that end in them acknowledged. -/
def cellsFreed (s : State) (p : PortIx) (ack d : Nat) (t : Time) : State :=
  ((s.port p).rel.out.take d).foldl (fun s c => if c.eop then packetAcked s p c.ident t else s) (unstand (s.modRel p (fun r => { r with
    out := (s.port p).rel.out.drop d, resend := min r.resend ((s.port p).rel.out.drop d).length, lastAck := ack, progressAt := t
    timeouts := 0 })) fLINK_STALL p.val t)

theorem takeAck_eq {ack : Nat} (hd : d = (ack + 256 - (s.port p).rel.lastAck) % 256) : takeAck s p ack t =
    if d = 0 then s else if d ≤ (s.port p).rel.out.length then cellsFreed s p ack d t else if 256 - d ≤ 64 then s else proto s p := by
  subst hd
  rfl

/-- An acknowledgement frees the cells it names (R303). -/
theorem takeAck_frees {ack : Nat} (hlen : s.ports.length = 4) (hd : d = (ack + 256 - (s.port p).rel.lastAck) % 256) (hpos : 1 ≤ d)
    (hout : d ≤ (s.port p).rel.out.length) : ((takeAck s p ack t).port p).rel.out = (s.port p).rel.out.drop d ∧
    ((takeAck s p ack t).port p).rel.lastAck = ack ∧ ((takeAck s p ack t).port p).rel.timeouts = 0 := by
  rw [takeAck_eq hd, if_neg (by omega), if_pos hout, cellsFreed]
  generalize hw : s.modRel p _ = w
  have hrels : rels (((s.port p).rel.out.take d).foldl (fun s c => if c.eop then packetAcked s p c.ident t else s) (unstand w fLINK_STALL p.val t)) =
      rels w := by
    refine (foldl_keeps (fun r c => ?_) _).trans (rels_of_lines (lines_unstand ..))
    split
    · exact rels_packetAcked _
    · rfl
  rw [rel_of_rels Rel.out (by intro _; rfl) hrels, rel_of_rels Rel.lastAck (by intro _; rfl) hrels, rel_of_rels Rel.timeouts (by intro _; rfl) hrels, ← hw,
    State.modRel_port hlen]
  exact ⟨rfl, rfl, rfl⟩

/-- Where the value of an acknowledgement names no cell, it does nothing where it is old and is an error else (R303). -/
theorem takeAck_none {ack : Nat} (hd : d = (ack + 256 - (s.port p).rel.lastAck) % 256) :
    ((d = 0 ∨ ((s.port p).rel.out.length < d ∧ 192 ≤ d)) → takeAck s p ack t = s) ∧
    (d ≠ 0 → (s.port p).rel.out.length < d → d < 192 → takeAck s p ack t = proto s p) := by
  rw [takeAck_eq hd]
  refine ⟨?_, fun hne hout hnew => ?_⟩
  · rintro (h | ⟨hout, hold⟩)
    · rw [if_pos h]
    · rw [if_neg (by omega), if_neg (by omega), if_pos (by omega)]
  · rw [if_neg hne, if_neg (by omega), if_neg (by omega)]

/-- What an ACK packet does, with or without its NAK flag. -/
theorem ack_acts (hu : u = s.at t) (hst : (u.port p).tr.st = .active) (htake : takeIn u p tACK body t = (e, v)) (hn : body.length = 8)
    (hcrc : crc32Ok body = true) : exec (.ack t p body) s = .next (if (ackOk (v.port p).rel (u8 body 0) && bit (u8 body 1) 0) = true then
      takeNak (takeAck v p (u8 body 0) e) p (u8 body 0) e else takeAck v p (u8 body 0) e) := by
  rw [show exec (.ack t p body) s = execAck t p body s from rfl, execAck]
  exact withBody_acts hu hst htake hn hcrc

theorem takeNak_again {ack : Nat} (hlen : s.ports.length = 4) (hback : (s.port p).rel.goBack = none) :
    ((takeNak s p ack t).port p).rel.out = (s.port p).rel.out ∧ ((takeNak s p ack t).port p).rel.resend = (s.port p).rel.out.length ∧
    ((takeNak s p ack t).port p).rel.goBack = some (ack, t) := by
  have hblen : (s.bump (aLINK_REL p.val) 15 8 1).ports.length = 4 := hlen
  simp only [takeNak, State.bump_port, hback, goBack, State.modRel_port hblen]
  exact ⟨trivial, trivial, trivial⟩

end Sys2Proof.Machine
end

section
/-! CREDIT and TRIG, and packets of a wrong length or CRC (R297, R309, R323). -/

namespace Sys2Proof.Machine

variable {s u v w : State} {p q : PortIx} {t e : Time} {body : List Byte}

/-! ## CREDIT (R309) -/

/-- The allowances that a CREDIT with INIT names, before their scale. -/
def creditAllow (body : List Byte) : List Nat := (List.range 16).map (fun v => u8 body (34 + v))

/-- A first INIT with an allowance that its byte does not allow. -/
def creditOver (q : Port) (body : List Byte) : Bool := bit (u8 body 0) 0 && !q.cr.init && (creditAllow body).any (fun a => decide (63 < a))

theorem creditOver_iff {q : Port} : creditOver q body = true ↔
    bit (u8 body 0) 0 = true ∧ q.cr.init = false ∧ ∃ k : Nat, k < 16 ∧ 63 < u8 body (34 + k) := by
  simp [creditOver, creditAllow, and_assoc]

/-- The credits of a port after a CREDIT (R309). -/
def creditTaken (body : List Byte) (c : Credits) : Credits := { c with
  freed := creditCounts body
  allow := if bit (u8 body 0) 0 && !c.init then (creditAllow body).map (fun a => 64 * (a + 1)) else c.allow
  init := c.init || bit (u8 body 0) 0 }

theorem credit_takes (hu : u = s.at t) (hlen : u.ports.length = 4) (hst : (u.port p).tr.st = .active) (htake : takeIn u p tCREDIT body t = (e, v))
    (hn : body.length = 56) (hcrc : crc32Ok body = true) (hok : creditOk (u.port p).cr (creditCounts body) = true)
    (hunder : creditOver (u.port p) body = false) :
    ∃ s', exec (.credit t p body) s = .next s' ∧ (s'.port p).cr = creditTaken body (u.port p).cr := by
  obtain ⟨l, hport⟩ := takeIn_port htake hlen
  have hvlen : v.ports.length = 4 := (takeIn_onlyPort htake).length.trans hlen
  have hcr : (v.port p).cr = (u.port p).cr := by rw [hport]
  rw [show exec (.credit t p body) s = execCredit t p body s from rfl, execCredit]
  refine ⟨_, withBody_acts hu hst htake hn hcrc, ?_⟩
  have hgood : (!creditOk (v.port p).cr (creditCounts body) || creditOver (v.port p) body) = false := by
    rw [creditOver, hcr, hok]
    exact hunder
  simp only [creditOver, creditAllow] at hgood
  simp only [hgood, Bool.false_eq_true, if_false]
  generalize hw : (if (bit (u8 body 0) 0 && (v.port p).cr.init) = true then proto v p else v) = w
  have hwport : w.ports = v.ports := by
    rw [← hw]
    split <;> rfl
  have hwcr : (w.port p).cr = (u.port p).cr := by rw [State.port, hwport]; exact hcr
  rw [State.modPort_port (hwport ▸ hvlen)]
  simp only [hwcr, hcr]
  rfl

theorem credit_refused (hu : u = s.at t) (hlen : u.ports.length = 4) (hst : (u.port p).tr.st = .active) (htake : takeIn u p tCREDIT body t = (e, v))
    (hn : body.length = 56) (hcrc : crc32Ok body = true)
    (hbad : creditOk (u.port p).cr (creditCounts body) = false ∨ creditOver (u.port p) body = true) :
    exec (.credit t p body) s = .next (proto v p) := by
  obtain ⟨l, hport⟩ := takeIn_port htake hlen
  have hcr : (v.port p).cr = (u.port p).cr := by rw [hport]
  rw [show exec (.credit t p body) s = execCredit t p body s from rfl, execCredit, withBody_acts hu hst htake hn hcrc]
  have hrefused : (!creditOk (v.port p).cr (creditCounts body) || creditOver (v.port p) body) = true := by
    rw [creditOver, hcr]
    rcases hbad with h | h
    · rw [h]; rfl
    · rw [← creditOver, h, Bool.or_true]
  simp only [creditOver, creditAllow] at hrefused
  simp only [hrefused, if_true]

/-- A CREDIT gives back what it counts, and the first with INIT sets the allowances; a bad one is ignored whole (R309). -/
theorem credit_acts (hu : u = s.at t) (hlen : u.ports.length = 4) (hst : (u.port p).tr.st = .active) (htake : takeIn u p tCREDIT body t = (e, v))
    (hn : body.length = 56) (hcrc : crc32Ok body = true) :
    ((creditOk (u.port p).cr (creditCounts body) = true ∧ (bit (u8 body 0) 0 = true → (u.port p).cr.init = false →
        ∀ k : Nat, k < 16 → u8 body (34 + k) ≤ 63)) →
      ∃ s', exec (.credit t p body) s = .next s' ∧ (s'.port p).cr.freed = creditCounts body ∧ (s'.port p).cr.sent = (u.port p).cr.sent ∧
        (s'.port p).cr.init = ((u.port p).cr.init || bit (u8 body 0) 0) ∧
        (bit (u8 body 0) 0 = true → (u.port p).cr.init = false →
          ∀ k : Nat, k < 16 → (s'.port p).cr.allow.getD k 0 = 64 * (u8 body (34 + k) + 1)) ∧
        ((bit (u8 body 0) 0 = false ∨ (u.port p).cr.init = true) → (s'.port p).cr.allow = (u.port p).cr.allow)) ∧
    ((creditOk (u.port p).cr (creditCounts body) = false ∨ (bit (u8 body 0) 0 = true ∧ (u.port p).cr.init = false ∧
        ∃ k : Nat, k < 16 ∧ 63 < u8 body (34 + k))) → exec (.credit t p body) s = .next (proto v p)) := by
  refine ⟨?_, fun hbad => credit_refused hu hlen hst htake hn hcrc (hbad.imp_right creditOver_iff.mpr)⟩
  rintro ⟨hok, hallow⟩
  have hunder : creditOver (u.port p) body = false := by
    rw [← Bool.not_eq_true, creditOver_iff]
    rintro ⟨hinit, hfirst, k, hk, hover⟩
    exact absurd (hallow hinit hfirst k hk) (by omega)
  obtain ⟨s', hexec, hcr⟩ := credit_takes hu hlen hst htake hn hcrc hok hunder
  refine ⟨s', hexec, ?_⟩
  rw [hcr]
  refine ⟨rfl, rfl, rfl, fun hinit hfirst k hk => ?_, fun hlater => if_neg ?_⟩
  · simp [creditTaken, creditAllow, hinit, hfirst, List.getD_eq_getElem?_getD, hk]
  · rcases hlater with h | h <;> simp [h]

/-! ## TRIG (R323) -/

/-- What an update of one port leaves in every port. -/
theorem field_of_modPort {β : Type} {f : Port → Port} (g : Port → β) (hg : ∀ q, g (f q) = g q) (q : PortIx) :
    g ((s.modPort p f).port q) = g (s.port q) := by
  have hget : ∀ x : State, g (x.port q) = (x.ports.map g).getD q.val (g Port.reset) := fun x => by
    simp only [State.port, List.getD_eq_getElem?_getD, List.getElem?_map, Option.getD_map]
  rw [hget, hget]
  exact congrArg (fun l : List β => l.getD q.val (g Port.reset)) (map_modAt_of_proj hg _ _)

/-- A packet taken from the inbox leaves the leases' holders. -/
theorem holderAt_takeIn {type b : Nat} {x : Time} (htake : takeIn u p type body t = (e, v)) : holderAt v b x = holderAt u b x := by
  have hlease : ∀ n, v.lease n = u.lease n := fun n => by rcases takeIn_eq htake with rfl | ⟨f, rfl⟩ <;> rfl
  have hlog : v.leaseLog = u.leaseLog := by rcases takeIn_eq htake with rfl | ⟨f, rfl⟩ <;> rfl
  have hdrop : ∀ q : PortIx, (v.port q).dropAt = (u.port q).dropAt := fun q => by
    rcases takeIn_eq htake with rfl | ⟨f, rfl⟩
    · rfl
    · exact field_of_modPort Port.dropAt (by intro _; rfl) q
  have hend : leaseEnd v b x = leaseEnd u b x := by
    unfold leaseEnd
    rw [hlease]
    split
    · rfl
    · rw [hdrop]
  rw [holderAt, holderAt, hlog, holderNow, holderNow, hend, hlease]

theorem trigCell_acts (hu : u = s.at t) (hst : (u.port p).tr.st = .active) (htake : takeIn u p tTRIG body t = (e, v)) (hn : body.length = 8)
    (hcrc : crc32Ok body = true) :
    (u8 body 0 = 0 → exec (.trigCell t p body) s = .next (if holderAt u lARRAY e = some p then cmdTrigger (v.bump (aLINK_TRIG p.val) 15 0 1) e
      else v.bump (aLINK_TRIG p.val) 31 16 1)) ∧
    (u8 body 0 ≠ 0 → exec (.trigCell t p body) s = .next (proto v p)) := by
  rw [show exec (.trigCell t p body) s = execTrigCell t p body s from rfl, execTrigCell, withBody_acts hu hst htake hn hcrc]
  refine ⟨fun h => ?_, fun h => by rw [if_pos h]⟩
  rw [if_neg (not_not.mpr h), holderAt_takeIn htake]

/-! ## Packets of a wrong length or CRC (R297) -/

theorem badPacket_counts {type n : Nat} {i : Instr} (hu : u = s.at t) (hst : (u.port p).tr.st = .active)
    (hi : (type = tACK ∧ n = 8 ∧ i = .ack t p body) ∨ (type = tCREDIT ∧ n = 56 ∧ i = .credit t p body) ∨
      (type = tTRIG ∧ n = 8 ∧ i = .trigCell t p body))
    (htake : takeIn u p type body t = (e, v)) (hbad : body.length ≠ n ∨ crc32Ok body = false) :
    exec i s = .next (v.bump (aLINK_PKT_ERR p.val) 31 16 1) := by
  rcases hi with ⟨rfl, rfl, rfl⟩ | ⟨rfl, rfl, rfl⟩ | ⟨rfl, rfl, rfl⟩
  · rw [show exec (.ack t p body) s = execAck t p body s from rfl, execAck, withBody_counts hu hst htake hbad]
  · rw [show exec (.credit t p body) s = execCredit t p body s from rfl, execCredit, withBody_counts hu hst htake hbad]
  · rw [show exec (.trigCell t p body) s = execTrigCell t p body s from rfl, execTrigCell, withBody_counts hu hst htake hbad]

/-- Settles O37: each marker, codeword and packet by the lemma of its event. -/
theorem markersAndCellsAct : Obligations.MarkersAndCellsAct := by
  unfold Obligations.MarkersAndCellsAct
  refine ⟨fun _ _ _ _ => alignmentMarkerTx_numbers, fun _ _ _ _ _ => alignmentMarkerRx_follows, fun _ _ _ _ _ => alignmentMarkerRx_enters,
    fun _ _ _ _ _ => alignmentMarkerRx_bad, fun _ _ _ _ _ _ _ => upstreamTimeCell_acts, ?undecodable, ?decoded, ?ack, ?nak,
    fun _ _ _ _ _ _ _ => credit_acts, fun _ _ _ _ _ _ _ => trigCell_acts, fun _ _ _ _ _ _ _ _ _ _ => badPacket_counts⟩
  case undecodable =>
    intro s u t p levels ys vs hu hlen hst hlevels hcw hys hvs hnone
    obtain ⟨s', hs', h⟩ := upstreamCodeword_lost (p := p) (ys := ys) hlen
    refine ⟨s', ?_, h⟩
    rw [upstreamCodeword_decodes hu hst hlevels hcw hys hvs, hnone, hs']
  case decoded =>
    intro s u v t p levels ys vs w n hu hst hlevels hcw hys hvs hsome hv
    rw [upstreamCodeword_decodes hu hst hlevels hcw hys hvs, hsome, hv]
    rfl
  case ack =>
    intro s u v t e p body d hu hlen hst htake hn hcrc hack hd
    obtain ⟨l, hport⟩ := takeIn_port htake hlen
    have hvlen : v.ports.length = 4 := (takeIn_onlyPort htake).length.trans hlen
    have hrel : (v.port p).rel = (u.port p).rel := by rw [hport]
    rw [← hrel] at hd ⊢
    rw [ack_acts hu hst htake hn hcrc, hack, Bool.and_false, if_neg nofun]
    obtain ⟨hnothing, herror⟩ := takeAck_none (t := e) hd
    exact ⟨fun hpos hout => ⟨_, rfl, takeAck_frees hvlen hd hpos hout⟩, fun h => by rw [hnothing h], fun hne hout hnew => by rw [herror hne hout hnew]⟩
  case nak =>
    intro s u v t e p body hu hlen hst htake hn hcrc hnak
    obtain ⟨l, hport⟩ := takeIn_port htake hlen
    have hvlen : v.ports.length = 4 := (takeIn_onlyPort htake).length.trans hlen
    have hrel : (v.port p).rel = (u.port p).rel := by rw [hport]
    obtain ⟨hnothing, herror⟩ := takeAck_none (s := v) (p := p) (t := e) (ack := u8 body 0) rfl
    rw [← hrel, ack_acts hu hst htake hn hcrc, hnak, Bool.and_true]
    refine ⟨fun hok => by rw [if_pos hok], fun hbad => ?_, fun hlast hback => ?_⟩
    · simp only [ackOk, decide_eq_false_iff_not, not_or] at hbad
      rw [if_neg (by simp [ackOk]; omega), herror (by omega) (by omega) (by omega)]
    · have hzero : (u8 body 0 + 256 - (v.port p).rel.lastAck) % 256 = 0 := by omega
      refine ⟨_, rfl, ?_⟩
      rw [if_pos (by simp [ackOk, hzero]), hnothing (.inl hzero)]
      exact takeNak_again hvlen hback

end Sys2Proof.Machine
end
